-- ==== Sys2Proof/Word.lean ====
section
/-!
DEFINITION. The word types of the KPE-8160 (spec/00_scope.md R1 to R4): a register word, a byte and a bell time.
The reading and writing of fields stands in Machine/Operands.lean.
-/
namespace Sys2Proof

/-- A register word: 32 bits, little-endian in memory (R4). -/
abbrev Word := BitVec 32

/-- One byte of memory or of a frame. -/
abbrev Byte := BitVec 8

/-- Bell time: a 64-bit unsigned count of ticks of 2.5 ns (R3). -/
abbrev Time := BitVec 64

end Sys2Proof
end

