-- ==== Sys2Proof/Syntax.lean ====
section
/-!
DEFINITION. The commands of the KPE-8160 block: one constructor per row of spec/opcode_table.json, with the operands its
rule gives it, and the small records those operands need.
-/
namespace Sys2Proof

/-- What the end of one SELFTEST activity brings (R85, R87): the spares in use and the faults that stay
uncovered; whether the journal responds; whether every Invar checker detected its test mismatch; whether every ADC
calibration fell inside its range. -/
inductive SelftestResult where
  /-- The memory test: of way m of bank b, at 8b + m, the spares that the repair fuses use, and the faults in non-spare locations that the
  march finds; a tables array has a fault that cannot be repaired. -/
  | memory (fuse found : Vector Byte 64) (tables : Bool)
  /-- The journal scan: whether the journal responds. The records themselves are State. -/
  | journal (responds : Bool)
  /-- The Invar checker test: `none` when every checker detected its mismatch, else the failing checker. -/
  | invarChecker (failing : Option Byte)
  /-- The ADC calibration: `none` when every converter is in range, else the failing converter. -/
  | adc (failing : Option (Fin 16))
  deriving DecidableEq, Repr

/-- What launches (R156, R162): the committed line of a generator, or a warm-only cycle of a port. -/
inductive LaunchOf where
  | line (g : Fin 16)
  | warm (p : Fin 16)
  deriving DecidableEq, Repr

/-- A gating input (R163, R166, R167). -/
inductive GateSource where
  | kill
  | hopen (m : Fin 4)
  | mediaOut
  | jam (m : Fin 2)
  | hpnEn (p : Fin 16)
  deriving DecidableEq, Repr

/-- The header of a cascade frame as received (R427), with its port (0 CU, 1 CD); `ok`: it passes the checks of R437. -/
structure CasHdr where
  port : Fin 2
  seq : Byte
  src : Byte
  dst : Byte
  epoch : BitVec 16
  ok : Bool
  deriving DecidableEq, Repr

/-- The body of a DANS frame: a member's answer to discovery (R432). -/
structure Dans where
  position : Byte
  role : Byte
  expected : Byte
  length : Byte
  topology : Byte
  laneCu : Byte
  laneCd : Byte
  bell : Bool
  scanning : Bool
  transport : Bool
  hash : Word
  delta : BitVec 16
  deriving DecidableEq, Repr

/-- The three causes of link loss on a cascade port (R436). -/
inductive CasLoss where
  | lock | errors | time
  deriving DecidableEq, Repr


/-- An error that inline ECC finds in a page-store access (R507): the 32-byte unit, counted from the one that holds the access's first byte;
the channel; whether the error cannot be corrected. -/
structure EccErr where
  unit : Nat
  ch   : Fin 4
  hard : Bool
  deriving DecidableEq, Repr

/-- How a source read of a DMA channel completes (R456, R457, R507): with its data (of host memory; the device takes the data of its
own memories from them), with a completion error or a poisoned completion, or, from the page store, with errors that ECC finds. -/
inductive DmaReadEnd where
  | ok (data : List Byte)
  | bad
  | ecc (errs : List EccErr)
  deriving DecidableEq, Repr

/-- A host access through BAR2 or BAR4: a read of some bytes, or a write of bytes of which the byte enables select some (R488,
R508). -/
inductive BarAccess where
  | read (len : Nat)
  | write (data : List (Option Byte))
  deriving DecidableEq, Repr

/-- A fault that the march of a borrowed window finds: its offset in the window, and, where the fault also corrupted the word that was
saved, the 32 bytes that the restored word holds (R505). -/
structure MarchFault where
  off  : Fin 4096
  word : Option (List Byte)
  deriving DecidableEq, Repr

/-- The pins that a CLRFAULT command looks at (R347, R370, R375, R399): the fault input of the unit addressed reads low; the voltage of
its bus input, mV. Other register writes do not look at them. -/
structure Pins where
  flt : Bool
  bus : BitVec 16
  deriving DecidableEq, Repr

/-- The first transition of an edge that has qualified since: the commanded position there, and the ticks since (R365). -/
structure FirstEdge where
  pos : BitVec 48
  ago : BitVec 32
  deriving DecidableEq, Repr

/-- The voltages at a motor channel's bus and phase inputs, mV (R379). -/
structure MotorVolts where
  bus : BitVec 16
  ph : Vector (BitVec 16) 3
  deriving DecidableEq, Repr

/-- What comes with the completion of a channel's writes: the errors that inline ECC found where a write was merged with the rest of its unit,
by the number of the unit in the page store (R507), and the pins that an instruction then looks at. -/
structure WriteEnd where
  errs : List EccErr
  pins : Pins
  deriving DecidableEq, Repr

/-- The link as it comes up: its width, and Max_Read_Request_Size (as its field encodes it) and Extended Tag Field Enable as the host configures
the function on it (R511). -/
structure LinkConfig where
  width : BitVec 6
  maxRead : Fin 6
  extTag : Bool
  deriving DecidableEq, Repr

/-- The commands of the block: one constructor per row of spec/opcode_table.json, in its order, those without
operands last (Lean's runtime numbers at most 244 constructors that have fields). Operands are what comes from outside the block with the
command (an instance, pin levels, a value written, a frame's fields, samples). -/
inductive Instr where
  /-- PORST_ASSERT (R80): Assertion of PORST_N takes the device to RESET, discards the image and contents, resets registers and turns motor and stepper outputs and Romor lanes off. -/
  | porstAssert (widthNs : Nat)
  /-- WARMRST_ASSERT (R81): Assertion of WARMRST_N takes the device to RESET with the warm-reset scope of R80 and turns gate outputs and Romor lanes off within 1 µs. -/
  | warmrstAssert (widthNs : Nat)
  /-- PORST_RELEASE (R83): Release of PORST_N samples BOOT[1:0] and REFSEL and lets the device leave RESET once the root VCO is locked. -/
  | porstRelease (boot : BitVec 2) (casMstr refsel : Bool)
  /-- CLOCK_UNLOCK (R28): Loss of root lock lasting 1 µs inhibits firing, raises GLB_CLOCK_UNLOCK and enters SAFE_HOLD, or stops the loader in IMAGE_LOAD. -/
  | clockUnlock (refCycles : Nat)
  /-- CLOCK_RELOCK (R28): Return of root lock raises GLB_CLOCK_RELOCK and restarts an interrupted image load from its first byte. -/
  | clockRelock (refCycles : Nat)
  /-- EARLY_ACCESS (R100): A BAR access to a window that is not yet open reads 0 or is discarded, and the first one after each state entry raises BRU_EARLY_ACCESS. -/
  | earlyAccess (bar : Fin 8) (offset : Nat) (write : Bool)
  /-- PUSH_BEGIN (R77): The PUSH_BEGIN loader command enters phase PUSHING with the byte count cleared. -/
  | pushBegin (src : BitVec 2)
  /-- PUSH_END (R77): The PUSH_END loader command ends the host push and starts the checks of the pushed image. -/
  | pushEnd (src : BitVec 2)
  /-- RETRY_FLASH (R77): The RETRY_FLASH loader command starts a new read from flash slot A then B, or slot B only. -/
  | retryFlash (src : BitVec 2)
  /-- REVERT (R76): The REVERT loader command returns a reload to IDLE with the image in force unchanged and the staged image discarded. -/
  | revert (src : BitVec 2)
  /-- SVN_COMMIT (R61): The SVN_COMMIT command in IDLE raises the OTP security version to the svn of the image in force. -/
  | svnCommit (src : BitVec 2)
  /-- IMG_SRC_WRITE (R77): A write of IMG_CTL with cmd 0 sets the reload source only. -/
  | imgSrcWrite (src : BitVec 2)
  /-- IMG_DATA_WRITE (R67): A write to IMG_DATA in phase PUSHING appends four image bytes, or counts an overflow beyond 1 MB. -/
  | imgDataWrite (data : Word)
  /-- FLASH_READ_DONE (R68): The end of a flash read of a slot starts the checks of the image. -/
  | flashReadDone (bytes : List Byte)
  /-- FLASH_STROBE_TIMEOUT (R578): A data strobe that stays still for 10 µs fails the read with IMG_SOURCE_FAIL reason 2. -/
  | flashStrobeTimeout (addr : Word)
  /-- SELFTEST_ACTIVITY_DONE (R85): Completion of a SELFTEST activity (memory test, journal scan, Invar checker test or ADC calibration) records its status and enters LINK_TRAIN when all are done. -/
  | selftestActivityDone (result : SelftestResult)
  /-- XMC_TRAIN_DONE (R89): The end of a page-store channel training records success, repeats a first failure, or raises BRU_XMC_TRAIN_FAIL. -/
  | xmcTrainDone (ch : Fin 4) (ok : Bool) (phase : Byte)
  /-- PORT_ATTEMPT_START (R91): The end of the 10 ms gap between attempts starts the next Romor link attempt on a port. -/
  | portAttemptStart (p : Fin 16)
  /-- PORT_ATTEMPT_END (R210): The end of the 50 ms slot of a failed attempt resolves the port after the last attempt of its series. -/
  | portAttemptEnd (p : Fin 16)
  /-- DOT_WLINE_WRITE (R117): A write to DOT_Pn_WLINE commits lines, or is ignored with DOT_WLINE_BAD. -/
  | dotWlineWrite (p : Fin 16) (line : Word)
  /-- DOT_WADD_WRITE (R116): A write of N to DOT_Pn_WADD adds N to wline and commits the lines, or is ignored with DOT_WLINE_BAD. -/
  | dotWaddWrite (p : Fin 16) (add : BitVec 16)
  /-- DOT_ENABLE (R140): The ENABLE pipe command checks the ring configuration and takes the pipe from OFF to STOPPED or READY. -/
  | dotEnable (p : Fin 16) (gen : BitVec 16)
  /-- DOT_DISABLE (R138): The DISABLE pipe command takes the pipe to OFF and discards the ring. -/
  | dotDisable (p : Fin 16) (gen : BitVec 16)
  /-- DOT_CLEAR (R138): The CLEAR pipe command empties the ring and sets WLINE to NEXT. -/
  | dotClear (p : Fin 16) (gen : BitVec 16)
  /-- DOT_SETLINE (R138): The SETLINE pipe command sets NEXT and WLINE to DOT_Pn_LINE. -/
  | dotSetline (p : Fin 16) (gen : BitVec 16)
  /-- DOT_RELEASE (R138): The RELEASE pipe command takes a LATE pipe to STOPPED or READY. -/
  | dotRelease (p : Fin 16) (gen : BitVec 16)
  /-- LINE_ASSEMBLY_DONE (R127): The end of the assembly of a line hands it to its head port, which sends the LINE and PARM frames. -/
  | lineAssemblyDone (p : Fin 16)
  /-- PREFETCH_DONE (R114): A page-store fetch of a row's line into the prefetch store completes. -/
  | prefetchDone (p : Fin 16) (row : Fin 8) (errs : List EccErr)
  /-- UNDERRUN_PREDICT_TIMER (R130): Every 2^win ticks without a launch, each pipe in RUN predicts its fill and may request a data-late seamless stop. -/
  | underrunPredictTimer (p : Fin 16)
  /-- PREDICT_SAMPLE (R147): Every 64 ticks a predictive generator evaluates its next line and commits it with a FIRE frame, skips it, or waits. -/
  | predictSample (g : Fin 16)
  /-- FIXED_CLOCK_COMMIT (R151): At lead ticks before each fixed-clock launch instant the generator commits its line. -/
  | fixedClockCommit (g : Fin 16)
  /-- LINE_LAUNCH (R156): A committed line reaches its launch instant, its energy enters the model and later work keyed to the launch proceeds. -/
  | lineLaunch (what : LaunchOf)
  /-- FIRE_SLOT_START (R156): A slot of a row's fire window starts and its fire group fires. -/
  | fireSlotStart (p : Fin 16) (row : Fin 8)
  /-- LINE_WINDOW_END (R204): The last slot of a row's window ends, freeing the head buffer and retiring the slot when all rows are done. -/
  | lineWindowEnd (p : Fin 16) (row : Fin 8)
  /-- WARM_CYCLE_TIMER (R162): Every warm period without a launch the port sends a warm-only cycle. -/
  | warmCycleTimer (p : Fin 16)
  /-- WAVEFORM_ENTRY_WRITE (R159): A write to a waveform entry applies to later assemblies and recomputes pulse clamping. -/
  | waveformEntryWrite (index : Fin 512) (value : Word)
  /-- HOPEN_ASSERT (R167): A head-open input high gates the ports in its mask at once and raises FIR_HARD_GATE. -/
  | hopenAssert (m : Fin 4)
  /-- HPN_EN_EXTERNAL_LOW (R166): HPn_EN sensed low for 40 ns while released is a hard gate on the port. -/
  | hpnEnExternalLow (p : Fin 16)
  /-- JAM_QUALIFIED (R167): A JAM input asserted for jam_filt stops all ports at the next slot boundary and raises FIR_JAM. -/
  | jamQualified (m : Fin 2)
  /-- GATE_SOURCE_DEASSERT (R169): A gating input returns to its permitting level, ending its hold on RECOVER or START. -/
  | gateSourceDeassert (src : GateSource)
  /-- SAFE_HOLD_KILL (R163): At the end of the slot in progress after entry to SAFE_HOLD or SHUTDOWN, the port drives HPn_EN low and sends KILL. -/
  | safeHoldKill (p : Fin 16)
  /-- FIR_SETORG (R177): The SETORG command loads the generator origin and resets its mark. -/
  | firSetorg (g : Fin 16)
  /-- FIR_CAPORG (R177): The CAPORG command captures the origin from the present position. -/
  | firCaporg (g : Fin 16)
  /-- TRAIN_SET_RECEIVED (R208): Receipt of TS1 or TS2 sets on a head port advances its training state. -/
  | trainSetReceived (p : Fin 16) (ts2 : Bool) (data : Vector Byte 14)
  /-- TRAIN_STATE_TIMEOUT (R208): Expiry of a training state timeout fails the attempt and raises HLP_TRAIN_FAIL. -/
  | trainStateTimeout (p : Fin 16)
  /-- TSYNC_ECHO_RX (R212): An ECHO from the head gives theta and delta for acquisition or correction, and may send SET. -/
  | tsyncEchoRx (p : Fin 16) (t1 h2 h3 t4 : BitVec 51)
  /-- TSYNC_PROBE_TIMER (R215): Every 2^18 ticks in ACTIVE the device sends a PROBE on the port. -/
  | tsyncProbeTimer (p : Fin 16)
  /-- LACK_RX (R222): An LACK frame acknowledges or refuses a downstream frame, or marks a line lost. -/
  | lackRx (p : Fin 16) (fseq status : Byte)
  /-- LACK_TIMEOUT (R221): A LINE, PARM or CTRL frame without LACK after 2,000 ticks is retransmitted, or a CTRL frame causes link loss. -/
  | lackTimeout (p : Fin 16) (fseq : Byte)
  /-- FIRE_LACK_TIMEOUT (R221): A FIRE frame without LACK after 160 ticks is retransmitted once or its line is lost. -/
  | fireLackTimeout (p : Fin 16) (fseq : Byte)
  /-- MEM_RESPONSE_RX (R201): A MEM response returns a credit and completes a memory read or write. -/
  | memResponseRx (p : Fin 16) (tag status : Byte) (data : List Byte)
  /-- MEM_RESPONSE_TIMEOUT (R221): A MEM request without response after 20 µs is retransmitted, or fails with HLP_MEM_TIMEOUT. -/
  | memResponseTimeout (p : Fin 16) (tag : Byte)
  /-- TELE_KIND0_RX (R232): A TELE frame of kind 0 corrects the model energy and brings zone samples, peak currents and checks. -/
  | teleKind0Rx (p : Fin 16) (tag : BitVec 16) (warmOnly : Bool) (slots : Fin 17) (energy ipk temps : List (BitVec 16))
  /-- TELE_KIND1_RX (R271): A TELE frame of kind 1 applies drop-detect results to the health table. -/
  | teleKind1Rx (p : Fin 16) (entries : List Word)
  /-- HEVT_RX (R231): An HEVT frame raises HLP_HEAD_FAULT with the severity of its code. -/
  | hevtRx (p : Fin 16) (code index : Byte) (value : Word)
  /-- UPSTREAM_FRAME_BAD (R224): A bad upstream frame is discarded and counted towards link loss. -/
  | upstreamFrameBad (p : Fin 16) (codeErr : Bool)
  /-- SYMBOL_LOCK_LOSS (R218): Loss of symbol lock for more than 1 µs is link loss on the port. -/
  | symbolLockLoss (p : Fin 16)
  /-- HOTSWAP_ATTEMPT_TIMER (R225): Every 100 ms in IDLE an absent hot-swap port starts a training attempt. -/
  | hotswapAttemptTimer (p : Fin 16)
  /-- HLP_RETRAIN (R230): The RETRAIN port command gives the port three new attempts. -/
  | hlpRetrain (p : Fin 16) (gen : BitVec 16)
  /-- HLP_MEMRD (R230): The MEMRD port command reads head memory into HLP_Pn_MEMBUF. -/
  | hlpMemrd (p : Fin 16) (gen : BitVec 16)
  /-- HLP_MEMWR (R230): The MEMWR port command writes head memory from HLP_Pn_MEMBUF, or is refused as PROTECTED. -/
  | hlpMemwr (p : Fin 16) (gen : BitVec 16)
  /-- TELE_MISSING_TIMEOUT (R233): A TELE frame not arrived 12 µs after its line's last slot counts as missing. -/
  | teleMissingTimeout (p : Fin 16)
  /-- MODEL_IDLE_UPDATE (R234): Every 2^16 ticks without a launch the model updates every primitive of the port with zero energy. -/
  | modelIdleUpdate (p : Fin 16)
  /-- ZONE_POLL_TIMER (R238): Without TELE for 2^22 ticks the device reads the zone temperatures by MEM request. -/
  | zonePollTimer (p : Fin 16)
  /-- DIE_SENSOR_SAMPLE (R242): Every 4,096 ticks the die sensors are sampled and the die limits evaluated. -/
  | dieSensorSample (temps : Vector (BitVec 16) 4)
  /-- LEDGER_WAIT_TIMEOUT (R254): A request waiting longer than wait_ms raises THM_LEDGER_WAIT once. -/
  | ledgerWaitTimeout (cls : Fin 6) (inst : Fin 16)
  /-- THM_RESEED (R263): The RESEED command seeds the port's model to tref. -/
  | thmReseed (p : Fin 16) (gen : BitVec 16)
  /-- THM_CLRMAX (R263): The CLRMAX command clears tjmax and the zone rate of the port. -/
  | thmClrmax (p : Fin 16) (gen : BitVec 16)
  /-- NHL_HOSTRES_WRITE (R273): A write to NHL_HOSTRES applies a host drop result weight times, or discards it. -/
  | nhlHostresWrite (value : Word)
  /-- TABLE_ENTRY_WRITE (R545): A write to a health, substitution, microstep, feed or pass-mask table entry applies under its own rule. -/
  | tableEntryWrite (offset : BitVec 24) (value : Word) (high : Option Word)
  /-- SCAN_BLOCK_TIMEOUT (R275): 100 µs after a block's last scan line the device sends the DDSCAN of the next block. -/
  | scanBlockTimeout (p : Fin 16)
  /-- NHL_GAP_DECLARE (R276): A non-zero write to NHL_Pn_GAPLEN declares a gap of trigger lines for scans and spits. -/
  | nhlGapDeclare (p : Fin 16) (len : BitVec 16)
  /-- SERVICE_LINE_TIMER (R285): Every service period a running service sequence sends its next service line, ending the sequence after the last. -/
  | serviceLineTimer (p : Fin 16)
  /-- AUTO_SPIT_TIMER (R285): Expiry of the auto-spit timer starts a spit in ARMED or makes one pending in PRINT. -/
  | autoSpitTimer (p : Fin 16)
  /-- NHL_SCAN (R288): The SCAN command starts a service scan in ARMED or makes a scan pending in PRINT. -/
  | nhlScan (p : Fin 16) (gen : BitVec 16)
  /-- NHL_SPIT (R288): The SPIT command starts a spit in ARMED or makes one pending in PRINT. -/
  | nhlSpit (p : Fin 16) (gen : BitVec 16)
  /-- NHL_ABORT (R286): The ABORT command ends a service sequence and clears pending items. -/
  | nhlAbort (p : Fin 16) (gen : BitVec 16)
  /-- NHL_REBUILD (R282): The REBUILD command rebuilds every auto substitution entry of the port. -/
  | nhlRebuild (p : Fin 16) (gen : BitVec 16)
  /-- NHL_CLEAR (R283): The CLEAR command resets the port's health entries, substitution entries and scan position. -/
  | nhlClear (p : Fin 16) (gen : BitVec 16)
  /-- ENCODER_EDGE (R311): An edge of A or B updates the count, marks, direction and speed, and evaluates compares and reactive triggers. -/
  | encoderEdge (n : Fin 8) (a b : Bool)
  /-- INDEX_EDGE (R314): A qualified index edge triggers a capture or an emulated Z pulse. -/
  | indexEdge (n : Fin 8)
  /-- SINCOS_SAMPLE (R316): Every 16 ticks a sin/cos channel corrects, checks and interpolates its signals. -/
  | sincosSample (n : Fin 8) (xs xc : BitVec 12)
  /-- SIGNAL_OK (R317): After 1,024 consecutive valid samples the channel returns to OK and is marked suspect. -/
  | signalOk (n : Fin 8)
  /-- SINCOS_SPEED_TICK (R329): Every 4,000 ticks a sin/cos channel computes its speed. -/
  | sincosSpeedTick (n : Fin 8)
  /-- SPEED_STANDSTILL_TIMEOUT (R328): No edge for 2^stout ticks sets the speed to 0, clears VALID and restarts the history. -/
  | speedStandstillTimeout (n : Fin 8)
  /-- POS_INT_READ (R321): A read of POS_PCn_POS_INT takes the snapshot of fraction, speed and VALID. -/
  | posIntRead (n : Fin 8)
  /-- POS_PRESET (R323): The PRESET command loads the position, resets the marks and clears speed history and suspect. -/
  | posPreset (n : Fin 8)
  /-- POS_CLRCNT (R341): The CLRCNT command clears the channel's fault counts. -/
  | posClrcnt (n : Fin 8)
  /-- CMP_ARM (R333): The ARM compare command resets the mark, arms the compare and applies the behind check. -/
  | cmpArm (n : Fin 8) (m : Fin 4)
  /-- CMP_DISARM (R342): The DISARM compare command disarms the compare. -/
  | cmpDisarm (n : Fin 8) (m : Fin 4)
  /-- EE_OUTPUT_STEP (R337): After the edge spacing, an emulated-encoder output steps one count toward its target. -/
  | eeOutputStep (e : Fin 4)
  /-- STP_ENABLE (R370): The ENABLE axis command energises the axis at hold amplitude and takes p0 and q0. -/
  | stpEnable (n : Fin 8)
  /-- STP_DISABLE (R370): The DISABLE axis command takes the axis to OFF. -/
  | stpDisable (n : Fin 8)
  /-- STP_MOVE (R348): The MOVE axis command latches the profile and starts or retargets a move. -/
  | stpMove (n : Fin 8)
  /-- STP_JOG (R349): The JOG axis command latches the profile and runs toward vmax in the commanded direction. -/
  | stpJog (n : Fin 8) (neg : Bool)
  /-- STP_STOP (R370): The STOP axis command makes a normal stop to HOLD. -/
  | stpStop (n : Fin 8)
  /-- STP_ESTOP (R353): The ESTOP axis command applies the emergency ramp. -/
  | stpEstop (n : Fin 8)
  /-- STP_HOME (R364): The HOME axis command starts the homing phases. -/
  | stpHome (n : Fin 8)
  /-- STP_SETPOS (R370): The SETPOS axis command loads the position and takes new p0 and q0. -/
  | stpSetpos (n : Fin 8)
  /-- STP_CLRFAULT (R370): The CLRFAULT axis command takes a FAULT axis to OFF when its fault input is high. -/
  | stpClrfault (n : Fin 8) (flt : Bool)
  /-- PROFILE_UPDATE (R349): Every 1.28 µs the axis profile generator advances the trajectory and checks stall and soft limits. -/
  | profileUpdate (n : Fin 8)
  /-- STP_BRIDGE_FAULT (R347): SAn_FLT_N low for 1 µs drives the outputs low and faults the axis. -/
  | stpBridgeFault (n : Fin 8)
  /-- LIMIT_QUALIFIED (R355): A hard limit that qualifies while moving toward it applies the emergency ramp and raises STP_LIMIT. -/
  | limitQualified (n : Fin 8) (limB asserted : Bool)
  /-- HOME_EDGE_QUALIFIED (R365): A qualified home edge latches the position and advances the homing phase. -/
  | homeEdgeQualified (n : Fin 8) (active : Bool) (first : FirstEdge) (chans : Vector (BitVec 56) 8)
  /-- HOME_CHATTER_TIMEOUT (R366): A home input that does not settle within 10 ms fails homing with HOME_FAIL_CHATTER. -/
  | homeChatterTimeout (n : Fin 8)
  /-- HOLD_DELAY_EXPIRY (R362): After hdelay at rest the axis drops to hold amplitude or current. -/
  | holdDelayExpiry (n : Fin 8)
  /-- MOT_START (R399): The START motor command enters SENSE for pre-start sensing. -/
  | motStart (n : Fin 4)
  /-- MOT_STOP (R390): The STOP motor command decelerates through DECEL. -/
  | motStop (n : Fin 4)
  /-- MOT_COAST (R399): The COAST motor command turns all outputs low. -/
  | motCoast (n : Fin 4)
  /-- MOT_ESTOP (R391): The ESTOP motor command applies the emergency ramp. -/
  | motEstop (n : Fin 4)
  /-- MOT_MOVE (R394): The MOVE motor command starts or retargets a position profile on an encoder channel. -/
  | motMove (n : Fin 4)
  /-- MOT_CLRFAULT (R399): The CLRFAULT motor command takes FAULT to COAST when the cause is gone. -/
  | motClrfault (n : Fin 4) (flt : Bool) (bus : BitVec 16)
  /-- MOT_GATE_FAULT (R375): MCn_FLT_N low for 1 µs turns the outputs low and faults the channel. -/
  | motGateFault (n : Fin 4)
  /-- MOT_OVERCURRENT (R378): A shunt conversion above itrip turns the outputs low and faults the channel. -/
  | motOvercurrent (n : Fin 4) (phase : Fin 3) (ma : BitVec 32)
  /-- PWM_PERIOD_UPDATE (R383): Each PWM period the channel samples currents, runs the regulators, field weakening and the lock metric. -/
  | pwmPeriodUpdate (n : Fin 4) (uv : Vector (BitVec 24) 3) (on : Vector (BitVec 16) 3) (volts : MotorVolts)
  /-- SENSE_WINDOW_END (R384): The end of the pre-start window catches the spin, aligns, or reverse-brakes. -/
  | senseWindowEnd (n : Fin 4)
  /-- ZERO_CROSSING (R386): A back-EMF zero crossing drives commutation, measurement or reacquisition. -/
  | zeroCrossing (n : Fin 4) (phase : Fin 3) (rising : Bool)
  /-- ALIGN_END (R386): The end of align_ms starts open-loop start-up. -/
  | alignEnd (n : Fin 4)
  /-- REVERSE_TIMEOUT (R385): Reverse rotation persisting for revto coasts the channel and raises MOT_REVERSE_HELD. -/
  | reverseTimeout (n : Fin 4)
  /-- REVBRAKE_HOLD_END (R385): The end of the brake hold after reverse speed falls enters ALIGN. -/
  | revbrakeHoldEnd (n : Fin 4)
  /-- REACQ_WINDOW_END (R388): The end of a 20 ms reacquisition window without result starts another or faults the channel. -/
  | reacqWindowEnd (n : Fin 4)
  /-- VBUS_LOW_TIMEOUT (R393): Bus voltage below vmin for 1 ms coasts and faults the channel. -/
  | vbusLowTimeout (n : Fin 4)
  /-- COAST_TIMEOUT (R392): 100 ms in COAST without crossing or valid speed enters OFF. -/
  | coastTimeout (n : Fin 4)
  /-- CAS_TS_RECEIVED (R426): Receipt of training sets advances a cascade port's training state. -/
  | casTsReceived (port : Fin 2) (ts2 : Bool) (data : Vector Byte 14)
  /-- CAS_TRAIN_TIMEOUT (R426): A cascade training timeout fails the attempt, which restarts 50 ms after its start. -/
  | casTrainTimeout (port : Fin 2)
  /-- CAS_TSYNC_ECHO_RX (R428): An ECHO on CU gives theta for acquisition, slew or time lost. -/
  | casTsyncEchoRx (t1 h2 h3 t4 : BitVec 52)
  /-- BELL_SET_RX (R434): A bell set arriving on CU is forwarded to CD and decoded. -/
  | bellSetRx (data : Vector Byte 14)
  /-- LOCAL_BELL_TICK (R435): At each bell tick a device launches its BELL line or raises CAS_BELL_MISSED. -/
  | localBellTick (tick : BitVec 64)
  /-- TRG_SET_RX (R446): A chain trigger set raises the mapped local signals and is forwarded. -/
  | trgSetRx (port : Fin 2) (mask : Byte)
  /-- DISC_RX (R432): A DISC frame gives a member its position and is forwarded after the hop count increments. -/
  | discRx (h : CasHdr) (hops : Byte) (proposed : BitVec 16)
  /-- DANS_RX (R96): A DANS frame counts a member at the campanile and may complete discovery or fail it. -/
  | dansRx (h : CasHdr) (d : Dans)
  /-- DONE_RX (R432): A DONE frame completes discovery on a member and sets its role epoch. -/
  | doneRx (h : CasHdr) (epoch : BitVec 16) (length transport : Byte) (hashes : Vector Word 8)
  /-- REDISC_RX (R433): A REDISC frame at the campanile starts or holds a new discovery. -/
  | rediscRx (h : CasHdr)
  /-- MSG_START_RX (R440): A START message selects the tick ts at which armed devices enter PRINT. -/
  | msgStartRx (h : CasHdr) (ts : BitVec 64)
  /-- MSG_STOP_RX (R440): A STOP message takes a device in PRINT to STOPPING. -/
  | msgStopRx (h : CasHdr)
  /-- PEER_STOP_RX (R442): A PEER_STOP message raises CAS_PEER_STOP and acts as a STOP-class event. -/
  | peerStopRx (h : CasHdr) (code : BitVec 16)
  /-- PEER_HALT_RX (R442): A PEER_HALT message raises CAS_PEER_HALT and enters SAFE_HOLD. -/
  | peerHaltRx (h : CasHdr) (code : BitVec 16)
  /-- SSREQ_RX (R443): An SSREQ at the transport device causes or joins a seamless stop. -/
  | ssreqRx (h : CasHdr) (cause : Byte)
  /-- SSDEC_RX (R415): An SSDEC makes the device apply its stop at td, or forbid with reason 8. -/
  | ssdecRx (h : CasHdr) (td : BitVec 64)
  /-- SSREADY_RX (R415): An SSREADY records a device's refill gate and sends SSGO when all have reported. -/
  | ssreadyRx (h : CasHdr)
  /-- SSGO_RX (R415): An SSGO makes every device enter ACCEL. -/
  | ssgoRx (h : CasHdr)
  /-- SSFORBID_RX (R415): An SSFORBID at the transport device abandons the sequence for the chain. -/
  | ssforbidRx (h : CasHdr) (reason : Byte)
  /-- SSABANDON_RX (R412): An SSABANDON makes each device abandon its sequence. -/
  | ssabandonRx (h : CasHdr)
  /-- USER_MSG_RX (R439): A USER message is stored in CAS_RXMSG and sets FLAG.rx, or is dropped with NAK on epoch mismatch. -/
  | userMsgRx (h : CasHdr) (data : Vector Byte 16)
  /-- CAS_ACK_RX (R437): An ACK completes a role-addressed frame. -/
  | casAckRx (h : CasHdr) (seq : Byte)
  /-- CAS_NAK_RX (R439): A NAK raises CAS_MSG_NAK and sets CAS_FLAG.nak. -/
  | casNakRx (h : CasHdr) (seq role : Byte) (epoch : BitVec 16)
  /-- CAS_ACK_TIMEOUT (R437): A frame without ACK after 1 µs is retransmitted, at most twice. -/
  | casAckTimeout (seq : Byte)
  /-- STAT_RX (R444): A STAT frame updates the campanile's aggregated status of the member. -/
  | statRx (h : CasHdr) (state : BitVec 4) (sev : BitVec 2) (code : BitVec 16) (die : Byte) (fill : BitVec 16)
  /-- MEMBER_LOST_TIMEOUT (R444): No STAT from a member for four periods raises CAS_MEMBER_LOST. -/
  | memberLostTimeout (n : Fin 8)
  /-- POS_FRAME_RX (R445): A POS frame updates the received sample and may raise CAS_POS_DEV. -/
  | posFrameRx (h : CasHdr) (posInt posFrac : Word) (time : BitVec 64) (speed : Word) (valid dir : Bool)
  /-- CAS_LINK_LOSS (R436): Cascade link loss raises CAS_LINK_DOWN and retrains the port. -/
  | casLinkLoss (port : Fin 2) (cause : CasLoss)
  /-- DMA_START (R471): The START channel command hands over the armed shadow and runs it. -/
  | dmaStart (n : Fin 32)
  /-- DMA_PAUSE (R475): The PAUSE channel command stops issuing reads and enters PAUSING or PAUSED. -/
  | dmaPause (n : Fin 32)
  /-- DMA_DRAIN (R477): The DRAIN channel command finishes the current instruction, writes DRAINED and pauses. -/
  | dmaDrain (n : Fin 32)
  /-- DMA_RESUME (R476): The RESUME channel command continues a paused channel from its exact state. -/
  | dmaResume (n : Fin 32)
  /-- DMA_ABORT (R478): The ABORT channel command pauses, writes ABORTED and enters IDLE. -/
  | dmaAbort (n : Fin 32)
  /-- DMA_ARM (R473): The ARM channel command sets arm and clears swapped. -/
  | dmaArm (n : Fin 32)
  /-- DMA_DISARM (R474): The DISARM channel command clears arm. -/
  | dmaDisarm (n : Fin 32)
  /-- DMA_CLRERR (R483): The CLRERR channel command takes ERROR to IDLE. -/
  | dmaClrerr (n : Fin 32)
  /-- DMA_NOP (R452): The NOP instruction does nothing. -/
  | dmaNop (ch : Fin 32)
  /-- DMA_SRC (R453): The SRC instruction sets the source base and address space. -/
  | dmaSrc (ch : Fin 32)
  /-- DMA_DST (R453): The DST instruction sets the destination base and address space. -/
  | dmaDst (ch : Fin 32)
  /-- DMA_SPAT (R454): The SPAT instruction sets the source pattern. -/
  | dmaSpat (ch : Fin 32)
  /-- DMA_DPAT (R454): The DPAT instruction sets the destination pattern. -/
  | dmaDpat (ch : Fin 32)
  /-- DMA_XFER (R455): The XFER instruction moves the source pattern into the destination pattern and advances the bases. -/
  | dmaXfer (ch : Fin 32)
  /-- DMA_SETC (R460): The SETC instruction loads a loop counter. -/
  | dmaSetc (ch : Fin 32)
  /-- DMA_LOOP (R460): The LOOP instruction decrements a counter and branches while it is not 0. -/
  | dmaLoop (ch : Fin 32)
  /-- DMA_WAIT (R461): The WAIT instruction holds until its signal, space, launch, bell or next condition holds. -/
  | dmaWait (ch : Fin 32)
  /-- DMA_SIGNAL (R463): The SIGNAL instruction raises a signal by its count after earlier writes complete. -/
  | dmaSignal (ch : Fin 32)
  /-- DMA_WRI (R459): The WRI instruction writes a register as a host write would, or ends with ERR_REG. -/
  | dmaWri (ch : Fin 32) (pins : Pins)
  /-- DMA_CPL (R466): The CPL instruction writes a completion record. -/
  | dmaCpl (ch : Fin 32)
  /-- DMA_SWAP (R471): The SWAP instruction hands over to the armed shadow, or continues when not armed. -/
  | dmaSwap (ch : Fin 32)
  /-- DMA_END (R471): The END instruction hands over to the armed shadow or takes the channel to IDLE. -/
  | dmaEnd (ch : Fin 32)
  /-- DMA_READ_COMPLETION (R456): A source read completes and its bytes enter the holding register, or it fails the channel. -/
  | dmaReadCompletion (n i : Fin 32) (e : DmaReadEnd)
  /-- DMA_WRITE_COMPLETE (R458): Completion of the earlier writes lets a waiting SIGNAL, WRI, CPL, SWAP or END act. -/
  | dmaWriteComplete (ch : Fin 32) (e : WriteEnd)
  /-- DMA_PAUSE_DONE (R475): The last issued read of a pausing channel completes and the channel enters PAUSED. -/
  | dmaPauseDone (n : Fin 32)
  /-- DMA_WAIT_SATISFIED (R461): The condition of a held WAIT becomes true and the channel continues. -/
  | dmaWaitSatisfied (ch : Fin 32)
  /-- DMA_WAIT_TIMEOUT (R462): A WAIT whose limit passes ends the channel with WAIT_TIMEOUT. -/
  | dmaWaitTimeout (ch : Fin 32)
  /-- CQFULL_RELEASE (R467): Room in the queue lets a channel held in CQFULL write its record and continue. -/
  | cqfullRelease (n : Fin 32)
  /-- CQ_IRQ_TIMER (R470): A record waiting unsignalled for 2^tmo ticks sends the queue's MSI-X vector. -/
  | cqIrqTimer (q : Fin 32)
  /-- CQ_HEAD_WRITE (R468): A write of DMA_CQn_HEAD frees entries of the completion queue. -/
  | cqHeadWrite (q : Fin 32) (head : BitVec 16)
  /-- SIGRAISE_ADD (R465): A DMA_SIGRAISE write with op 0 adds its count to a signal. -/
  | sigraiseAdd (sg : Fin 64) (count : Byte)
  /-- SIGRAISE_SET (R465): A DMA_SIGRAISE write with op 1 sets a signal to its count. -/
  | sigraiseSet (sg : Fin 64) (count : Byte)
  /-- SHADOW_REGISTER_WRITE (R473): A write to a shadow register is accepted when not armed, or refused with SHADOW_BUSY. -/
  | shadowRegisterWrite (n : Fin 32) (rel : BitVec 8) (v : Word)
  /-- MEM_SLEEP (R497): The SLEEP command moves a bank from ON to RETENTION, or is refused with IN_USE. -/
  | memSleep (b : Fin 8)
  /-- MEM_WAKE (R495): The WAKE command moves a bank from RETENTION to ON. -/
  | memWake (b : Fin 8)
  /-- MEM_MARCH (R501): The MARCH command starts a destructive March C− test on a bank. -/
  | memMarch (b : Fin 8)
  /-- MEM_STOPMARCH (R509): The STOPMARCH command ends a running destructive test. -/
  | memStopmarch (b : Fin 8)
  /-- BANK_TRANSITION_DONE (R495): A bank power transition completes and raises MEM_BANK_STATE. -/
  | bankTransitionDone (b : Fin 8)
  /-- MARCH_WINDOW_DONE (R502): The march of a window ends, its words are restored and it is released. -/
  | marchWindowDone (faults : List MarchFault)
  /-- MARCH_TEST_DONE (R501): A destructive test ends and raises MEM_MARCH_DONE. -/
  | marchTestDone (faults : List (Fin 12582912))
  /-- BAR2_ACCESS (R496): A host access through BAR2 reaches the SRAM, or reads 0 for a bank not ON. -/
  | bar2Access (off : BitVec 27) (a : BarAccess)
  /-- BAR4_ACCESS (R508): A host access through BAR4 reaches the page store through the window. -/
  | bar4Access (off : BitVec 28) (a : BarAccess) (errs : List EccErr)
  /-- HST_ACCESS_BAD (R515): A BAR0 access of an unsupported form or to no register reads 0 or is discarded and raises HST_ACCESS_BAD. -/
  | hstAccessBad (offset : BitVec 24) (size : Nat) (write : Bool)
  /-- INVAR_WRITE (R518): A write to an Invar register is applied as a pair or refused with a reason. -/
  | invarWrite (offset : BitVec 24) (whole : Bool) (value complement : Word)
  /-- W1C_FLAG_CLEAR (R8): A write of 1 to a W1C flag clears it unless hardware sets it in the same cycle. -/
  | w1cFlagClear (offset : BitVec 24) (bit : Fin 32) (sets : Bool)
  /-- AER_ERROR (R514): A logged PCIe error raises HST_PCIE_ERROR. -/
  | aerError (status header : Word) (uncorrectable : Bool)
  /-- MSIX_UNMASK (R524): Unmasking a vector with its pending bit set sends the message. -/
  | msixUnmask (v : Option (Fin 64))
  /-- EVHEAD_WRITE (R527): A write of HST_EVHEAD frees ring entries and writes HST_EVENT_LOST and queued events. -/
  | evheadWrite (head : BitVec 16)
  /-- EVCFG_WRITE (R530): A write of HST_EVCFG enables, disables or configures the event ring. -/
  | evcfgWrite (value : Word)
  /-- I2C_POINTER_WRITE (R534): An I2C write of three bytes sets the 24-bit pointer. -/
  | i2cPointerWrite (high mid low : Byte)
  /-- REGISTER_WRITE (R7): A write to a register with no row of its own sets its fields, or is ignored when locked. -/
  | registerWrite (offset : BitVec 24) (value : Word) (pins : Pins)
  /-- ADC_BACKGROUND_SAMPLE (R542): A background slot samples an unclaimed analog input into ADC_AINn. -/
  | adcBackgroundSample (input : Fin 56) (mv : BitVec 16)
  /-- AVS_CODE_STEP (R552): The device changes the AVS code by one step after 50 µs since the last change. -/
  | avsCodeStep (up : Bool)
  /-- PCIE_LINK_UP (R98): PCIe link training completes and the configuration space becomes ready, so configuration requests stop drawing Retry Status. -/
  | pcieLinkUp (speed : BitVec 4) (link : LinkConfig)
  /-- TSYNC_ACQ_PROBE_TIMER (R212): During TIMESYNC acquisition on a head port, the device sends the next of its 16 PROBEs 4,096 ticks after the last. -/
  | tsyncAcqProbeTimer (p : Fin 16)
  /-- REACTIVE_DELAYED_COMMIT (R150): A reactive commit held back by minsp takes place at last + minsp and is counted late. -/
  | reactiveDelayedCommit (g : Fin 16)
  /-- SPEED_SAMPLE_TICK (R328): Every 64 ticks a position channel re-evaluates its decaying speed without edges and offers its sample to the generators. -/
  | speedSampleTick (n : Fin 8)
  /-- STEPPER_PWM_PERIOD (R358): Each stepper PWM period the current stage reads the microstep table and drives or chops each coil. -/
  | stepperPwmPeriod (n : Fin 8) (va vb : BitVec 24)
  /-- HOST_READ_TIMEOUT (R457): A DMA host read that reaches the PCI Express completion timeout ends the channel with ERR_HOST. -/
  | hostReadTimeout (n i : Fin 32)
  /-- WARMRST_RELEASE (R35): Release of WARMRST_N lets the device leave RESET for IMAGE_LOAD once the root VCO is locked. -/
  | warmrstRelease
  /-- ROOT_VCO_LOCK (R35): Lock of the root VCO with reset released enters IMAGE_LOAD and starts the load from the strap-selected source. -/
  | rootVcoLock
  /-- THROTTLE_APPLY (R31): A pending change of the effective CORE_T throttle takes effect at the next boundary of 16 CORE_T cycles and raises GLB_THROTTLE. -/
  | throttleApply
  /-- GLB_ARM (R40): The ARM command takes IDLE to ARMED, or is refused with NOT_READY or STATE_REJECT. -/
  | glbArm
  /-- GLB_START (R40): The START command takes ARMED to PRINT. -/
  | glbStart
  /-- GLB_STOP (R40): The STOP command takes PRINT to STOPPING. -/
  | glbStop
  /-- GLB_DISARM (R40): The DISARM command takes ARMED to IDLE and sends KILL on every active port. -/
  | glbDisarm
  /-- GLB_RECOVER (R40): The RECOVER command takes SAFE_HOLD to IDLE, or is refused with CAUSE_ACTIVE. -/
  | glbRecover
  /-- GLB_RELOAD (R71): The RELOAD command in IDLE enters IMAGE_LOAD, brings motion to rest and pauses DMA. -/
  | glbReload
  /-- GLB_LANTERN (R531): The LANTERN command captures a snapshot of the Lantern summary and starts, or marks pending, its write. -/
  | glbLantern
  /-- GLB_SHUTDOWN (R581): The SHUTDOWN command enters SHUTDOWN and queues a SHUTDOWN journal record. -/
  | glbShutdown
  /-- STOPPING_COMPLETE (R35): Firing of the last committed line with the transport at rest takes STOPPING to ARMED. -/
  | stoppingComplete
  /-- PCIE_PERST_ASSERT (R101): Assertion of PCIE_PERST_N outside RESET pauses DMA, suspends the event ring and raises BRU_PCIE_RESET. -/
  | pciePerstAssert
  /-- SFDP_TIMEOUT (R578): No SFDP signature within 1 ms fails the source read with IMG_SOURCE_FAIL reason 1. -/
  | sfdpTimeout
  /-- XMC_ECC_INIT_DONE (R90): The end of the inline-ECC initialising write reports the page store trained. -/
  | xmcEccInitDone
  /-- BRU_RETRY (R103): The RETRY command restarts SELFTEST, the failed LINK_TRAIN activities, or attempts on absent optional ports. -/
  | bruRetry
  /-- DISC_TIMER (R95): Every 100 ms until discovery completes, the campanile sends a discovery message on CD. -/
  | discTimer
  /-- CASCADE_WAIT_TIMER (R97): A device that has waited 5 s for discovery raises BRU_CASCADE_WAIT once. -/
  | cascadeWaitTimer
  /-- HEAD_KILL_ASSERT (R167): HEAD_KILL_N low drives every HPn_EN low at once, sends KILL and raises FIR_HARD_GATE. -/
  | headKillAssert
  /-- MEDIA_OUT_QUALIFIED (R167): MEDIA_OUT asserted for media_filt stops all generators at the next line boundary and raises FIR_MEDIA_OUT. -/
  | mediaOutQualified
  /-- FALLBACK_COMPLETE (R257): With the transport at rest and the last slot ended, the fall-back queues its record and enters SAFE_HOLD or SHUTDOWN. -/
  | fallbackComplete
  /-- FALLBACK_TTL_EXPIRY (R257): Elapse of ttl during the fall-back switches at once to the main path. -/
  | fallbackTtlExpiry
  /-- LEDGER_GRANT (R252): A waiting ledger request is granted once avail permits and no higher request waits. -/
  | ledgerGrant
  /-- JOURNAL_PROGRAM_DONE (R262): Programming of a journal record completes and the next queued record starts. -/
  | journalProgramDone
  /-- SCN_SETJOB (R306): The SETJOB command checks and loads a scanning job. -/
  | scnSetjob
  /-- SCN_ENDJOB (R307): The ENDJOB command makes the current or pending entry the last of the job. -/
  | scnEndjob
  /-- SWEEP_LAST_SLOT_END (R300): The end of a sweep's last slot adds its feed and commands the transport. -/
  | sweepLastSlotEnd
  /-- CARRIAGE_AT_REST (R302): The carriage comes to rest at a turnaround and raises the turn signal. -/
  | carriageAtRest
  /-- FEED_COMPLETE (R302): The transport reaches the feed target of the sweep. -/
  | feedComplete
  /-- DWELL_TIMER (R302): Expiry of dwell_min or dwell_max ends a dwell gate of the turnaround. -/
  | dwellTimer
  /-- TURNAROUND_GO (R302): Once every gate holds, the device starts the move of the next sweep. -/
  | turnaroundGo
  /-- SS_SSTOP (R416): The SSTOP command causes a seamless stop or joins one. -/
  | ssSstop
  /-- SS_ABANDON (R412): The ABANDON command abandons the seamless-stop sequence. -/
  | ssAbandon
  /-- SS_DRAIN_END (R407): At t_e the device sends CANCEL and retargets the transport to x_rest. -/
  | ssDrainEnd
  /-- SS_DECEL_DONE (R407): The transport at rest at x_rest is moved back to xb. -/
  | ssDecelDone
  /-- SS_BACKUP_DONE (R408): The transport at rest at xb loads the origins and enters REFILL or PARK. -/
  | ssBackupDone
  /-- SS_REFILL_GATE (R409): Once the refill gate is met in PRINT the transport accelerates and the first lines are assembled. -/
  | ssRefillGate
  /-- SS_ACCEL_DONE (R409): The transport at v0 returns to the command in force at the decision. -/
  | ssAccelDone
  /-- CAS_PROBE_TIMER (R429): Every 2^16 ticks a member sends four PROBEs up its CU port. -/
  | casProbeTimer
  /-- BELL_SEND_TIMER (R434): The campanile sends the bell set of each tick adv ticks ahead. -/
  | bellSendTimer
  /-- START_TICK (R441): At ts an armed device enters PRINT, or raises CAS_START_MISS. -/
  | startTick
  /-- STAT_TIMER (R444): Every 2^sper ticks a member sends a STAT frame. -/
  | statTimer
  /-- CAS_SEND (R447): The SEND command sends a USER message. -/
  | casSend
  /-- CAS_RESYNC (R447): The RESYNC command starts a new time acquisition on a member. -/
  | casResync
  /-- CAS_CLRCNT (R447): The CLRCNT command clears CAS_CNT. -/
  | casClrcnt
  /-- MARCH_WINDOW_START (R502): Every 2^iexp ticks the march engine borrows and saves the next window. -/
  | marchWindowStart
  /-- INVAR_LOCK (R521): A write of 1 to HST_INVCTL.lock locks Invar writes until reset. -/
  | invarLock
  /-- OCC_CLEAR_SELECTED (R523): An HST_OCCCLR write of 1 clears the selected occurrence count. -/
  | occClearSelected
  /-- OCC_CLEAR_ALL (R523): An HST_OCCCLR write of 2 clears every occurrence count. -/
  | occClearAll
  /-- BME_CLEAR (R513): Clearing of Bus Master Enable holds host requests, suspends the ring and raises HST_BME_OFF. -/
  | bmeClear
  /-- BME_SET (R513): Setting of Bus Master Enable lets held requests, events and messages continue in order. -/
  | bmeSet
  /-- L1_ENTRY (R514): With nothing outstanding for 2^14 ticks the link enters L1. -/
  | l1Entry
  /-- EV_IRQ_TIMER (R530): A record waiting unsignalled for 2^tmo ticks sends the event-ring vector. -/
  | evIrqTimer
  /-- LANTERN_WRITE_DONE (R531): The end of a Lantern write updates HST_LANSEQ, raises HST_LANTERN_DONE and starts a pending capture. -/
  | lanternWriteDone
  /-- I2C_READ (R534): An I2C read returns the next byte of the view and advances the pointer. -/
  | i2cRead
  /-- I2C_SNAPSHOT (R534): A write of 0x4C at pointer 0xFF_0000 captures a snapshot into the I2C copy only. -/
  | i2cSnapshot
  /-- POWER_ON (R554): The supply rails rise and the device leaves OFF for RESET with all pins parked until reset is released. -/
  | powerOn
  /-- POWER_LOSS (R34): Core power is lost and the device enters OFF, interrupting any journal record in progress. -/
  | powerLoss
  /-- PCIE_PERST_RELEASE (R98): Release of PCIE_PERST_N starts PCIe link training and ends the suspension of PCIe-side resets. -/
  | pciePerstRelease
  /-- CAS_ACQ_PROBE_TIMER (R428): During cascade time acquisition, a member sends the next of its 16 PROBEs up CU 4,096 ticks after the last. -/
  | casAcqProbeTimer
  /-- SS_TD_REACHED (R415): Bell time reaches td and each device of the chain applies the seamless-stop decision to its own affected set. -/
  | ssTdReached
  /-- USAGE_SUMMARY_TIMER (R227): Every 600 s of PRINT the device writes the head usage counters and the older summary copy. -/
  | usageSummaryTimer
  deriving DecidableEq, Repr

end Sys2Proof
end

