-- ==== Sys2Proof/Config.lean ====
section
/-!
DEFINITION. What an implementation of the KPE-8160 fixes and what the spec leaves open. A free value is an opaque
constant: nothing in Lean can evaluate it, so a statement about it holds whatever the value is
(notes/assumptions/5.md).
-/
namespace Sys2Proof.Config

/-- A value the spec leaves open, drawn afresh at each use: `n` is the free-value counter of State, which the use advances.
The consumer narrows it to the width of what it fills. DESIGN CHOICE, log 5. -/
opaque freeValue : Nat → BitVec 64

/-- The result of the interpolation of a sin/cos channel where the spec bounds the error and does not state the bits
(R318). Arguments: the corrected sine and cosine. DESIGN CHOICE, log 5. -/
opaque freeAngle : Int → Int → Nat

/-- The functions of motor control that the spec names and does not state bit by bit: the current transform, the space-vector modulation and the
duty of a six-step period. Argument: which of the three, and its operands (R376, R383, R386). DESIGN CHOICE, log 79. -/
opaque freeMotor : List Int → BitVec 64

/-- The quotient of a division by zero, where a formula divides by a register that software may set to 0 and the spec states no result.
Argument: the dividend. DESIGN CHOICE, log 5. -/
opaque freeQuot : Nat → Nat

end Sys2Proof.Config
end

