-- ==== Sys2Proof/Machine/Operands.lean ====
section
/-!
DEFINITION. The number formats and operand forms of the spec (spec/00_scope.md R1, R2, R14): bit fields, two's complement,
rounding, saturation, byte order, and CRC-32C.
-/
namespace Sys2Proof.Machine

/-- Bits [hi:lo] of a register word as a number. -/
def bits (w : Word) (hi lo : Nat) : Nat := (w.toNat >>> lo) % 2 ^ (hi + 1 - lo)

/-- A register word with bits [hi:lo] replaced by the low bits of `v`. -/
def putBits (w : Word) (hi lo v : Nat) : Word :=
  let n := w.toNat
  BitVec.ofNat 32 (n - (bits w hi lo) * 2 ^ lo + (v % 2 ^ (hi + 1 - lo)) * 2 ^ lo)

/-- The low `n` bits of a number read as two's complement (R14, sN). -/
def signed (n x : Nat) : Int :=
  let y := x % 2 ^ n
  if y < 2 ^ (n - 1) then (y : Int) else (y : Int) - 2 ^ n

/-- A number narrowed to `n` bits, high bits discarded (R14). -/
def narrow (n : Nat) (x : Int) : Nat := (x % (2 ^ n : Int)).toNat

/-- A number narrowed to a register word. -/
def toWord (x : Int) : Word := BitVec.ofInt 32 x

/-- sat(x) into the range `lo` to `hi` (R14). -/
def sat (lo hi x : Int) : Int := if x < lo then lo else if hi < x then hi else x

/-- sat into an sN. -/
def satS (n : Nat) (x : Int) : Int := sat (-(2 ^ (n - 1))) (2 ^ (n - 1) - 1) x

/-- sat into a uN. -/
def satU (n : Nat) (x : Int) : Int := sat 0 (2 ^ n - 1) x

/-- x >> n, toward minus infinity (R14). -/
def shr (x : Int) (n : Nat) : Int := x / (2 ^ n : Int)

/-- A division by a value that may be 0: the spec states no quotient there (log 5). -/
def quot (a b : Nat) : Nat := if b = 0 then Config.freeQuot a else a / b

/-- The same for signed values, toward minus infinity and toward zero. -/
def quotI (a b : Int) : Int := if b = 0 then (Config.freeQuot a.natAbs : Nat) else a / b
def quotT (a b : Int) : Int := if b = 0 then (Config.freeQuot a.natAbs : Nat) else Int.tdiv a b

/-- rnd(x, n): add 2^(n-1), shift right by n (R14). -/
def rnd (x : Int) (n : Nat) : Int := (x + 2 ^ (n - 1)) / (2 ^ n : Int)

/-- The signed difference of two 32-bit numbers modulo 2^32 (R2, R115). -/
def diff32 (a b : Nat) : Int := signed 32 (narrow 32 ((a : Int) - b))

/-- The signed difference of two 32.16 positions modulo 2^48 (R2). -/
def diff48 (a b : Nat) : Int := signed 48 (narrow 48 ((a : Int) - b))

/-- A count that saturates at 2^n − 1. -/
def satInc (n x : Nat) : Nat := if x + 1 < 2 ^ n then x + 1 else 2 ^ n - 1

/-- A count increased by `d` that saturates at 2^n − 1. -/
def satAddU (n x d : Nat) : Nat := if x + d < 2 ^ n then x + d else 2 ^ n - 1

/-- `n` bytes of a number, least significant first (R4, R43). -/
def leBytes : Nat → Nat → List Byte
  | 0, _ => []
  | n + 1, v => BitVec.ofNat 8 (v % 256) :: leBytes n (v / 256)

/-- The number that bytes spell, least significant first. -/
def leNat : List Byte → Nat
  | [] => 0
  | b :: bs => b.toNat + 256 * leNat bs

/-- The number that bytes spell, most significant first (R43). -/
def beNat (bs : List Byte) : Nat := leNat bs.reverse

/-- `n` bytes of a list from offset `o`; a byte beyond the end reads 0. -/
def slice (bs : List Byte) (o n : Nat) : List Byte :=
  let t := (bs.drop o).take n
  t ++ List.replicate (n - t.length) 0

/-- The little-endian number of `n` bytes at offset `o`. -/
def fieldAt (bs : List Byte) (o n : Nat) : Nat := leNat (slice bs o n)

/-- One bit step of CRC-32C, reflected, polynomial 0x1EDC6F41 (R189). -/
def crcBit (c : Word) : Word := if c &&& 1 = 1 then (c >>> 1) ^^^ 0x82F63B78 else c >>> 1

/-- One byte of CRC-32C. -/
def crcByte (c : Word) (b : Byte) : Word :=
  crcBit (crcBit (crcBit (crcBit (crcBit (crcBit (crcBit (crcBit (c ^^^ b.setWidth 32))))))))

/-- CRC-32C of bytes: initial value and final complement all ones (R189). -/
def crc32c (bs : List Byte) : Word := ~~~(bs.foldl crcByte 0xFFFFFFFF)

/-- Nibble `n` of a number. -/
def nibble (x n : Nat) : Nat := (x / 16 ^ n) % 16

/-- Bit `n` of a number. -/
def bitOf (x n : Nat) : Bool := (x / 2 ^ n) % 2 = 1

/-- CRC-8 of bytes, polynomial 0x07, initial value 0, no reflection, no final XOR (R185). -/
def crc8 (bs : List Byte) : Byte :=
  bs.foldl (fun c b => (List.range 8).foldl (fun x _ => if bitOf x.toNat 7 then (x <<< 1) ^^^ 0x07 else x <<< 1) (c ^^^ b)) 0

/-- A Bool as a bit. -/
def b2n (b : Bool) : Nat := if b then 1 else 0

/-- The greatest integer whose square is at most `n`: 32 halving steps from above. -/
def isqrt (n : Nat) : Nat :=
  (List.range 40).foldr (fun i r => let t := r + 2 ^ i; if t * t ≤ n then t else r) 0

/-! ## Vectors indexed by numbers -/

/-- Element `i` of a vector, the index taken modulo the size. -/
def vat {α : Type} {n : Nat} [NeZero n] (v : Vector α n) (i : Nat) : α := v[i % n]'(Nat.mod_lt _ (Nat.pos_of_neZero n))

/-- The vector with element `i` replaced, the index taken modulo the size. -/
def vset {α : Type} {n : Nat} [NeZero n] (v : Vector α n) (i : Nat) (x : α) : Vector α n :=
  v.set (i % n) x (Nat.mod_lt _ (Nat.pos_of_neZero n))

/-- The vector with a function applied to element `i`. -/
def vmod {α : Type} {n : Nat} [NeZero n] (v : Vector α n) (i : Nat) (f : α → α) : Vector α n := vset v i (f (vat v i))

/-- The numbers below `n` for which a test holds, rising. -/
def those (n : Nat) (p : Nat → Bool) : List Nat := (List.range n).filter p

/-- The mask of the numbers below `n` for which a test holds. -/
def maskOf (n : Nat) (p : Nat → Bool) : Nat := (those n p).foldl (fun m i => m + 2 ^ i) 0

/-- A function applied for each number of a list, in order. -/
def forEach {σ : Type} (l : List Nat) (f : Nat → σ → σ) (s : σ) : σ := l.foldl (fun s i => f i s) s

end Sys2Proof.Machine
end

