-- ==== Sys2Proof/Machine/Events.lean ====
section
/-!
DEFINITION. The events of the KPE-8160: one kind per row of the event tables of spec/01 to spec/17 (R42, R78, R107, R142, R178,
R231, R264, R289, R343, R372, R401, R448, R486, R510, R539), with its code and severity. Where a row gives two severities the
kind takes the severity as an argument.
-/
namespace Sys2Proof.Machine

/-- The four severities (spec/00_scope.md, "Names"; numbering of R525). -/
inductive Sev where
  /-- Reports only. -/
  | info
  /-- Asks for attention. -/
  | warn
  /-- Causes an orderly stop. -/
  | stop
  /-- Enters SAFE_HOLD. -/
  | halt
  deriving DecidableEq, Repr

/-- The number of a severity in an event record (R525). -/
def Sev.code : Sev → Nat
  | .info => 0
  | .warn => 1
  | .stop => 2
  | .halt => 3

/-- What an event's table row fixes: its code, its severity, and whether its chapter names it for the journal whatever the ring's
state (R261). -/
structure EvKind where
  code    : BitVec 16
  sev     : Sev
  journal : Bool := false
  deriving DecidableEq, Repr

namespace Ev

/-- 0x0D00 GLB_STATE_CHANGE, INFO. Arguments: Old state; new state; cause event code. (spec/01) -/
def GLB_STATE_CHANGE : EvKind := ⟨0x0D00, .info, false⟩

/-- 0x0D01 GLB_CLOCK_UNLOCK, HALT. Arguments: Lock-loss duration so far, in REFCLK cycles of 10 ns, saturating at 0xFFFF_FFFF; global state at the loss; 0. (spec/01) -/
def GLB_CLOCK_UNLOCK : EvKind := ⟨0x0D01, .halt, false⟩

/-- 0x0D02 GLB_THROTTLE, WARN. Arguments: New div; new skip; cause, in the encoding of GLB_THRSTAT.cause. (spec/01) -/
def GLB_THROTTLE : EvKind := ⟨0x0D02, .warn, false⟩

/-- 0x0D03 GLB_CMD_REJECT, INFO. Arguments: Command; state; result. (spec/01) -/
def GLB_CMD_REJECT : EvKind := ⟨0x0D03, .info, false⟩

/-- 0x0D04 GLB_CLOCK_RELOCK, INFO. Arguments: Total lock-loss duration, in REFCLK cycles of 10 ns, saturating at 0xFFFF_FFFF; global state at relock; 0. (spec/01) -/
def GLB_CLOCK_RELOCK : EvKind := ⟨0x0D04, .info, false⟩

/-- 0x0100 IMG_LOADED, INFO. Arguments: Effective hash bytes 0 to 3; source (IMG_STAT.source encoding); 1 when partial. (spec/02) -/
def IMG_LOADED : EvKind := ⟨0x0100, .info, false⟩

/-- 0x0101 IMG_SOURCE_FAIL, WARN. Arguments: Source; flash address; 1 no response, 2 read timeout (R578). (spec/02) -/
def IMG_SOURCE_FAIL : EvKind := ⟨0x0101, .warn, true⟩

/-- 0x0102 IMG_BAD_MAGIC, WARN. Arguments: Magic read; 0; 0. (spec/02) -/
def IMG_BAD_MAGIC : EvKind := ⟨0x0102, .warn, true⟩

/-- 0x0103 IMG_BAD_VERSION, WARN. Arguments: ver_major; ver_minor; 0. (spec/02) -/
def IMG_BAD_VERSION : EvKind := ⟨0x0103, .warn, true⟩

/-- 0x0104 IMG_BAD_LENGTH, WARN. Arguments: Length field; bytes received; overflow count (R67). (spec/02) -/
def IMG_BAD_LENGTH : EvKind := ⟨0x0104, .warn, true⟩

/-- 0x0105 IMG_SECTION_BAD, WARN. Arguments: Section type; image offset; reason: 1 order, 2 duplicate, 3 overrun, 4 unknown non-optional type, 5 wrong length, 6 section count differs from nsect, 7 non-zero flags bits. The image offset is that of the section record's type field, except that it is that of its flags field for reason 7 and that of nsect (0x14) for reason 6, where the type is that of the last section found. (spec/02) -/
def IMG_SECTION_BAD : EvKind := ⟨0x0105, .warn, true⟩

/-- 0x0106 IMG_SECTION_MISSING, WARN. Arguments: Lowest missing section type, or 0x0000 (R49); 0; 0. (spec/02) -/
def IMG_SECTION_MISSING : EvKind := ⟨0x0106, .warn, true⟩

/-- 0x0107 IMG_HASH_MISMATCH, WARN. Arguments: Computed hash bytes 0 to 3; stored hash bytes 0 to 3; 0. (spec/02) -/
def IMG_HASH_MISMATCH : EvKind := ⟨0x0107, .warn, true⟩

/-- 0x0108 IMG_KEY_MISMATCH, WARN. Arguments: Key hash bytes 0 to 3; 0; 0. (spec/02) -/
def IMG_KEY_MISMATCH : EvKind := ⟨0x0108, .warn, true⟩

/-- 0x0109 IMG_SIG_INVALID, WARN. Arguments: 0; 0; 0. (spec/02) -/
def IMG_SIG_INVALID : EvKind := ⟨0x0109, .warn, true⟩

/-- 0x010A IMG_ROLLBACK, WARN. Arguments: Image svn; OTP security version; 0. (spec/02) -/
def IMG_ROLLBACK : EvKind := ⟨0x010A, .warn, true⟩

/-- 0x010B IMG_FIELD_INVALID, WARN. Arguments: Section type, or 0x0000 for the header (R68); offset within the section value, or within the header; value read (R50). (spec/02) -/
def IMG_FIELD_INVALID : EvKind := ⟨0x010B, .warn, true⟩

/-- 0x010C IMG_CONSTRAINT, WARN. Arguments: Rule code; instance (R582); 0. (spec/02) -/
def IMG_CONSTRAINT : EvKind := ⟨0x010C, .warn, true⟩

/-- 0x010D IMG_INVAR_BAD, WARN. Arguments: Register offset; value word; complement word (R55). (spec/02) -/
def IMG_INVAR_BAD : EvKind := ⟨0x010D, .warn, true⟩

/-- 0x010E IMG_BASE_MISMATCH, WARN. Arguments: base_hash bytes 0 to 3; effective hash bytes 0 to 3; 0. (spec/02) -/
def IMG_BASE_MISMATCH : EvKind := ⟨0x010E, .warn, true⟩

/-- 0x010F IMG_SCHED_PROOF, WARN. Arguments: Port; rail; proof current in mA. (spec/02) -/
def IMG_SCHED_PROOF : EvKind := ⟨0x010F, .warn, true⟩

/-- 0x0110 IMG_SLOT_FALLBACK, WARN. Arguments: Event code of the slot A failure; 0; 0. (spec/02) -/
def IMG_SLOT_FALLBACK : EvKind := ⟨0x0110, .warn, false⟩

/-- 0x0111 IMG_KEY_UNPROVISIONED, WARN. Arguments: 0; 0; 0. (spec/02) -/
def IMG_KEY_UNPROVISIONED : EvKind := ⟨0x0111, .warn, false⟩

/-- 0x0112 IMG_REVERTED, INFO. Arguments: Effective hash bytes 0 to 3; 0; 0. (spec/02) -/
def IMG_REVERTED : EvKind := ⟨0x0112, .info, false⟩

/-- 0x0113 IMG_SVN_COMMITTED, INFO. Arguments: Old OTP security version; new OTP security version; 0. (spec/02) -/
def IMG_SVN_COMMITTED : EvKind := ⟨0x0113, .info, false⟩

/-- 0x0114 IMG_CMD_REJECT, INFO. Arguments: Command; state; phase. (spec/02) -/
def IMG_CMD_REJECT : EvKind := ⟨0x0114, .info, false⟩

/-- 0x0120 BRU_SELFTEST_DONE, INFO. Arguments: Duration in µs; mask of banks tested; repair entries used. (spec/03) -/
def BRU_SELFTEST_DONE : EvKind := ⟨0x0120, .info, false⟩

/-- 0x0121 BRU_SELFTEST_FAIL, WARN. Arguments: Item: 1 memory, 2 journal, 3 Invar checker, 4 ADC; instance; detail. (spec/03) -/
def BRU_SELFTEST_FAIL : EvKind := ⟨0x0121, .warn, false⟩

/-- 0x0122 BRU_JOURNAL_TORN, INFO. Arguments: Records skipped; index of newest valid record; boot count. (spec/03) -/
def BRU_JOURNAL_TORN : EvKind := ⟨0x0122, .info, false⟩

/-- 0x0123 BRU_XMC_TRAIN_FAIL, WARN. Arguments: Channel; training phase; attempts. (spec/03) -/
def BRU_XMC_TRAIN_FAIL : EvKind := ⟨0x0123, .warn, false⟩

/-- 0x0124 BRU_PORT_FAIL, WARN. Arguments: Port; reason: 1 no signal, 2 training timeout, 3 identity, 4 rank; attempts. (spec/03) -/
def BRU_PORT_FAIL : EvKind := ⟨0x0124, .warn, false⟩

/-- 0x0125 BRU_PORT_ABSENT, INFO. Arguments: Port; presence; reason, as for BRU_PORT_FAIL. (spec/03) -/
def BRU_PORT_ABSENT : EvKind := ⟨0x0125, .info, false⟩

/-- 0x0126 BRU_CASCADE_WAIT, WARN. Arguments: Devices counted under R97, the raising device included; length expected; 0. (spec/03) -/
def BRU_CASCADE_WAIT : EvKind := ⟨0x0126, .warn, false⟩

/-- 0x0127 BRU_CASCADE_FAIL, WARN. Arguments: Reason: 1 count, 2 position, 3 scheduling mode, 4 role, 5 lane, 6 topology or print mode, 7 more than one transport device; chain position; 0. (spec/03) -/
def BRU_CASCADE_FAIL : EvKind := ⟨0x0127, .warn, false⟩

/-- 0x0128 BRU_READY, INFO. Arguments: µs from release of reset to IDLE; mask of trained ports; boot count. (spec/03) -/
def BRU_READY : EvKind := ⟨0x0128, .info, false⟩

/-- 0x0129 BRU_PCIE_RESET, WARN. Arguments: Global state; 0; 0. (spec/03) -/
def BRU_PCIE_RESET : EvKind := ⟨0x0129, .warn, false⟩

/-- 0x012A BRU_RETRY, INFO. Arguments: Global state; mask of activities restarted, in the order of GLB_BRUSTAT: bit 0 selftest, bit 1 page store, bit 2 ports, bit 3 cascade; 0. (spec/03) -/
def BRU_RETRY : EvKind := ⟨0x012A, .info, false⟩

/-- 0x012B BRU_EARLY_ACCESS, INFO. Arguments: BAR number; offset; 1 read, 2 write. (spec/03) -/
def BRU_EARLY_ACCESS : EvKind := ⟨0x012B, .info, false⟩

/-- 0x0300 DOT_PIPE_STATE, INFO. Arguments: Pipe; old state; new state. (spec/04) -/
def DOT_PIPE_STATE : EvKind := ⟨0x0300, .info, false⟩

/-- 0x0301 DOT_FILL_LOW, WARN. Arguments: Pipe; fill; low watermark. (spec/04) -/
def DOT_FILL_LOW : EvKind := ⟨0x0301, .warn, false⟩

/-- 0x0302 DOT_FILL_OK, INFO. Arguments: Pipe; fill; low watermark. (spec/04) -/
def DOT_FILL_OK : EvKind := ⟨0x0302, .info, false⟩

/-- 0x0303 DOT_UNDERRUN_PREDICTED, INFO. Arguments: Pipe; fill; pred. (spec/04) -/
def DOT_UNDERRUN_PREDICTED : EvKind := ⟨0x0303, .info, false⟩

/-- 0x0304 DOT_UNDERRUN, STOP. Arguments: Pipe; first unfired line; reason: 1 host commit, 2 page-store prefetch. (spec/04) -/
def DOT_UNDERRUN : EvKind := ⟨0x0304, .stop, false⟩

/-- 0x0305 DOT_WLINE_BAD, WARN. Arguments: Pipe; value written; wlimit. (spec/04) -/
def DOT_WLINE_BAD : EvKind := ⟨0x0305, .warn, false⟩

/-- 0x0306 DOT_SUB_LOST, INFO. Arguments: Pipe; line; dots lost in the line. (spec/04) -/
def DOT_SUB_LOST : EvKind := ⟨0x0306, .info, false⟩

/-- 0x0307 DOT_LINES_SKIPPED, WARN. Arguments: Pipe; first skipped line; count. (spec/04) -/
def DOT_LINES_SKIPPED : EvKind := ⟨0x0307, .warn, false⟩

/-- 0x0308 DOT_CFG_LOCKED, INFO. Arguments: Pipe; register offset; state. (spec/04) -/
def DOT_CFG_LOCKED : EvKind := ⟨0x0308, .info, false⟩

/-- 0x0309 DOT_CMD_REJECT, INFO. Arguments: Pipe; command; result. (spec/04) -/
def DOT_CMD_REJECT : EvKind := ⟨0x0309, .info, false⟩

/-- 0x0400 FIR_LT_STATE, INFO. Arguments: Generator; old state; new state. (spec/05) -/
def FIR_LT_STATE : EvKind := ⟨0x0400, .info, false⟩

/-- 0x0401 FIR_HARD_GATE, HALT. Arguments: Source: 1 HEAD_KILL_N, 2 HOPENm, 3 HPn_EN external; port mask; m or n. (spec/05) -/
def FIR_HARD_GATE : EvKind := ⟨0x0401, .halt, true⟩

/-- 0x0402 FIR_LINE_TORN, WARN. Arguments: Port; line; slots fired. (spec/05) -/
def FIR_LINE_TORN : EvKind := ⟨0x0402, .warn, true⟩

/-- 0x0403 FIR_MEDIA_OUT, STOP. Arguments: Mask of generators stopped; last committed line of the lowest; 0. (spec/05) -/
def FIR_MEDIA_OUT : EvKind := ⟨0x0403, .stop, false⟩

/-- 0x0404 FIR_JAM, HALT. Arguments: Input m; port mask; 0. (spec/05) -/
def FIR_JAM : EvKind := ⟨0x0404, .halt, true⟩

/-- 0x0405 FIR_LAUNCH_LATE, WARN. Arguments: Generator; line; largest lateness in ticks. (spec/05) -/
def FIR_LAUNCH_LATE : EvKind := ⟨0x0405, .warn, false⟩

/-- 0x0406 FIR_OVERSPEED, WARN. Arguments: Generator; skipped line; speed. (spec/05) -/
def FIR_OVERSPEED : EvKind := ⟨0x0406, .warn, false⟩

/-- 0x0407 FIR_SUPERVISE_DEV, STOP. Arguments: Generator; measured speed; nominal speed. (spec/05) -/
def FIR_SUPERVISE_DEV : EvKind := ⟨0x0407, .stop, false⟩

/-- 0x0408 FIR_PULSE_CLAMPED, WARN. Arguments: Port; row; set. (spec/05) -/
def FIR_PULSE_CLAMPED : EvKind := ⟨0x0408, .warn, false⟩

/-- 0x0409 FIR_FALLBACK, INFO. Arguments: Generator; 1 entered, 0 left; speed. (spec/05) -/
def FIR_FALLBACK : EvKind := ⟨0x0409, .info, false⟩

/-- 0x040A FIR_OFFSET_CLAMPED, INFO. Arguments: Generator; row; line. (spec/05) -/
def FIR_OFFSET_CLAMPED : EvKind := ⟨0x040A, .info, false⟩

/-- 0x040B FIR_CFG_LOCKED, INFO. Arguments: Instance; register offset; state. (spec/05) -/
def FIR_CFG_LOCKED : EvKind := ⟨0x040B, .info, false⟩

/-- 0x040C FIR_CMD_REJECT, INFO. Arguments: Generator; command; result. (spec/05) -/
def FIR_CMD_REJECT : EvKind := ⟨0x040C, .info, false⟩

/-- 0x0200 HLP_LINK_UP, INFO. Arguments: Port; delta in 1/8 tick; generation. (spec/06) -/
def HLP_LINK_UP : EvKind := ⟨0x0200, .info, false⟩

/-- 0x0201 HLP_LINK_DOWN, HALT or WARN (R220). Arguments: Port; cause: 1 lock, 2 error rate, 3 time lost, 4 CTRL frame unacknowledged (R218); link state. (spec/06) -/
def HLP_LINK_DOWN (sev : Sev) : EvKind := ⟨0x0201, sev, false⟩

/-- 0x0202 HLP_TRAIN_FAIL, INFO. Arguments: Port; state reached; reason as BRU_PORT_FAIL. (spec/06) -/
def HLP_TRAIN_FAIL : EvKind := ⟨0x0202, .info, false⟩

/-- 0x0203 HLP_IDENT_REFUSED, WARN. Arguments: Port; reason of R209; value read. (spec/06) -/
def HLP_IDENT_REFUSED : EvKind := ⟨0x0203, .warn, false⟩

/-- 0x0204 HLP_LINE_UNDELIVERED, STOP. Arguments: Port; line; frame type. (spec/06) -/
def HLP_LINE_UNDELIVERED : EvKind := ⟨0x0204, .stop, false⟩

/-- 0x0205 HLP_FIRE_LOST, STOP. Arguments: Port; line; LACK status, or 0xFF when none. (spec/06) -/
def HLP_FIRE_LOST : EvKind := ⟨0x0205, .stop, false⟩

/-- 0x0206 HLP_TIME_DRIFT, WARN. Arguments: Port; theta in 1/8 tick; 0. (spec/06) -/
def HLP_TIME_DRIFT : EvKind := ⟨0x0206, .warn, false⟩

/-- 0x0207 HLP_MEM_TIMEOUT, WARN. Arguments: Port; address; tag. (spec/06) -/
def HLP_MEM_TIMEOUT : EvKind := ⟨0x0207, .warn, false⟩

/-- 0x0208 HLP_HEAD_FAULT, HALT or WARN, per the HEVT table; HALT for a reserved code. Arguments: Port; HEVT code × 256 + byte 3 of the frame (rail or zone); value. (spec/06) -/
def HLP_HEAD_FAULT (sev : Sev) : EvKind := ⟨0x0208, sev, false⟩

/-- 0x0209 HLP_UP_ERROR, INFO. Arguments: Port; discarded frames in the last 2^20 ticks; 0. (spec/06) -/
def HLP_UP_ERROR : EvKind := ⟨0x0209, .info, false⟩

/-- 0x020A HLP_GEN_CHANGE, INFO. Arguments: Port; old generation; new generation. (spec/06) -/
def HLP_GEN_CHANGE : EvKind := ⟨0x020A, .info, false⟩

/-- 0x020B HLP_HOTSWAP, INFO. Arguments: Port; 1 removed, 2 inserted; serial bytes 0 to 3. (spec/06) -/
def HLP_HOTSWAP : EvKind := ⟨0x020B, .info, false⟩

/-- 0x020C HLP_CMD_REJECT, INFO. Arguments: Port; command; result. (spec/06) -/
def HLP_CMD_REJECT : EvKind := ⟨0x020C, .info, false⟩

/-- 0x020D HLP_FLIGHT_LONG, WARN. Arguments: Port; delta in 1/8 tick; 0. (spec/06) -/
def HLP_FLIGHT_LONG : EvKind := ⟨0x020D, .warn, false⟩

/-- 0x0500 THM_HEAD_THROTTLE, WARN. Arguments: Port; zone; temperature. (spec/07) -/
def THM_HEAD_THROTTLE : EvKind := ⟨0x0500, .warn, false⟩

/-- 0x0501 THM_HEAD_STOP, STOP. Arguments: Port; zone; 1 absolute, 2 rate. (spec/07) -/
def THM_HEAD_STOP : EvKind := ⟨0x0501, .stop, false⟩

/-- 0x0502 THM_HEAD_HALT, HALT. Arguments: Port; zone; 1 absolute, 2 rate. (spec/07) -/
def THM_HEAD_HALT : EvKind := ⟨0x0502, .halt, false⟩

/-- 0x0503 THM_DIE_STOP, STOP. Arguments: Sensor; temperature; 0. (spec/07) -/
def THM_DIE_STOP : EvKind := ⟨0x0503, .stop, false⟩

/-- 0x0504 THM_DIE_SHUTDOWN, HALT. Arguments: 1 absolute, 2 rate; temperature; rate. (spec/07) -/
def THM_DIE_SHUTDOWN : EvKind := ⟨0x0504, .halt, false⟩

/-- 0x0505 THM_LIMIT_RETURN, INFO. Arguments: Port, or 0xFF for the die; limit register offset; value. (spec/07) -/
def THM_LIMIT_RETURN : EvKind := ⟨0x0505, .info, false⟩

/-- 0x0506 THM_ZONE_FAULT, WARN. Arguments: Port; zone; reading. (spec/07) -/
def THM_ZONE_FAULT : EvKind := ⟨0x0506, .warn, false⟩

/-- 0x0507 THM_ZONE_OK, INFO. Arguments: Port; zone; reading. (spec/07) -/
def THM_ZONE_OK : EvKind := ⟨0x0507, .info, false⟩

/-- 0x0508 THM_MODEL_DEV, WARN. Arguments: Port; zone or 0xFF; T_z − tbm_z. (spec/07) -/
def THM_MODEL_DEV : EvKind := ⟨0x0508, .warn, false⟩

/-- 0x0509 THM_ZONES_LOST, HALT. Arguments: Port; fault mask; 0. (spec/07) -/
def THM_ZONES_LOST : EvKind := ⟨0x0509, .halt, false⟩

/-- 0x050A THM_TELE_MISSING, INFO. Arguments: Port; tag; missing count. (spec/07) -/
def THM_TELE_MISSING : EvKind := ⟨0x050A, .info, false⟩

/-- 0x050B THM_TELE_LOST, STOP. Arguments: Port; consecutive count; 0. (spec/07) -/
def THM_TELE_LOST : EvKind := ⟨0x050B, .stop, false⟩

/-- 0x050C THM_BUDGET_OVERRUN, WARN. Arguments: Port; rail; load in mA. (spec/07) -/
def THM_BUDGET_OVERRUN : EvKind := ⟨0x050C, .warn, false⟩

/-- 0x050D THM_PEAK_MEASURED, WARN. Arguments: Port; rail; peak in mA. (spec/07) -/
def THM_PEAK_MEASURED : EvKind := ⟨0x050D, .warn, false⟩

/-- 0x050E THM_LEDGER_WAIT, WARN. Arguments: Class; instance; amount in mW. (spec/07) -/
def THM_LEDGER_WAIT : EvKind := ⟨0x050E, .warn, false⟩

/-- 0x050F THM_LEDGER_DENY, WARN. Arguments: Class; instance; amount in mW. (spec/07) -/
def THM_LEDGER_DENY : EvKind := ⟨0x050F, .warn, false⟩

/-- 0x0510 THM_LEDGER_OVER, WARN. Arguments: avail; pmeas; 0. (spec/07) -/
def THM_LEDGER_OVER : EvKind := ⟨0x0510, .warn, false⟩

/-- 0x0511 THM_SHUTDOWN_PATH, INFO. Arguments: Path: 1 main, 2 fall-back; ttl in µs; tord in µs. (spec/07) -/
def THM_SHUTDOWN_PATH : EvKind := ⟨0x0511, .info, false⟩

/-- 0x0512 THM_CMD_REJECT, INFO. Arguments: Command; port; result. (spec/07) -/
def THM_CMD_REJECT : EvKind := ⟨0x0512, .info, false⟩

/-- 0x0513 THM_JOURNAL_DROP, WARN. Arguments: Type dropped; code dropped; NVJ_JDROP. (spec/07) -/
def THM_JOURNAL_DROP : EvKind := ⟨0x0513, .warn, false⟩

/-- 0x0600 NHL_NOZZLE_FAILED, WARN. Arguments: Port; row × 65,536 + nozzle; transitions. (spec/08) -/
def NHL_NOZZLE_FAILED : EvKind := ⟨0x0600, .warn, false⟩

/-- 0x0601 NHL_NOZZLE_RECOVERED, INFO. Arguments: Port; row × 65,536 + nozzle; transitions. (spec/08) -/
def NHL_NOZZLE_RECOVERED : EvKind := ⟨0x0601, .info, false⟩

/-- 0x0602 NHL_SERVICE_REQ, WARN. Arguments: Port; reason (R287); count. (spec/08) -/
def NHL_SERVICE_REQ : EvKind := ⟨0x0602, .warn, false⟩

/-- 0x0603 NHL_SUB_FULL, WARN. Arguments: Port; row × 65,536 + nozzle; 0. (spec/08) -/
def NHL_SUB_FULL : EvKind := ⟨0x0603, .warn, false⟩

/-- 0x0604 NHL_SUB_MISMATCH, WARN. Arguments: Port; sidx; line. (spec/08) -/
def NHL_SUB_MISMATCH : EvKind := ⟨0x0604, .warn, false⟩

/-- 0x0605 NHL_DETECTOR_FAULT, WARN. Arguments: Port; 1 result 4, 2 HEVT; row × 65,536 + nozzle. (spec/08) -/
def NHL_DETECTOR_FAULT : EvKind := ⟨0x0605, .warn, false⟩

/-- 0x0606 NHL_SEQ_DONE, INFO. Arguments: Port; 1 scan, 2 spit; lines fired. (spec/08) -/
def NHL_SEQ_DONE : EvKind := ⟨0x0606, .info, false⟩

/-- 0x0607 NHL_SEQ_ABORT, INFO. Arguments: Port; 1 scan, 2 spit; 1 ABORT, 2 state, 3 link. (spec/08) -/
def NHL_SEQ_ABORT : EvKind := ⟨0x0607, .info, false⟩

/-- 0x0608 NHL_LEDGER_DENIED, WARN. Arguments: Port; 1 scan, 2 spit; amount in mW. (spec/08) -/
def NHL_LEDGER_DENIED : EvKind := ⟨0x0608, .warn, false⟩

/-- 0x0609 NHL_HOSTRES_BAD, INFO. Arguments: Word written; 0; discarded count. (spec/08) -/
def NHL_HOSTRES_BAD : EvKind := ⟨0x0609, .info, false⟩

/-- 0x060A NHL_CMD_REJECT, INFO. Arguments: Port; command; result. (spec/08) -/
def NHL_CMD_REJECT : EvKind := ⟨0x060A, .info, false⟩

/-- 0x0700 POS_INPUT_FAULT, WARN. Arguments: Channel; spacing faults in the interval; illegal transitions in the interval. (spec/10) -/
def POS_INPUT_FAULT : EvKind := ⟨0x0700, .warn, false⟩

/-- 0x0701 POS_SIGNAL_LOST, HALT or WARN (R318). Arguments: Channel; amp2; 1 low, 2 high, 3 phase step. (spec/10) -/
def POS_SIGNAL_LOST (sev : Sev) : EvKind := ⟨0x0701, sev, false⟩

/-- 0x0702 POS_SIGNAL_OK, INFO. Arguments: Channel; amp2; 0. (spec/10) -/
def POS_SIGNAL_OK : EvKind := ⟨0x0702, .info, false⟩

/-- 0x0703 POS_DIR_CHANGE, INFO. Arguments: Channel; new dir; integer counts. (spec/10) -/
def POS_DIR_CHANGE : EvKind := ⟨0x0703, .info, false⟩

/-- 0x0704 POS_EE_LAG, WARN. Arguments: Output; source channel; lag. (spec/10) -/
def POS_EE_LAG : EvKind := ⟨0x0704, .warn, false⟩

/-- 0x0705 POS_CFG_LOCKED, INFO. Arguments: Instance; register offset; 0. (spec/10) -/
def POS_CFG_LOCKED : EvKind := ⟨0x0705, .info, false⟩

/-- 0x0706 POS_CMD_REJECT, INFO. Arguments: Instance; command; result. (spec/10) -/
def POS_CMD_REJECT : EvKind := ⟨0x0706, .info, false⟩

/-- 0x0710 CMP_HIT, INFO. Arguments: Instance; integer counts at the hit; hits. (spec/10) -/
def CMP_HIT : EvKind := ⟨0x0710, .info, false⟩

/-- 0x0711 CMP_MISSED, WARN. Arguments: Instance; target integer counts; mark integer counts. (spec/10) -/
def CMP_MISSED : EvKind := ⟨0x0711, .warn, false⟩

/-- 0x0712 CMP_SKIPPED, INFO. Arguments: Instance; targets stepped over; new target integer counts. (spec/10) -/
def CMP_SKIPPED : EvKind := ⟨0x0712, .info, false⟩

/-- 0x0713 CMP_LATE_FIRE, INFO. Arguments: Instance; target integer counts; integer counts at the hit. (spec/10) -/
def CMP_LATE_FIRE : EvKind := ⟨0x0713, .info, false⟩

/-- 0x0800 STP_STATE, INFO. Arguments: Axis; old state; new state. (spec/11) -/
def STP_STATE : EvKind := ⟨0x0800, .info, false⟩

/-- 0x0801 STP_SOFT_LIMIT, WARN. Arguments: Axis; stop point of the normal plan; limit crossed. (spec/11) -/
def STP_SOFT_LIMIT : EvKind := ⟨0x0801, .warn, false⟩

/-- 0x0802 STP_LIMIT, WARN. Arguments: Axis; 1 LIMA, 2 LIMB; position. (spec/11) -/
def STP_LIMIT : EvKind := ⟨0x0802, .warn, false⟩

/-- 0x0803 STP_STALL, HALT or WARN (R363). Arguments: Axis; deviation; position. (spec/11) -/
def STP_STALL (sev : Sev) : EvKind := ⟨0x0803, sev, true⟩

/-- 0x0804 STP_BRIDGE_FAULT, HALT or WARN (R347). Arguments: Axis; state; position. (spec/11) -/
def STP_BRIDGE_FAULT (sev : Sev) : EvKind := ⟨0x0804, sev, false⟩

/-- 0x0805 STP_MODE, INFO. Arguments: Axis; 1 strong, 0 quiet; speed. (spec/11) -/
def STP_MODE : EvKind := ⟨0x0805, .info, false⟩

/-- 0x0806 STP_LEDGER_DENIED, WARN. Arguments: Axis; class; amount in mW. (spec/11) -/
def STP_LEDGER_DENIED : EvKind := ⟨0x0806, .warn, false⟩

/-- 0x0807 STP_STRONG_UNAVAIL, WARN. Arguments: Axis; AIN; motor channel. (spec/11) -/
def STP_STRONG_UNAVAIL : EvKind := ⟨0x0807, .warn, false⟩

/-- 0x0808 STP_CFG_LOCKED, INFO. Arguments: Axis; register offset; state. (spec/11) -/
def STP_CFG_LOCKED : EvKind := ⟨0x0808, .info, false⟩

/-- 0x0809 STP_CMD_REJECT, INFO. Arguments: Axis; command; result. (spec/11) -/
def STP_CMD_REJECT : EvKind := ⟨0x0809, .info, false⟩

/-- 0x0810 HOME_DONE, INFO. Arguments: Axis; latched position; HPOS. (spec/11) -/
def HOME_DONE : EvKind := ⟨0x0810, .info, false⟩

/-- 0x0811 HOME_FAIL_CHATTER, WARN. Arguments: Axis; phase; position. (spec/11) -/
def HOME_FAIL_CHATTER : EvKind := ⟨0x0811, .warn, false⟩

/-- 0x0812 HOME_FAIL_LIMIT, WARN. Arguments: Axis; 1 LIMA, 2 LIMB; position. (spec/11) -/
def HOME_FAIL_LIMIT : EvKind := ⟨0x0812, .warn, true⟩

/-- 0x0813 HOME_FAIL_NOTFOUND, WARN. Arguments: Axis; phase; position. (spec/11) -/
def HOME_FAIL_NOTFOUND : EvKind := ⟨0x0813, .warn, false⟩

/-- 0x0900 MOT_STATE, INFO. Arguments: Channel; old state; new state. (spec/12) -/
def MOT_STATE : EvKind := ⟨0x0900, .info, false⟩

/-- 0x0901 MOT_ROTOR_LOST, STOP or WARN (R389). Arguments: Channel; 1 angle, 2 magnitude, 3 encoder; last good speed. (spec/12) -/
def MOT_ROTOR_LOST (sev : Sev) : EvKind := ⟨0x0901, sev, false⟩

/-- 0x0902 MOT_REACQUIRED, INFO. Arguments: Channel; measured speed; window number. (spec/12) -/
def MOT_REACQUIRED : EvKind := ⟨0x0902, .info, false⟩

/-- 0x0903 MOT_ROTOR_FAULT, HALT or WARN. Arguments: Channel; windows tried; last measured speed. (spec/12) -/
def MOT_ROTOR_FAULT (sev : Sev) : EvKind := ⟨0x0903, sev, true⟩

/-- 0x0904 MOT_REVERSE_HELD, WARN. Arguments: Channel; reverse speed; ms braked. (spec/12) -/
def MOT_REVERSE_HELD : EvKind := ⟨0x0904, .warn, false⟩

/-- 0x0905 MOT_CATCH, INFO. Arguments: Channel; measured speed; 1 to RUN, 2 to STARTUP. (spec/12) -/
def MOT_CATCH : EvKind := ⟨0x0905, .info, false⟩

/-- 0x0906 MOT_OVERCURRENT, HALT or WARN. Arguments: Channel; phase; current in mA. (spec/12) -/
def MOT_OVERCURRENT (sev : Sev) : EvKind := ⟨0x0906, sev, true⟩

/-- 0x0907 MOT_GATE_FAULT, HALT or WARN. Arguments: Channel; state; speed. (spec/12) -/
def MOT_GATE_FAULT (sev : Sev) : EvKind := ⟨0x0907, sev, true⟩

/-- 0x0908 MOT_VBUS_HIGH, WARN. Arguments: Channel; bus in mV; state. (spec/12) -/
def MOT_VBUS_HIGH : EvKind := ⟨0x0908, .warn, false⟩

/-- 0x0909 MOT_VBUS_LOW, HALT or WARN. Arguments: Channel; bus in mV; state. (spec/12) -/
def MOT_VBUS_LOW (sev : Sev) : EvKind := ⟨0x0909, sev, false⟩

/-- 0x090A MOT_SOFT_LIMIT, WARN. Arguments: Channel; stop point of the normal plan; limit crossed. (spec/12) -/
def MOT_SOFT_LIMIT : EvKind := ⟨0x090A, .warn, false⟩

/-- 0x090B MOT_LEDGER_DENIED, WARN. Arguments: Channel; class; amount in mW. (spec/12) -/
def MOT_LEDGER_DENIED : EvKind := ⟨0x090B, .warn, false⟩

/-- 0x090C MOT_START_FAIL, WARN. Arguments: Channel; crossings matched; forced speed. (spec/12) -/
def MOT_START_FAIL : EvKind := ⟨0x090C, .warn, false⟩

/-- 0x090D MOT_CFG_LOCKED, INFO. Arguments: Channel; register offset; state. (spec/12) -/
def MOT_CFG_LOCKED : EvKind := ⟨0x090D, .info, false⟩

/-- 0x090E MOT_CMD_REJECT, INFO. Arguments: Channel; command; result. (spec/12) -/
def MOT_CMD_REJECT : EvKind := ⟨0x090E, .info, false⟩

/-- 0x0A00 CAS_LINK_UP, INFO. Arguments: Port: 0 CU, 1 CD; delta in 1/16 tick; position. (spec/14) -/
def CAS_LINK_UP : EvKind := ⟨0x0A00, .info, false⟩

/-- 0x0A01 CAS_LINK_DOWN, HALT or WARN (R436). Arguments: Port; cause: 1 lock, 2 error rate, 3 time; link state. (spec/14) -/
def CAS_LINK_DOWN (sev : Sev) : EvKind := ⟨0x0A01, sev, false⟩

/-- 0x0A02 CAS_DISC_DONE, INFO. Arguments: Length; chain epoch; transport position. (spec/14) -/
def CAS_DISC_DONE : EvKind := ⟨0x0A02, .info, false⟩

/-- 0x0A03 CAS_TIME_DRIFT, WARN. Arguments: Mean theta in 1/16 tick; 0; 0. (spec/14) -/
def CAS_TIME_DRIFT : EvKind := ⟨0x0A03, .warn, false⟩

/-- 0x0A04 CAS_TIME_LOST, HALT or WARN, as CAS_LINK_DOWN. Arguments: Mean theta; 0; 0. (spec/14) -/
def CAS_TIME_LOST (sev : Sev) : EvKind := ⟨0x0A04, sev, false⟩

/-- 0x0A05 CAS_BELL_MISSED, STOP. Arguments: Tick bits [31:0]; tseq expected; 0. (spec/14) -/
def CAS_BELL_MISSED : EvKind := ⟨0x0A05, .stop, false⟩

/-- 0x0A06 CAS_MSG_NAK, INFO. Arguments: Destination role; its current role; its current epoch. (spec/14) -/
def CAS_MSG_NAK : EvKind := ⟨0x0A06, .info, false⟩

/-- 0x0A07 CAS_PEER_STOP, STOP. Arguments: Sender role; event code; 0. (spec/14) -/
def CAS_PEER_STOP : EvKind := ⟨0x0A07, .stop, false⟩

/-- 0x0A08 CAS_PEER_HALT, HALT. Arguments: Sender role; event code; 0. (spec/14) -/
def CAS_PEER_HALT : EvKind := ⟨0x0A08, .halt, false⟩

/-- 0x0A09 CAS_MEMBER_LOST, HALT or WARN (R444). Arguments: Position; last state; age. (spec/14) -/
def CAS_MEMBER_LOST (sev : Sev) : EvKind := ⟨0x0A09, sev, false⟩

/-- 0x0A0A CAS_START_MISS, STOP. Arguments: Global state; ts bits [31:0]; 0. (spec/14) -/
def CAS_START_MISS : EvKind := ⟨0x0A0A, .stop, false⟩

/-- 0x0A0B CAS_POS_DEV, STOP. Arguments: Local channel; local speed; received speed. (spec/14) -/
def CAS_POS_DEV : EvKind := ⟨0x0A0B, .stop, false⟩

/-- 0x0A0C CAS_MSG_RX, INFO. Arguments: Sender role; sender epoch; bytes 0 to 3. (spec/14) -/
def CAS_MSG_RX : EvKind := ⟨0x0A0C, .info, false⟩

/-- 0x0A0D CAS_CMD_REJECT, INFO. Arguments: Command; state; result. (spec/14) -/
def CAS_CMD_REJECT : EvKind := ⟨0x0A0D, .info, false⟩

/-- 0x0B00 DMA_ERROR, WARN. Arguments: Channel; status; PC. (spec/15) -/
def DMA_ERROR : EvKind := ⟨0x0B00, .warn, false⟩

/-- 0x0B01 DMA_WAIT_TIMEOUT, WARN. Arguments: Channel; type × 256 + index; PC. (spec/15) -/
def DMA_WAIT_TIMEOUT : EvKind := ⟨0x0B01, .warn, false⟩

/-- 0x0B02 DMA_CQ_FULL, INFO. Arguments: Channel; queue; PC. (spec/15) -/
def DMA_CQ_FULL : EvKind := ⟨0x0B02, .info, false⟩

/-- 0x0B03 DMA_SHADOW_BUSY, INFO. Arguments: Channel; register offset; 0. (spec/15) -/
def DMA_SHADOW_BUSY : EvKind := ⟨0x0B03, .info, false⟩

/-- 0x0B04 DMA_SIGNAL_SAT, WARN. Arguments: Signal; 0; 0. (spec/15) -/
def DMA_SIGNAL_SAT : EvKind := ⟨0x0B04, .warn, false⟩

/-- 0x0B05 DMA_PAUSED, INFO. Arguments: Channel; cause as DMA_DCn_STAT.cause; PC. (spec/15) -/
def DMA_PAUSED : EvKind := ⟨0x0B05, .info, false⟩

/-- 0x0B06 DMA_HANDOVER, INFO. Arguments: Channel; new identifier; 1 END, 2 SWAP, 3 START. (spec/15) -/
def DMA_HANDOVER : EvKind := ⟨0x0B06, .info, false⟩

/-- 0x0B07 DMA_CFG_LOCKED, INFO. Arguments: Channel, or 0x20 + n for CQn; register offset; state. (spec/15) -/
def DMA_CFG_LOCKED : EvKind := ⟨0x0B07, .info, false⟩

/-- 0x0B08 DMA_CMD_REJECT, INFO. Arguments: Channel; command; result. (spec/15) -/
def DMA_CMD_REJECT : EvKind := ⟨0x0B08, .info, false⟩

/-- 0x0C00 MEM_BANK_STATE, INFO. Arguments: Bank; old state; new state. (spec/16) -/
def MEM_BANK_STATE : EvKind := ⟨0x0C00, .info, false⟩

/-- 0x0C01 MEM_BANK_ASLEEP, INFO. Arguments: Bank; BAR2 offset; 1 read, 2 write. (spec/16) -/
def MEM_BANK_ASLEEP : EvKind := ⟨0x0C01, .info, false⟩

/-- 0x0C02 MEM_MARCH_FAULT, WARN. Arguments: SRAM offset; 1 preserving, 2 destructive; 1 repaired, 0 not. (spec/16) -/
def MEM_MARCH_FAULT : EvKind := ⟨0x0C02, .warn, false⟩

/-- 0x0C03 MEM_MARCH_DONE, INFO. Arguments: Bank; faults; duration in µs. (spec/16) -/
def MEM_MARCH_DONE : EvKind := ⟨0x0C03, .info, false⟩

/-- 0x0C04 MEM_REPAIR_LOW, WARN. Arguments: Bank; way; free spares. (spec/16) -/
def MEM_REPAIR_LOW : EvKind := ⟨0x0C04, .warn, false⟩

/-- 0x0C05 MEM_CMD_REJECT, INFO. Arguments: Command; bank; result. (spec/16) -/
def MEM_CMD_REJECT : EvKind := ⟨0x0C05, .info, false⟩

/-- 0x0C10 XMC_ECC_CORR, INFO. Arguments: Corrected count; offset bits [31:0]; channel. (spec/16) -/
def XMC_ECC_CORR : EvKind := ⟨0x0C10, .info, false⟩

/-- 0x0C11 XMC_ECC_UNCORR, WARN. Arguments: Offset bits [31:0]; offset bits [33:32]; requester: 1 DMA, 2 pipe, 3 host. (spec/16) -/
def XMC_ECC_UNCORR : EvKind := ⟨0x0C11, .warn, false⟩

/-- 0x0D10 HST_INVAR_REJECT, WARN. Arguments: BAR0 offset; reason; value word. (spec/17) -/
def HST_INVAR_REJECT : EvKind := ⟨0x0D10, .warn, false⟩

/-- 0x0D11 HST_INVAR_MISMATCH, HALT. Arguments: BAR0 offset; value; complement. (spec/17) -/
def HST_INVAR_MISMATCH : EvKind := ⟨0x0D11, .halt, true⟩

/-- 0x0D12 HST_EVENT_LOST, WARN. Arguments: Events dropped; first lost sequence; last lost sequence. (spec/17) -/
def HST_EVENT_LOST : EvKind := ⟨0x0D12, .warn, false⟩

/-- 0x0D13 HST_ACCESS_BAD, INFO. Arguments: BAR0 offset; size in bytes; 1 read, 2 write, 3 locked. (spec/17) -/
def HST_ACCESS_BAD : EvKind := ⟨0x0D13, .info, false⟩

/-- 0x0D14 HST_LANTERN_DONE, INFO. Arguments: seq; bell time bits [31:0]; 0. (spec/17) -/
def HST_LANTERN_DONE : EvKind := ⟨0x0D14, .info, false⟩

/-- 0x0D15 HST_BME_OFF, WARN. Arguments: Global state; 0; 0. (spec/17) -/
def HST_BME_OFF : EvKind := ⟨0x0D15, .warn, false⟩

/-- 0x0D16 HST_PCIE_ERROR, WARN. Arguments: AER status; header log DW 0; 1 correctable, 2 uncorrectable. (spec/17) -/
def HST_PCIE_ERROR : EvKind := ⟨0x0D16, .warn, false⟩

end Ev

end Sys2Proof.Machine
end

