-- ==== Sys2Proof/Machine/RegMap.lean ====
section
/-!
DEFINITION. The register map of the KPE-8160: where each register lies (spec/18_register_map.md R541, the register lists), what
each of its bits is (the register tables of the owning chapters: R5 to R8), which registers are Invar registers (R543), and the
tables window (R544). One descriptor per register kind; `regDesc` finds the descriptor of a BAR0 offset.
-/
namespace Sys2Proof.Machine

/-- What the register tables say of one register word: its reset value and which bits are read-write, write-1-to-clear,
write-1-to-set, read-only or write-only. Bits in no mask are reserved: they read 0 and ignore writes (R6). -/
structure RegDesc where
  reset : Word
  rw    : Word
  w1c   : Word
  w1s   : Word
  ro    : Word
  wo    : Word
  invar : Bool
  deriving DecidableEq, Repr

/-- The bits a register holds: all but the write-only and the reserved ones (R6, R7). -/
def RegDesc.stored (d : RegDesc) : Word := d.rw ||| d.w1c ||| d.w1s ||| d.ro

/-- One register kind in its block's list: relative offset, number of words, distance between them, descriptor. -/
structure RegRow where
  off   : Nat
  count : Nat
  dist  : Nat
  desc  : RegDesc
  deriving DecidableEq, Repr

namespace R

/-- BAR0 offset of GLB_ID (spec/18_register_map.md). -/
def GLB_ID : Nat := 0x000000

/-- BAR0 offset of GLB_STATE (spec/01_architecture.md). -/
def GLB_STATE : Nat := 0x000010

/-- BAR0 offset of GLB_CMD (spec/01_architecture.md). -/
def GLB_CMD : Nat := 0x000014

/-- BAR0 offset of GLB_CMD_STATUS (spec/01_architecture.md). -/
def GLB_CMD_STATUS : Nat := 0x000018

/-- BAR0 offset of GLB_RSTCAUSE (spec/03_bring_up.md). -/
def GLB_RSTCAUSE : Nat := 0x000020

/-- BAR0 offset of GLB_BOOTCNT (spec/03_bring_up.md). -/
def GLB_BOOTCNT : Nat := 0x000024

/-- BAR0 offset of GLB_THRCTL (spec/01_architecture.md). -/
def GLB_THRCTL : Nat := 0x000040

/-- BAR0 offset of GLB_THRSTAT (spec/01_architecture.md). -/
def GLB_THRSTAT : Nat := 0x000044

/-- BAR0 offset of GLB_BRUSTAT (spec/03_bring_up.md). -/
def GLB_BRUSTAT : Nat := 0x000060

/-- BAR0 offset of GLB_BRUCTL (spec/03_bring_up.md). -/
def GLB_BRUCTL : Nat := 0x000064

/-- BAR0 offset of GLB_BRUERR (spec/03_bring_up.md). -/
def GLB_BRUERR : Nat := 0x000068

/-- BAR0 offset of GLB_PORTSTAT0 (spec/03_bring_up.md). -/
def GLB_PORTSTAT0 : Nat := 0x000070

/-- BAR0 offset of GLB_PORTSTAT1 (spec/03_bring_up.md). -/
def GLB_PORTSTAT1 : Nat := 0x000074

/-- BAR0 offset of IMG_CTL (spec/02_alloy_image.md). -/
def IMG_CTL : Nat := 0x010000

/-- BAR0 offset of IMG_STAT (spec/02_alloy_image.md). -/
def IMG_STAT : Nat := 0x010004

/-- BAR0 offset of IMG_ERR (spec/02_alloy_image.md). -/
def IMG_ERR : Nat := 0x010008

/-- BAR0 offset of IMG_ERRARG (spec/02_alloy_image.md). -/
def IMG_ERRARG : Nat := 0x01000C

/-- BAR0 offset of IMG_DATA (spec/02_alloy_image.md). -/
def IMG_DATA : Nat := 0x010010

/-- BAR0 offset of IMG_PUSHCNT (spec/02_alloy_image.md). -/
def IMG_PUSHCNT : Nat := 0x010014

/-- BAR0 offset of IMG_CMD_STATUS (spec/02_alloy_image.md). -/
def IMG_CMD_STATUS : Nat := 0x010018

/-- BAR0 offset of IMG_HASH (spec/02_alloy_image.md). -/
def IMG_HASH (k : Nat) : Nat := 0x010020 + 4 * k

/-- BAR0 offset of HST_EVBASE_LO (spec/17_host_control.md). -/
def HST_EVBASE_LO : Nat := 0x020000

/-- BAR0 offset of HST_EVBASE_HI (spec/17_host_control.md). -/
def HST_EVBASE_HI : Nat := 0x020004

/-- BAR0 offset of HST_EVCFG (spec/17_host_control.md). -/
def HST_EVCFG : Nat := 0x020008

/-- BAR0 offset of HST_EVTAIL (spec/17_host_control.md). -/
def HST_EVTAIL : Nat := 0x02000C

/-- BAR0 offset of HST_EVHEAD (spec/17_host_control.md). -/
def HST_EVHEAD : Nat := 0x020010

/-- BAR0 offset of HST_EVSTAT (spec/17_host_control.md). -/
def HST_EVSTAT : Nat := 0x020014

/-- BAR0 offset of HST_EVSEQ (spec/17_host_control.md). -/
def HST_EVSEQ : Nat := 0x020018

/-- BAR0 offset of HST_EVDROP (spec/17_host_control.md). -/
def HST_EVDROP : Nat := 0x02001C

/-- BAR0 offset of HST_INVCTL (spec/17_host_control.md). -/
def HST_INVCTL : Nat := 0x020020

/-- BAR0 offset of HST_INVREJ (spec/17_host_control.md). -/
def HST_INVREJ : Nat := 0x020024

/-- BAR0 offset of HST_OCCSEL (spec/17_host_control.md). -/
def HST_OCCSEL : Nat := 0x020028

/-- BAR0 offset of HST_OCCVAL (spec/17_host_control.md). -/
def HST_OCCVAL : Nat := 0x02002C

/-- BAR0 offset of HST_OCCCLR (spec/17_host_control.md). -/
def HST_OCCCLR : Nat := 0x020030

/-- BAR0 offset of HST_LANBASE_LO (spec/17_host_control.md). -/
def HST_LANBASE_LO : Nat := 0x020040

/-- BAR0 offset of HST_LANBASE_HI (spec/17_host_control.md). -/
def HST_LANBASE_HI : Nat := 0x020044

/-- BAR0 offset of HST_LANCFG (spec/17_host_control.md). -/
def HST_LANCFG : Nat := 0x020048

/-- BAR0 offset of HST_LANSTAT (spec/17_host_control.md). -/
def HST_LANSTAT : Nat := 0x02004C

/-- BAR0 offset of HST_LANSEQ (spec/17_host_control.md). -/
def HST_LANSEQ : Nat := 0x020050

/-- BAR0 offset of HST_FLAG (spec/17_host_control.md). -/
def HST_FLAG : Nat := 0x020060

/-- BAR0 offset of HST_LINK (spec/17_host_control.md). -/
def HST_LINK : Nat := 0x020064

/-- BAR0 offset of MEM_BKSTAT (spec/16_memories.md). -/
def MEM_BKSTAT : Nat := 0x040000

/-- BAR0 offset of MEM_CMD (spec/16_memories.md). -/
def MEM_CMD : Nat := 0x040010

/-- BAR0 offset of MEM_CMD_STATUS (spec/16_memories.md). -/
def MEM_CMD_STATUS : Nat := 0x040014

/-- BAR0 offset of MEM_FLAG (spec/16_memories.md). -/
def MEM_FLAG : Nat := 0x040018

/-- BAR0 offset of MEM_BKREP (spec/16_memories.md). -/
def MEM_BKREP (k : Nat) : Nat := 0x040020 + 4 * k

/-- BAR0 offset of MEM_MARCHCFG (spec/16_memories.md). -/
def MEM_MARCHCFG : Nat := 0x040040

/-- BAR0 offset of MEM_MARCHSTAT (spec/16_memories.md). -/
def MEM_MARCHSTAT : Nat := 0x040044

/-- BAR0 offset of MEM_MARCHFAIL (spec/16_memories.md). -/
def MEM_MARCHFAIL : Nat := 0x040048

/-- BAR0 offset of XMC_STAT (spec/16_memories.md). -/
def XMC_STAT : Nat := 0x050000

/-- BAR0 offset of XMC_WINBASE (spec/16_memories.md). -/
def XMC_WINBASE : Nat := 0x050004

/-- BAR0 offset of XMC_ECCCNT (spec/16_memories.md). -/
def XMC_ECCCNT : Nat := 0x050008

/-- BAR0 offset of XMC_ECCADDR_LO (spec/16_memories.md). -/
def XMC_ECCADDR_LO : Nat := 0x05000C

/-- BAR0 offset of XMC_ECCADDR_HI (spec/16_memories.md). -/
def XMC_ECCADDR_HI : Nat := 0x050010

/-- BAR0 offset of NVJ_JSTAT (spec/07_thermal_energy.md). -/
def NVJ_JSTAT : Nat := 0x060000

/-- BAR0 offset of NVJ_JDROP (spec/07_thermal_energy.md). -/
def NVJ_JDROP : Nat := 0x060004

/-- BAR0 offset of NVJ_JIDX (spec/07_thermal_energy.md). -/
def NVJ_JIDX : Nat := 0x060008

/-- BAR0 offset of NVJ_JDATA (spec/07_thermal_energy.md). -/
def NVJ_JDATA (k : Nat) : Nat := 0x060040 + 4 * k

/-- BAR0 offset of CAS_STAT (spec/14_cascade.md). -/
def CAS_STAT : Nat := 0x080000

/-- BAR0 offset of CAS_TSTAT (spec/14_cascade.md). -/
def CAS_TSTAT : Nat := 0x080008

/-- BAR0 offset of CAS_HOPDLY (spec/14_cascade.md). -/
def CAS_HOPDLY : Nat := 0x08000C

/-- BAR0 offset of CAS_BELLCFG (spec/14_cascade.md). -/
def CAS_BELLCFG : Nat := 0x080010

/-- BAR0 offset of CAS_CMDLEAD (spec/14_cascade.md). -/
def CAS_CMDLEAD : Nat := 0x080014

/-- BAR0 offset of CAS_CMD (spec/14_cascade.md). -/
def CAS_CMD : Nat := 0x080018

/-- BAR0 offset of CAS_CMD_STATUS (spec/14_cascade.md). -/
def CAS_CMD_STATUS : Nat := 0x08001C

/-- BAR0 offset of CAS_MSGDST (spec/14_cascade.md). -/
def CAS_MSGDST : Nat := 0x080020

/-- BAR0 offset of CAS_TXMSG (spec/14_cascade.md). -/
def CAS_TXMSG (k : Nat) : Nat := 0x080030 + 4 * k

/-- BAR0 offset of CAS_RXMSG (spec/14_cascade.md). -/
def CAS_RXMSG (k : Nat) : Nat := 0x080040 + 4 * k

/-- BAR0 offset of CAS_RXSRC (spec/14_cascade.md). -/
def CAS_RXSRC : Nat := 0x080050

/-- BAR0 offset of CAS_FLAG (spec/14_cascade.md). -/
def CAS_FLAG : Nat := 0x080054

/-- BAR0 offset of CAS_CNT (spec/14_cascade.md). -/
def CAS_CNT : Nat := 0x080058

/-- BAR0 offset of CAS_PCHK (spec/14_cascade.md). -/
def CAS_PCHK : Nat := 0x080068

/-- BAR0 offset of CAS_RPOS_INT (spec/14_cascade.md). -/
def CAS_RPOS_INT : Nat := 0x080070

/-- BAR0 offset of CAS_RPOS_FRAC (spec/14_cascade.md). -/
def CAS_RPOS_FRAC : Nat := 0x080074

/-- BAR0 offset of CAS_RSPEED (spec/14_cascade.md). -/
def CAS_RSPEED : Nat := 0x080078

/-- BAR0 offset of CAS_TRIG (spec/14_cascade.md). -/
def CAS_TRIG (k : Nat) : Nat := 0x080080 + 4 * k

/-- BAR0 offset of CAS_AGG_A (spec/14_cascade.md). -/
def CAS_AGG_A (k : Nat) : Nat := 0x080100 + 8 * k

/-- BAR0 offset of CAS_AGG_B (spec/14_cascade.md). -/
def CAS_AGG_B (k : Nat) : Nat := 0x080104 + 8 * k

/-- BAR0 offset of HLP_Pn_STAT (spec/06_romor_head_link.md). -/
def HLP_Pn_STAT (n : Nat) : Nat := 0x100000 + 0x8000 * n

/-- BAR0 offset of HLP_Pn_CMD (spec/06_romor_head_link.md). -/
def HLP_Pn_CMD (n : Nat) : Nat := 0x100004 + 0x8000 * n

/-- BAR0 offset of HLP_Pn_CMD_STATUS (spec/06_romor_head_link.md). -/
def HLP_Pn_CMD_STATUS (n : Nat) : Nat := 0x100008 + 0x8000 * n

/-- BAR0 offset of HLP_Pn_MEMADDR (spec/06_romor_head_link.md). -/
def HLP_Pn_MEMADDR (n : Nat) : Nat := 0x10000C + 0x8000 * n

/-- BAR0 offset of HLP_Pn_ERRCNT (spec/06_romor_head_link.md). -/
def HLP_Pn_ERRCNT (n : Nat) : Nat := 0x100010 + 0x8000 * n

/-- BAR0 offset of HLP_Pn_TSYNC (spec/06_romor_head_link.md). -/
def HLP_Pn_TSYNC (n : Nat) : Nat := 0x100014 + 0x8000 * n

/-- BAR0 offset of HLP_Pn_IDENT (spec/06_romor_head_link.md). -/
def HLP_Pn_IDENT (n : Nat) (k : Nat) : Nat := 0x100020 + 0x8000 * n + 4 * k

/-- BAR0 offset of HLP_Pn_MEMBUF (spec/06_romor_head_link.md). -/
def HLP_Pn_MEMBUF (n : Nat) (k : Nat) : Nat := 0x100100 + 0x8000 * n + 4 * k

/-- BAR0 offset of DOT_PREDCFG (spec/04_dot_data.md). -/
def DOT_PREDCFG : Nat := 0x180000

/-- BAR0 offset of DOT_UGUARD (spec/04_dot_data.md). -/
def DOT_UGUARD : Nat := 0x180008

/-- BAR0 offset of DOT_SSCFG (spec/13_seamless_stop.md). -/
def DOT_SSCFG : Nat := 0x180040

/-- BAR0 offset of DOT_SSRATIO (spec/13_seamless_stop.md). -/
def DOT_SSRATIO : Nat := 0x180044

/-- BAR0 offset of DOT_SSBACKV (spec/13_seamless_stop.md). -/
def DOT_SSBACKV : Nat := 0x180048

/-- BAR0 offset of DOT_SSMARGIN (spec/13_seamless_stop.md). -/
def DOT_SSMARGIN : Nat := 0x180050

/-- BAR0 offset of DOT_SSBACKMAX (spec/13_seamless_stop.md). -/
def DOT_SSBACKMAX : Nat := 0x180058

/-- BAR0 offset of DOT_SSSTAT (spec/13_seamless_stop.md). -/
def DOT_SSSTAT : Nat := 0x180060

/-- BAR0 offset of DOT_SSPK_INT (spec/13_seamless_stop.md). -/
def DOT_SSPK_INT : Nat := 0x180064

/-- BAR0 offset of DOT_SSPK_FRAC (spec/13_seamless_stop.md). -/
def DOT_SSPK_FRAC : Nat := 0x180068

/-- BAR0 offset of DOT_SSXB (spec/13_seamless_stop.md). -/
def DOT_SSXB : Nat := 0x18006C

/-- BAR0 offset of DOT_SSFLAG (spec/13_seamless_stop.md). -/
def DOT_SSFLAG : Nat := 0x180070

/-- BAR0 offset of DOT_SSCMD (spec/13_seamless_stop.md). -/
def DOT_SSCMD : Nat := 0x180074

/-- BAR0 offset of DOT_SSCMD_STATUS (spec/13_seamless_stop.md). -/
def DOT_SSCMD_STATUS : Nat := 0x180078

/-- BAR0 offset of DOT_Pn_CFG (spec/04_dot_data.md). -/
def DOT_Pn_CFG (n : Nat) : Nat := 0x181000 + 0x100 * n

/-- BAR0 offset of DOT_Pn_DEPTH (spec/04_dot_data.md). -/
def DOT_Pn_DEPTH (n : Nat) : Nat := 0x181004 + 0x100 * n

/-- BAR0 offset of DOT_Pn_BASE_LO (spec/04_dot_data.md). -/
def DOT_Pn_BASE_LO (n : Nat) : Nat := 0x181008 + 0x100 * n

/-- BAR0 offset of DOT_Pn_BASE_HI (spec/04_dot_data.md). -/
def DOT_Pn_BASE_HI (n : Nat) : Nat := 0x18100C + 0x100 * n

/-- BAR0 offset of DOT_Pn_STAT (spec/04_dot_data.md). -/
def DOT_Pn_STAT (n : Nat) : Nat := 0x181010 + 0x100 * n

/-- BAR0 offset of DOT_Pn_WLINE (spec/04_dot_data.md). -/
def DOT_Pn_WLINE (n : Nat) : Nat := 0x181014 + 0x100 * n

/-- BAR0 offset of DOT_Pn_WADD (spec/04_dot_data.md). -/
def DOT_Pn_WADD (n : Nat) : Nat := 0x181018 + 0x100 * n

/-- BAR0 offset of DOT_Pn_NEXT (spec/04_dot_data.md). -/
def DOT_Pn_NEXT (n : Nat) : Nat := 0x18101C + 0x100 * n

/-- BAR0 offset of DOT_Pn_LINE (spec/04_dot_data.md). -/
def DOT_Pn_LINE (n : Nat) : Nat := 0x181020 + 0x100 * n

/-- BAR0 offset of DOT_Pn_CMD (spec/04_dot_data.md). -/
def DOT_Pn_CMD (n : Nat) : Nat := 0x181024 + 0x100 * n

/-- BAR0 offset of DOT_Pn_CMD_STATUS (spec/04_dot_data.md). -/
def DOT_Pn_CMD_STATUS (n : Nat) : Nat := 0x181028 + 0x100 * n

/-- BAR0 offset of DOT_Pn_SIG (spec/04_dot_data.md). -/
def DOT_Pn_SIG (n : Nat) : Nat := 0x18102C + 0x100 * n

/-- BAR0 offset of DOT_Pn_MASK (spec/04_dot_data.md). -/
def DOT_Pn_MASK (n : Nat) : Nat := 0x181030 + 0x100 * n

/-- BAR0 offset of DOT_Pn_FILL (spec/04_dot_data.md). -/
def DOT_Pn_FILL (n : Nat) : Nat := 0x181034 + 0x100 * n

/-- BAR0 offset of DOT_Pn_LATE (spec/04_dot_data.md). -/
def DOT_Pn_LATE (n : Nat) : Nat := 0x181038 + 0x100 * n

/-- BAR0 offset of DOT_Pn_SUBCNT (spec/04_dot_data.md). -/
def DOT_Pn_SUBCNT (n : Nat) : Nat := 0x18103C + 0x100 * n

/-- BAR0 offset of DOT_Pn_RDLY (spec/04_dot_data.md). -/
def DOT_Pn_RDLY (n : Nat) (k : Nat) : Nat := 0x181040 + 0x100 * n + 4 * k

/-- BAR0 offset of DOT_Pn_LOWM (spec/04_dot_data.md). -/
def DOT_Pn_LOWM (n : Nat) : Nat := 0x181060 + 0x100 * n

/-- BAR0 offset of FIR_GATESTAT (spec/05_firing.md). -/
def FIR_GATESTAT : Nat := 0x200000

/-- BAR0 offset of FIR_GATEFLAG (spec/05_firing.md). -/
def FIR_GATEFLAG : Nat := 0x200004

/-- BAR0 offset of FIR_SENSCFG (spec/05_firing.md). -/
def FIR_SENSCFG : Nat := 0x200008

/-- BAR0 offset of FIR_HOPENMAP01 (spec/05_firing.md). -/
def FIR_HOPENMAP01 : Nat := 0x200010

/-- BAR0 offset of FIR_HOPENMAP23 (spec/05_firing.md). -/
def FIR_HOPENMAP23 : Nat := 0x200018

/-- BAR0 offset of FIR_GATEEN (spec/05_firing.md). -/
def FIR_GATEEN : Nat := 0x200020

/-- BAR0 offset of FIR_LTn_CTL (spec/05_firing.md). -/
def FIR_LTn_CTL (n : Nat) : Nat := 0x201000 + 0x100 * n

/-- BAR0 offset of FIR_LTn_PITCH (spec/05_firing.md). -/
def FIR_LTn_PITCH (n : Nat) : Nat := 0x201004 + 0x100 * n

/-- BAR0 offset of FIR_LTn_ORG_INT (spec/05_firing.md). -/
def FIR_LTn_ORG_INT (n : Nat) : Nat := 0x201008 + 0x100 * n

/-- BAR0 offset of FIR_LTn_ORG_FRAC (spec/05_firing.md). -/
def FIR_LTn_ORG_FRAC (n : Nat) : Nat := 0x20100C + 0x100 * n

/-- BAR0 offset of FIR_LTn_ORGLINE (spec/05_firing.md). -/
def FIR_LTn_ORGLINE (n : Nat) : Nat := 0x201010 + 0x100 * n

/-- BAR0 offset of FIR_LTn_LEAD (spec/05_firing.md). -/
def FIR_LTn_LEAD (n : Nat) : Nat := 0x201014 + 0x100 * n

/-- BAR0 offset of FIR_LTn_VMIN (spec/05_firing.md). -/
def FIR_LTn_VMIN (n : Nat) : Nat := 0x201018 + 0x100 * n

/-- BAR0 offset of FIR_LTn_STAT (spec/05_firing.md). -/
def FIR_LTn_STAT (n : Nat) : Nat := 0x20101C + 0x100 * n

/-- BAR0 offset of FIR_LTn_CNT (spec/05_firing.md). -/
def FIR_LTn_CNT (n : Nat) : Nat := 0x201020 + 0x100 * n

/-- BAR0 offset of FIR_LTn_LAST_LO (spec/05_firing.md). -/
def FIR_LTn_LAST_LO (n : Nat) : Nat := 0x201024 + 0x100 * n

/-- BAR0 offset of FIR_LTn_LAST_HI (spec/05_firing.md). -/
def FIR_LTn_LAST_HI (n : Nat) : Nat := 0x201028 + 0x100 * n

/-- BAR0 offset of FIR_LTn_LASTLINE (spec/05_firing.md). -/
def FIR_LTn_LASTLINE (n : Nat) : Nat := 0x20102C + 0x100 * n

/-- BAR0 offset of FIR_LTn_SUPTOL (spec/05_firing.md). -/
def FIR_LTn_SUPTOL (n : Nat) : Nat := 0x201030 + 0x100 * n

/-- BAR0 offset of FIR_LTn_CMD (spec/05_firing.md). -/
def FIR_LTn_CMD (n : Nat) : Nat := 0x201038 + 0x100 * n

/-- BAR0 offset of FIR_LTn_CMD_STATUS (spec/05_firing.md). -/
def FIR_LTn_CMD_STATUS (n : Nat) : Nat := 0x20103C + 0x100 * n

/-- BAR0 offset of FIR_Pn_SLOT (spec/05_firing.md). -/
def FIR_Pn_SLOT (n : Nat) : Nat := 0x202000 + 0x100 * n

/-- BAR0 offset of FIR_Pn_PRECAP (spec/05_firing.md). -/
def FIR_Pn_PRECAP (n : Nat) : Nat := 0x202008 + 0x100 * n

/-- BAR0 offset of FIR_Pn_WARM (spec/05_firing.md). -/
def FIR_Pn_WARM (n : Nat) : Nat := 0x202010 + 0x100 * n

/-- BAR0 offset of FIR_Pn_TORN (spec/05_firing.md). -/
def FIR_Pn_TORN (n : Nat) : Nat := 0x202014 + 0x100 * n

/-- BAR0 offset of FIR_Pn_TORNCNT (spec/05_firing.md). -/
def FIR_Pn_TORNCNT (n : Nat) : Nat := 0x202018 + 0x100 * n

/-- BAR0 offset of THM_CFG (spec/07_thermal_energy.md). -/
def THM_CFG : Nat := 0x280000

/-- BAR0 offset of THM_TORD (spec/07_thermal_energy.md). -/
def THM_TORD : Nat := 0x280004

/-- BAR0 offset of THM_DIESTAT (spec/07_thermal_energy.md). -/
def THM_DIESTAT : Nat := 0x280008

/-- BAR0 offset of THM_LCFG (spec/07_thermal_energy.md). -/
def THM_LCFG : Nat := 0x28000C

/-- BAR0 offset of THM_LAVAIL (spec/07_thermal_energy.md). -/
def THM_LAVAIL : Nat := 0x280010

/-- BAR0 offset of THM_LWAIT (spec/07_thermal_energy.md). -/
def THM_LWAIT : Nat := 0x280014

/-- BAR0 offset of THM_CMD (spec/07_thermal_energy.md). -/
def THM_CMD : Nat := 0x280018

/-- BAR0 offset of THM_CMD_STATUS (spec/07_thermal_energy.md). -/
def THM_CMD_STATUS : Nat := 0x28001C

/-- BAR0 offset of THM_LCLASS (spec/07_thermal_energy.md). -/
def THM_LCLASS (k : Nat) : Nat := 0x280020 + 4 * k

/-- BAR0 offset of THM_PMEAS (spec/07_thermal_energy.md). -/
def THM_PMEAS : Nat := 0x280040

/-- BAR0 offset of THM_XCHK (spec/07_thermal_energy.md). -/
def THM_XCHK : Nat := 0x280048

/-- BAR0 offset of THM_LBUDGET (spec/07_thermal_energy.md). -/
def THM_LBUDGET : Nat := 0x280050

/-- BAR0 offset of THM_PRINTRES (spec/07_thermal_energy.md). -/
def THM_PRINTRES : Nat := 0x280058

/-- BAR0 offset of THM_SDMARGIN (spec/07_thermal_energy.md). -/
def THM_SDMARGIN : Nat := 0x280060

/-- BAR0 offset of THM_DIETHR1 (spec/07_thermal_energy.md). -/
def THM_DIETHR1 : Nat := 0x280068

/-- BAR0 offset of THM_DIETHR2 (spec/07_thermal_energy.md). -/
def THM_DIETHR2 : Nat := 0x280070

/-- BAR0 offset of THM_DIETHR3 (spec/07_thermal_energy.md). -/
def THM_DIETHR3 : Nat := 0x280078

/-- BAR0 offset of THM_DIESTOP (spec/07_thermal_energy.md). -/
def THM_DIESTOP : Nat := 0x280080

/-- BAR0 offset of THM_DIESHUT (spec/07_thermal_energy.md). -/
def THM_DIESHUT : Nat := 0x280088

/-- BAR0 offset of THM_DIERSHUT (spec/07_thermal_energy.md). -/
def THM_DIERSHUT : Nat := 0x280090

/-- BAR0 offset of THM_Pn_STAT (spec/07_thermal_energy.md). -/
def THM_Pn_STAT (n : Nat) : Nat := 0x281000 + 0x100 * n

/-- BAR0 offset of THM_Pn_STAT2 (spec/07_thermal_energy.md). -/
def THM_Pn_STAT2 (n : Nat) : Nat := 0x281004 + 0x100 * n

/-- BAR0 offset of THM_Pn_KJ (spec/07_thermal_energy.md). -/
def THM_Pn_KJ (n : Nat) : Nat := 0x281008 + 0x100 * n

/-- BAR0 offset of THM_Pn_TAUJB (spec/07_thermal_energy.md). -/
def THM_Pn_TAUJB (n : Nat) : Nat := 0x28100C + 0x100 * n

/-- BAR0 offset of THM_Pn_TAUBZ (spec/07_thermal_energy.md). -/
def THM_Pn_TAUBZ (n : Nat) : Nat := 0x281010 + 0x100 * n

/-- BAR0 offset of THM_Pn_SET (spec/07_thermal_energy.md). -/
def THM_Pn_SET (n : Nat) : Nat := 0x281014 + 0x100 * n

/-- BAR0 offset of THM_Pn_KT (spec/07_thermal_energy.md). -/
def THM_Pn_KT (n : Nat) : Nat := 0x281018 + 0x100 * n

/-- BAR0 offset of THM_Pn_EPS (spec/07_thermal_energy.md). -/
def THM_Pn_EPS (n : Nat) : Nat := 0x28101C + 0x100 * n

/-- BAR0 offset of THM_Pn_WARMREQ (spec/07_thermal_energy.md). -/
def THM_Pn_WARMREQ (n : Nat) : Nat := 0x281020 + 0x100 * n

/-- BAR0 offset of THM_Pn_TELECNT (spec/07_thermal_energy.md). -/
def THM_Pn_TELECNT (n : Nat) : Nat := 0x281024 + 0x100 * n

/-- BAR0 offset of THM_Pn_TSTOP (spec/07_thermal_energy.md). -/
def THM_Pn_TSTOP (n : Nat) : Nat := 0x281028 + 0x100 * n

/-- BAR0 offset of THM_Pn_THALT (spec/07_thermal_energy.md). -/
def THM_Pn_THALT (n : Nat) : Nat := 0x281030 + 0x100 * n

/-- BAR0 offset of THM_Pn_TTHR (spec/07_thermal_energy.md). -/
def THM_Pn_TTHR (n : Nat) : Nat := 0x281038 + 0x100 * n

/-- BAR0 offset of THM_Pn_RSTOP (spec/07_thermal_energy.md). -/
def THM_Pn_RSTOP (n : Nat) : Nat := 0x281040 + 0x100 * n

/-- BAR0 offset of THM_Pn_RHALT (spec/07_thermal_energy.md). -/
def THM_Pn_RHALT (n : Nat) : Nat := 0x281048 + 0x100 * n

/-- BAR0 offset of THM_Pn_BUDGET01 (spec/07_thermal_energy.md). -/
def THM_Pn_BUDGET01 (n : Nat) : Nat := 0x281050 + 0x100 * n

/-- BAR0 offset of THM_Pn_BUDGET23 (spec/07_thermal_energy.md). -/
def THM_Pn_BUDGET23 (n : Nat) : Nat := 0x281058 + 0x100 * n

/-- BAR0 offset of THM_Pn_CAPS (spec/07_thermal_energy.md). -/
def THM_Pn_CAPS (n : Nat) : Nat := 0x281060 + 0x100 * n

/-- BAR0 offset of NHL_CFG (spec/08_nozzle_health.md). -/
def NHL_CFG : Nat := 0x2C0000

/-- BAR0 offset of NHL_HOSTRES (spec/08_nozzle_health.md). -/
def NHL_HOSTRES : Nat := 0x2C0004

/-- BAR0 offset of NHL_HOSTCNT (spec/08_nozzle_health.md). -/
def NHL_HOSTCNT : Nat := 0x2C0008

/-- BAR0 offset of NHL_Pn_POLICY (spec/08_nozzle_health.md). -/
def NHL_Pn_POLICY (n : Nat) : Nat := 0x2C1000 + 0x100 * n

/-- BAR0 offset of NHL_Pn_CONF (spec/08_nozzle_health.md). -/
def NHL_Pn_CONF (n : Nat) : Nat := 0x2C1004 + 0x100 * n

/-- BAR0 offset of NHL_Pn_WCONF (spec/08_nozzle_health.md). -/
def NHL_Pn_WCONF (n : Nat) : Nat := 0x2C1008 + 0x100 * n

/-- BAR0 offset of NHL_Pn_SCAN (spec/08_nozzle_health.md). -/
def NHL_Pn_SCAN (n : Nat) : Nat := 0x2C100C + 0x100 * n

/-- BAR0 offset of NHL_Pn_SPIT (spec/08_nozzle_health.md). -/
def NHL_Pn_SPIT (n : Nat) : Nat := 0x2C1010 + 0x100 * n

/-- BAR0 offset of NHL_Pn_SVC (spec/08_nozzle_health.md). -/
def NHL_Pn_SVC (n : Nat) : Nat := 0x2C1014 + 0x100 * n

/-- BAR0 offset of NHL_Pn_SVCMW (spec/08_nozzle_health.md). -/
def NHL_Pn_SVCMW (n : Nat) : Nat := 0x2C1018 + 0x100 * n

/-- BAR0 offset of NHL_Pn_GAPLINE (spec/08_nozzle_health.md). -/
def NHL_Pn_GAPLINE (n : Nat) : Nat := 0x2C101C + 0x100 * n

/-- BAR0 offset of NHL_Pn_GAPLEN (spec/08_nozzle_health.md). -/
def NHL_Pn_GAPLEN (n : Nat) : Nat := 0x2C1020 + 0x100 * n

/-- BAR0 offset of NHL_Pn_SCANPOS (spec/08_nozzle_health.md). -/
def NHL_Pn_SCANPOS (n : Nat) : Nat := 0x2C1024 + 0x100 * n

/-- BAR0 offset of NHL_Pn_STAT (spec/08_nozzle_health.md). -/
def NHL_Pn_STAT (n : Nat) : Nat := 0x2C1028 + 0x100 * n

/-- BAR0 offset of NHL_Pn_STAT2 (spec/08_nozzle_health.md). -/
def NHL_Pn_STAT2 (n : Nat) : Nat := 0x2C102C + 0x100 * n

/-- BAR0 offset of NHL_Pn_CMD (spec/08_nozzle_health.md). -/
def NHL_Pn_CMD (n : Nat) : Nat := 0x2C1030 + 0x100 * n

/-- BAR0 offset of NHL_Pn_CMD_STATUS (spec/08_nozzle_health.md). -/
def NHL_Pn_CMD_STATUS (n : Nat) : Nat := 0x2C1034 + 0x100 * n

/-- BAR0 offset of SCN_CFG (spec/09_scanning.md). -/
def SCN_CFG : Nat := 0x300000

/-- BAR0 offset of SCN_RUNUP (spec/09_scanning.md). -/
def SCN_RUNUP : Nat := 0x300004

/-- BAR0 offset of SCN_RUNOUT (spec/09_scanning.md). -/
def SCN_RUNOUT : Nat := 0x300008

/-- BAR0 offset of SCN_SPEED (spec/09_scanning.md). -/
def SCN_SPEED : Nat := 0x30000C

/-- BAR0 offset of SCN_JOB (spec/09_scanning.md). -/
def SCN_JOB : Nat := 0x300010

/-- BAR0 offset of SCN_JOBLINE (spec/09_scanning.md). -/
def SCN_JOBLINE : Nat := 0x300014

/-- BAR0 offset of SCN_CMD (spec/09_scanning.md). -/
def SCN_CMD : Nat := 0x300018

/-- BAR0 offset of SCN_CMD_STATUS (spec/09_scanning.md). -/
def SCN_CMD_STATUS : Nat := 0x30001C

/-- BAR0 offset of SCN_STAT (spec/09_scanning.md). -/
def SCN_STAT : Nat := 0x300020

/-- BAR0 offset of SCN_RESUME (spec/09_scanning.md). -/
def SCN_RESUME : Nat := 0x300024

/-- BAR0 offset of SCN_BNEXT (spec/09_scanning.md). -/
def SCN_BNEXT : Nat := 0x300028

/-- BAR0 offset of SCN_STAT2 (spec/09_scanning.md). -/
def SCN_STAT2 : Nat := 0x30002C

/-- BAR0 offset of SCN_SIG (spec/09_scanning.md). -/
def SCN_SIG : Nat := 0x300030

/-- BAR0 offset of SCN_DWELL (spec/09_scanning.md). -/
def SCN_DWELL : Nat := 0x300038

/-- BAR0 offset of SCN_LTn_XORG_INT (spec/09_scanning.md). -/
def SCN_LTn_XORG_INT (n : Nat) : Nat := 0x301000 + 0x40 * n

/-- BAR0 offset of SCN_LTn_XORG_FRAC (spec/09_scanning.md). -/
def SCN_LTn_XORG_FRAC (n : Nat) : Nat := 0x301004 + 0x40 * n

/-- BAR0 offset of SCN_LTn_ALIGNF (spec/09_scanning.md). -/
def SCN_LTn_ALIGNF (n : Nat) : Nat := 0x301008 + 0x40 * n

/-- BAR0 offset of SCN_LTn_ALIGNR (spec/09_scanning.md). -/
def SCN_LTn_ALIGNR (n : Nat) : Nat := 0x30100C + 0x40 * n

/-- BAR0 offset of SCN_LTn_TFLY (spec/09_scanning.md). -/
def SCN_LTn_TFLY (n : Nat) : Nat := 0x301010 + 0x40 * n

/-- BAR0 offset of POS_PCn_STAT (spec/10_position.md). -/
def POS_PCn_STAT (n : Nat) : Nat := 0x400000 + 0x1000 * n

/-- BAR0 offset of POS_PCn_POS_INT (spec/10_position.md). -/
def POS_PCn_POS_INT (n : Nat) : Nat := 0x400004 + 0x1000 * n

/-- BAR0 offset of POS_PCn_POS_FRAC (spec/10_position.md). -/
def POS_PCn_POS_FRAC (n : Nat) : Nat := 0x400008 + 0x1000 * n

/-- BAR0 offset of POS_PCn_SPEED (spec/10_position.md). -/
def POS_PCn_SPEED (n : Nat) : Nat := 0x40000C + 0x1000 * n

/-- BAR0 offset of POS_PCn_SPDCFG (spec/10_position.md). -/
def POS_PCn_SPDCFG (n : Nat) : Nat := 0x400010 + 0x1000 * n

/-- BAR0 offset of POS_PCn_FAULTCNT (spec/10_position.md). -/
def POS_PCn_FAULTCNT (n : Nat) : Nat := 0x400014 + 0x1000 * n

/-- BAR0 offset of POS_PCn_FLAG (spec/10_position.md). -/
def POS_PCn_FLAG (n : Nat) : Nat := 0x400018 + 0x1000 * n

/-- BAR0 offset of POS_PCn_EVTCFG (spec/10_position.md). -/
def POS_PCn_EVTCFG (n : Nat) : Nat := 0x40001C + 0x1000 * n

/-- BAR0 offset of POS_PCn_CMD (spec/10_position.md). -/
def POS_PCn_CMD (n : Nat) : Nat := 0x400020 + 0x1000 * n

/-- BAR0 offset of POS_PCn_CMD_STATUS (spec/10_position.md). -/
def POS_PCn_CMD_STATUS (n : Nat) : Nat := 0x400024 + 0x1000 * n

/-- BAR0 offset of POS_PCn_PRESET_INT (spec/10_position.md). -/
def POS_PCn_PRESET_INT (n : Nat) : Nat := 0x400028 + 0x1000 * n

/-- BAR0 offset of POS_PCn_PRESET_FRAC (spec/10_position.md). -/
def POS_PCn_PRESET_FRAC (n : Nat) : Nat := 0x40002C + 0x1000 * n

/-- BAR0 offset of POS_PCn_CAPCFG (spec/10_position.md). -/
def POS_PCn_CAPCFG (n : Nat) : Nat := 0x400030 + 0x1000 * n

/-- BAR0 offset of POS_PCn_CAP_INT (spec/10_position.md). -/
def POS_PCn_CAP_INT (n : Nat) : Nat := 0x400034 + 0x1000 * n

/-- BAR0 offset of POS_PCn_CAP_FRAC (spec/10_position.md). -/
def POS_PCn_CAP_FRAC (n : Nat) : Nat := 0x400038 + 0x1000 * n

/-- BAR0 offset of POS_PCn_CAP_TLO (spec/10_position.md). -/
def POS_PCn_CAP_TLO (n : Nat) : Nat := 0x40003C + 0x1000 * n

/-- BAR0 offset of POS_PCn_CAP_THI (spec/10_position.md). -/
def POS_PCn_CAP_THI (n : Nat) : Nat := 0x400040 + 0x1000 * n

/-- BAR0 offset of POS_PCn_SCCAL (spec/10_position.md). -/
def POS_PCn_SCCAL (n : Nat) : Nat := 0x400044 + 0x1000 * n

/-- BAR0 offset of POS_PCn_SCWIN (spec/10_position.md). -/
def POS_PCn_SCWIN (n : Nat) : Nat := 0x400048 + 0x1000 * n

/-- BAR0 offset of POS_PCn_SCAMP (spec/10_position.md). -/
def POS_PCn_SCAMP (n : Nat) : Nat := 0x400050 + 0x1000 * n

/-- BAR0 offset of POS_PCn_CMPm_CTL (spec/10_position.md). -/
def POS_PCn_CMPm_CTL (n m : Nat) : Nat := 0x400100 + 0x1000 * n + 0x40 * m

/-- BAR0 offset of POS_PCn_CMPm_TGT_INT (spec/10_position.md). -/
def POS_PCn_CMPm_TGT_INT (n m : Nat) : Nat := 0x400104 + 0x1000 * n + 0x40 * m

/-- BAR0 offset of POS_PCn_CMPm_TGT_FRAC (spec/10_position.md). -/
def POS_PCn_CMPm_TGT_FRAC (n m : Nat) : Nat := 0x400108 + 0x1000 * n + 0x40 * m

/-- BAR0 offset of POS_PCn_CMPm_SPACE (spec/10_position.md). -/
def POS_PCn_CMPm_SPACE (n m : Nat) : Nat := 0x40010C + 0x1000 * n + 0x40 * m

/-- BAR0 offset of POS_PCn_CMPm_STAT (spec/10_position.md). -/
def POS_PCn_CMPm_STAT (n m : Nat) : Nat := 0x400110 + 0x1000 * n + 0x40 * m

/-- BAR0 offset of POS_PCn_CMPm_SKIPCNT (spec/10_position.md). -/
def POS_PCn_CMPm_SKIPCNT (n m : Nat) : Nat := 0x400114 + 0x1000 * n + 0x40 * m

/-- BAR0 offset of POS_PCn_CMPm_HIT_INT (spec/10_position.md). -/
def POS_PCn_CMPm_HIT_INT (n m : Nat) : Nat := 0x400118 + 0x1000 * n + 0x40 * m

/-- BAR0 offset of POS_PCn_CMPm_HIT_FRAC (spec/10_position.md). -/
def POS_PCn_CMPm_HIT_FRAC (n m : Nat) : Nat := 0x40011C + 0x1000 * n + 0x40 * m

/-- BAR0 offset of POS_PCn_CMPm_HIT_TLO (spec/10_position.md). -/
def POS_PCn_CMPm_HIT_TLO (n m : Nat) : Nat := 0x400120 + 0x1000 * n + 0x40 * m

/-- BAR0 offset of POS_PCn_CMPm_HIT_THI (spec/10_position.md). -/
def POS_PCn_CMPm_HIT_THI (n m : Nat) : Nat := 0x400124 + 0x1000 * n + 0x40 * m

/-- BAR0 offset of POS_PCn_CMPm_CMD (spec/10_position.md). -/
def POS_PCn_CMPm_CMD (n m : Nat) : Nat := 0x400128 + 0x1000 * n + 0x40 * m

/-- BAR0 offset of POS_PCn_CMPm_CMD_STATUS (spec/10_position.md). -/
def POS_PCn_CMPm_CMD_STATUS (n m : Nat) : Nat := 0x40012C + 0x1000 * n + 0x40 * m

/-- BAR0 offset of POS_PCn_CMPm_FLAG (spec/10_position.md). -/
def POS_PCn_CMPm_FLAG (n m : Nat) : Nat := 0x400130 + 0x1000 * n + 0x40 * m

/-- BAR0 offset of POS_EEn_CFG (spec/10_position.md). -/
def POS_EEn_CFG (n : Nat) : Nat := 0x408000 + 0x100 * n

/-- BAR0 offset of POS_EEn_LAG (spec/10_position.md). -/
def POS_EEn_LAG (n : Nat) : Nat := 0x408004 + 0x100 * n

/-- BAR0 offset of POS_EEn_FLAG (spec/10_position.md). -/
def POS_EEn_FLAG (n : Nat) : Nat := 0x408008 + 0x100 * n

/-- BAR0 offset of POS_EEn_OUT (spec/10_position.md). -/
def POS_EEn_OUT (n : Nat) : Nat := 0x40800C + 0x100 * n

/-- BAR0 offset of STP_SAn_STAT (spec/11_steppers.md). -/
def STP_SAn_STAT (n : Nat) : Nat := 0x480000 + 0x1000 * n

/-- BAR0 offset of STP_SAn_POS_INT (spec/11_steppers.md). -/
def STP_SAn_POS_INT (n : Nat) : Nat := 0x480004 + 0x1000 * n

/-- BAR0 offset of STP_SAn_POS_FRAC (spec/11_steppers.md). -/
def STP_SAn_POS_FRAC (n : Nat) : Nat := 0x480008 + 0x1000 * n

/-- BAR0 offset of STP_SAn_VEL (spec/11_steppers.md). -/
def STP_SAn_VEL (n : Nat) : Nat := 0x48000C + 0x1000 * n

/-- BAR0 offset of STP_SAn_TGT (spec/11_steppers.md). -/
def STP_SAn_TGT (n : Nat) : Nat := 0x480010 + 0x1000 * n

/-- BAR0 offset of STP_SAn_VMAX (spec/11_steppers.md). -/
def STP_SAn_VMAX (n : Nat) : Nat := 0x480014 + 0x1000 * n

/-- BAR0 offset of STP_SAn_AMAX (spec/11_steppers.md). -/
def STP_SAn_AMAX (n : Nat) : Nat := 0x480018 + 0x1000 * n

/-- BAR0 offset of STP_SAn_DMAX (spec/11_steppers.md). -/
def STP_SAn_DMAX (n : Nat) : Nat := 0x48001C + 0x1000 * n

/-- BAR0 offset of STP_SAn_JMAX (spec/11_steppers.md). -/
def STP_SAn_JMAX (n : Nat) : Nat := 0x480020 + 0x1000 * n

/-- BAR0 offset of STP_SAn_PWM (spec/11_steppers.md). -/
def STP_SAn_PWM (n : Nat) : Nat := 0x480024 + 0x1000 * n

/-- BAR0 offset of STP_SAn_VTHR (spec/11_steppers.md). -/
def STP_SAn_VTHR (n : Nat) : Nat := 0x480028 + 0x1000 * n

/-- BAR0 offset of STP_SAn_VHYST (spec/11_steppers.md). -/
def STP_SAn_VHYST (n : Nat) : Nat := 0x48002C + 0x1000 * n

/-- BAR0 offset of STP_SAn_QAMP (spec/11_steppers.md). -/
def STP_SAn_QAMP (n : Nat) : Nat := 0x480030 + 0x1000 * n

/-- BAR0 offset of STP_SAn_ENC (spec/11_steppers.md). -/
def STP_SAn_ENC (n : Nat) : Nat := 0x480034 + 0x1000 * n

/-- BAR0 offset of STP_SAn_DEV (spec/11_steppers.md). -/
def STP_SAn_DEV (n : Nat) : Nat := 0x480038 + 0x1000 * n

/-- BAR0 offset of STP_SAn_FILT (spec/11_steppers.md). -/
def STP_SAn_FILT (n : Nat) : Nat := 0x48003C + 0x1000 * n

/-- BAR0 offset of STP_SAn_HOMECFG (spec/11_steppers.md). -/
def STP_SAn_HOMECFG (n : Nat) : Nat := 0x480040 + 0x1000 * n

/-- BAR0 offset of STP_SAn_HVFAST (spec/11_steppers.md). -/
def STP_SAn_HVFAST (n : Nat) : Nat := 0x480044 + 0x1000 * n

/-- BAR0 offset of STP_SAn_HVSLOW (spec/11_steppers.md). -/
def STP_SAn_HVSLOW (n : Nat) : Nat := 0x480048 + 0x1000 * n

/-- BAR0 offset of STP_SAn_HBACK (spec/11_steppers.md). -/
def STP_SAn_HBACK (n : Nat) : Nat := 0x48004C + 0x1000 * n

/-- BAR0 offset of STP_SAn_HOFS (spec/11_steppers.md). -/
def STP_SAn_HOFS (n : Nat) : Nat := 0x480050 + 0x1000 * n

/-- BAR0 offset of STP_SAn_HPOS (spec/11_steppers.md). -/
def STP_SAn_HPOS (n : Nat) : Nat := 0x480054 + 0x1000 * n

/-- BAR0 offset of STP_SAn_LATCH (spec/11_steppers.md). -/
def STP_SAn_LATCH (n : Nat) : Nat := 0x480058 + 0x1000 * n

/-- BAR0 offset of STP_SAn_SHUNT (spec/11_steppers.md). -/
def STP_SAn_SHUNT (n : Nat) : Nat := 0x48005C + 0x1000 * n

/-- BAR0 offset of STP_SAn_ACCMW (spec/11_steppers.md). -/
def STP_SAn_ACCMW (n : Nat) : Nat := 0x480060 + 0x1000 * n

/-- BAR0 offset of STP_SAn_CMD (spec/11_steppers.md). -/
def STP_SAn_CMD (n : Nat) : Nat := 0x480064 + 0x1000 * n

/-- BAR0 offset of STP_SAn_CMD_STATUS (spec/11_steppers.md). -/
def STP_SAn_CMD_STATUS (n : Nat) : Nat := 0x480068 + 0x1000 * n

/-- BAR0 offset of STP_SAn_FLAG (spec/11_steppers.md). -/
def STP_SAn_FLAG (n : Nat) : Nat := 0x48006C + 0x1000 * n

/-- BAR0 offset of STP_SAn_PRESET (spec/11_steppers.md). -/
def STP_SAn_PRESET (n : Nat) : Nat := 0x480070 + 0x1000 * n

/-- BAR0 offset of STP_SAn_IRUN (spec/11_steppers.md). -/
def STP_SAn_IRUN (n : Nat) : Nat := 0x480080 + 0x1000 * n

/-- BAR0 offset of STP_SAn_EDEC (spec/11_steppers.md). -/
def STP_SAn_EDEC (n : Nat) : Nat := 0x480088 + 0x1000 * n

/-- BAR0 offset of STP_SAn_SOFTMIN (spec/11_steppers.md). -/
def STP_SAn_SOFTMIN (n : Nat) : Nat := 0x480090 + 0x1000 * n

/-- BAR0 offset of STP_SAn_SOFTMAX (spec/11_steppers.md). -/
def STP_SAn_SOFTMAX (n : Nat) : Nat := 0x480098 + 0x1000 * n

/-- BAR0 offset of STP_SAn_STALLWIN (spec/11_steppers.md). -/
def STP_SAn_STALLWIN (n : Nat) : Nat := 0x4800A0 + 0x1000 * n

/-- BAR0 offset of STP_SAn_LIMCFG (spec/11_steppers.md). -/
def STP_SAn_LIMCFG (n : Nat) : Nat := 0x4800A8 + 0x1000 * n

/-- BAR0 offset of MOT_MCn_STAT (spec/12_motor_drive.md). -/
def MOT_MCn_STAT (n : Nat) : Nat := 0x500000 + 0x4000 * n

/-- BAR0 offset of MOT_MCn_SPEED (spec/12_motor_drive.md). -/
def MOT_MCn_SPEED (n : Nat) : Nat := 0x500004 + 0x4000 * n

/-- BAR0 offset of MOT_MCn_IDQ (spec/12_motor_drive.md). -/
def MOT_MCn_IDQ (n : Nat) : Nat := 0x500008 + 0x4000 * n

/-- BAR0 offset of MOT_MCn_VREF (spec/12_motor_drive.md). -/
def MOT_MCn_VREF (n : Nat) : Nat := 0x50000C + 0x4000 * n

/-- BAR0 offset of MOT_MCn_ACC (spec/12_motor_drive.md). -/
def MOT_MCn_ACC (n : Nat) : Nat := 0x500010 + 0x4000 * n

/-- BAR0 offset of MOT_MCn_CFG (spec/12_motor_drive.md). -/
def MOT_MCn_CFG (n : Nat) : Nat := 0x500014 + 0x4000 * n

/-- BAR0 offset of MOT_MCn_SENSE (spec/12_motor_drive.md). -/
def MOT_MCn_SENSE (n : Nat) : Nat := 0x500018 + 0x4000 * n

/-- BAR0 offset of MOT_MCn_CATCH (spec/12_motor_drive.md). -/
def MOT_MCn_CATCH (n : Nat) : Nat := 0x50001C + 0x4000 * n

/-- BAR0 offset of MOT_MCn_STARTCFG (spec/12_motor_drive.md). -/
def MOT_MCn_STARTCFG (n : Nat) : Nat := 0x500020 + 0x4000 * n

/-- BAR0 offset of MOT_MCn_ISTART (spec/12_motor_drive.md). -/
def MOT_MCn_ISTART (n : Nat) : Nat := 0x500024 + 0x4000 * n

/-- BAR0 offset of MOT_MCn_HANDOVER (spec/12_motor_drive.md). -/
def MOT_MCn_HANDOVER (n : Nat) : Nat := 0x500028 + 0x4000 * n

/-- BAR0 offset of MOT_MCn_CPI (spec/12_motor_drive.md). -/
def MOT_MCn_CPI (n : Nat) : Nat := 0x50002C + 0x4000 * n

/-- BAR0 offset of MOT_MCn_SPI (spec/12_motor_drive.md). -/
def MOT_MCn_SPI (n : Nat) : Nat := 0x500030 + 0x4000 * n

/-- BAR0 offset of MOT_MCn_MOTOR (spec/12_motor_drive.md). -/
def MOT_MCn_MOTOR (n : Nat) : Nat := 0x500034 + 0x4000 * n

/-- BAR0 offset of MOT_MCn_KE (spec/12_motor_drive.md). -/
def MOT_MCn_KE (n : Nat) : Nat := 0x500038 + 0x4000 * n

/-- BAR0 offset of MOT_MCn_SHUNT (spec/12_motor_drive.md). -/
def MOT_MCn_SHUNT (n : Nat) : Nat := 0x50003C + 0x4000 * n

/-- BAR0 offset of MOT_MCn_VSENSE (spec/12_motor_drive.md). -/
def MOT_MCn_VSENSE (n : Nat) : Nat := 0x500040 + 0x4000 * n

/-- BAR0 offset of MOT_MCn_EOFS (spec/12_motor_drive.md). -/
def MOT_MCn_EOFS (n : Nat) : Nat := 0x500044 + 0x4000 * n

/-- BAR0 offset of MOT_MCn_ENCRES (spec/12_motor_drive.md). -/
def MOT_MCn_ENCRES (n : Nat) : Nat := 0x500048 + 0x4000 * n

/-- BAR0 offset of MOT_MCn_ACCMW (spec/12_motor_drive.md). -/
def MOT_MCn_ACCMW (n : Nat) : Nat := 0x50004C + 0x4000 * n

/-- BAR0 offset of MOT_MCn_CMD (spec/12_motor_drive.md). -/
def MOT_MCn_CMD (n : Nat) : Nat := 0x500050 + 0x4000 * n

/-- BAR0 offset of MOT_MCn_CMD_STATUS (spec/12_motor_drive.md). -/
def MOT_MCn_CMD_STATUS (n : Nat) : Nat := 0x500054 + 0x4000 * n

/-- BAR0 offset of MOT_MCn_FLAG (spec/12_motor_drive.md). -/
def MOT_MCn_FLAG (n : Nat) : Nat := 0x500058 + 0x4000 * n

/-- BAR0 offset of MOT_MCn_TGT (spec/12_motor_drive.md). -/
def MOT_MCn_TGT (n : Nat) : Nat := 0x50005C + 0x4000 * n

/-- BAR0 offset of MOT_MCn_PVMAX (spec/12_motor_drive.md). -/
def MOT_MCn_PVMAX (n : Nat) : Nat := 0x500060 + 0x4000 * n

/-- BAR0 offset of MOT_MCn_PAMAX (spec/12_motor_drive.md). -/
def MOT_MCn_PAMAX (n : Nat) : Nat := 0x500064 + 0x4000 * n

/-- BAR0 offset of MOT_MCn_PDMAX (spec/12_motor_drive.md). -/
def MOT_MCn_PDMAX (n : Nat) : Nat := 0x500068 + 0x4000 * n

/-- BAR0 offset of MOT_MCn_PJMAX (spec/12_motor_drive.md). -/
def MOT_MCn_PJMAX (n : Nat) : Nat := 0x50006C + 0x4000 * n

/-- BAR0 offset of MOT_MCn_ILIM (spec/12_motor_drive.md). -/
def MOT_MCn_ILIM (n : Nat) : Nat := 0x500080 + 0x4000 * n

/-- BAR0 offset of MOT_MCn_LOCK (spec/12_motor_drive.md). -/
def MOT_MCn_LOCK (n : Nat) : Nat := 0x500088 + 0x4000 * n

/-- BAR0 offset of MOT_MCn_BRKFW (spec/12_motor_drive.md). -/
def MOT_MCn_BRKFW (n : Nat) : Nat := 0x500090 + 0x4000 * n

/-- BAR0 offset of MOT_MCn_VBUS (spec/12_motor_drive.md). -/
def MOT_MCn_VBUS (n : Nat) : Nat := 0x500098 + 0x4000 * n

/-- BAR0 offset of MOT_MCn_SOFTMIN (spec/12_motor_drive.md). -/
def MOT_MCn_SOFTMIN (n : Nat) : Nat := 0x5000A0 + 0x4000 * n

/-- BAR0 offset of MOT_MCn_SOFTMAX (spec/12_motor_drive.md). -/
def MOT_MCn_SOFTMAX (n : Nat) : Nat := 0x5000A8 + 0x4000 * n

/-- BAR0 offset of MOT_MCn_LIMCFG (spec/12_motor_drive.md). -/
def MOT_MCn_LIMCFG (n : Nat) : Nat := 0x5000B0 + 0x4000 * n

/-- BAR0 offset of DMA_DCn_STAT (spec/15_dma.md). -/
def DMA_DCn_STAT (n : Nat) : Nat := 0x600000 + 0x1000 * n

/-- BAR0 offset of DMA_DCn_CFG (spec/15_dma.md). -/
def DMA_DCn_CFG (n : Nat) : Nat := 0x600004 + 0x1000 * n

/-- BAR0 offset of DMA_DCn_CMD (spec/15_dma.md). -/
def DMA_DCn_CMD (n : Nat) : Nat := 0x600008 + 0x1000 * n

/-- BAR0 offset of DMA_DCn_CMD_STATUS (spec/15_dma.md). -/
def DMA_DCn_CMD_STATUS (n : Nat) : Nat := 0x60000C + 0x1000 * n

/-- BAR0 offset of DMA_DCn_SPTR (spec/15_dma.md). -/
def DMA_DCn_SPTR (n : Nat) : Nat := 0x600010 + 0x1000 * n

/-- BAR0 offset of DMA_DCn_SPID (spec/15_dma.md). -/
def DMA_DCn_SPID (n : Nat) : Nat := 0x600014 + 0x1000 * n

/-- BAR0 offset of DMA_DCn_APTR (spec/15_dma.md). -/
def DMA_DCn_APTR (n : Nat) : Nat := 0x600018 + 0x1000 * n

/-- BAR0 offset of DMA_DCn_APID (spec/15_dma.md). -/
def DMA_DCn_APID (n : Nat) : Nat := 0x60001C + 0x1000 * n

/-- BAR0 offset of DMA_DCn_XOFF (spec/15_dma.md). -/
def DMA_DCn_XOFF (n : Nat) : Nat := 0x600020 + 0x1000 * n

/-- BAR0 offset of DMA_DCn_C (spec/15_dma.md). -/
def DMA_DCn_C (n : Nat) (k : Nat) : Nat := 0x600024 + 0x1000 * n + 4 * k

/-- BAR0 offset of DMA_DCn_BYTES_LO (spec/15_dma.md). -/
def DMA_DCn_BYTES_LO (n : Nat) : Nat := 0x600034 + 0x1000 * n

/-- BAR0 offset of DMA_DCn_BYTES_HI (spec/15_dma.md). -/
def DMA_DCn_BYTES_HI (n : Nat) : Nat := 0x600038 + 0x1000 * n

/-- BAR0 offset of DMA_DCn_SPAR (spec/15_dma.md). -/
def DMA_DCn_SPAR (n : Nat) (k : Nat) : Nat := 0x600040 + 0x1000 * n + 4 * k

/-- BAR0 offset of DMA_DCn_APAR (spec/15_dma.md). -/
def DMA_DCn_APAR (n : Nat) (k : Nat) : Nat := 0x600080 + 0x1000 * n + 4 * k

/-- BAR0 offset of DMA_DCn_SBASE_LO (spec/15_dma.md). -/
def DMA_DCn_SBASE_LO (n : Nat) : Nat := 0x6000C0 + 0x1000 * n

/-- BAR0 offset of DMA_DCn_SBASE_HI (spec/15_dma.md). -/
def DMA_DCn_SBASE_HI (n : Nat) : Nat := 0x6000C4 + 0x1000 * n

/-- BAR0 offset of DMA_DCn_SPATR (spec/15_dma.md). -/
def DMA_DCn_SPATR (n : Nat) : Nat := 0x6000C8 + 0x1000 * n

/-- BAR0 offset of DMA_DCn_SROWS (spec/15_dma.md). -/
def DMA_DCn_SROWS (n : Nat) : Nat := 0x6000CC + 0x1000 * n

/-- BAR0 offset of DMA_DCn_SSTRIDE (spec/15_dma.md). -/
def DMA_DCn_SSTRIDE (n : Nat) : Nat := 0x6000D0 + 0x1000 * n

/-- BAR0 offset of DMA_DCn_DBASE_LO (spec/15_dma.md). -/
def DMA_DCn_DBASE_LO (n : Nat) : Nat := 0x6000E0 + 0x1000 * n

/-- BAR0 offset of DMA_DCn_DBASE_HI (spec/15_dma.md). -/
def DMA_DCn_DBASE_HI (n : Nat) : Nat := 0x6000E4 + 0x1000 * n

/-- BAR0 offset of DMA_DCn_DPATR (spec/15_dma.md). -/
def DMA_DCn_DPATR (n : Nat) : Nat := 0x6000E8 + 0x1000 * n

/-- BAR0 offset of DMA_DCn_DROWS (spec/15_dma.md). -/
def DMA_DCn_DROWS (n : Nat) : Nat := 0x6000EC + 0x1000 * n

/-- BAR0 offset of DMA_DCn_DSTRIDE (spec/15_dma.md). -/
def DMA_DCn_DSTRIDE (n : Nat) : Nat := 0x6000F0 + 0x1000 * n

/-- BAR0 offset of DMA_DCn_ERRADDR_LO (spec/15_dma.md). -/
def DMA_DCn_ERRADDR_LO (n : Nat) : Nat := 0x6000F4 + 0x1000 * n

/-- BAR0 offset of DMA_DCn_ERRADDR_HI (spec/15_dma.md). -/
def DMA_DCn_ERRADDR_HI (n : Nat) : Nat := 0x6000F8 + 0x1000 * n

/-- BAR0 offset of DMA_DCn_FLAG (spec/15_dma.md). -/
def DMA_DCn_FLAG (n : Nat) : Nat := 0x6000FC + 0x1000 * n

/-- BAR0 offset of DMA_CQn_BASE_LO (spec/15_dma.md). -/
def DMA_CQn_BASE_LO (n : Nat) : Nat := 0x620000 + 0x40 * n

/-- BAR0 offset of DMA_CQn_BASE_HI (spec/15_dma.md). -/
def DMA_CQn_BASE_HI (n : Nat) : Nat := 0x620004 + 0x40 * n

/-- BAR0 offset of DMA_CQn_CFG (spec/15_dma.md). -/
def DMA_CQn_CFG (n : Nat) : Nat := 0x620008 + 0x40 * n

/-- BAR0 offset of DMA_CQn_TAIL (spec/15_dma.md). -/
def DMA_CQn_TAIL (n : Nat) : Nat := 0x62000C + 0x40 * n

/-- BAR0 offset of DMA_CQn_HEAD (spec/15_dma.md). -/
def DMA_CQn_HEAD (n : Nat) : Nat := 0x620010 + 0x40 * n

/-- BAR0 offset of DMA_SIGRAISE (spec/15_dma.md). -/
def DMA_SIGRAISE : Nat := 0x621000

/-- BAR0 offset of DMA_SIGSAT (spec/15_dma.md). -/
def DMA_SIGSAT : Nat := 0x621004

/-- BAR0 offset of DMA_SIGCNT (spec/15_dma.md). -/
def DMA_SIGCNT (k : Nat) : Nat := 0x621010 + 4 * k

/-- BAR0 offset of ADC_CTL (spec/18_register_map.md). -/
def ADC_CTL : Nat := 0x580000

/-- BAR0 offset of ADC_AIN (spec/18_register_map.md). -/
def ADC_AIN (k : Nat) : Nat := 0x580100 + 4 * k

/-- BAR0 offset of the MSI-X table (R524). -/
def MSIX_TABLE (v k : Nat) : Nat := 0x021000 + 16 * v + 4 * k

/-- BAR0 offset of the MSI-X Pending Bit Array (R524). -/
def MSIX_PBA (k : Nat) : Nat := 0x021800 + 4 * k

/-- BAR0 offset of the health table (R544). -/
def TBL_HEALTH : Nat := 0x800000

/-- BAR0 offset of the substitution table (R544). -/
def TBL_SUBST : Nat := 0x900000

/-- BAR0 offset of the thermal-state table (R544). -/
def TBL_THERMAL : Nat := 0x920000

/-- BAR0 offset of the microstep table (R544). -/
def TBL_USTEP : Nat := 0x960000

/-- BAR0 offset of the feed table (R544). -/
def TBL_FEED : Nat := 0x962000

/-- BAR0 offset of the waveform table (R544). -/
def TBL_WAVE : Nat := 0x963000

/-- BAR0 offset of the pass-mask table (R544). -/
def TBL_MASK : Nat := 0xA00000

end R

/-- The register rows of block GLB (spec/18_register_map.md register tables; R541). -/
def rowsGLB : List RegRow :=
  [ ⟨0x000, 1, 4, ⟨0x4B018160, 0x0, 0x0, 0x0, 0xFFFFFFFF, 0x0, false⟩⟩ /- ID -/
  , ⟨0x010, 1, 4, ⟨0x1, 0x0, 0x0, 0x0, 0xFFFF00FF, 0x0, false⟩⟩ /- STATE -/
  , ⟨0x014, 1, 4, ⟨0x0, 0x0, 0x0, 0x0, 0x0, 0xF, false⟩⟩ /- CMD -/
  , ⟨0x018, 1, 4, ⟨0x0, 0x0, 0x0, 0x0, 0xFFF, 0x0, false⟩⟩ /- CMD_STATUS -/
  , ⟨0x020, 1, 4, ⟨0x1, 0x0, 0x0, 0x0, 0xFFFF003F, 0x0, false⟩⟩ /- RSTCAUSE -/
  , ⟨0x024, 1, 4, ⟨0x0, 0x0, 0x0, 0x0, 0xFFFFFFFF, 0x0, false⟩⟩ /- BOOTCNT -/
  , ⟨0x040, 1, 4, ⟨0x100, 0x1F3, 0x0, 0x0, 0x0, 0x0, false⟩⟩ /- THRCTL -/
  , ⟨0x044, 1, 4, ⟨0x0, 0x0, 0x0, 0x0, 0x3F3, 0x0, false⟩⟩ /- THRSTAT -/
  , ⟨0x060, 1, 4, ⟨0x0, 0x0, 0x0, 0x0, 0x31FFF, 0x0, false⟩⟩ /- BRUSTAT -/
  , ⟨0x064, 1, 4, ⟨0x0, 0x0, 0x0, 0x0, 0x0, 0xF, false⟩⟩ /- BRUCTL -/
  , ⟨0x068, 1, 4, ⟨0x0, 0x0, 0x0, 0x0, 0xFFFFFFFF, 0x0, false⟩⟩ /- BRUERR -/
  , ⟨0x070, 1, 4, ⟨0x0, 0x0, 0x0, 0x0, 0xFFFFFFFF, 0x0, false⟩⟩ /- PORTSTAT0 -/
  , ⟨0x074, 1, 4, ⟨0x0, 0x0, 0x0, 0x0, 0xFFFFFFFF, 0x0, false⟩⟩ /- PORTSTAT1 -/ ]

/-- The register rows of block IMG (spec/02_alloy_image.md register tables; R541). -/
def rowsIMG : List RegRow :=
  [ ⟨0x000, 1, 4, ⟨0x0, 0x30, 0x0, 0x0, 0x0, 0xF, false⟩⟩ /- CTL -/
  , ⟨0x004, 1, 4, ⟨0x0, 0x0, 0x0, 0x0, 0xFFFFFF, 0x0, false⟩⟩ /- STAT -/
  , ⟨0x008, 1, 4, ⟨0x0, 0x0, 0x0, 0x0, 0xFFFFFFFF, 0x0, false⟩⟩ /- ERR -/
  , ⟨0x00C, 1, 4, ⟨0x0, 0x0, 0x0, 0x0, 0xFFFFFFFF, 0x0, false⟩⟩ /- ERRARG -/
  , ⟨0x010, 1, 4, ⟨0x0, 0x0, 0x0, 0x0, 0x0, 0xFFFFFFFF, false⟩⟩ /- DATA -/
  , ⟨0x014, 1, 4, ⟨0x0, 0x0, 0x0, 0x0, 0xFFFFFFFF, 0x0, false⟩⟩ /- PUSHCNT -/
  , ⟨0x018, 1, 4, ⟨0x0, 0x0, 0x0, 0x0, 0x7FFF, 0x0, false⟩⟩ /- CMD_STATUS -/
  , ⟨0x020, 8, 4, ⟨0x0, 0x0, 0x0, 0x0, 0xFFFFFFFF, 0x0, false⟩⟩ /- HASH -/ ]

/-- The register rows of block HST (spec/17_host_control.md register tables; R541). -/
def rowsHST : List RegRow :=
  [ ⟨0x000, 1, 4, ⟨0x0, 0xFFFFFFFF, 0x0, 0x0, 0x0, 0x0, false⟩⟩ /- EVBASE_LO -/
  , ⟨0x004, 1, 4, ⟨0x0, 0xFFFFFFFF, 0x0, 0x0, 0x0, 0x0, false⟩⟩ /- EVBASE_HI -/
  , ⟨0x008, 1, 4, ⟨0x28000800, 0x3FFFFF07, 0x0, 0x0, 0x0, 0x0, false⟩⟩ /- EVCFG -/
  , ⟨0x00C, 1, 4, ⟨0x0, 0x0, 0x0, 0x0, 0xFFFF, 0x0, false⟩⟩ /- EVTAIL -/
  , ⟨0x010, 1, 4, ⟨0x0, 0xFFFF, 0x0, 0x0, 0x0, 0x0, false⟩⟩ /- EVHEAD -/
  , ⟨0x014, 1, 4, ⟨0x0, 0x0, 0x0, 0x0, 0x1FF, 0x0, false⟩⟩ /- EVSTAT -/
  , ⟨0x018, 1, 4, ⟨0x0, 0x0, 0x0, 0x0, 0xFFFFFFFF, 0x0, false⟩⟩ /- EVSEQ -/
  , ⟨0x01C, 1, 4, ⟨0x0, 0x0, 0x0, 0x0, 0xFFFF, 0x0, false⟩⟩ /- EVDROP -/
  , ⟨0x020, 1, 4, ⟨0x0, 0x0, 0x0, 0x1, 0x0, 0x0, false⟩⟩ /- INVCTL -/
  , ⟨0x024, 1, 4, ⟨0x0, 0x0, 0x0, 0x0, 0xFFFFFFFF, 0x0, false⟩⟩ /- INVREJ -/
  , ⟨0x028, 1, 4, ⟨0x0, 0x1FFFFFFF, 0x0, 0x0, 0x0, 0x0, false⟩⟩ /- OCCSEL -/
  , ⟨0x02C, 1, 4, ⟨0x0, 0x0, 0x0, 0x0, 0x3FFFF, 0x0, false⟩⟩ /- OCCVAL -/
  , ⟨0x030, 1, 4, ⟨0x0, 0x0, 0x0, 0x0, 0x0, 0x3, false⟩⟩ /- OCCCLR -/
  , ⟨0x040, 1, 4, ⟨0x0, 0xFFFFFFFF, 0x0, 0x0, 0x0, 0x0, false⟩⟩ /- LANBASE_LO -/
  , ⟨0x044, 1, 4, ⟨0x0, 0xFFFFFFFF, 0x0, 0x0, 0x0, 0x0, false⟩⟩ /- LANBASE_HI -/
  , ⟨0x048, 1, 4, ⟨0x0, 0xFF, 0x0, 0x0, 0x0, 0x0, false⟩⟩ /- LANCFG -/
  , ⟨0x04C, 1, 4, ⟨0x0, 0x0, 0x0, 0x0, 0x3, 0x0, false⟩⟩ /- LANSTAT -/
  , ⟨0x050, 1, 4, ⟨0x0, 0x0, 0x0, 0x0, 0xFFFFFFFF, 0x0, false⟩⟩ /- LANSEQ -/
  , ⟨0x060, 1, 4, ⟨0x0, 0x0, 0xF, 0x0, 0x0, 0x0, false⟩⟩ /- FLAG -/
  , ⟨0x064, 1, 4, ⟨0x0, 0x0, 0x0, 0x0, 0xFFF, 0x0, false⟩⟩ /- LINK -/ ]

/-- The register rows of block MEM (spec/16_memories.md register tables; R541). -/
def rowsMEM : List RegRow :=
  [ ⟨0x000, 1, 4, ⟨0xAAAA, 0x0, 0x0, 0x0, 0xFFFFFFFF, 0x0, false⟩⟩ /- BKSTAT -/
  , ⟨0x010, 1, 4, ⟨0x0, 0x0, 0x0, 0x0, 0x0, 0x7F, false⟩⟩ /- CMD -/
  , ⟨0x014, 1, 4, ⟨0x0, 0x0, 0x0, 0x0, 0xFFF, 0x0, false⟩⟩ /- CMD_STATUS -/
  , ⟨0x018, 1, 4, ⟨0x0, 0x0, 0x7, 0x0, 0x0, 0x0, false⟩⟩ /- FLAG -/
  , ⟨0x020, 8, 4, ⟨0x0, 0x0, 0x0, 0x0, 0xFFFFFFFF, 0x0, false⟩⟩ /- BKREP -/
  , ⟨0x040, 1, 4, ⟨0x551000, 0xFF1F01, 0x0, 0x0, 0x0, 0x0, false⟩⟩ /- MARCHCFG -/
  , ⟨0x044, 1, 4, ⟨0x0, 0x0, 0x0, 0x0, 0xFFFFFFFF, 0x0, false⟩⟩ /- MARCHSTAT -/
  , ⟨0x048, 1, 4, ⟨0x0, 0x0, 0x0, 0x0, 0x7FFFFFF, 0x0, false⟩⟩ /- MARCHFAIL -/ ]

/-- The register rows of block XMC (spec/16_memories.md register tables; R541). -/
def rowsXMC : List RegRow :=
  [ ⟨0x000, 1, 4, ⟨0x0, 0x0, 0x0, 0x0, 0xFFFF001F, 0x0, false⟩⟩ /- STAT -/
  , ⟨0x004, 1, 4, ⟨0x0, 0x3F, 0x0, 0x0, 0x0, 0x0, false⟩⟩ /- WINBASE -/
  , ⟨0x008, 1, 4, ⟨0x0, 0x0, 0x0, 0x0, 0xFFFFFFFF, 0x0, false⟩⟩ /- ECCCNT -/
  , ⟨0x00C, 1, 4, ⟨0x0, 0x0, 0x0, 0x0, 0xFFFFFFFF, 0x0, false⟩⟩ /- ECCADDR_LO -/
  , ⟨0x010, 1, 4, ⟨0x0, 0x0, 0x0, 0x0, 0x3, 0x0, false⟩⟩ /- ECCADDR_HI -/ ]

/-- The register rows of block NVJ (spec/07_thermal_energy.md register tables; R541). -/
def rowsNVJ : List RegRow :=
  [ ⟨0x000, 1, 4, ⟨0x0, 0x0, 0x0, 0x0, 0x1FFFF7FF, 0x0, false⟩⟩ /- JSTAT -/
  , ⟨0x004, 1, 4, ⟨0x0, 0x0, 0x0, 0x0, 0xFFFF, 0x0, false⟩⟩ /- JDROP -/
  , ⟨0x008, 1, 4, ⟨0x0, 0x7FF, 0x0, 0x0, 0x0, 0x0, false⟩⟩ /- JIDX -/
  , ⟨0x040, 16, 4, ⟨0x0, 0x0, 0x0, 0x0, 0xFFFFFFFF, 0x0, false⟩⟩ /- JDATA -/ ]

/-- The register rows of block CAS (spec/14_cascade.md register tables; R541). -/
def rowsCAS : List RegRow :=
  [ ⟨0x000, 1, 4, ⟨0x20, 0x0, 0x0, 0x0, 0xFFFFFFFF, 0x0, false⟩⟩ /- STAT -/
  , ⟨0x008, 1, 4, ⟨0x0, 0x0, 0x0, 0x0, 0xFFFFFFFF, 0x0, false⟩⟩ /- TSTAT -/
  , ⟨0x00C, 1, 4, ⟨0x0, 0x0, 0x0, 0x0, 0xFFFF, 0x0, false⟩⟩ /- HOPDLY -/
  , ⟨0x010, 1, 4, ⟨0x12100100, 0x1F1F03FF, 0x0, 0x0, 0x0, 0x0, false⟩⟩ /- BELLCFG -/
  , ⟨0x014, 1, 4, ⟨0x1000, 0xFFFF, 0x0, 0x0, 0x0, 0x0, false⟩⟩ /- CMDLEAD -/
  , ⟨0x018, 1, 4, ⟨0x0, 0x0, 0x0, 0x0, 0x0, 0xF, false⟩⟩ /- CMD -/
  , ⟨0x01C, 1, 4, ⟨0x0, 0x0, 0x0, 0x0, 0xFFF, 0x0, false⟩⟩ /- CMD_STATUS -/
  , ⟨0x020, 1, 4, ⟨0x0, 0xFFFFFF, 0x0, 0x0, 0x0, 0x0, false⟩⟩ /- MSGDST -/
  , ⟨0x030, 4, 4, ⟨0x0, 0xFFFFFFFF, 0x0, 0x0, 0x0, 0x0, false⟩⟩ /- TXMSG -/
  , ⟨0x040, 4, 4, ⟨0x0, 0x0, 0x0, 0x0, 0xFFFFFFFF, 0x0, false⟩⟩ /- RXMSG -/
  , ⟨0x050, 1, 4, ⟨0x0, 0x0, 0x0, 0x0, 0xFFFFFF, 0x0, false⟩⟩ /- RXSRC -/
  , ⟨0x054, 1, 4, ⟨0x0, 0x0, 0x7, 0x0, 0x0, 0x0, false⟩⟩ /- FLAG -/
  , ⟨0x058, 1, 4, ⟨0x0, 0x0, 0x0, 0x0, 0xFFFFFFFF, 0x0, false⟩⟩ /- CNT -/
  , ⟨0x068, 1, 4, ⟨0x40140, 0xF3FFF, 0x0, 0x0, 0x0, 0x0, true⟩⟩ /- PCHK -/
  , ⟨0x070, 1, 4, ⟨0x0, 0x0, 0x0, 0x0, 0xFFFFFFFF, 0x0, false⟩⟩ /- RPOS_INT -/
  , ⟨0x074, 1, 4, ⟨0x0, 0x0, 0x0, 0x0, 0xFFFFFF, 0x0, false⟩⟩ /- RPOS_FRAC -/
  , ⟨0x078, 1, 4, ⟨0x0, 0x0, 0x0, 0x0, 0xFFFFFFFF, 0x0, false⟩⟩ /- RSPEED -/
  , ⟨0x080, 8, 4, ⟨0x0, 0xBFBF, 0x0, 0x0, 0x0, 0x0, false⟩⟩ /- TRIG -/
  , ⟨0x100, 8, 8, ⟨0x0, 0x0, 0x0, 0x0, 0xFFFF007F, 0x0, false⟩⟩ /- AGG_A -/
  , ⟨0x104, 8, 8, ⟨0x0, 0x0, 0x0, 0x0, 0xFFFFFFFF, 0x0, false⟩⟩ /- AGG_B -/ ]

/-- The register rows of block HLP_Pn (spec/06_romor_head_link.md register tables; R541). -/
def rowsHLPPn : List RegRow :=
  [ ⟨0x000, 1, 4, ⟨0x40, 0x0, 0x0, 0x0, 0xFFFF037F, 0x0, false⟩⟩ /- STAT -/
  , ⟨0x004, 1, 4, ⟨0x0, 0x0, 0x0, 0x0, 0x0, 0xFFFF000F, false⟩⟩ /- CMD -/
  , ⟨0x008, 1, 4, ⟨0x0, 0x0, 0x0, 0x0, 0xFF3FFF, 0x0, false⟩⟩ /- CMD_STATUS -/
  , ⟨0x00C, 1, 4, ⟨0x0, 0x1FFFFFF, 0x0, 0x0, 0x0, 0x0, false⟩⟩ /- MEMADDR -/
  , ⟨0x010, 1, 4, ⟨0x0, 0x0, 0x0, 0x0, 0xFFFFFFFF, 0x0, false⟩⟩ /- ERRCNT -/
  , ⟨0x014, 1, 4, ⟨0x0, 0x0, 0x0, 0x0, 0xFFFFFFFF, 0x0, false⟩⟩ /- TSYNC -/
  , ⟨0x020, 6, 4, ⟨0x0, 0x0, 0x0, 0x0, 0xFFFFFFFF, 0x0, false⟩⟩ /- IDENT -/
  , ⟨0x100, 64, 4, ⟨0x0, 0xFFFFFFFF, 0x0, 0x0, 0x0, 0x0, false⟩⟩ /- MEMBUF -/ ]

/-- The register rows of block DOT global (spec/04_dot_data.md register tables; R541). -/
def rowsDOTGlobal : List RegRow :=
  [ ⟨0x000, 1, 4, ⟨0x11414, 0x11F1F, 0x0, 0x0, 0x0, 0x0, false⟩⟩ /- PREDCFG -/
  , ⟨0x008, 1, 4, ⟨0x8, 0xFF, 0x0, 0x0, 0x0, 0x0, true⟩⟩ /- UGUARD -/
  , ⟨0x040, 1, 4, ⟨0x20010001, 0xFFFFFF01, 0x0, 0x0, 0x0, 0x0, false⟩⟩ /- SSCFG -/
  , ⟨0x044, 1, 4, ⟨0x10000, 0xFFFFFFFF, 0x0, 0x0, 0x0, 0x0, false⟩⟩ /- SSRATIO -/
  , ⟨0x048, 1, 4, ⟨0x300000, 0xFFFFFFFF, 0x0, 0x0, 0x0, 0x0, false⟩⟩ /- SSBACKV -/
  , ⟨0x050, 1, 4, ⟨0x1000, 0xFFFFFF, 0x0, 0x0, 0x0, 0x0, true⟩⟩ /- SSMARGIN -/
  , ⟨0x058, 1, 4, ⟨0x40000, 0xFFFFFFFF, 0x0, 0x0, 0x0, 0x0, true⟩⟩ /- SSBACKMAX -/
  , ⟨0x060, 1, 4, ⟨0x0, 0x0, 0x0, 0x0, 0xFFFF0FFF, 0x0, false⟩⟩ /- SSSTAT -/
  , ⟨0x064, 1, 4, ⟨0x0, 0x0, 0x0, 0x0, 0xFFFFFFFF, 0x0, false⟩⟩ /- SSPK_INT -/
  , ⟨0x068, 1, 4, ⟨0x0, 0x0, 0x0, 0x0, 0xFFFF, 0x0, false⟩⟩ /- SSPK_FRAC -/
  , ⟨0x06C, 1, 4, ⟨0x0, 0x0, 0x0, 0x0, 0xFFFFFFFF, 0x0, false⟩⟩ /- SSXB -/
  , ⟨0x070, 1, 4, ⟨0x0, 0x0, 0x3, 0x0, 0x0, 0x0, false⟩⟩ /- SSFLAG -/
  , ⟨0x074, 1, 4, ⟨0x0, 0x0, 0x0, 0x0, 0x0, 0xF, false⟩⟩ /- SSCMD -/
  , ⟨0x078, 1, 4, ⟨0x0, 0x0, 0x0, 0x0, 0x7FFFF, 0x0, false⟩⟩ /- SSCMD_STATUS -/ ]

/-- The register rows of block DOT_Pn (spec/04_dot_data.md register tables; R541). -/
def rowsDOTPn : List RegRow :=
  [ ⟨0x000, 1, 4, ⟨0x810000, 0xF1FFF3, 0x0, 0x0, 0x0, 0x0, false⟩⟩ /- CFG -/
  , ⟨0x004, 1, 4, ⟨0x400, 0x7FFF, 0x0, 0x0, 0x0, 0x0, false⟩⟩ /- DEPTH -/
  , ⟨0x008, 1, 4, ⟨0x0, 0xFFFFFFFF, 0x0, 0x0, 0x0, 0x0, false⟩⟩ /- BASE_LO -/
  , ⟨0x00C, 1, 4, ⟨0x0, 0x3, 0x0, 0x0, 0x0, 0x0, false⟩⟩ /- BASE_HI -/
  , ⟨0x010, 1, 4, ⟨0x0, 0x0, 0x0, 0x0, 0xFFFF0107, 0x0, false⟩⟩ /- STAT -/
  , ⟨0x014, 1, 4, ⟨0x0, 0xFFFFFFFF, 0x0, 0x0, 0x0, 0x0, false⟩⟩ /- WLINE -/
  , ⟨0x018, 1, 4, ⟨0x0, 0x0, 0x0, 0x0, 0x0, 0xFFFF, false⟩⟩ /- WADD -/
  , ⟨0x01C, 1, 4, ⟨0x0, 0x0, 0x0, 0x0, 0xFFFFFFFF, 0x0, false⟩⟩ /- NEXT -/
  , ⟨0x020, 1, 4, ⟨0x0, 0xFFFFFFFF, 0x0, 0x0, 0x0, 0x0, false⟩⟩ /- LINE -/
  , ⟨0x024, 1, 4, ⟨0x0, 0x0, 0x0, 0x0, 0x0, 0xFFFF000F, false⟩⟩ /- CMD -/
  , ⟨0x028, 1, 4, ⟨0x0, 0x0, 0x0, 0x0, 0xFFFF, 0x0, false⟩⟩ /- CMD_STATUS -/
  , ⟨0x02C, 1, 4, ⟨0x0, 0xFFFFBF, 0x0, 0x0, 0x0, 0x0, false⟩⟩ /- SIG -/
  , ⟨0x030, 1, 4, ⟨0x50, 0xFFFF0FF1, 0x0, 0x0, 0x0, 0x0, false⟩⟩ /- MASK -/
  , ⟨0x034, 1, 4, ⟨0x0, 0x0, 0x0, 0x0, 0xFFFFFFFF, 0x0, false⟩⟩ /- FILL -/
  , ⟨0x038, 1, 4, ⟨0x0, 0x0, 0x0, 0x0, 0xFFFFFFFF, 0x0, false⟩⟩ /- LATE -/
  , ⟨0x03C, 1, 4, ⟨0x0, 0x0, 0x0, 0x0, 0xFFFFFFFF, 0x0, false⟩⟩ /- SUBCNT -/
  , ⟨0x040, 8, 4, ⟨0x0, 0x3FFFFF, 0x0, 0x0, 0x0, 0x0, false⟩⟩ /- RDLY -/
  , ⟨0x060, 1, 4, ⟨0x4100040, 0xFFFFFFF, 0x0, 0x0, 0x0, 0x0, true⟩⟩ /- LOWM -/ ]

/-- The register rows of block FIR global (spec/05_firing.md register tables; R541). -/
def rowsFIRGlobal : List RegRow :=
  [ ⟨0x000, 1, 4, ⟨0x0, 0x0, 0x0, 0x0, 0xFFFF00FF, 0x0, false⟩⟩ /- GATESTAT -/
  , ⟨0x004, 1, 4, ⟨0x0, 0x0, 0xFFFF00FF, 0x0, 0x0, 0x0, false⟩⟩ /- GATEFLAG -/
  , ⟨0x008, 1, 4, ⟨0x323E8, 0xFFFFFF, 0x0, 0x0, 0x0, 0x0, false⟩⟩ /- SENSCFG -/
  , ⟨0x010, 1, 4, ⟨0xFFFFFFFF, 0xFFFFFFFF, 0x0, 0x0, 0x0, 0x0, true⟩⟩ /- HOPENMAP01 -/
  , ⟨0x018, 1, 4, ⟨0xFFFFFFFF, 0xFFFFFFFF, 0x0, 0x0, 0x0, 0x0, true⟩⟩ /- HOPENMAP23 -/
  , ⟨0x020, 1, 4, ⟨0x7, 0x7, 0x0, 0x0, 0x0, 0x0, true⟩⟩ /- GATEEN -/ ]

/-- The register rows of block FIR_LTn (spec/05_firing.md register tables; R541). -/
def rowsFIRLTn : List RegRow :=
  [ ⟨0x000, 1, 4, ⟨0x4, 0x4, 0x0, 0x0, 0x3, 0x0, false⟩⟩ /- CTL -/
  , ⟨0x004, 1, 4, ⟨0x10000, 0xFFFFFFFF, 0x0, 0x0, 0x0, 0x0, false⟩⟩ /- PITCH -/
  , ⟨0x008, 1, 4, ⟨0x0, 0xFFFFFFFF, 0x0, 0x0, 0x0, 0x0, false⟩⟩ /- ORG_INT -/
  , ⟨0x00C, 1, 4, ⟨0x0, 0xFFFF, 0x0, 0x0, 0x0, 0x0, false⟩⟩ /- ORG_FRAC -/
  , ⟨0x010, 1, 4, ⟨0x0, 0xFFFFFFFF, 0x0, 0x0, 0x0, 0x0, false⟩⟩ /- ORGLINE -/
  , ⟨0x014, 1, 4, ⟨0x190, 0xFFF, 0x0, 0x0, 0x0, 0x0, false⟩⟩ /- LEAD -/
  , ⟨0x018, 1, 4, ⟨0x3E80, 0xFFFFFFFF, 0x0, 0x0, 0x0, 0x0, false⟩⟩ /- VMIN -/
  , ⟨0x01C, 1, 4, ⟨0x0, 0x0, 0x0, 0x0, 0x1F, 0x0, false⟩⟩ /- STAT -/
  , ⟨0x020, 1, 4, ⟨0x0, 0x0, 0x0, 0x0, 0xFFFFFFFF, 0x0, false⟩⟩ /- CNT -/
  , ⟨0x024, 1, 4, ⟨0x0, 0x0, 0x0, 0x0, 0xFFFFFFFF, 0x0, false⟩⟩ /- LAST_LO -/
  , ⟨0x028, 1, 4, ⟨0x0, 0x0, 0x0, 0x0, 0xFFFFFFFF, 0x0, false⟩⟩ /- LAST_HI -/
  , ⟨0x02C, 1, 4, ⟨0x0, 0x0, 0x0, 0x0, 0xFFFFFFFF, 0x0, false⟩⟩ /- LASTLINE -/
  , ⟨0x030, 1, 4, ⟨0x4014, 0xF3FF, 0x0, 0x0, 0x0, 0x0, true⟩⟩ /- SUPTOL -/
  , ⟨0x038, 1, 4, ⟨0x0, 0x0, 0x0, 0x0, 0x0, 0xF, false⟩⟩ /- CMD -/
  , ⟨0x03C, 1, 4, ⟨0x0, 0x0, 0x0, 0x0, 0xFFF, 0x0, false⟩⟩ /- CMD_STATUS -/ ]

/-- The register rows of block FIR_Pn (spec/05_firing.md register tables; R541). -/
def rowsFIRPn : List RegRow :=
  [ ⟨0x000, 1, 4, ⟨0x280208, 0xFFFFFF, 0x0, 0x0, 0x0, 0x0, false⟩⟩ /- SLOT -/
  , ⟨0x008, 1, 4, ⟨0x1FF, 0x1FF, 0x0, 0x0, 0x0, 0x0, true⟩⟩ /- PRECAP -/
  , ⟨0x010, 1, 4, ⟨0x2080, 0xFFFF, 0x0, 0x0, 0x0, 0x0, false⟩⟩ /- WARM -/
  , ⟨0x014, 1, 4, ⟨0x0, 0x0, 0x0, 0x0, 0xFFFFFFFF, 0x0, false⟩⟩ /- TORN -/
  , ⟨0x018, 1, 4, ⟨0x0, 0x0, 0x0, 0x0, 0x1FFFFF, 0x0, false⟩⟩ /- TORNCNT -/ ]

/-- The register rows of block THM global (spec/07_thermal_energy.md register tables; R541). -/
def rowsTHMGlobal : List RegRow :=
  [ ⟨0x000, 1, 4, ⟨0xF313, 0xF31F, 0x0, 0x0, 0x0, 0x0, false⟩⟩ /- CFG -/
  , ⟨0x004, 1, 4, ⟨0x0, 0x0, 0x0, 0x0, 0xFFFFFFFF, 0x0, false⟩⟩ /- TORD -/
  , ⟨0x008, 1, 4, ⟨0x0, 0x0, 0x0, 0x0, 0xFFFFFFFF, 0x0, false⟩⟩ /- DIESTAT -/
  , ⟨0x00C, 1, 4, ⟨0x1F4, 0xFFFF, 0x0, 0x0, 0x0, 0x0, false⟩⟩ /- LCFG -/
  , ⟨0x010, 1, 4, ⟨0x0, 0x0, 0x0, 0x0, 0xFFFFFFFF, 0x0, false⟩⟩ /- LAVAIL -/
  , ⟨0x014, 1, 4, ⟨0xFF00, 0x0, 0x0, 0x0, 0xFFFF, 0x0, false⟩⟩ /- LWAIT -/
  , ⟨0x018, 1, 4, ⟨0x0, 0x0, 0x0, 0x0, 0x0, 0xFFFF00FF, false⟩⟩ /- CMD -/
  , ⟨0x01C, 1, 4, ⟨0x0, 0x0, 0x0, 0x0, 0xFFFF, 0x0, false⟩⟩ /- CMD_STATUS -/
  , ⟨0x020, 8, 4, ⟨0x0, 0x0, 0x0, 0x0, 0xFFFFFFFF, 0x0, false⟩⟩ /- LCLASS -/
  , ⟨0x040, 1, 4, ⟨0x0, 0x0, 0x0, 0x0, 0xFFFFFFFF, 0x0, false⟩⟩ /- PMEAS -/
  , ⟨0x048, 1, 4, ⟨0x24F0A0, 0xFFFFFF, 0x0, 0x0, 0x0, 0x0, true⟩⟩ /- XCHK -/
  , ⟨0x050, 1, 4, ⟨0xEA60, 0xFFFFFFFF, 0x0, 0x0, 0x0, 0x0, true⟩⟩ /- LBUDGET -/
  , ⟨0x058, 1, 4, ⟨0x7530, 0xFFFFFFFF, 0x0, 0x0, 0x0, 0x0, true⟩⟩ /- PRINTRES -/
  , ⟨0x060, 1, 4, ⟨0x1388, 0xFFFFFFFF, 0x0, 0x0, 0x0, 0x0, true⟩⟩ /- SDMARGIN -/
  , ⟨0x068, 1, 4, ⟨0x42005F0, 0xFFFFFFF, 0x0, 0x0, 0x0, 0x0, true⟩⟩ /- DIETHR1 -/
  , ⟨0x070, 1, 4, ⟨0x4200640, 0xFFFFFFF, 0x0, 0x0, 0x0, 0x0, true⟩⟩ /- DIETHR2 -/
  , ⟨0x078, 1, 4, ⟨0x4200690, 0xFFFFFFF, 0x0, 0x0, 0x0, 0x0, true⟩⟩ /- DIETHR3 -/
  , ⟨0x080, 1, 4, ⟨0x42006E0, 0xFFFFFFF, 0x0, 0x0, 0x0, 0x0, true⟩⟩ /- DIESTOP -/
  , ⟨0x088, 1, 4, ⟨0x4200780, 0xFFFFFFF, 0x0, 0x0, 0x0, 0x0, true⟩⟩ /- DIESHUT -/
  , ⟨0x090, 1, 4, ⟨0x4100040, 0xFFFFFFF, 0x0, 0x0, 0x0, 0x0, true⟩⟩ /- DIERSHUT -/ ]

/-- The register rows of block THM_Pn (spec/07_thermal_energy.md register tables; R541). -/
def rowsTHMPn : List RegRow :=
  [ ⟨0x000, 1, 4, ⟨0x0, 0x0, 0x0, 0x0, 0xFFFFFFFF, 0x0, false⟩⟩ /- STAT -/
  , ⟨0x004, 1, 4, ⟨0x0, 0x0, 0x0, 0x0, 0xFFFFFFFF, 0x0, false⟩⟩ /- STAT2 -/
  , ⟨0x008, 1, 4, ⟨0x10000CCD, 0xFFFFFFFF, 0x0, 0x0, 0x0, 0x0, false⟩⟩ /- KJ -/
  , ⟨0x00C, 1, 4, ⟨0x9C40, 0xFFFFFFFF, 0x0, 0x0, 0x0, 0x0, false⟩⟩ /- TAUJB -/
  , ⟨0x010, 1, 4, ⟨0x3D0900, 0xFFFFFFFF, 0x0, 0x0, 0x0, 0x0, false⟩⟩ /- TAUBZ -/
  , ⟨0x014, 1, 4, ⟨0x2D00320, 0xFFFFFFFF, 0x0, 0x0, 0x0, 0x0, false⟩⟩ /- SET -/
  , ⟨0x018, 1, 4, ⟨0x100180, 0x3FFFFFFF, 0x0, 0x0, 0x0, 0x0, false⟩⟩ /- KT -/
  , ⟨0x01C, 1, 4, ⟨0x28019A, 0xFFFFFFFF, 0x0, 0x0, 0x0, 0x0, false⟩⟩ /- EPS -/
  , ⟨0x020, 1, 4, ⟨0x0, 0xFFFFFFFF, 0x0, 0x0, 0x0, 0x0, false⟩⟩ /- WARMREQ -/
  , ⟨0x024, 1, 4, ⟨0x0, 0x0, 0x0, 0x0, 0xFFFFFFFF, 0x0, false⟩⟩ /- TELECNT -/
  , ⟨0x028, 1, 4, ⟨0x4200460, 0xFFFFFFF, 0x0, 0x0, 0x0, 0x0, true⟩⟩ /- TSTOP -/
  , ⟨0x030, 1, 4, ⟨0x4200500, 0xFFFFFFF, 0x0, 0x0, 0x0, 0x0, true⟩⟩ /- THALT -/
  , ⟨0x038, 1, 4, ⟨0x4200410, 0xFFFFFFF, 0x0, 0x0, 0x0, 0x0, true⟩⟩ /- TTHR -/
  , ⟨0x040, 1, 4, ⟨0x4100020, 0xFFFFFFF, 0x0, 0x0, 0x0, 0x0, true⟩⟩ /- RSTOP -/
  , ⟨0x048, 1, 4, ⟨0x4100080, 0xFFFFFFF, 0x0, 0x0, 0x0, 0x0, true⟩⟩ /- RHALT -/
  , ⟨0x050, 1, 4, ⟨0x2EE02EE0, 0xFFFFFFFF, 0x0, 0x0, 0x0, 0x0, true⟩⟩ /- BUDGET01 -/
  , ⟨0x058, 1, 4, ⟨0x2EE02EE0, 0xFFFFFFFF, 0x0, 0x0, 0x0, 0x0, true⟩⟩ /- BUDGET23 -/
  , ⟨0x060, 1, 4, ⟨0x20, 0x1FF01FF, 0x0, 0x0, 0x0, 0x0, true⟩⟩ /- CAPS -/ ]

/-- The register rows of block NHL global (spec/08_nozzle_health.md register tables; R541). -/
def rowsNHLGlobal : List RegRow :=
  [ ⟨0x000, 1, 4, ⟨0x1, 0x3, 0x0, 0x0, 0x0, 0x0, false⟩⟩ /- CFG -/
  , ⟨0x004, 1, 4, ⟨0x0, 0x0, 0x0, 0x0, 0x0, 0xFFFFFFFF, false⟩⟩ /- HOSTRES -/
  , ⟨0x008, 1, 4, ⟨0x0, 0x0, 0x0, 0x0, 0xFFFFFFFF, 0x0, false⟩⟩ /- HOSTCNT -/ ]

/-- The register rows of block NHL_Pn (spec/08_nozzle_health.md register tables; R541). -/
def rowsNHLPn : List RegRow :=
  [ ⟨0x000, 1, 4, ⟨0xFB93B, 0xFFFFF, 0x0, 0x0, 0x0, 0x0, false⟩⟩ /- POLICY -/
  , ⟨0x004, 1, 4, ⟨0x8C1028, 0x1FFFFFF, 0x0, 0x0, 0x0, 0x0, false⟩⟩ /- CONF -/
  , ⟨0x008, 1, 4, ⟨0x101238, 0x7FFFFFFF, 0x0, 0x0, 0x0, 0x0, false⟩⟩ /- WCONF -/
  , ⟨0x00C, 1, 4, ⟨0x20001BF, 0x3FFFFFF, 0x0, 0x0, 0x0, 0x0, false⟩⟩ /- SCAN -/
  , ⟨0x010, 1, 4, ⟨0x270, 0xFFFF03FF, 0x0, 0x0, 0x0, 0x0, false⟩⟩ /- SPIT -/
  , ⟨0x014, 1, 4, ⟨0x2080, 0xFFFF, 0x0, 0x0, 0x0, 0x0, false⟩⟩ /- SVC -/
  , ⟨0x018, 1, 4, ⟨0x1388, 0xFFFFFFFF, 0x0, 0x0, 0x0, 0x0, false⟩⟩ /- SVCMW -/
  , ⟨0x01C, 1, 4, ⟨0x0, 0xFFFFFFFF, 0x0, 0x0, 0x0, 0x0, false⟩⟩ /- GAPLINE -/
  , ⟨0x020, 1, 4, ⟨0x0, 0xFFFF, 0x0, 0x0, 0x0, 0x0, false⟩⟩ /- GAPLEN -/
  , ⟨0x024, 1, 4, ⟨0x0, 0x0, 0x0, 0x0, 0x1FFFFF, 0x0, false⟩⟩ /- SCANPOS -/
  , ⟨0x028, 1, 4, ⟨0x0, 0x0, 0x0, 0x0, 0x7FFF7FFF, 0x0, false⟩⟩ /- STAT -/
  , ⟨0x02C, 1, 4, ⟨0x0, 0x0, 0x0, 0x0, 0x7FF, 0x0, false⟩⟩ /- STAT2 -/
  , ⟨0x030, 1, 4, ⟨0x0, 0x0, 0x0, 0x0, 0x0, 0xFFFF000F, false⟩⟩ /- CMD -/
  , ⟨0x034, 1, 4, ⟨0x0, 0x0, 0x0, 0x0, 0xFFF, 0x0, false⟩⟩ /- CMD_STATUS -/ ]

/-- The register rows of block SCN global (spec/09_scanning.md register tables; R541). -/
def rowsSCNGlobal : List RegRow :=
  [ ⟨0x000, 1, 4, ⟨0x1, 0xFFFF01FF, 0x0, 0x0, 0x0, 0x0, false⟩⟩ /- CFG -/
  , ⟨0x004, 1, 4, ⟨0x4000, 0xFFFFFFFF, 0x0, 0x0, 0x0, 0x0, false⟩⟩ /- RUNUP -/
  , ⟨0x008, 1, 4, ⟨0x4000, 0xFFFFFFFF, 0x0, 0x0, 0x0, 0x0, false⟩⟩ /- RUNOUT -/
  , ⟨0x00C, 1, 4, ⟨0x100000, 0xFFFFFFFF, 0x0, 0x0, 0x0, 0x0, false⟩⟩ /- SPEED -/
  , ⟨0x010, 1, 4, ⟨0x0, 0xFFFF, 0x0, 0x0, 0x0, 0x0, false⟩⟩ /- JOB -/
  , ⟨0x014, 1, 4, ⟨0x0, 0xFFFFFFFF, 0x0, 0x0, 0x0, 0x0, false⟩⟩ /- JOBLINE -/
  , ⟨0x018, 1, 4, ⟨0x0, 0x0, 0x0, 0x0, 0x0, 0xF, false⟩⟩ /- CMD -/
  , ⟨0x01C, 1, 4, ⟨0x0, 0x0, 0x0, 0x0, 0xFFFFFF, 0x0, false⟩⟩ /- CMD_STATUS -/
  , ⟨0x020, 1, 4, ⟨0x0, 0x0, 0x0, 0x0, 0xFFFFFFFF, 0x0, false⟩⟩ /- STAT -/
  , ⟨0x024, 1, 4, ⟨0x0, 0x0, 0x0, 0x0, 0xFFFFFFFF, 0x0, false⟩⟩ /- RESUME -/
  , ⟨0x028, 1, 4, ⟨0x0, 0x0, 0x0, 0x0, 0xFFFFFFFF, 0x0, false⟩⟩ /- BNEXT -/
  , ⟨0x02C, 1, 4, ⟨0x0, 0x0, 0x0, 0x0, 0xFFFFFF, 0x0, false⟩⟩ /- STAT2 -/
  , ⟨0x030, 1, 4, ⟨0x0, 0xBFBF, 0x0, 0x0, 0x0, 0x0, false⟩⟩ /- SIG -/
  , ⟨0x038, 1, 4, ⟨0x13880320, 0xFFFFFFFF, 0x0, 0x0, 0x0, 0x0, true⟩⟩ /- DWELL -/ ]

/-- The register rows of block SCN_LTn (spec/09_scanning.md register tables; R541). -/
def rowsSCNLTn : List RegRow :=
  [ ⟨0x000, 1, 4, ⟨0x0, 0xFFFFFFFF, 0x0, 0x0, 0x0, 0x0, false⟩⟩ /- XORG_INT -/
  , ⟨0x004, 1, 4, ⟨0x0, 0xFFFF, 0x0, 0x0, 0x0, 0x0, false⟩⟩ /- XORG_FRAC -/
  , ⟨0x008, 1, 4, ⟨0x0, 0xFFFFFFFF, 0x0, 0x0, 0x0, 0x0, false⟩⟩ /- ALIGNF -/
  , ⟨0x00C, 1, 4, ⟨0x0, 0xFFFFFFFF, 0x0, 0x0, 0x0, 0x0, false⟩⟩ /- ALIGNR -/
  , ⟨0x010, 1, 4, ⟨0x0, 0xFFFF, 0x0, 0x0, 0x0, 0x0, false⟩⟩ /- TFLY -/ ]

/-- The register rows of block POS_PCn (spec/10_position.md register tables; R541). -/
def rowsPOSPCn : List RegRow :=
  [ ⟨0x000, 1, 4, ⟨0x0, 0x0, 0x0, 0x0, 0x1F, 0x0, false⟩⟩ /- STAT -/
  , ⟨0x004, 1, 4, ⟨0x0, 0x0, 0x0, 0x0, 0xFFFFFFFF, 0x0, false⟩⟩ /- POS_INT -/
  , ⟨0x008, 1, 4, ⟨0x0, 0x0, 0x0, 0x0, 0xFFFFFF, 0x0, false⟩⟩ /- POS_FRAC -/
  , ⟨0x00C, 1, 4, ⟨0x0, 0x0, 0x0, 0x0, 0xFFFFFFFF, 0x0, false⟩⟩ /- SPEED -/
  , ⟨0x010, 1, 4, ⟨0x1610, 0x1F1F, 0x0, 0x0, 0x0, 0x0, false⟩⟩ /- SPDCFG -/
  , ⟨0x014, 1, 4, ⟨0x0, 0x0, 0x0, 0x0, 0xFFFFFFFF, 0x0, false⟩⟩ /- FAULTCNT -/
  , ⟨0x018, 1, 4, ⟨0x0, 0x0, 0x1F, 0x0, 0x0, 0x0, false⟩⟩ /- FLAG -/
  , ⟨0x01C, 1, 4, ⟨0x1000, 0xFFFF01, 0x0, 0x0, 0x0, 0x0, false⟩⟩ /- EVTCFG -/
  , ⟨0x020, 1, 4, ⟨0x0, 0x0, 0x0, 0x0, 0x0, 0xF, false⟩⟩ /- CMD -/
  , ⟨0x024, 1, 4, ⟨0x0, 0x0, 0x0, 0x0, 0xFFF, 0x0, false⟩⟩ /- CMD_STATUS -/
  , ⟨0x028, 1, 4, ⟨0x0, 0xFFFFFFFF, 0x0, 0x0, 0x0, 0x0, false⟩⟩ /- PRESET_INT -/
  , ⟨0x02C, 1, 4, ⟨0x0, 0xFFFF, 0x0, 0x0, 0x0, 0x0, false⟩⟩ /- PRESET_FRAC -/
  , ⟨0x030, 1, 4, ⟨0x20, 0xBF7F, 0x0, 0x0, 0x0, 0x0, false⟩⟩ /- CAPCFG -/
  , ⟨0x034, 1, 4, ⟨0x0, 0x0, 0x0, 0x0, 0xFFFFFFFF, 0x0, false⟩⟩ /- CAP_INT -/
  , ⟨0x038, 1, 4, ⟨0x0, 0x0, 0x0, 0x0, 0xFFFFFF, 0x0, false⟩⟩ /- CAP_FRAC -/
  , ⟨0x03C, 1, 4, ⟨0x0, 0x0, 0x0, 0x0, 0xFFFFFFFF, 0x0, false⟩⟩ /- CAP_TLO -/
  , ⟨0x040, 1, 4, ⟨0x0, 0x0, 0x0, 0x0, 0xFFFFFFFF, 0x0, false⟩⟩ /- CAP_THI -/
  , ⟨0x044, 1, 4, ⟨0x10000000, 0x1FFFFFFF, 0x0, 0x0, 0x0, 0x0, false⟩⟩ /- SCCAL -/
  , ⟨0x048, 1, 4, ⟨0x49010, 0xFFFFF, 0x0, 0x0, 0x0, 0x0, true⟩⟩ /- SCWIN -/
  , ⟨0x050, 1, 4, ⟨0x0, 0x0, 0x0, 0x0, 0xFFFFFF, 0x0, false⟩⟩ /- SCAMP -/ ]

/-- The register rows of block POS_PCn_CMPm (spec/10_position.md register tables; R541). -/
def rowsPOSPCnCMPm : List RegRow :=
  [ ⟨0x000, 1, 4, ⟨0x0, 0xFFFF1FDF, 0x0, 0x0, 0x0, 0x0, false⟩⟩ /- CTL -/
  , ⟨0x004, 1, 4, ⟨0x0, 0xFFFFFFFF, 0x0, 0x0, 0x0, 0x0, false⟩⟩ /- TGT_INT -/
  , ⟨0x008, 1, 4, ⟨0x0, 0xFFFF, 0x0, 0x0, 0x0, 0x0, false⟩⟩ /- TGT_FRAC -/
  , ⟨0x00C, 1, 4, ⟨0x0, 0xFFFFFFFF, 0x0, 0x0, 0x0, 0x0, false⟩⟩ /- SPACE -/
  , ⟨0x010, 1, 4, ⟨0x0, 0x0, 0x0, 0x0, 0xFFFF0001, 0x0, false⟩⟩ /- STAT -/
  , ⟨0x014, 1, 4, ⟨0x0, 0x0, 0x0, 0x0, 0xFFFF, 0x0, false⟩⟩ /- SKIPCNT -/
  , ⟨0x018, 1, 4, ⟨0x0, 0x0, 0x0, 0x0, 0xFFFFFFFF, 0x0, false⟩⟩ /- HIT_INT -/
  , ⟨0x01C, 1, 4, ⟨0x0, 0x0, 0x0, 0x0, 0xFFFF, 0x0, false⟩⟩ /- HIT_FRAC -/
  , ⟨0x020, 1, 4, ⟨0x0, 0x0, 0x0, 0x0, 0xFFFFFFFF, 0x0, false⟩⟩ /- HIT_TLO -/
  , ⟨0x024, 1, 4, ⟨0x0, 0x0, 0x0, 0x0, 0xFFFFFFFF, 0x0, false⟩⟩ /- HIT_THI -/
  , ⟨0x028, 1, 4, ⟨0x0, 0x0, 0x0, 0x0, 0x0, 0xF, false⟩⟩ /- CMD -/
  , ⟨0x02C, 1, 4, ⟨0x0, 0x0, 0x0, 0x0, 0xFFF, 0x0, false⟩⟩ /- CMD_STATUS -/
  , ⟨0x030, 1, 4, ⟨0x0, 0x0, 0x7, 0x0, 0x0, 0x0, false⟩⟩ /- FLAG -/ ]

/-- The register rows of block POS_EEn (spec/10_position.md register tables; R541). -/
def rowsPOSEEn : List RegRow :=
  [ ⟨0x000, 1, 4, ⟨0xA0004, 0xFF07FF, 0x0, 0x0, 0x0, 0x0, false⟩⟩ /- CFG -/
  , ⟨0x004, 1, 4, ⟨0x40, 0xFFFF, 0x0, 0x0, 0xFFFF0000, 0x0, false⟩⟩ /- LAG -/
  , ⟨0x008, 1, 4, ⟨0x0, 0x0, 0x3, 0x0, 0x0, 0x0, false⟩⟩ /- FLAG -/
  , ⟨0x00C, 1, 4, ⟨0x0, 0x0, 0x0, 0x0, 0xFFFFFFFF, 0x0, false⟩⟩ /- OUT -/ ]

/-- The register rows of block STP_SAn (spec/11_steppers.md register tables; R541). -/
def rowsSTPSAnA : List RegRow :=
  [ ⟨0x000, 1, 4, ⟨0x0, 0x0, 0x0, 0x0, 0xFFF, 0x0, false⟩⟩ /- STAT -/
  , ⟨0x004, 1, 4, ⟨0x0, 0x0, 0x0, 0x0, 0xFFFFFFFF, 0x0, false⟩⟩ /- POS_INT -/
  , ⟨0x008, 1, 4, ⟨0x0, 0x0, 0x0, 0x0, 0xFFFF, 0x0, false⟩⟩ /- POS_FRAC -/
  , ⟨0x00C, 1, 4, ⟨0x0, 0x0, 0x0, 0x0, 0xFFFFFFFF, 0x0, false⟩⟩ /- VEL -/
  , ⟨0x010, 1, 4, ⟨0x0, 0xFFFFFFFF, 0x0, 0x0, 0x0, 0x0, false⟩⟩ /- TGT -/
  , ⟨0x014, 1, 4, ⟨0xFA0000, 0xFFFFFFFF, 0x0, 0x0, 0x0, 0x0, false⟩⟩ /- VMAX -/
  , ⟨0x018, 1, 4, ⟨0x100000, 0xFFFFFFFF, 0x0, 0x0, 0x0, 0x0, false⟩⟩ /- AMAX -/
  , ⟨0x01C, 1, 4, ⟨0x100000, 0xFFFFFFFF, 0x0, 0x0, 0x0, 0x0, false⟩⟩ /- DMAX -/
  , ⟨0x020, 1, 4, ⟨0x10000, 0xFFFFFFFF, 0x0, 0x0, 0x0, 0x0, false⟩⟩ /- JMAX -/
  , ⟨0x024, 1, 4, ⟨0xA0A0028, 0xFFFF03FF, 0x0, 0x0, 0x0, 0x0, false⟩⟩ /- PWM -/
  , ⟨0x028, 1, 4, ⟨0x320000, 0xFFFFFFFF, 0x0, 0x0, 0x0, 0x0, false⟩⟩ /- VTHR -/
  , ⟨0x02C, 1, 4, ⟨0x50000, 0xFFFFFFFF, 0x0, 0x0, 0x0, 0x0, false⟩⟩ /- VHYST -/
  , ⟨0x030, 1, 4, ⟨0x4000800, 0xFFF0FFF, 0x0, 0x0, 0x0, 0x0, false⟩⟩ /- QAMP -/
  , ⟨0x034, 1, 4, ⟨0x10000, 0xFFFFFFFF, 0x0, 0x0, 0x0, 0x0, false⟩⟩ /- ENC -/
  , ⟨0x038, 1, 4, ⟨0x0, 0x0, 0x0, 0x0, 0xFFFFFFFF, 0x0, false⟩⟩ /- DEV -/
  , ⟨0x03C, 1, 4, ⟨0x640064, 0xFFF0FFF, 0x0, 0x0, 0x0, 0x0, false⟩⟩ /- FILT -/
  , ⟨0x040, 1, 4, ⟨0x0, 0x1, 0x0, 0x0, 0x0, 0x0, false⟩⟩ /- HOMECFG -/
  , ⟨0x044, 1, 4, ⟨0x320000, 0xFFFFFFFF, 0x0, 0x0, 0x0, 0x0, false⟩⟩ /- HVFAST -/
  , ⟨0x048, 1, 4, ⟨0x50000, 0xFFFFFFFF, 0x0, 0x0, 0x0, 0x0, false⟩⟩ /- HVSLOW -/
  , ⟨0x04C, 1, 4, ⟨0xC80, 0xFFFFFFFF, 0x0, 0x0, 0x0, 0x0, false⟩⟩ /- HBACK -/
  , ⟨0x050, 1, 4, ⟨0x0, 0xFFFFFFFF, 0x0, 0x0, 0x0, 0x0, false⟩⟩ /- HOFS -/
  , ⟨0x054, 1, 4, ⟨0x0, 0xFFFFFFFF, 0x0, 0x0, 0x0, 0x0, false⟩⟩ /- HPOS -/
  , ⟨0x058, 1, 4, ⟨0x0, 0x0, 0x0, 0x0, 0xFFFFFFFF, 0x0, false⟩⟩ /- LATCH -/
  , ⟨0x05C, 1, 4, ⟨0x64, 0xFFFF, 0x0, 0x0, 0x0, 0x0, false⟩⟩ /- SHUNT -/ ]

/-- The register rows of block STP_SAn (spec/11_steppers.md register tables; R541). -/
def rowsSTPSAnB : List RegRow :=
  [ ⟨0x060, 1, 4, ⟨0x2710, 0xFFFFFFFF, 0x0, 0x0, 0x0, 0x0, false⟩⟩ /- ACCMW -/
  , ⟨0x064, 1, 4, ⟨0x0, 0x0, 0x0, 0x0, 0x0, 0x1F, false⟩⟩ /- CMD -/
  , ⟨0x068, 1, 4, ⟨0x0, 0x0, 0x0, 0x0, 0xFFF, 0x0, false⟩⟩ /- CMD_STATUS -/
  , ⟨0x06C, 1, 4, ⟨0x0, 0x0, 0x1F, 0x0, 0x0, 0x0, false⟩⟩ /- FLAG -/
  , ⟨0x070, 1, 4, ⟨0x0, 0xFFFFFFFF, 0x0, 0x0, 0x0, 0x0, false⟩⟩ /- PRESET -/
  , ⟨0x080, 1, 4, ⟨0x1F403E8, 0xFFFFFFFF, 0x0, 0x0, 0x0, 0x0, true⟩⟩ /- IRUN -/
  , ⟨0x088, 1, 4, ⟨0x1000000, 0xFFFFFFFF, 0x0, 0x0, 0x0, 0x0, true⟩⟩ /- EDEC -/
  , ⟨0x090, 1, 4, ⟨0x80000000, 0xFFFFFFFF, 0x0, 0x0, 0x0, 0x0, true⟩⟩ /- SOFTMIN -/
  , ⟨0x098, 1, 4, ⟨0x7FFFFFFF, 0xFFFFFFFF, 0x0, 0x0, 0x0, 0x0, true⟩⟩ /- SOFTMAX -/
  , ⟨0x0A0, 1, 4, ⟨0x40200, 0x3FFFFF, 0x0, 0x0, 0x0, 0x0, true⟩⟩ /- STALLWIN -/
  , ⟨0x0A8, 1, 4, ⟨0x0, 0x1, 0x0, 0x0, 0x0, 0x0, true⟩⟩ /- LIMCFG -/ ]

/-- All register rows of block STP_SAn. -/
def rowsSTPSAn : List RegRow := rowsSTPSAnA ++ rowsSTPSAnB

/-- The register rows of block MOT_MCn (spec/12_motor_drive.md register tables; R541). -/
def rowsMOTMCnA : List RegRow :=
  [ ⟨0x000, 1, 4, ⟨0x0, 0x0, 0x0, 0x0, 0xFFF, 0x0, false⟩⟩ /- STAT -/
  , ⟨0x004, 1, 4, ⟨0x0, 0x0, 0x0, 0x0, 0xFFFFFFFF, 0x0, false⟩⟩ /- SPEED -/
  , ⟨0x008, 1, 4, ⟨0x0, 0x0, 0x0, 0x0, 0xFFFFFFFF, 0x0, false⟩⟩ /- IDQ -/
  , ⟨0x00C, 1, 4, ⟨0x0, 0xFFFFFFFF, 0x0, 0x0, 0x0, 0x0, false⟩⟩ /- VREF -/
  , ⟨0x010, 1, 4, ⟨0x3E803E8, 0xFFFFFFFF, 0x0, 0x0, 0x0, 0x0, false⟩⟩ /- ACC -/
  , ⟨0x014, 1, 4, ⟨0x6C, 0xEF, 0x0, 0x0, 0x0, 0x0, false⟩⟩ /- CFG -/
  , ⟨0x018, 1, 4, ⟨0x7D0320A, 0xFFFFFFFF, 0x0, 0x0, 0x0, 0x0, false⟩⟩ /- SENSE -/
  , ⟨0x01C, 1, 4, ⟨0xC80258, 0xFFFFFFFF, 0x0, 0x0, 0x0, 0x0, false⟩⟩ /- CATCH -/
  , ⟨0x020, 1, 4, ⟨0x1F40C32, 0xFFFFFFFF, 0x0, 0x0, 0x0, 0x0, false⟩⟩ /- STARTCFG -/
  , ⟨0x024, 1, 4, ⟨0x7D007D0, 0xFFFFFFFF, 0x0, 0x0, 0x0, 0x0, false⟩⟩ /- ISTART -/
  , ⟨0x028, 1, 4, ⟨0x100258, 0xFFFFFF, 0x0, 0x0, 0x0, 0x0, false⟩⟩ /- HANDOVER -/
  , ⟨0x02C, 1, 4, ⟨0x400400, 0xFFFFFFFF, 0x0, 0x0, 0x0, 0x0, false⟩⟩ /- CPI -/
  , ⟨0x030, 1, 4, ⟨0x100100, 0xFFFFFFFF, 0x0, 0x0, 0x0, 0x0, false⟩⟩ /- SPI -/
  , ⟨0x034, 1, 4, ⟨0x640064, 0xFFFFFFFF, 0x0, 0x0, 0x0, 0x0, false⟩⟩ /- MOTOR -/
  , ⟨0x038, 1, 4, ⟨0x21F303E8, 0xFFFFFFFF, 0x0, 0x0, 0x0, 0x0, false⟩⟩ /- KE -/
  , ⟨0x03C, 1, 4, ⟨0x14000A, 0xFFFFFF, 0x0, 0x0, 0x0, 0x0, false⟩⟩ /- SHUNT -/
  , ⟨0x040, 1, 4, ⟨0x14003F3F, 0xFFFF3F3F, 0x0, 0x0, 0x0, 0x0, false⟩⟩ /- VSENSE -/
  , ⟨0x044, 1, 4, ⟨0x0, 0x1FFFF, 0x0, 0x0, 0x0, 0x0, false⟩⟩ /- EOFS -/
  , ⟨0x048, 1, 4, ⟨0x1000, 0xFFFFFFFF, 0x0, 0x0, 0x0, 0x0, false⟩⟩ /- ENCRES -/
  , ⟨0x04C, 1, 4, ⟨0x3A98, 0xFFFFFFFF, 0x0, 0x0, 0x0, 0x0, false⟩⟩ /- ACCMW -/
  , ⟨0x050, 1, 4, ⟨0x0, 0x0, 0x0, 0x0, 0x0, 0xF, false⟩⟩ /- CMD -/
  , ⟨0x054, 1, 4, ⟨0x0, 0x0, 0x0, 0x0, 0xFFF, 0x0, false⟩⟩ /- CMD_STATUS -/
  , ⟨0x058, 1, 4, ⟨0x0, 0x0, 0x3F, 0x0, 0x0, 0x0, false⟩⟩ /- FLAG -/
  , ⟨0x05C, 1, 4, ⟨0x0, 0xFFFFFFFF, 0x0, 0x0, 0x0, 0x0, false⟩⟩ /- TGT -/ ]

/-- The register rows of block MOT_MCn (spec/12_motor_drive.md register tables; R541). -/
def rowsMOTMCnB : List RegRow :=
  [ ⟨0x060, 1, 4, ⟨0x100000, 0xFFFFFFFF, 0x0, 0x0, 0x0, 0x0, false⟩⟩ /- PVMAX -/
  , ⟨0x064, 1, 4, ⟨0x10000, 0xFFFFFFFF, 0x0, 0x0, 0x0, 0x0, false⟩⟩ /- PAMAX -/
  , ⟨0x068, 1, 4, ⟨0x10000, 0xFFFFFFFF, 0x0, 0x0, 0x0, 0x0, false⟩⟩ /- PDMAX -/
  , ⟨0x06C, 1, 4, ⟨0x1000, 0xFFFFFFFF, 0x0, 0x0, 0x0, 0x0, false⟩⟩ /- PJMAX -/
  , ⟨0x080, 1, 4, ⟨0x1F401388, 0xFFFFFFFF, 0x0, 0x0, 0x0, 0x0, true⟩⟩ /- ILIM -/
  , ⟨0x088, 1, 4, ⟨0x1928081E, 0xFFFFFFFF, 0x0, 0x0, 0x0, 0x0, true⟩⟩ /- LOCK -/
  , ⟨0x090, 1, 4, ⟨0x9C40BB8, 0xFFFFFFFF, 0x0, 0x0, 0x0, 0x0, true⟩⟩ /- BRKFW -/
  , ⟨0x098, 1, 4, ⟨0x4650CB20, 0xFFFFFFFF, 0x0, 0x0, 0x0, 0x0, true⟩⟩ /- VBUS -/
  , ⟨0x0A0, 1, 4, ⟨0x80000000, 0xFFFFFFFF, 0x0, 0x0, 0x0, 0x0, true⟩⟩ /- SOFTMIN -/
  , ⟨0x0A8, 1, 4, ⟨0x7FFFFFFF, 0xFFFFFFFF, 0x0, 0x0, 0x0, 0x0, true⟩⟩ /- SOFTMAX -/
  , ⟨0x0B0, 1, 4, ⟨0x0, 0x1, 0x0, 0x0, 0x0, 0x0, true⟩⟩ /- LIMCFG -/ ]

/-- All register rows of block MOT_MCn. -/
def rowsMOTMCn : List RegRow := rowsMOTMCnA ++ rowsMOTMCnB

/-- The register rows of block DMA_DCn (spec/15_dma.md register tables; R541). -/
def rowsDMADCnA : List RegRow :=
  [ ⟨0x000, 1, 4, ⟨0x0, 0x0, 0x0, 0x0, 0xFF0FFFFF, 0x0, false⟩⟩ /- STAT -/
  , ⟨0x004, 1, 4, ⟨0x0, 0x7F, 0x0, 0x0, 0x0, 0x0, false⟩⟩ /- CFG -/
  , ⟨0x008, 1, 4, ⟨0x0, 0x0, 0x0, 0x0, 0x0, 0xF, false⟩⟩ /- CMD -/
  , ⟨0x00C, 1, 4, ⟨0x0, 0x0, 0x0, 0x0, 0xFFF, 0x0, false⟩⟩ /- CMD_STATUS -/
  , ⟨0x010, 1, 4, ⟨0x0, 0x7FFFFFF, 0x0, 0x0, 0x0, 0x0, false⟩⟩ /- SPTR -/
  , ⟨0x014, 1, 4, ⟨0x0, 0xFFFFFFFF, 0x0, 0x0, 0x0, 0x0, false⟩⟩ /- SPID -/
  , ⟨0x018, 1, 4, ⟨0x0, 0x0, 0x0, 0x0, 0x7FFFFFF, 0x0, false⟩⟩ /- APTR -/
  , ⟨0x01C, 1, 4, ⟨0x0, 0x0, 0x0, 0x0, 0xFFFFFFFF, 0x0, false⟩⟩ /- APID -/
  , ⟨0x020, 1, 4, ⟨0x0, 0x0, 0x0, 0x0, 0xFFFFFFFF, 0x0, false⟩⟩ /- XOFF -/
  , ⟨0x024, 4, 4, ⟨0x0, 0x0, 0x0, 0x0, 0xFFFFFFFF, 0x0, false⟩⟩ /- C -/
  , ⟨0x034, 1, 4, ⟨0x0, 0x0, 0x0, 0x0, 0xFFFFFFFF, 0x0, false⟩⟩ /- BYTES_LO -/
  , ⟨0x038, 1, 4, ⟨0x0, 0x0, 0x0, 0x0, 0xFFFFFFFF, 0x0, false⟩⟩ /- BYTES_HI -/
  , ⟨0x040, 16, 4, ⟨0x0, 0xFFFFFFFF, 0x0, 0x0, 0x0, 0x0, false⟩⟩ /- SPAR -/
  , ⟨0x080, 16, 4, ⟨0x0, 0x0, 0x0, 0x0, 0xFFFFFFFF, 0x0, false⟩⟩ /- APAR -/
  , ⟨0x0C0, 1, 4, ⟨0x0, 0x0, 0x0, 0x0, 0xFFFFFFFF, 0x0, false⟩⟩ /- SBASE_LO -/
  , ⟨0x0C4, 1, 4, ⟨0x0, 0x0, 0x0, 0x0, 0xFFFFFFFF, 0x0, false⟩⟩ /- SBASE_HI -/
  , ⟨0x0C8, 1, 4, ⟨0x0, 0x0, 0x0, 0x0, 0xFFFFFFFF, 0x0, false⟩⟩ /- SPATR -/
  , ⟨0x0CC, 1, 4, ⟨0x0, 0x0, 0x0, 0x0, 0xFFFF, 0x0, false⟩⟩ /- SROWS -/
  , ⟨0x0D0, 1, 4, ⟨0x0, 0x0, 0x0, 0x0, 0xFFFFFFFF, 0x0, false⟩⟩ /- SSTRIDE -/
  , ⟨0x0E0, 1, 4, ⟨0x0, 0x0, 0x0, 0x0, 0xFFFFFFFF, 0x0, false⟩⟩ /- DBASE_LO -/
  , ⟨0x0E4, 1, 4, ⟨0x0, 0x0, 0x0, 0x0, 0xFFFFFFFF, 0x0, false⟩⟩ /- DBASE_HI -/
  , ⟨0x0E8, 1, 4, ⟨0x0, 0x0, 0x0, 0x0, 0xFFFFFFFF, 0x0, false⟩⟩ /- DPATR -/
  , ⟨0x0EC, 1, 4, ⟨0x0, 0x0, 0x0, 0x0, 0xFFFF, 0x0, false⟩⟩ /- DROWS -/
  , ⟨0x0F0, 1, 4, ⟨0x0, 0x0, 0x0, 0x0, 0xFFFFFFFF, 0x0, false⟩⟩ /- DSTRIDE -/ ]

/-- The register rows of block DMA_DCn (spec/15_dma.md register tables; R541). -/
def rowsDMADCnB : List RegRow :=
  [ ⟨0x0F4, 1, 4, ⟨0x0, 0x0, 0x0, 0x0, 0xFFFFFFFF, 0x0, false⟩⟩ /- ERRADDR_LO -/
  , ⟨0x0F8, 1, 4, ⟨0x0, 0x0, 0x0, 0x0, 0xFFFFFFFF, 0x0, false⟩⟩ /- ERRADDR_HI -/
  , ⟨0x0FC, 1, 4, ⟨0x0, 0x0, 0x7, 0x0, 0x0, 0x0, false⟩⟩ /- FLAG -/ ]

/-- All register rows of block DMA_DCn. -/
def rowsDMADCn : List RegRow := rowsDMADCnA ++ rowsDMADCnB

/-- The register rows of block DMA_CQn (spec/15_dma.md register tables; R541). -/
def rowsDMACQn : List RegRow :=
  [ ⟨0x000, 1, 4, ⟨0x0, 0xFFFFFFFF, 0x0, 0x0, 0x0, 0x0, false⟩⟩ /- BASE_LO -/
  , ⟨0x004, 1, 4, ⟨0x0, 0xFFFFFFFF, 0x0, 0x0, 0x0, 0x0, false⟩⟩ /- BASE_HI -/
  , ⟨0x008, 1, 4, ⟨0x20000040, 0x3FFFFFFF, 0x0, 0x0, 0x0, 0x0, false⟩⟩ /- CFG -/
  , ⟨0x00C, 1, 4, ⟨0x10000, 0x0, 0x0, 0x0, 0x1FFFF, 0x0, false⟩⟩ /- TAIL -/
  , ⟨0x010, 1, 4, ⟨0x0, 0xFFFF, 0x0, 0x0, 0x0, 0x0, false⟩⟩ /- HEAD -/ ]

/-- The register rows of block DMA global (spec/15_dma.md register tables; R541). -/
def rowsDMAGlobal : List RegRow :=
  [ ⟨0x000, 1, 4, ⟨0x0, 0x0, 0x0, 0x0, 0x0, 0xFF7F, false⟩⟩ /- SIGRAISE -/
  , ⟨0x004, 1, 4, ⟨0x0, 0x0, 0x0, 0x0, 0xFFFF, 0x0, false⟩⟩ /- SIGSAT -/
  , ⟨0x010, 16, 4, ⟨0x0, 0x0, 0x0, 0x0, 0xFFFFFFFF, 0x0, false⟩⟩ /- SIGCNT -/ ]

/-- The register rows of block ADC (spec/18_register_map.md register tables; R541). -/
def rowsADC : List RegRow :=
  [ ⟨0x000, 1, 4, ⟨0x1, 0x1, 0x0, 0x0, 0x0, 0x0, false⟩⟩ /- CTL -/
  , ⟨0x100, 56, 4, ⟨0x0, 0x0, 0x0, 0x0, 0x1FFFF, 0x0, false⟩⟩ /- AIN -/ ]

/-- The descriptor of the complement word of an Invar register: bits [63:32] hold the complement of bits [31:0] (R11). -/
def RegDesc.complement (d : RegDesc) : RegDesc :=
  ⟨~~~d.reset, 0xFFFFFFFF, 0, 0, 0, 0, true⟩

/-- The descriptor in a block's rows of the word at relative offset `o`. -/
def findRow (rows : List RegRow) (o : Nat) : Option RegDesc :=
  match rows with
  | [] => none
  | r :: rest =>
    if r.off ≤ o ∧ o < r.off + r.count * r.dist ∧ (o - r.off) % r.dist = 0 then some r.desc
    else if r.desc.invar ∧ o = r.off + 4 then some r.desc.complement
    else findRow rest o

/-- The rows of an instance of a block whose instances lie `stride` apart from `base`, `n` of them. -/
def findInst (rows : List RegRow) (base stride n o : Nat) : Option RegDesc :=
  if (o - base) / stride < n then findRow rows ((o - base) % stride) else none

/-- The bits of a table word that hold a field; the others read 0 (R6, R266, R278, R356, R158). A feed entry keeps its reserved bits, which
check 3 of R306 reads (DEDUCED, log 41). -/
def tableMask (o : Nat) : Word :=
  if o < 0x900000 then 0x3FFF7FFF
  else if o < 0x920000 then (if o % 8 = 0 then 0x1FFFFFFF else 0x00000FFF)
  else if o < 0x962000 then 0x0FFF0FFF
  else if o < 0x963000 then 0xFFFFFFFF
  else if o < 0x963800 then 0x07FFFFFF
  else 0xFFFFFFFF

/-- The descriptor of a word of a table that software writes (R545). -/
def tableDesc (o : Nat) : RegDesc := ⟨0, tableMask o, 0, 0, 0, 0, false⟩

/-- A thermal-state word: read-only for software (R545). -/
def thermalDesc : RegDesc := ⟨0, 0, 0, 0, 0xFFFFFFFF, 0, false⟩

/-- The descriptor of an MSI-X table word: message address and data, and the vector control word whose mask bit is 1 after
reset. The layout is that of PCI Express Base 4.0, which R511 and R524 name. PRESUMED, log 12. -/
def msixDesc (o : Nat) : RegDesc :=
  if o % 16 = 12 then ⟨1, 1, 0, 0, 0, 0, false⟩ else ⟨0, 0xFFFFFFFF, 0, 0, 0, 0, false⟩

/-- The descriptor of the register or table word at BAR0 offset `o`; `none` where no register stands (R541, R544). -/
def regDesc (o : Nat) : Option RegDesc :=
  if o % 4 ≠ 0 then none
  else if o < 0x010000 then findRow rowsGLB o
  else if o < 0x020000 then findRow rowsIMG (o - 0x010000)
  else if o < 0x021000 then findRow rowsHST (o - 0x020000)
  else if o < 0x021400 then some (msixDesc o)
  else if o < 0x021800 then none
  else if o < 0x021808 then some ⟨0, 0, 0, 0, 0xFFFFFFFF, 0, false⟩
  else if o < 0x040000 then none
  else if o < 0x050000 then findRow rowsMEM (o - 0x040000)
  else if o < 0x060000 then findRow rowsXMC (o - 0x050000)
  else if o < 0x080000 then findRow rowsNVJ (o - 0x060000)
  else if o < 0x100000 then findRow rowsCAS (o - 0x080000)
  else if o < 0x180000 then findInst rowsHLPPn 0x100000 0x8000 16 o
  else if o < 0x181000 then findRow rowsDOTGlobal (o - 0x180000)
  else if o < 0x200000 then findInst rowsDOTPn 0x181000 0x100 16 o
  else if o < 0x201000 then findRow rowsFIRGlobal (o - 0x200000)
  else if o < 0x202000 then findInst rowsFIRLTn 0x201000 0x100 16 o
  else if o < 0x280000 then findInst rowsFIRPn 0x202000 0x100 16 o
  else if o < 0x281000 then findRow rowsTHMGlobal (o - 0x280000)
  else if o < 0x2C0000 then findInst rowsTHMPn 0x281000 0x100 16 o
  else if o < 0x2C1000 then findRow rowsNHLGlobal (o - 0x2C0000)
  else if o < 0x300000 then findInst rowsNHLPn 0x2C1000 0x100 16 o
  else if o < 0x301000 then findRow rowsSCNGlobal (o - 0x300000)
  else if o < 0x400000 then findInst rowsSCNLTn 0x301000 0x40 16 o
  else if o < 0x408000 then
    if (o - 0x400000) % 0x1000 < 0x100 then findInst rowsPOSPCn 0x400000 0x1000 8 o
    else if (o - 0x400000) % 0x1000 < 0x200 then findRow rowsPOSPCnCMPm (((o - 0x400000) % 0x1000 - 0x100) % 0x40)
    else none
  else if o < 0x480000 then findInst rowsPOSEEn 0x408000 0x100 4 o
  else if o < 0x500000 then findInst rowsSTPSAn 0x480000 0x1000 8 o
  else if o < 0x580000 then findInst rowsMOTMCn 0x500000 0x4000 4 o
  else if o < 0x600000 then findRow rowsADC (o - 0x580000)
  else if o < 0x620000 then findInst rowsDMADCn 0x600000 0x1000 32 o
  else if o < 0x621000 then findInst rowsDMACQn 0x620000 0x40 32 o
  else if o < 0x622000 then findRow rowsDMAGlobal (o - 0x621000)
  else if o < 0x800000 then none
  else if o < 0x920000 then some (tableDesc o)
  else if o < 0x960000 then some thermalDesc
  else if o < 0x963800 then some (tableDesc o)
  else if o < 0xA00000 then none
  else if o < 0xB00000 then some (tableDesc o)
  else none

/-- The reset value of the word at `o`; 0 where no register stands. -/
def regReset (o : Nat) : Word := ((regDesc o).map RegDesc.reset).getD 0

/-- The bits the word at `o` can hold. -/
def regStored (o : Nat) : Word := ((regDesc o).map RegDesc.stored).getD 0

end Sys2Proof.Machine
end

