-- ==== Sys2Proof/Machine/State.lean ====
section
/-!
DEFINITION. The state of the KPE-8160 block as plain data: registers and tables, memories, every unit's engine, the waiting
commands, and the output record. Each field's docstring names the rule of spec/ it comes from. Reset values stand in
`State.reset` at the end (every field at its stated value; where the spec states none, log 10 names it).
-/
namespace Sys2Proof.Machine

/-- A sparse map held as pairs in strictly rising key order, without the pairs equal to what an unlisted key reads as. -/
abbrev Sparse (α : Type) := List (Nat × α)

/-! ## Global control (spec/01_architecture.md) -/

/-- The global states (R34, R35; encoding of GLB_STATE). -/
inductive GState where
  | off | reset | imageLoad | selftest | linkTrain | idle | armed | print | stopping | safeHold | shutdown
  deriving DecidableEq, Repr

/-- Global control: state, reset inputs, clock and throttle (R28, R30, R35, R80, R83, R100). -/
structure Glb where
  /-- Global state (GLB_STATE.state). -/
  state : GState
  /-- Previous state (GLB_STATE.prev); `none` is the reset value 0. -/
  prev : Option GState
  /-- Event code that caused the last transition (GLB_STATE.cause). -/
  cause : BitVec 16
  /-- PORST_N asserted (R80). -/
  porst : Bool
  /-- WARMRST_N asserted (R80). -/
  warmrst : Bool
  /-- PCIE_PERST_N asserted (R101). -/
  perst : Bool
  /-- The root VCO is locked (R28, R35). -/
  locked : Bool
  /-- A loss of lock that raised GLB_CLOCK_UNLOCK has not ended (R28). -/
  lossRaised : Bool
  /-- The loader stopped for a loss of lock in IMAGE_LOAD (R28). -/
  loadStopped : Bool
  /-- REFSEL as sampled at the release of PORST_N (R559). -/
  refsel : Bool
  /-- Level of the CAS_MSTR strap (R83). -/
  casPin : Bool
  /-- CAS_MSTR has been sampled since the last PORST_N (R83). -/
  casSampled : Bool
  /-- BRU_EARLY_ACCESS has been raised since the last state entry (R100). -/
  earlySeen : Bool
  /-- CORE_T division in force: 0 none, 1 by 2, 2 by 4 (GLB_THRSTAT.div). -/
  div : Fin 3
  /-- Cycles skipped per 16 in force (GLB_THRSTAT.skip). -/
  skip : Fin 16
  /-- Division the automatic throttle asks for (R248). -/
  autoDiv : Fin 3
  /-- Skip the automatic throttle asks for (R248). -/
  autoSkip : Fin 16
  /-- Bell time of the release of reset; below 0 when bell time was set back after it (BRU_READY, R107). -/
  released : Int
  /-- AVS code driven on AVS_VID, 0 to 36 (R552). -/
  avs : Fin 37
  /-- Bell time of the last AVS code change and of the last throttle change (R552, R553). -/
  avsAt : Nat
  thrAt : Nat
  deriving DecidableEq, Repr

/-! ## Image loader (spec/02_alloy_image.md) -/

/-- Loader phases (IMG_STAT.phase). -/
inductive LoadPhase where
  | none | reading | waitPush | pushing | checking | commit | failed
  deriving DecidableEq, Repr

/-- Where an image came from (IMG_STAT.source: 1 slot A, 2 slot B, 3 host push). -/
inductive ImgSource where
  | slotA | slotB | push
  deriving DecidableEq, Repr

/-- The image in force: the value of each section by type, in ascending type order; a partial image replaces the sections it
carries (R48, R56, R70, R72). -/
structure Image where
  sections : List (Nat × List Byte)
  svn      : Nat
  effHash  : List Byte
  source   : ImgSource
  amended  : Bool
  deriving DecidableEq, Repr

/-- The loader, its staging memory and the OTP array (R57 to R65, R73, R76). -/
structure Loader where
  phase : LoadPhase
  /-- The load began by RELOAD (R64, R76). -/
  reload : Bool
  /-- The source now read or awaited. -/
  source : ImgSource
  /-- The staging memory: bytes received since PUSH_BEGIN (R65, R67). -/
  staged : List Byte
  /-- The image in force. -/
  image : Option Image
  /-- OTP: security version, key hash, key-lock fuse blown (R57, R59, R60). -/
  otpSvn : Nat
  otpKey : List Byte
  keyLock : Bool
  /-- What the passage after a commit repeats (R73): ports to train, page store to train, discovery to run, banks to test, and
  whether this is a start after a hardware reset (R86). -/
  trainPorts : BitVec 16
  trainXmc : Bool
  runDisc : Bool
  testBanks : BitVec 8
  cold : Bool
  deriving DecidableEq, Repr

/-! ## Bring-up (spec/03_bring_up.md) -/

/-- Status of a bring-up activity (GLB_BRUSTAT encoding). -/
inductive Act where
  | pending | running | done | failed | skipped
  deriving DecidableEq, Repr

/-- Bring-up activities (R85 to R97). -/
structure Bru where
  /-- The four SELFTEST activities: memory, journal, Invar checker, ADC (R85). -/
  memory : Act
  journal : Act
  invar : Act
  adc : Act
  /-- Bell time of the entry to SELFTEST or its restart (BRU_SELFTEST_DONE). -/
  stFrom : Int
  /-- Page-store channels trained, and attempts made per channel (R89). -/
  xmc : Act
  xmcTrained : BitVec 4
  xmcTries : Vector Nat 4
  /-- Cascade discovery (R95). -/
  cascade : Act
  /-- Discovery has waited from this bell time; BRU_CASCADE_WAIT has been raised (R97). -/
  discFrom : Nat
  discWarned : Bool
  /-- Banks tested and repair entries used, for BRU_SELFTEST_DONE (R107). -/
  tested : BitVec 8
  repairs : Nat
  /-- GLB_BRUSTAT.incomplete (R105). -/
  incomplete : Bool
  /-- SAFE_HOLD was entered from SELFTEST or LINK_TRAIN (R105). -/
  heldFromBru : Bool
  deriving DecidableEq, Repr

/-! ## Events, host interface and journal (spec/17_host_control.md, spec/07_thermal_energy.md R260 to R262) -/

/-- An event as raised (R525). -/
structure Event where
  code : BitVec 16
  sev  : Sev
  journal : Bool
  inst : Byte
  bell : Nat
  a0   : Word
  a1   : Word
  a2   : Word
  /-- Global state at the cause (R260). -/
  gst  : GState
  /-- Sequence number; 0 until the event is delivered (R526). -/
  seq  : Word
  deriving DecidableEq, Repr

/-- Journal record types (R260). -/
inductive JType where
  | boot | event | torn | thermal | shutdown
  deriving DecidableEq, Repr

/-- A journal record waiting to be programmed (R260, R262). -/
structure JRec where
  type : JType
  sev  : Sev
  code : BitVec 16
  bell : Nat
  a0   : Word
  a1   : Word
  a2   : Word
  gst  : GState
  /-- 23 payload bytes from offset 0x21. -/
  payload : List Byte
  deriving DecidableEq, Repr

/-- The journal array and its queue (R260 to R262). -/
structure Journal where
  /-- Physical record index to its 64 bytes; unlisted records have never been programmed. -/
  records : Sparse (List Byte)
  /-- Next physical record. -/
  next : Nat
  /-- Index of the newest valid record (NVJ_JSTAT.newest). -/
  newest : Nat
  /-- Sequence of the last record programmed (R260 jseq). -/
  jseq : Word
  /-- Waiting records, THERMAL and SHUTDOWN ahead of the others (R262). -/
  queue : List JRec
  /-- The record being programmed. -/
  busy : Option (List Byte)
  deriving DecidableEq, Repr

/-! ## Outputs -/

/-- A symbol of a lane: a control symbol by its name (R182, R424), or data. -/
inductive Sym where
  | ctl (name : String)
  | dat (b : Byte)
  deriving DecidableEq, Repr

/-- The two gate outputs of a phase in the present PWM period, in CLK_MOT cycles of 5 ns from its start (R373): the high side is on in
[hiOn, hiOff), the low side in [0, loOff) and from `loOn` to the end. -/
structure Gates where
  hiOn : Nat
  hiOff : Nat
  loOff : Nat
  loOn : Nat
  deriving DecidableEq, Repr

/-- What the block sends out, newest first in `State.out`: the model's record of its outputs (log 4). -/
inductive Output where
  /-- A write to host memory: address and bytes; No Snoop set (R525, R466, R531, R456, R480). -/
  | hostWrite (addr : Nat) (bytes : List Byte) (noSnoop : Bool)
  /-- A read request to host memory: DMA channel, address, length; No Snoop set (R456, R480). -/
  | hostRead (ch : Nat) (addr len : Nat) (noSnoop : Bool)
  /-- An MSI-X message for a vector (R524). -/
  | msix (vec : Fin 64)
  /-- Data returned to a host or I2C read: BAR (8 for I2C), offset, bytes (R515, R534). -/
  | readData (bar offset : Nat) (bytes : List Byte)
  /-- A poisoned completion of a host read of BAR4 (R507). -/
  | poison (bar offset : Nat)
  /-- A frame on the downstream lanes DL0 and DL1 of a head port, from SOF to EOF, CRC included (R188 to R201). -/
  | headFrame (port : Nat) (dl0 dl1 : List Sym)
  /-- SUS, RSM or EBD on both lanes of a head port (R182, R191). -/
  | headSym (port : Nat) (name : String)
  /-- An ordered set on a head port: the second symbol's name, or IDLE, and its data (R183, R186, R212). -/
  | headSet (port : Nat) (name : String) (bytes : List Byte)
  /-- The symbols of a frame, from SOF to EOF, or of an ordered set, from COM on, on the pins L0 and L1 of a cascade port: 0 CU, 1 CD
  (R422, R424, R425, R427). -/
  | casFrame (port : Nat) (l0 l1 : List Sym)
  | casSet (port : Nat) (l0 l1 : List Sym)
  /-- The level that the device drives on an output pin: name, instance, level (R81, R163). -/
  | pin (name : String) (inst : Nat) (level : Nat)
  /-- The gate outputs of a motor channel's phases U, V and W from now on, repeated in every PWM period (R373, R374). -/
  | gates (ch : Nat) (phases : List Gates)
  deriving DecidableEq, Repr

/-- Host-side engines: the event ring, MSI-X, the Lantern summary, Invar mismatch records, the I2C view (R513 to R534). -/
structure Hst where
  /-- Events raised by the command now executing, not yet delivered (R526); empty between commands. -/
  raised : List Event
  /-- The internal queue of 64, oldest first (R527). -/
  queue : List Event
  /-- The ring has been enabled since PORST_N (R527). -/
  everEnabled : Bool
  /-- The ring is suspended by PCIE_PERST_N (R528). -/
  suspended : Bool
  /-- Discards since room last returned: count, first and last lost sequence (R527). -/
  lost : Option (Nat × Word × Word)
  /-- Records written since the last vector (R530). -/
  sinceVec : Nat
  /-- The 16 most recent events of severity WARN or above, newest first (R532). -/
  recent : List Event
  /-- Occurrence counts by 32 × offset + bit, 16 bits, saturating (R522). -/
  occ : Sparse (BitVec 16)
  /-- Invar registers whose mismatch has been raised and not yet mended (R520). -/
  mismatched : List Nat
  /-- Bell time of the last HST_PCIE_ERROR (R514). -/
  lastAer : Option Nat
  /-- Host-memory requests and MSI-X messages waiting while Bus Master Enable is 0, oldest first (R513). -/
  held : List Output
  /-- Function mask of the MSI-X capability (R524). -/
  msixMask : Bool
  /-- Lantern captures since PORST_N (R532 seq). -/
  lanCount : Word
  /-- The snapshot being written, with its seq (R531). -/
  lanBusy : Option (Word × List Byte)
  /-- HST_LANSTAT.pending. -/
  lanPending : Bool
  /-- The most recent snapshot, as the I2C view shows it (R534). -/
  lanLast : List Byte
  /-- The I2C 24-bit pointer, and the word or record latched at its first byte with its base (R534). -/
  i2cPtr : Nat
  i2cLatch : Nat × List Byte
  /-- PCIe link up: speed and width (HST_LINK). -/
  linkSpeed : BitVec 4
  linkWidth : BitVec 6
  /-- Configuration space answers requests (R98). -/
  cfgReady : Bool
  /-- Bus Master Enable (R513) and L1 (R514). -/
  bme : Bool
  l1 : Bool
  /-- Max_Read_Request_Size in bytes, and Extended Tag Field Enable, of the configuration space (R511). -/
  maxRead : Nat
  extTag : Bool
  deriving DecidableEq, Repr

/-! ## Lines and dot pipes (spec/04_dot_data.md, spec/05_firing.md) -/

/-- What a line on a head port is: a print line, a service line or a warm-only cycle (R162, LINE flags). -/
inductive LineKind where
  | print | service | warm
  deriving DecidableEq, Repr

/-- TELE kind 0 of a line: awaited, arrived, or missing (R232, R233). -/
inductive TeleState where
  | waiting | got | missing
  deriving DecidableEq, Repr

/-- A line from its assembly to the end of its window (R122, R127, R143, R156, R204, R249). -/
structure FLine where
  line : Nat
  kind : LineKind
  /-- A scan line (LINE flag bit 1, R274); the rows whose dot data a gap sequence replaces, and how many of them carry its content (R276,
  R277). -/
  scan : Bool
  gap : BitVec 8
  gapN : Nat
  /-- The gap sequence that this content belongs to (R277). -/
  gapId : Nat
  /-- Rows that carry data (R120). -/
  rowmask : BitVec 8
  /-- Dot codes per row 0 to 7, in nozzle order; empty for a row without data. -/
  codes : List (List Nat)
  /-- The energy decision of the PARM frame: cap, order, overlap, trims and warm bits per primitive (R235, R249). -/
  cap : Nat
  order : List Nat
  overlap : Nat
  trims : List Int
  warms : List Bool
  /-- The 32 waveform entries, the slot and the settle time it was assembled with, and the bank that holds them (R159, R202). -/
  ents : List Word
  slot : Nat
  settle : Nat
  bank : Nat
  /-- Frames sent and accepted (R205, R221). -/
  lineSent : Bool
  lineAck : Bool
  parmSent : Bool
  parmAck : Bool
  fireSent : Bool
  fireAck : Bool
  /-- The FIRE frame carries a launch instant; the instant; the row offsets (R155, R196). -/
  timed : Bool
  launch : Nat
  offs : List Nat
  /-- Launched; slots started per row; rows whose window has ended; skipped (R143, R156, R204, R135). -/
  launched : Bool
  started : List Nat
  done : BitVec 8
  skipped : Bool
  tele : TeleState
  /-- The energy per step that its launch added to the model with (R232). -/
  eps : Nat
  deriving DecidableEq, Repr

/-- A line of a row in the prefetch store (R114). -/
structure PreLine where
  row  : Nat
  line : Nat
  data : List Byte
  deriving DecidableEq, Repr

/-- Pipe states; UNBOUND is the absence of a binding in the image (DOT_Pn_STAT.state, R137). -/
inductive PipeState where
  | off | stopped | ready | run | hold | late
  deriving DecidableEq, Repr

/-- A dot pipe (R112 to R137). -/
structure Pipe where
  st : PipeState
  /-- Next line to fire (DOT_Pn_NEXT), next line to be written (DOT_Pn_WLINE), next line to assemble (a of R117). -/
  next : Nat
  wline : Nat
  a : Nat
  /-- The line in assembly (R127). -/
  asm : Option FLine
  /-- Qualified below the low watermark, and the run of evaluations towards a change (R132). -/
  low : Bool
  lowRun : Nat
  /-- Lines committed and launched in the present and in the last whole window; the window's number (R130). -/
  cin : Nat
  cout : Nat
  lastCin : Nat
  lastCout : Nat
  win : Nat
  /-- The prefetch store (R114). -/
  pre : List PreLine
  deriving DecidableEq, Repr

/-! ## Line-trigger generators and gating (spec/05_firing.md) -/

/-- Generator states; UNBOUND is the absence of a binding in the image (FIR_LTn_STAT.state). -/
inductive GenState where
  | idle | armed | run | hold
  deriving DecidableEq, Repr

/-- A line-trigger generator (R145 to R155, R175, R177). -/
structure Gen where
  st : GenState
  /-- Origin in force: 32.16 position and line number (R177). -/
  org : Nat
  orgline : Nat
  /-- Mark of its position channel, 32.16; it moves in the decreasing direction in a reverse sweep (R145, R295, R325). -/
  hw : Nat
  rev : Bool
  /-- Next line to commit. -/
  k : Nat
  /-- Launch instant of the last commit; none since the last entry to PRINT (R146). -/
  last : Option Nat
  /-- Launch instant of the last line that launched; the line after the highest one launched since the last origin load (R145, R146). -/
  launchAt : Option Nat
  top : Option Nat
  /-- A line has been committed since the last origin load (R461). -/
  since : Bool
  /-- First line and launch instant of the run in fixed-clock mode (R151). -/
  k0 : Nat
  t0 : Nat
  /-- The fall-back of R148 applies. -/
  fallback : Bool
  /-- Bell time at which FIR_LAUNCH_LATE was raised last; the largest lateness since, with its line (R149). -/
  lateAt : Option Nat
  lateMax : Nat
  lateLine : Nat
  /-- FIR_OFFSET_CLAMPED has been raised in this run (R155). -/
  clamped : Bool
  /-- Consecutive launches out of tolerance (R152). -/
  supRun : Nat
  /-- A VALID speed has been seen since SETORG or CAPORG, and its latest value (R155). -/
  vSeen : Bool
  v : Int
  /-- Reactive lines that R146 delays: bell times at which the mark reached P(k), P(k + 1) and so on (R150). -/
  delayed : List Nat
  deriving DecidableEq, Repr

/-- The gating inputs as they stand (FIR_GATESTAT; R163 to R169). -/
structure Gate where
  /-- HEAD_KILL_N is low. -/
  kill : Bool
  /-- HOPENm is high. -/
  hopen : BitVec 4
  /-- MEDIA_OUT and JAMm are qualified. -/
  mediaOut : Bool
  jam : BitVec 2
  /-- HPn_EN is pulled low from outside. -/
  enExt : BitVec 16
  /-- The device releases HPn_EN (R163). -/
  enRel : BitVec 16
  deriving DecidableEq, Repr

/-! ## Head ports (spec/06_romor_head_link.md) -/

/-- Link states (HLP_Pn_STAT.lstate). -/
inductive LState where
  | unbound | down | detect | lock | config | timesync | ident | active | failed | absent | refused
  deriving DecidableEq, Repr

/-- Port states of GLB_PORTSTAT. -/
inductive PStat where
  | unbound | pending | training | trained | absent | failed | refused
  deriving DecidableEq, Repr

/-- A downstream frame that awaits an LACK (R221). -/
structure Sent where
  fseq  : Byte
  ftype : Nat
  tag   : Nat
  /-- Line number of a LINE, PARM or FIRE frame. -/
  line  : Nat
  /-- Bytes from byte 2 on. -/
  body  : List Byte
  /-- Retransmissions made. -/
  tries : Nat
  deriving DecidableEq, Repr

/-- Whose MEM request it is: identification (R209), software (R230), zone poll (R238), usage counters and summary (R227). -/
inductive MemOwner where
  | ident | software | zone | seed | usageRead | usageWrite | sumRead (copy : Nat) | sumWrite
  deriving DecidableEq, Repr

/-- A MEM request, outstanding or waiting for a credit (R201, R221). -/
structure MemReq where
  owner : MemOwner
  op    : Nat
  tag   : Byte
  addr  : Nat
  len   : Nat
  data  : List Byte
  tries : Nat
  deriving DecidableEq, Repr

/-- What waits for the downstream lanes of a port: a frame without its sequence number, or a TSYNC set (`ftype` 0; without a body a PROBE,
which takes its time when it leaves) (R190, R192, R212). -/
structure TxItem where
  ftype : Nat
  tag   : Nat
  line  : Nat
  body  : List Byte
  tries : Nat
  deriving DecidableEq, Repr

/-- The downstream lanes of a port (R184, R191, R192): what waits, in the order in which it became ready; the instants, in quarter ticks, at
which what is in progress ends, and up to which it may not be suspended; it is a frame; the lanes send IDLE. -/
structure Lanes where
  queue : List TxItem
  busy  : Nat
  hard  : Nat
  frame : Bool
  idle  : Bool
  deriving DecidableEq, Repr

/-- A head port (R183 to R230). -/
structure Hlp where
  lstate : LState
  bst : PStat
  dlLock : Bool
  ulLock : Bool
  killed : Bool
  /-- Attempts used in the present series of up to three, the reason of the last failure, and the kind of attempt: a series of
  R91 or a single one of R225. -/
  attempts : Nat
  reason : Nat
  inSeries : Bool
  hotTry : Bool
  /-- Generation number (R74, R80, R226). -/
  gen : BitVec 16
  /-- Serial of the head last ACTIVE since the last hardware reset (R226). -/
  serial : Option (List Byte)
  /-- Head memory 0x0000 to 0x07FF as read in IDENT (R209). -/
  mem : List Byte
  /-- MEM credits and largest payload of the head's TS2 (R184, R201). -/
  credits : Nat
  payload : Nat
  /-- Consecutive valid training sets of the kind awaited, and TS2 sets sent since the first one received (R208). -/
  tsRun : Nat
  tsAfter : Nat
  tx : Lanes
  fseq : Byte
  sent : List Sent
  reqs : List MemReq
  memWait : List MemReq
  memTag : Byte
  /-- Acquisition: theta and delta of the ECHOs so far, newest first; the check PROBE of step 4 is out; timed FIRE frames may go
  (R212, R216). -/
  echoes : List (Int × Int)
  checking : Bool
  synced : Bool
  /-- HLP_Pn_TSYNC: delta, last theta, eq, corrections. -/
  delta : Nat
  theta : Int
  eq : Nat
  corr : Nat
  /-- Bell times of discarded frames within 2^20 ticks (R218), and when HLP_UP_ERROR was raised last (R231). -/
  discards : List Nat
  upErrAt : Option Nat
  /-- Bell times of frames discarded on earlier attempts, which HLP_UP_ERROR still counts (R231). -/
  oldBad : List Nat
  /-- Lost its operating link with severity HALT and not ACTIVE since (R220); has been absent since it was ACTIVE last, if it ever was
  (R225). -/
  lostHalt : Bool
  gone : Bool
  /-- The lines held for the head, oldest first (R204, R205). -/
  lines : List FLine
  /-- A CANCEL is due once the lines still to launch have launched (R134). -/
  cancelDue : Bool
  /-- A KILL is due at the end of the slot in progress (R163, R187). -/
  killDue : Bool
  /-- The waveform bank that PARM frames name, and what each bank was loaded with: entries, slot, settle (R202). -/
  bank : Nat
  banks : Vector (Option (List Word × Nat × Nat)) 2
  /-- A waveform change waits for a bank that no held line uses (R202). -/
  bankDue : Bool
  /-- Usage writes asked for and not yet complete (R227). -/
  usage : Nat
  /-- Usage since the last write to head memory: drops per primitive, lines, ticks of PRINT, insertions, HALT-class thermal
  events; the summary copies read (R227). -/
  drops : List Nat
  uLines : Nat
  uTicks : Nat
  uSince : Nat
  uInserts : Nat
  uHalts : Nat
  sums : Vector (Option (List Byte)) 2
  deriving DecidableEq, Repr

/-! ## Thermal model, limits, ledger (spec/07_thermal_energy.md) -/

/-- A primitive of the Constantan model: temperatures in 1/4,096 °C, pending correction in 1/256 µJ, last trim, warm bit, warming
request (R234, R235). -/
structure Prim where
  tj : Int
  tb : Int
  corr : Int
  trim : Int
  warm : Bool
  wreq : Bool
  deriving DecidableEq, Repr

/-- A qualified condition: its qualified value and the run of consecutive samples against it (R240, R243). -/
structure Qual where
  on : Bool
  run : Nat
  deriving DecidableEq, Repr

/-- A zone of a head: latest reading with offset, in 1/16 °C; faulted; the two qualified checks (on = failing); the run towards
restoration; the readings, and the model's values at the same samples, kept for the rate, newest first with their bell times (R233,
R238 to R242). -/
structure Zone where
  temp : Int
  faulted : Bool
  nbr : Qual
  model : Qual
  okRun : Nat
  hist : List (Nat × Int)
  mhist : List (Nat × Int)
  deriving DecidableEq, Repr

/-- The thermal state of a head port (R232 to R247, R250, R251). -/
structure Thm where
  prims : List Prim
  tref : Int
  /-- Bell time of the last model update. -/
  last : Nat
  zones : List Zone
  /-- Crossings: throttle, absolute STOP, absolute HALT, rate STOP, rate HALT (R242, R243). -/
  thr : Qual
  tstop : Qual
  thalt : Qual
  rstop : Qual
  rhalt : Qual
  /-- THM_ZONES_LOST stands raised (R241). -/
  zonesLost : Bool
  /-- No sample has been taken since the last entry to PRINT: limits still crossed raise their events again at the next one (R246). -/
  again : Bool
  tjmax : Int
  tzmax : Int
  rate : Int
  /-- Throttle cap and lines since its last change (R247). -/
  cap : Nat
  capLines : Nat
  /-- TELE frames of kind 0 lost until one arrives (R233). -/
  teleLost : Bool
  overAt : Option Nat
  peakAt : Option Nat
  /-- Lines whose budget was overrun (R250). -/
  overCount : Nat
  /-- The thermal block's zone offsets are used (R237). -/
  blockOk : Bool
  deriving DecidableEq, Repr

/-- A request or grant of the power ledger: class, requesting instance, amount in mW, THM_LEDGER_WAIT raised (R252 to R254). -/
structure Req where
  cls : Nat
  inst : Nat
  mw : Nat
  warned : Bool
  deriving DecidableEq, Repr

/-- A shutdown path: what its record will hold, with the code and arguments of the crossing's event; the record has been queued (R255
to R258, R260). -/
structure Path where
  die : Bool
  port : Nat
  zone : Nat
  temp : Int
  rate : Int
  ttl : Nat
  tord : Nat
  code : BitVec 16
  a0 : Word
  a1 : Word
  a2 : Word
  bell : Nat
  gst : GState
  recorded : Bool
  deriving DecidableEq, Repr

/-- The thermal unit beyond the ports: die sensors, ledger, shutdown path (R242, R248, R252 to R257). -/
structure ThmG where
  die : Vector Int 4
  dieHist : List (Nat × Int)
  dieRate : Int
  thr1 : Qual
  thr2 : Qual
  thr3 : Qual
  stop : Qual
  shut : Qual
  rshut : Qual
  /-- TELE energy of the last 2^20 ticks: bell time and 1/256 µJ (R252). -/
  energy : List (Nat × Nat)
  waiting : List Req
  grants : List Req
  overRaised : Bool
  /-- The paths in progress on the fall-back, oldest first (R257). -/
  paths : List Path
  /-- Bell time of the last THM_TELE_MISSING (R233). -/
  missAt : Option Nat
  /-- No die sample has been taken since the last entry to PRINT (R246). -/
  again : Bool
  deriving DecidableEq, Repr

/-! ## Nozzle health and service (spec/08_nozzle_health.md) -/

/-- Nozzle health, scans and spits of a head port (R265 to R288). Entries stand in the tables. -/
structure Nhl where
  /-- NHL_Pn_SCANPOS.seq: 0 none, 1 awaiting grant, 2 scan, 3 spit, 4 gap scan, 5 gap spit; what an awaited grant is for: 2 or 3. -/
  seq : Nat
  want : Nat
  pendScan : Bool
  pendSpit : Bool
  suspended : Bool
  /-- First nozzle and row of the next block (R274). -/
  nozzle : Nat
  row : Nat
  /-- Lines sent of the present block or spit; lines of the sequence that fired; first line number of the sequence's own numbering. -/
  sentLines : Nat
  fired : Nat
  /-- The earliest launch of the sequence's next service line, and the service period it began with (R285). -/
  svcAt : Nat
  svcPer : Nat
  /-- NHL_Pn_SCAN as the present block began with it, NHL_Pn_SPIT as the present spit did (R274, R284). -/
  scanCfg : Word
  spitCfg : Word
  /-- Row changes that a service scan still makes, and the nozzle that it began with and ends at (R274, R275). -/
  rowsLeft : Nat
  fromNozzle : Nat
  /-- The block's results are awaited: nozzles still without a result (R275). -/
  awaiting : Nat
  /-- The declared gap: first line, length, and the first line whose assembly had not started at the declaration (R276). -/
  gap : Option (Nat × Nat × Nat)
  /-- First trigger line of the present gap block or spit; the content lines of it that have fired, counted per row (R277). -/
  gapFrom : Nat
  gapFired : Nat
  /-- Number of the present gap sequence; a pending SCAN began it (R277, R288). -/
  gapId : Nat
  began : Bool
  /-- The sequence ends at the line boundary, for this reason of NHL_SEQ_ABORT; 0 while it runs on (R286). -/
  ending : Nat
  /-- Bell times of the last NHL_NOZZLE_FAILED and RECOVERED, and the transitions counted since (R289). -/
  failAt : Option Nat
  failN : Nat
  recAt : Option Nat
  recN : Nat
  /-- Conditions of R287 that stand at or above their threshold. -/
  req1 : Bool
  req2 : Bool
  req3 : Bool
  /-- The port's substitution entries are all in use, and NHL_SUB_FULL has been raised (R281). -/
  full : Bool
  /-- A spit has been pending in PRINT since this bell time (R287). -/
  spitFrom : Option Nat
  deriving DecidableEq, Repr

/-! ## Scanning (spec/09_scanning.md) -/

/-- States of the scanning unit; OFF is print_mode 0 in the image. -/
inductive ScnSt where
  | nojob | ready | turn | sweep | held | done
  deriving DecidableEq, Repr

/-- A sweep as set up: its entry of the feed table and its first data line (R292, R299, R301). `next` as the entry's flags give it:
0 entry + 1, 1 SCN_JOB.loop, 2 end. -/
structure Sweep where
  entry : Nat
  b : Nat
  w : Nat
  ul : Nat
  mask : Nat
  rev : Bool
  feed : Int
  dwell : Nat
  next : Nat
  deriving DecidableEq, Repr

/-- The scanning unit (R290 to R308). -/
structure Scn where
  st : ScnSt
  /-- A seamless stop has been handed over and waits for the next line boundary (R304). -/
  stop : Bool
  /-- The current or pending sweep, and the one set up after it (R298). -/
  cur : Sweep
  nxt : Option Sweep
  /-- The pending sweep is a restart from kstop (R304, R305); ENDJOB: this sweep is the last (R307); R301 ended the job. -/
  restart : Bool
  last : Bool
  err : Bool
  /-- Transport position at SETJOB, counts; feed sum, 1/256 count (R300). -/
  y0 : Nat
  acc : Int
  /-- The transport has reached its target; the last slot of the sweep has ended and its feed has been commanded (R300, R302). -/
  fed : Bool
  ended : Bool
  /-- Bell time since when the carriage rests at the turnaround (R302). -/
  restAt : Option Nat
  /-- This turnaround has waited on the data gate; its thermal dwell has ended by dwell_max (R302). -/
  lateTurn : Bool
  dwellMax : Bool
  /-- The return stroke to the next start is under way (R298). -/
  stroke : Bool
  /-- The first commit of the sweep has taken place (R298). -/
  begun : Bool
  deriving DecidableEq, Repr

/-! ## Position channels (spec/10_position.md) -/

/-- A compare unit: its mark, 32.16, and hits and skipped targets since ARM (R325, R331 to R333). Armed and hits stand in
POS_PCn_CMPm_STAT. -/
structure Cmp where
  mark : Nat
  used : Nat
  deriving DecidableEq, Repr

/-- A position channel (R310 to R336). -/
structure Pc where
  /-- 32.16 position and 8-bit epoch (R320); the bell time of the latest accepted edge or valid sample (R330). -/
  pos : Nat
  epoch : Nat
  t : Nat
  /-- Speed in 1/16 count/s and VALID (R326 to R329). -/
  v : Int
  valid : Bool
  /-- Direction flag (true reverse) and its reference ext (R324). -/
  dir : Bool
  ext : Nat
  /-- Bell times of the latest edge of A or B, of Z, and of the last raise of POS_INPUT_FAULT (R312 to R314). -/
  edgeAt : Option Nat
  zAt : Option Nat
  inFaultAt : Option Nat
  /-- Faults of the last 2^20 ticks: bell time, illegal transition (R313). -/
  faults : List (Nat × Bool)
  /-- Timestamps of the speed history, newest first, 64 at most (R326); n and dt of the latest speed (R328). -/
  hist : List Nat
  mean : Nat × Nat
  /-- Sin/cos: FAULT, suspect, last phase, consecutive invalid samples, consecutive valid samples in FAULT, positions of the last
  speed samples, newest first (R316, R317, R329). -/
  fault : Bool
  suspect : Bool
  ph : Nat
  bad : Nat
  good : Nat
  samples : List Nat
  /-- The snapshot of R321: POS_FRAC word, speed, VALID. -/
  snap : Option (Word × Int × Bool)
  cmp : Vector Cmp 4
  deriving DecidableEq, Repr

/-- An emulated-encoder output (R337 to R340): reference of the source (40.16), reference count, lagging, pin levels A, B, Z. The
count stands in POS_EEn_OUT. -/
structure Ee where
  pref : Nat
  oref : Nat
  lagging : Bool
  a : Bool
  b : Bool
  z : Bool
  deriving DecidableEq, Repr

/-! ## Profiles and stepper axes (spec/11_steppers.md) -/

/-- What a profile generator steers for: nothing, rest at a target (32-bit), the speed vmax in a direction (true negative), the same up to
rest at a soft limit ahead (32-bit, read as signed), rest on the normal plan, rest on the emergency ramp (R349, R352, R353). -/
inductive Goal where
  | none
  | pos (tgt : Nat)
  | vel (neg : Bool)
  | jog (lim : Nat)
  | stop
  | emerg
  deriving DecidableEq, Repr

/-- A profile generator (R348, R349): position in 1/(16·781,250³) microstep, speed and acceleration per update in the same unit,
the goal, and the limits as latched, in units per update. -/
structure Prof where
  p : Int
  v : Int
  a : Int
  goal : Goal
  vmax : Int
  amax : Int
  dmax : Int
  jmax : Int
  deriving DecidableEq, Repr

/-- States of a stepper axis; UNUSED is the absence of a use in the image. -/
inductive AxSt where
  | off | hold | moving | homing | estop | fault
  deriving DecidableEq, Repr

/-- A stepper axis (R344 to R371). -/
structure Axis where
  st : AxSt
  prof : Prof
  /-- Homing phase 0 to 4; a home edge of the phase has been latched; bell time at which the phase began (R364, R365). -/
  phase : Nat
  edge : Bool
  phaseAt : Nat
  strong : Bool
  homed : Bool
  /-- Qualified inputs, active true. -/
  lima : Bool
  limb : Bool
  home : Bool
  /-- Stall references, 32.16, and the run of updates out of the window, 16 once STP_STALL has been raised for it (R363). -/
  p0 : Nat
  q0 : Nat
  devRun : Nat
  /-- Hold amplitude or current is in force (R362). -/
  low : Bool
  /-- The emergency ramp ends in FAULT; the outputs are low in FAULT (R347); a target to go on to: of a MOVE after the ramp (R352), of
  BACK (R364). -/
  toFault : Bool
  dark : Bool
  after : Option Nat
  /-- RELOAD found the axis in motion with safe_hold 1: it goes OFF at rest (R71). -/
  parkOff : Bool
  /-- Signed mean drive of coils A and B over the present PWM period, 1/4,096 of full on; positive drives the first output (R359, R360). -/
  coilA : Int
  coilB : Int
  deriving DecidableEq, Repr

/-! ## Motor channels (spec/12_motor_drive.md) -/

/-- States of a motor channel; UNUSED is MOTORS mode 0 in the image. -/
inductive MoSt where
  | off | sense | revbrake | align | startup | run | decel | reacq | coast | brake | fault
  deriving DecidableEq, Repr

/-- A motor channel (R373 to R400). Speeds are signed 1/16 rpm. -/
structure Motor where
  st : MoSt
  /-- Position mode: a MOVE is the source of the speed demand; its profile generator (R394). -/
  moving : Bool
  prof : Prof
  /-- Speed demand × 250 × pwm_khz (R381), and its cap after a refused grant, under VREF and on the profile generator's speed (R395). -/
  demand : Int
  cap : Option Int
  capV : Option Int
  /-- Measured speed; last good speed under lock. -/
  speed : Int
  good : Int
  /-- id, iq, idref and the iq demand in mA (R382); the phase currents in mA; the bus in mV. -/
  id : Int
  iq : Int
  idref : Int
  iqref : Int
  cur : List Int
  vbus : Nat
  /-- The phase voltages at the motor, mV (R379). -/
  phv : List Nat
  /-- The electrical angle of control, 1/65,536 turn; the voltage vector of the last period, mV; the sums of the current regulators, 1/256 mV, and
  of the speed regulator, 1/4,096 mA, and the iq that it asks for (CPI, SPI, R383). -/
  angle : Nat
  ud : Int
  uq : Int
  dInt : Int
  qInt : Int
  sInt : Int
  iqReg : Int
  /-- The lock metric passes; consecutive failing periods of angle and magnitude; consecutive passing periods (R386, R387). -/
  lock : Bool
  angRun : Nat
  emfRun : Nat
  lockRun : Nat
  /-- Failed reacquisition windows; bell time of the last reacquisition (R388). -/
  fails : Nat
  reacqAt : Option Nat
  /-- Periods, modulo 4 × pwm_khz; periods left of the iq ramp, and the iq from which it starts (R386, R388). -/
  per : Nat
  ramp : Nat
  rampFrom : Int
  emerg : Bool
  phold : Bool
  /-- The bus is at or above vmax (R391). -/
  high : Bool
  /-- Zero crossings of the present window, newest first: bell time and place in the order of rotation, 0 to 5. -/
  zc : List (Nat × Nat)
  /-- STARTUP: forced rate × 1,000 × pwm_khz; crossings matched; closed on zero crossings (R386). -/
  forced : Int
  matched : Nat
  closed : Bool
  /-- STARTUP: the commutation sector, the part of the next commutation that the forced rate has covered, and the instant of the next commutation
  from a crossing (R386). -/
  sector : Nat
  comm : Nat
  commAt : Option Nat
  /-- Start of the window that first found reverse rotation; the instant REVBRAKE began; the final short brake of REVBRAKE holds (R385). -/
  revFrom : Option Nat
  revAt : Option Nat
  revHold : Bool
  /-- A short brake is due below safe_brake_rpm (R388, R392, R397); the drive is low for the rest of the period (R385). -/
  wantBrake : Bool
  chop : Bool
  /-- The short brake acts in FAULT (R388). -/
  shorted : Bool
  /-- RELOAD found the channel turning: its deceleration ends in COAST (R71). -/
  thenCoast : Bool
  /-- The MOVE target that a channel goes on to after an emergency ramp off a soft limit (R352, R394). -/
  after : Option Nat
  /-- The gate outputs of U, V and W (R373, R374). -/
  gates : Vector Gates 3
  deriving DecidableEq, Repr

/-! ## Seamless stop (spec/13_seamless_stop.md) -/

/-- The seamless-stop sequence (R402 to R415). Phase as DOT_SSSTAT.phase encodes it: 0 NONE, 1 DRAIN, 2 DECEL, 3 BACKUP, 4 REFILL,
5 PARK, 6 ACCEL. -/
structure Ss where
  phase : Nat
  /-- The bell time at which this device applies a chain's decision (R415). -/
  td : Option Nat
  /-- This device owns and moves the transport in the sequence. -/
  mover : Bool
  /-- v0 in counts/s, and x_rest, xb as 32.16 positions of transport_pc (R406). -/
  v0 : Nat
  xrest : Nat
  xb : Nat
  /-- DOT_SSMARGIN and pk, 32.16, as the decision took them (R405, R406, R417). -/
  margin : Nat
  pk : Nat
  /-- The command in force at the decision: the stepper's goal with its latched vmax, 1/16 microstep/s; `false`: a motor under VREF. -/
  back : Goal
  backV : Nat
  /-- Park is due at xb (R411). -/
  park : Bool
  /-- This device's refill gate has been reported (R415), and SSGO has arrived. -/
  told : Bool
  go : Bool
  deriving DecidableEq, Repr

/-! ## Cascade (spec/14_cascade.md) -/

/-- States of a cascade port (CAS_STAT.cu and cd). -/
inductive CasLink where
  | down | detect | align | config | timesync | active
  deriving DecidableEq, Repr

/-- A cascade port: state; consecutive valid sets of the kind awaited, and TS2 sets sent in CONFIG; bell times of frames discarded
within 2^20 ticks (R436); a failure of ALIGN raised in this series of attempts (R426); the link was lost after it had been ACTIVE; it was
lost with severity HALT and has not been ACTIVE since (R40, R436). -/
structure CasPort where
  st : CasLink
  run : Nat
  outs : Nat
  discards : List Nat
  alignRaised : Bool
  lost : Bool
  lostHalt : Bool
  deriving DecidableEq, Repr

/-- A role-addressed frame that awaits an ACK (R437). -/
structure CasSent where
  seq : Byte
  type : Nat
  dst : Nat
  epoch : Nat
  body : List Byte
  tries : Nat
  deriving DecidableEq, Repr

/-- A decoded bell set that waits for its tick, with the bell time at which it was decoded (R434, R435). -/
structure Bell where
  tick : Nat
  fire : Bool
  tseq : Nat
  seenAt : Nat
  deriving DecidableEq, Repr

/-- The cascade unit (R419 to R447). -/
structure Cas where
  cu : CasPort
  cd : CasPort
  /-- Discovery is complete; position, length, role epoch, position of the transport device (0xFF none), proposed epoch, answers
  received (R95, R432, R433). -/
  disc : Bool
  position : Nat
  length : Nat
  epoch : Nat
  transport : Nat
  proposed : Nat
  dans : List Dans
  /-- REDISC waits for IDLE (R433). -/
  redisc : Bool
  seq : Byte
  sent : List CasSent
  /-- Broadcasts already accepted, source and sequence, newest first (R437). -/
  seen : List (Nat × Byte)
  /-- Acquisition: theta and delta of the ECHOs so far, newest first; the check PROBE is out; bell time is synchronised (R428); the
  thetas of the present group (R429); the offset last measured and not yet corrected. The fraction of bell time, 1/16 tick. -/
  echoes : List (Int × Int)
  checking : Bool
  synced : Bool
  group : List Int
  resid : Int
  frac : Nat
  /-- Bell sets decoded and not yet due; tick sequence last sent or expected next (R434, R435). -/
  bells : List Bell
  tseq : Nat
  /-- Tick of the last bell set sent (R434). -/
  tick : Option Nat
  /-- START tick (R440). -/
  ts : Option Nat
  /-- Highest severity since the last STAT, and the last code of WARN or above (R444). -/
  sev : Nat
  code : BitVec 16
  /-- Consecutive POS frames out of tolerance (R445). -/
  posRun : Nat
  /-- CAS_TIME_LOST of severity HALT stands until bell time is synchronised again; members whose CAS_MEMBER_LOST of severity HALT stands
  until their next STAT (R40, R436, R444). -/
  timeHalt : Bool
  memberHalt : BitVec 8
  /-- Devices whose SSREADY has arrived, by position. -/
  ready : BitVec 8
  /-- Events of the command now executing that its STAT has already reported (R444); 0 between commands. -/
  noted : Nat
  deriving DecidableEq, Repr

/-! ## DMA (spec/15_dma.md) -/

/-- States of a DMA channel. -/
inductive DmaSt where
  | idle | run | wait | cqfull | pausing | paused | error
  deriving DecidableEq, Repr

/-- A source read that has been issued (R456): number of its first byte in the transfer, length, address, its data once it is complete, and
what the SRAM or the page store gave when it served the read, none of it where the read reached no memory (R457, R491). -/
structure DmaRead where
  off  : Nat
  len  : Nat
  addr : Nat
  data : Option (List Byte)
  got  : Option (List Byte)
  deriving DecidableEq, Repr

/-- A completion record that waits for its queue (R466, R467). `kind`: 0 CPL, 1 END, 2 SWAP, 3 DRAINED, 4 ABORTED, 5 an error; `swp`:
DMA_DCn_STAT.swapped at the event. -/
structure DmaRec where
  kind   : Nat
  status : Nat
  tag    : Nat
  pc     : Nat
  bell   : Nat
  pid    : Nat
  bytes  : Nat
  swp    : Bool
  deriving DecidableEq, Repr

/-- A DMA channel (R449 to R485); what its registers show stands in the registers. -/
structure Dma where
  st : DmaSt
  /-- The state held at the pause (R475, R476); what follows the pause in progress: 0 nothing, 1 DRAIN, 2 ABORT. -/
  was : DmaSt
  after : Nat
  /-- DMA_DCn_STAT: cause, arm, swapped, pc, wtype, status. -/
  cause : Nat
  arm : Bool
  swapped : Bool
  pc : Nat
  wtype : Nat
  status : Nat
  /-- The instruction at PC as fetched, while it is in progress (R450): an XFER (`xfer`), a WAIT, or an instruction that R458 holds
  (`held`). -/
  inst : List Byte
  xfer : Bool
  held : Bool
  /-- SRC, SPAT, DST and DPAT executed since the hand-over (R454). -/
  srcSet : Bool
  spatSet : Bool
  dstSet : Bool
  dpatSet : Bool
  /-- Bytes of the transfer asked for; bytes that wait to be written, in order; reads not yet packed, oldest first (R456). -/
  iss : Nat
  hold : List Byte
  reads : List DmaRead
  /-- A failure that ends the channel when the reads already issued are complete: status (R457). -/
  fail : Option Nat
  /-- A write to the SRAM or the page store that the memory has not accepted; a write to host memory that waits for Bus Master
  Enable (R458, R513). -/
  wpend : Bool
  hpend : Bool
  /-- Records that wait for room (R467, R477). -/
  recs : List DmaRec
  deriving DecidableEq, Repr

/-! ## Memories (spec/16_memories.md) -/

/-- A destructive test in progress (R501): bank, bell time of its start. -/
structure MarchTest where
  bank : Nat
  from_ : Nat
  deriving DecidableEq, Repr

/-- The memory unit (R494 to R510); what its registers show stands in the registers. -/
structure Mem where
  /-- What an unlisted byte of each bank reads as: 0, or the background of its last destructive test (R495, R501). -/
  fill : Vector Byte 8
  /-- The state that a bank in transition goes to; banks on their way from OFF to RETENTION that are powered up for the test of SELFTEST
  (R85, R495). -/
  target : Vector Nat 8
  powered : BitVec 8
  /-- MEM_BANK_ASLEEP has been raised since the bank's last change of state (R496); MEM_REPAIR_LOW has been raised (R500). -/
  asleep : BitVec 8
  repLow : BitVec 8
  /-- Spares in use of way m of bank b, at 8b + m (R499). -/
  used : Vector Nat 64
  test : Option MarchTest
  /-- The borrowed window, by its SRAM offset; the next window of the background test (R502, R503). -/
  win : Option Nat
  next : Nat
  /-- Bell time of the last XMC_ECC_CORR (R510). -/
  corrAt : Option Nat
  /-- The repair fuses have been loaded since the reset (R499). -/
  fused : Bool
  /-- The window last released before its march was complete, and the bank whose destructive test last ended before its end, while the faults
  found there have not been reported (R503, R505). -/
  late : Option Nat
  cut : Option Nat
  deriving DecidableEq, Repr

/-! ## The state of the block -/

/-- The state of the KPE-8160 block. -/
structure State where
  /-- Commands that wait, first in first out (the row's cut). -/
  pending : List Instr
  /-- Bell time in ticks of 2.5 ns (R3). -/
  now : Nat
  /-- Register and table words that differ from their reset value, by BAR0 offset (R4, R541, R544). -/
  regs : Sparse Word
  /-- SRAM bytes by offset, 96 MB; unlisted bytes read 0 (R487; log 3). -/
  sram : List Host.Cell
  /-- Page-store bytes by offset, up to 16 GB; unlisted bytes read 0 (R506; log 3). -/
  page : List Host.Cell
  glb : Glb
  ldr : Loader
  bru : Bru
  hst : Hst
  jrn : Journal
  /-- DP0 to DP15. -/
  dot : Vector Pipe 16
  /-- LT0 to LT15. -/
  gen : Vector Gen 16
  gate : Gate
  /-- HP0 to HP15. -/
  hlp : Vector Hlp 16
  /-- The thermal state of each head port. -/
  thm : Vector Thm 16
  thmg : ThmG
  /-- NHL of HP0 to HP15. -/
  nhl : Vector Nhl 16
  /-- Bell time of the last NHL_HOSTRES_BAD (R273). -/
  hostresAt : Option Nat
  scn : Scn
  /-- PC0 to PC7. -/
  pc : Vector Pc 8
  /-- Levels of PCn_A and PCn_B as last sampled (R310). -/
  enc : Vector (Bool × Bool) 8
  /-- EE0 to EE3. -/
  ee : Vector Ee 4
  /-- SA0 to SA7. -/
  stp : Vector Axis 8
  /-- MC0 to MC3. -/
  mot : Vector Motor 4
  ss : Ss
  cas : Cas
  /-- DC0 to DC31. -/
  dma : Vector Dma 32
  /-- CQ0 to CQ31: records written since the last vector (R470). -/
  cqSince : Vector Nat 32
  /-- The channel served last at the fabric ports for source reads: host memory, SRAM, page store (R482). -/
  dmaTurn : Vector Nat 3
  /-- Signals whose saturation has raised DMA_SIGNAL_SAT and that have not fallen below 255 since (R463). -/
  sigSat : List Nat
  /-- Signals that the raises of the command now executing have saturated (R463); empty between commands. -/
  sigOver : List Nat
  mem : Mem
  /-- What the block has sent out, newest first (log 4). -/
  out : List Output
  /-- The model's own: how many free values have been drawn (log 5). -/
  freeCtr : Nat
  deriving DecidableEq, Repr

/-- Faults. The block stops on no command: no meaning raises one; the constructor keeps the type inhabited. Safe. -/
inductive Fault where
  /-- Raised by no meaning. Safe. -/
  | none
  deriving DecidableEq, Repr

/-- Refusals. -/
inductive Refusal where
  /-- A command that has no meaning yet, by its mnemonic; raised by exec's refused arms only. Safe. -/
  | notModelled (mnemonic : String)
  deriving DecidableEq, Repr

/-- Global control right after reset: PORST_N asserted, state RESET (R35, R80), everything else at its stated value or at the
value log 10 names. -/
def Glb.reset : Glb :=
  { state := .reset, prev := none, cause := 0, porst := true, warmrst := false, perst := false, locked := false,
    lossRaised := false, loadStopped := false, refsel := false, casPin := false, casSampled := false, earlySeen := false,
    div := 0, skip := 0, autoDiv := 0, autoSkip := 0, released := 0, avs := 36, avsAt := 0, thrAt := 0 }

/-- The loader right after reset: no image; an unprovisioned OTP array (log 10). -/
def Loader.reset : Loader :=
  { phase := .none, reload := false, source := .slotA, staged := [], image := none, otpSvn := 0,
    otpKey := List.replicate 32 0, keyLock := false, trainPorts := 0, trainXmc := false, runDisc := false, testBanks := 0,
    cold := true }

/-- Bring-up right after reset: nothing started (GLB_BRUSTAT reset 0). -/
def Bru.reset : Bru :=
  { memory := .pending, journal := .pending, invar := .pending, adc := .pending, stFrom := 0, xmc := .pending, xmcTrained := 0,
    xmcTries := Vector.replicate 4 0, cascade := .pending, discFrom := 0, discWarned := false, tested := 0, repairs := 0,
    incomplete := false, heldFromBru := false }

/-- The host interface right after PORST_N (R546). -/
def Hst.reset : Hst :=
  { raised := [], queue := [], everEnabled := false, suspended := false, lost := none, sinceVec := 0, recent := [], occ := [],
    mismatched := [], lastAer := none, held := [],
    msixMask := false, lanCount := 0, lanBusy := none, lanPending := false, lanLast := [], i2cPtr := 0,
    i2cLatch := (0, []), linkSpeed := 0, linkWidth := 0, cfgReady := false, bme := false, l1 := false,
    maxRead := 512, extTag := false }

/-- A journal never programmed (log 10). -/
def Journal.reset : Journal :=
  { records := [], next := 0, newest := 0, jseq := 0, queue := [], busy := none }

/-- A pipe right after reset: OFF, line numbers 0. -/
def Pipe.reset : Pipe :=
  { st := .off, next := 0, wline := 0, a := 0, asm := none, low := false, lowRun := 0, cin := 0, cout := 0, lastCin := 0,
    lastCout := 0, win := 0, pre := [] }


/-- A generator right after reset. -/
def Gen.reset : Gen :=
  { st := .idle, org := 0, orgline := 0, hw := 0, rev := false, k := 0, last := none, launchAt := none, top := none, since := false, k0 := 0, t0 := 0, fallback := false, lateAt := none,
    lateMax := 0, lateLine := 0, clamped := false, supRun := 0, vSeen := false, v := 0, delayed := [] }

/-- The gating inputs right after reset: no input asserted, HPn_EN driven low on every port (R163). -/
def Gate.reset : Gate := { kill := false, hopen := 0, mediaOut := false, jam := 0, enExt := 0, enRel := 0 }


/-- Lanes on which nothing waits. -/
def Lanes.reset : Lanes := { queue := [], busy := 0, hard := 0, frame := false, idle := true }

/-- A head port right after reset: UNBOUND, the head in the killed state (HLP_Pn_STAT reset). -/
def Hlp.reset : Hlp :=
  { lstate := .unbound, bst := .unbound, dlLock := false, ulLock := false, killed := true, attempts := 0, reason := 0,
    inSeries := false, hotTry := false, gen := 0, serial := none, mem := [], credits := 0, payload := 64, tsRun := 0,
    tsAfter := 0, tx := .reset, fseq := 0, sent := [], reqs := [], memWait := [], memTag := 0, echoes := [],
    checking := false, synced := false, delta := 0, theta := 0, eq := 0, corr := 0, discards := [], upErrAt := none, oldBad := [],
    lostHalt := false, gone := false, lines := [], cancelDue := false, killDue := false, bank := 0, banks := Vector.replicate 2 none, bankDue := false,
    usage := 0, drops := [], uLines := 0, uTicks := 0, uSince := 0, uInserts := 0, uHalts := 0, sums := Vector.replicate 2 none }


/-- A condition that is not qualified. -/
def Qual.reset : Qual := { on := false, run := 0 }

/-- A port's thermal state right after reset: no model. -/
def Thm.reset : Thm :=
  { prims := [], tref := 0, last := 0, zones := [], thr := .reset, tstop := .reset, thalt := .reset, rstop := .reset,
    rhalt := .reset, zonesLost := false, again := false, tjmax := 0, tzmax := 0, rate := 0, cap := 511, capLines := 0, teleLost := false,
    overAt := none, peakAt := none, overCount := 0, blockOk := false }

/-- The thermal unit right after reset. -/
def ThmG.reset : ThmG :=
  { die := Vector.replicate 4 0, dieHist := [], dieRate := 0, thr1 := .reset, thr2 := .reset, thr3 := .reset, stop := .reset,
    shut := .reset, rshut := .reset, energy := [], waiting := [], grants := [], overRaised := false, paths := [],
    missAt := none, again := false }


/-- A port's nozzle health right after reset. -/
def Nhl.reset : Nhl :=
  { seq := 0, want := 0, pendScan := false, pendSpit := false, suspended := false, nozzle := 0, row := 0, sentLines := 0, fired := 0, svcAt := 0, svcPer := 0, scanCfg := 0,
    spitCfg := 0, rowsLeft := 0, fromNozzle := 0, awaiting := 0, gap := none, gapFrom := 0, gapFired := 0, gapId := 0, began := false, ending := 0, failAt := none, failN := 0, recAt := none, recN := 0, req1 := false,
    req2 := false, req3 := false, full := false, spitFrom := none }


/-- No sweep. -/
def Sweep.reset : Sweep := { entry := 0, b := 0, w := 0, ul := 0, mask := 0, rev := false, feed := 0, dwell := 0, next := 0 }

/-- No job. -/
def Scn.reset : Scn :=
  { st := .nojob, stop := false, cur := .reset, nxt := none, restart := false, last := false, err := false, y0 := 0, acc := 0,
    fed := true, ended := true, restAt := none, lateTurn := false, dwellMax := false, stroke := false, begun := false }


/-- A position channel right after reset. -/
def Pc.reset : Pc :=
  { pos := 0, epoch := 0, t := 0, v := 0, valid := false, dir := false, ext := 0, edgeAt := none, zAt := none, inFaultAt := none,
    faults := [], hist := [], mean := (1, 1), fault := false, suspect := false, ph := 0, bad := 0, good := 0, samples := [],
    snap := none, cmp := Vector.replicate 4 ⟨0, 0⟩ }

/-- An emulated-encoder output right after reset: count 0, pins low. -/
def Ee.reset : Ee := { pref := 0, oref := 0, lagging := false, a := false, b := false, z := false }


/-- A generator at rest at position 0. -/
def Prof.reset : Prof := { p := 0, v := 0, a := 0, goal := .none, vmax := 0, amax := 0, dmax := 0, jmax := 0 }

/-- An axis right after reset: OFF, no input active (log 10). -/
def Axis.reset : Axis :=
  { st := .off, prof := .reset, phase := 0, edge := false, phaseAt := 0, strong := false, homed := false, lima := false, limb := false,
    home := false, p0 := 0, q0 := 0, devRun := 0, low := true, toFault := false, dark := false, after := none, parkOff := false,
    coilA := 0, coilB := 0 }


/-- A motor channel right after reset: OFF, at rest. -/
def Motor.reset : Motor :=
  { st := .off, moving := false, prof := .reset, demand := 0, cap := none, capV := none, speed := 0, good := 0, id := 0, iq := 0, idref := 0,
    iqref := 0,
    cur := [0, 0, 0], vbus := 0, phv := [0, 0, 0], angle := 0, ud := 0, uq := 0, dInt := 0, qInt := 0, sInt := 0, iqReg := 0, rampFrom := 0,
    sector := 0, comm := 0, commAt := none, revAt := none, lock := false, angRun := 0, emfRun := 0, lockRun := 0, fails := 0, reacqAt := none, per := 0,
    ramp := 0, emerg := false, phold := false, high := false, zc := [], forced := 0, matched := 0, closed := false,
    revFrom := none, revHold := false, wantBrake := false, chop := false, shorted := false, thenCoast := false, after := none,
    gates := Vector.replicate 3 ⟨0, 0, 0, 0⟩ }


/-- No sequence. -/
def Ss.reset : Ss :=
  { phase := 0, td := none, mover := false, v0 := 0, xrest := 0, xb := 0, margin := 0, pk := 0, back := .none, backV := 0, park := false, told := false,
    go := false }


/-- The cascade right after reset: ports down, no chain. -/
def Cas.reset : Cas :=
  { cu := ⟨.down, 0, 0, [], false, false, false⟩, cd := ⟨.down, 0, 0, [], false, false, false⟩, disc := false, position := 0, length := 1, epoch := 0, transport := 0xFF,
    proposed := 0, dans := [], redisc := false, seq := 0, sent := [], seen := [], echoes := [], checking := false,
    synced := false, group := [], resid := 0, frac := 0, bells := [], tseq := 0, tick := none, ts := none, sev := 0, code := 0,
    posRun := 0, timeHalt := false, memberHalt := 0, ready := 0, noted := 0 }


/-- A channel right after reset. -/
def Dma.reset : Dma :=
  { st := .idle, was := .idle, after := 0, cause := 0, arm := false, swapped := false, pc := 0, wtype := 0, status := 0, inst := [],
    xfer := false, held := false, srcSet := false, spatSet := false, dstSet := false, dpatSet := false, iss := 0, hold := [],
    reads := [], fail := none, wpend := false, hpend := false, recs := [] }


/-- The memory unit right after reset: banks OFF (MEM_BKSTAT reset 0xAAAA), no spare used. -/
def Mem.reset : Mem :=
  { fill := Vector.replicate 8 0, target := Vector.replicate 8 2, powered := 0, asleep := 0, repLow := 0, used := Vector.replicate 64 0,
    test := none, win := none, next := 0, corrAt := none, fused := false, late := none, cut := none }


/-- The block right after reset. -/
def State.reset : State :=
  { pending := [], now := 0, regs := [], sram := [], page := [], glb := .reset, ldr := .reset, bru := .reset, hst := .reset,
    jrn := .reset,
    dot := Vector.replicate 16 Pipe.reset,
    gen := Vector.replicate 16 Gen.reset, gate := .reset,
    hlp := Vector.replicate 16 Hlp.reset,
    thm := Vector.replicate 16 Thm.reset, thmg := .reset,
    nhl := Vector.replicate 16 Nhl.reset, hostresAt := none,
    scn := .reset,
    pc := Vector.replicate 8 Pc.reset, enc := Vector.replicate 8 (false, false), ee := Vector.replicate 4 Ee.reset,
    stp := Vector.replicate 8 Axis.reset,
    mot := Vector.replicate 4 Motor.reset,
    ss := .reset,
    cas := .reset,
    dma := Vector.replicate 32 Dma.reset, cqSince := Vector.replicate 32 0, dmaTurn := Vector.replicate 3 31, sigSat := [], sigOver := [],
    mem := .reset,
    out := [], freeCtr := 0 }

end Sys2Proof.Machine
end

