-- ==== Sys2Proof/Machine/Ops.lean ====
section
/-!
DEFINITION. The named operations on the state: sparse maps, registers, the SRAM and the page store, outputs, free values, and the
raising and delivery of events with the event ring and the journal (spec/17_host_control.md R513, R522 to R530;
spec/07_thermal_energy.md R260 to R262).
-/
namespace Sys2Proof.Machine

/-! ## Sparse maps -/

/-- What key `k` reads as; `d` for an unlisted key. -/
def Sparse.get {α : Type} (d : α) : Sparse α → Nat → α
  | [], _ => d
  | (k', v) :: rest, k => if k' = k then v else Sparse.get d rest k

/-- The map with key `k` reading `v`, kept in rising key order and without pairs equal to the default. -/
def Sparse.set {α : Type} [DecidableEq α] (d : α) (l : Sparse α) (k : Nat) (v : α) : Sparse α :=
  match l with
  | [] => if v = d then [] else [(k, v)]
  | (k', v') :: rest =>
    if k < k' then (if v = d then (k', v') :: rest else (k, v) :: (k', v') :: rest)
    else if k = k' then (if v = d then rest else (k, v) :: rest)
    else (k', v') :: Sparse.set d rest k v

/-! ## Registers -/

/-- What the register word at `o` holds: its entry, or its reset value (R4, R541). -/
def rd (s : State) (o : Nat) : Word := Sparse.get (regReset o) s.regs o

/-- The hardware's write of a register word: the reserved bits stay 0 (R6); nothing where no register stands. -/
def wr (o : Nat) (v : Word) (s : State) : State :=
  { s with regs := Sparse.set (regReset o) s.regs o (v &&& regStored o) }

/-- Bits [hi:lo] of a register. -/
def fld (s : State) (o hi lo : Nat) : Nat := bits (rd s o) hi lo

/-- The hardware's write of bits [hi:lo] of a register. -/
def setF (o hi lo v : Nat) (s : State) : State := wr o (putBits (rd s o) hi lo v) s

/-- A field count increased by one, saturating at its width. -/
def incF (o hi lo : Nat) (s : State) : State := setF o hi lo (satInc (hi + 1 - lo) (fld s o hi lo)) s

/-- A field count increased by `d`, saturating at its width. -/
def addF (o hi lo d : Nat) (s : State) : State := setF o hi lo (satAddU (hi + 1 - lo) (fld s o hi lo) d) s

/-- The words that a reset restores go back to their reset values: the entries whose offset the reset names are removed. -/
def dropRegs (p : Nat → Bool) (s : State) : State := { s with regs := s.regs.filter (fun kv => !p kv.1) }

/-- The 64-bit value of two register words. -/
def rd64 (s : State) (lo hi : Nat) : Nat := (rd s lo).toNat + 2 ^ 32 * (rd s hi).toNat

/-! ## Byte memories -/

/-- `n` bytes of a byte memory from `a`, rising; `d` gives what unlisted bytes read as (log 3). -/
def memRead (d : Nat → Byte) (m : List Host.Cell) (a : Nat) : Nat → List Byte
  | 0 => []
  | n + 1 => Sparse.get (d a) m a :: memRead d m (a + 1) n

/-- Bytes written to a byte memory from `a`, rising. -/
def memWrite (d : Nat → Byte) (m : List Host.Cell) (a : Nat) : List Byte → List Host.Cell
  | [] => m
  | b :: bs => memWrite d (Sparse.set (d a) m a b) (a + 1) bs

/-- Bytes [a, a+n) of a byte memory go back to what unlisted bytes read as. -/
def memClear (m : List Host.Cell) (a n : Nat) : List Host.Cell := m.filter (fun c => !(decide (a ≤ c.1) && decide (c.1 < a + n)))

/-- The SRAM holds 96 MB in eight banks (R487). -/
def sramSize : Nat := 0x6000000

/-- Bytes of a bank (R487). -/
def bankSize : Nat := 12582912

/-- The bank of an SRAM offset. -/
def bankOf (a : Nat) : Nat := a / bankSize

/-- What an unlisted SRAM byte reads as (R495, R501); 0 beyond the eight banks. -/
def sramFill (s : State) (a : Nat) : Byte := if a < sramSize then vat s.mem.fill (bankOf a) else 0

/-- A read of the SRAM. -/
def sramRead (s : State) (a n : Nat) : List Byte := memRead (sramFill s) s.sram a n

/-- The contents of bank `b` become `v` in every byte. -/
def bankFill (b : Nat) (v : Byte) (s : State) : State :=
  { s with sram := memClear s.sram (b % 8 * bankSize) bankSize, mem := { s.mem with fill := vset s.mem.fill b v } }

/-- A write to the SRAM; a bank under a destructive test stays at 0 (R501). -/
def sramWrite (a : Nat) (bs : List Byte) (s : State) : State :=
  let m := memWrite (sramFill s) s.sram a bs
  { s with sram := match s.mem.test with
      | some t => memClear m (t.bank * bankSize) bankSize
      | none => m }

/-- State and transition of bank `b` as MEM_BKSTAT shows them: 0 ON, 1 RETENTION, 2 OFF. -/
def bkState (s : State) (b : Nat) : Nat := fld s R.MEM_BKSTAT (2 * b + 1) (2 * b)
def bkBusy (s : State) (b : Nat) : Bool := fld s R.MEM_BKSTAT (16 + b) (16 + b) = 1

/-- Bank `b` is ON; during a transition it counts as not ON (R494, R495). -/
def bankOn (s : State) (b : Nat) : Bool := bkState s b = 0 && !bkBusy s b

/-- Bytes [a, a + n) lie wholly within banks that are ON. -/
def sramOn (s : State) (a n : Nat) : Bool :=
  decide (a + n ≤ sramSize) && (List.range 8).all (fun b =>
    bankOn s b || !(decide (a < (b + 1) * bankSize) && decide (b * bankSize < a + n)))

/-- A read of and a write to the page store; unlisted bytes read 0 (log 3). -/
def pageRead (s : State) (a n : Nat) : List Byte := memRead (fun _ => 0) s.page a n
def pageWrite (a : Nat) (bs : List Byte) (s : State) : State := { s with page := memWrite (fun _ => 0) s.page a bs }

/-! ## Outputs and free values -/

/-- Adds to the output record (log 4). -/
def emit (x : Output) (s : State) : State := { s with out := x :: s.out }

/-- A free value of the spec's and the state with the counter advanced (log 5). -/
def drawFree (s : State) : BitVec 64 × State := (Config.freeValue s.freeCtr, { s with freeCtr := s.freeCtr + 1 })

/-- A request to the host: sent while Bus Master Enable is 1, which takes the link out of L1, else held in order (R513, R514,
R536). -/
def toHost (x : Output) (s : State) : State :=
  if s.hst.bme then emit x { s with hst := { s.hst with l1 := false } }
  else { s with hst := { s.hst with held := s.hst.held ++ [x] } }

/-- A posted write to host memory, No Snoop clear (R480, R513, R536). -/
def hostWrite (a : Nat) (bs : List Byte) (s : State) : State := toHost (.hostWrite a bs false) s

/-- A posted write to host memory (space 0) or the SRAM (space 1) (R466, R527, R531); none to a bank that is not ON (R498). -/
def postWrite (space : Nat) (a : Nat) (bs : List Byte) (s : State) : State :=
  if space = 0 then hostWrite a bs s else if sramOn s a bs.length then sramWrite a bs s else s

/-- The message of a vector: pending while the vector or the function is masked, waiting while Bus Master Enable is 0, else sent
(R513, R524). -/
def sendMsix (v : Fin 64) (s : State) : State :=
  if s.hst.msixMask || fld s (R.MSIX_TABLE v.val 3) 0 0 = 1 then
    setF (R.MSIX_PBA (v.val / 32)) (v.val % 32) (v.val % 32) 1 s
  else toHost (.msix v) s

/-! ## Global state numbers -/

/-- The encoding of GLB_STATE.state; OFF has none and reads 0. -/
def GState.code : GState → Nat
  | .off => 0
  | .reset => 1
  | .imageLoad => 2
  | .selftest => 3
  | .linkTrain => 4
  | .idle => 5
  | .armed => 6
  | .print => 7
  | .stopping => 8
  | .safeHold => 9
  | .shutdown => 10

/-! ## Analog inputs -/

/-- A sample of AIN`i`, mV, goes to ADC_AINn; it is valid from the end of SELFTEST on (R542). -/
def adcPut (i : Nat) (mv : Int) (s : State) : State :=
  if i < 56 then wr (R.ADC_AIN i) (BitVec.ofNat 32 (narrow 16 mv + (if 4 ≤ s.glb.state.code then 65536 else 0))) s else s

/-! ## The journal -/

/-- Number of a record type (R260). -/
def JType.code : JType → Nat
  | .boot => 1
  | .event => 2
  | .torn => 3
  | .thermal => 4
  | .shutdown => 5

/-- THERMAL and SHUTDOWN records rank above HALT; the others by severity (R262). -/
def JRec.rank (r : JRec) : Nat :=
  match r.type with
  | .thermal => 4
  | .shutdown => 4
  | _ => r.sev.code

/-- A record's 64 bytes, its boot count and sequence given (R260). -/
def JRec.bytes (r : JRec) (boot jseq : Word) : List Byte :=
  let body := leBytes 1 r.type.code ++ leBytes 1 r.sev.code ++ leBytes 2 r.code.toNat ++ leBytes 4 boot.toNat ++
    leBytes 8 r.bell ++ leBytes 4 r.a0.toNat ++ leBytes 4 r.a1.toNat ++ leBytes 4 r.a2.toNat ++ leBytes 4 jseq.toNat ++
    leBytes 1 r.gst.code ++ slice r.payload 0 23
  let c := crc32c body
  body ++ leBytes 4 c.toNat ++ leBytes 4 (~~~c).toNat

/-- A record passes its check: CRC-32C and complement (R260, R84). -/
def jValid (b : List Byte) : Bool :=
  let c := crc32c (slice b 0 56)
  fieldAt b 56 4 = c.toNat && fieldAt b 60 4 = (~~~c).toNat

/-- The first queued record starts its programming when none is in progress; it takes the next sequence (R260, R262). -/
def jStart (s : State) : State :=
  match s.jrn.busy, s.jrn.queue with
  | none, r :: rest =>
    let q := s.jrn.jseq + 1
    { s with jrn := { s.jrn with queue := rest, jseq := q, busy := some (r.bytes (rd s R.GLB_BOOTCNT) q) } }
  | _, _ => s

/-- The queue with a record added: THERMAL and SHUTDOWN ahead of the others, each kind in order of arrival (R262). -/
def jInsert (q : List JRec) (r : JRec) : List JRec :=
  if r.rank = 4 then q.takeWhile (fun x => x.rank = 4) ++ r :: q.dropWhile (fun x => x.rank = 4) else q ++ [r]

/-- The lowest rank among the candidates. -/
def jLowest (q : List JRec) (r : JRec) : Nat := q.foldl (fun m x => min m x.rank) r.rank

/-- The queue without its last record of rank `k`, and that record. -/
def jRemoveLast (q : List JRec) (k : Nat) : Option (JRec × List JRec) :=
  match q with
  | [] => none
  | x :: xs =>
    match jRemoveLast xs k with
    | some (d, ys) => some (d, x :: ys)
    | none => if x.rank = k then some (x, xs) else none

/-- A record joins the queue of 16, or a candidate is dropped: the lowest severity, the newest among equals, the arriving one
before a queued one (R262). Answers the dropped record. -/
def jQueue (r : JRec) (s : State) : State × Option JRec :=
  if s.jrn.queue.length < 16 then
    (jStart { s with jrn := { s.jrn with queue := jInsert s.jrn.queue r } }, none)
  else
    let k := jLowest s.jrn.queue r
    let s1 := incF R.NVJ_JDROP 15 0 s
    if r.rank = k then (s1, some r)
    else
      match jRemoveLast s.jrn.queue k with
      | some (d, q) => ({ s1 with jrn := { s1.jrn with queue := jInsert q r } }, some d)
      | none => (s1, some r)

/-! ## Events -/

/-- An event of a kind, raised now in the present global state (R525, R526); `inst` 0xFF for none. -/
def mkEvent (k : EvKind) (inst a0 a1 a2 : Nat) (s : State) : Event :=
  { code := k.code, sev := k.sev, journal := k.journal, inst := BitVec.ofNat 8 inst, bell := s.now,
    a0 := BitVec.ofNat 32 a0, a1 := BitVec.ofNat 32 a1, a2 := BitVec.ofNat 32 a2, gst := s.glb.state, seq := 0 }

/-- Records that an event is raised; its delivery comes with the end of the command (R526). The action that a STOP or HALT
severity asks for is that of `raise`. -/
def logEvent (k : EvKind) (inst a0 a1 a2 : Nat) (s : State) : State :=
  { s with hst := { s.hst with raised := s.hst.raised ++ [mkEvent k inst a0 a1 a2 s] } }

/-- An event's 32 bytes (R525). -/
def Event.bytes (e : Event) : List Byte :=
  leBytes 2 e.code.toNat ++ leBytes 1 e.sev.code ++ leBytes 1 (e.code.toNat / 256) ++ [e.inst] ++ leBytes 3 0 ++
    leBytes 8 e.bell ++ leBytes 4 e.a0.toNat ++ leBytes 4 e.a1.toNat ++ leBytes 4 e.a2.toNat ++ leBytes 4 e.seq.toNat

/-- Entries of the ring, 2^k (R527). -/
def evSize (s : State) : Nat := 2 ^ fld s R.HST_EVCFG 12 8

/-- The ring is enabled and not suspended (R513, R527, R528). -/
def evRunning (s : State) : Bool :=
  s.hst.everEnabled && fld s R.HST_EVCFG 0 0 = 1 && !s.hst.suspended && s.hst.bme

/-- The ring has room: (tail + 1) mod 2^k differs from head (R527). -/
def evRoom (s : State) : Bool :=
  (fld s R.HST_EVTAIL 15 0 + 1) % evSize s ≠ fld s R.HST_EVHEAD 15 0

/-- An event record is written to the ring, and the vector sent where R530 asks for it (R525, R529, R530). -/
def evWrite (e : Event) (s : State) : State :=
  let tail := fld s R.HST_EVTAIL 15 0
  let base := rd64 s R.HST_EVBASE_LO R.HST_EVBASE_HI
  let s1 := postWrite (fld s R.HST_EVCFG 1 1) (base + 32 * tail) e.bytes s
  let s2 := setF R.HST_EVTAIL 15 0 ((tail + 1) % evSize s) s1
  let n := s.hst.sinceVec + 1
  if fld s R.HST_EVCFG 2 2 = 1 ∧ (fld s R.HST_EVCFG 29 28 ≤ e.sev.code ∨ 2 ^ fld s R.HST_EVCFG 22 19 ≤ n) then
    sendMsix ⟨fld s R.HST_EVCFG 18 13 % 64, Nat.mod_lt _ (by decide)⟩ { s2 with hst := { s2.hst with sinceVec := 0 } }
  else { s2 with hst := { s2.hst with sinceVec := n } }

/-- The queue without its oldest INFO event, and that event. -/
def dropOldestInfo (q : List Event) : Option (Event × List Event) :=
  match q with
  | [] => none
  | x :: xs =>
    if x.sev = .info then some (x, xs)
    else
      match dropOldestInfo xs with
      | some (d, ys) => some (d, x :: ys)
      | none => none

/-- OCC key of a flag bit (R522). -/
def occKey (o bit : Nat) : Nat := 32 * o + bit

/-- Hardware sets a W1C flag and counts the setting (R8, R9, R522). -/
def setFlag (o bit : Nat) (s : State) : State :=
  let c := Sparse.get 0 s.hst.occ (occKey o bit)
  let s1 := setF o bit bit 1 s
  { s1 with hst := { s1.hst with occ := Sparse.set 0 s1.hst.occ (occKey o bit) (if c = 0xFFFF then c else c + 1) } }

/-- One event is discarded: HST_EVDROP counts it, the lost range grows, and the first discard since room last returned sets
HST_FLAG.ev_lost (R527). -/
def evLose (e : Event) (s : State) : State :=
  let s1 := incF R.HST_EVDROP 15 0 s
  match s1.hst.lost with
  | some (n, f, _) => { s1 with hst := { s1.hst with lost := some (n + 1, f, e.seq) } }
  | none => setFlag R.HST_FLAG 1 { s1 with hst := { s1.hst with lost := some (1, e.seq, e.seq) } }

/-- An event joins the internal queue of 64, or one is discarded (R527). -/
def evQueue (e : Event) (s : State) : State :=
  if s.hst.queue.length < 64 then { s with hst := { s.hst with queue := s.hst.queue ++ [e] } }
  else
    match dropOldestInfo s.hst.queue with
    | some (d, q) => evLose d { s with hst := { s.hst with queue := q ++ [e] } }
    | none => evLose e s

/-- The ring, for the journal's rule: an event of severity WARN or above is journalled while the ring is not enabled or is
suspended, or the queue holds 64 events (R261, R528). -/
def evUnseen (s : State) : Bool := !evRunning s || s.hst.queue.length = 64

/-- The journal record of an event (R260, R261); a torn line's is of type TORN (R144). -/
def Event.jrec (e : Event) : JRec :=
  { type := if e.code = 0x0402 then .torn else .event, sev := e.sev, code := e.code, bell := e.bell, a0 := e.a0, a1 := e.a1,
    a2 := e.a2, gst := e.gst, payload := [] }

/-- The most recent events of severity WARN or above, newest first, 16 of them (R532); what the next STAT reports (R444). -/
def noteRecent (e : Event) (s : State) : State :=
  if e.sev = .info then s
  else { s with hst := { s.hst with recent := (e :: s.hst.recent).take 16 },
                cas := { s.cas with sev := max s.cas.sev e.sev.code, code := e.code } }

/-- One event takes its sequence number and reaches the ring or the queue (R526, R527). -/
def evSend (e : Event) (s : State) : State :=
  if !s.hst.everEnabled then s
  else if evRunning s && s.hst.queue.isEmpty && evRoom s then evWrite e s
  else evQueue e s

/-- The record type's number in THM_JOURNAL_DROP, as an event (R262). -/
def dropEvent (d : JRec) (s : State) : Event :=
  mkEvent Ev.THM_JOURNAL_DROP 0xFF d.type.code d.code.toNat (fld s R.NVJ_JDROP 15 0) s

/-- A record joins the journal's queue; the event of a drop, if one is raised (R262). -/
def jAdd (r : JRec) (s : State) : State × Option Event :=
  match jQueue r s with
  | (s1, none) => (s1, none)
  | (s1, some d) => if d.code = Ev.THM_JOURNAL_DROP.code then (s1, none) else (s1, some (dropEvent d s1))

/-- One event is delivered: sequence, ring, journal (R261, R526, R527). Answers the event of a journal drop, if one is raised. -/
def evDeliver (e : Event) (s : State) : State × Option Event :=
  let e1 := { e with seq := rd s R.HST_EVSEQ }
  let unseen := evUnseen s
  let s1 := evSend e1 (noteRecent e1 (wr R.HST_EVSEQ (e1.seq + 1) s))
  if e.sev = .halt || e.journal || (e.sev ≠ .info && unseen) then jAdd e1.jrec s1 else (s1, none)

/-- Events in ascending code order, and within one code in ascending instance order (R526): insertion. -/
def evInsert (e : Event) : List Event → List Event
  | [] => [e]
  | x :: xs => if e.code.toNat < x.code.toNat ∨ (e.code = x.code ∧ e.inst.toNat < x.inst.toNat) then e :: x :: xs else x :: evInsert e xs

/-- Events in the order in which one cycle's events take their sequence numbers (R526). -/
def evSort (l : List Event) : List Event := l.foldl (fun acc e => evInsert e acc) []

/-- Delivers events in order; the event of a journal drop takes its place among those still to come (R262, R526). `fuel` bounds the
deliveries. -/
def evDeliverAll : Nat → List Event → State → State
  | 0, _, s => s
  | _ + 1, [], s => s
  | n + 1, e :: es, s =>
    match evDeliver e s with
    | (s1, none) => evDeliverAll n es s1
    | (s1, some d) => evDeliverAll n (evInsert d es) s1

/-- The events that the command has raised are delivered (R526). Of those that a STAT has already reported the severity stands no longer for
the next one (R444). -/
def flush (s : State) : State :=
  let l := evSort s.hst.raised
  let sev := (s.hst.raised.drop s.cas.noted).foldl (fun m e => max m e.sev.code) s.cas.sev
  let s1 := evDeliverAll (32 * l.length + 32) l { s with hst := { s.hst with raised := [] }, cas := { s.cas with noted := 0 }, sigOver := [] }
  if s.cas.noted = 0 then s1 else { s1 with cas := { s1.cas with sev := sev } }

/-- The end of a command: its events are delivered, and the state is the next state. -/
def finish (s : State) : Host.Outcome State Fault Refusal := .next (flush s)

/-- A journal record with no event of its own; a drop raises THM_JOURNAL_DROP (R261, R262). -/
def jRecord (r : JRec) (s : State) : State :=
  match jAdd r s with
  | (s1, none) => s1
  | (s1, some d) => { s1 with hst := { s1.hst with raised := s1.hst.raised ++ [d] } }

/-- HST_EVENT_LOST is also journalled while the internal queue holds 64 events (R261, R528). -/
def lostRecord (e : Event) (s : State) : State := if s.hst.queue.length = 64 then jRecord e.jrec s else s

/-- Queued events go to the ring while it has room; HST_EVENT_LOST goes ahead of them when some were lost (R527). -/
def evDrain : Nat → State → State
  | 0, s => s
  | n + 1, s =>
    if evRunning s && evRoom s then
      match s.hst.lost, s.hst.queue with
      | some (c, f, l), _ =>
        let e := { mkEvent Ev.HST_EVENT_LOST 0xFF c f.toNat l.toNat s with seq := rd s R.HST_EVSEQ }
        evDrain n (evWrite e (lostRecord e (noteRecent e (wr R.HST_EVSEQ (e.seq + 1) { s with hst := { s.hst with lost := none } }))))
      | none, e :: q => evDrain n (evWrite e { s with hst := { s.hst with queue := q } })
      | none, [] => s
    else s

end Sys2Proof.Machine
end

