-- ==== Sys2Proof/Machine/Image.lean ====
section
/-!
DEFINITION. The fields of the alloy image in force, by the section tables of spec/02_alloy_image.md (R44 to R54).
-/
namespace Sys2Proof.Machine

/-- The value of a section by type; empty when the image has none. -/
def Image.sec (i : Image) (t : Nat) : List Byte :=
  match i.sections.find? (fun kv => kv.1 = t) with
  | some kv => kv.2
  | none => []

/-- A field of `n` bytes at offset `o` of section `t` of the image in force; `d` when no image is in force. -/
def imgF (s : State) (t o n d : Nat) : Nat :=
  match s.ldr.image with
  | some i => fieldAt (i.sec t) o n
  | none => d

/-! ## TOPOLOGY -/

/-- The head port of dot pipe `p`; 0xFF unbound (R15, R18). -/
def pipePort (s : State) (p : Nat) : Nat := imgF s 1 (16 * p) 1 0xFF

/-- Dot pipe `p` is bound. -/
def pipeBound (s : State) (p : Nat) : Bool := pipePort s p < 16

/-- The line-trigger generator of dot pipe `p`; 0xFF unbound (R16). -/
def pipeLt (s : State) (p : Nat) : Nat := imgF s 1 (16 * p + 1) 1 0xFF

/-- Row-pair flag and reverse column order of dot pipe `p`. -/
def pipePairs (s : State) (p : Nat) : Bool := imgF s 1 (16 * p + 3) 1 0 % 2 = 1
def pipeReverse (s : State) (p : Nat) : Bool := imgF s 1 (16 * p + 3) 1 0 / 2 % 2 = 1

/-- The plane of row `n` of dot pipe `p`; 0xF for an absent row. -/
def rowPlane (s : State) (p n : Nat) : Nat := nibble (imgF s 1 (16 * p + 4) 4 0xFFFFFFFF) n

/-- Row `n` of dot pipe `p` is present. -/
def rowPresent (s : State) (p n : Nat) : Bool := pipeBound s p && rowPlane s p n ≠ 0xF

/-- The present rows of dot pipe `p`, rising. -/
def rowsOf (s : State) (p : Nat) : List Nat := those 8 (rowPresent s p)

/-- The partner of row `n` of dot pipe `p`; 0xF for none. -/
def rowPair (s : State) (p n : Nat) : Nat := nibble (imgF s 1 (16 * p + 8) 4 0xFFFFFFFF) n

/-- The dot pipe bound to head port `h`, if any (R15). -/
def portPipe (s : State) (h : Nat) : Option Nat := (those 16 (fun p => pipePort s p = h)).head?

/-- Head port `h` is bound. -/
def portBound (s : State) (h : Nat) : Bool := (portPipe s h).isSome

/-- The dot pipes of line-trigger generator `g`, rising. -/
def ltPipes (s : State) (g : Nat) : List Nat := those 16 (fun p => pipeBound s p && pipeLt s p = g)

/-- Source of line-trigger generator `g`: 0 to 7 PCn, 0x10 the fixed line clock, 0xFF unbound (R17). -/
def ltSource (s : State) (g : Nat) : Nat := imgF s 1 (0x100 + 4 * g) 1 0xFF

/-- Line-trigger generator `g` is bound. -/
def ltBound (s : State) (g : Nat) : Bool := ltSource s g ≠ 0xFF

/-- Mode of line-trigger generator `g`: 0 predictive, 1 reactive, 2 fixed clock. -/
def ltMode (s : State) (g : Nat) : Nat := imgF s 1 (0x100 + 4 * g + 1) 1 0

/-- Supervisor channel of line-trigger generator `g`; 0xFF none. -/
def ltSup (s : State) (g : Nat) : Nat := imgF s 1 (0x100 + 4 * g + 2) 1 0xFF

/-- print_mode is scanning. -/
def scanning (s : State) : Bool := imgF s 1 0x140 1 0 = 1

/-- Planes. -/
def planes (s : State) : Nat := imgF s 1 0x141 1 0

/-- Transport kind (0 none, 1 motor channel, 2 stepper axis), index and position channel. -/
def trKind (s : State) : Nat := imgF s 1 0x142 1 0
def trIndex (s : State) : Nat := imgF s 1 0x143 1 0
def trPc (s : State) : Nat := imgF s 1 0x144 1 0xFF

/-- Carriage kind, index and position channel. -/
def caKind (s : State) : Nat := imgF s 1 0x145 1 0
def caIndex (s : State) : Nat := imgF s 1 0x146 1 0
def caPc (s : State) : Nat := imgF s 1 0x147 1 0xFF

/-! ## SCHED and CLOCKS -/

/-- SCHED.mode is BELL. -/
def bellMode (s : State) : Bool := imgF s 2 0 1 0 = 1

/-- SCHED.overlap. -/
def overlapOk (s : State) : Bool := imgF s 2 1 1 0 = 1

/-- The fire group fired in slot `n` in BELL mode. -/
def bellOrder (s : State) (n : Nat) : Nat := nibble (imgF s 2 4 8 0) n

/-- Priority of ledger class `c`, 0 highest. -/
def ledgerPrio (s : State) (c : Nat) : Nat := imgF s 2 (0x0C + c) 1 0

/-- BELL line period in ticks. -/
def bellPeriod (s : State) : Nat := imgF s 2 0x94 4 0

/-- Period of the fixed line clock in ticks. -/
def lineClockPeriod (s : State) : Nat := imgF s 3 0 4 0

/-- CLOCKS.avs: 1 fixes the core voltage. -/
def avsFixed (s : State) : Bool := imgF s 3 6 1 0 = 1

/-! ## MEMORY and XMC -/

/-- State MEMORY gives bank `b`: 0 ON, 1 RETENTION, 2 OFF. -/
def bankState (s : State) (b : Nat) : Nat := imgF s 4 b 1 2

/-- march_banks permits bank `b`. -/
def marchBank (s : State) (b : Nat) : Bool := bitOf (imgF s 4 8 1 0) b

/-- Excluded regions: start and length. -/
def excluded (s : State) : List (Nat × Nat) :=
  (List.range (imgF s 4 0x0A 2 0)).map (fun i => (imgF s 4 (0x0C + 8 * i) 4 0, imgF s 4 (0x10 + 8 * i) 4 0))

/-- Page-store channels, capacity in bytes, rate, ECC. -/
def xmcChannels (s : State) : Nat := imgF s 5 0 1 0
def xmcCapacity (s : State) : Nat := imgF s 5 1 1 0 * 2 ^ 30
def xmcRate (s : State) : Nat := imgF s 5 2 2 0
def xmcEcc (s : State) : Bool := imgF s 5 4 1 0 = 1

/-! ## HEADS, POSITION, AXES, MOTORS, CASCADE, PINS -/

/-- HEADS of port `h`: vendor, model, min_rank, presence, lane_map. -/
def headVendor (s : State) (h : Nat) : Nat := imgF s 6 (8 * h) 2 0
def headModel (s : State) (h : Nat) : Nat := imgF s 6 (8 * h + 2) 2 0
def headMinRank (s : State) (h : Nat) : Nat := imgF s 6 (8 * h + 4) 1 0
def headPresence (s : State) (h : Nat) : Nat := imgF s 6 (8 * h + 5) 1 0

/-- POSITION of channel `n`: input, count reversal, index inversion, min_edge, deadband, sc_gain. -/
def pcInput (s : State) (n : Nat) : Nat := imgF s 7 (8 * n) 1 0
def pcReverse (s : State) (n : Nat) : Bool := bitOf (imgF s 7 (8 * n + 1) 1 0) 0
def pcIndexInv (s : State) (n : Nat) : Bool := bitOf (imgF s 7 (8 * n + 1) 1 0) 1
def pcMinEdge (s : State) (n : Nat) : Nat := imgF s 7 (8 * n + 2) 2 8
def pcDeadband (s : State) (n : Nat) : Nat := imgF s 7 (8 * n + 4) 1 2
def pcGain (s : State) (n : Nat) : Nat := imgF s 7 (8 * n + 5) 1 0

/-- The channel is of the sin/cos kind; has an index. -/
def pcSinCos (s : State) (n : Nat) : Bool := pcInput s n = 3 || pcInput s n = 4
def pcHasIndex (s : State) (n : Nat) : Bool := pcInput s n = 2 || pcInput s n = 4

/-- Emulated encoder `n`: source, num, den. -/
def eeSource (s : State) (n : Nat) : Nat := imgF s 7 (0x40 + 8 * n) 1 0xFF
def eeNum (s : State) (n : Nat) : Nat := imgF s 7 (0x42 + 8 * n) 2 1
def eeDen (s : State) (n : Nat) : Nat := imgF s 7 (0x44 + 8 * n) 2 1

/-- AXES of axis `n`. -/
def axUsed (s : State) (n : Nat) : Bool := imgF s 8 (8 * n) 1 0 = 1
def axEncPc (s : State) (n : Nat) : Nat := imgF s 8 (8 * n + 1) 1 0xFF
def axHoldOff (s : State) (n : Nat) : Bool := imgF s 8 (8 * n + 2) 1 0 = 1
def axUserTable (s : State) (n : Nat) : Bool := imgF s 8 (8 * n + 3) 1 0 = 1
def axInputs (s : State) (n : Nat) : Nat := imgF s 8 (8 * n + 4) 1 0

/-- MOTORS of channel `n`. -/
def moMode (s : State) (n : Nat) : Nat := imgF s 9 (16 * n) 1 0
def moEncPc (s : State) (n : Nat) : Nat := imgF s 9 (16 * n + 1) 1 0xFF
def moPoles (s : State) (n : Nat) : Nat := imgF s 9 (16 * n + 2) 1 1
def moBrake (s : State) (n : Nat) : Bool := imgF s 9 (16 * n + 3) 1 0 = 1
def moPwmKhz (s : State) (n : Nat) : Nat := imgF s 9 (16 * n + 4) 2 8
def moDeadtime (s : State) (n : Nat) : Nat := imgF s 9 (16 * n + 6) 1 4
def moShunt (s : State) (n : Nat) : Nat := imgF s 9 (16 * n + 7) 1 0
def moSafeRpm (s : State) (n : Nat) : Nat := imgF s 9 (16 * n + 8) 2 0
def moBaseRpm (s : State) (n : Nat) : Nat := imgF s 9 (16 * n + 10) 2 0

/-- CASCADE: role (0 standalone, 1 campanile, 2 member), position, length, topology. -/
def casRole (s : State) : Nat := imgF s 10 0 1 0
def casPosition (s : State) : Nat := imgF s 10 1 1 0xFF
def casLength (s : State) : Nat := imgF s 10 2 1 1
def casTopology (s : State) : Nat := imgF s 10 3 1 0

/-- The PINS entry of a pin identifier: function and attributes; the primary function when no entry names it (R564). -/
def pinEntry (s : State) (id : Nat) : Nat × Nat :=
  match (those (imgF s 11 0 2 0) (fun i => imgF s 11 (4 + 4 * i) 2 0 = id)).head? with
  | some i => (imgF s 11 (6 + 4 * i) 1 0, imgF s 11 (7 + 4 * i) 1 0)
  | none => (0, 0)

/-- The effective hash in force; all zero without an image (R72). -/
def effHash (s : State) : List Byte :=
  match s.ldr.image with
  | some i => i.effHash
  | none => List.replicate 32 0

end Sys2Proof.Machine
end

