-- ==== Sys2Proof/Machine/Ledger.lean ====
section
/-!
DEFINITION. Requests to the power ledger as its users make them (spec/07_thermal_energy.md R252 to R254).
-/
namespace Sys2Proof.Machine

/-- A request to the ledger: denied at once when it exceeds lbudget − printres, else it waits (R254). Answers whether it waits. -/
def ledgerAsk (cls inst mw : Nat) (s : State) : State × Bool :=
  if (rd s R.THM_LBUDGET).toNat < mw + (rd s R.THM_PRINTRES).toNat then
    (logEvent Ev.THM_LEDGER_DENY cls cls inst mw s, false)
  else ({ s with thmg := { s.thmg with waiting := s.thmg.waiting ++ [⟨cls, inst, mw, false⟩] } }, true)

/-- A grant, or a waiting request, of an instance ends. -/
def ledgerRelease (cls inst : Nat) (s : State) : State :=
  let keep (r : Req) : Bool := !(r.cls = cls && r.inst = inst)
  { s with thmg := { s.thmg with grants := s.thmg.grants.filter keep, waiting := s.thmg.waiting.filter keep } }

/-- The request is granted. -/
def granted (s : State) (cls inst : Nat) : Bool := s.thmg.grants.any (fun r => r.cls = cls && r.inst = inst)

/-- The request waits. -/
def waits (s : State) (cls inst : Nat) : Bool := s.thmg.waiting.any (fun r => r.cls = cls && r.inst = inst)

end Sys2Proof.Machine
end

