-- ==== Sys2Proof/Machine/Flags.lean ====
section
/-!
DEFINITION. W1C flags and occurrence counts (spec/00_scope.md R8, R9; spec/17_host_control.md R522, R523).
-/
namespace Sys2Proof.Machine

/-- Software's write of ones to W1C flags: the flags that stand 1 in `v` read 0; no occurrence count changes (R8, R523). -/
def clearFlags (o : Nat) (v : Word) (s : State) : State :=
  let w1c := ((regDesc o).map RegDesc.w1c).getD 0
  wr o (rd s o &&& ~~~(v &&& w1c)) s

/-- The selected bit is a W1C flag (HST_OCCVAL.valid, R522). -/
def isW1c (o bit : Nat) : Bool := ((regDesc o).map (fun d => bitOf d.w1c.toNat bit)).getD false

/-- The occurrence count of a flag (R522). -/
def occ (s : State) (o bit : Nat) : Nat := (Sparse.get 0 s.hst.occ (occKey o bit)).toNat

end Sys2Proof.Machine
end

