-- ==== Sys2Proof/Machine/Host.lean ====
section
/-!
DEFINITION. The host interface: PCI Express function, occurrence counts, MSI-X, the event ring and early access
(spec/17_host_control.md R511 to R530; spec/03_bring_up.md R98 to R101).
-/
namespace Sys2Proof.Machine

/-! ## Windows and access errors -/

/-- The global state as a number, for comparisons "IDLE and later". -/
def gnum (s : State) : Nat := s.glb.state.code

/-- The status of an activity as GLB_BRUSTAT encodes it. -/
def Act.code : Act → Nat
  | .pending => 0
  | .running => 1
  | .done => 2
  | .failed => 3
  | .skipped => 4

/-- A window is open for an access at `off` (R66, R100). BAR 0, 2 or 4; no other BAR exists (R512). -/
def windowOpen (s : State) (bar off : Nat) (write : Bool) : Bool :=
  match s.glb.state with
  | .off => false
  | .reset => bar = 0 && !write && (off = R.GLB_STATE || off = R.GLB_RSTCAUSE)
  | .imageLoad => bar = 0 && off < 0x020000
  | .selftest => bar = 0 && off < 0x800000
  | .linkTrain => bar = 0 || bar = 2 || (bar = 4 && s.bru.xmc = .done)
  | _ => bar = 0 || bar = 2 || (bar = 4 && xmcChannels s ≠ 0)

/-- Data returned to a read of BAR `bar`. -/
def respond (bar off : Nat) (bs : List Byte) (s : State) : State := emit (.readData bar off bs) s

/-- An access to a window that is not open: a read completes with data 0, a write is discarded; the first one after each state
entry raises BRU_EARLY_ACCESS (R100). In OFF nothing answers. -/
def earlyAccess (bar off : Nat) (write : Bool) (n : Nat) (s : State) : State :=
  let s1 := if write then s else respond bar off (List.replicate n 0) s
  if s.glb.state = .off then s
  else if s1.glb.earlySeen then s1
  else logEvent Ev.BRU_EARLY_ACCESS 0xFF bar off (if write then 2 else 1) { s1 with glb := { s1.glb with earlySeen := true } }

/-- An access through a BAR takes the link out of L1 (R514). -/
def hostAccess (s : State) : State := { s with hst := { s.hst with l1 := false } }

/-- A host write to BAR0 at `off`: it has its effect when the window is open and is discarded otherwise (R100). -/
def viaBar0 (off : Nat) (f : State → State) (s : State) : State :=
  if windowOpen s 0 off true then f (hostAccess s) else earlyAccess 0 off true 0 (hostAccess s)

/-- A command whose block's table gives it an answer in RESET and IMAGE_LOAD has that answer there; later its window is looked at (R263, R341,
R342, R447 beside R100; DEDUCED, log 6). -/
def viaTable (off : Nat) (f : State → State) (s : State) : State :=
  if s.glb.state = .reset ∨ s.glb.state = .imageLoad then f s else viaBar0 off f s

/-- A bad access: HST_FLAG.access_bad and HST_ACCESS_BAD; kind 1 read, 2 write, 3 locked (R515, R539). -/
def accessBad (off size kind : Nat) (s : State) : State :=
  logEvent Ev.HST_ACCESS_BAD 0xFF off size kind (setFlag R.HST_FLAG 3 s)

/-- EARLY_ACCESS (R100): an access to a window that is not yet open; an access to an open window is none. -/
def execEarlyAccess (bar : Fin 8) (offset : Nat) (write : Bool) (s : State) : Host.Outcome State Fault Refusal :=
  finish (if windowOpen s bar.val offset write then s else earlyAccess bar.val offset write 4 (hostAccess s))

/-- HST_ACCESS_BAD (R515, R541): an access of an unsupported form or to no register. -/
def execHstAccessBad (offset : BitVec 24) (size : Nat) (write : Bool) (s : State) : Host.Outcome State Fault Refusal :=
  finish (if windowOpen s 0 offset.toNat write then
      accessBad offset.toNat size (if write then 2 else 1)
        (if write then hostAccess s else respond 0 offset.toNat (List.replicate size 0) (hostAccess s))
    else earlyAccess 0 offset.toNat write size (hostAccess s))

/-! ## Bus Master Enable, AER, L1, PCIE_PERST_N -/

/-- Requests held while Bus Master Enable was 0 go out in order (R513). -/
def sendHeld (s : State) : State :=
  s.hst.held.foldl (fun s x => emit x s)
    { s with hst := { s.hst with held := [], l1 := false }, dma := s.dma.map (fun d => { d with hpend := false }) }

/-- How the device answers a configuration request (R98): with Retry Status until its configuration space is ready, not at all while
PCIE_PERST_N or PORST_N is low. -/
inductive CfgReply where
  | silent | retry | success
  deriving DecidableEq, Repr
def cfgReply (s : State) : CfgReply :=
  if s.glb.perst || s.glb.porst || s.glb.state = .off then .silent else if s.hst.cfgReady then .success else .retry

/-- The identity that configuration space holds whatever the image: class code, functions, Max_Payload_Size Supported in bytes (R98,
R511). -/
def cfgClass : Nat := 0x118000
def cfgFunctions : Nat := 1
def cfgMaxPayload : Nat := 512

/-- BME_CLEAR (R513): a configuration write clears Bus Master Enable. -/
def execBmeClear (s : State) : Host.Outcome State Fault Refusal :=
  finish (if s.hst.bme then
      logEvent Ev.HST_BME_OFF 0xFF (gnum s) 0 0 (setFlag R.HST_FLAG 2 { s with hst := { s.hst with bme := false } })
    else s)

/-- AER_ERROR (R514): a logged error raises HST_PCIE_ERROR, at most once in any 2^20 ticks. -/
def execAerError (status header : Word) (uncorrectable : Bool) (s : State) : Host.Outcome State Fault Refusal :=
  let quiet := match s.hst.lastAer with
    | some t => decide (s.now < t + 2 ^ 20)
    | none => false
  finish (if quiet then s
    else logEvent Ev.HST_PCIE_ERROR 0xFF status.toNat header.toNat (if uncorrectable then 2 else 1)
      { s with hst := { s.hst with lastAer := some s.now } })

/-- PCIE_LINK_UP (R98, R511): training completes at a speed and width and the configuration space is ready. The function's Command register
comes out of reset with Bus Master Enable 0. The table has no row for the host's configuration of the function: Max_Read_Request_Size and
Extended Tag Field Enable come with this command, as the host sets them before Bus Master Enable (DESIGN CHOICE, log 78). -/
def execPcieLinkUp (speed : BitVec 4) (link : LinkConfig) (s : State) : Host.Outcome State Fault Refusal :=
  finish (if s.glb.porst || s.glb.perst || s.glb.state = .off then s
    else { s with hst := { s.hst with linkSpeed := speed, linkWidth := link.width, cfgReady := true,
                                      maxRead := 128 * 2 ^ link.maxRead.val, extTag := link.extTag } })

/-- PCIE_PERST_RELEASE (R98): the PCIe-side resets end; link training begins, which PCIE_LINK_UP completes. -/
def execPciePerstRelease (s : State) : Host.Outcome State Fault Refusal :=
  finish { s with glb := { s.glb with perst := false } }

/-! ## MSI-X -/

/-- A vector whose pending bit is set and that nothing masks is sent (R524). -/
def msixPump (v : Nat) (s : State) : State :=
  if fld s (R.MSIX_PBA (v / 32)) (v % 32) (v % 32) = 1 ∧ !s.hst.msixMask ∧ fld s (R.MSIX_TABLE v 3) 0 0 = 0 then
    toHost (.msix ⟨v % 64, Nat.mod_lt _ (by decide)⟩) (setF (R.MSIX_PBA (v / 32)) (v % 32) (v % 32) 0 s)
  else s

/-- MSIX_UNMASK (R524): a vector, or the function, is unmasked; pending messages that nothing masks any more are sent. -/
def execMsixUnmask (v : Option (Fin 64)) (s : State) : Host.Outcome State Fault Refusal :=
  finish (match v with
    | some n => viaBar0 (R.MSIX_TABLE n.val 3) (fun s => msixPump n.val (setF (R.MSIX_TABLE n.val 3) 0 0 0 s)) s
    | none => forEach (List.range 64) msixPump { s with hst := { s.hst with msixMask := false } })

/-! ## Occurrence counts -/

/-- Bits [23:0] of HST_OCCSEL with [1:0] ignored, and the bit number (R522). -/
def occSelOff (s : State) : Nat := fld s R.HST_OCCSEL 23 2 * 4
def occSelBit (s : State) : Nat := fld s R.HST_OCCSEL 28 24

/-- OCC_CLEAR_SELECTED (R523). -/
def occClearSelected (s : State) : State :=
  { s with hst := { s.hst with occ := Sparse.set 0 s.hst.occ (occKey (occSelOff s) (occSelBit s)) 0 } }

/-- OCC_CLEAR_ALL (R523). -/
def occClearAll (s : State) : State := { s with hst := { s.hst with occ := [] } }

/-- A write of HST_OCCCLR: 1 clears the selected count, 2 every count, other values have no effect (R523). -/
def occClrWrite (v : Nat) (s : State) : State :=
  if v = 1 then occClearSelected s else if v = 2 then occClearAll s else s

/-- OCC_CLEAR_SELECTED (R523): an HST_OCCCLR write of 1. -/
def execOccClearSelected (s : State) : Host.Outcome State Fault Refusal := finish (viaBar0 R.HST_OCCCLR (occClrWrite 1) s)

/-- OCC_CLEAR_ALL (R523): an HST_OCCCLR write of 2. -/
def execOccClearAll (s : State) : Host.Outcome State Fault Refusal := finish (viaBar0 R.HST_OCCCLR (occClrWrite 2) s)

/-- INVAR_LOCK (R521): a write of 1 to HST_INVCTL.lock. -/
def execInvarLock (s : State) : Host.Outcome State Fault Refusal := finish (viaBar0 R.HST_INVCTL (setF R.HST_INVCTL 0 0 1) s)

/-! ## The event ring -/

/-- A write of HST_EVHEAD: entries are freed, and lost and queued events follow (R527). -/
def evHeadWrite (v : Nat) (s : State) : State := evDrain 128 (setF R.HST_EVHEAD 15 0 v s)

/-- The value of k that a write gives: 8 to 16, other values take the nearest limit (R530). -/
def clampK (k : Nat) : Nat := if k < 8 then 8 else if 16 < k then 16 else k

/-- A write of HST_EVCFG (R527, R528, R530). While en is 1, k and space keep their values and a different one raises
HST_ACCESS_BAD; enabling the ring sets head and tail to 0 and ends its suspension. -/
def evCfgWrite (v : Word) (s : State) : State :=
  let k := clampK (bits v 12 8)
  let w := putBits (v &&& regStored R.HST_EVCFG) 12 8 k
  if fld s R.HST_EVCFG 0 0 = 1 then
    let keep := putBits (putBits w 12 8 (fld s R.HST_EVCFG 12 8)) 1 1 (fld s R.HST_EVCFG 1 1)
    let s1 := wr R.HST_EVCFG keep s
    if k ≠ fld s R.HST_EVCFG 12 8 ∨ bits v 1 1 ≠ fld s R.HST_EVCFG 1 1 then accessBad R.HST_EVCFG 4 3 s1 else s1
  else if bits v 0 0 = 1 then
    let s1 := setF R.HST_EVTAIL 15 0 0 (setF R.HST_EVHEAD 15 0 0 (wr R.HST_EVCFG w s))
    evDrain 128 { s1 with hst := { s1.hst with everEnabled := true, suspended := false, sinceVec := 0 } }
  else wr R.HST_EVCFG w s

/-- EVHEAD_WRITE (R527). -/
def execEvheadWrite (head : BitVec 16) (s : State) : Host.Outcome State Fault Refusal :=
  finish (viaBar0 R.HST_EVHEAD (evHeadWrite head.toNat) s)

/-- EV_IRQ_TIMER (R530): a record has waited unsignalled for 2^tmo ticks. -/
def execEvIrqTimer (s : State) : Host.Outcome State Fault Refusal :=
  finish (if fld s R.HST_EVCFG 2 2 = 1 ∧ s.hst.sinceVec ≠ 0 then
      sendMsix ⟨fld s R.HST_EVCFG 18 13 % 64, Nat.mod_lt _ (by decide)⟩ { s with hst := { s.hst with sinceVec := 0 } }
    else s)

/-! ## The journal -/

/-- The record in programming is complete: it takes the next physical place in ring order (R260, R262). -/
def jFinish (s : State) : State :=
  match s.jrn.busy with
  | some b =>
    { s with jrn := { s.jrn with records := Sparse.set [] s.jrn.records s.jrn.next b, newest := s.jrn.next,
                                 next := (s.jrn.next + 1) % 2048, busy := none } }
  | none => s

end Sys2Proof.Machine
end

