-- ==== Sys2Proof/Machine/Head.lean ====
section
/-!
DEFINITION. Head memory, the frames and ordered sets sent to a head, HPn_EN, cancelled and torn lines, pipe and generator state
changes, and what the print path does on entry to SAFE_HOLD or SHUTDOWN (spec/06_romor_head_link.md R183 to R207;
spec/05_firing.md R143, R144, R163, R168; spec/04_dot_data.md R136, R137). Also the DMA signals (spec/15_dma.md R463).
-/
namespace Sys2Proof.Machine

/-! ## DMA signals -/

/-- The count of a signal (DMA_SIGCNT). -/
def sigCount (s : State) (sg : Nat) : Nat := fld s (R.DMA_SIGCNT (sg / 4)) (8 * (sg % 4) + 7) (8 * (sg % 4))

/-- A signal's count takes a value; below 255 its saturation event may be raised again (R463). -/
def sigPut (sg v : Nat) (s : State) : State :=
  let s1 := setF (R.DMA_SIGCNT (sg / 4)) (8 * (sg % 4) + 7) (8 * (sg % 4)) v s
  if v < 255 then { s1 with sigSat := s1.sigSat.filter (fun x => x ≠ sg) } else s1

/-- DMA_SIGSAT counts a signal that the raises of a cycle saturate once for that cycle, the command (R463). -/
def sigSatCount (sg : Nat) (s : State) : State :=
  if s.sigOver.contains sg then s else incF R.DMA_SIGSAT 15 0 { s with sigOver := sg :: s.sigOver }

/-- The count of signal `sg` rises by `n`, saturating at 255 (R463). -/
def sigAdd (sg n : Nat) (s : State) : State :=
  let c := sigCount s sg
  if c + n ≤ 255 then sigPut sg (c + n) s
  else
    let s1 := sigSatCount sg (sigPut sg 255 s)
    if s1.sigSat.contains sg then s1
    else logEvent Ev.DMA_SIGNAL_SAT sg sg 0 0 { s1 with sigSat := sg :: s1.sigSat }

/-- Bit 4 of lane_map_cu or lane_map_cd swaps the lanes of port CU or CD (R422). -/
def casSwap (s : State) (port : Nat) : Bool := bitOf (imgF s 10 (4 + port) 1 0) 4

/-- An ordered set leaves on both lanes of a cascade port: COM, the control symbol of its kind, and the data of lane 0 and of lane 1 (R422,
R424, R425). -/
def casEmitSet (port : Nat) (name : String) (b0 b1 : List Byte) (s : State) : State :=
  let sy (b : List Byte) : List Sym := .ctl "COM" :: .ctl name :: b.map .dat
  emit (if casSwap s port then .casSet port (sy b1) (sy b0) else .casSet port (sy b0) (sy b1)) s

/-- A chain trigger set leaves on the ports that are ACTIVE, with its mask byte (R425, R446). -/
def sendTrg (mask : Nat) (s : State) : State :=
  let bs := leBytes 1 mask
  let s1 := if s.cas.cu.st = .active then casEmitSet 0 "TRG" bs bs s else s
  if s.cas.cd.st = .active then casEmitSet 1 "TRG" bs bs s1 else s1

/-- The chain triggers that a raise of signal `sg` sends, without those of `sent` (R446). -/
def trgOf (s : State) (sg sent : Nat) : List Nat :=
  if casRole s = 0 then []
  else those 8 (fun k => fld s (R.CAS_TRIG k) 7 7 = 1 && fld s (R.CAS_TRIG k) 5 0 = sg && !bitOf sent k)

/-- A raise of a signal with the chain triggers that follow from it; each trigger is sent at most once in one command (log 38). -/
def raiseTrg : Nat → Nat → Nat → Nat → State → State
  | 0, _, sg, n, s => sigAdd sg n s
  | fuel + 1, sent, sg, n, s =>
    let ks := trgOf s sg sent
    let s1 := sigAdd sg n s
    if ks.isEmpty then s1
    else
      let mask := maskOf 8 (fun k => ks.contains k)
      forEach (ks.filter (fun k => fld s (R.CAS_TRIG k) 15 15 = 1))
        (fun k s => raiseTrg fuel (sent ||| mask) (fld s (R.CAS_TRIG k) 13 8) 1 s) (sendTrg mask s1)

/-- A raise of signal `sg` by `n`, saturating at 255 (R446, R463). -/
def raiseSig (sg n : Nat) (s : State) : State := raiseTrg 8 0 sg n s

/-! ## Head ports and head memory -/

/-- The head port `p`. -/
def hp (s : State) (p : Nat) : Hlp := vat s.hlp p

/-- The state with head port `p` changed. -/
def modHlp (p : Nat) (f : Hlp → Hlp) (s : State) : State := { s with hlp := vmod s.hlp p f }

/-- Port `p` is ACTIVE. -/
def active (s : State) (p : Nat) : Bool := (hp s p).lstate = .active

/-- The encoding of HLP_Pn_STAT.lstate. -/
def LState.code : LState → Nat
  | .unbound => 0
  | .down => 1
  | .detect => 2
  | .lock => 3
  | .config => 4
  | .timesync => 5
  | .ident => 6
  | .active => 7
  | .failed => 8
  | .absent => 9
  | .refused => 10

/-- The encoding of GLB_PORTSTAT. -/
def PStat.code : PStat → Nat
  | .unbound => 0
  | .pending => 1
  | .training => 2
  | .trained => 3
  | .absent => 4
  | .failed => 5
  | .refused => 6

/-- A field of the head memory of a port: `n` bytes at `o` (the tables of "Head memory"). -/
def Hlp.f (h : Hlp) (o n : Nat) : Nat := fieldAt h.mem o n

/-- Geometry: rows, rails, columns, zones, primitives (R207, R209). -/
def Hlp.rows (h : Hlp) : Nat := h.f 0x100 1
def Hlp.rails (h : Hlp) : Nat := h.f 0x101 1
def Hlp.cols (h : Hlp) : Nat := h.f 0x102 2
def Hlp.zones (h : Hlp) : Nat := h.f 0x104 1
def Hlp.nprim (h : Hlp) : Nat := h.rows * h.cols / 16

/-- The fire group of nozzle position `i` (R207). -/
def Hlp.group (h : Hlp) (i : Nat) : Nat := nibble (h.f 0x106 8) (i % 16)

/-- The nozzle position, within a primitive, that fire group `g` addresses. -/
def Hlp.position (h : Hlp) (g : Nat) : Nat := ((List.range 16).find? (fun i => h.group i = g)).getD 0

/-- The primitive of nozzle `i` of row `r` (R207). -/
def Hlp.prim (h : Hlp) (r i : Nat) : Nat := r * (h.cols / 16) + i / 16

/-- The rail of primitive `q` (head memory 0x0200). -/
def Hlp.rail (h : Hlp) (q : Nat) : Nat := h.f (0x200 + q / 4) 1 / 4 ^ (q % 4) % 4

/-- The energy calibration of primitive `q` (head memory 0x0300). -/
def Hlp.cal (h : Hlp) (q : Nat) : Int := signed 8 (h.f (0x300 + q) 1)

/-- The first primitive of zone `z`, and where the zone ends. -/
def Hlp.zoneFirst (h : Hlp) (z : Nat) : Nat := h.f (0x164 + 2 * z) 2
def Hlp.zoneEnd (h : Hlp) (z : Nat) : Nat := if z + 1 < h.zones then h.zoneFirst (z + 1) else h.nprim

/-- The number of zones the device works with: a head without zones has its IC temperature as its one zone (R238). -/
def Hlp.nzones (h : Hlp) : Nat := if h.zones = 0 then 1 else h.zones

/-! ## Frames and ordered sets -/

/-- Codes packed four to a byte (R109). -/
def packCodes : Nat → List Nat → List Byte
  | 0, _ => []
  | n + 1, cs =>
    BitVec.ofNat 8 (cs.getD 0 0 + 4 * cs.getD 1 0 + 16 * cs.getD 2 0 + 64 * cs.getD 3 0) :: packCodes n (cs.drop 4)

/-- Quarter ticks of a symbol time, and the symbol times of a frame of `n` bytes with its CRC, SOF and EOF on the two lanes (R179, R188). -/
def symQ : Nat := 5
def frameSyms (n : Nat) : Nat := (n + 4) / 2 + 2

/-- The symbols of a frame on lane DL`i`, which carries bytes 2j + i (R188). -/
def laneSyms (i : Nat) (bs : List Byte) : List Sym :=
  .ctl "SOF" :: (List.range (bs.length / 2)).map (fun j => .dat (bs.getD (2 * j + i) 0)) ++ [.ctl "EOF"]

/-- The lanes of port `p` changed. -/
def modTx (p : Nat) (f : Lanes → Lanes) (s : State) : State := modHlp p (fun h => { h with tx := f h.tx }) s

/-- A frame starts: type, sequence, body, CRC; it awaits an LACK unless it is a MEM request (R188 to R190, R203, R221). -/
def startFrame (p : Nat) (x : TxItem) (s : State) : State :=
  let q := (hp s p).fseq
  let bs := leBytes 1 x.ftype ++ [q] ++ x.body
  let all := bs ++ leBytes 4 (crc32c bs).toNat
  emit (.headFrame p (laneSyms 0 all) (laneSyms 1 all)) (modHlp p (fun h => { h with
    fseq := q + 1, sent := if x.ftype = 4 then h.sent else h.sent ++ [⟨q, x.ftype, x.tag, x.line, x.body, x.tries⟩] }) s)

/-- The data of a TSYNC set with its check byte: kind 1 PROBE or 3 SET, time in eighths of a tick (R184, R185). -/
def tsyncBytes (kind t8 eq : Nat) : List Byte :=
  let b := leBytes 1 kind ++ leBytes 1 (t8 % 8) ++ leBytes 6 (t8 / 8 % 2 ^ 48) ++ leBytes 6 0 ++ leBytes 1 eq
  b ++ [crc8 b]

/-- The order in which what waits starts: TSYNC sets (DESIGN CHOICE, log 55), then FIRE, CTRL, PARM, LINE, MEM (R192). -/
def TxItem.rank (x : TxItem) : Nat :=
  match x.ftype with
  | 0 => 0
  | 2 => 1
  | 5 => 2
  | 3 => 3
  | 1 => 4
  | _ => 5

/-- The item that starts next: of the lowest rank, the one that became ready first. -/
def nextItem (q : List TxItem) : Option TxItem := (List.range 6).findSome? (fun k => q.find? (fun x => x.rank = k))

/-- An item starts on lanes that nothing holds, at an instant in quarter ticks. -/
def startItem (p at_ : Nat) (x : TxItem) (s : State) : State :=
  let isSet : Bool := x.ftype = 0
  let stop := at_ + symQ * (if isSet then 18 else frameSyms (x.body.length + 2))
  let s1 := if isSet then emit (.headSet p "TSY" (if x.body.isEmpty then tsyncBytes 1 (2 * at_) 0 else x.body)) s else startFrame p x s
  modTx p (fun t => { t with busy := stop, hard := if isSet || x.ftype = 2 then stop else at_, frame := !isSet, idle := false }) s1

/-- A FIRE frame suspends the frame in progress: SUS, the FIRE frame, RSM (R191). -/
def suspendFor (p at_ : Nat) (x : TxItem) (s : State) : State :=
  let n := symQ * (frameSyms (x.body.length + 2) + 2)
  modTx p (fun t => { t with busy := t.busy + n, hard := at_ + n })
    (emit (.headSym p "RSM") (startFrame p x (emit (.headSym p "SUS") s)))

/-- A timed FIRE frame, by its flags. -/
def TxItem.timed (x : TxItem) : Bool := x.ftype = 2 && bitOf ((x.body.getD 2 0).toNat) 0

/-- What may start on the lanes of a port: no timed FIRE frame until an acquisition completes (R216). -/
def Hlp.ready (h : Hlp) : List TxItem := h.tx.queue.filter (fun x => h.synced || !x.timed)

/-- What waits starts where the lanes allow it by now, no earlier than `from_`, in quarter ticks; a FIRE frame at the next symbol boundary
within the frame in progress (R184, R191, R192). `fuel` bounds the items. -/
def txGo : Nat → Nat → Nat → State → State
  | 0, _, _, s => s
  | n + 1, p, from_, s =>
    let t := (hp s p).tx
    let q := (hp s p).ready
    let take (x : TxItem) : State := modTx p (fun t => { t with queue := t.queue.erase x }) s
    if t.busy ≤ 4 * s.now then
      match nextItem q with
      | none => s
      | some x => txGo n p from_ (startItem p (max t.busy from_) x (take x))
    else
      match q.find? (fun x => x.ftype = 2) with
      | none => s
      | some x =>
        let at_ := t.busy - (t.busy - max t.hard from_) / symQ * symQ
        if t.hard ≤ 4 * s.now ∧ at_ < t.busy then txGo n p from_ (suspendFor p at_ x (take x)) else s

/-- An item is ready for the lanes of a port. A FIRE frame or a TSYNC set may start at once; other frames start with the passing of the tick,
once all that became ready in it has been ranked (R192; DESIGN CHOICE, log 55). -/
def putItem (p : Nat) (x : TxItem) (s : State) : State :=
  let s1 := modTx p (fun t => { t with queue := t.queue ++ [x] }) s
  if x.ftype = 0 ∨ x.ftype = 2 then txGo 1 p (4 * s.now) s1 else s1

/-- The lanes carry frames and IDLE (R183, R208). -/
def LState.running (l : LState) : Bool := l = .timesync || l = .ident || l = .active

/-- A tick passes on the lanes of a port: what waits starts, or IDLE follows what has ended (R183, R192). -/
def laneTick (p : Nat) (s : State) : State :=
  let s1 := txGo 8 p (4 * s.now - 4) s
  let h := hp s1 p
  if h.tx.busy ≤ 4 * s1.now ∧ !h.tx.idle ∧ h.lstate.running then
    emit (.headSet p "IDLE" [0x4A]) (modTx p (fun t => { t with idle := true }) s1)
  else s1

/-- Bell time moves on by one tick on an empty queue: the lanes of the head ports go on (R3, R191, R192; log 2). -/
def tick (s : State) : State := forEach (List.range 16) laneTick { s with now := s.now + 1 }

/-- A frame that awaits an LACK is ready (R203, R221). -/
def sendFrame (p ftype tag line : Nat) (body : List Byte) (tries : Nat) (s : State) : State :=
  putItem p ⟨ftype, tag, line, body, tries⟩ s

/-- A TSYNC set is ready: a PROBE, or one with its data (R212). -/
def sendProbe (p : Nat) (s : State) : State := putItem p ⟨0, 0, 0, [], 0⟩ s
def sendSet (p : Nat) (v : Int) (eq : Nat) (s : State) : State := putItem p ⟨0, 0, 0, tsyncBytes 3 (narrow 51 v) eq, 0⟩ s

/-- An UNKILL frame. -/
def isUnkill (ftype : Nat) (body : List Byte) : Bool := ftype = 5 && body.getD 0 0 = 3

/-- KILL goes out at the next symbol boundary; a frame in progress is abandoned with EBD, and neither lines nor an UNKILL leave any more
(R184, R186; log 55). -/
def killLanes (p : Nat) (s : State) : State :=
  let t := (hp s p).tx
  let q := 4 * s.now
  let s1 := emit (.headSet p "KIL" []) s
  modTx p (fun t => { t with
    queue := t.queue.filter (fun x => x.ftype = 0 || x.ftype = 4 || (x.ftype = 5 && !isUnkill x.ftype x.body)),
    busy := q + 4 * symQ, hard := q + 4 * symQ, frame := false, idle := false })
    (if q < t.busy && t.frame then emit (.headSym p "EBD") s1 else s1)

/-- A CTRL frame (R201's table of sub-types). -/
def sendCtrl (p sub param : Nat) (body : List Byte) (s : State) : State :=
  sendFrame p 5 0 0 (leBytes 1 sub ++ leBytes 1 param ++ body) 0 s

/-- The bytes of the LINE frame of a line (R194). -/
def lineBody (h : Hlp) (l : FLine) : List Byte :=
  let rb := 2 * ((h.cols + 7) / 8)
  let flags := (if l.kind = .service then 1 else 0) + (if l.scan then 2 else 0)
  leBytes 2 l.line ++ leBytes 1 l.rowmask.toNat ++ leBytes 1 flags ++ leBytes 2 rb ++
    (those 8 (fun r => bitOf l.rowmask.toNat r)).flatMap (fun r => packCodes rb (l.codes.getD r []))

/-- A permutation of fire groups as eight bytes of nibbles. -/
def orderBytes (o : List Nat) : List Byte := leBytes 8 ((List.range 16).foldl (fun n i => n + (o.getD i 0 % 16) * 16 ^ i) 0)

/-- The prim bytes of a PARM frame with their pad. -/
def primBytes (l : FLine) : List Byte :=
  let b := (l.trims.zip l.warms).map (fun tw => BitVec.ofNat 8 (narrow 6 tw.1 + (if tw.2 then 64 else 0)))
  if b.length % 2 = 1 then b ++ [0] else b

/-- The bytes of the PARM frame of a line; `reg` loads the warm register. -/
def parmBody (h : Hlp) (l : FLine) (reg : Bool) : List Byte :=
  leBytes 2 (if reg then 0 else l.line) ++ leBytes 1 (b2n reg + 2 * l.bank) ++ leBytes 1 0 ++ leBytes 2 (l.cap % 512) ++
    orderBytes l.order ++ leBytes 2 l.overlap ++ leBytes 2 h.nprim ++ primBytes l

/-- The bytes of the FIRE frame of a line (R195 to R200). -/
def fireBody (l : FLine) : List Byte :=
  let warm := l.kind = .warm
  leBytes 2 (if warm then 0 else l.line) ++ leBytes 1 (b2n l.timed + (if warm then 2 else 0)) ++ leBytes 1 l.rowmask.toNat ++
    leBytes 6 (if l.timed then l.launch else 0) ++
    (List.range 8).flatMap (fun r => leBytes 2 (if bitOf l.rowmask.toNat r then l.offs.getD r 0 else 0))

/-! ## MEM requests -/

/-- A MEM request leaves under its tag. -/
def putMem (p : Nat) (m : MemReq) (s : State) : State :=
  let pad := if m.op = 2 ∧ m.data.length % 2 = 1 then [0] else []
  sendFrame p 4 0 0 (leBytes 1 m.op ++ [m.tag] ++ leBytes 2 m.addr ++ leBytes 2 m.len ++ m.data ++ pad) 0 s

/-- Waiting MEM requests leave while credits last (R201). `fuel` bounds the number. -/
def memPump : Nat → Nat → State → State
  | 0, _, s => s
  | n + 1, p, s =>
    let h := hp s p
    match h.memWait with
    | m :: rest =>
      if h.reqs.length < h.credits then
        memPump n p (putMem p m (modHlp p (fun h => { h with memWait := rest, reqs := h.reqs ++ [m] }) s))
      else s
    | [] => s

/-- A MEM request joins its port's queue and leaves when a credit is free (R201). -/
def memAsk (p : Nat) (owner : MemOwner) (op addr len : Nat) (data : List Byte) (s : State) : State :=
  let t := (hp s p).memTag
  memPump 1 p (modHlp p (fun h => { h with memTag := t + 1, memWait := h.memWait ++ [⟨owner, op, t, addr, len, data, 0⟩] }) s)

/-! ## Pipes and generators -/

/-- Dot pipe `p` and the state with it changed. -/
def dp (s : State) (p : Nat) : Pipe := vat s.dot p
def modDot (p : Nat) (f : Pipe → Pipe) (s : State) : State := { s with dot := vmod s.dot p f }

/-- Generator `g` and the state with it changed. -/
def lt (s : State) (g : Nat) : Gen := vat s.gen g
def modGen (g : Nat) (f : Gen → Gen) (s : State) : State := { s with gen := vmod s.gen g f }

/-- The encodings of DOT_Pn_STAT.state and FIR_LTn_STAT.state. -/
def PipeState.code : PipeState → Nat
  | .off => 1
  | .stopped => 2
  | .ready => 3
  | .run => 4
  | .hold => 5
  | .late => 6

def GenState.code : GenState → Nat
  | .idle => 1
  | .armed => 2
  | .run => 3
  | .hold => 4

/-- The pipe's state as DOT_Pn_STAT shows it: 0 while unbound. -/
def pipeCode (s : State) (p : Nat) : Nat := if pipeBound s p then (dp s p).st.code else 0

/-- The generator's state as FIR_LTn_STAT shows it: 0 while unbound. -/
def genCode (s : State) (g : Nat) : Nat := if ltBound s g then (lt s g).st.code else 0

/-- A pipe changes state (R137, R142). -/
def setPipe (p : Nat) (st : PipeState) (s : State) : State :=
  if (dp s p).st = st then s
  else logEvent Ev.DOT_PIPE_STATE p p (pipeCode s p) st.code (modDot p (fun d => { d with st := st }) s)

/-- A generator changes state (R175, R178). -/
def setGen (g : Nat) (st : GenState) (s : State) : State :=
  if (lt s g).st = st ∨ !ltBound s g then s
  else logEvent Ev.FIR_LT_STATE g g (genCode s g) st.code (modGen g (fun x => { x with st := st }) s)

/-- The signed difference of two line numbers (R115). -/
def lineDiff (a b : Nat) : Int := diff32 a b

/-! ## Row delays and ring space (R117, R119 to R121, R133; spec/09_scanning.md R291) -/

/-- D of row `r` of pipe `d` as written, in 1/256 line. -/
def dlyReg (s : State) (d r : Nat) : Nat := fld s (R.DOT_Pn_RDLY d r) 13 0 * 256 + fld s (R.DOT_Pn_RDLY d r) 21 14

/-- Dmin and Dmax over the present rows; Lmin and Lmax. -/
def dMin (s : State) (d : Nat) : Nat :=
  match (rowsOf s d).map (dlyReg s d) with
  | [] => 0
  | x :: r => r.foldl min x
def dMax (s : State) (d : Nat) : Nat := ((rowsOf s d).map (dlyReg s d)).foldl max 0
def lMin (s : State) (d : Nat) : Nat := dMin s d / 256
def lMax (s : State) (d : Nat) : Nat := dMax s d / 256

/-- Lines in the ring (R113). -/
def dotDepth (s : State) (d : Nat) : Nat := fld s (R.DOT_Pn_DEPTH d) 14 0

/-- wlimit (R117). -/
def wlimit (s : State) (d : Nat) : Nat := narrow 32 ((dp s d).a - (lMax s d : Int) + dotDepth s d)

/-- The free space of the ring, lines (R133). -/
def freeSpace (s : State) (d : Nat) : Int := lineDiff (wlimit s d) (dp s d).wline

/-- An action took the pipe from `s0` to `s`: the signal is raised when its free space rose from below the threshold to it or more (R133). -/
def spaceCheck (d : Nat) (s0 s : State) : State :=
  let o := R.DOT_Pn_SIG d
  let thr : Int := fld s o 23 8
  if fld s o 7 7 = 1 ∧ freeSpace s0 d < thr ∧ thr ≤ freeSpace s d then raiseSig (fld s o 5 0) 1 s else s

/-! ## What pipes and generators do on a change -/

/-- A pipe leaves RUN or HOLD with its first unfired line in NEXT; lines sent or in assembly are assembled again (R134, R136). -/
def rewindPipe (d : Pipe) : Pipe := { d with a := d.next, asm := none }

/-- A pipe goes to OFF: its ring is discarded (R137), which frees space (R133). -/
def pipeOff (p : Nat) (s : State) : State :=
  spaceCheck p s (setPipe p .off (modDot p (fun d => { rewindPipe d with wline := d.next, pre := [] }) s))

/-- Line `k` of pipe `d` has not fired: the pipe's first unfired line is no later (R136). -/
def nextBack (d k : Nat) (s : State) : State :=
  modDot d (fun x => if lineDiff k x.next < 0 then { x with next := k, a := k } else x) s

/-- The fall-back of a generator is entered or left (R148). -/
def setFallback (g : Nat) (on : Bool) (s : State) : State :=
  if (lt s g).fallback = on then s
  else logEvent Ev.FIR_FALLBACK g g (b2n on) (toWord (vat s.pc (ltSource s g)).v).toNat (modGen g (fun x => { x with fallback := on }) s)

/-- A generator leaves RUN or HOLD for ARMED or IDLE: no delayed commit, no fall-back (R148, R150, R175). -/
def restGen (g : Nat) (st : GenState) (s : State) : State :=
  setGen g st (setFallback g false (modGen g (fun x => { x with delayed := [] }) s))

/-! ## Lines at a port -/

/-- A launched line whose window has not ended on every row. -/
def FLine.inWindow (l : FLine) : Bool := l.launched && (l.rowmask &&& ~~~l.done) ≠ 0

/-- The largest number of slots started on any row (R144). -/
def FLine.slots (l : FLine) : Nat := l.started.foldl max 0

/-- The ticks of a line's window after its launch: the largest offset, the steps and the last slot (R156). -/
def FLine.windowTicks (l : FLine) : Nat :=
  l.offs.foldl max 0 + (List.range 15).foldl (fun t j => t + (if bitOf l.overlap (j + 1) then l.slot / 2 else l.slot)) 0 + l.slot

/-- A slot of the line is in progress. -/
def FLine.firing (l : FLine) : Bool := l.inWindow && l.slots ≠ 0

/-- A slot is in progress on port `p` (R163). -/
def slotInProgress (s : State) (p : Nat) : Bool := (hp s p).lines.any FLine.firing

/-- A launched line ended early: FIR_Pn_TORN and TORNCNT, FIR_LINE_TORN; the pipe's next line is the torn one (R136, R144). -/
def tearLine (p : Nat) (l : FLine) (s : State) : State :=
  if l.kind = .warm then s
  else
    let s1 := wr (R.FIR_Pn_TORN p) (BitVec.ofNat 32 l.line) s
    let s2 := setF (R.FIR_Pn_TORNCNT p) 20 16 l.slots (incF (R.FIR_Pn_TORNCNT p) 15 0 s1)
    let s3 := logEvent Ev.FIR_LINE_TORN p p l.line l.slots s2
    match l.kind, portPipe s p with
    | .print, some d => nextBack d l.line s3
    | _, _ => s3

/-- Line `k` of pipe `d` is cancelled after its launch, before a slot started: unless another pipe of its generator has launched it too, the
generator may launch it again (R145, R168). -/
def genBack (d k : Nat) (s : State) : State :=
  let g := pipeLt s d
  let launched (e : Nat) : Bool := e ≠ d && (decide (0 < lineDiff (dp s e).next k) ||
    (hp s (pipePort s e)).lines.any (fun l => l.kind = .print && l.line = k && l.launched))
  if (ltPipes s g).any launched then s
  else modGen g (fun x => { x with top := x.top.map (fun t => if lineDiff k t < 0 then k else t) }) s

/-- The committed print lines of a list that will not fire: pipe `d` fires them again (R136, R143). -/
def cancelLines (d : Nat) (ls : List FLine) (s : State) : State :=
  (ls.filter (fun l => l.kind = .print)).foldl (fun s l => if l.launched then genBack d l.line (nextBack d l.line s) else nextBack d l.line s) s

/-- Nozzle health of port `p` and the state with it changed. -/
def nh (s : State) (p : Nat) : Nhl := vat s.nhl p
def modNhl (p : Nat) (f : Nhl → Nhl) (s : State) : State := { s with nhl := vmod s.nhl p f }

/-- The service lines of a port that are not committed do not fire; what the head holds of them stays until a CANCEL (R286; log 56). -/
def dropService (p : Nat) (s : State) : State :=
  let open_ (l : FLine) : Bool := l.kind = .service && !l.fireSent
  { s with hlp := vmod s.hlp p (fun h => { h with
      lines := (h.lines.filter (fun l => !open_ l || l.lineSent)).map (fun l => if open_ l then { l with skipped := true } else l) }) }

/-- A service line of the port is committed and has not ended. -/
def svcFires (s : State) (p : Nat) : Bool :=
  (hp s p).lines.any (fun l => l.kind = .service && l.fireSent && (!l.launched || l.inWindow))

/-- A service sequence that was to end is over with its last committed line: its grant is released and NHL_SEQ_ABORT raised (R286). -/
def svcSettle (p : Nat) (s : State) : State :=
  let x := nh s p
  if x.ending = 0 ∨ svcFires s p then s
  else
    logEvent Ev.NHL_SEQ_ABORT p p ((if x.seq = 1 then x.want else x.seq) - 1) x.ending
      (ledgerRelease 1 p (modNhl p (fun x => { x with seq := 0, want := 0, sentLines := 0, awaiting := 0, ending := 0 }) s))

/-- A gap block or a gap spit is over before its content has fired: it is done again, a SCAN that began it pending as before (R277, R286). -/
def Nhl.gapOver (x : Nhl) : Nhl :=
  if x.seq = 4 ∨ x.seq = 5 then
    { x with seq := 0, sentLines := 0, gapFired := 0, awaiting := 0, pendScan := x.pendScan || x.began, began := false }
  else x

/-- The lines of a port end at once: those with a slot started are torn and await their TELE frame, the others are discarded
(R143, R168, R186). A discarded print line that was committed counts as not fired. -/
def endLines (p : Nat) (s : State) : State :=
  let ls := (hp s p).lines
  let torn := ls.filter FLine.firing
  let back := ls.filter (fun l => (l.inWindow && !l.firing) || (l.fireSent && !l.launched))
  let s1 := torn.foldl (fun s l => tearLine p l s) s
  let s2 := match portPipe s p with
    | some d => cancelLines d back s1
    | none => s1
  svcSettle p <| modHlp p (fun h => { h with
    lines := (ls.filter (fun l => l.firing || (l.launched && !l.inWindow && l.tele = .waiting))).map (fun l => { l with done := l.rowmask }),
    sent := h.sent.filter (fun f => f.ftype = 5 && !isUnkill f.ftype f.body), cancelDue := false }) s2

/-- A FIRE frame for a warm-only cycle, by its flags. -/
def Sent.warm (f : Sent) : Bool := bitOf ((f.body.getD 2 0).toNat) 1

/-- The line that a FIRE frame commits. -/
def Sent.fires (f : Sent) (l : FLine) : Bool := l.fireSent && (if f.warm then l.kind = .warm else l.kind ≠ .warm && l.line = f.line)

/-- A frame whose LACK is awaited while lines are given up: a CTRL frame, or the FIRE frame of a line that has launched (R221, R222). -/
def Hlp.awaits (h : Hlp) (f : Sent) : Bool := f.ftype = 5 || (f.ftype = 2 && h.lines.any (fun l => l.launched && f.fires l))

/-- The frames of lines that have not launched are no longer awaited, nor sent. -/
def Hlp.forget (h : Hlp) : Hlp :=
  { h with sent := h.sent.filter h.awaits, cancelDue := false,
           tx := { h.tx with queue := h.tx.queue.filter (fun x => x.ftype = 0 || x.ftype = 4 || x.ftype = 5) } }

/-- The lines that have not launched are discarded; the committed ones count as not fired (R134, R136, R143). -/
def dropUnlaunched (p : Nat) (s : State) : State :=
  let gone := (hp s p).lines.filter (fun l => l.fireSent && !l.launched)
  let s1 := match portPipe s p with
    | some d => cancelLines d gone s
    | none => s
  svcSettle p (modHlp p (fun h => { h.forget with lines := h.lines.filter (fun l => l.launched) }) s1)

/-- A line that the head no longer holds, to be sent again. -/
def FLine.unsent (l : FLine) : FLine := { l with lineSent := false, lineAck := false, parmSent := false, parmAck := false }

/-- CANCEL frees the buffers of lines that will not fire; the device sends the other lines again (R201's table, R204; log 56). -/
def cancelSkipped (p : Nat) (s : State) : State :=
  sendCtrl p 2 0 [] (modHlp p (fun h => { h.forget with
    lines := (h.lines.filter (fun l => l.launched || (!l.skipped && l.kind ≠ .warm))).map (fun l => if l.launched then l else l.unsent) }) s)

/-- CANCEL: the head discards every held line that has not launched (R201's table). -/
def sendCancel (p : Nat) (s : State) : State := if active s p then sendCtrl p 2 0 [] (dropUnlaunched p s) else s

/-- HPn_EN is driven low (0) or released (1) by the device (R163). -/
def driveEn (p : Nat) (rel : Bool) (s : State) : State :=
  if bitOf s.gate.enRel.toNat p = rel then s
  else emit (.pin "HPn_EN" p (b2n rel))
    { s with gate := { s.gate with enRel := if rel then s.gate.enRel ||| BitVec.ofNat 16 (2 ^ p) else s.gate.enRel &&& ~~~(BitVec.ofNat 16 (2 ^ p)) } }

/-- A HOPENm whose mask includes port `p` is high (R163). -/
def hopenGates (s : State) (p : Nat) : Bool :=
  (List.range 4).any (fun m => bitOf s.gate.hopen.toNat m &&
    bitOf (bits (rd s (if m < 2 then R.FIR_HOPENMAP01 else R.FIR_HOPENMAP23)) (16 * (m % 2) + 15) (16 * (m % 2))) p)

/-- Firing states: ARMED, PRINT, STOPPING. -/
def firingState (s : State) : Bool := s.glb.state = .armed || s.glb.state = .print || s.glb.state = .stopping

/-- The device may release HPn_EN (R163). -/
def mayRelease (s : State) (p : Nat) : Bool := active s p && firingState s && !s.gate.kill && !hopenGates s p

/-- HPn_EN of a port follows R163. -/
def updateEn (p : Nat) (s : State) : State := driveEn p (mayRelease s p) s

/-- A port's link starts afresh: nothing is locked, outstanding or held; the head is in the killed state (R186). The window of R218 starts
empty, which the spec leaves open (DESIGN CHOICE, log 78); HLP_UP_ERROR goes on counting the frames discarded before (R231). -/
def Hlp.fresh (h : Hlp) : Hlp :=
  { h with dlLock := false, ulLock := false, killed := true, tsRun := 0, tsAfter := 0, tx := .reset, sent := [], reqs := [], memWait := [],
           echoes := [], checking := false, synced := false, lines := [], cancelDue := false, killDue := false,
           discards := [], oldBad := h.discards ++ h.oldBad, bankDue := false, bank := 0, banks := Vector.replicate 2 none, usage := 0, sums := Vector.replicate 2 none }

/-- KILL on an ACTIVE port: firing ends, held lines are discarded, the head is in the killed state (R186, R187). -/
def sendKill (p : Nat) (s : State) : State :=
  let s1 := endLines p (modHlp p (fun h => { h with killDue := false }) s)
  if active s p then killLanes p (modHlp p (fun h => { h with killed := true }) s1) else s1

/-- A hard gate on port `p`: HPn_EN low and KILL at once (R167, R187). -/
def hardGate (p : Nat) (s : State) : State := sendKill p (driveEn p false s)

/-- Entry to SAFE_HOLD or SHUTDOWN on a port: committed lines that have not launched are cancelled; HPn_EN low and KILL come at the
end of the slot in progress, or at once (R143, R163, R187). -/
def holdPort (p : Nat) (s : State) : State :=
  if slotInProgress s p then modHlp p (fun h => { h with killDue := true }) (sendCancel p s)
  else hardGate p s

/-- Pipes and generators on entry to SAFE_HOLD or SHUTDOWN (R137, R175). -/
def holdPipes (s : State) : State :=
  let s1 := forEach (List.range 16) (fun p s =>
    let d := dp s p
    if pipeBound s p ∧ (d.st = .ready ∨ d.st = .run ∨ d.st = .hold) then modDot p rewindPipe (setPipe p .stopped s) else s) s
  forEach (List.range 16) (restGen · .idle) s1

/-- What the print path does on entry to SAFE_HOLD or SHUTDOWN. -/
def holdPrint (s : State) : State := holdPipes (forEach (List.range 16) holdPort s)

end Sys2Proof.Machine
end

