-- ==== Sys2Proof/Machine/Position.lean ====
section
/-!
DEFINITION. Position channels without their triggers: counting, direction, marks, speed, compares, capture, emulated-encoder
outputs, and the commands of spec/10_position.md (R310 to R342).
-/
namespace Sys2Proof.Machine

/-- Position channel `n` and the state with it changed. -/
def pch (s : State) (n : Nat) : Pc := vat s.pc n
def modPc (n : Nat) (f : Pc → Pc) (s : State) : State := { s with pc := vmod s.pc n f }

/-- Integer counts of a 32.16 position. -/
def ipart (x : Nat) : Nat := x / 65536 % 2 ^ 32

/-- A 32.16 position moved by a signed amount, modulo 2^48 (R2). -/
def addPos (p : Nat) (d : Int) : Nat := narrow 48 ((p : Int) + d)

/-- Channel `n` is UNUSED: POSITION input 0, or no image. -/
def pcUnused (s : State) (n : Nat) : Bool := pcInput s n = 0

/-- The generators sourced from channel `n`. -/
def pcGens (s : State) (n : Nat) : List Nat := those 16 (fun g => ltSource s g = n)

/-- The 40-bit extended position with its fraction, 56 bits (R320, R337). -/
def extPos (s : State) (n : Nat) : Nat := (pch s n).epoch * 2 ^ 48 + (pch s n).pos

/-! ## Speed history (R326, R327) -/

/-- The speed history restarts: speed 0, VALID 0, with the first entries given. A sin/cos channel's present position becomes its
oldest sample (R329). -/
def restart (x : Pc) (entries : List Nat) : Pc :=
  { x with hist := entries, v := 0, valid := false, samples := [x.pos] }

/-- The largest j from 1 with te − t[j] ≤ 2^swin, at least 1 (R326). -/
def histSpan (te win : Nat) (older : List Nat) : Nat := max 1 (older.takeWhile (fun t => te - t ≤ win)).length

/-- An edge at `te` in the direction of the flag enters the history and the speed is computed (R326). -/
def histEdge (swin te : Nat) (x : Pc) : Pc :=
  match x.hist with
  | [] => { x with hist := [te] }
  | t0 :: rest =>
    if t0 = te then x
    else
      let older := (t0 :: rest).take 63
      let n0 := histSpan te (2 ^ swin) older
      let n := if 4 ≤ n0 then n0 - n0 % 4 else n0
      let dt := te - older.getD (n - 1) te
      let v := satS 32 (((n * 6400000000 + dt / 2) / dt : Nat) : Int)
      { x with hist := te :: older, v := if x.dir then -v else v, valid := true, mean := (n, dt) }

/-! ## Direction flag (R324) -/

/-- The deadband in 32.16. -/
def deadband (s : State) (n : Nat) : Int := (pcDeadband s n : Int) * 65536

/-- The channel after its position has moved: ext and the direction flag. A change restarts the history with `first`. -/
def dirStep (db : Int) (first : List Nat) (x : Pc) : Pc × Bool :=
  let away := if x.dir then diff48 x.ext x.pos else diff48 x.pos x.ext
  if 0 < away then ({ x with ext := x.pos }, false)
  else if db < -away then (restart { x with dir := !x.dir, ext := x.pos } first, true)
  else (x, false)

/-- The flag and event of a direction change (R324). -/
def dirChanged (n : Nat) (s : State) : State :=
  let s1 := setFlag (R.POS_PCn_FLAG n) 0 s
  if fld s1 (R.POS_PCn_EVTCFG n) 0 0 = 1 then
    logEvent Ev.POS_DIR_CHANGE n n (b2n (pch s1 n).dir) (ipart (pch s1 n).pos) s1
  else s1

/-! ## Marks (R325) -/

/-- A mark after the position has moved to `p`: forward or reverse. -/
def markStep (rev : Bool) (mark p : Nat) : Nat :=
  if rev then (if 0 < diff48 mark p then p else mark) else (if 0 < diff48 p mark then p else mark)

/-- The marks of the generators sourced from channel `n` follow its position. -/
def genMarks (n : Nat) (s : State) : State :=
  forEach (pcGens s n) (fun g s => modGen g (fun x => { x with hw := markStep x.rev x.hw (pch s n).pos }) s) s

/-! ## Compare units (R331 to R333) -/

/-- Mode of a compare: 1 reverse, 2 either, else forward. -/
def cmpDir (s : State) (n m : Nat) : Nat := fld s (R.POS_PCn_CMPm_CTL n m) 1 0

/-- Target, spacing (32.16) and instance of a compare. -/
def cmpTgt (s : State) (n m : Nat) : Nat :=
  (rd s (R.POS_PCn_CMPm_TGT_INT n m)).toNat * 65536 + fld s (R.POS_PCn_CMPm_TGT_FRAC n m) 15 0
def cmpSpace (s : State) (n m : Nat) : Nat := (rd s (R.POS_PCn_CMPm_SPACE n m)).toNat
def cmpInst (n m : Nat) : Nat := 4 * n + m

/-- The compare is armed. -/
def cmpArmed (s : State) (n m : Nat) : Bool := fld s (R.POS_PCn_CMPm_STAT n m) 0 0 = 1

/-- The compare disarms. -/
def cmpDisarm (n m : Nat) (s : State) : State := setF (R.POS_PCn_CMPm_STAT n m) 0 0 0 s

/-- The target takes a value. -/
def cmpPut (n m t : Nat) (s : State) : State :=
  setF (R.POS_PCn_CMPm_TGT_FRAC n m) 15 0 (t % 65536) (wr (R.POS_PCn_CMPm_TGT_INT n m) (BitVec.ofNat 32 (t / 65536)) s)

/-- The compare unit's record. -/
def cmpRec (s : State) (n m : Nat) : Cmp := vat (pch s n).cmp m
def modCmp (n m : Nat) (f : Cmp → Cmp) (s : State) : State := modPc n (fun x => { x with cmp := vmod x.cmp m f }) s

/-- How far the mark lies past the target, in the compare's direction (R331). -/
def cmpPast (s : State) (n m : Nat) : Int :=
  let mk := (cmpRec s n m).mark
  if cmpDir s n m = 1 then diff48 (cmpTgt s n m) mk else diff48 mk (cmpTgt s n m)

/-- The target stepped by `j` spacings in the compare's direction. -/
def cmpStepped (s : State) (n m j : Nat) : Nat :=
  let d : Int := (cmpSpace s n m * j : Nat)
  addPos (cmpTgt s n m) (if cmpDir s n m = 1 then -d else d)

/-- bh 0: the target is missed (R333). -/
def cmpMissed (n m : Nat) (s : State) : State :=
  logEvent Ev.CMP_MISSED (cmpInst n m) (cmpInst n m) (ipart (cmpTgt s n m)) (ipart (cmpRec s n m).mark)
    (cmpDisarm n m (setFlag (R.POS_PCn_CMPm_FLAG n m) 1 s))

/-- bh 1: targets are stepped over until one lies ahead; when SPACE is 0 or `repeat` runs out, as bh 0 (R333). -/
def cmpSkip (n m : Nat) (s : State) : State :=
  let sp := cmpSpace s n m
  if sp = 0 then cmpMissed n m s
  else
    let j := (cmpPast s n m).toNat / sp + 1
    let rep := fld s (R.POS_PCn_CMPm_CTL n m) 31 16
    let left := rep - (cmpRec s n m).used
    let out := rep ≠ 0 && left ≤ j
    let k := if out then left - 1 else j
    let s1 := addF (R.POS_PCn_CMPm_SKIPCNT n m) 15 0 k
      (modCmp n m (fun c => { c with used := c.used + k }) (cmpPut n m (cmpStepped s n m k) s))
    if out then cmpMissed n m s1
    else logEvent Ev.CMP_SKIPPED (cmpInst n m) (cmpInst n m) k (ipart (cmpTgt s1 n m)) s1

/-- What a hit records (R332, steps 1 to 4): position and bell time of the count update, hits, flag, signal, event. -/
def cmpLatch (n m : Nat) (s : State) : State :=
  let p := (pch s n).pos
  let s1 := setF (R.POS_PCn_CMPm_HIT_FRAC n m) 15 0 (p % 65536) (wr (R.POS_PCn_CMPm_HIT_INT n m) (BitVec.ofNat 32 (ipart p)) s)
  let s2 := wr (R.POS_PCn_CMPm_HIT_THI n m) (BitVec.ofNat 32 (s.now / 2 ^ 32)) (wr (R.POS_PCn_CMPm_HIT_TLO n m) (BitVec.ofNat 32 s.now) s1)
  let s3 := setFlag (R.POS_PCn_CMPm_FLAG n m) 0 (incF (R.POS_PCn_CMPm_STAT n m) 31 16 s2)
  let s4 := modCmp n m (fun c => { c with used := c.used + 1 }) s3
  let ctl := rd s4 (R.POS_PCn_CMPm_CTL n m)
  let s5 := if bits ctl 12 12 = 1 then raiseSig (bits ctl 11 6) 1 s4 else s4
  if bits ctl 4 4 = 1 then
    logEvent Ev.CMP_HIT (cmpInst n m) (cmpInst n m) (ipart p) (fld s5 (R.POS_PCn_CMPm_STAT n m) 31 16) s5
  else s5

/-- After a hit: the target steps when hits remain and SPACE is not 0, else the compare disarms; `behind` says what follows when the
new target is behind (R332). -/
def cmpAfter (n m : Nat) (behind : State → State) (s : State) : State :=
  let rep := fld s (R.POS_PCn_CMPm_CTL n m) 31 16
  if cmpSpace s n m ≠ 0 ∧ (rep = 0 ∨ (cmpRec s n m).used < rep) then
    let s1 := cmpPut n m (cmpStepped s n m 1) s
    if cmpDir s1 n m ≠ 2 ∧ 0 ≤ cmpPast s1 n m then behind s1 else s1
  else cmpDisarm n m s

/-- bh 2: one hit at once, then targets still behind are stepped over (R333). -/
def cmpLate (n m : Nat) (s : State) : State :=
  let tgt := ipart (cmpTgt s n m)
  let s1 := setFlag (R.POS_PCn_CMPm_FLAG n m) 2 (cmpLatch n m s)
  cmpAfter n m (cmpSkip n m) (logEvent Ev.CMP_LATE_FIRE (cmpInst n m) (cmpInst n m) tgt (ipart (pch s n).pos) s1)

/-- The behind check at ARM and after a step (R333). -/
def cmpBehind (n m : Nat) (s : State) : State :=
  match fld s (R.POS_PCn_CMPm_CTL n m) 3 2 with
  | 1 => cmpSkip n m s
  | 2 => cmpLate n m s
  | _ => cmpMissed n m s

/-- A hit (R332). -/
def cmpHit (n m : Nat) (s : State) : State := cmpAfter n m (cmpBehind n m) (cmpLatch n m s)

/-- One compare after the position has moved from `old` (R331). -/
def cmpEval (n old m : Nat) (s : State) : State :=
  let p := (pch s n).pos
  let s1 := modCmp n m (fun c => { c with mark := markStep (cmpDir s n m = 1) c.mark p }) s
  if !cmpArmed s1 n m then s1
  else if cmpDir s1 n m = 2 then
    let a := diff48 old (cmpTgt s1 n m)
    let b := diff48 p (cmpTgt s1 n m)
    if (a < 0 ∧ 0 ≤ b) ∨ (0 < a ∧ b ≤ 0) then cmpHit n m s1 else s1
  else if 0 ≤ cmpPast s1 n m then cmpHit n m s1
  else s1

/-! ## Emulated-encoder outputs (R337 to R340) -/

/-- Motion is held: SAFE_HOLD or SHUTDOWN. -/
def holding (s : State) : Bool := s.glb.state = .safeHold || s.glb.state = .shutdown

/-- Output `e` and the state with it changed. -/
def eeu (s : State) (e : Nat) : Ee := vat s.ee e
def modEe (e : Nat) (f : Ee → Ee) (s : State) : State := { s with ee := vmod s.ee e f }

/-- The target count of an output (R337). -/
def eeTarget (s : State) (e : Nat) : Nat :=
  let d := signed 56 (narrow 56 ((extPos s (eeSource s e) : Int) - (eeu s e).pref))
  narrow 32 (((eeu s e).oref : Int) + d * eeNum s e / ((eeDen s e * 65536 : Nat) : Int))

/-- oc − output. -/
def eeDiff (s : State) (e : Nat) : Int := diff32 (eeTarget s e) (rd s (R.POS_EEn_OUT e)).toNat

/-- The lag of an output after its source has moved, or after it has stepped (R338). -/
def eeLag (e : Nat) (s : State) : State :=
  let lag := (eeDiff s e).natAbs
  let s1 := setF (R.POS_EEn_LAG e) 31 16 (min lag 65535) s
  let isOver := fld s1 (R.POS_EEn_LAG e) 15 0 < lag
  if isOver && !(eeu s1 e).lagging then
    logEvent Ev.POS_EE_LAG e e (eeSource s e) lag (setFlag (R.POS_EEn_FLAG e) 1 (modEe e (fun x => { x with lagging := true }) s1))
  else modEe e (fun x => { x with lagging := isOver }) s1

/-- The outputs that channel `n` feeds follow its motion, but in a hold (R340). -/
def eeTrack (n : Nat) (s : State) : State :=
  if holding s then s else forEach (those 4 (fun e => eeSource s e = n)) eeLag s

/-- An output takes a new reference, so that it does not jump (R337). -/
def eeRef (e : Nat) (s : State) : State :=
  if eeSource s e = 0xFF then s
  else setF (R.POS_EEn_LAG e) 31 16 0
    (modEe e (fun x => { x with pref := extPos s (eeSource s e), oref := (rd s (R.POS_EEn_OUT e)).toNat, lagging := false }) s)

/-- The exit from SAFE_HOLD or SHUTDOWN: new references, gap flags (R340). -/
def eeResume (s : State) : State :=
  forEach (those 4 (fun e => eeSource s e ≠ 0xFF)) (fun e s => setFlag (R.POS_EEn_FLAG e) 0 (eeRef e s)) s

/-- The device drives an output's pin. -/
def eePin (e : Nat) (name : String) (old new : Bool) (s : State) : State := if old = new then s else emit (.pin name e (b2n new)) s

/-- An output steps one count toward its target: one quadrature edge (R337). -/
def eeStep (e : Nat) (s : State) : State :=
  let d := eeDiff s e
  if holding s ∨ eeSource s e = 0xFF ∨ d = 0 then s
  else
    let c := narrow 32 (((rd s (R.POS_EEn_OUT e)).toNat : Int) + (if 0 < d then 1 else -1))
    let q := c % 4
    let inv := fld s (R.POS_EEn_CFG e) 8 8 = 1
    let a := q = 1 || q = 2
    let b := q = 2 || q = 3
    let a' := if inv then b else a
    let b' := if inv then a else b
    let old := eeu s e
    eeLag e (eePin e "EEn_A" old.a a' (eePin e "EEn_B" old.b b'
      (modEe e (fun x => { x with a := a', b := b' }) (wr (R.POS_EEn_OUT e) (BitVec.ofNat 32 c) s))))

/-- EE_OUTPUT_STEP (R337, R338, R340): the edge spacing has passed. -/
def execEeOutputStep (e : Fin 4) (s : State) : Host.Outcome State Fault Refusal := finish (eeStep e s)

/-- A Z pulse at an index edge of the source (R339): high and low again after zw × 10 ns. -/
def eeZ (n : Nat) (s : State) : State :=
  if holding s then s
  else forEach (those 4 (fun e => eeSource s e = n && fld s (R.POS_EEn_CFG e) 10 9 = 1))
    (fun e s => emit (.pin "EEn_Z" e 0) (emit (.pin "EEn_Z" e 1) s)) s

/-! ## Movement -/

/-- Channel `n` moves by `d` in 32.16: position, epoch, bell time (R320). -/
def pcCount (n : Nat) (d : Int) (s : State) : State :=
  modPc n (fun x =>
    let y : Int := (x.pos : Int) + d
    let e : Int := if y < 0 then (x.epoch : Int) - 1 else if 2 ^ 48 ≤ y then (x.epoch : Int) + 1 else x.epoch
    { x with pos := narrow 48 y, epoch := narrow 8 e, t := s.now }) s

/-- The position of channel `n` has moved from `old`: marks, direction, compares, outputs (R324, R325, R331, R337). -/
def pcMoved (n old : Nat) (first : List Nat) (s : State) : State :=
  let s1 := genMarks n s
  let r := dirStep (deadband s n) first (pch s1 n)
  let s2 := modPc n (fun _ => r.1) s1
  let s3 := if r.2 then dirChanged n s2 else s2
  eeTrack n (forEach (List.range 4) (cmpEval n old) s3)

/-! ## Faults of the inputs (R311 to R313) -/

/-- A fault of an input at this bell time: counters, flags, and POS_INPUT_FAULT when thr is exceeded in 2^20 ticks. -/
def inputFault (n : Nat) (illegal : Bool) (s : State) : State :=
  let s1 := if illegal then setFlag (R.POS_PCn_FLAG n) 2 (incF (R.POS_PCn_FAULTCNT n) 31 16 s)
    else setFlag (R.POS_PCn_FLAG n) 1 (incF (R.POS_PCn_FAULTCNT n) 15 0 s)
  let fs := (s.now, illegal) :: (pch s n).faults.filter (fun f => s.now < f.1 + 2 ^ 20)
  let s2 := modPc n (fun x => { x with faults := fs }) s1
  let quiet := match (pch s n).inFaultAt with
    | some t => decide (s.now < t + 2 ^ 20)
    | none => false
  if fld s2 (R.POS_PCn_EVTCFG n) 23 8 < fs.length ∧ !quiet then
    logEvent Ev.POS_INPUT_FAULT n n (fs.filter (fun f => !f.2)).length (fs.filter (fun f => f.2)).length
      (modPc n (fun x => { x with inFaultAt := some s.now }) s2)
  else s2

/-- An edge follows the previous one by less than min_edge × 10 ns (R312). -/
def tooClose (s : State) (n : Nat) (prev : Option Nat) : Bool :=
  match prev with
  | some t => decide (s.now < t + 4 * pcMinEdge s n)
  | none => false

/-- One accepted edge of A or B, counting up or down (R310 to R312, R326, R327). -/
def quadEdge (n : Nat) (up : Bool) (s : State) : State :=
  let s0 := if tooClose s n (pch s n).edgeAt then inputFault n false s else s
  let s1 := modPc n (fun x => { x with edgeAt := some s.now }) s0
  let old := (pch s1 n).pos
  let was := (pch s1 n).dir
  let s2 := pcMoved n old [s.now] (pcCount n (if up then 65536 else -65536) s1)
  if (pch s2 n).dir ≠ was then s2
  else if (pch s2 n).dir = up then modPc n (fun x => restart x []) s2
  else modPc n (histEdge (fld s (R.POS_PCn_SPDCFG n) 4 0) s.now) s2

/-! ## Capture (R336) -/

/-- A capture event with the position, epoch and bell time to latch. -/
def capture (n pos epoch at_ : Nat) (s : State) : State :=
  let cfg := rd s (R.POS_PCn_CAPCFG n)
  if bits cfg 5 5 = 1 ∧ fld s (R.POS_PCn_FLAG n) 4 4 = 1 then s
  else
    let s1 := wr (R.POS_PCn_CAP_FRAC n) (BitVec.ofNat 32 (pos % 65536 + epoch * 65536))
      (wr (R.POS_PCn_CAP_INT n) (BitVec.ofNat 32 (ipart pos)) s)
    let s2 := wr (R.POS_PCn_CAP_THI n) (BitVec.ofNat 32 (at_ / 2 ^ 32)) (wr (R.POS_PCn_CAP_TLO n) (BitVec.ofNat 32 at_) s1)
    let s3 := setFlag (R.POS_PCn_FLAG n) 4 s2
    if bits cfg 15 15 = 1 then raiseSig (bits cfg 13 8) 1 s3 else s3

/-- INDEX_EDGE (R314, R319, R336, R339): a rising edge of Z after its polarity. -/
def execIndexEdge (n : Fin 8) (s : State) : Host.Outcome State Fault Refusal :=
  finish (if !pcHasIndex s n then s
    else if tooClose s n (pch s n).zAt then modPc n (fun x => { x with zAt := some s.now }) (inputFault n false s)
    else
      let s1 := modPc n (fun x => { x with zAt := some s.now }) s
      let open_ := if pcSinCos s n then decide ((pch s n).ph < 1024) else (vat s.enc n).1 && (vat s.enc n).2
      if fld s1 (R.POS_PCn_CAPCFG n) 6 6 = 1 ∧ !open_ then s1
      else
        let s2 := eeZ n s1
        if fld s2 (R.POS_PCn_CAPCFG n) 1 0 = 1 then capture n (pch s2 n).pos (pch s2 n).epoch s2.now s2 else s2)

/-! ## Speed without edges (R328) -/

/-- The speed of a quadrature channel decays when no edge has come for twice the mean interval. -/
def decay (now : Nat) (x : Pc) : Pc :=
  match x.hist with
  | te :: _ =>
    if x.valid ∧ 2 * (x.mean.2 / max 1 x.mean.1) < now - te then
      let v : Int := satS 32 ((6400000000 / (now - te) : Nat) : Int)
      { x with v := if x.dir then -v else v }
    else x
  | [] => x

/-- SPEED_SAMPLE_TICK (R328, R330): the channel re-evaluates its speed without edges and offers its sample; the generators note
the latest VALID speed, negated in a reverse sweep (R155, R295). -/
def execSpeedSampleTick (n : Fin 8) (s : State) : Host.Outcome State Fault Refusal :=
  finish (if pcUnused s n then s
    else
      let s1 := if pcSinCos s n then s else modPc n (decay s.now) s
      if (pch s1 n).valid then
        forEach (pcGens s1 n) (fun g s => modGen g (fun x => { x with vSeen := true, v := if x.rev then -(pch s1 n).v else (pch s1 n).v }) s) s1
      else s1)

/-- SPEED_STANDSTILL_TIMEOUT (R328): no edge for 2^stout ticks. -/
def execSpeedStandstillTimeout (n : Fin 8) (s : State) : Host.Outcome State Fault Refusal :=
  finish (if pcUnused s n ∨ pcSinCos s n then s else modPc n (fun x => restart x []) s)

/-- SINCOS_SPEED_TICK (R329): the speed of a sin/cos channel, every 4,000 ticks. -/
def execSincosSpeedTick (n : Fin 8) (s : State) : Host.Outcome State Fault Refusal :=
  finish (if !pcSinCos s n ∨ (pch s n).fault then s
    else modPc n (fun x =>
      let l := (x.pos :: x.samples).take 5
      match l[4]? with
      | some p =>
        let v := satS 32 (rnd (diff48 x.pos p * 25000) 12)
        if (v < 0 ∧ !x.dir) ∨ (0 < v ∧ x.dir) then { x with samples := l, v := 0, valid := false }
        else { x with samples := l, v := v, valid := true }
      | none => { x with samples := l }) s)

/-! ## Sin/cos interpolation (R316) -/

/-- arctan(2^−i) in 1/2^32 period. -/
def atanTable : List Int :=
  [536870912, 316933406, 167458907, 85004756, 42667331, 21354465, 10679838, 5340245, 2670163, 1335087, 667544, 333772, 166886, 83443,
   41722, 20861, 10430, 5215, 2608, 1304]

/-- The angle of (c, s) with c > 0, in 1/2^32 period, by 20 rotations. -/
def rotations (c s : Int) : Int :=
  ((List.range 20).foldl (fun (a : Int × Int × Int) i =>
    let z := atanTable.getD i 0
    if a.2.1 < 0 then (a.1 - shr a.2.1 i, a.2.1 + shr a.1 i, a.2.2 - z)
    else (a.1 + shr a.2.1 i, a.2.1 - shr a.1 i, a.2.2 + z)) (c * 2 ^ 20, s * 2 ^ 20, 0)).2.2

/-- The step, 1/4,096 period, in which the angle of sine `s` and cosine `c` lies; exact for the multiples of 45 degrees. -/
def phaseStep (s c : Int) : Nat :=
  if s = 0 then (if c < 0 then 2048 else 0)
  else if c = 0 then (if s < 0 then 3072 else 1024)
  else if s = c then (if s < 0 then 2560 else 512)
  else if s = -c then (if s < 0 then 3584 else 1536)
  else
    let a := if c < 0 then 2 ^ 31 + rotations (-c) (-s) else rotations c s
    narrow 12 (a / 2 ^ 20)

/-- The angle is a whole number of steps. -/
def phaseExact (s c : Int) : Bool := s = 0 || c = 0 || s = c || s = -c

/-- ph of R316: atan2 within one step of the angle; which of the steps is left open and is a free value (log 5). -/
def interpolate (s c : Int) : Nat :=
  let f := Config.freeAngle s c
  if s = 0 ∧ c = 0 then f % 4096
  else if phaseExact s c then (phaseStep s c + 4095 + f % 3) % 4096
  else (phaseStep s c + f % 2) % 4096

/-! ## Commands (R341, R342) -/

/-- A compare of the channel is armed, or a generator sourced from it is in RUN or HOLD (R341). -/
def pcInUse (s : State) (n : Nat) : Bool :=
  (List.range 4).any (cmpArmed s n) || (pcGens s n).any (fun g => (lt s g).st = .run || (lt s g).st = .hold)

/-- The outcome of a position command: status word, and the event of a refusal. -/
def posResult (o inst cmd res : Nat) (s : State) : State :=
  let s1 := wr o (BitVec.ofNat 32 (res + 16 * gnum s + 256 * cmd)) s
  if res = 1 then s1 else logEvent Ev.POS_CMD_REJECT inst inst cmd res s1

/-- The states of a channel command's table: RESET and IMAGE_LOAD refuse. -/
def posEarly (s : State) (n : Nat) : Bool := s.glb.state = .reset || s.glb.state = .imageLoad || pcUnused s n

/-- PRESET on channel `n` (R323). -/
def preset (n : Nat) (s : State) : State :=
  let p := (rd s (R.POS_PCn_PRESET_INT n)).toNat * 65536 + fld s (R.POS_PCn_PRESET_FRAC n) 15 0
  let s1 := modPc n (fun x => { restart { x with pos := p, epoch := 0, dir := false, ext := p, suspect := false } [] with
    cmp := x.cmp.map (fun c => { c with mark := p }) }) s
  let s2 := forEach (pcGens s1 n) (modGen · (fun x => { x with hw := p })) s1
  forEach (those 4 (fun e => eeSource s2 e = n)) eeRef s2

/-- A channel command of the table of R341: 1 PRESET, 2 CLRCNT. -/
def posCmd (n cmd : Nat) (s : State) : State :=
  let o := R.POS_PCn_CMD_STATUS n
  if s.glb.state = .off then s
  else if cmd = 1 then
    if posEarly s n || pcInUse s n || s.glb.state = .shutdown then posResult o n 1 2 s
    else preset n (posResult o n 1 1 s)
  else if cmd = 2 then
    if posEarly s n then posResult o n 2 2 s else wr (R.POS_PCn_FAULTCNT n) 0 (posResult o n 2 1 s)
  else posResult o n cmd 3 s

/-- POS_PRESET (R323, R341). -/
def execPosPreset (n : Fin 8) (s : State) : Host.Outcome State Fault Refusal := finish (viaTable (R.POS_PCn_CMD n) (posCmd n 1) s)

/-- POS_CLRCNT (R341). -/
def execPosClrcnt (n : Fin 8) (s : State) : Host.Outcome State Fault Refusal := finish (viaTable (R.POS_PCn_CMD n) (posCmd n 2) s)

/-- ARM of a compare: mark reset, counts cleared, behind check (R333, R342). -/
def cmpArm (n m : Nat) (s : State) : State :=
  let s1 := modCmp n m (fun _ => ⟨(pch s n).pos, 0⟩) (wr (R.POS_PCn_CMPm_SKIPCNT n m) 0 (wr (R.POS_PCn_CMPm_STAT n m) 1 s))
  if cmpDir s1 n m ≠ 2 ∧ 0 ≤ cmpPast s1 n m then cmpBehind n m s1 else s1

/-- A compare command of the table of R342: 1 ARM, 2 DISARM. -/
def cmpCmd (n m cmd : Nat) (s : State) : State :=
  let o := R.POS_PCn_CMPm_CMD_STATUS n m
  let inst := 0x20 + cmpInst n m
  if s.glb.state = .off then s
  else if cmd = 1 then
    if posEarly s n || cmpArmed s n m || s.glb.state = .shutdown then posResult o inst 1 2 s
    else cmpArm n m (posResult o inst 1 1 s)
  else if cmd = 2 then
    if posEarly s n then posResult o inst 2 2 s else cmpDisarm n m (posResult o inst 2 1 s)
  else posResult o inst cmd 3 s

/-- CMP_ARM (R333, R334, R342). -/
def execCmpArm (n : Fin 8) (m : Fin 4) (s : State) : Host.Outcome State Fault Refusal := finish (viaTable (R.POS_PCn_CMPm_CMD n m) (cmpCmd n m 1) s)

/-- CMP_DISARM (R342). -/
def execCmpDisarm (n : Fin 8) (m : Fin 4) (s : State) : Host.Outcome State Fault Refusal := finish (viaTable (R.POS_PCn_CMPm_CMD n m) (cmpCmd n m 2) s)

/-! ## The snapshot (R321) -/

/-- The live POS_FRAC word. -/
def posFrac (x : Pc) : Word := BitVec.ofNat 32 (x.pos % 65536 + x.epoch * 65536)

/-- A read of POS_INT takes the snapshot. -/
def posSnap (n : Nat) (s : State) : State := modPc n (fun x => { x with snap := some (posFrac x, x.v, x.valid) }) s

/-- POS_INT_READ (R321). -/
def execPosIntRead (n : Fin 8) (s : State) : Host.Outcome State Fault Refusal :=
  finish (let off := R.POS_PCn_POS_INT n
    let s1 := hostAccess s
    if windowOpen s 0 off false then respond 0 off (leBytes 4 (ipart (pch s n).pos)) (posSnap n s1)
    else earlyAccess 0 off false 4 s1)

/-! ## A commit that carries POSITION (R322) -/

/-- Channel `n` after the commit: count, epoch, direction flag and its reference stay; history, capture, faults and marks start afresh, the
compares disarmed (R322, R324). -/
def Pc.afterCommit (x : Pc) : Pc :=
  let y := { Pc.reset with pos := x.pos, epoch := x.epoch, dir := x.dir, ext := x.ext, suspect := x.suspect }
  { y with samples := [x.pos], cmp := y.cmp.map (fun c => { c with mark := x.pos }) }

/-- An output after the commit that sets its source: its count and levels start at 0, from a new reference (R337, R340). -/
def eeCommit (e : Nat) (s : State) : State :=
  let old := eeu s e
  eeRef e (modEe e (fun _ => Ee.reset) (eePin e "EEn_A" old.a false (eePin e "EEn_B" old.b false s)))

/-- The channels, the marks of the generators sourced from them, and the outputs, once the image is in force (R322, R325, R337). -/
def pcCommit (s : State) : State :=
  let s1 := { s with pc := s.pc.map Pc.afterCommit }
  let s2 := forEach (those 16 (fun g => ltSource s1 g < 8)) (fun g s => modGen g (fun x => { x with hw := (pch s (ltSource s g)).pos }) s) s1
  forEach (List.range 4) eeCommit s2

end Sys2Proof.Machine
end

