-- ==== Sys2Proof/Machine/Profile.lean ====
section
/-!
DEFINITION. The jerk-limited profile generator that stepper axes and positioning motor channels share (spec/11_steppers.md R348 to
R353). The spec gives the trajectory and not the arithmetic of an update: the model keeps exact integers and picks, in each update,
the largest acceleration from which the axis can still stop at its goal (DESIGN CHOICE, log 30).
-/
namespace Sys2Proof.Machine

/-- Updates per second: 1 / 1.28 µs. -/
def updRate : Int := 781250

/-- One microstep (or count) in generator units. -/
def unitPos : Int := 16 * updRate * updRate * updRate

/-- 1/16 microstep/s, 1 microstep/s² and 1,024 microsteps/s³ in generator units per update. -/
def unitVel : Int := updRate * updRate
def unitAcc : Int := 16 * updRate
def unitJerk : Int := 16 * 1024

/-- The greatest integer whose square is at most `n`, for n below 2^(2k). -/
def rootBits (k n : Nat) : Nat := (List.range k).foldr (fun i r => let t := r + 2 ^ i; if t * t ≤ n then t else r) 0

/-- s_stop of R350 from a = 0, in generator units. -/
def stopFlat (j d v : Int) : Int :=
  if d * d ≤ v * j then quotI (v * v) (2 * d) + quotI (v * d) (2 * j)
  else v * (rootBits 80 (quotI (v * 2 ^ 80) j).toNat : Nat) / 2 ^ 40

/-- The distance covered, and the speed left, while an acceleration a < −d is brought up to −d at j (R350). -/
def easeOff (j d v a : Int) : Int × Int :=
  let u := -a - d
  (quotI (v * u) j - quotI (-a * u * u) (2 * j * j) + quotI (u * u * u) (6 * j * j), v - quotI (a * a - d * d) (2 * j))

/-- s_stop of R350 from speed v > 0 and an acceleration a ≥ −d, in the direction of motion. -/
def stopWithin (j d v a : Int) : Int :=
  if 0 ≤ a then stopFlat j d (v + quotI (a * a) (2 * j)) + quotI (v * a) j + quotI (a * a * a) (3 * j * j)
  else if v * 2 * j ≤ a * a then quotI (v * (-a)) (3 * j)
  else
    let w := v + quotI (a * a) (2 * j)
    stopFlat j d w - (quotI (w * (-a)) j - quotI ((-a) * (-a) * (-a)) (6 * j * j))

/-- s_stop of R350 from speed v > 0 and acceleration a, in the direction of motion; a retarget may leave a below −d. -/
def stopDist (j d v a : Int) : Int :=
  if a < -d ∧ a * a < v * 2 * j then
    let e := easeOff j d v a
    e.1 + stopWithin j d e.2 (-d)
  else stopWithin j d v a

/-- The next acceleration on the normal way to rest (R350): to −d at j, held, back to 0 at j. -/
def brakeAcc (j d v a : Int) : Int := if a < 0 ∧ v * 2 * j ≤ a * a then min (a + j) 0 else sat (a - j) (a + j) (-d)

/-- The largest acceleration from which a speed short of its goal by `d` ≥ 0 settles at it, with the acceleration back at 0 (R349). -/
def settleAcc (j d : Int) : Int := if d ≤ j then d else (rootBits 64 (j * j + 2 * d * j).toNat : Nat) - j

/-- The next acceleration toward a speed that lies `d` away, from acceleration `a`: raised within `up`, lowered within `dn`, changed by at
most j (R349). -/
def speedAcc (j up dn d a : Int) : Int :=
  sat (a - j) (a + j) (if 0 ≤ d then min up (settleAcc j d) else -min dn (settleAcc j (-d)))

/-- The next acceleration towards the speed vmax from a speed in its direction: up within amax, down within dmax. -/
def cruiseAcc (x : Prof) (v a : Int) : Int := speedAcc x.jmax x.amax x.dmax (x.vmax - v) a

/-- The same from a speed `v` < 0, against the direction: within dmax, and back at amax by the time the speed turns. -/
def turnAcc (x : Prof) (v a : Int) : Int :=
  let up := if x.dmax ≤ x.amax then x.dmax
    else min x.dmax (max x.amax ((rootBits 64 (x.jmax * x.jmax + x.amax * x.amax - 2 * x.jmax * v).toNat : Nat) - x.jmax))
  speedAcc x.jmax up x.dmax (x.vmax - v) a

/-- The speed after an update that brakes from v > 0: rest once it would turn, or once the acceleration is back at 0. -/
def brakeVel (v a a1 : Int) : Int := if v + a1 ≤ 0 ∨ (a < 0 ∧ a1 = 0) then 0 else v + a1

/-- One update of v and a on the normal way to rest, for either direction. -/
def brakeStep (x : Prof) : Int × Int :=
  let g : Int := if x.v < 0 then -1 else 1
  if x.v = 0 then (0, 0)
  else
    let a1 := brakeAcc x.jmax x.dmax (g * x.v) (g * x.a)
    let v1 := brakeVel (g * x.v) (g * x.a) a1
    (g * v1, if v1 = 0 then 0 else g * a1)

/-- One update of v and a toward the speed vmax in direction `g` (JOG, R349). -/
def jogStep (x : Prof) (g : Int) : Int × Int :=
  let a1 := if g * x.v < 0 then turnAcc x (g * x.v) (g * x.a) else cruiseAcc x (g * x.v) (g * x.a)
  (x.v + g * a1, g * a1)

/-- The largest acceleration up to `a1` with which an axis at rest still stops within a distance `r` ahead (R349). -/
def creepAcc (x : Prof) (a1 r : Int) : Int :=
  (List.range 80).foldr (fun i (t : Int) => let u := t + 2 ^ i
    if u ≤ a1 ∧ u + stopDist x.jmax x.dmax u u ≤ r then u else t) 0

/-- One update of v and a toward rest at a distance `dist` ahead (MOVE, R349, R351); at rest within the resolution of an update the
distance is closed. Answers v, a and whether the goal is reached. -/
def moveStep (x : Prof) (dist : Int) : Int × Int × Bool :=
  let g : Int := if dist < 0 then -1 else 1
  let r := g * dist
  let v := g * x.v
  let a := g * x.a
  if r ≤ 16 * x.jmax ∧ v.natAbs ≤ (4 * x.jmax).natAbs then (0, 0, true)
  else if v < 0 then let b := brakeStep x; (b.1, b.2, false)
  else
    let a1 := cruiseAcc x v a
    let v1 := v + a1
    if 0 ≤ v1 ∧ v1 + stopDist x.jmax x.dmax v1 a1 ≤ r then (g * v1, g * a1, false)
    else if v = 0 then
      if r ≤ 64 * x.jmax then (0, 0, true)
      else let c := creepAcc x a1 r; (g * c, g * c, false)
    else
      let a2 := brakeAcc x.jmax x.dmax v a
      let v2 := brakeVel v a a2
      (g * v2, if v2 = 0 then 0 else g * a2, false)

/-- One update of v and a on the emergency ramp: the acceleration is −edec·sgn(v) at once (R353). -/
def emergStep (x : Prof) (edec : Int) : Int × Int :=
  if 0 < x.v then (max (x.v - edec) 0, if x.v ≤ edec then 0 else -edec)
  else if x.v < 0 then (min (x.v + edec) 0, if -x.v ≤ edec then 0 else edec)
  else (0, 0)

/-- The size of the position ring in generator units: positions wrap modulo 2^32 (R2). -/
def ring : Int := 2 ^ 32 * unitPos

/-- The signed distance to a 32-bit target. -/
def Prof.dist (x : Prof) (tgt : Nat) : Int :=
  let d := ((tgt : Int) * unitPos - x.p) % ring
  if 2 * d < ring then d else d - ring

/-- The position read as a signed number. -/
def Prof.signedPos (x : Prof) : Int := if 2 * x.p < ring then x.p else x.p - ring

/-- The distance to a soft limit, both read as signed numbers (R352). -/
def Prof.ahead (x : Prof) (lim : Nat) : Int := signed 32 lim * unitPos - x.signedPos

/-- The position as a 32.16 number, and the speed in 1/16 microstep/s. -/
def Prof.pos (x : Prof) : Nat := narrow 48 (x.p * 65536 / unitPos)
def Prof.vel (x : Prof) : Int := Int.tdiv x.v unitVel

/-- The generator at rest at a 32.16 position. -/
def Prof.place (x : Prof) (pos : Nat) : Prof := { x with p := (pos : Int) * unitPos / 65536, v := 0, a := 0, goal := .none }

/-- Limits latched from register values (R348). -/
def Prof.latch (x : Prof) (vmax amax dmax jmax : Nat) : Prof :=
  { x with vmax := vmax * unitVel, amax := amax * unitAcc, dmax := dmax * unitAcc, jmax := jmax * unitJerk }

/-- The next speed and acceleration, and whether the goal is reached, for the present goal. -/
def Prof.next (x : Prof) (edec : Nat) : Int × Int × Bool :=
  match x.goal with
  | .none => (0, 0, true)
  | .pos t => moveStep x (x.dist t)
  | .jog lim => moveStep x (x.ahead lim)
  | .vel neg => let r := jogStep x (if neg then -1 else 1); (r.1, r.2, false)
  | .stop => let r := brakeStep x; (r.1, r.2, r.1 = 0)
  | .emerg => let r := emergStep x (edec * unitAcc); (r.1, r.2, r.1 = 0)

/-- The generator moved by one update; a reached target is met exactly (R349). -/
def Prof.move (x : Prof) (r : Int × Int × Bool) : Prof :=
  match x.goal, r.2.2 with
  | .pos t, true => { x with p := (t : Int) * unitPos, v := 0, a := 0, goal := .none }
  | .jog t, true => { x with p := (t : Int) * unitPos, v := 0, a := 0, goal := .none }
  | _, true => { x with v := 0, a := 0, goal := .none }
  | _, false => { x with p := (x.p + r.1) % ring, v := r.1, a := r.2.1 }

/-- The update held at the present speed: a ledger request waits (R354). -/
def Prof.coast (x : Prof) : Prof := { x with p := (x.p + x.v) % ring, a := 0 }

/-- The update raises |v|. -/
def Prof.rises (x : Prof) (r : Int × Int × Bool) : Bool := x.v.natAbs < r.1.natAbs

/-- The stop point of the normal plan, read as signed, in generator units and in whole microsteps (R352). -/
def Prof.stopAt (x : Prof) : Int :=
  let g : Int := if x.v < 0 then -1 else 1
  x.signedPos + (if x.v = 0 then 0 else g * stopDist x.jmax x.dmax (g * x.v) (g * x.a))
def Prof.stopPoint (x : Prof) : Int := x.stopAt / unitPos

/-- The limit among `lo` and `hi` (microsteps, signed) that the stop point crosses ahead, by more than an update resolves (R352; log 30). -/
def Prof.crosses (x : Prof) (lo hi : Int) : Option Int :=
  if 0 < x.v ∧ hi * unitPos + 64 * x.jmax < x.stopAt then some hi
  else if x.v < 0 ∧ x.stopAt < lo * unitPos - 64 * x.jmax then some lo
  else none

end Sys2Proof.Machine
end

