-- ==== Sys2Proof/Machine/Axis.lean ====
section
/-!
DEFINITION. Stepper axes as other units act on them: state changes, moves, stops, the emergency ramp, the hold
(spec/11_steppers.md R344 to R369).
-/
namespace Sys2Proof.Machine

/-- Axis `n` and the state with it changed. -/
def ax (s : State) (n : Nat) : Axis := vat s.stp n
def modAx (n : Nat) (f : Axis → Axis) (s : State) : State := { s with stp := vmod s.stp n f }
def modProf (n : Nat) (f : Prof → Prof) (s : State) : State := modAx n (fun x => { x with prof := f x.prof }) s

/-- The encoding of STP_SAn_STAT.state. -/
def AxSt.code : AxSt → Nat
  | .off => 1
  | .hold => 2
  | .moving => 3
  | .homing => 4
  | .estop => 5
  | .fault => 6

/-- The state as STP_SAn_STAT shows it: 0 while UNUSED. -/
def axCode (s : State) (n : Nat) : Nat := if axUsed s n then (ax s n).st.code else 0

/-- Axis `n` drives the transport, or the carriage. -/
def axIsTransport (s : State) (n : Nat) : Bool := trKind s = 2 && trIndex s = n
def axIsCarriage (s : State) (n : Nat) : Bool := scanning s && caKind s = 2 && caIndex s = n

/-- HALT for the transport and the carriage, else WARN (R347, R363). -/
def axSev (s : State) (n : Nat) : Sev := if axIsTransport s n || axIsCarriage s n then .halt else .warn

/-- The ledger class of an axis that asks for grants (R354). -/
def axClass (s : State) (n : Nat) : Option Nat :=
  if axIsTransport s n then some 4 else if axIsCarriage s n then some 5 else none

/-- Axis `n` is owned by the device (R369). -/
def axOwned (s : State) (n : Nat) : Bool :=
  (axIsTransport s n && s.ss.phase ≠ 0) ||
  (axIsCarriage s n && (s.scn.st = .ready || s.scn.st = .turn || s.scn.st = .sweep || s.scn.st = .held))

/-- An axis changes state (R372). -/
def setAx (n : Nat) (st : AxSt) (s : State) : State :=
  if (ax s n).st = st then s
  else logEvent Ev.STP_STATE n n (axCode s n) st.code (modAx n (fun x => { x with st := st }) s)

/-- The grant of the axis, or its request, ends. -/
def axRelease (n : Nat) (s : State) : State :=
  match axClass s n with
  | some c => ledgerRelease c n s
  | none => s

/-- The axis goes OFF: outputs low, the motion ends where it is, the position stays (R344, R370). -/
def axOff (n : Nat) (s : State) : State :=
  axRelease n (setAx n .off (modAx n (fun x =>
    { x with prof := { x.prof with v := 0, a := 0, goal := .none }, phase := 0, after := none, toFault := false, dark := false,
             parkOff := false, coilA := 0, coilB := 0 }) s))

/-- The emergency ramp starts (R353); `fault`: it ends in FAULT; `after`: a MOVE target to continue with. -/
def axRamp (n : Nat) (fault : Bool) (after : Option Nat) (s : State) : State :=
  setAx n .estop (modAx n (fun x =>
    { x with prof := { x.prof with goal := .emerg }, phase := 0, toFault := fault, after := after, low := false }) s)

/-- The limits of the profile registers latched into the generator (R348). -/
def axLatch (s : State) (n : Nat) (x : Prof) : Prof :=
  x.latch (rd s (R.STP_SAn_VMAX n)).toNat (rd s (R.STP_SAn_AMAX n)).toNat (rd s (R.STP_SAn_DMAX n)).toNat (rd s (R.STP_SAn_JMAX n)).toNat

/-- Soft limits act on the axis (R352). -/
def axSoft (s : State) (n : Nat) : Bool := fld s (R.STP_SAn_LIMCFG n) 0 0 = 1 && (ax s n).homed
def axMin (s : State) (n : Nat) : Int := signed 32 (rd s (R.STP_SAn_SOFTMIN n)).toNat
def axMax (s : State) (n : Nat) : Int := signed 32 (rd s (R.STP_SAn_SOFTMAX n)).toNat

/-- The axis takes a plan with the limits latched now: MOVING, run amplitude (R348, R362). -/
def axPlan (n : Nat) (g : Goal) (s : State) : State :=
  setAx n .moving (modAx n (fun x => { x with prof := { axLatch s n x.prof with goal := g }, low := false, after := none, parkOff := false }) s)

/-- A target lies where a MOVE may not go: beyond a soft limit, or toward an asserted limit (R352, R355). -/
def axBadTarget (s : State) (n tgt : Nat) : Bool :=
  let t := signed 32 tgt
  let d := (ax s n).prof.dist tgt
  (axSoft s n && (t < axMin s n || axMax s n < t)) || ((ax s n).lima && d < 0) || ((ax s n).limb && 0 < d)

/-- A MOVE to a target, as software or an owner commands it; false when it is refused (R348, R352, R355). -/
def axMove (n tgt : Nat) (s : State) : Bool × State :=
  let st := (ax s n).st
  if (st ≠ .hold ∧ st ≠ .moving) ∨ axBadTarget s n tgt then (false, s) else (true, axPlan n (.pos tgt) s)

/-- The goal of a JOG: the speed vmax, up to rest at the soft limit ahead while soft limits act (R352). -/
def jogGoal (s : State) (n : Nat) (neg : Bool) : Goal :=
  let l := narrow 32 (if neg then axMin s n else axMax s n)
  let d := (ax s n).prof.ahead l
  if axSoft s n && (if neg then d ≤ 0 else 0 ≤ d) then .jog l else .vel neg

/-- A normal stop (R370). -/
def axStop (n : Nat) (s : State) : State :=
  if (ax s n).st = .moving then modProf n (fun x => { x with goal := .stop }) s
  else if (ax s n).st = .homing then
    setAx n .moving (modAx n (fun x => { x with prof := { x.prof with goal := .stop }, phase := 0, homed := false }) s)
  else s

/-- The axis is at rest. -/
def axAtRest (s : State) (n : Nat) : Bool := (ax s n).prof.v = 0 && (ax s n).prof.goal = .none

/-- Every axis on entry to SAFE_HOLD or SHUTDOWN (R368). One in FAULT whose outputs are low already stays there until CLRFAULT (DESIGN CHOICE,
log 78). -/
def axHold (s : State) : State :=
  forEach (List.range 8) (fun n s =>
    if !axUsed s n ∨ (ax s n).st = .off ∨ (ax s n).dark then s
    else if axHoldOff s n then axOff n s
    else if (ax s n).st = .fault then s
    else if (ax s n).prof.v = 0 then
      axRelease n (setAx n .hold (modAx n (fun x => { x with prof := { x.prof with a := 0, goal := .none }, phase := 0, low := true }) s))
    else axRelease n (axRamp n false none s)) s

/-- From SELFTEST on every used axis is OFF until LINK_TRAIN ends (R368). -/
def axAllOff (s : State) : State := forEach (List.range 8) (fun n s => if axUsed s n then axOff n s else s) s

/-- Every moving axis stops on its own normal plan, one on its emergency ramp comes to rest there; at rest it acts as its safe_hold field
sets now (RELOAD, R71). -/
def axReload (s : State) : State :=
  forEach (List.range 8) (fun n s =>
    if !axUsed s n then s
    else if (ax s n).st = .hold then (if axHoldOff s n then axOff n s else s)
    else modAx n (fun x => { x with after := none, parkOff := axHoldOff s n && (x.st = .moving || x.st = .estop) }) (axStop n s)) s

end Sys2Proof.Machine
end

