-- ==== Sys2Proof/Machine/MotorBase.lean ====
section
/-!
DEFINITION. Motor channels as other units act on them: state changes, moves, stops, the hold (spec/12_motor_drive.md R374, R390 to
R398).
-/
namespace Sys2Proof.Machine

/-- Channel `n` and the state with it changed. -/
def mo (s : State) (n : Nat) : Motor := vat s.mot n
def modMo (n : Nat) (f : Motor → Motor) (s : State) : State := { s with mot := vmod s.mot n f }

/-- The encoding of MOT_MCn_STAT.state. -/
def MoSt.code : MoSt → Nat
  | .off => 1
  | .sense => 2
  | .revbrake => 3
  | .align => 4
  | .startup => 5
  | .run => 6
  | .decel => 7
  | .reacq => 8
  | .coast => 9
  | .brake => 10
  | .fault => 11

/-- The channel is used; it runs in encoder mode. -/
def moUsed (s : State) (n : Nat) : Bool := moMode s n ≠ 0
def moEncoder (s : State) (n : Nat) : Bool := moMode s n = 2

/-- The state as MOT_MCn_STAT shows it: 0 while UNUSED. -/
def moCode (s : State) (n : Nat) : Nat := if moUsed s n then (mo s n).st.code else 0

/-- Channel `n` drives the transport, or the carriage. -/
def moIsTransport (s : State) (n : Nat) : Bool := trKind s = 1 && trIndex s = n
def moIsCarriage (s : State) (n : Nat) : Bool := scanning s && caKind s = 1 && caIndex s = n

/-- The severity of an event shown as HALT or WARN (R401), and of MOT_ROTOR_LOST (R389). -/
def moSev (s : State) (n : Nat) : Sev := if moIsTransport s n || moIsCarriage s n then .halt else .warn
def lostSev (s : State) (n : Nat) : Sev := if moIsTransport s n then .stop else .warn

/-- The ledger class of the channel (R395). -/
def moClass (s : State) (n : Nat) : Nat :=
  if moIsTransport s n then 4 else if moIsCarriage s n then 5 else if fld s (R.MOT_MCn_CFG n) 0 0 = 0 then 2 else 3

/-- The instance under which a channel asks the ledger: its number. -/
def moInst (n : Nat) : Nat := n

/-- Channel `n` is owned by the device (R398). -/
def moOwned (s : State) (n : Nat) : Bool :=
  (moIsTransport s n && s.ss.phase ≠ 0) ||
  (moIsCarriage s n && (s.scn.st = .ready || s.scn.st = .turn || s.scn.st = .sweep || s.scn.st = .held))

/-! ## Gate outputs (R373, R374) -/

/-- The three drive conditions. -/
inductive Drive where
  | coast | short | modulated
  deriving DecidableEq, Repr

/-- The drive condition of a channel (R374, R375, R384 to R392, R397). -/
def Motor.cond (x : Motor) : Drive :=
  match x.st with
  | .revbrake => if x.chop then .coast else .short
  | .brake => if x.chop then .coast else .short
  | .fault => if x.shorted && !x.chop then .short else .coast
  | .align => .modulated
  | .startup => .modulated
  | .run => .modulated
  | .decel => .modulated
  | _ => .coast

/-- CLK_MOT cycles in a PWM period. -/
def moPeriod (s : State) (n : Nat) : Nat := 200000 / max 1 (moPwmKhz s n)

/-- Both switches of a phase off; the low side alone on over the period. -/
def Gates.off : Gates := ⟨0, 0, 0, 0⟩
def Gates.low (t : Nat) : Gates := ⟨0, 0, t, t⟩

/-- Centre-aligned PWM of a phase in a period of `t` cycles, the high side on for `d` of them less the dead time `dt`, which stands between the
fall of one output and the rise of its partner (R373). -/
def Gates.pwm (t dt d : Nat) : Gates :=
  let w := min d (t - 2 * dt)
  let a := (t - w) / 2
  if w ≤ dt then Gates.low t else ⟨a + dt, a + w, a, a + w + dt⟩

/-- The outputs of a channel take a pattern and are driven with it when it differs. -/
def putGates (n : Nat) (g : Vector Gates 3) (s : State) : State :=
  if (mo s n).gates = g then s else emit (.gates n g.toList) (modMo n (fun x => { x with gates := g }) s)

/-- The outputs follow the drive condition at once; modulation follows period by period (R374, R375, R378, R388). -/
def moDrive (n : Nat) (s : State) : State :=
  match (mo s n).cond with
  | .coast => putGates n (Vector.replicate 3 Gates.off) s
  | .short => putGates n (Vector.replicate 3 (Gates.low (moPeriod s n))) s
  | .modulated => s

/-- A channel changes state (R401). -/
def setMo (n : Nat) (st : MoSt) (s : State) : State :=
  if (mo s n).st = st then s
  else moDrive n (logEvent Ev.MOT_STATE n n (moCode s n) st.code (modMo n (fun x => { x with st := st }) s))

/-- The grant of the channel, or its request, ends. -/
def moRelease (n : Nat) (s : State) : State := ledgerRelease (moClass s n) (moInst n) s

/-- What ends with modulation: demand, profile, currents' regulation. -/
def Motor.idle (x : Motor) : Motor :=
  { x with moving := false, prof := { x.prof with v := 0, a := 0, goal := .none }, demand := 0, cap := none, capV := none, id := 0, iq := 0,
           idref := 0, iqref := 0, ud := 0, uq := 0, dInt := 0, qInt := 0, sInt := 0, iqReg := 0, rampFrom := 0, sector := 0, comm := 0,
           commAt := none, revAt := none, thenCoast := false, after := none, lock := false, angRun := 0, emfRun := 0, lockRun := 0, emerg := false, phold := false, ramp := 0,
           zc := [], closed := false, matched := 0, forced := 0, revFrom := none, revHold := false, chop := false }

/-- The channel enters COAST: all outputs low (R374, R392). -/
def moCoast (n : Nat) (brake : Bool) (s : State) : State :=
  moRelease n (setMo n .coast (modMo n (fun x => { x.idle with wantBrake := brake }) s))

/-- The channel enters SENSE, a plan latched or not (R384). -/
def moSense (n : Nat) (move : Bool) (s : State) : State :=
  setMo n .sense (modMo n (fun x => { x.idle with moving := move, prof := if move then x.prof else x.idle.prof,
                                                  wantBrake := false, fails := 0, reacqAt := none }) s)

/-- The limits of the position profile latched into the generator (R394). -/
def moLatch (s : State) (n : Nat) (x : Prof) : Prof :=
  x.latch (rd s (R.MOT_MCn_PVMAX n)).toNat (rd s (R.MOT_MCn_PAMAX n)).toNat (rd s (R.MOT_MCn_PDMAX n)).toNat (rd s (R.MOT_MCn_PJMAX n)).toNat

/-- Soft limits act on the channel (R394: the homed condition is taken as 1). -/
def moSoft (s : State) (n : Nat) : Bool := fld s (R.MOT_MCn_LIMCFG n) 0 0 = 1
def moMin (s : State) (n : Nat) : Int := signed 32 (rd s (R.MOT_MCn_SOFTMIN n)).toNat
def moMax (s : State) (n : Nat) : Int := signed 32 (rd s (R.MOT_MCn_SOFTMAX n)).toNat

/-- A MOVE's target lies beyond a soft limit. -/
def moBadTarget (s : State) (n tgt : Nat) : Bool :=
  moSoft s n && (signed 32 tgt < moMin s n || moMax s n < signed 32 tgt)

/-- The generator takes up the encoder's present position and speed. -/
def moTake (s : State) (n : Nat) (x : Prof) : Prof :=
  let c := pch s (moEncPc s n)
  { x with p := (c.pos : Int) * unitPos / 65536, v := c.v * unitVel, a := 0 }

/-- The generator of a channel that does not run under it starts from the encoder's position at the present speed. -/
def moSeed (s : State) (n : Nat) : Prof :=
  if (mo s n).moving && (mo s n).st ≠ .decel then (mo s n).prof else moTake s n (mo s n).prof

/-- A channel takes a plan with the limits latched now. -/
def moPlan (n : Nat) (g : Goal) (s : State) : State :=
  let pr := { moLatch s n (moSeed s n) with goal := g }
  modMo n (fun x => { x with moving := true, prof := pr, phold := false, cap := none, capV := none, thenCoast := false, after := none }) s

/-- A MOVE as software or an owner commands it; false when it is refused (R394, R399). -/
def moMove (n tgt : Nat) (s : State) : Bool × State :=
  if !moEncoder s n || moBadTarget s n tgt then (false, s)
  else
    match (mo s n).st with
    | .off => (true, moSense n true (moPlan n (.pos tgt) s))
    | .coast => (true, moSense n true (moPlan n (.pos tgt) s))
    | .brake => (true, moSense n true (moPlan n (.pos tgt) s))
    | .decel => if (mo s n).emerg then (false, s) else (true, setMo n .run (moPlan n (.pos tgt) s))
    | .reacq => (false, s)
    | .fault => (false, s)
    | _ => (true, moPlan n (.pos tgt) s)

/-- The channel decelerates: its speed demand at ACC.dec, or on the emergency ramp; a plan ends (R390, R391). -/
def moDecel (n : Nat) (emerg : Bool) (s : State) : State :=
  setMo n .decel (modMo n (fun x =>
    { x with emerg := emerg, phold := false, thenCoast := false, after := none, prof := { x.prof with goal := .none } }) s)

/-- The channel is at rest: OFF, BRAKE, or holding its position (R35, R390). -/
def moAtRest (s : State) (n : Nat) : Bool :=
  match (mo s n).st with
  | .off => true
  | .brake => true
  | .run => (mo s n).phold && (mo s n).speed = 0
  | _ => false

/-- Every channel on entry to SAFE_HOLD or SHUTDOWN (R397). -/
def moHold (s : State) : State :=
  forEach (List.range 4) (fun n s =>
    if !moUsed s n ∨ (mo s n).st = .off ∨ (mo s n).st = .fault then s else moCoast n (moBrake s n) s) s

/-- Every channel ramps its speed demand to zero at ACC.dec, on an emergency ramp too, and then coasts; one that is not under control coasts at once (RELOAD, R71,
R397). -/
def moReload (s : State) : State :=
  forEach (List.range 4) (fun n s =>
    if !moUsed s n then s
    else
      let slow (s : State) : State := modMo n (fun x => { x with moving := false, thenCoast := true, emerg := false, after := none }) s
      match (mo s n).st with
      | .off => s
      | .fault => s
      | .run => slow (moDecel n false s)
      | .decel => slow s
      | _ => moCoast n false s) s

end Sys2Proof.Machine
end

