-- ==== Sys2Proof/Machine/CasSend.lean ====
section
/-!
DEFINITION. What a device sends on the cascade: frames, broadcasts, STAT and bell sets (spec/14_cascade.md R425, R427, R434, R437,
R438, R442, R444).
-/
namespace Sys2Proof.Machine

/-- The device is in a chain: its image names a role. -/
def chained (s : State) : Bool := casRole s ≠ 0

/-- The device is the campanile; a member. -/
def isCampanile (s : State) : Bool := casRole s = 1
def isMember (s : State) : Bool := casRole s = 2

/-- The role under which the device sends: its chain position. -/
def myRole (s : State) : Nat := if isCampanile s then 0 else s.cas.position

/-- The bytes of a frame (R427). -/
def casBytes (type seq src dst epoch : Nat) (body : List Byte) : List Byte :=
  let b := leBytes 1 type ++ leBytes 1 seq ++ leBytes 1 src ++ leBytes 1 dst ++ leBytes 2 epoch ++ leBytes 2 body.length ++ body ++
    (if body.length % 2 = 1 then [0] else [])
  b ++ leBytes 4 (crc32c b).toNat

/-- A port is ACTIVE. -/
def cuUp (s : State) : Bool := s.cas.cu.st = .active
def cdUp (s : State) : Bool := s.cas.cd.st = .active

/-- A frame leaves on a port that is ACTIVE: 0 CU, 1 CD; from SOF to EOF, byte 2i on lane 0 and byte 2i + 1 on lane 1 (R422, R427). -/
def casPut (port : Nat) (bs : List Byte) (s : State) : State :=
  if (if port = 0 then cuUp s else cdUp s) then
    emit (if casSwap s port then .casFrame port (laneSyms 1 bs) (laneSyms 0 bs) else .casFrame port (laneSyms 0 bs) (laneSyms 1 bs)) s
  else s

/-- The port toward a position: 0 CU for a lower one, and from a member for the campanile's, 1 CD for a higher one. -/
def casToward (s : State) (pos : Nat) : Nat := if pos < s.cas.position ∨ (isMember s ∧ pos = 0) then 0 else 1

/-- The position that a destination role means; 0x40 is the transport device. -/
def casPos (s : State) (dst : Nat) : Nat := if dst = 0x40 then s.cas.transport else dst

/-- A broadcast: transmitted three times on both ports, not acknowledged (R437, R438). -/
def casBroadcast (type : Nat) (body : List Byte) (s : State) : State :=
  let q := s.cas.seq
  let bs := casBytes type q.toNat (myRole s) 0xFF s.cas.epoch body
  let s1 := { s with cas := { s.cas with seq := q + 1 } }
  (List.range 3).foldl (fun s _ => casPut 1 bs (casPut 0 bs s)) s1

/-- A frame to one role, with an epoch held for it; it awaits an ACK (R437). -/
def casSendTo (type dst epoch : Nat) (body : List Byte) (s : State) : State :=
  let q := s.cas.seq
  casPut (casToward s (casPos s dst)) (casBytes type q.toNat (myRole s) dst epoch body)
    { s with cas := { s.cas with seq := q + 1, sent := s.cas.sent ++ [⟨q, type, dst, epoch, body, 0⟩] } }

/-- A chain message of a kind: broadcast, or to one role under the role epoch. -/
def casMsg (kind : Nat) (body : List Byte) (s : State) : State := casBroadcast 0x10 (leBytes 1 kind ++ body) s
def casMsgTo (dst kind : Nat) (body : List Byte) (s : State) : State := casSendTo 0x10 dst s.cas.epoch (leBytes 1 kind ++ body) s

/-- The lowest fill over the pipes in RUN, signed 16-bit; 0 with none (R444). -/
def lowestFill (s : State) : Nat :=
  let fs := (those 16 (fun p => (dp s p).st = .run && pipeBound s p)).map (fun p => signed 16 (fld s (R.DOT_Pn_FILL p) 15 0))
  match fs with
  | [] => 0
  | x :: r => narrow 16 (r.foldl min x)

/-- The largest of the four die sensors, °C, saturated to a byte. -/
def dieByte (s : State) : Nat :=
  ((List.range 4).foldl (fun m i => max m (satU 8 (vat s.thmg.die i / 16)).toNat) 0)

/-- Severity and code for a STAT: with the events that this command has raised so far, which are not noted before its end (R444). -/
def statSeen (s : State) : Nat × BitVec 16 :=
  (s.hst.raised.drop s.cas.noted).foldl (fun m e => if e.sev = .info then m else (max m.1 e.sev.code, e.code)) (s.cas.sev, s.cas.code)

/-- A member's STAT frame, once discovery has given it a position: global state, highest severity, last code, die temperature, lowest fill
(R444; the order of the fields is a DESIGN CHOICE, log 31). -/
def casStat (s : State) : State :=
  if isMember s && cuUp s && s.cas.position ≠ 0 then
    let m := statSeen s
    let b := leBytes 1 s.glb.state.code ++ leBytes 1 m.1 ++ leBytes 2 m.2.toNat ++ leBytes 1 (dieByte s) ++ leBytes 2 (lowestFill s)
    casSendTo 0x13 0 s.cas.epoch b { s with cas := { s.cas with sev := 0, noted := s.hst.raised.length } }
  else s

/-! ## Discovery at the campanile (R95, R432, R433) -/

/-- A DISC leaves on CD: hop count 0 and the proposed epoch (R432). -/
def sendDisc (s : State) : State :=
  let q := s.cas.seq
  casPut 1 (casBytes 0x01 q.toNat 0 0xFF s.cas.epoch (leBytes 1 0 ++ leBytes 2 s.cas.proposed))
    { s with cas := { s.cas with seq := q + 1 } }

/-- GLB_BRUERR records the first failure since the last reset or RETRY (R102). -/
def bruErr (k : EvKind) (inst detail : Nat) (s : State) : State :=
  if fld s R.GLB_BRUERR 15 0 = 0 then
    wr R.GLB_BRUERR (BitVec.ofNat 32 (k.code.toNat + 65536 * (inst % 256) + 2 ^ 24 * (detail % 256))) s
  else s

/-- Discovery fails: 1 count, 2 position, 3 scheduling mode, 4 role, 5 lane, 6 topology or print mode, 7 transports (R97). -/
def discFail (reason pos : Nat) (s : State) : State :=
  bruErr Ev.BRU_CASCADE_FAIL pos reason (logEvent Ev.BRU_CASCADE_FAIL 0xFF reason pos 0
    { s with bru := { s.bru with cascade := .failed } })

/-- After a HALT from SELFTEST or LINK_TRAIN discovery has stopped and is not resumed (R105). -/
def discHeld (s : State) : Bool := s.bru.heldFromBru || (s.bru.incomplete && s.glb.state ≠ .linkTrain)

/-- What the campanile's own image has against a chain: a required position that is not 0, print_mode 1 (R97, R420). -/
def ownBad (s : State) : Option Nat :=
  if casPosition s ≠ 0 ∧ casPosition s ≠ 0xFF then some 2 else if scanning s then some 6 else none

/-- A new discovery starts (R95, R433), unless R105 holds it. A chain of one is complete at once (R96). -/
def startDisc (s : State) : State :=
  let e := (s.cas.epoch + 1) % 65536
  let s1 := { s with cas := { s.cas with disc := false, dans := [], proposed := e, redisc := false },
                     bru := { s.bru with cascade := .running, discFrom := s.now, discWarned := false } }
  if discHeld s then s
  else if (ownBad s).isSome then discFail ((ownBad s).getD 0) 0 s1
  else if casLength s ≤ 1 then
    logEvent Ev.CAS_DISC_DONE 0xFF 1 e (if trKind s = 0 then 0xFF else 0)
      { s1 with cas := { s1.cas with disc := true, epoch := e, length := 1, position := 0, transport := if trKind s = 0 then 0xFF else 0 },
                bru := { s1.bru with cascade := .done } }
  else sendDisc s1

/-- The device enters IDLE with a REDISC held (R433). -/
def heldRedisc (s : State) : State := if s.cas.redisc && isCampanile s && s.glb.state = .idle then startDisc s else s

/-- A STOP or HALT event spreads over the chain (R442). -/
def casPeer (k : EvKind) (s : State) : State :=
  if !chained s ∨ k.code = Ev.CAS_PEER_STOP.code ∨ k.code = Ev.CAS_PEER_HALT.code then s
  else
    match k.sev with
    | .stop => casMsg 0x03 (leBytes 2 k.code.toNat) s
    | .halt => casMsg 0x04 (leBytes 2 k.code.toNat) s
    | _ => s

/-- An event of severity STOP or HALT whose action the caller takes itself: recorded, and spread over the chain. -/
def logPeer (k : EvKind) (inst a0 a1 a2 : Nat) (s : State) : State := casPeer k (logEvent k inst a0 a1 a2 s)

end Sys2Proof.Machine
end

