-- ==== Sys2Proof/Machine/Transport.lean ====
section
/-!
DEFINITION. The motion unit that drives the transport, and the one that drives the carriage, as other units see them (TOPOLOGY;
spec/11_steppers.md R350, spec/12_motor_drive.md R390, spec/07_thermal_energy.md R255).
-/
namespace Sys2Proof.Machine

/-- A motion unit is at rest: kind 1 motor channel, 2 stepper axis, else none. -/
def unitAtRest (s : State) (kind i : Nat) : Bool :=
  if kind = 1 then moAtRest s i else if kind = 2 then axAtRest s i else true

/-- The transport is at rest; the carriage is at rest. -/
def trAtRest (s : State) : Bool := unitAtRest s (trKind s) (trIndex s)
def caAtRest (s : State) : Bool := unitAtRest s (caKind s) (caIndex s)

/-- The stopping time of R350 from speed `v` in units/s at `d` and `j`, µs. -/
def stopUs (v d j : Nat) : Nat :=
  if d * d ≤ v * j then quot (v * 1000000) d + quot (d * 1000000) j else 2 * rootBits 60 (quot (v * 10 ^ 12) j)

/-- The stopping time of the transport at its present speed, µs; 0 without transport (R255). -/
def trStopUs (s : State) : Nat :=
  let i := trIndex s
  if trKind s = 2 then
    stopUs ((ax s i).prof.vel.natAbs / 16) (rd s (R.STP_SAn_DMAX i)).toNat (1024 * (rd s (R.STP_SAn_JMAX i)).toNat)
  else if trKind s = 1 then
    if (mo s i).moving then
      stopUs ((mo s i).prof.vel.natAbs / 16) (rd s (R.MOT_MCn_PDMAX i)).toNat (1024 * (rd s (R.MOT_MCn_PJMAX i)).toNat)
    else quot ((mo s i).speed.natAbs * 62500) (fld s (R.MOT_MCn_ACC i) 31 16)
  else 0

/-- A MOVE of a motion unit to a 32-bit target; false when it is refused. -/
def unitMove (kind i tgt : Nat) (s : State) : Bool × State :=
  if kind = 1 then moMove i tgt s else if kind = 2 then axMove i tgt s else (false, s)

/-- The latched limits of a unit's generator changed: vmax in 1/16 unit/s. -/
def unitVmax (kind i vmax : Nat) (s : State) : State :=
  let f (x : Prof) : Prof := { x with vmax := vmax * unitVel }
  if kind = 1 then modMo i (fun x => { x with prof := f x.prof }) s else if kind = 2 then modProf i f s else s

/-- A unit comes to rest on its normal plan. -/
def unitStop (kind i : Nat) (s : State) : State :=
  if kind = 1 then (if (mo s i).st = .run then moDecel i false s else s) else if kind = 2 then axStop i s else s

/-- The position of a unit in its own units, 32 bits: the commanded position of an axis, the generator's or the encoder's of a
channel. -/
def unitPosition (s : State) (kind i : Nat) : Nat :=
  if kind = 2 then ipart (ax s i).prof.pos
  else if kind = 1 then (if (mo s i).moving then ipart (mo s i).prof.pos else ipart (pch s (moEncPc s i)).pos)
  else 0

end Sys2Proof.Machine
end

