-- ==== Sys2Proof/Machine/Seamless.lean ====
section
/-!
DEFINITION. The decision on a seamless stop, its distances, parking and abandoning (spec/13_seamless_stop.md R402 to R415). The
commands that carry the sequence on stand in SeamlessRun.lean.
-/
namespace Sys2Proof.Machine

/-- The causes of a seamless stop (R402). -/
inductive SsCause where
  | dataLate | thermal | software | chain
  deriving DecidableEq, Repr

/-- The bit of a cause in DOT_SSSTAT (bits 3 to 6), and its number in SSREQ. -/
def SsCause.bit : SsCause → Nat
  | .dataLate => 3
  | .thermal => 4
  | .software => 5
  | .chain => 6
def SsCause.num : SsCause → Nat
  | .dataLate => 1
  | .thermal => 2
  | _ => 3

/-- The affected set: every bound generator, and the bound pipes (R402). -/
def ssGens (s : State) : List Nat := those 16 (ltBound s)
def ssPipes (s : State) : List Nat := those 16 (fun p => pipeBound s p && pipeLt s p < 16)

/-- The scanning generators: those that drive a pipe, which draw from carriage_pc (R290). -/
def scnGens (s : State) : List Nat := those 16 (fun g => ltBound s g && !(ltPipes s g).isEmpty)

/-- P(k) of a generator, 32.16 (R145). -/
def genTarget (s : State) (g k : Nat) : Nat :=
  let d := lineDiff k (lt s g).orgline * (rd s (R.FIR_LTn_PITCH g)).toNat
  addPos (lt s g).org (if (lt s g).rev then -d else d)

/-- A cause bit of DOT_SSSTAT. -/
def ssCauseBit (b : Nat) (s : State) : State := setF R.DOT_SSSTAT b b 1 s

/-- The phase changes; DOT_SSSTAT shows it. -/
def ssPhase (n : Nat) (s : State) : State := setF R.DOT_SSSTAT 2 0 n { s with ss := { s.ss with phase := n } }

/-- dmax, amax, jmax of the transport in axis units (R406). -/
def ssLimits (s : State) : Nat × Nat × Nat :=
  let i := trIndex s
  if trKind s = 2 then
    ((rd s (R.STP_SAn_DMAX i)).toNat, (rd s (R.STP_SAn_AMAX i)).toNat, 1024 * (rd s (R.STP_SAn_JMAX i)).toNat)
  else ((rd s (R.MOT_MCn_PDMAX i)).toNat, (rd s (R.MOT_MCn_PAMAX i)).toNat, 1024 * (rd s (R.MOT_MCn_PJMAX i)).toNat)

/-- Axis units to transport_pc counts, and back (R406). -/
def toCounts (s : State) (x : Nat) : Nat := quot (x * 65536) (rd s R.DOT_SSRATIO).toNat
def toUnits (s : State) (x : Int) : Int := x * (rd s R.DOT_SSRATIO).toNat / 65536

/-- s_stop of R350 from v0 at d and j, counts, rounded up. Of the root the square is v³ / j. -/
def ssStop (v d j : Nat) : Nat :=
  if d * d ≤ v * j then quot (v * v * j + v * d * d + 2 * d * j - 1) (2 * d * j)
  else
    let r := rootBits 60 (quot (v ^ 3) j)
    if r * r * j = v ^ 3 then r else r + 1

/-- s_dec and s_acc from v0 (R406). -/
def ssDec (s : State) (v0 : Nat) : Nat := let l := ssLimits s; ssStop v0 (toCounts s l.1) (toCounts s l.2.2)
def ssAcc (s : State) (v0 : Nat) : Nat := let l := ssLimits s; ssStop v0 (toCounts s l.2.1) (toCounts s l.2.2)

/-- t_e: the end of the last slot of the last committed line on every port (R406). -/
def ssTe (s : State) : Nat :=
  (List.range 16).foldl (fun m p => (hp s p).lines.foldl (fun m l =>
    if (l.fireSent || l.inWindow) && l.kind = .print then max m (l.launch + l.windowTicks) else m) m) s.now

/-- pk: the earliest P(kstop) over the affected set (R405). -/
def ssPk (s : State) : Nat :=
  let ps := (ssGens s).map (fun g => genTarget s g (lt s g).k)
  match ps with
  | [] => (pch s (trPc s)).pos
  | x :: r => r.foldl (fun m y => if diff48 y m < 0 then y else m) x

/-- v0 at the decision, counts/s. -/
def ssV0 (s : State) : Nat := ((pch s (trPc s)).v / 16).toNat

/-- x_rest and xb, 32.16 and rounded down to whole counts (R406). -/
def ssXrest (s : State) (v0 te : Nat) : Nat :=
  addPos (pch s (trPc s)).pos (((v0 * (te - s.now) * 65536 / 400000000 + ssDec s v0 * 65536 : Nat) : Int)) / 65536 * 65536
def ssXb (s : State) (v0 pk margin : Nat) : Nat := addPos pk (-((ssAcc s v0 + margin) * 65536 : Nat)) / 65536 * 65536

/-- DOT_SSMARGIN. -/
def ssMargin (s : State) : Nat := fld s R.DOT_SSMARGIN 23 0

/-- The transport's target, in its own units, for a 32.16 position of transport_pc. -/
def ssTarget (s : State) (x : Nat) : Nat :=
  narrow 32 ((unitPosition s (trKind s) (trIndex s) : Int) + toUnits s (diff48 x (pch s (trPc s)).pos / 65536))

/-- xb lies outside the transport's soft limits while they act (reason 6). -/
def ssSoftBad (s : State) (xb : Nat) : Bool :=
  let t := signed 32 (ssTarget s xb)
  let i := trIndex s
  if trKind s = 2 then axSoft s i && (t < axMin s i || axMax s i < t) else moSoft s i && (t < moMin s i || moMax s i < t)

/-- The checks that come before any distance (R404, 1 to 4). -/
def ssBarred (s : State) : Option Nat :=
  if fld s R.DOT_SSCFG 0 0 = 0 then some 1
  else if trKind s = 0 || (trKind s = 1 && moMode s (trIndex s) = 1) then some 2
  else if (ssGens s).any (fun g => ltSource s g = 0x10 || ltMode s g = 2) || bellMode s then some 3
  else if !(pch s (trPc s)).valid || (pch s (trPc s)).v ≤ 0 then some 4
  else none

/-- The reason for which a stop is forbidden here, if any (R404, 1 to 7). -/
def ssForbidden (s : State) : Option Nat :=
  match ssBarred s with
  | some r => some r
  | none =>
    let v0 := ssV0 s
    let xb := ssXb s v0 (ssPk s) (ssMargin s)
    if ((rd s R.DOT_SSBACKMAX).toNat : Int) < diff48 (ssXrest s v0 (ssTe s)) xb / 65536 then some 5
    else if ssSoftBad s xb then some 6
    else if s.glb.state ≠ .print then some 7
    else none

/-- A stop is forbidden for a reason (R404). -/
def ssForbid (reason : Nat) (s : State) : State := setFlag R.DOT_SSFLAG 0 (setF R.DOT_SSSTAT 11 8 reason s)

/-- The affected pipes and generators enter HOLD; kstop, pk and xb are fixed, with the margin of the decision; the phase is DRAIN; a sequence
that STOPPING has met before td parks (R405 to R407, R411, R417). -/
def ssApply (s : State) : State :=
  let v0 := ssV0 s
  let pk := ssPk s
  let mover := trKind s ≠ 0
  let xb := if mover then ssXb s v0 pk s.ss.margin else pk
  let i := trIndex s
  let back := if trKind s = 2 then ((ax s i).prof.goal, ((ax s i).prof.vmax / unitVel).toNat) else (Goal.none, 0)
  let s1 := { s with ss := { s.ss with td := none, mover := mover, v0 := v0, xrest := if mover then ssXrest s v0 (ssTe s) else pk, xb := xb,
                                       pk := pk, back := back.1, backV := back.2, told := false, go := false } }
  let s2 := wr R.DOT_SSXB (BitVec.ofNat 32 (ipart xb)) (setF R.DOT_SSPK_FRAC 15 0 (pk % 65536) (wr R.DOT_SSPK_INT (BitVec.ofNat 32 (ipart pk)) s1))
  let s3 := ssPhase 1 (incF R.DOT_SSSTAT 31 16 s2)
  let s4 := forEach (ssPipes s3) (fun p s => if (dp s p).st = .run then setPipe p .hold (modDot p (fun d => { d with asm := none }) s) else s) s3
  forEach (ssGens s4) (fun g s => if (lt s g).st = .run then setGen g .hold (modGen g (fun x => { x with delayed := [] }) s) else s) s4

/-- A decision that is not forbidden: applied at once, or at td over the chain (R405, R415); it takes the margin (R417). -/
def ssDecide (c : SsCause) (s : State) : State :=
  let s1 := setF R.DOT_SSSTAT 7 3 (2 ^ (c.bit - 3)) { s with ss := { s.ss with margin := ssMargin s, park := false } }
  if chained s then
    let td := s.now + 64 * fld s R.DOT_SSCFG 31 24
    casMsg 0x11 (leBytes 8 td) { s1 with ss := { s1.ss with td := some td } }
  else ssApply s1

/-- This device decides seamless stops: it stands alone, or it is the transport device of its chain. -/
def ssDecides (s : State) : Bool := !chained s || trKind s ≠ 0

/-- A sequence runs, or a decision waits for td. -/
def ssRuns (s : State) : Bool := s.ss.phase ≠ 0 || s.ss.td.isSome

/-- A seamless stop is requested for a cause (R402, R404, R413, R443). In scanning mode R304 carries the stop out (R403): the scanning
unit marks it in `scn.stop`. Answers the state, and the forbid reason. -/
def ssTry (c : SsCause) (s : State) : State × Option Nat :=
  if scanning s then
    (if s.scn.st = .sweep then { s with scn := { s.scn with stop := true } } else s, none)
  else if ssRuns s then (ssCauseBit c.bit s, none)
  else if !ssDecides s then
    if s.cas.transport = 0xFF then (ssForbid 2 s, some 2) else (casMsgTo 0x40 0x10 (leBytes 1 c.num) s, none)
  else
    match ssForbidden s with
    | some r => (ssForbid r s, some r)
    | none => (ssDecide c s, none)

/-- A request made now is evaluated by R404 on this device as far as the distances. -/
def ssEvaluates (s : State) : Bool := !scanning s && !ssRuns s && ssDecides s && ssBarred s = none

/-- After step 8 the transport returns to the command in force at the decision: the stepper's goal at its latched vmax, or VREF for a
motor channel (R409). -/
def ssReturn (s : State) : State :=
  let i := trIndex s
  if !s.ss.mover then s
  else if trKind s = 2 then
    if (ax s i).st = .moving then modProf i (fun x => { x with goal := s.ss.back, vmax := s.ss.backV * unitVel }) s else s
  else modMo i (fun x => if x.st = .run then { x with moving := false, phold := false, prof := { x.prof with goal := .none } } else x) s

/-- The sequence ends when every affected pipe runs again (R409). -/
def ssFinish (s : State) : State := let s1 := ssReturn s; ssPhase 0 { s1 with ss := Ss.reset }

/-! ## Abandon (R412) and park (R411) -/

/-- The state of a generator that leaves HOLD without its pipes. -/
def genRest (s : State) : GenState :=
  match s.glb.state with
  | .print => .run
  | .stopping => .run
  | .armed => .armed
  | _ => .idle

/-- The sequence is abandoned: the transport stops on its normal plan unless a limit has applied the emergency ramp, the pipes enter
LATE with NEXT at kstop, and the flag is set (R412). -/
def ssAbandonLocal (s : State) : State :=
  if !ssRuns s then s
  else
    let s1 := if s.ss.mover && s.ss.phase ≠ 0 then unitStop (trKind s) (trIndex s) s else s
    let s2 := ssPhase 0 { s1 with ss := Ss.reset }
    let s3 := forEach (ssPipes s2) (fun p s =>
      if (dp s p).st = .hold then
        let k := (lt s (pipeLt s p)).k
        setPipe p .late (modDot p (fun d => { rewindPipe d with next := k, a := k }) s)
      else s) s2
    let s4 := forEach (ssGens s3) (fun g s => if (lt s g).st = .hold then setGen g (genRest s) s else s) s3
    setFlag R.DOT_SSFLAG 1 s4

/-- The transport device abandons for the chain. -/
def ssAbandon (s : State) : State :=
  if !ssRuns s then s
  else
    let s1 := ssAbandonLocal s
    if chained s && trKind s ≠ 0 then casMsg 0x15 [] s1 else s1

/-- The pipes of the affected set that take part: those in HOLD (R407). -/
def ssHeld (s : State) : List Nat := (ssPipes s).filter (fun d => (dp s d).st = .hold)

/-- A pipe goes back to kstop of its generator, and the head discards what has been sent of the lines from there (R136, R405). -/
def ssBack (d : Nat) (s : State) : State :=
  let k := (lt s (pipeLt s d)).k
  modDot d (fun x => { rewindPipe x with next := k, a := k }) (sendCancel (pipePort s d) s)

/-- STOPPING during a sequence, or with a decision that waits for td (R411, R415): it parks; in ACCEL the transport is retargeted to rest
with a new x_rest and xb of the same pk, and the pipes go back to kstop. -/
def ssStopping (s : State) : State :=
  if !ssRuns s then s
  else
    let s1 := ssCauseBit 7 { s with ss := { s.ss with park := true } }
    if s.ss.phase = 4 then ssPhase 5 s1
    else if s.ss.phase = 6 then
      let v := ssV0 s1
      let x := ssXrest s1 v s1.now
      let xb := ssXb s1 s1.ss.v0 s1.ss.pk s1.ss.margin
      let s2 := wr R.DOT_SSXB (BitVec.ofNat 32 (ipart xb)) (forEach (ssHeld s1) ssBack
        { s1 with ss := { s1.ss with xrest := x, xb := xb, told := false, go := false } })
      if s2.ss.mover then
        match unitMove (trKind s2) (trIndex s2) (ssTarget s2 x) s2 with
        | (true, s3) => ssPhase 2 s3
        | (false, s3) => ssAbandon s3
      else ssPhase 2 s2
    else s1

end Sys2Proof.Machine
end

