-- ==== Sys2Proof/Machine/Hooks.lean ====
section
/-!
DEFINITION. What DMA channels and service sequences do when the global state changes (spec/15_dma.md R475, R479;
spec/08_nozzle_health.md R286).
-/
namespace Sys2Proof.Machine

/-- DMA channel `n` and the state with it changed. -/
def dc (s : State) (n : Nat) : Dma := vat s.dma n
def modDma (n : Nat) (f : Dma → Dma) (s : State) : State := { s with dma := vmod s.dma n f }

/-- Channel `n` enters PAUSED. -/
def dmaPaused (n : Nat) (s : State) : State :=
  logEvent Ev.DMA_PAUSED n n (dc s n).cause (dc s n).pc (modDma n (fun x => { x with st := .paused, held := false }) s)

/-- A channel pauses for a cause (R475): from RUN it completes the reads it has issued, from WAIT and CQFULL it enters PAUSED at
once. `after` says what follows. -/
def dmaPause (cause after n : Nat) (s : State) : State :=
  let x := dc s n
  let s1 := modDma n (fun x => { x with was := x.st, cause := cause, after := after }) s
  if x.st = .run then modDma n (fun x => { x with st := .pausing }) s1
  else if x.st = .wait ∨ x.st = .cqfull then dmaPaused n s1
  else s

/-- Every channel in RUN, WAIT or CQFULL pauses (R479): cause 3 SAFE_HOLD or SHUTDOWN, 4 PCIe reset, 5 reload. -/
def dmaPauseAll (cause : Nat) (s : State) : State := forEach (List.range 32) (dmaPause cause 0) s

/-- A service sequence of port `p` ends early, for a reason of NHL_SEQ_ABORT: 1 ABORT, 2 state, 3 link. A committed service line still fires,
and the sequence ends with it, at the line boundary (R286). -/
def svcAbort (p reason : Nat) (s0 : State) : State :=
  let x := nh s0 p
  let s := dropService p s0
  if x.seq = 1 ∨ x.seq = 2 ∨ x.seq = 3 then svcSettle p (modNhl p (fun x => { x with ending := if x.ending = 0 then reason else x.ending }) s)
  else s0

/-- kstop of generator `g`: its first trigger not committed; a pipe that has stopped has it in NEXT (R134, R304, R305). -/
def kStop (s : State) (g : Nat) : Nat :=
  (((ltPipes s g).filter (fun d => (dp s d).st ≠ .run ∧ (dp s d).st ≠ .hold)).map (fun d => (dp s d).next)).foldl
    (fun m y => if lineDiff y m < 0 then y else m) (lt s g).k

/-- The scanning unit enters HELD when the global state leaves PRINT with a job in progress; of a sweep that has not ended kstop goes to
SCN_RESUME. A job that only waits for its last feed keeps it (R305). -/
def scnHeld (s : State) : State :=
  if (s.scn.st = .sweep ∧ !(s.scn.ended && !s.scn.begun)) ∨ (s.scn.st = .turn ∧ s.scn.begun ∧ !s.scn.ended) then
    let k := match (scnGens s).head? with
      | some g => kStop s g
      | none => 0
    wr R.SCN_RESUME (BitVec.ofNat 32 k) { s with scn := { s.scn with st := .held, stop := false, restart := true } }
  else if s.scn.st = .turn ∨ s.scn.st = .sweep then { s with scn := { s.scn with st := .held, stop := false } }
  else s

/-- The ticks of PRINT since the last account are added to every port's usage (R227). -/
def accruePrint (s : State) : State :=
  { s with hlp := s.hlp.map (fun h => { h with uTicks := h.uTicks + (s.now - h.uSince), uSince := s.now }) }

/-- An attempt on an absent hot-swap port pauses with IDLE (R225). -/
def hotPause (s : State) : State :=
  { s with hlp := s.hlp.map (fun h => if h.hotTry && h.lstate ≠ .active then
      { h with lstate := .absent, bst := .absent, hotTry := false, reqs := [], memWait := [], tx := .reset } else h) }

/-- Service sequences end when the global state leaves ARMED; gap sequences when it leaves PRINT (R277, R286); usage counts the PRINT
time (R227); hot-swap attempts pause outside IDLE (R225). -/
def svcLeave (old new : GState) (s : State) : State :=
  if old = .armed ∧ new ≠ .armed then forEach (List.range 16) (fun p => svcAbort p 2) s
  else if old = .print ∧ new ≠ .print then
    forEach (List.range 16) (fun p => modNhl p Nhl.gapOver)
      (scnHeld (accruePrint s))
  else if old = .idle ∧ new ≠ .idle then hotPause s
  else s

end Sys2Proof.Machine
end

