-- ==== Sys2Proof/Machine/Hold.lean ====
section
/-!
DEFINITION. Global state changes and the action that an event's severity asks for (spec/01_architecture.md R32 to R42;
spec/17_host_control.md R520).
-/
namespace Sys2Proof.Machine

/-! ## State changes -/

/-- The global state changes: GLB_STATE takes state, prev and cause, and GLB_STATE_CHANGE is raised (R35, R42). The first early
access is counted afresh (R100). Leaving ARMED, PRINT and STOPPING releases the warming grants (R253); service sequences end with
ARMED (R286); a member reports the change (R444); a REDISC that waits for IDLE acts (R433). -/
def goto (g : GState) (cause : Nat) (s : State) : State :=
  let old := s.glb.state
  let s1 := { s with glb := { s.glb with state := g, prev := some old, cause := BitVec.ofNat 16 cause, earlySeen := false } }
  let s2 := if firingState s && !firingState s1 then
      { s1 with thmg := { s1.thmg with grants := s1.thmg.grants.filter (fun r => r.cls ≠ 0),
                                       waiting := s1.thmg.waiting.filter (fun r => r.cls ≠ 0) } }
    else s1
  let s3 := { s2 with hst := { s2.hst with raised := s2.hst.raised ++ [mkEvent Ev.GLB_STATE_CHANGE 0xFF old.code g.code cause s] } }
  heldRedisc (casStat (svcLeave old g s3))

/-- States from which a HALT-class event leads to SAFE_HOLD (R35). -/
def haltable (s : State) : Bool :=
  match s.glb.state with
  | .selftest => true
  | .linkTrain => true
  | .idle => true
  | .armed => true
  | .print => true
  | .stopping => true
  | _ => false

/-! ## What the units do on entry to SAFE_HOLD or SHUTDOWN -/

/-- An activity in progress stops (R105). -/
def Act.stopped (a : Act) : Act := if a = .running then .pending else a

/-- A head port in training stops (R105). -/
def Hlp.stopTraining (h : Hlp) : Hlp :=
  if h.inSeries && h.lstate ≠ .active then
    { h.fresh with lstate := .down, bst := .pending, inSeries := false }
  else h

/-- A cascade port in training stops (R105). -/
def CasPort.stopTraining (x : CasPort) : CasPort := if x.st = .active then x else { x with st := .down, run := 0, outs := 0 }

/-- Bring-up activities in progress stop and are not resumed (R105). -/
def holdBru (s : State) : State :=
  { s with hlp := s.hlp.map Hlp.stopTraining,
           cas := { s.cas with cu := s.cas.cu.stopTraining, cd := s.cas.cd.stopTraining },
           bru := { s.bru with memory := s.bru.memory.stopped, journal := s.bru.journal.stopped, invar := s.bru.invar.stopped,
                               adc := s.bru.adc.stopped, xmc := s.bru.xmc.stopped, cascade := s.bru.cascade.stopped } }

/-- All units on entry to SAFE_HOLD or SHUTDOWN (R32). -/
def holdUnits (s : State) : State :=
  dmaPauseAll 3 (moHold (axHold (holdPrint (ssPhase 0 { s with ss := Ss.reset }))))

/-- SAFE_HOLD is entered (R32, R35, R105). -/
def enterSafeHold (cause : Nat) (s : State) : State :=
  let bru := s.glb.state = .selftest || s.glb.state = .linkTrain
  let s1 := goto .safeHold cause s
  let s2 := if bru then holdBru { s1 with bru := { s1.bru with heldFromBru := true } } else s1
  holdUnits s2

/-- SHUTDOWN is entered (R34, R35). -/
def enterShutdown (cause : Nat) (s : State) : State :=
  let s1 := goto .shutdown cause s
  holdUnits (holdBru s1)

/-! ## Use of Invar values -/

/-- An event of severity HALT: SELFTEST to STOPPING lead to SAFE_HOLD (R35). -/
def raiseHalt (k : EvKind) (inst a0 a1 a2 : Nat) (s : State) : State :=
  let s1 := logPeer k inst a0 a1 a2 s
  if haltable s then enterSafeHold k.code.toNat s1 else s1

/-- The pair of the Invar register at `o` agrees (R11, R13). -/
def invarAgrees (s : State) (o : Nat) : Bool := rd s (o + 4) = ~~~(rd s o)

/-- A use of Invar registers: a pair that disagrees raises HST_INVAR_MISMATCH, once until it is rewritten, and the device enters
SAFE_HOLD (R13, R520). -/
def useInvar (os : List Nat) (s : State) : State :=
  os.foldl (fun s o =>
    if invarAgrees s o || s.hst.mismatched.contains o then s
    else raiseHalt Ev.HST_INVAR_MISMATCH 0xFF o (rd s o).toNat (rd s (o + 4)).toNat
      { s with hst := { s.hst with mismatched := o :: s.hst.mismatched } }) s

/-- A MOVE or a JOG of a unit, kind 1 a motor channel and 2 a stepper axis, uses its soft limits (R13, R352, R394). -/
def useSoft (kind i : Nat) (s : State) : State :=
  if kind = 1 then useInvar [R.MOT_MCn_SOFTMIN i, R.MOT_MCn_SOFTMAX i, R.MOT_MCn_LIMCFG i] s
  else if kind = 2 then useInvar [R.STP_SAn_SOFTMIN i, R.STP_SAn_SOFTMAX i, R.STP_SAn_LIMCFG i] s
  else s

/-- An Invar register takes a pair: value and complement together (R518, R519). -/
def putInvar (o : Nat) (v : Word) (s : State) : State :=
  let m := v &&& regStored o
  let s1 := wr (o + 4) (~~~m) (wr o m s)
  { s1 with hst := { s1.hst with mismatched := s1.hst.mismatched.filter (fun x => x ≠ o) } }

/-- A seamless stop is requested for a cause; its evaluation here uses DOT_SSMARGIN, DOT_SSBACKMAX and the transport's soft limits (R13,
R402, R404, R406). -/
def ssAsk (c : SsCause) (s : State) : State × Option Nat :=
  ssTry c (if ssEvaluates s then useSoft (trKind s) (trIndex s) (useInvar [R.DOT_SSMARGIN, R.DOT_SSBACKMAX] s) else s)

/-- STOPPING is entered: no further line is assembled or committed, and the transport decelerates, in a seamless stop as its sequence has
it; a MOVE to rest of the sequence uses the soft limits (R13, R35, R137, R175, R411; the meaning of STOPPING in chapter 1). -/
def enterStopping (cause : Nat) (s0 : State) : State :=
  let s := if s0.ss.phase = 6 ∧ s0.ss.mover then useSoft (trKind s0) (trIndex s0) s0 else s0
  if s.glb.state = .safeHold then s
  else
    let s1 := ssStopping (goto .stopping cause s)
    if !ssRuns s then unitStop (trKind s1) (trIndex s1) s1 else s1

/-! ## Raising events -/

/-- An event is raised and its severity acted on: STOP takes PRINT to STOPPING (R35, R37), HALT takes SELFTEST to STOPPING to
SAFE_HOLD (R35). -/
def raise (k : EvKind) (inst a0 a1 a2 : Nat) (s : State) : State :=
  match k.sev with
  | .stop =>
    let s1 := logPeer k inst a0 a1 a2 s
    if s.glb.state = .print then enterStopping k.code.toNat s1 else s1
  | .halt => raiseHalt k inst a0 a1 a2 s
  | _ => logPeer k inst a0 a1 a2 s

end Sys2Proof.Machine
end

