-- ==== Sys2Proof/Machine/Banks.lean ====
section
/-!
DEFINITION. SRAM banks and the page store as their users see them (spec/16_memories.md R487, R494, R506, R507).
-/
namespace Sys2Proof.Machine

/-- Bytes [a, a + n) meet bank `b`. -/
def meetsBank (b a n : Nat) : Bool := decide (0 < n) && decide (a < (b + 1) * bankSize) && decide (b * bankSize < a + n)

/-- The usable capacity of the page store; none where XMC configures no channel (R506). -/
def xmcUsable (s : State) : Nat := if xmcChannels s = 0 then 0 else if xmcEcc s then xmcCapacity s * 7 / 8 else xmcCapacity s

/-- An uncorrectable page-store error at offset `a` of a requester: 1 DMA, 2 pipe, 3 host (R507). -/
def eccUncorr (a req : Nat) (s : State) : State :=
  let s1 := incF R.XMC_ECCCNT 31 16 s
  let s2 := setF R.XMC_ECCADDR_HI 1 0 (a / 2 ^ 32) (wr R.XMC_ECCADDR_LO (BitVec.ofNat 32 a) s1)
  logEvent Ev.XMC_ECC_UNCORR 0xFF (a % 2 ^ 32) (a / 2 ^ 32) req s2

/-- A corrected page-store error at offset `a`, on a channel, is counted and raised at most once in any 2^20 ticks (R507, R510). -/
def eccCorrected (a ch : Nat) (s : State) : State :=
  let s1 := incF R.XMC_ECCCNT 15 0 s
  let quiet := match s.mem.corrAt with
    | some t => decide (s.now < t + 2 ^ 20)
    | none => false
  if quiet then s1
  else logEvent Ev.XMC_ECC_CORR ch (fld s1 R.XMC_ECCCNT 15 0) (a % 2 ^ 32) ch { s1 with mem := { s1.mem with corrAt := some s.now } }

/-- The 32-byte units that the bytes [a, a + n) touch. -/
def eccUnits (a n : Nat) : Nat := if n = 0 then 0 else (a + n - 1) / 32 + 1 - a / 32

/-- Of the errors named, those that lie in a unit of [a, a + n), while inline ECC is on (R507). -/
def eccFound (s : State) (a n : Nat) (errs : List EccErr) : List EccErr :=
  if xmcEcc s then errs.filter (fun e => decide (e.unit < eccUnits a n)) else []

/-- The errors of an access of [a, a + n) are counted and raised, each at the offset of its unit (R507). -/
def eccErrors (a n req : Nat) (errs : List EccErr) (s : State) : State :=
  (eccFound s a n errs).foldl (fun s e =>
    let u := 32 * (a / 32 + e.unit)
    if e.hard then eccUncorr u req s else eccCorrected u e.ch.val s) s

/-- An error of the access cannot be corrected. -/
def eccHard (s : State) (a n : Nat) (errs : List EccErr) : Bool := (eccFound s a n errs).any EccErr.hard

/-- A march window that covers [a, a + n) is released: the engine restores the words and tests it again at its next start (R503). The faults
that it has found come with MARCH_WINDOW_DONE (DESIGN CHOICE, log 78). -/
def marchYield (a n : Nat) (s : State) : State :=
  match s.mem.win with
  | some w =>
    if w < a + n ∧ a < w + 4096 then
      setF R.MEM_BKSTAT (24 + bankOf w) (24 + bankOf w) 0 (incF R.MEM_MARCHSTAT 23 16 { s with mem := { s.mem with win := none, late := some w } })
    else s
  | none => s

end Sys2Proof.Machine
end

