-- ==== Sys2Proof/Machine/Thermal.lean ====
section
/-!
DEFINITION. The Constantan model, the Nichrome scheduler, zone sensors, thermal limits, shutdown paths and the power ledger
(spec/07_thermal_energy.md R232 to R264).
-/
namespace Sys2Proof.Machine

/-- The thermal state of port `p` and the state with it changed. -/
def th (s : State) (p : Nat) : Thm := vat s.thm p
def modThm (p : Nat) (f : Thm → Thm) (s : State) : State := { s with thm := vmod s.thm p f }

/-- A signed 16-bit field of a register. -/
def fldS (s : State) (o hi lo : Nat) : Int := signed (hi + 1 - lo) (fld s o hi lo)

/-- s32: the value narrowed to 32 bits (R14). -/
def s32 (x : Int) : Int := signed 32 (narrow 32 x)

/-! ## Pulses (spec/05_firing.md R157, R160, R161) -/

/-- Pre-pulse, gap and main pulse of a waveform entry (R158). -/
def entPre (e : Word) : Nat := bits e 8 0
def entGap (e : Word) : Nat := bits e 17 9
def entMain (e : Word) : Nat := bits e 26 18

/-- The main pulse shortened so that the pulse ends `settle` ticks before the slot's end (R157). -/
def limitMain (pre gap main slot settle : Nat) : Nat := min main (slot - settle - pre - gap)

/-- The trimmed main pulse (R160). -/
def trimMain (main : Nat) (t : Int) : Nat := (satU 9 (((main : Int) * (200 + t) + 100) / 200)).toNat

/-- The steps that a dot fires: pre' + main' (R160, R157). -/
def dotSteps (e : Word) (t : Int) (cap slot settle : Nat) : Nat :=
  let pre := min (entPre e) cap
  pre + limitMain pre (entGap e) (trimMain (entMain e) t) slot settle

/-- The steps that a warming pulse fires: pre 0, main clamped to the head's limit (R161). -/
def warmSteps (e : Word) (wmax slot settle : Nat) : Nat := limitMain 0 (entGap e) (min (entMain e) wmax) slot settle

/-- The code of the nozzle of primitive `q` that fire group `g` addresses. -/
def FLine.codeAt (l : FLine) (h : Hlp) (q g : Nat) : Nat :=
  let n := h.cols / 16
  (l.codes.getD (q / n) []).getD (q % n * 16 + h.position g) 0

/-- w[q][s]: the steps that primitive `q` fires in slot `s` of a line (R232). -/
def FLine.steps (l : FLine) (h : Hlp) (q sl : Nat) : Nat :=
  let r := q / (h.cols / 16)
  if !bitOf l.rowmask.toNat r then 0
  else
    let c := l.codeAt h q (l.order.getD sl 0)
    if c ≠ 0 then dotSteps (l.ents.getD (4 * r + c - 1) 0) (l.trims.getD q 0) l.cap l.slot l.settle
    else if l.warms.getD q false then warmSteps (l.ents.getD (4 * r + 3) 0) (h.f 0x10E 2) l.slot l.settle
    else 0

/-- The commanded energy of some steps, u16 in 1/256 µJ (R232). -/
def ecOf (w eps : Nat) : Nat := (rnd (w * eps : Nat) 8).toNat % 65536

/-- The commanded energy of primitive `q` over the 16 slots of a line, u16 (R232, R234). -/
def FLine.energy (l : FLine) (h : Hlp) (eps q : Nat) : Nat :=
  (List.range 16).foldl (fun e sl => e + ecOf (l.steps h q sl) eps) 0 % 65536

/-! ## The Constantan model (R234, R235, R236) -/

/-- kjb and kbz, u32: the nearest integer of 2^32 / tau (R234). -/
def recip (tau : Nat) : Nat := quot (2 ^ 32 + tau / 2) tau % 2 ^ 32

/-- One update of a primitive with energy `e` (R234). -/
def Prim.update (x : Prim) (e : Nat) (dt kj g taujb taubz : Nat) (tref : Int) : Prim :=
  let ajb : Nat := min 65535 (dt * recip taujb / 2 ^ 16)
  let abz : Nat := min 65535 (dt * recip taubz / 2 ^ 16)
  let heat := s32 (shr (((e : Int) + x.corr) * kj) 12)
  let djb := s32 (shr ((x.tj - x.tb) * (ajb : Int)) 16)
  let dbz := s32 (shr ((x.tb - tref) * (abz : Int)) 16)
  { x with tj := s32 (x.tj + heat - djb), tb := s32 (x.tb + shr (djb * g) 16 - dbz), corr := 0 }

/-- An update of every primitive of port `p` with the energies given (R234). -/
def modelUpdate (p : Nat) (e : Nat → Nat) (s : State) : State :=
  let t := th s p
  let dt := min (s.now - t.last) (2 ^ 24 - 1)
  let kj := fld s (R.THM_Pn_KJ p) 15 0
  let g := fld s (R.THM_Pn_KJ p) 31 16
  let prims := t.prims.mapIdx (fun q x => x.update (e q) dt kj g (rd s (R.THM_Pn_TAUJB p)).toNat (rd s (R.THM_Pn_TAUBZ p)).toNat t.tref)
  modThm p (fun t => { t with prims := prims, last := s.now, tjmax := prims.foldl (fun m x => max m x.tj) t.tjmax }) s

/-- Warming is granted to port `p` (R253). -/
def warmGranted (s : State) (p : Nat) : Bool := s.thmg.grants.any (fun r => r.cls = 0 && r.inst = p)

/-- Trim and warm bit of a primitive for a line (R235). -/
def Prim.decide (x : Prim) (s : State) (p : Nat) (cal : Int) : Prim :=
  let err := s32 (fldS s (R.THM_Pn_SET p) 15 0 * 256 - x.tj)
  let t := s32 (rnd (err * fld s (R.THM_Pn_KT p) 15 0) 20)
  let twarm := fldS s (R.THM_Pn_SET p) 31 16 * 256
  let wreq := if x.tb < twarm - (fld s (R.THM_Pn_KT p) 23 16 : Int) * 256 then true
    else if twarm ≤ x.tb then false else x.wreq
  { x with trim := satS 6 (cal + t + fldS s (R.THM_Pn_KT p) 29 24), wreq := wreq,
           warm := wreq && warmGranted s p && !(th s p).thr.on }

/-- Trims and warm bits of every primitive of port `p` for the line whose assembly starts (R235). -/
def decideTrims (p : Nat) (s : State) : State :=
  let h := hp s p
  modThm p (fun t => { t with prims := t.prims.mapIdx (fun q x => x.decide s p (h.cal q)) }) s

/-- The model is seeded: tj and tb of every primitive are tref, corrections cleared; the request for warming stays (R235, R236). -/
def seedModel (p : Nat) (s : State) : State :=
  modThm p (fun t => { t with
    prims := (List.range (hp s p).nprim).map (fun q => { (t.prims.getD q ⟨0, 0, 0, 0, false, false⟩) with tj := t.tref, tb := t.tref, corr := 0 }),
    last := s.now, tjmax := t.tref }) s

/-! ## The Nichrome scheduler (R249) -/

/-- The budget of rail `r` of port `p`, mA. -/
def budgetOf (s : State) (p r : Nat) : Nat :=
  fld s (if r < 2 then R.THM_Pn_BUDGET01 p else R.THM_Pn_BUDGET23 p) (16 * (r % 2) + 15) (16 * (r % 2))

/-- pk[g][r]: the current that fire group `g` draws on rail `r`. -/
def peakOf (h : Hlp) (l : FLine) (warms : List Bool) (ifire g r : Nat) : Nat :=
  ((those h.nprim (fun q => h.rail q = r && (l.codeAt h q g ≠ 0 || warms.getD q false))).length * ifire) % 65536

/-- The largest of pk[.][r]. -/
def peakMax (h : Hlp) (l : FLine) (warms : List Bool) (ifire r : Nat) : Nat :=
  (List.range 16).foldl (fun m g => max m (peakOf h l warms ifire g r)) 0

/-- Groups by load descending, equal loads by ascending group: insertion. -/
def insertLoad (x : Nat × Nat) : List (Nat × Nat) → List (Nat × Nat)
  | [] => [x]
  | y :: ys => if y.2 < x.2 then x :: y :: ys else y :: insertLoad x ys

/-- Groups sorted by load (R249). -/
def sortLoads (ld : Nat → Nat) : List Nat :=
  ((List.range 16).foldl (fun acc g => insertLoad (g, ld g) acc) []).map Prod.fst

/-- The overlap bits: adjacent slots whose sums fit every rail's budget, up to ovl_max of them. -/
def overlapBits (order : List Nat) (fits : Nat → Nat → Bool) (limit : Nat) : Nat :=
  ((List.range 15).foldl (fun acc i =>
    if acc.2 < limit && fits (order.getD i 0) (order.getD (i + 1) 0) then (acc.1 + 2 ^ (i + 1), acc.2 + 1) else acc) (0, 0)).1

/-- The scheduler's decision for a line: the line with cap, order, overlap and warm bits, and the overrun rail with its load, if
any (R249). -/
def schedule (s : State) (p : Nat) (l : FLine) : FLine × Option (Nat × Nat) :=
  let h := hp s p
  let ifire := fld s (R.THM_Pn_EPS p) 31 16
  let rails := List.range h.rails
  let warms := rails.foldl (fun w r =>
    if budgetOf s p r < peakMax h l w ifire r then w.mapIdx (fun q b => b && h.rail q ≠ r) else w) l.warms
  let isOver := rails.find? (fun r => budgetOf s p r < peakMax h l warms ifire r)
  let cap0 := min (fld s (R.FIR_Pn_PRECAP p) 8 0) (th s p).cap
  let cap := if isOver.isSome then min cap0 (fld s (R.THM_Pn_CAPS p) 8 0) else cap0
  let pk (g r : Nat) : Nat := peakOf h l warms ifire g r
  let ovl := overlapOk s && fld s R.THM_CFG 9 9 = 1
  let srt := sortLoads (fun g => rails.foldl (fun m r => max m (pk g r)) 0)
  let order := if bellMode s then (List.range 16).map (bellOrder s)
    else if fld s R.THM_CFG 8 8 = 1 || ovl then
      (List.range 16).map (fun i => if i % 2 = 0 then srt.getD (i / 2) 0 else srt.getD (15 - i / 2) 0)
    else List.range 16
  let overlap := if !bellMode s && ovl then
      overlapBits order (fun a b => rails.all (fun r => pk a r + pk b r ≤ budgetOf s p r)) (fld s R.THM_CFG 15 12)
    else 0
  ({ l with cap := cap, order := order, overlap := overlap, warms := warms }, isOver.map (fun r => (r, peakMax h l warms ifire r)))

/-- A rate-limited event: its time mark lies at least 2^20 ticks back, or there is none. -/
def mayRaise (s : State) (t : Option Nat) : Bool :=
  match t with
  | some x => decide (x + 2 ^ 20 ≤ s.now)
  | none => true

/-- The energy decision of a line at the start of its assembly: trims, warm bits, cap, order, overlap; an overrun is counted and
raised (R235, R249, R250). -/
def decideLine (p : Nat) (l : FLine) (s : State) : State × FLine :=
  let s0 := useInvar [R.THM_Pn_BUDGET01 p, R.THM_Pn_BUDGET23 p, R.FIR_Pn_PRECAP p, R.THM_Pn_CAPS p] s
  let s1 := decideTrims p s0
  let ps := (th s1 p).prims
  let r := schedule s1 p { l with trims := ps.map Prim.trim, warms := ps.map Prim.warm }
  match r.2 with
  | none => (s1, r.1)
  | some (rail, load) =>
    let s2 := modThm p (fun t => { t with overCount := t.overCount + 1 }) s1
    if mayRaise s2 (th s2 p).overAt then
      (logEvent Ev.THM_BUDGET_OVERRUN p p rail load (modThm p (fun t => { t with overAt := some s2.now }) s2), r.1)
    else (s2, r.1)

/-! ## Qualified conditions (R240, R243) -/

/-- One sample of a qualified condition that should turn when `turn` has held for `persist` consecutive samples (0 acts as 1). -/
def Qual.step (q : Qual) (turn : Bool) (persist : Nat) : Qual :=
  if !turn then { q with run := 0 }
  else if max persist 1 ≤ q.run + 1 then ⟨!q.on, 0⟩
  else { q with run := q.run + 1 }

/-- One sample of the limit register at `o` (R243). -/
def limitStep (s : State) (o : Nat) (q : Qual) (x : Int) : Qual :=
  let lim := fldS s o 15 0
  q.step (if q.on then x < lim - fld s o 23 16 else lim ≤ x) (fld s o 27 24)

/-! ## Shutdown paths (R255 to R258) -/

/-- tlines: µs from now to the end of the last slot of the last committed line, print or service (R255). -/
def tLines (s : State) : Nat :=
  (List.range 16).foldl (fun m p => (hp s p).lines.foldl (fun m l =>
    if l.kind ≠ .warm && (l.fireSent || l.inWindow) then max m ((l.launch + l.windowTicks - s.now) / 400) else m) m) 0

/-- tord, u32 (R14, R255). -/
def tOrd (s : State) : Nat := (tLines s + trStopUs s + (rd s R.THM_SDMARGIN).toNat) % 2 ^ 32

/-- The largest of the four die sensors, and the sensor. -/
def dieTemp (s : State) : Int := (List.range 3).foldl (fun m i => max m (vat s.thmg.die (i + 1))) (vat s.thmg.die 0)
def dieSensor (s : State) : Nat := ((List.range 4).find? (fun i => vat s.thmg.die i = dieTemp s)).getD 0

/-- tjmax of a port in 1/16 °C. -/
def tj16 (s : State) (p : Nat) : Int := shr (th s p).tjmax 8

/-- NEXT of the lowest-numbered bound pipe, all ones when none is bound (R581). -/
def firstNext (s : State) : Nat :=
  match (those 16 (pipeBound s)).head? with
  | some d => (dp s d).next
  | none => 0xFFFFFFFF

/-- The state in which every KILL that waits for the end of a slot has acted: what the lines in progress come to (R136, R256). -/
def killsActed (s : State) : State := forEach (those 16 (fun p => (hp s p).killDue)) sendKill s

/-- The first line not fired, of a head's pipe, or of the lowest-numbered bound pipe for a die crossing (R136, R260). -/
def pathNext (s : State) (x : Path) : Nat :=
  let s := killsActed s
  if x.die then firstNext s
  else
    match portPipe s x.port with
    | some d => (dp s d).next
    | none => 0xFFFFFFFF

/-- The largest tj over the ACTIVE ports in 1/16 °C, 0 when none is ACTIVE (R581). -/
def tjLargest (s : State) : Int :=
  match those 16 (active s) with
  | [] => 0
  | p :: ps => ps.foldl (fun m p => max m (tj16 s p)) (tj16 s p)

/-- The THERMAL or SHUTDOWN record of a path (R260, R261); `way` 1 main, 2 fall-back. -/
def pathRecord (s : State) (x : Path) (way : Nat) : JRec :=
  { type := if x.die then .shutdown else .thermal, sev := .halt, code := x.code, bell := x.bell, a0 := x.a0, a1 := x.a1, a2 := x.a2,
    gst := x.gst,
    payload := leBytes 1 x.port ++ leBytes 1 x.zone ++ leBytes 1 way ++ leBytes 2 (narrow 16 x.temp) ++
      leBytes 2 (narrow 16 x.rate) ++ leBytes 2 (narrow 16 (if x.die then tjLargest s else tj16 s x.port)) ++
      leBytes 2 (narrow 16 (dieTemp s)) ++ leBytes 4 x.ttl ++ leBytes 4 x.tord ++ leBytes 4 (pathNext s x) }

/-- A path may change the present state: a die crossing every state but OFF, RESET and SHUTDOWN, a head crossing those that a
HALT-class event leaves (R34, R35). -/
def pathMoves (x : Path) (s : State) : Bool :=
  if x.die then s.glb.state ∉ [GState.off, .reset, .shutdown] else haltable s

/-- The end state of paths that end together: SHUTDOWN when a die crossing is among them, else SAFE_HOLD (R245, R256, R257). -/
def pathEnd (xs : List Path) (s : State) : State :=
  match xs.find? (fun x => x.die && pathMoves x s), xs.find? (fun x => pathMoves x s) with
  | some x, _ => enterShutdown x.code.toNat s
  | none, some x => enterSafeHold x.code.toNat s
  | none, none => s

/-- The records of paths that have none yet are queued (R256 to R258). -/
def pathRecords (way : Nat) (xs : List Path) (s : State) : State :=
  (xs.filter (fun x => !x.recorded)).foldl (fun s x => jRecord (pathRecord s x way) s) s

/-- The main path, taken by the paths given together: inhibit, enter the hold, queue the records (R256, R258). No path is left in
progress. -/
def mainPath (xs : List Path) (s : State) : State :=
  let s1 := xs.foldl (fun s x => logEvent Ev.THM_SHUTDOWN_PATH 0xFF 1 x.ttl x.tord s) { s with thmg := { s.thmg with paths := [] } }
  pathRecords 1 xs (pathEnd xs s1)

/-- The fall-back begins for a path: STOPPING in place of the state that R35 would give, unless the device is there already; the path joins
those in progress (R257). -/
def fallPath (x : Path) (s : State) : State :=
  let s1 := logEvent Ev.THM_SHUTDOWN_PATH 0xFF 2 x.ttl x.tord { s with thmg := { s.thmg with paths := s.thmg.paths ++ [x] } }
  if s.glb.state = .stopping ∨ !pathMoves x s then s1 else enterStopping x.code.toNat s1

/-- A crossing of HALT class takes its path (R255 to R257): a rate crossing the fall-back when ttl > tord, unless it finds neither a state
to stop from nor a fall-back to join; every other one the main path, to which the paths in progress switch with it. -/
def takePath (x : Path) (rate : Bool) (s : State) : State :=
  if rate ∧ x.tord < x.ttl ∧ (s.glb.state = .stopping ∨ pathMoves x s ∨ s.thmg.paths ≠ []) then fallPath x s
  else if rate ∧ x.tord < x.ttl then mainPath [x] s
  else mainPath (s.thmg.paths ++ [x]) s

/-- A THERMAL or SHUTDOWN record waits or is being programmed. -/
def pathPending (s : State) : Bool :=
  s.jrn.queue.any (fun r => r.rank = 4) ||
  match s.jrn.busy with
  | some b => fieldAt b 0 1 = JType.thermal.code || fieldAt b 0 1 = JType.shutdown.code
  | none => false

/-- The end state of the fall-back is entered once its records are complete (R257, the fall-back's table). -/
def pathsClose (s : State) : State :=
  if !s.thmg.paths.isEmpty && s.thmg.paths.all Path.recorded && !pathPending s then
    pathEnd s.thmg.paths { s with thmg := { s.thmg with paths := [] } }
  else s

/-- JOURNAL_PROGRAM_DONE (R262): the next record starts; the end of the fall-back's records ends the fall-back (R257). -/
def execJournalProgramDone (s : State) : Host.Outcome State Fault Refusal := finish (pathsClose (jStart (jFinish s)))

/-- ttl of a rate crossing, µs; the rule takes the rate as positive, and the quotient by another one is unstated (R255, log 5). -/
def ttlOf (t lim rate : Int) : Nat :=
  if t < lim then (if 0 < rate then ((lim - t) * 4000 / rate).toNat else Config.freeQuot ((lim - t) * 4000).toNat) % 2 ^ 32 else 0

/-! ## Head limits (R242 to R246) -/

/-- Mean tb over the primitives of zone `z`, 1/16 °C. -/
def zoneModel (s : State) (p z : Nat) : Int :=
  let h := hp s p
  let first := if h.zones = 0 then 0 else h.zoneFirst z
  let stop := if h.zones = 0 then h.nprim else h.zoneEnd z
  let ps := ((th s p).prims.drop first).take (stop - first)
  if ps.isEmpty then shr (th s p).tref 8 else (ps.foldl (fun a x => a + x.tb) 0) / (ps.length : Int) / 256

/-- The quantity of zone `z` for the temperature limits (R233, R242). -/
def zoneQuantity (s : State) (p z : Nat) (x : Zone) : Int :=
  let m := zoneModel s p z
  if x.faulted || (th s p).teleLost then m else max x.temp m

/-- The rate of a zone's or the die's readings, newest first: the newest reading against the newest one at least 2^rwin ticks older, in
1/64 °C/ms; none while there is no such reading (R242). -/
def rateOf (s : State) (hist : List (Nat × Int)) : Option Int :=
  match hist with
  | [] => none
  | (t, x) :: rest =>
    (rest.find? (fun y => y.1 + 2 ^ fld s R.THM_CFG 4 0 ≤ t)).map (fun y => (x - y.2) * 4 * 400000 / ((t - y.1 : Nat) : Int))

/-- Readings kept: all up to and including the first one at least 2^rwin ticks older than the newest. -/
def keepHist (win : Nat) (t : Nat) : List (Nat × Int) → List (Nat × Int)
  | [] => []
  | x :: rest => if x.1 + win ≤ t then [x] else x :: keepHist win t rest

/-- The largest value, with its number; the lowest number among equals. -/
def maxPair : List (Int × Nat) → Option (Int × Nat)
  | [] => none
  | x :: l => some (l.foldl (fun m y => if m.1 < y.1 then y else m) x)

/-- The zone temperature of port `p` with its zone (R242). -/
def zoneTemp (s : State) (p : Nat) : Int × Nat :=
  (maxPair ((th s p).zones.mapIdx (fun z x => (zoneQuantity s p z x, z)))).getD (0, 0)

/-- The zone rate of port `p` with its zone: the largest over the valid zones that have one, of model values while the TELE frames are lost
(R233, R242). -/
def zoneRate (s : State) (p : Nat) : Option (Int × Nat) :=
  let t := th s p
  maxPair ((t.zones.zipIdx.filter (fun x => !x.1.faulted)).filterMap
    (fun x => (rateOf s (if t.teleLost then x.1.mhist else x.1.hist)).map (fun r => (r, x.2))))

/-- THM_LIMIT_RETURN when a limit has returned (R243). -/
def limitReturn (inst o : Nat) (old new : Qual) (x : Int) (s : State) : State :=
  if old.on && !new.on then logEvent Ev.THM_LIMIT_RETURN inst inst o (toWord x).toNat s else s

/-- One sample of the limit register at `o` on a quantity that may have no value yet (R243). -/
def limitMaybe (s : State) (o : Nat) (q : Qual) (x : Option Int) : Qual :=
  match x with
  | some v => limitStep s o q v
  | none => q

/-- A limit raises its event: once per crossing, and again at the first sample in PRINT while it is still crossed (R243, R246). -/
def limitUp (again : Bool) (a b : Qual) : Bool := b.on && (!a.on || again)

/-- A HALT-class event whose action is a path of R255, not that of its severity (R245): the event, and what its path holds. -/
def haltEvent (k : EvKind) (inst a0 a1 a2 : Nat) (x : Path) (s : State) : State × Path :=
  (logPeer k inst a0 a1 a2 s, { x with code := k.code, a0 := BitVec.ofNat 32 a0, a1 := BitVec.ofNat 32 a1, a2 := BitVec.ofNat 32 a2 })

/-- A head HALT crossing: the event and the path (R245, R255); the port counts a HALT-class thermal event (R227). -/
def headHalt (k : EvKind) (p zone a1 a2 : Nat) (temp rate : Int) (byRate : Bool) (s : State) : State :=
  let x : Path :=
    { die := false, port := p, zone := zone, temp := temp, rate := rate,
      ttl := if byRate then ttlOf temp (fldS s (R.THM_Pn_THALT p) 15 0) rate else 0, tord := tOrd s, code := 0, a0 := 0, a1 := 0, a2 := 0,
      bell := s.now, gst := s.glb.state, recorded := false }
  let r := haltEvent k p p a1 a2 x (modHlp p (fun h => { h with uHalts := h.uHalts + 1 }) s)
  takePath r.2 byRate r.1

/-- The limits of port `p` evaluated on a sample (R242 to R246): events once per crossing and return, and the action of the
highest class; `lost`: the sample has already given a HALT crossing, of zones lost. -/
def headLimits (p : Nat) (lost : Bool) (s0 : State) : State :=
  let s := useInvar [R.THM_Pn_TTHR p, R.THM_Pn_TSTOP p, R.THM_Pn_THALT p, R.THM_Pn_RSTOP p, R.THM_Pn_RHALT p, R.THM_SDMARGIN] s0
  let t := th s p
  let tz := zoneTemp s p
  let rz := zoneRate s p
  let rv := (rz.map Prod.fst).getD 0
  let zr := (rz.map Prod.snd).getD 0
  let thr := limitStep s (R.THM_Pn_TTHR p) t.thr tz.1
  let ts := limitStep s (R.THM_Pn_TSTOP p) t.tstop tz.1
  let ta := limitStep s (R.THM_Pn_THALT p) t.thalt tz.1
  let rs := limitMaybe s (R.THM_Pn_RSTOP p) t.rstop (rz.map Prod.fst)
  let ra := limitMaybe s (R.THM_Pn_RHALT p) t.rhalt (rz.map Prod.fst)
  let printing := s.glb.state = .print
  let up := limitUp (t.again && printing)
  let s1 := modThm p (fun t => { t with thr := thr, tstop := ts, thalt := ta, rstop := rs, rhalt := ra, tzmax := tz.1,
                                        rate := max t.rate rv, again := t.again && !printing,
                                        capLines := if t.thr.on = thr.on then t.capLines else 0 }) s
  let s2 := limitReturn p (R.THM_Pn_TTHR p) t.thr thr tz.1 (limitReturn p (R.THM_Pn_TSTOP p) t.tstop ts tz.1
    (limitReturn p (R.THM_Pn_THALT p) t.thalt ta tz.1 (limitReturn p (R.THM_Pn_RSTOP p) t.rstop rs rv
      (limitReturn p (R.THM_Pn_RHALT p) t.rhalt ra rv s1))))
  let s3 := if up t.thr thr then logEvent Ev.THM_HEAD_THROTTLE p p tz.2 (toWord tz.1).toNat s2 else s2
  let halt := lost || up t.thalt ta || up t.rhalt ra
  let stopEv (k : Nat) (z : Nat) (s : State) : State :=
    if halt then logPeer Ev.THM_HEAD_STOP p p z k s
    else raise Ev.THM_HEAD_STOP p p z k (ssAsk .thermal s).1
  let s4 := if up t.tstop ts then stopEv 1 tz.2 s3 else s3
  let s5 := if up t.rstop rs then stopEv 2 zr s4 else s4
  if up t.thalt ta then
    headHalt Ev.THM_HEAD_HALT p tz.2 tz.2 1 tz.1 rv false (if up t.rhalt ra then logPeer Ev.THM_HEAD_HALT p p zr 2 s5 else s5)
  else if up t.rhalt ra then headHalt Ev.THM_HEAD_HALT p zr zr 2 tz.1 rv true s5
  else s5

/-! ## Zone sensors (R238 to R241) -/

/-- Insertion of a reading into a rising list. -/
def insertInt (x : Int) : List Int → List Int
  | [] => [x]
  | y :: ys => if x ≤ y then x :: y :: ys else y :: insertInt x ys

/-- The median; the mean of the two middle values, toward minus infinity, for an even count (R239). -/
def median (l : List Int) : Int :=
  let r := l.foldl (fun acc x => insertInt x acc) []
  let n := r.length
  if n % 2 = 1 then r.getD (n / 2) 0 else (r.getD (n / 2 - 1) 0 + r.getD (n / 2) 0) / 2

/-- The absolute value. -/
def iabs (x : Int) : Int := if x < 0 then -x else x

/-- The neighbour check of zone `z` (R240): some adjacent valid zone lies within the tolerance; a port with one zone passes. -/
def nbrPass (zs : List Zone) (z : Nat) (tol : Int) : Bool :=
  zs.length ≤ 1 ||
  [z + 1, z - 1].any (fun n => n ≠ z &&
    match zs[n]?, zs[z]? with
    | some a, some b => !a.faulted && iabs (b.temp - a.temp) ≤ tol
    | _, _ => false)

/-- One zone's checks at a sample (R240, R241). -/
def checkZone (p z : Nat) (s : State) : State :=
  let t := th s p
  match t.zones[z]? with
  | none => s
  | some x =>
    let persist := max (fld s R.THM_XCHK 19 16) 1
    let nok := nbrPass t.zones z (fld s R.THM_XCHK 15 8 : Nat)
    let dev := x.temp - zoneModel s p z
    let mok := iabs dev ≤ (fld s R.THM_XCHK 7 0 : Nat)
    let put (y : Zone) (s : State) : State := modThm p (fun t => { t with zones := t.zones.set z y }) s
    if x.faulted then
      if nok && mok then
        if persist ≤ x.okRun + 1 then
          logEvent Ev.THM_ZONE_OK p p z (toWord x.temp).toNat
            (put { x with faulted := false, okRun := 0, nbr := .reset, model := .reset } s)
        else put { x with okRun := x.okRun + 1 } s
      else put { x with okRun := 0 } s
    else
      let nb := x.nbr.step (x.nbr.on = nok) persist
      let mo := x.model.step (x.model.on = mok) persist
      let y := { x with nbr := nb, model := mo }
      if nb.on && mo.on then logEvent Ev.THM_ZONE_FAULT p p z (toWord x.temp).toNat (put { y with faulted := true, okRun := 0 } s)
      else if mo.on && !x.model.on then logEvent Ev.THM_MODEL_DEV p p z (toWord dev).toNat (put y s)
      else put y s

/-- The offset of zone `z` of port `p`: that of the thermal block, 0 when its check failed (R236, R237). -/
def zoneOffset (s : State) (p z : Nat) : Int := if (th s p).blockOk then signed 16 ((hp s p).f (0x718 + 2 * z) 2) else 0

/-- A sample of every zone of port `p`, raw readings in 1/16 °C (R238 to R242). -/
def zoneSample (p : Nat) (raw : List Int) (s0 : State) : State :=
  let s := useInvar [R.THM_XCHK] s0
  let h := hp s p
  let win := 2 ^ fld s R.THM_CFG 4 0
  let zs := (List.range h.nzones).map (fun z =>
    let old := ((th s p).zones[z]?).getD ⟨0, false, .reset, .reset, 0, [], []⟩
    let t := raw.getD z 0 + zoneOffset s p z
    { old with temp := t, hist := (s.now, t) :: keepHist win s.now old.hist,
               mhist := (s.now, zoneModel s p z) :: keepHist win s.now old.mhist })
  let s1 := forEach (List.range h.nzones) (checkZone p) (modThm p (fun t => { t with zones := zs }) s)
  let valid := (th s1 p).zones.filter (fun x => !x.faulted)
  let s2 := if valid.isEmpty then s1 else modThm p (fun t => { t with tref := median (valid.map Zone.temp) * 256 }) s1
  let bad := (th s2 p).zones.length - valid.length
  let lost := fld s R.THM_XCHK 23 20 < bad || valid.isEmpty
  let mask := maskOf 16 (fun z => (((th s2 p).zones[z]?).map Zone.faulted).getD false)
  let s3 := setF (R.THM_Pn_STAT2 p) 31 16 mask s2
  let s4 := modThm p (fun t => { t with zonesLost := lost }) s3
  if lost && (!(th s3 p).zonesLost || ((th s3 p).again && s3.glb.state = .print)) then
    headLimits p true (headHalt Ev.THM_ZONES_LOST p 0xFF mask 0 (zoneTemp s4 p).1 (((zoneRate s4 p).map Prod.fst).getD 0) false s4)
  else headLimits p false s4

/-! ## Energy reported by the head (R232, R233, R251) -/

/-- The correction of a primitive from a TELE frame: measured shares less commanded energy as its launch added it; slots that did not fire
give their commanded energy back (R232). -/
def teleCorr (h : Hlp) (l : FLine) (slots : Nat) (e : List Nat) (q : Nat) : Int :=
  (List.range 16).foldl (fun c sl =>
    let eps := l.eps
    let w := l.steps h q sl
    if w = 0 then c
    else if slots ≤ sl then c - (ecOf w eps : Int)
    else
      let r := h.rail q
      let wsum := (those h.nprim (fun x => h.rail x = r)).foldl (fun a x => a + l.steps h x sl) 0
      let em := (e.getD (4 * sl + r) 0 * w + wsum / 2) / wsum % 65536
      c + (em : Int) - (ecOf w eps : Int)) 0

/-- Lines whose window has ended and whose TELE frame is no longer awaited leave the port (R204). -/
def retireLines (p : Nat) (s : State) : State :=
  modHlp p (fun h => { h with lines := h.lines.filter (fun l => !(l.launched && !l.inWindow && l.tele ≠ .waiting)) }) s

/-- The measured print power of the last 2^20 ticks, mW (R252). -/
def pmeas (s : State) : Nat :=
  (s.thmg.energy.filter (fun x => s.now < x.1 + 2 ^ 20)).foldl (fun a x => a + x.2) 0 * 1000 / (256 * 2621)

/-- Peak currents against the budgets (R251). -/
def peakCheck (p : Nat) (ipk : List Nat) (s : State) : State :=
  match (List.range (hp s p).rails).find? (fun r => budgetOf s p r < ipk.getD r 0) with
  | some r =>
    if mayRaise s (th s p).peakAt then
      logEvent Ev.THM_PEAK_MEASURED p p r (ipk.getD r 0) (modThm p (fun t => { t with peakAt := some s.now }) s)
    else s
  | none => s

/-- TELE_KIND0_RX (R232): a TELE frame of kind 0 arrives on an ACTIVE port. `energy` is that of slot s on rail r at 4s + r,
`temps` the zone readings. -/
def execTeleKind0Rx (p : Fin 16) (tag : BitVec 16) (warmOnly : Bool) (slots : Fin 17) (energy ipk temps : List (BitVec 16))
    (s : State) : Host.Outcome State Fault Refusal :=
  finish (if !active s p then s
    else
      let h := hp s p
      let e := energy.map BitVec.toNat
      let is (l : FLine) : Bool := l.launched && l.tele = .waiting && ((l.kind = .warm) = warmOnly) && (warmOnly || l.line % 65536 = tag.toNat)
      let s1 := match h.lines.find? is with
        | some l =>
          let s1 := modThm p (fun t => { t with prims := t.prims.mapIdx (fun q x => { x with corr := s32 (x.corr + teleCorr h l slots.val e q) }) }) s
          retireLines p (modHlp p (fun h => { h with lines := h.lines.map (fun x => if x = l then { x with tele := .got } else x) }) s1)
        | none => s
      let s2 := setF (R.THM_Pn_TELECNT p) 31 16 0 (modThm p (fun t => { t with teleLost := false }) s1)
      let live := s2.thmg.energy.filter (fun x => s2.now < x.1 + 2 ^ 20)
      let s3 := { s2 with thmg := { s2.thmg with energy := (s2.now, e.foldl (· + ·) 0) :: live } }
      let s4 := peakCheck p (ipk.map BitVec.toNat) (useInvar [R.THM_Pn_BUDGET01 p, R.THM_Pn_BUDGET23 p] s3)
      if h.zones = 0 then s4 else zoneSample p (temps.map (fun x => signed 16 x.toNat)) s4)

/-- TELE_MISSING_TIMEOUT (R233): 12 µs after the last slot of a line its TELE frame has not arrived. -/
def execTeleMissingTimeout (p : Fin 16) (s : State) : Host.Outcome State Fault Refusal :=
  finish (match (hp s p).lines.find? (fun l => l.launched && !l.inWindow && l.tele = .waiting) with
    | none => s
    | some l =>
      let s1 := retireLines p (modHlp p (fun h => { h with lines := h.lines.map (fun x => if x = l then { x with tele := .missing } else x) }) s)
      let s2 := incF (R.THM_Pn_TELECNT p) 31 16 (incF (R.THM_Pn_TELECNT p) 15 0 s1)
      let s3 := if mayRaise s2 s2.thmg.missAt then
          logEvent Ev.THM_TELE_MISSING p p (l.line % 65536) (fld s2 (R.THM_Pn_TELECNT p) 15 0)
            { s2 with thmg := { s2.thmg with missAt := some s2.now } }
        else s2
      let c := fld s3 (R.THM_Pn_TELECNT p) 31 16
      if c = 64 then raise Ev.THM_TELE_LOST p p c 0 (modThm p (fun t => { t with teleLost := true }) s3) else s3)

/-- MODEL_IDLE_UPDATE (R234): 2^16 ticks without a launch on the port. -/
def execModelIdleUpdate (p : Fin 16) (s : State) : Host.Outcome State Fault Refusal :=
  finish (if active s p then modelUpdate p (fun _ => 0) s else s)

/-- ZONE_POLL_TIMER (R238): 2^22 ticks without a TELE frame of kind 0. -/
def execZonePollTimer (p : Fin 16) (s : State) : Host.Outcome State Fault Refusal :=
  finish (if !active s p then s
    else if (hp s p).zones = 0 then memAsk p .zone 1 0x8008 2 [] s
    else memAsk p .zone 1 0x8020 (2 * (hp s p).zones) [] s)

/-! ## The die (R242, R245, R248) -/

/-- A die shutdown crossing: the event and the path (R245, R255); `kind` 1 absolute, 2 rate. -/
def dieHalt (kind : Nat) (s : State) : State :=
  let t := dieTemp s
  let r := s.thmg.dieRate
  let x : Path :=
    { die := true, port := 0xFF, zone := dieSensor s, temp := t, rate := r,
      ttl := if kind = 2 then ttlOf t (fldS s R.THM_DIESHUT 15 0) r else 0, tord := tOrd s, code := 0, a0 := 0, a1 := 0, a2 := 0,
      bell := s.now, gst := s.glb.state, recorded := false }
  let y := haltEvent Ev.THM_DIE_SHUTDOWN 0xFF kind (toWord t).toNat (toWord r).toNat x s
  takePath y.2 (kind = 2) y.1

/-- The automatic throttle request: division and skip (R248). -/
def autoThrottle (thr1 thr2 thr3 : Bool) : Fin 3 × Fin 16 :=
  if thr3 then (2, 0) else if thr2 then (1, 0) else if thr1 then (0, 4) else (0, 0)

/-- DIE_SENSOR_SAMPLE (R242): the four die sensors are sampled and the die limits evaluated. -/
def execDieSensorSample (temps : Vector (BitVec 16) 4) (s : State) : Host.Outcome State Fault Refusal :=
  finish (if s.glb.state = .off ∨ s.glb.state = .reset then s
    else
      let s0 := useInvar [R.THM_DIETHR1, R.THM_DIETHR2, R.THM_DIETHR3, R.THM_DIESTOP, R.THM_DIESHUT, R.THM_DIERSHUT, R.THM_SDMARGIN] s
      let die := temps.map (fun x => signed 16 x.toNat)
      let s1 := { s0 with thmg := { s0.thmg with die := die } }
      let x := dieTemp s1
      let hist := (s1.now, x) :: keepHist (2 ^ fld s1 R.THM_CFG 4 0) s1.now s1.thmg.dieHist
      let rr := rateOf s1 hist
      let r := rr.getD s1.thmg.dieRate
      let g := s1.thmg
      let thr1 := limitStep s1 R.THM_DIETHR1 g.thr1 x
      let thr2 := limitStep s1 R.THM_DIETHR2 g.thr2 x
      let thr3 := limitStep s1 R.THM_DIETHR3 g.thr3 x
      let stop := limitStep s1 R.THM_DIESTOP g.stop x
      let shut := limitStep s1 R.THM_DIESHUT g.shut x
      let rshut := limitMaybe s1 R.THM_DIERSHUT g.rshut rr
      let au := autoThrottle thr1.on thr2.on thr3.on
      let printing := s1.glb.state = .print
      let s2 := { s1 with thmg := { g with dieHist := hist, dieRate := r, thr1 := thr1, thr2 := thr2, thr3 := thr3, stop := stop,
                                           shut := shut, rshut := rshut, again := g.again && !printing },
                          glb := { s1.glb with autoDiv := au.1, autoSkip := au.2 } }
      let s3 := limitReturn 0xFF R.THM_DIETHR1 g.thr1 thr1 x (limitReturn 0xFF R.THM_DIETHR2 g.thr2 thr2 x
        (limitReturn 0xFF R.THM_DIETHR3 g.thr3 thr3 x (limitReturn 0xFF R.THM_DIESTOP g.stop stop x
          (limitReturn 0xFF R.THM_DIESHUT g.shut shut x (limitReturn 0xFF R.THM_DIERSHUT g.rshut rshut r s2)))))
      let up := limitUp (g.again && printing)
      let s4 := if up g.stop stop then
          (if up g.shut shut || up g.rshut rshut then logPeer Ev.THM_DIE_STOP (dieSensor s3) (dieSensor s3) (toWord x).toNat 0 s3
           else raise Ev.THM_DIE_STOP (dieSensor s3) (dieSensor s3) (toWord x).toNat 0 s3)
        else s3
      if up g.shut shut then
        dieHalt 1 (if up g.rshut rshut then logPeer Ev.THM_DIE_SHUTDOWN 0xFF 2 (toWord x).toNat (toWord r).toNat s4 else s4)
      else if up g.rshut rshut then dieHalt 2 s4
      else s4)

/-- No committed line is left to launch and none has a slot in progress; warm-only cycles are no lines. -/
def linesDone (s : State) : Bool :=
  (List.range 16).all (fun p => (hp s p).lines.all (fun l => l.kind = .warm || (!(l.fireSent && !l.launched) && !l.inWindow)))

/-- FALLBACK_COMPLETE (R257): the transport is at rest and the last slot has ended; the records are queued, and the end state follows
them. -/
def execFallbackComplete (s : State) : Host.Outcome State Fault Refusal :=
  finish (if !s.thmg.paths.isEmpty && trAtRest s && linesDone s then
    pathsClose (pathRecords 2 s.thmg.paths
      { s with thmg := { s.thmg with paths := s.thmg.paths.map (fun x => { x with recorded := true }) } })
  else s)

/-- FALLBACK_TTL_EXPIRY (R257): ttl has elapsed during the fall-back. -/
def execFallbackTtlExpiry (s : State) : Host.Outcome State Fault Refusal :=
  finish (if s.thmg.paths.isEmpty then s else mainPath s.thmg.paths s)

/-! ## The power ledger (R252 to R254) -/

/-- avail, mW, s32 (R14, R252). -/
def avail (s : State) : Int :=
  s32 (((rd s R.THM_LBUDGET).toNat : Int) - max (rd s R.THM_PRINTRES).toNat (pmeas s) -
    ((s.thmg.grants.foldl (fun a r => a + r.mw) 0 : Nat) : Int))

/-- The first waiting request: highest priority, then order of arrival (R252). -/
def ledgerFirst (s : State) : Option Req :=
  s.thmg.waiting.foldl (fun m r =>
    match m with
    | none => some r
    | some x => if ledgerPrio s r.cls < ledgerPrio s x.cls then some r else some x) none

/-- A use of the Invar values that the ledger reads (R13, R252, R254). -/
def ledgerInvar (s : State) : State := useInvar [R.THM_LBUDGET, R.THM_PRINTRES] s

/-- A request to the ledger (R252, R254). -/
def ledgerRequest (cls inst mw : Nat) (s : State) : State × Bool := ledgerAsk cls inst mw (ledgerInvar s)

/-- Port `p` requests warming at its THM_Pn_WARMREQ; 0 requests nothing (R253). -/
def askWarm (p : Nat) (s : State) : State :=
  let mw := (rd s (R.THM_Pn_WARMREQ p)).toNat
  if mw = 0 then s else (ledgerRequest 0 p mw s).1

/-- One warming grant is revoked, from the highest port down; its port asks again at once (R253). -/
def ledgerRevoke (s : State) : Option State :=
  match (those 16 (fun p => granted s 0 p)).getLast? with
  | none => none
  | some p =>
    some (askWarm p { s with thmg := { s.thmg with grants := s.thmg.grants.filter (fun r => !(r.cls = 0 && r.inst = p)) } })

/-- A waiting request of higher priority than warming would fit once warming grants are revoked (R253). -/
def revokeHelps (s : State) (r : Req) : Bool :=
  ledgerPrio s r.cls < ledgerPrio s 0 && decide (avail s < r.mw) &&
  decide ((r.mw : Int) ≤ avail s + ((s.thmg.grants.filter (fun g => g.cls = 0)).foldl (fun a g => a + g.mw) 0 : Nat))

/-- The request that is granted: of the waiting requests of the highest priority, the first in order of arrival that fits; none of a lower
priority while one of them waits (R252). -/
def ledgerNext (s : State) : Option Req :=
  match ledgerFirst s with
  | some x => s.thmg.waiting.find? (fun r => ledgerPrio s r.cls = ledgerPrio s x.cls && decide ((r.mw : Int) ≤ avail s))
  | none => none

/-- One evaluation of the ledger: revocations, then the grant (R252 to R254). `fuel` bounds the revocations. -/
def ledgerEval : Nat → State → State
  | 0, s => s
  | n + 1, s =>
    let isOver := decide (avail s < 0)
    match if isOver || s.thmg.waiting.any (revokeHelps s) then ledgerRevoke s else none with
    | some s1 => ledgerEval n s1
    | none =>
      if isOver then
        if s.thmg.overRaised then s
        else logEvent Ev.THM_LEDGER_OVER 0xFF (toWord (avail s)).toNat (pmeas s) 0 { s with thmg := { s.thmg with overRaised := true } }
      else
        let s1 := { s with thmg := { s.thmg with overRaised := false } }
        match ledgerNext s1 with
        | some r => { s1 with thmg := { s1.thmg with waiting := s1.thmg.waiting.erase r, grants := s1.thmg.grants ++ [r] } }
        | none => s1

/-- LEDGER_WAIT_TIMEOUT (R254): a request has waited longer than wait_ms; it keeps waiting. -/
def execLedgerWaitTimeout (cls : Fin 6) (inst : Fin 16) (s : State) : Host.Outcome State Fault Refusal :=
  finish (match s.thmg.waiting.find? (fun r => r.cls = cls.val && r.inst = inst.val && !r.warned) with
    | some r =>
      logEvent Ev.THM_LEDGER_WAIT cls.val cls.val inst.val r.mw
        { s with thmg := { s.thmg with waiting := s.thmg.waiting.map (fun x => if x = r then { x with warned := true } else x) } }
    | none => s)

/-! ## Commands (R263) -/

/-- THM_CMD_STATUS of an evaluated command; a refusal raises THM_CMD_REJECT. -/
def thmResult (cmd p res : Nat) (s : State) : State :=
  let w := BitVec.ofNat 32 (res + 16 * gnum s + 256 * cmd + 4096 * p)
  let s1 := wr R.THM_CMD_STATUS w s
  if res = 1 then s1 else logEvent Ev.THM_CMD_REJECT p cmd p res s1

/-- The table of R263, gen apart: result, and state. A port that the image does not bind takes no command (R18). -/
def thmTable (cmd p : Nat) (s : State) : Nat × State :=
  let quiet := s.glb.state = .idle || s.glb.state = .armed || s.glb.state = .safeHold
  let firing := s.glb.state = .print || s.glb.state = .stopping
  if cmd < 1 ∨ 2 < cmd then (3, s)
  else if !portBound s p then (2, s)
  else if cmd = 1 then if quiet ∧ active s p then (1, seedModel p s) else (2, s)
  else if (quiet ∧ active s p) ∨ firing then (1, modThm p (fun t => { t with tjmax := 0, rate := 0 }) s)
  else (2, s)

/-- A write of THM_CMD (R263): OFF has no access; gen first, then the table. -/
def thmCmd (cmd p gen : Nat) (s : State) : State :=
  if s.glb.state = .off then s
  else if gen ≠ (hp s p).gen.toNat then thmResult cmd p 4 s
  else
    let r := thmTable cmd p s
    thmResult cmd p r.1 r.2

/-- THM_RESEED (R263). -/
def execThmReseed (p : Fin 16) (gen : BitVec 16) (s : State) : Host.Outcome State Fault Refusal :=
  finish (viaTable R.THM_CMD (thmCmd 1 p gen.toNat) s)

/-- THM_CLRMAX (R263). -/
def execThmClrmax (p : Fin 16) (gen : BitVec 16) (s : State) : Host.Outcome State Fault Refusal :=
  finish (viaTable R.THM_CMD (thmCmd 2 p gen.toNat) s)

end Sys2Proof.Machine
end

