-- ==== Sys2Proof/Machine/Health.lean ====
section
/-!
DEFINITION. The health table, confidence counting, substitution entries, and the content of scan and spit lines
(spec/08_nozzle_health.md R265 to R284). Sequences and commands stand in Nozzle.lean.
-/
namespace Sys2Proof.Machine

/-! ## The tables (R265, R266, R278) -/

/-- The BAR0 offset of the health entry of nozzle `i` of row `r` on port `p`. -/
def healthOff (s : State) (p r i : Nat) : Nat := R.TBL_HEALTH + 4 * (p * 16384 + r * (hp s p).cols + i)

/-- Fields of a health entry. -/
def heState (e : Word) : Nat := bits e 2 0
def heSub (e : Word) : Bool := bits e 14 14 = 1
def heIdx (e : Word) : Nat := bits e 29 16

/-- A nozzle with this entry is out (R266); the reserved state is treated as FORCED_OFF. -/
def heOut (s : State) (e : Word) : Bool :=
  heState e = 4 || heState e = 5 || heState e = 7 || (heState e = 3 && fld s R.NHL_CFG 1 1 = 1)

/-- A forced or reserved state, which results do not change (R269). -/
def heForced (e : Word) : Bool := 5 ≤ heState e

/-- A nozzle is FORCED_OFF: it takes no scan or spit drop (R274, R284). -/
def nozzleOff (s : State) (p r i : Nat) : Bool :=
  let st := heState (rd s (healthOff s p r i))
  st = 5 || st = 7

/-- A nozzle is out. -/
def nozzleOut (s : State) (p r i : Nat) : Bool := heOut s (rd s (healthOff s p r i))

/-- The health entries of port `p` that differ from 0: row, nozzle, entry. -/
def healthList (s : State) (p : Nat) : List (Nat × Nat × Word) :=
  let cols := max 1 (hp s p).cols
  let lo := R.TBL_HEALTH + 4 * 16384 * p
  (s.regs.filter (fun kv => lo ≤ kv.1 && kv.1 < lo + 4 * 16384)).map (fun kv =>
    let j := (kv.1 - lo) / 4
    (j / cols, j % cols, kv.2))

/-- The nozzles of port `p` that are out. -/
def outList (s : State) (p : Nat) : List (Nat × Nat × Word) := (healthList s p).filter (fun x => heOut s x.2.2)

/-- Nozzles out, and WEAK nozzles, of port `p` (NHL_Pn_STAT). -/
def outCount (s : State) (p : Nat) : Nat := (outList s p).length
def weakCount (s : State) (p : Nat) : Nat := ((healthList s p).filter (fun x => heState x.2.2 = 3)).length

/-- The offset of the low word of substitution entry `x`; the high word follows. -/
def subOff (x : Nat) : Nat := R.TBL_SUBST + 8 * x

/-- An entry as one 64-bit number. -/
def subEntry (s : State) (x : Nat) : Nat := rd64 s (subOff x) (subOff x + 4)

/-- Valid entries of port `p` (NHL_Pn_STAT2). -/
def subUsed (s : State) (p : Nat) : Nat := (those 1024 (fun j => fld s (subOff (1024 * p + j)) 0 0 = 1)).length

/-! ## Rows of a pipe (spec/04_dot_data.md R120) -/

/-- The primary row of a plane of pipe `d`: its lowest-numbered present row. -/
def primaryRow (s : State) (d plane : Nat) : Nat := ((rowsOf s d).find? (fun r => rowPlane s d r = plane)).getD 0

/-- Row `r` of pipe `d` is neither the primary row of its plane nor that row's partner. -/
def rowSecondary (s : State) (d r : Nat) : Bool :=
  let q := primaryRow s d (rowPlane s d r)
  r ≠ q && rowPair s d q ≠ r

/-- Row `r` of pipe `d` takes line `m` of its plane: the even lines for a paired primary row, the odd ones for its partner, all for an
unpaired row. A secondary row takes every line, one with a row-pair partner of its own too, where the spec is silent (DESIGN CHOICE, log
78). -/
def rowTakes (s : State) (d r m : Nat) : Bool :=
  let q := primaryRow s d (rowPlane s d r)
  if rowPair s d q = 0xF || rowSecondary s d r then true
  else if r = q then m % 2 = 0 else m % 2 = 1

/-! ## Building and freeing entries (R281, R282) -/

/-- The row target for nozzle `i` of row `r`: the lowest secondary row of the plane whose nozzle is not out. -/
def rowTarget (s : State) (p r i : Nat) : Option Nat :=
  match portPipe s p with
  | none => none
  | some d => (rowsOf s d).find? (fun q => rowPlane s d q = rowPlane s d r && q ≠ r && rowSecondary s d q && !nozzleOut s p q i)

/-- The neighbours that policy names and that are not out, as the entry's nbr field. -/
def nbrTargets (s : State) (p r i : Nat) : Nat :=
  let d := fld s (R.NHL_Pn_POLICY p) 7 6 + 1
  let nbr := fld s (R.NHL_Pn_POLICY p) 5 4
  let lo := bitOf nbr 0 && decide (d ≤ i) && !nozzleOut s p r (i - d)
  let hi := bitOf nbr 1 && decide (i + d < (hp s p).cols) && !nozzleOut s p r (i + d)
  b2n lo + 2 * b2n hi

/-- The targets that the policy mode gives: row target and neighbours. -/
def policyTargets (s : State) (p r i : Nat) : Option Nat × Nat :=
  match fld s (R.NHL_Pn_POLICY p) 2 0 with
  | 1 => (rowTarget s p r i, 0)
  | 2 => (none, nbrTargets s p r i)
  | 3 => if (rowTarget s p r i).isSome then (rowTarget s p r i, 0) else (none, nbrTargets s p r i)
  | 4 => (rowTarget s p r i, nbrTargets s p r i)
  | _ => (none, 0)

/-- The two words of an auto entry (R278). -/
def autoEntry (s : State) (p r i : Nat) (t : Option Nat × Nat) : Word × Word :=
  let pol := R.NHL_Pn_POLICY p
  (BitVec.ofNat 32 (1 + 2 * p + 32 * r + 256 * i + 2 ^ 20 * (t.1.getD 0) + 2 ^ 23 * b2n t.1.isSome + 2 ^ 24 * t.2 +
      2 ^ 26 * fld s pol 7 6 + 2 ^ 28),
   BitVec.ofNat 32 (fld s pol 13 8 + 64 * fld s pol 19 14))

/-- An entry of the substitution table takes both its words (R267). -/
def putSub (x : Nat) (e : Word × Word) (s : State) : State := wr (subOff x + 4) e.2 (wr (subOff x) e.1 s)

/-- The device builds an entry for a nozzle that is out, at the lowest free index of the port (R281). -/
def buildSub (p r i : Nat) (s : State) : State :=
  let t := policyTargets s p r i
  if t.1.isNone ∧ t.2 = 0 then s
  else
    match (List.range 1024).find? (fun j => fld s (subOff (1024 * p + j)) 0 0 = 0) with
    | some j =>
      let x := 1024 * p + j
      let o := healthOff s p r i
      setF o 29 16 x (setF o 14 14 1 (putSub x (autoEntry s p r i t) s))
    | none =>
      if (nh s p).full then s
      else logEvent Ev.NHL_SUB_FULL p p (r * 65536 + i) 0 (modNhl p (fun x => { x with full := true }) s)

/-- The auto entry of a nozzle that is no longer out is freed (R282). -/
def freeSub (p r i : Nat) (s : State) : State :=
  let o := healthOff s p r i
  let e := rd s o
  if heSub e ∧ fld s (subOff (heIdx e)) 28 28 = 1 then
    modNhl p (fun x => { x with full := false }) (setF o 14 14 0 (setF (subOff (heIdx e)) 0 0 0 s))
  else s

/-- A health entry has changed from `old` on port `p`: under policy auto a nozzle that becomes out gets an entry, and one that stops being
out loses it (R281, R282). -/
def outChanged (p r i : Nat) (old : Bool) (s : State) : State :=
  let now := nozzleOut s p r i
  if fld s (R.NHL_Pn_POLICY p) 3 3 = 0 then s
  else if now && !old then buildSub p r i s
  else if old && !now then freeSub p r i s
  else s

/-! ## Service requests (R287) and transition events (R289) -/

/-- NHL_SERVICE_REQ for a condition that rises to the threshold. -/
def serviceCheck (p : Nat) (s : State) : State :=
  let thr := fld s (R.NHL_Pn_WCONF p) 30 16
  let o := outCount s p
  let w := weakCount s p
  let x := nh s p
  let s1 := if decide (thr ≤ o) && !x.req1 then logEvent Ev.NHL_SERVICE_REQ p p 1 o s else s
  let s2 := if decide (thr ≤ w) && !x.req2 then logEvent Ev.NHL_SERVICE_REQ p p 2 w s1 else s1
  modNhl p (fun x => { x with req1 := decide (thr ≤ o), req2 := decide (thr ≤ w) }) s2

/-- NHL_NOZZLE_FAILED and NHL_NOZZLE_RECOVERED, each at most once per port in 2^20 ticks, with the transitions counted since. -/
def transition (p r i : Nat) (failed : Bool) (s : State) : State :=
  let x := nh s p
  if failed then
    if mayRaise s x.failAt then
      logEvent Ev.NHL_NOZZLE_FAILED p p (r * 65536 + i) (x.failN + 1) (modNhl p (fun x => { x with failAt := some s.now, failN := 0 }) s)
    else modNhl p (fun x => { x with failN := x.failN + 1 }) s
  else if mayRaise s x.recAt then
    logEvent Ev.NHL_NOZZLE_RECOVERED p p (r * 65536 + i) (x.recN + 1) (modNhl p (fun x => { x with recAt := some s.now, recN := 0 }) s)
  else modNhl p (fun x => { x with recN := x.recN + 1 }) s

/-! ## Confidence counting (R269) -/

/-- The entry after one result; `src` 1 drop detection, 2 host. -/
def heResult (conf wconf : Word) (result src : Nat) (e : Word) : Word :=
  if result = 4 then e
  else
    let mc := bits e 7 3
    let wc := bits e 11 8
    let mc' := if result = 0 then mc - bits conf 14 10 else if result = 1 then min 31 (mc + bits conf 4 0)
      else min 31 (mc + bits conf 9 5)
    let wc' := if result = 0 then wc - 1 else if result = 1 then wc else min 15 (wc + bits wconf 11 8)
    let st := heState e
    let st' := if 5 ≤ st then st
      else if st = 4 ∧ bits conf 24 20 < mc' then 4
      else if st ≠ 4 ∧ bits conf 19 15 ≤ mc' then 4
      else if bits wconf 3 0 ≤ wc' ∨ (st = 3 ∧ bits wconf 7 4 < wc') then 3
      else if 0 < mc' ∨ 0 < wc' then 2
      else 1
    putBits (putBits (putBits (putBits e 7 3 mc') 11 8 wc') 2 0 st') 13 12 src

/-- One result for a nozzle of port `p`, applied `times` times (R269, R271, R273). -/
def applyResult (p r i result src times : Nat) (s : State) : State :=
  (List.range times).foldl (fun s _ =>
    let o := healthOff s p r i
    let e := rd s o
    let e' := heResult (rd s (R.NHL_Pn_CONF p)) (rd s (R.NHL_Pn_WCONF p)) result src e
    let s1 := outChanged p r i (heOut s e) (wr o e' s)
    if heState e' = 4 ∧ heState e ≠ 4 then transition p r i true s1
    else if heState e = 4 ∧ heState e' ≠ 4 then transition p r i false s1
    else s1) s

/-- A nozzle exists on port `p`: its row is present and it lies below cols (R271, R273). -/
def nozzleExists (s : State) (p r i : Nat) : Bool :=
  (match portPipe s p with
   | some d => rowPresent s d r
   | none => false) && decide (r < (hp s p).rows) && decide (i < (hp s p).cols)

/-! ## CLEAR (R283) -/

/-- The first present row of port `p`. -/
def firstRow (s : State) (p : Nat) : Nat :=
  match portPipe s p with
  | some d => ((rowsOf s d).head?).getD 0
  | none => 0

/-- Health entries go to 0, substitution entries are not valid, SCANPOS is nozzle 0 of the first present row (R283). -/
def healthClear (p : Nat) (s : State) : State :=
  let lo := R.TBL_HEALTH + 4 * 16384 * p
  let s1 := dropRegs (fun o => lo ≤ o && o < lo + 4 * 16384) s
  let s2 := forEach (those 1024 (fun j => fld s1 (subOff (1024 * p + j)) 0 0 = 1)) (fun j s => setF (subOff (1024 * p + j)) 0 0 0 s) s1
  serviceCheck p (modNhl p (fun x => { x with nozzle := 0, row := firstRow s2 p, full := false }) s2)

/-! ## Scan and spit content (R274, R284) -/

/-- Fields of NHL_Pn_SCAN and NHL_Pn_SPIT as latched for the present block or spit. -/
def scanStride (s : State) (p : Nat) : Nat := bits (nh s p).scanCfg 6 1 + 1
def scanDrops (s : State) (p : Nat) : Nat := bits (nh s p).scanCfg 10 7 + 1
def scanSet (s : State) (p : Nat) : Nat := min 2 (bits (nh s p).scanCfg 12 11)
def scanSize (s : State) (p : Nat) : Nat := max 1 (bits (nh s p).scanCfg 25 13)
def spitDensity (s : State) (p : Nat) : Nat := bits (nh s p).spitCfg 3 0 + 1
def spitDrops (s : State) (p : Nat) : Nat := bits (nh s p).spitCfg 7 4 + 1
def spitSet (s : State) (p : Nat) : Nat := min 2 (bits (nh s p).spitCfg 9 8)

/-- A block begins with the present NHL_Pn_SCAN, a spit with the present NHL_Pn_SPIT. -/
def latchScan (p : Nat) (s : State) : State := modNhl p (fun x => { x with scanCfg := rd s (R.NHL_Pn_SCAN p) }) s
def latchSpit (p : Nat) (s : State) : State := modNhl p (fun x => { x with spitCfg := rd s (R.NHL_Pn_SPIT p) }) s

/-- Nozzles of the next block: no more than the row holds from SCANPOS on. -/
def scanBlock (s : State) (p : Nat) : Nat := min (scanSize s p) ((hp s p).cols - (nh s p).nozzle)

/-- Scan lines of a block, spit lines of a row. -/
def scanLines (s : State) (p : Nat) : Nat := scanStride s p * scanDrops s p
def spitLines (s : State) (p : Nat) : Nat := spitDensity s p * spitDrops s p

/-- The codes of scan line `j` of the present block. -/
def scanCodes (s : State) (p j : Nat) : List Nat :=
  let x := nh s p
  (List.range (hp s p).cols).map (fun i =>
    if x.nozzle ≤ i ∧ i < x.nozzle + scanBlock s p ∧ (i - x.nozzle) % scanStride s p = j / scanDrops s p ∧ !nozzleOff s p x.row i then
      scanSet s p + 1 else 0)

/-- The codes of spit line `j` on row `r`. -/
def spitCodes (s : State) (p r j : Nat) : List Nat :=
  (List.range (hp s p).cols).map (fun i =>
    if i % spitDensity s p = j / spitDrops s p ∧ !nozzleOff s p r i then spitSet s p + 1 else 0)

/-- SCANPOS advances past the present block: to the next block, the next present row, or back to the first (R274). -/
def scanAdvance (p : Nat) (s : State) : State :=
  let x := nh s p
  let rows := match portPipe s p with
    | some d => rowsOf s d
    | none => []
  let n := x.nozzle + scanSize s p
  if n < (hp s p).cols then modNhl p (fun x => { x with nozzle := n }) s
  else
    let r := ((rows.find? (fun r => x.row < r)).orElse (fun _ => rows.head?)).getD 0
    modNhl p (fun x => { x with nozzle := 0, row := r }) s

/-- A block begins: its DDSCAN frame leaves (R274). -/
def sendDdscan (p : Nat) (s0 : State) : State :=
  let s := latchScan p s0
  let x := nh s p
  sendCtrl p 4 x.row (leBytes 2 x.nozzle ++ leBytes 2 (scanBlock s p) ++ leBytes 1 (scanDrops s p) ++ leBytes 1 (scanSet s p) ++ [0, 0])
    (modNhl p (fun x => { x with awaiting := scanBlock s p }) s)

/-- SCANPOS names a present row: the first one where its row is not present. -/
def scanRow (p : Nat) (s : State) : State :=
  let ok := match portPipe s p with
    | some d => rowPresent s d (nh s p).row
    | none => true
  if ok then s else modNhl p (fun x => { x with nozzle := 0, row := firstRow s p }) s

end Sys2Proof.Machine
end

