-- ==== Sys2Proof/Machine/Dot.lean ====
section
/-!
DEFINITION. The dot data path: rings, row delays, assembly with mask and substitution, what a port sends ahead, underrun and its
prediction, and the pipe commands (spec/04_dot_data.md R108 to R142; spec/06_romor_head_link.md R202, R205).
-/
namespace Sys2Proof.Machine

/-! ## Row delays (R119 to R121; spec/09_scanning.md R291 to R293) -/

/-- The row delay in force: reflected in a reverse sweep (R293). -/
def dlyOf (s : State) (d r : Nat) : Nat :=
  if scanning s && s.scn.cur.rev then dMin s d + dMax s d - dlyReg s d r else dlyReg s d r

/-- L_r and f_r. -/
def rowL (s : State) (d r : Nat) : Nat := dlyOf s d r / 256
def rowF (s : State) (d r : Nat) : Nat := dlyOf s d r % 256

/-- The source line of row `r` at trigger `k`. -/
def rowLine (s : State) (d r k : Nat) : Nat := narrow 32 ((k : Int) - rowL s d r)

/-- Data line `m` belongs to the present sweep; every line does outside scanning mode (R292). -/
def inSweep (s : State) (m : Nat) : Bool :=
  !scanning s || (decide (0 ≤ lineDiff m s.scn.cur.b) && decide (lineDiff m s.scn.cur.b < s.scn.cur.w))

/-- The last trigger of the present sweep on pipe `d` (R292). -/
def pipeKl (s : State) (d : Nat) : Nat := narrow 32 ((s.scn.cur.b : Int) + s.scn.cur.w - 1 + lMax s d)

/-- Dmin and Dmax of a generator, which all its pipes share (R291). -/
def genPipe (s : State) (g : Nat) : Nat := ((ltPipes s g).head?).getD 0
def genDmin (s : State) (g : Nat) : Nat := dMin s (genPipe s g)
def genDmax (s : State) (g : Nat) : Nat := dMax s (genPipe s g)

/-- First trigger of a sweep on generator `g` (R292). -/
def sweepKf (s : State) (g : Nat) (w : Sweep) : Nat := (w.b + genDmin s g / 256) % 2 ^ 32

/-- Row `r` of pipe `d` has a line at trigger `k` (R120, R292). -/
def hasLine (s : State) (d r k : Nat) : Bool :=
  rowPresent s d r && rowTakes s d r (rowLine s d r k) && inSweep s (rowLine s d r k)

/-- The rows whose parity takes trigger `k`: the rowmask of the LINE frame. -/
def lineRows (s : State) (d k : Nat) : BitVec 8 := BitVec.ofNat 8 (maskOf 8 (fun r => rowPresent s d r && rowTakes s d r (rowLine s d r k)))

/-! ## The ring (R109 to R114) -/

def dotCols (s : State) (d : Nat) : Nat := fld s (R.DOT_Pn_CFG d) 16 4
def dotPaged (s : State) (d : Nat) : Bool := fld s (R.DOT_Pn_CFG d) 1 1 = 1
def dotBase (s : State) (d : Nat) : Nat := rd64 s (R.DOT_Pn_BASE_LO d) (R.DOT_Pn_BASE_HI d)

/-- Bytes of a plane-line (R110). -/
def plBytes (s : State) (d : Nat) : Nat := 32 * ((dotCols s d + 127) / 128)

/-- The planes of pipe `d`, ascending. -/
def planesOf (s : State) (d : Nat) : List Nat := those 16 (fun n => (rowsOf s d).any (fun r => rowPlane s d r = n))

/-- Bytes of the ring. -/
def ringBytes (s : State) (d : Nat) : Nat := dotDepth s d * (planesOf s d).length * plBytes s d

/-- The place of a plane in the pipe's numbering. -/
def planeIndex (s : State) (d plane : Nat) : Nat := ((planesOf s d).takeWhile (fun n => n ≠ plane)).length

/-- The address of the plane-line of a plane of line `m` (R112). -/
def ringAddr (s : State) (d plane m : Nat) : Nat :=
  let i := planeIndex s d plane
  let depth := max 1 (dotDepth s d)
  dotBase s d + (if fld s (R.DOT_Pn_CFG d) 0 0 = 0 then (m % depth) * (planesOf s d).length * plBytes s d + i * plBytes s d
    else i * depth * plBytes s d + (m % depth) * plBytes s d)

/-- The bytes of row `r`'s plane-line `m`: from the SRAM, or from the prefetch store (R114). -/
def rowBytes (s : State) (d r m : Nat) : List Byte :=
  if dotPaged s d then
    match (dp s d).pre.find? (fun x => x.row = r && x.line = m) with
    | some x => x.data
    | none => []
  else sramRead s (ringAddr s d (rowPlane s d r) m) (plBytes s d)

/-- The code of column `c` in the bytes of a plane-line (R109). -/
def colCode (bs : List Byte) (c : Nat) : Nat := ((bs.getD (c / 4) 0).toNat / 4 ^ (c % 4)) % 4

/-! ## The pass mask (R123, R294) -/

/-- The image column of data line `m` (R294). -/
def imgCol (s : State) (m : Nat) : Nat :=
  let w := s.scn.cur
  narrow 32 (if w.rev then (w.ul : Int) + w.w - 1 - lineDiff m w.b else (w.ul : Int) + lineDiff m w.b)

/-- Bytes of a tile. -/
def tileBytes (s : State) (d : Nat) : Nat := 2 ^ fld s (R.DOT_Pn_MASK d) 11 8 * 2 ^ fld s (R.DOT_Pn_MASK d) 7 4 / 8

/-- The mask bit for data line `m` and column `c` (R123). -/
def maskBit (s : State) (d m c : Nat) : Bool :=
  let o := R.DOT_Pn_MASK d
  let hh := 2 ^ fld s o 11 8
  let wt := 2 ^ fld s o 7 4
  let i := (imgCol s m % hh) * wt + c % wt
  let a := R.TBL_MASK + fld s o 31 16 * 256 + s.scn.cur.mask * tileBytes s d + i / 8
  bitOf (rd s (a / 4 * 4)).toNat (8 * (a % 4) + i % 8)

/-- The codes of row `r`'s line `m` in nozzle order, after the column delay and the pass mask (R111, R122). -/
def rowCodes (s : State) (d r m : Nat) : List Nat :=
  let bs := rowBytes s d r m
  let cols := dotCols s d
  let mask := scanning s && fld s (R.DOT_Pn_MASK d) 0 0 = 1
  (List.range cols).map (fun i =>
    let c := if pipeReverse s d then cols - 1 - i else i
    if mask && !maskBit s d m c then 0 else colCode bs c)

/-! ## Gap content (spec/08_nozzle_health.md R276, R277) -/

/-- The number of triggers from `a`, below `k`, at which row `r` takes a line. -/
def takesBefore (s : State) (d r a k : Nat) : Nat :=
  let n := (lineDiff k a).toNat
  let q := primaryRow s d (rowPlane s d r)
  if rowPair s d q = 0xF || rowSecondary s d r then n
  else if rowTakes s d r (rowLine s d r a) then (n + 1) / 2 else n / 2

/-- Line `k` of port `p` lies in the declared gap: the first line past the gap. -/
def gapEnd (s : State) (p k : Nat) : Option Nat :=
  match (nh s p).gap with
  | some (first, len, from_) =>
    if 0 ≤ lineDiff k first ∧ lineDiff k first < len ∧ 0 ≤ lineDiff k from_ then some ((first + len) % 2 ^ 32) else none
  | none => none

/-- The row takes `n` lines from `k` to the end of the gap. -/
def gapHolds (s : State) (d r k stop n : Nat) : Bool := decide (n ≤ takesBefore s d r k stop)

/-- The rows that carry the content of the present gap sequence, and how many lines of it each takes. -/
def gapRows (s : State) (d p : Nat) : List Nat := if (nh s p).seq = 4 then [(nh s p).row] else rowsOf s d
def gapLines (s : State) (p : Nat) : Nat := if (nh s p).seq = 4 then scanLines s p else spitLines s p

/-- Every row has taken its lines of the gap sequence before trigger `k`. -/
def gapTaken (s : State) (d p k : Nat) : Bool :=
  (gapRows s d p).all (fun r => decide (gapLines s p ≤ takesBefore s d r (nh s p).gapFrom k))

/-- A gap block or spit whose content lines have all been assembled, with one that did not fire, is over; it is done again (R277). -/
def gapSettle (d p k : Nat) (s : State) : State :=
  let x := nh s p
  let own (l : FLine) : Bool := l.gap ≠ 0 && l.gapId = x.gapId
  let open_ := (hp s p).lines.any (fun l => own l && !l.skipped && (!l.launched || l.inWindow)) || (dp s d).asm.any own
  if (x.seq = 4 ∨ x.seq = 5) ∧ ((gapEnd s p k).isNone || gapTaken s d p k) ∧ !open_ ∧
      x.gapFired < gapLines s p * (gapRows s d p).length then
    modNhl p Nhl.gapOver s
  else s

/-- A seamless stop: a gap sequence of which a line has not fired starts over (R277). -/
def gapRedo (p : Nat) (s : State) : State :=
  let redo (x : Nhl) : Bool := (x.seq = 4 && decide (x.gapFired < scanLines s p)) || x.seq = 5
  modNhl p (fun x => if redo x then x.gapOver else x) s

/-- Before the assembly of line `k`: a pending spit, else a scan block, starts in the gap when the remaining gap lines hold it
(R277). -/
def gapStart (d p k : Nat) (s : State) : State :=
  match gapEnd s p k with
  | none => s
  | some stop =>
    let x := nh s p
    if x.seq ≠ 0 ∨ s.glb.state ≠ .print then s
    else if x.pendSpit then
      let s1 := latchSpit p s
      if (rowsOf s d).all (fun r => gapHolds s d r k stop (spitLines s1 p)) then
        modNhl p (fun x => { x with seq := 5, gapFrom := k, gapFired := 0, gapId := x.gapId + 1 }) s1
      else s
    else if (fld s (R.NHL_Pn_SCAN p) 0 0 = 1 ∨ x.pendScan) ∧ !x.suspended ∧ bitOf ((hp s p).f 0x20 4) 0 then
      let s1 := scanRow p (latchScan p s)
      if gapHolds s d (nh s1 p).row k stop (scanLines s1 p) then
        sendDdscan p (modNhl p (fun x => { x with
          seq := 4, gapFrom := k, gapFired := 0, gapId := x.gapId + 1, began := x.pendScan, pendScan := false }) s1)
      else s
    else s

/-- The line of the gap sequence that row `r` takes at trigger `k`, if any. -/
def gapLine (s : State) (d p k r : Nat) : Option Nat :=
  let x := nh s p
  if (gapEnd s p k).isNone ∨ !rowTakes s d r (rowLine s d r k) ∨ lineDiff k x.gapFrom < 0 ∨ (x.seq ≠ 4 ∧ x.seq ≠ 5) ∨
      !(gapRows s d p).contains r then none
  else some (takesBefore s d r x.gapFrom k)

/-- The gap content of row `r` at trigger `k`, if the row carries any: its codes. A row that has had its lines of a spit fires nothing
until the others have had theirs (R276). -/
def gapContent (s : State) (d p k r : Nat) : Option (List Nat) :=
  match gapLine s d p k r with
  | none => none
  | some j =>
    if j < gapLines s p then some (if (nh s p).seq = 4 then scanCodes s p j else spitCodes s p r j)
    else if (nh s p).seq = 5 ∧ !gapTaken s d p k then some (List.replicate (dotCols s d) 0)
    else none

/-- How many rows carry content of the gap sequence at trigger `k` (R277). -/
def gapCount (s : State) (d p k : Nat) : Nat :=
  (those 8 (fun r => rowPresent s d r && (gapLine s d p k r).any (fun j => decide (j < gapLines s p)))).length

/-! ## Substitution (R124, R125; spec/08_nozzle_health.md R279, R280) -/

/-- The mapped code (R278): code 0 places nothing. -/
def mapCode (m c : Nat) : Nat := if c = 0 then 0 else (m / 4 ^ (c - 1)) % 4

/-- The codes with nozzle `i` of row `r` changed. -/
def putCode (r i c : Nat) (codes : List (List Nat)) : List (List Nat) := codes.modify r (fun l => l.set i c)

/-- A merge: the larger of the target's own code and the mapped one. -/
def mergeCode (r i c : Nat) (codes : List (List Nat)) : List (List Nat) := codes.modify r (fun l => l.modify i (fun x => max x c))

/-- Substitution in progress over a line: the codes; dots applied and lost; the sidx of the first mismatch. -/
structure Subst where
  codes : List (List Nat)
  applied : Nat
  lost : Nat
  bad : Option Nat

/-- The usable entry of a nozzle that is out, if it has one; `some none`: it names one that does not match (R279). -/
def usableSub (s : State) (p r i : Nat) (e : Word) : Option (Option Nat) :=
  if !heSub e then none
  else
    let w := subEntry s (heIdx e)
    if w % 2 = 1 ∧ w / 2 % 16 = p ∧ w / 32 % 8 = r ∧ w / 256 % 4096 = i then some (some w) else some none

/-- The neighbours that entry `w` names for nozzle `i`, those that exist and are not out. -/
def subNeighbours (s : State) (p r i w : Nat) : List Nat :=
  let n := w / 2 ^ 24 % 4
  let dist := w / 2 ^ 26 % 4 + 1
  ((if n % 2 = 1 ∧ dist ≤ i then [i - dist] else []) ++ (if n / 2 = 1 ∧ i + dist < (hp s p).cols then [i + dist] else [])).filter
    (fun t => !nozzleOut s p r t)

/-- The row target of entry `w` that can take dots of row `r`: present, a secondary row of the same plane, its nozzle not out. -/
def subRow (s : State) (d p r i w : Nat) : Option Nat :=
  let alt := w / 2 ^ 20 % 8
  if bitOf w 23 ∧ rowPresent s d alt ∧ rowPlane s d alt = rowPlane s d r ∧ rowSecondary s d alt ∧ !nozzleOut s p alt i then some alt
  else none

/-- The dot of a failed nozzle of line `k`: its own code goes to 0 and to its targets (R124, R125). `base` are the codes before
substitution, `skip` the rows that carry gap content. A dot counts as applied or lost at the failed nozzle's own line, also where only a
secondary row takes it at a trigger of its own (DESIGN CHOICE, log 78). -/
def substOne (s : State) (d p k : Nat) (base : List (List Nat)) (skip : BitVec 8) (x : Nat × Nat × Word) (a : Subst) : Subst :=
  let r := x.1
  let i := x.2.1
  if !rowPresent s d r then a
  else
    let here := hasLine s d r k && !bitOf skip.toNat r
    let own := if here then (base.getD r []).getD i 0 else 0
    match usableSub s p r i x.2.2 with
    | some (some w) =>
      let nmap := w / 2 ^ 38 % 64
      let rmap := w / 2 ^ 32 % 64
      let ns := if mapCode nmap own = 0 then [] else subNeighbours s p r i w
      let row := subRow s d p r i w
      let placed := !ns.isEmpty || (row.isSome && mapCode rmap own ≠ 0)
      let c1 := ns.foldl (fun c t => mergeCode r t (mapCode nmap own) c) (if here then putCode r i 0 a.codes else a.codes)
      let c2 := match row with
        | none => c1
        | some alt =>
          let m := rowLine s d alt k
          if hasLine s d alt k ∧ !bitOf skip.toNat alt ∧ rowTakes s d r m ∧ !rowSecondary s d r then
            mergeCode alt i (mapCode rmap ((rowCodes s d alt m).getD i 0)) c1
          else c1
      { a with codes := c2, applied := a.applied + b2n (own ≠ 0 && placed), lost := a.lost + b2n (own ≠ 0 && !placed) }
    | u =>
      let bad := match u with
        | some none => if a.bad.isNone then some (heIdx x.2.2) else a.bad
        | _ => a.bad
      if fld s R.NHL_CFG 0 0 = 1 ∧ here then
        { a with codes := putCode r i 0 a.codes, lost := a.lost + b2n (own ≠ 0), bad := bad }
      else { a with bad := bad }

/-! ## Assembly (R122, R126, R127) -/

/-- The 32 waveform entries of port `p` (R158). -/
def waveEnts (s : State) (p : Nat) : List Word := (List.range 32).map (fun j => rd s (R.TBL_WAVE + 4 * (32 * p + j)))

def slotOf (s : State) (p : Nat) : Nat := fld s (R.FIR_Pn_SLOT p) 15 0
def settleOf (s : State) (p : Nat) : Nat := fld s (R.FIR_Pn_SLOT p) 23 16

/-- A line before its energy decision. -/
def newLine (s : State) (p k : Nat) (kind : LineKind) (scan : Bool) (gap rowmask : BitVec 8) (codes : List (List Nat)) : FLine :=
  { line := k, kind := kind, scan := scan, gap := gap, gapN := 0, gapId := (nh s p).gapId, rowmask := rowmask, codes := codes, cap := 511, order := [], overlap := 0,
    trims := [], warms := [], ents := waveEnts s p, slot := slotOf s p, settle := settleOf s p, bank := 0, lineSent := false,
    lineAck := false, parmSent := false, parmAck := false, fireSent := false, fireAck := false, timed := false, launch := 0, offs := [],
    launched := false, started := List.replicate 8 0, done := 0, skipped := false, tele := .waiting, eps := 0 }

/-- The codes of line `k` before substitution: the rows' own lines, zeros for a row that has none of its own (R120, R122, R292). -/
def baseCodes (s : State) (d k : Nat) : List (List Nat) :=
  (List.range 8).map (fun r =>
    if !bitOf (lineRows s d k).toNat r then []
    else if hasLine s d r k && !rowSecondary s d r then rowCodes s d r (rowLine s d r k)
    else List.replicate (dotCols s d) 0)

/-- The assembly of line `k` of pipe `d` starts: delay, mask, gap content, substitution, and the energy decision. -/
def assemble (d k : Nat) (s0 : State) : State × FLine :=
  let p := pipePort s0 d
  let s := gapStart d p k (gapSettle d p k s0)
  let content := (List.range 8).map (fun r => if rowPresent s d r then gapContent s d p k r else none)
  let gap := BitVec.ofNat 8 (maskOf 8 (fun r => (content.getD r none).isSome))
  let base := baseCodes s d k
  let mixed := (List.range 8).map (fun r => ((content.getD r none).getD (base.getD r [])))
  let a := (outList s p).foldl (fun a x => substOne s d p k base gap x a) ⟨mixed, 0, 0, none⟩
  let s1 := addF (R.DOT_Pn_SUBCNT d) 31 16 a.lost (addF (R.DOT_Pn_SUBCNT d) 15 0 a.applied s)
  let s2 := if a.lost = 0 then s1 else logEvent Ev.DOT_SUB_LOST d d k a.lost s1
  let s3 := match a.bad with
    | some x => logEvent Ev.NHL_SUB_MISMATCH p p x k s2
    | none => s2
  decideLine p { newLine s p k .print ((nh s p).seq = 4 && gap ≠ 0) gap (lineRows s d k) a.codes with gapN := gapCount s d p k } s3

/-- Every source line of line `k` has been committed; every one is in the prefetch store (R116, R128). -/
def committed (s : State) (d k : Nat) : Bool :=
  (List.range 8).all (fun r => !hasLine s d r k || decide (lineDiff (rowLine s d r k) (dp s d).wline < 0))
def prefetched (s : State) (d k : Nat) : Bool :=
  !dotPaged s d || (List.range 8).all (fun r => !hasLine s d r k || (dp s d).pre.any (fun x => x.row = r && x.line = rowLine s d r k))

/-- A pipe begins a new sweep at its first trigger, and no gap content continues into it (R277, R292). What it has prepared from that trigger
in READY stays (R127). -/
def pipeSweep (d : Nat) (w : Sweep) (s : State) : State :=
  let kf := sweepKf s (pipeLt s d) w
  if (dp s d).next = kf then s
  else
    let s1 := modDot d (fun x => { x with next := kf, a := kf, asm := none, pre := [] }) s
    spaceCheck d s (modNhl (pipePort s d) Nhl.gapOver s1)

/-- The sweep whose lines a pipe may assemble: the one that runs, unless it has been stopped, and in READY the pending one too (R127, R292,
R304). -/
def sweepOpen (s : State) (d : Nat) : Bool :=
  match s.scn.st with
  | .sweep => !s.scn.restart
  | .ready => (dp s d).st = .ready
  | .held => (dp s d).st = .ready
  | _ => false

/-- The pipe may assemble its next line now: READY, RUN, or HOLD while the transport accelerates or the sweep restarts (R127, R137,
R304, R407); in scanning mode only lines of its sweep. -/
def mayAssemble (s : State) (d : Nat) : Bool :=
  let x := dp s d
  pipeBound s d && active s (pipePort s d) && x.asm.isNone && decide (lineDiff x.a x.next < 2) &&
    (x.st = .ready || (x.st = .run && s.glb.state = .print) || (x.st = .hold && (scanning s || s.ss.phase = 6))) &&
    (!scanning s || (sweepOpen s d && decide (lineDiff x.a (pipeKl s d) ≤ 0))) && committed s d x.a && prefetched s d x.a

/-- The pipe starts to assemble its next line when it may (R127); lines no row still needs leave the prefetch store. -/
def pumpPipe (d : Nat) (s : State) : State :=
  if mayAssemble s d then
    let k := (dp s d).a
    let r := assemble d k s
    let keep (y : PreLine) : Bool := decide (lineDiff (rowLine s d y.row k) y.line < 0)
    spaceCheck d s (modDot d (fun x => { x with asm := some r.2, a := (k + 1) % 2 ^ 32, pre := x.pre.filter keep }) r.1)
  else s

/-! ## What a port sends ahead (R202, R205) -/

/-- The entries as the device sends them: pre of W is 0 and its main is clamped to the head's limit (R161, R202). -/
def sentEnts (h : Hlp) (ents : List Word) : List Word :=
  ents.mapIdx (fun j e => if j % 4 = 3 then putBits (putBits e 8 0 0) 26 18 (min (entMain e) (h.f 0x10E 2)) else e)

/-- A WAVE frame loads a bank (R201's table of sub-types, R202). -/
def loadBank (p b : Nat) (ents : List Word) (slot settle : Nat) (s : State) : State :=
  sendCtrl p 1 b ((sentEnts (hp s p) ents).flatMap (fun e => leBytes 4 e.toNat) ++ leBytes 2 slot ++ leBytes 1 settle ++ [0])
    (modHlp p (fun h => { h with banks := vset h.banks b (some (ents, slot, settle)) }) s)

/-- Both banks are loaded: at every entry of the port to ACTIVE and at ARM (R202). -/
def loadBanks (p : Nat) (s : State) : State :=
  forEach [0, 1] (fun b s => loadBank p b (waveEnts s p) (slotOf s p) (settleOf s p) s) (modHlp p (fun h => { h with bank := 0 }) s)

/-- A held line names bank `b`. -/
def bankHeld (h : Hlp) (b : Nat) : Bool := h.lines.any (fun l => (l.parmSent || l.kind = .warm) && l.bank = b && (!l.launched || l.inWindow))

/-- A bank that no held line uses: the one that PARM frames do not name, if it is free (R202). -/
def freeBank (h : Hlp) : Option Nat :=
  if !bankHeld h (1 - h.bank) then some (1 - h.bank) else if !bankHeld h h.bank then some h.bank else none

/-- The waveform, slot and settle time of a port go to the head, into a bank that no held line uses, or wait for one (R202). -/
def bankChange (p : Nat) (s : State) : State :=
  if !active s p then s
  else
    match freeBank (hp s p) with
    | some b => loadBank p b (waveEnts s p) (slotOf s p) (settleOf s p) (modHlp p (fun h => { h with bankDue := false }) s)
    | none => modHlp p (fun h => { h with bankDue := true }) s

/-- A write took the state from `s0` to `s`: a port whose waveform, slot or settle time it changed loads a bank (R159, R202). -/
def bankChanged (p : Nat) (s0 s : State) : State :=
  if waveEnts s p = waveEnts s0 p ∧ slotOf s p = slotOf s0 p ∧ settleOf s p = settleOf s0 p then s else bankChange p s

/-- A change that waits for a bank is loaded once no held line uses one (R202). -/
def bankRetry (p : Nat) (s : State) : State := if (hp s p).bankDue then bankChange p s else s

/-- The bank that holds a line's waveform, loaded into the bank no held line uses when need be (R202). -/
def bankFor (p : Nat) (l : FLine) (s : State) : Option (Nat × State) :=
  let h := hp s p
  let want := some (l.ents, l.slot, l.settle)
  if vat h.banks h.bank = want then some (h.bank, s)
  else
    let b := 1 - h.bank
    if vat h.banks b = want then some (b, modHlp p (fun h => { h with bank := b }) s)
    else
      match freeBank h with
      | some b => some (b, modHlp p (fun h => { h with bank := b }) (loadBank p b l.ents l.slot l.settle s))
      | none => none

/-- Free buffers for a line: PARM buffers, which a warm-only cycle does not take, and row buffers (R204). -/
def parmFree (h : Hlp) : Bool :=
  decide ((h.lines.filter (fun l => l.kind ≠ .warm && l.parmSent && (!l.launched || l.inWindow))).length < 4)
def rowsFree (h : Hlp) (l : FLine) : Bool :=
  (List.range 8).all (fun r => !bitOf l.rowmask.toNat r ||
    decide ((h.lines.filter (fun x => x.lineSent && bitOf x.rowmask.toNat r && !bitOf x.done.toNat r)).length < 2))

/-- A line of the port changed. -/
def modLine (p : Nat) (l : FLine) (f : FLine → FLine) (s : State) : State :=
  modHlp p (fun h => { h with lines := h.lines.map (fun x => if x.line = l.line && x.kind = l.kind then f x else x) }) s

/-- The next line to send: a service line ahead of print lines, which wait while a service sequence runs (R285; log 56). -/
def nextToSend (s : State) (p : Nat) : Option FLine :=
  let ls := (hp s p).lines
  let waits (l : FLine) : Bool := !l.lineSent && l.kind ≠ .warm && !l.skipped
  match ls.find? (fun l => waits l && l.kind = .service) with
  | some l => some l
  | none => if (nh s p).seq = 2 ∨ (nh s p).seq = 3 then none else ls.find? waits

/-- The buffers that a line waits for are held by lines that will not fire, or by print lines ahead of a service line, and no line is
committed: a CANCEL frees them (R204, R205; log 56). -/
def mayCancel (h : Hlp) (l : FLine) : Bool :=
  !h.lines.any (fun x => x.fireSent && !x.launched) &&
    h.lines.any (fun x => x.lineSent && !x.launched && (x.skipped || (l.kind = .service && x.kind = .print)))

/-- The next line not yet sent goes to the head: PARM, then LINE, when buffers are free (R192, R205). `fuel` bounds the lines. -/
def portPump : Nat → Nat → State → State
  | 0, _, s => s
  | n + 1, p, s0 =>
    let s := bankRetry p s0
    let h := hp s p
    match nextToSend s p with
    | none => s
    | some l =>
      if !active s p then s
      else if !(parmFree h && rowsFree h l) then (if mayCancel h l then portPump n p (cancelSkipped p s) else s)
      else
        match bankFor p l s with
        | none => s
        | some (b, s1) =>
          let l1 := { l with bank := b, parmSent := true, lineSent := true }
          let s2 := modLine p l (fun _ => l1) s1
          let s3 := sendFrame p 3 (l.line % 65536) l.line (parmBody (hp s2 p) l1 false) 0 s2
          portPump n p (sendFrame p 1 (l.line % 65536) l.line (lineBody (hp s3 p) l1) 0 s3)

/-- LINE_ASSEMBLY_DONE (R127): the assembly of the pipe's line ends; the line goes to its head port. -/
def execLineAssemblyDone (p : Fin 16) (s : State) : Host.Outcome State Fault Refusal :=
  finish (match (dp s p).asm with
    | none => s
    | some l =>
      let h := pipePort s p
      let s1 := modHlp h (fun x => { x with lines := x.lines ++ [l] }) (modDot p (fun x => { x with asm := none }) s)
      portPump 8 h (pumpPipe p s1))

/-- The lines of row `r` wanted in the prefetch store: the first `prefetch` lines it has from line a on that are committed. -/
def wantedLines (s : State) (d r : Nat) : List Nat :=
  let x := dp s d
  let n := fld s (R.DOT_Pn_CFG d) 23 20
  (((List.range (2 * n + 2)).map (fun j => (x.a + j) % 2 ^ 32)).filter (fun k =>
    hasLine s d r k && decide (lineDiff (rowLine s d r k) x.wline < 0))).take n |>.map (rowLine s d r)

/-- PREFETCH_DONE (R114, R507): the page-store fetch of a row's next line completes. -/
def execPrefetchDone (p : Fin 16) (row : Fin 8) (errs : List EccErr) (s : State) : Host.Outcome State Fault Refusal :=
  finish (let x := dp s p
    if !dotPaged s p ∨ x.st = .off ∨ !rowPresent s p row then s
    else
      let want := wantedLines s p row
      match want.find? (fun m => !x.pre.any (fun y => y.row = row.val && y.line = m)) with
      | none => s
      | some m =>
        let a := ringAddr s p (rowPlane s p row) m
        let kept := x.pre.filter (fun y => y.row ≠ row.val || want.contains y.line)
        let got (s : State) : State :=
          pumpPipe p (modDot p (fun x => { x with pre := kept ++ [⟨row.val, m, pageRead s a (plBytes s p)⟩] }) s)
        let s1 := eccErrors a (plBytes s p) 2 errs s
        if eccHard s a (plBytes s p) errs then s1 else got s1)

/-! ## Underrun (R128, R134) -/

/-- R134 on one pipe in RUN: lines committed and due to launch no later than `tk` still fire; the pipe enters LATE with its first
unfired line, and the head discards the rest once the last of them has launched. -/
def stopPipe (d : Nat) (tk : Option Nat) (s : State) : State :=
  let p := pipePort s d
  let keep (l : FLine) : Bool := l.kind = .print && l.fireSent && !l.launched && (match tk with
    | some t => decide (l.launch ≤ t)
    | none => true)
  let kept := (hp s p).lines.filter keep
  let next := kept.foldl (fun m l => if lineDiff m l.line ≤ 0 then (l.line + 1) % 2 ^ 32 else m) (dp s d).next
  let s1 := modDot d (fun x => { rewindPipe x with next := next, a := next }) (wr (R.DOT_Pn_LATE d) (BitVec.ofNat 32 next) s)
  let s2 := setPipe d .late s1
  if kept.isEmpty then sendCancel p s2
  else modHlp p (fun h => { h with lines := h.lines.filter (fun l => l.launched || keep l), cancelDue := true,
                                   sent := h.sent.filter (fun f => h.awaits f || kept.any (fun l => l.line = f.line)),
                                   tx := { h.tx with queue := h.tx.queue.filter (fun x =>
                                     x.ftype = 0 || x.ftype = 4 || x.ftype = 5 || kept.any (fun l => l.line = x.line)) } }) s2

/-- R134: every pipe in RUN stops. -/
def stopAllPipes (tk : Option Nat) (s : State) : State :=
  forEach (those 16 (fun d => pipeBound s d && (dp s d).st = .run)) (fun d s => stopPipe d tk s) s

/-- DOT_UNDERRUN for line `k` of pipe `d`: 1 host commit, 2 prefetch (R128, R134). A committed line whose assembly has not ended by then
carries 2, where the spec names no reason (DESIGN CHOICE, log 78). -/
def underrun (d k : Nat) (tk : Option Nat) (s : State) : State :=
  raise Ev.DOT_UNDERRUN d d k (if committed s d k then 2 else 1) (stopAllPipes tk s)

/-! ## Underrun prediction and watermarks (R130, R132) -/

/-- The counts of the window that bell time stands in (R130). -/
def winRoll (s : State) (x : Pipe) : Pipe :=
  let w := s.now / 2 ^ fld s R.DOT_PREDCFG 4 0
  if w = x.win then x
  else if w = x.win + 1 then { x with lastCin := x.cin, lastCout := x.cout, cin := 0, cout := 0, win := w }
  else { x with lastCin := 0, lastCout := 0, cin := 0, cout := 0, win := w }

/-- fill (R130). -/
def dotFill (s : State) (d : Nat) : Int := lineDiff (dp s d).wline (narrow 32 ((dp s d).a - (lMin s d : Int)))

/-- The predicted gain over the horizon (R130). -/
def dotDrift (s : State) (x : Pipe) : Int :=
  let win := fld s R.DOT_PREDCFG 4 0
  let rin := narrow 32 ((x.lastCin * 2 ^ (32 - win) : Nat) : Int)
  let rout := narrow 32 ((x.lastCout * 2 ^ (32 - win) : Nat) : Int)
  shr (((rin : Int) - rout) * 2 ^ fld s R.DOT_PREDCFG 12 8) 32

/-- The low watermark (R132). -/
def lowCheck (d : Nat) (fill : Int) (s : State) : State :=
  let o := R.DOT_Pn_LOWM d
  let x := dp s d
  let lim : Int := if x.low then fld s o 15 0 + fld s o 23 16 else fld s o 15 0
  let q := Qual.step ⟨x.low, x.lowRun⟩ (if x.low then decide (lim ≤ fill) else decide (fill < lim)) (fld s o 27 24)
  let s1 := modDot d (fun x => { x with low := q.on, lowRun := q.run }) s
  if q.on = x.low then s1
  else logEvent (if q.on then Ev.DOT_FILL_LOW else Ev.DOT_FILL_OK) d d (toWord fill).toNat (fld s o 15 0) s1

/-- One evaluation of R130 and R132 on pipe `d`. -/
def predict (d : Nat) (s0 : State) : State :=
  let s := modDot d (winRoll s0) (useInvar [R.DOT_UGUARD, R.DOT_Pn_LOWM d] s0)
  if (dp s d).st ≠ .run then s
  else
    let fill := dotFill s d
    let pred := fill + dotDrift s (dp s d)
    let s1 := lowCheck d fill (setF (R.DOT_Pn_FILL d) 31 16 (narrow 16 (satS 16 pred)) (setF (R.DOT_Pn_FILL d) 15 0 (narrow 16 (satS 16 fill)) s))
    if fld s R.DOT_PREDCFG 16 16 = 1 ∧ pred < fld s R.DOT_UGUARD 7 0 then
      (ssAsk .dataLate (logEvent Ev.DOT_UNDERRUN_PREDICTED d d (toWord fill).toNat (toWord pred).toNat s1)).1
    else s1

/-- UNDERRUN_PREDICT_TIMER (R130): 2^win ticks without a launch on the pipe. -/
def execUnderrunPredictTimer (p : Fin 16) (s : State) : Host.Outcome State Fault Refusal :=
  finish (if pipeBound s p ∧ (dp s p).st = .run then predict p s else s)

/-! ## Commit (R116, R117) -/

/-- DOT_Pn_WLINE moves to `n`, or the write is ignored; `written` is the value written. R117 names no state, so an unbound pipe's WLINE moves
too (DESIGN CHOICE, log 24). -/
def commitTo (d n written : Nat) (s : State) : State :=
  let x := dp s d
  let lim := wlimit s d
  if lineDiff n x.wline < 0 ∨ 0 < lineDiff n lim then logEvent Ev.DOT_WLINE_BAD d d written lim s
  else
    let s1 := modDot d (fun x => let y := winRoll s x; { y with wline := n, cin := y.cin + (lineDiff n x.wline).toNat }) s
    pumpPipe d s1

/-- The writes of DOT_Pn_WLINE and DOT_Pn_WADD. -/
def wlineWrite (d v : Nat) (s : State) : State := commitTo d v v s
def waddWrite (d v : Nat) (s : State) : State := commitTo d (((dp s d).wline + v % 65536) % 2 ^ 32) v s

/-- DOT_WLINE_WRITE (R117). -/
def execDotWlineWrite (p : Fin 16) (line : Word) (s : State) : Host.Outcome State Fault Refusal :=
  finish (viaBar0 (R.DOT_Pn_WLINE p) (wlineWrite p line.toNat) s)

/-- DOT_WADD_WRITE (R116). -/
def execDotWaddWrite (p : Fin 16) (add : BitVec 16) (s : State) : Host.Outcome State Fault Refusal :=
  finish (viaBar0 (R.DOT_Pn_WADD p) (waddWrite p add.toNat) s)

/-! ## Commands (R138 to R140) -/

/-- The rings of two pipes overlap. -/
def ringsMeet (s : State) (d e : Nat) : Bool :=
  dotPaged s d = dotPaged s e && decide (dotBase s d < dotBase s e + ringBytes s e) && decide (dotBase s e < dotBase s d + ringBytes s d)

/-- Bytes of the pass-mask table. -/
def maskBytes : Nat := 0x100000

/-- The first check of R140 that fails, 1 to 6; 0 when all pass. -/
def ringChecks (s : State) (d : Nat) : Nat :=
  let depth := dotDepth s d
  let base := dotBase s d
  if depth < 16 ∨ depth % 16 ≠ 0 ∨ (if dotPaged s d then 16384 else 1024) < depth then 1
  else if base % 4096 ≠ 0 then 2
  else if dotPaged s d ∧ (xmcChannels s = 0 ∨ xmcUsable s < base + ringBytes s d) then 2
  else if !dotPaged s d ∧ !sramOn s base (ringBytes s d) then 2
  else if depth < lMax s d - lMin s d + 16 then 3
  else if dotCols s d ≠ (hp s (pipePort s d)).cols then 4
  else if (List.range 16).any (fun e => e ≠ d && pipeBound s e && (dp s e).st ≠ .off && ringsMeet s d e) then 5
  else if scanning s ∧ fld s (R.DOT_Pn_MASK d) 0 0 = 1 ∧
      maskBytes < fld s (R.DOT_Pn_MASK d) 31 16 * 256 + fld s R.SCN_CFG 8 0 * tileBytes s d then 6
  else 0

/-- DOT_Pn_CMD_STATUS of an evaluated command; a refusal raises DOT_CMD_REJECT. -/
def dotResult (d cmd res detail code : Nat) (s : State) : State :=
  let s1 := wr (R.DOT_Pn_CMD_STATUS d) (BitVec.ofNat 32 (res + 16 * code + 256 * cmd + 4096 * detail)) s
  if res = 1 then s1 else logEvent Ev.DOT_CMD_REJECT d d cmd res s1

/-- A pipe in READY assembles its first two lines as soon as they are committed: from NEXT, or those of the sweep that the scanning unit
starts at the entry to PRINT (R127, R292). -/
def pumpReady (d : Nat) (s : State) : State :=
  let new := scanning s && (s.scn.st = .ready || s.scn.st = .held) && !s.scn.restart
  pumpPipe d (if (dp s d).st = .ready ∧ pipeLt s d < 16 ∧ new then pipeSweep d s.scn.cur s else s)

/-- What a pipe has assembled for another job does not fire: it starts over from NEXT (R306). Lines that the head holds keep their buffers until
a CANCEL (log 56). -/
def pipeAnew (d : Nat) (s : State) : State :=
  let gone (l : FLine) : Bool := l.kind = .print && !l.fireSent
  modDot d rewindPipe (modHlp (pipePort s d) (fun h => { h with
    lines := (h.lines.filter (fun l => !gone l || l.lineSent)).map (fun l => if gone l then { l with skipped := true } else l) }) s)

/-- Where an enabled or released pipe goes: READY in ARMED, else STOPPED; in READY it assembles what is committed. -/
def pipeUp (d : Nat) (s : State) : State :=
  if s.glb.state = .armed then pumpReady d (setPipe d .ready s) else setPipe d .stopped s

/-- ENABLE from OFF: counts since ENABLE restart; the pipe begins at NEXT. The windows of R130 start empty, which the spec leaves open (DESIGN
CHOICE, log 78). -/
def pipeEnable (d : Nat) (s : State) : State :=
  let p := pipePort s d
  let s1 := setF (R.FIR_Pn_TORNCNT p) 20 0 0 (wr (R.DOT_Pn_SUBCNT d) 0 s)
  pipeUp d (modDot d (fun x => { x with a := x.next, asm := none, low := false, lowRun := 0, pre := [], cin := 0,
                                        cout := 0, lastCin := 0, lastCout := 0 }) s1)

/-- The ring is emptied: WLINE goes to `n` and NEXT to `m` (CLEAR, SETLINE). -/
def ringEmpty (d n m : Nat) (s : State) : State :=
  spaceCheck d s (modDot d (fun x => { x with wline := n, next := m, a := m, asm := none, pre := [] }) s)

/-- The table of R138: result, detail, next state. -/
def pipeTable (d cmd : Nat) (s : State) : Nat × Nat × State :=
  let line := (rd s (R.DOT_Pn_LINE d)).toNat
  let x := dp s d
  match cmd, x.st with
  | 1, .off =>
    if !active s (pipePort s d) then (5, 0, s)
    else
      let c := ringChecks s d
      if c = 0 then (1, 0, pipeEnable d s) else (4, c, s)
  | 1, _ => (1, 0, s)
  | 2, .off => (1, 0, s)
  | 2, .stopped => (1, 0, pipeOff d s)
  | 2, .late => (1, 0, pipeOff d s)
  | 3, .stopped => (1, 0, ringEmpty d x.next x.next s)
  | 3, .late => (1, 0, ringEmpty d x.next x.next s)
  | 4, .off => (1, 0, ringEmpty d line line s)
  | 4, .stopped => (1, 0, ringEmpty d line line s)
  | 4, .late => (1, 0, ringEmpty d line line s)
  | 5, .late => if s.glb.state = .idle ∨ s.glb.state = .armed then (1, 0, pipeUp d s) else (2, 0, s)
  | 2, _ => (2, 0, s)
  | 3, _ => (2, 0, s)
  | 4, _ => (2, 0, s)
  | 5, _ => (2, 0, s)
  | _, _ => (3, 0, s)

/-- A write of DOT_Pn_CMD (R138). -/
def dotCmd (d cmd gen : Nat) (s : State) : State :=
  let code := pipeCode s d
  if !pipeBound s d then dotResult d cmd (if 1 ≤ cmd ∧ cmd ≤ 5 then 2 else 3) 0 code s
  else if gen ≠ (hp s (pipePort s d)).gen.toNat then dotResult d cmd 6 0 code s
  else if cmd = 1 ∧ s.glb.state ≠ .idle ∧ s.glb.state ≠ .armed then dotResult d cmd 2 0 code s
  else
    let r := pipeTable d cmd s
    dotResult d cmd r.1 r.2.1 code r.2.2

/-- DOT_ENABLE (R138, R140). -/
def execDotEnable (p : Fin 16) (gen : BitVec 16) (s : State) : Host.Outcome State Fault Refusal :=
  finish (viaBar0 (R.DOT_Pn_CMD p) (dotCmd p 1 gen.toNat) s)

/-- DOT_DISABLE (R138). -/
def execDotDisable (p : Fin 16) (gen : BitVec 16) (s : State) : Host.Outcome State Fault Refusal :=
  finish (viaBar0 (R.DOT_Pn_CMD p) (dotCmd p 2 gen.toNat) s)

/-- DOT_CLEAR (R138). -/
def execDotClear (p : Fin 16) (gen : BitVec 16) (s : State) : Host.Outcome State Fault Refusal :=
  finish (viaBar0 (R.DOT_Pn_CMD p) (dotCmd p 3 gen.toNat) s)

/-- DOT_SETLINE (R138). -/
def execDotSetline (p : Fin 16) (gen : BitVec 16) (s : State) : Host.Outcome State Fault Refusal :=
  finish (viaBar0 (R.DOT_Pn_CMD p) (dotCmd p 4 gen.toNat) s)

/-- DOT_RELEASE (R138). -/
def execDotRelease (p : Fin 16) (gen : BitVec 16) (s : State) : Host.Outcome State Fault Refusal :=
  finish (viaBar0 (R.DOT_Pn_CMD p) (dotCmd p 5 gen.toNat) s)

end Sys2Proof.Machine
end

