-- ==== Sys2Proof/Machine/Sweep.lean ====
section
/-!
DEFINITION. The feed table and the set-up of sweeps (spec/09_scanning.md R290 to R301), and their done signal (R309). The
turnaround and the commands stand in Scanning.lean.
-/
namespace Sys2Proof.Machine

/-- The scanning unit changed. -/
def modScn (f : Scn → Scn) (s : State) : State := { s with scn := f s.scn }

/-- The BAR0 offset of entry `e` of the feed table (R299). -/
def feedOff (e : Nat) : Nat := 0x962000 + 16 * (e % 256)

/-- Entry `e` of the feed table as a sweep from data line `b`. -/
def feedEntry (s : State) (e b : Nat) : Sweep :=
  let o := feedOff e
  { entry := e % 256, b := b, w := fld s (o + 8) 15 0, ul := (rd s (o + 4)).toNat, mask := fld s (o + 8) 23 16,
    rev := fld s (o + 8) 24 24 = 1, feed := signed 32 (rd s o).toNat, dwell := fld s (o + 12) 15 0, next := fld s (o + 8) 26 25 }

/-- The entry passes check 3 of R306. -/
def feedOk (s : State) (e : Nat) : Bool :=
  let o := feedOff e
  let w := feedEntry s e 0
  decide (w.mask < fld s R.SCN_CFG 8 0) && fld s (o + 8) 31 27 = 0 && fld s (o + 12) 31 16 = 0 && w.next ≠ 3 &&
    (!w.rev || decide (w.ul + w.w ≤ 2 ^ 32))

/-- Check 4 of R306 on an entry. -/
def fillFits (s : State) (e : Nat) : Bool :=
  let fill := if fld s R.SCN_CFG 31 16 = 0 then (feedEntry s e 0).w else fld s R.SCN_CFG 31 16
  (ssPipes s).all (fun d => decide (fill + (lMax s d - lMin s d) ≤ dotDepth s d))

/-- The entry after a sweep; none at the end of the job. -/
def nextEntry (s : State) (w : Sweep) : Option Nat :=
  if w.next = 0 then some ((w.entry + 1) % 256) else if w.next = 1 then some (fld s R.SCN_JOB 15 8) else none

/-- Last trigger of a sweep on generator `g` (R292). -/
def sweepKl (s : State) (g : Nat) (w : Sweep) : Nat := narrow 32 ((w.b : Int) + w.w - 1 + genDmax s g / 256)

/-- The distance flown, 32.16 counts (R296). -/
def sweepFly (s : State) (g : Nat) : Int := ((rd s R.SCN_SPEED).toNat * fld s (R.SCN_LTn_TFLY g) 15 0 * 4096 / 400000000 : Nat)

/-- The origin of a sweep on generator `g`, 32.16 (R296). -/
def sweepOrg (s : State) (g : Nat) (w : Sweep) : Nat :=
  let pitch : Int := (rd s (R.FIR_LTn_PITCH g)).toNat
  let xorg := (rd s (R.SCN_LTn_XORG_INT g)).toNat * 65536 + fld s (R.SCN_LTn_XORG_FRAC g) 15 0
  let dsum : Int := (genDmin s g : Int) + genDmax s g - (genDmin s g / 256 * 512 : Nat)
  if w.rev then
    addPos xorg (((w.ul : Int) + w.w - 1) * pitch + shr (dsum * pitch) 8 + signed 32 (rd s (R.SCN_LTn_ALIGNR g)).toNat + sweepFly s g)
  else addPos xorg ((w.ul : Int) * pitch + signed 32 (rd s (R.SCN_LTn_ALIGNF g)).toNat - sweepFly s g)

/-- A 32.16 position as integer counts, rounded down or up. -/
def floorCount (p : Nat) : Nat := p / 65536
def ceilCount (p : Nat) : Nat := (p + 65535) / 65536 % 2 ^ 32

/-- Start of a sweep at a 32.16 position on generator `g`, and its stop: integer counts, away from the print zone (R296). -/
def startFrom (s : State) (rev : Bool) (p : Nat) : Nat :=
  let r : Int := (rd s R.SCN_RUNUP).toNat
  if rev then narrow 32 ((ceilCount p : Int) + r) else narrow 32 ((floorCount p : Int) - r)
def stopFrom (s : State) (g : Nat) (w : Sweep) : Nat :=
  let len := (sweepKl s g w - sweepKf s g w : Int) * (rd s (R.FIR_LTn_PITCH g)).toNat
  let r : Int := (rd s R.SCN_RUNOUT).toNat
  if w.rev then narrow 32 ((floorCount (addPos (sweepOrg s g w) (-len)) : Int) - r)
  else narrow 32 ((ceilCount (addPos (sweepOrg s g w) len) : Int) + r)

/-- The farther of positions in a direction. -/
def farther (neg : Bool) (l : List Nat) : Nat :=
  match l with
  | [] => 0
  | x :: r => r.foldl (fun m y => if (if neg then diff32 y m < 0 else 0 < diff32 y m) then y else m) x

/-- Start and stop of a sweep over all scanning generators: the farthest of each (R296). -/
def sweepStart (s : State) (w : Sweep) : Nat := farther (!w.rev) ((scnGens s).map (fun g => startFrom s w.rev (sweepOrg s g w)))
def sweepStop (s : State) (w : Sweep) : Nat := farther w.rev ((scnGens s).map (fun g => stopFrom s g w))

/-! ## The carriage and the media feed (R298, R300; log 32) -/

/-- Axis units per carriage_pc count, 16.16: STP_SAn_ENC for a stepper axis on that encoder, else 1. -/
def caRatio (s : State) : Nat := if caKind s = 2 && axEncPc s (caIndex s) = caPc s then (rd s (R.STP_SAn_ENC (caIndex s))).toNat else 65536

/-- The carriage's target in its own units for an integer position of carriage_pc. -/
def caTarget (s : State) (x : Nat) : Nat :=
  narrow 32 ((unitPosition s (caKind s) (caIndex s) : Int) + shr (diff48 (x * 65536) (pch s (caPc s)).pos * caRatio s) 32)

/-- A move of the carriage at print speed to a position of carriage_pc. -/
def caMove (x : Nat) (s0 : State) : State :=
  let s := useSoft (caKind s0) (caIndex s0) s0
  let r := unitMove (caKind s) (caIndex s) (caTarget s x) s
  if r.1 then unitVmax (caKind s) (caIndex s) ((rd s R.SCN_SPEED).toNat * caRatio s / 65536) r.2 else r.2

/-- Where the move of the sweep ends: its own stop, or the start of the next sweep when that runs the other way and lies farther. -/
def sweepEnd (s : State) : Nat :=
  let w := s.scn.cur
  match s.scn.nxt with
  | some n => if n.rev ≠ w.rev ∧ n.w ≠ 0 then farther w.rev [sweepStop s w, sweepStart s n] else sweepStop s w
  | none => sweepStop s w

/-- The first commit of a sweep sets up the next entry and the end of the move; a feed-only entry has no sweep and no move (R298, R299,
R301). -/
def sweepSetup (s : State) : State :=
  if s.scn.begun then s
  else
    let w := s.scn.cur
    let s1 := modScn (fun x => { x with begun := true }) s
    match if s.scn.last then none else nextEntry s w with
    | none => s1
    | some e =>
      if feedOk s e && fillFits s e then
        let s2 := modScn (fun x => { x with nxt := some (feedEntry s e ((w.b + w.w) % 2 ^ 32)) }) s1
        if w.w = 0 then s2 else caMove (sweepEnd s2) s2
      else
        logEvent Ev.DOT_CMD_REJECT 0xFF 0xFF 0xF 4 (modScn (fun x => { x with last := true, err := true }) s1)

/-- The last trigger of the sweep has launched on every generator, in PRINT or STOPPING: the done signal (R309). -/
def sweepLaunched (s : State) : State :=
  let o := R.SCN_SIG
  let left := (scnGens s).any (fun g => decide (lineDiff (lt s g).k (sweepKl s g s.scn.cur) ≤ 0) ||
    (ltPipes s g).any (fun d => (hp s (pipePort s d)).lines.any (fun l => l.kind = .print && l.fireSent && !l.launched)))
  if s.scn.begun ∧ !left ∧ fld s o 7 7 = 1 then raiseSig (fld s o 5 0) 1 s else s

/-- A seamless stop in scanning mode: pipes and generators enter HOLD at the line boundary; kstop goes to SCN_RESUME (R304). -/
def sweepBreak (s : State) : State :=
  let k := match (scnGens s).head? with
    | some g => (lt s g).k
    | none => 0
  let s1 := wr R.SCN_RESUME (BitVec.ofNat 32 k) (modScn (fun x => { x with stop := false, restart := true }) s)
  let s2 := forEach (ssPipes s1) (fun d s => if (dp s d).st = .run then setPipe d .hold (modDot d (fun x => { x with asm := none, a := (x.asm.map FLine.line).getD x.a }) s) else s) s1
  forEach (scnGens s2) (fun g s => if (lt s g).st = .run then setGen g .hold (modGen g (fun x => { x with delayed := [] }) s) else s) s2

end Sys2Proof.Machine
end

