-- ==== Sys2Proof/Machine/Firing.lean ====
section
/-!
DEFINITION. Line-trigger generators, commits and launches, windows, warm-only cycles, pulse checks, gates, and the generator commands
(spec/05_firing.md R143 to R178).
-/
namespace Sys2Proof.Machine

/-! ## Modes and targets (R145, R146) -/

/-- The mode that FIR_LTn_CTL reports: 0 predictive, 1 reactive, 2 fixed clock, 3 BELL (R153). -/
def genMode (s : State) (g : Nat) : Nat := if bellMode s then 3 else if ltSource s g = 0x10 then 2 else ltMode s g

/-- minsp of a generator (R146). -/
def minsp (s : State) (g : Nat) : Nat :=
  ((ltPipes s g).map (fun d => (if pipePairs s d then 8 else 16) * slotOf s (pipePort s d))).foldl max 0

/-- The mark of the generator has reached P(k), in its direction (R145, R295). -/
def reached (s : State) (g k : Nat) : Bool :=
  let x := lt s g
  let d := diff48 x.hw (genTarget s g k)
  if x.rev then decide (d ≤ 0) else decide (0 ≤ d)

/-- Speed and VALID of the generator's channel, the speed negated in a reverse sweep (R147, R295). -/
def genSpeed (s : State) (g : Nat) : Int := let v := (pch s (ltSource s g)).v; if (lt s g).rev then -v else v
def genValid (s : State) (g : Nat) : Bool := (pch s (ltSource s g)).valid

/-- The speed qualifies for prediction (R147, R148). -/
def speedOk (s : State) (g : Nat) : Bool := genValid s g && decide (((rd s (R.FIR_LTn_VMIN g)).toNat : Int) ≤ genSpeed s g)

/-- The latest VALID speed is kept for the offsets (R155). -/
def genSee (g : Nat) (s : State) : State :=
  if genValid s g then modGen g (fun x => { x with vSeen := true, v := genSpeed s g }) s else s

/-- The generator may commit its next line: PRINT, and RUN, or HOLD at the end of a seamless stop or in a restarted sweep; in
scanning mode within the sweep (R175, R292, R304, R407). -/
def mayCommit (s : State) (g : Nat) : Bool :=
  let x := lt s g
  s.glb.state = .print && ltBound s g && (x.st = .run || (x.st = .hold && (s.ss.phase = 6 || scanning s))) &&
    (!scanning s || (s.scn.st = .sweep && !s.scn.restart && decide (lineDiff x.k (sweepKl s g s.scn.cur) ≤ 0)))

/-! ## Offsets (R155) -/

/-- The period that fixes the offsets in fixed-clock and BELL mode. -/
def genPeriod (s : State) : Nat := if bellMode s then bellPeriod s else lineClockPeriod s

/-- The offset of one row before saturation. -/
def rowOffset (s : State) (g d r : Nat) (free : Nat) : Int :=
  let f := rowF s d r
  if 2 ≤ genMode s g then ((f * genPeriod s + 128) / 256 : Nat)
  else
    let x := lt s g
    if !x.vSeen then 0
    else if x.v = 0 then free
    else Int.fdiv ((f * (rd s (R.FIR_LTn_PITCH g)).toNat * 390625 : Nat) + 512 * x.v) (1024 * x.v)

/-- The offsets of a line's rows; a saturated one counts and raises FIR_OFFSET_CLAMPED once per run. -/
def lineOffsets (g d : Nat) (l : FLine) (s : State) : State × List Nat :=
  let (f, s0) := if 2 ≤ genMode s g ∨ !(lt s g).vSeen ∨ (lt s g).v ≠ 0 then (0, s) else drawFree s
  let raw := (List.range 8).map (fun r => if bitOf l.rowmask.toNat r then rowOffset s0 g d r (f.toNat % 65536) else 0)
  let s1 := forEach (those 8 (fun r => decide (65535 < raw.getD r 0))) (fun r s =>
    let s1 := incF (R.FIR_LTn_CNT g) 31 24 s
    if (lt s1 g).clamped then s1
    else logEvent Ev.FIR_OFFSET_CLAMPED g g r l.line (modGen g (fun x => { x with clamped := true }) s1)) s0
  (s1, raw.map (fun x => (satU 16 x).toNat))

/-! ## Commit (R143, R147, R150, R205, R222) -/

/-- FIRE frames pending on a port (R205). -/
def firesPending (h : Hlp) : Nat := (h.lines.filter (fun l => l.fireSent && !l.launched)).length

/-- The pipes whose line a commit of the generator sends: RUN, or HOLD at a resume. -/
def firePipes (s : State) (g : Nat) : List Nat := (ltPipes s g).filter (fun d => (dp s d).st = .run || (dp s d).st = .hold)

/-- Every port of the generator can take a FIRE frame; a timed one needs synchronised time (R205, R216). -/
def firesFit (s : State) (g : Nat) (timed : Bool) : Bool :=
  (firePipes s g).all (fun d => let h := hp s (pipePort s d); decide (firesPending h < 4) && (!timed || h.synced))

/-- A line that is lost on its port: in PRINT as R134 treats an underrun (R222). -/
def lostLine (k : EvKind) (p line a2 : Nat) (tk : Option Nat) (s : State) : State :=
  raise k p p line a2 (if s.glb.state = .print then stopAllPipes tk s else s)

/-- The FIRE frame of line `k` leaves on the port of pipe `d`, unless the pipe has fired it before a restart (R304). Without the line, R128
applies; without its acknowledgements, R222. -/
def fireLine (g d k launch : Nat) (timed : Bool) (s : State) : State :=
  let p := pipePort s d
  if (dp s d).st ≠ .run ∨ 0 < lineDiff (dp s d).next k then s
  else
    match (hp s p).lines.find? (fun l => l.kind = .print && l.line = k && !l.fireSent && !l.skipped) with
    | none => underrun d k (some launch) s
    | some l =>
      if !(l.lineSent && l.lineAck && l.parmSent && l.parmAck) then lostLine Ev.HLP_LINE_UNDELIVERED p k (if l.parmAck then 1 else 3) (some launch) s
      else
        let r := lineOffsets g d l s
        let l1 := { l with timed := timed, launch := launch, offs := r.2, fireSent := true }
        sendFrame p 2 (k % 65536) k (fireBody l1) 0 (modLine p l (fun _ => l1) r.1)

/-- A generator that resumes takes its pipes to RUN; the seamless stop ends with the last of them (R137, R304, R407). -/
def resumeGen (g : Nat) (s : State) : State :=
  if (lt s g).st = .hold then
    let s1 := setGen g .run s
    let s2 := forEach (ltPipes s1 g) (fun d s => if (dp s d).st = .hold then setPipe d .run s else s) s1
    if s2.ss.phase = 6 ∧ (ssGens s2).all (fun x => (lt s2 x).st ≠ .hold) then ssFinish s2 else s2
  else s

/-- Line k of the generator is committed at a launch instant. -/
def commitGen (g launch : Nat) (timed : Bool) (s0 : State) : State :=
  let s := resumeGen g s0
  let k := (lt s g).k
  let s1 := modGen g (fun x => { x with k := (k + 1) % 2 ^ 32, last := some launch, since := true, delayed := x.delayed.drop 1 }) s
  let s2 := wr (R.FIR_LTn_LASTLINE g) (BitVec.ofNat 32 k) (wr (R.FIR_LTn_LAST_HI g) (BitVec.ofNat 32 (launch / 2 ^ 32))
    (wr (R.FIR_LTn_LAST_LO g) (BitVec.ofNat 32 launch) s1))
  let s3 := forEach (ltPipes s2 g) (fun d s => fireLine g d k launch timed s) s2
  if scanning s3 then sweepSetup s3 else s3

/-- A late line: CNT.late, and FIR_LAUNCH_LATE at most once in 2^19 ticks with the largest lateness since (R149). -/
def countLate (g line lateness : Nat) (s : State) : State :=
  let s1 := incF (R.FIR_LTn_CNT g) 11 0 s
  let x := lt s1 g
  let y := if x.lateMax < lateness then { x with lateMax := lateness, lateLine := line } else x
  let quiet := match x.lateAt with
    | some t => decide (s1.now < t + 2 ^ 19)
    | none => false
  if quiet then modGen g (fun _ => y) s1
  else logEvent Ev.FIR_LAUNCH_LATE g g y.lateLine y.lateMax (modGen g (fun _ => { y with lateAt := some s1.now, lateMax := 0 }) s1)

/-- The earliest launch that R146 allows for the generator's next line. -/
def spacedFrom (s : State) (g : Nat) : Nat :=
  match (lt s g).last with
  | some t => t + minsp s g
  | none => 0

/-- The first line of pipe `d` that may still fire: the earliest committed one that has not launched, else the next one of its generator
(R136). -/
def nextOf (s : State) (d : Nat) : Nat :=
  (((hp s (pipePort s d)).lines.filter (fun l => l.kind = .print && l.fireSent && !l.launched)).map FLine.line).foldl
    (fun m k => if lineDiff k m < 0 then k else m) (lt s (pipeLt s d)).k

/-- Pipe `d` retires the lines before line `n` that are not committed, without firing them (R135); NEXT never moves back. A line that the
head holds keeps its buffers until a CANCEL (log 56). -/
def retireBefore (d n : Nat) (s : State) : State :=
  let gone (l : FLine) : Bool := l.kind = .print && !l.fireSent && decide (lineDiff l.line n < 0)
  let s1 := modHlp (pipePort s d) (fun h => { h with
    lines := (h.lines.filter (fun l => !gone l || l.lineSent)).map (fun l => if gone l then { l with skipped := true } else l) }) s
  let s2 := modDot d (fun x => { x with next := if lineDiff x.next (nextOf s1 d) < 0 then nextOf s1 d else x.next, a := if lineDiff x.a n < 0 then n else x.a,
                                        asm := if x.asm.any (fun l => decide (lineDiff l.line n < 0)) then none else x.asm }) s1
  spaceCheck d s s2

/-- Line k of the generator is skipped: each of its pipes that has not fired it before a restart retires it (R135, R304); a skip under R147
(`fast`) raises FIR_OVERSPEED (R149). -/
def skipLine (fast : Bool) (g : Nat) (s : State) : State :=
  let k := (lt s g).k
  let n := (k + 1) % 2 ^ 32
  let s0 := modGen g (fun x => { x with k := n, delayed := x.delayed.drop 1 }) s
  let s1 := if fast then logEvent Ev.FIR_OVERSPEED g g k (toWord (pch s (ltSource s g)).v).toNat s0 else s0
  forEach ((firePipes s1 g).filter (fun d => decide (lineDiff (dp s1 d).next k ≤ 0)))
    (fun d s => pumpPipe d (retireBefore d n (logEvent Ev.DOT_LINES_SKIPPED d d k 1 s))) s1

/-! ## The reactive rule (R148, R150) -/

/-- The delay from the commit of an untimed FIRE frame to its launch, as the device reckons it: 16 ticks to the head, 56 in it
(R171, R197). DEDUCED, log 33. -/
def reactiveDelay : Nat := 72

/-- The instants at which the mark reached P(k), P(k + 1) and so on are noted while the commit of line k is delayed (R150). `fuel` bounds
the lines. -/
def noteDelayed : Nat → Nat → State → State
  | 0, _, s => s
  | n + 1, g, s =>
    let x := lt s g
    if reached s g ((x.k + x.delayed.length) % 2 ^ 32) then
      noteDelayed n g (modGen g (fun x => { x with delayed := x.delayed ++ [s.now] }) s)
    else s

/-- The reactive rule for the generator's next line; `fuel` bounds the lines skipped. -/
def reactiveRule : Nat → Nat → State → State
  | 0, _, s => s
  | n + 1, g, s =>
    let x := lt s g
    if !mayCommit s g ∨ !reached s g x.k then s
    else if scanning s && s.scn.stop then sweepBreak s
    else
      if s.now < spacedFrom s g ∨ !firesFit s g false then noteDelayed 64 g s
      else if reached s g ((x.k + 1) % 2 ^ 32) then reactiveRule n g (skipLine false g s)
      else
        let s1 := match x.delayed with
          | t :: _ => countLate g x.k (s.now - t) s
          | [] => s
        let s2 := if x.fallback then incF (R.FIR_LTn_CNT g) 23 12 s1 else s1
        commitGen g (s2.now + reactiveDelay) false (genSee g s2)

/-- The mark of the generators of channel `n` may have moved: those under the reactive rule evaluate it (R148, R150). -/
def reactiveGens (n : Nat) (s : State) : State :=
  forEach (pcGens s n) (fun g s => if genMode s g = 1 ∨ (genMode s g = 0 ∧ (lt s g).fallback) then reactiveRule 64 g s else s) s

/-- REACTIVE_DELAYED_COMMIT (R150): the delayed commit of a generator is due. -/
def execReactiveDelayedCommit (g : Fin 16) (s : State) : Host.Outcome State Fault Refusal :=
  finish (if (lt s g).delayed.isEmpty then s else reactiveRule 64 g s)

/-! ## Prediction (R147, R148) -/

/-- t_k of the sample (R147); where v is 0 the quotient is not stated and is a free value. -/
def predictAt (s : State) (g k : Nat) : Int × State :=
  let c := pch s (ltSource s g)
  let dp0 := diff48 (genTarget s g k) c.pos
  let d := if (lt s g).rev then -dp0 else dp0
  let v := genSpeed s g
  if v = 0 then let (f, s1) := drawFree s; ((c.t : Int) + signed 32 f.toNat, s1)
  else ((c.t : Int) + Int.fdiv (d * 390625 + 2 * v) (4 * v), s)

/-- One sample of a predictive generator (R147). -/
def predictSample (g : Nat) (s0 : State) : State :=
  let s := genSee g s0
  if !mayCommit s g then s
  else if scanning s && s.scn.stop then sweepBreak s
  else if !speedOk s g then
    if fld s (R.FIR_LTn_CTL g) 2 2 = 1 then reactiveRule 64 g (setFallback g true s) else s
  else
    let s1 := setFallback g false (modGen g (fun x => { x with delayed := [] }) s)
    let k := (lt s1 g).k
    let (tk, s2) := predictAt s1 g k
    let lead : Int := fld s2 (R.FIR_LTn_LEAD g) 11 0
    if tk < s2.now + lead + 64 then
      if reached s2 g ((k + 1) % 2 ^ 32) then skipLine true g s2
      else
        let launch := max tk (max (spacedFrom s2 g : Int) (s2.now + lead))
        if s2.now + 8192 < launch ∨ !firesFit s2 g true then s2
        else
          let s3 := commitGen g launch.toNat true s2
          if tk < launch then countLate g k (launch - tk).toNat s3 else s3
    else s2

/-- PREDICT_SAMPLE (R147): 64 ticks have passed; the generator reads a sample. -/
def execPredictSample (g : Fin 16) (s : State) : Host.Outcome State Fault Refusal :=
  finish (if ltBound s g ∧ genMode s g = 0 then predictSample g s else s)

/-! ## Fixed clock (R151, R152) -/

/-- The generator's next line, due at `t`, is committed at `launch`, and counts as late where that lies after `t` (R149). -/
def commitAt (g t launch : Nat) (s : State) : State :=
  let k := (lt s g).k
  let s1 := commitGen g launch true s
  if t < launch then countLate g k (launch - t) s1 else s1

/-- FIXED_CLOCK_COMMIT (R146, R151): the generator commits its line `lead` ticks before the next fixed-clock instant; the FIRE frame
waits for a launch at most 8,192 ticks ahead (R198). -/
def execFixedClockCommit (g : Fin 16) (s : State) : Host.Outcome State Fault Refusal :=
  finish (if ltBound s g ∧ genMode s g = 2 ∧ mayCommit s g ∧ firesFit s g true then
      let x := lt s g
      let t := x.t0 + (lineDiff x.k x.k0).toNat * lineClockPeriod s
      let launch := max (max t (spacedFrom s g)) (s.now + fld s (R.FIR_LTn_LEAD g) 11 0)
      if s.now + 8192 < launch then s else commitAt g t launch s
    else s)

/-- The channel that supervises the generator, if any (R152, R153). -/
def supervisor (s : State) (g : Nat) : Option Nat :=
  if genMode s g = 3 ∧ ltSource s g < 8 then some (ltSource s g)
  else if 2 ≤ genMode s g ∧ ltSup s g < 8 then some (ltSup s g)
  else none

/-- The supervision of a launch (R152). -/
def superviseCheck (g : Nat) (s0 : State) : State :=
  match supervisor s0 g with
  | none => s0
  | some n =>
    let s := useInvar [R.FIR_LTn_SUPTOL g] s0
    let c := pch s n
    if !c.valid then s
    else
      let period := genPeriod s
      let nom : Int := (rd s (R.FIR_LTn_PITCH g)).toNat * 400000000
      let dev := iabs (c.v * 4096 * period - nom)
      if (fld s (R.FIR_LTn_SUPTOL g) 9 0 : Int) * nom < dev * 1024 then
        let run := (lt s g).supRun + 1
        if max 1 (fld s (R.FIR_LTn_SUPTOL g) 15 12) ≤ run then
          raise Ev.FIR_SUPERVISE_DEV g g (toWord c.v).toNat (toWord (nom / 4096 / max 1 (period : Int))).toNat
            (modGen g (fun x => { x with supRun := 0 }) s)
        else modGen g (fun x => { x with supRun := run }) s
      else modGen g (fun x => { x with supRun := 0 }) s

/-! ## Launch (R127, R130, R144, R156, R247) -/

/-- Dots that primitive `q` fires in a line. -/
def FLine.drops (l : FLine) (h : Hlp) (q : Nat) : Nat := (those 16 (fun g => l.codeAt h q g ≠ 0)).length

/-- Usage of a launched line: drops per primitive and lines fired (R227); a warm-only cycle is none. -/
def countUse (p : Nat) (l : FLine) (s : State) : State :=
  if l.kind = .warm then s
  else modHlp p (fun h => { h with drops := (List.range h.nprim).map (fun q => h.drops.getD q 0 + l.drops h q), uLines := h.uLines + 1 }) s

/-- The throttle cap of a port moves by 8 steps every 64 lines (R247). -/
def throttleLine (p : Nat) (s0 : State) : State :=
  let s := useInvar [R.THM_Pn_CAPS p] s0
  let t := th s p
  if t.capLines + 1 < 64 then modThm p (fun t => { t with capLines := t.capLines + 1 }) s
  else
    let cap := if t.thr.on then max (fld s (R.THM_Pn_CAPS p) 24 16) (t.cap - 8) else min 511 (t.cap + 8)
    modThm p (fun t => { t with capLines := 0, cap := cap }) s

/-- A held line launches: its energy enters the model (R234). -/
def launchHeld (p : Nat) (l : FLine) (s : State) : State :=
  let h := hp s p
  let eps := fld s (R.THM_Pn_EPS p) 15 0
  countUse p l (modelUpdate p (fun q => l.energy h eps q) (modLine p l (fun x => { x with launched := true, eps := eps }) s))

/-- A CANCEL that waits for the last committed line goes out (R134, R223). -/
def cancelWhenDue (p : Nat) (s : State) : State :=
  let h := hp s p
  if h.cancelDue ∧ !h.lines.any (fun l => l.fireSent && !l.launched) then sendCancel p s else s

/-- The launch instant of the committed line `k` of a generator. -/
def committedAt (s : State) (g k : Nat) : Option Nat :=
  (((ltPipes s g).flatMap (fun d => (hp s (pipePort s d)).lines)).find? (fun l => l.kind = .print && l.line = k && l.fireSent && !l.launched)).map
    FLine.launch

/-- The launch instant of line `k` of a generator: as committed, or as its mode computes it now (R134, R147, R151, R153); none where the mode
gives none yet. -/
def lineInstant (s : State) (g k : Nat) : Option Nat :=
  match committedAt s g k with
  | some t => some t
  | none =>
    match genMode s g with
    | 2 => some ((lt s g).t0 + (lineDiff k (lt s g).k0).toNat * lineClockPeriod s)
    | 3 => let per := max 1 (bellPeriod s); some ((s.now / per + 1) * per + 400)
    | 0 => if speedOk s g && genSpeed s g ≠ 0 then some (predictAt s g k).1.toNat else none
    | _ => none

/-- At the launch of line k − 1: line `k` is late when its assembly has not started (R128, R129). -/
def lateCheck (d k : Nat) (s : State) : State :=
  if (dp s d).st = .run ∧ lineDiff (dp s d).a k ≤ 0 ∧ s.glb.state = .print ∧ (!scanning s || lineDiff k (pipeKl s d) ≤ 0) then
    underrun d k (lineInstant s (pipeLt s d) k) s
  else s

/-- The launch of line `k` on pipe `d` and its port: the line, the pipe's next line, prediction, lateness of line k + 1, and the
assembly of line k + 2. -/
def launchPipe (d k : Nat) (s : State) : State :=
  let p := pipePort s d
  match (hp s p).lines.find? (fun l => l.kind = .print && l.line = k && l.fireSent && !l.launched) with
  | none => s
  | some l =>
    let n := (k + 1) % 2 ^ 32
    let s1 := throttleLine p (launchHeld p l s)
    let next := if (dp s1 d).st = .run ∨ (dp s1 d).st = .hold then nextOf s1 d else (dp s1 d).next
    let s2 := modDot d (fun x => let y := winRoll s1 x; { y with cout := y.cout + 1, next := next }) s1
    cancelWhenDue p (pumpPipe d (lateCheck d n (predict d s2)))

/-- The next line of the generator to launch: the earliest committed one over its ports. -/
def nextLaunch (s : State) (g : Nat) : Option Nat :=
  ((ltPipes s g).flatMap (fun d => ((hp s (pipePort s d)).lines.filter (fun l => l.kind = .print && l.fireSent && !l.launched)).map FLine.line)).foldl
    (fun m k => match m with
      | some x => if lineDiff k x < 0 then some k else m
      | none => some k) none

/-- The generator launches line `k`: its instant, for the spacing of the next run, and the lines that may not launch again (R145, R146). -/
def genLaunched (g k : Nat) (s : State) : State :=
  let n := (k + 1) % 2 ^ 32
  let higher (t : Option Nat) : Nat := match t with
    | some t => if lineDiff t n < 0 then n else t
    | none => n
  modGen g (fun x => { x with launchAt := committedAt s g k, top := some (higher x.top) }) s

/-- The launch monitor of LT(3n), LT(3n + 1) or LT(3n + 2) on EEn_A, EEn_B or EEn_Z: the pin goes high for 64 ticks (R564, R565). -/
def launchMonitor (g : Nat) (s : State) : State :=
  if (pinEntry s (0x200 + g)).1 = 1 then
    let name := ["EEn_A", "EEn_B", "EEn_Z"].getD (g % 3) "EEn_Z"
    emit (.pin name (g / 3) 0) (emit (.pin name (g / 3) 1) s)
  else s

/-- LINE_LAUNCH (R156): the next committed line of a generator, or the warm-only cycle or service line of a port, reaches its launch
instant. -/
def execLineLaunch (what : LaunchOf) (s : State) : Host.Outcome State Fault Refusal :=
  finish (match what with
    | .line g =>
      (match nextLaunch s g with
       | none => s
       | some k =>
         let s1 := forEach (ltPipes s g) (fun d s => launchPipe d k s) (launchMonitor g (genLaunched g k s))
         let s2 := superviseCheck g s1
         if scanning s2 then sweepLaunched s2 else s2)
    | .warm p =>
      (match (hp s p).lines.find? (fun l => l.kind ≠ .print && l.fireSent && !l.launched) with
       | none => s
       | some l => cancelWhenDue p (launchHeld p l s)))

/-- FIRE_SLOT_START (R156): the next slot of a row's window starts on port `p`. -/
def execFireSlotStart (p : Fin 16) (row : Fin 8) (s : State) : Host.Outcome State Fault Refusal :=
  finish (match (hp s p).lines.find? (fun l => l.launched && bitOf l.rowmask.toNat row && !bitOf l.done.toNat row && decide (l.started.getD row 0 < 16)) with
    | none => s
    | some l => modLine p l (fun x => if x.launched then { x with started := x.started.modify row (fun n => n + 1) } else x) s)

/-- The rows of port `p` present, as a mask. -/
def portRowMask (s : State) (p : Nat) : Nat :=
  match portPipe s p with
  | some d => maskOf 8 (rowPresent s d)
  | none => 0

/-- A line whose window has ended on every row: the gap sequence it belongs to and its service sequence count it (R277, R285). A gap spit is
complete when every line of it has fired on every row. -/
def lineFired (p : Nat) (l : FLine) (s : State) : State :=
  let need := spitLines s p * (those 8 (fun r => bitOf (portRowMask s p) r)).length
  modNhl p (fun x =>
    let y := { x with gapFired := if l.gapId = x.gapId ∧ (x.seq = 4 ∨ x.seq = 5) then x.gapFired + l.gapN else x.gapFired,
                      fired := if l.kind = .service then x.fired + 1 else x.fired }
    if y.seq = 5 ∧ need ≤ y.gapFired then { y with seq := 0, pendSpit := false, spitFrom := none, req3 := false } else y) s

/-- LINE_WINDOW_END (R204): the last slot of a row's window ends on port `p`: the row's buffer frees, and the slot of the ring
retires when every row is done. -/
def execLineWindowEnd (p : Fin 16) (row : Fin 8) (s : State) : Host.Outcome State Fault Refusal :=
  finish (match (hp s p).lines.find? (fun l => l.launched && bitOf l.rowmask.toNat row && !bitOf l.done.toNat row) with
    | none => s
    | some l =>
      let l1 := { l with done := l.done ||| BitVec.ofNat 8 (2 ^ row.val) }
      let s1 := modLine p l (fun x => if x.launched then l1 else x) s
      let s2 := if l1.inWindow then s1 else svcSettle p (lineFired p l s1)
      portPump 8 p (retireLines p s2))

/-! ## Warm-only cycles (R162, R200) -/

/-- The same as a register field. -/
def portRows (s : State) (p : Nat) : BitVec 8 := BitVec.ofNat 8 (portRowMask s p)

/-- The lead of the generator that drives port `p`. -/
def portLead (s : State) (p : Nat) : Nat :=
  match portPipe s p with
  | some d => fld s (R.FIR_LTn_LEAD (pipeLt s d)) 11 0
  | none => 160

/-- The window of a warm-only cycle that launches at `a` would overlap the window of a committed line (R162). -/
def warmMeets (s : State) (p a : Nat) : Bool :=
  (hp s p).lines.any (fun l => l.kind ≠ .warm && ((l.fireSent && !l.launched) || l.inWindow) &&
    decide (a < l.launch + l.windowTicks) && decide (l.launch < a + 16 * slotOf s p))

/-- Port `p` may send a warm-only cycle: in ARMED, or with its generator in RUN or HOLD; no service sequence, no cycle still to launch, and
no committed line's window to overlap (R162, R216). -/
def mayWarm (s : State) (p : Nat) : Bool :=
  let h := hp s p
  let running := match portPipe s p with
    | some d => (lt s (pipeLt s d)).st = .run || (lt s (pipeLt s d)).st = .hold
    | none => false
  active s p && !h.killed && h.synced && fld s (R.FIR_Pn_WARM p) 15 0 ≠ 0 && (s.glb.state = .armed || running) && (nh s p).seq ≠ 2 &&
    (nh s p).seq ≠ 3 && !h.lines.any (fun l => l.kind = .warm && !l.launched) && !warmMeets s p (s.now + portLead s p)

/-- WARM_CYCLE_TIMER (R162): the warm period has passed without a launch; the warm register takes the present warm bits, and the warm-only
FIRE frame follows their acknowledgement (`fireWarm`; log 57). -/
def execWarmCycleTimer (p : Fin 16) (s : State) : Host.Outcome State Fault Refusal :=
  finish (if !mayWarm s p then s
    else
      let rows := portRows s p
      let codes := (List.range 8).map (fun r => if bitOf rows.toNat r then List.replicate (hp s p).cols 0 else [])
      let r := decideLine p (newLine s p 0 .warm false 0 rows codes) s
      match bankFor p r.2 r.1 with
      | none => r.1
      | some (b, s1) =>
        let l := { r.2 with bank := b, lineAck := true, parmSent := true, offs := List.replicate 8 0 }
        sendFrame p 3 0 0 (parmBody (hp s1 p) l true) 0 (modHlp p (fun h => { h with lines := h.lines ++ [l] }) s1))

/-! ## Pulse checks (R157, R159) -/

/-- The head could shorten the entry with the largest trim (R157). -/
def pulseShort (s : State) (p : Nat) (e : Word) : Bool :=
  decide (slotOf s p < entPre e + entGap e + trimMain (entMain e) 31 + settleOf s p)

/-- FIR_PULSE_CLAMPED for every entry of every bound port that its head could shorten (R157). -/
def pulseCheck (s : State) : State :=
  forEach (those 16 (portBound s)) (fun p s => forEach (List.range 32) (fun j s =>
    if pulseShort s p (rd s (R.TBL_WAVE + 4 * (32 * p + j))) then logEvent Ev.FIR_PULSE_CLAMPED p p (j / 4) (j % 4) s else s) s) s

/-- A write to a waveform entry: the reserved bits stay 0; the change goes to the head (R6, R158, R159, R202). -/
def waveWrite (index : Nat) (v : Word) (s : State) : State :=
  bankChanged (index % 512 / 32) s (pulseCheck (wr (R.TBL_WAVE + 4 * (index % 512)) (v &&& 0x07FFFFFF) s))

/-- WAVEFORM_ENTRY_WRITE (R159). -/
def execWaveformEntryWrite (index : Fin 512) (value : Word) (s : State) : Host.Outcome State Fault Refusal :=
  finish (viaBar0 (R.TBL_WAVE + 4 * index.val) (waveWrite index value) s)

/-! ## Gates (R163 to R170) -/

/-- Registers and flags are in reset, or the device is off: a gating input only has its level. -/
def gateDead (s : State) : Bool := s.glb.state = .off || s.glb.state = .reset

/-- The gating inputs changed. -/
def modGate (f : Gate → Gate) (s : State) : State := { s with gate := f s.gate }

/-- A hard gate on the ports of a mask: HPn_EN low, KILL, FIR_HARD_GATE (R167). -/
def gatePorts (src mask inst : Nat) (s : State) : State :=
  raise Ev.FIR_HARD_GATE 0xFF src mask inst (forEach (those 16 (bitOf mask)) hardGate s)

/-- HEAD_KILL_N low gates every port. -/
def killAct (s : State) : State := gatePorts 1 0xFFFF 0 (setFlag R.FIR_GATEFLAG 0 s)

/-- The ports that HOPENm gates. -/
def hopenMask (s : State) (m : Nat) : Nat :=
  fld s (if m < 2 then R.FIR_HOPENMAP01 else R.FIR_HOPENMAP23) (16 * (m % 2) + 15) (16 * (m % 2))

/-- HOPENm high gates the ports of a mask; a mask of 0 disables it (R170). -/
def hopenAct (m mask : Nat) (s : State) : State := if mask = 0 then s else gatePorts 2 mask m (setFlag R.FIR_GATEFLAG (1 + m) s)

/-- JAMm stops all ports at the next slot boundary, through SAFE_HOLD, unless FIR_GATEEN disables it. -/
def jamAct (m : Nat) (s : State) : State :=
  if fld s R.FIR_GATEEN (1 + m) (1 + m) = 0 then s else raise Ev.FIR_JAM m m 0xFFFF 0 (setFlag R.FIR_GATEFLAG (6 + m) s)

/-- MEDIA_OUT stops all generators at the next line boundary, unless FIR_GATEEN disables it. -/
def mediaAct (s : State) : State :=
  if fld s R.FIR_GATEEN 0 0 = 0 then s
  else
    let gens := those 16 (fun g => ltBound s g && ((lt s g).st = .run || (lt s g).st = .hold))
    let last := match gens.head? with
      | some g => (rd s (R.FIR_LTn_LASTLINE g)).toNat
      | none => 0
    raise Ev.FIR_MEDIA_OUT 0xFF (maskOf 16 (fun g => gens.contains g)) last 0 (setFlag R.FIR_GATEFLAG 5 s)

/-- Every gating source that stands acts: at the end of RESET (R167; DEDUCED, log 58). -/
def gatesAct (s : State) : State :=
  let s1 := useInvar [R.FIR_HOPENMAP01, R.FIR_HOPENMAP23, R.FIR_GATEEN] (if s.gate.kill then killAct s else s)
  let s2 := forEach (those 4 (fun m => bitOf s.gate.hopen.toNat m)) (fun m s => hopenAct m (hopenMask s m) s) s1
  let s3 := forEach (those 2 (fun m => bitOf s.gate.jam.toNat m)) jamAct s2
  if s.gate.mediaOut then mediaAct s3 else s3

/-- HEAD_KILL_ASSERT (R167): HEAD_KILL_N low on all ports at once. -/
def execHeadKillAssert (s : State) : Host.Outcome State Fault Refusal :=
  finish (if s.gate.kill then s
    else
      let s1 := modGate (fun g => { g with kill := true }) s
      if gateDead s then s1 else killAct s1)

/-- HOPEN_ASSERT (R167): HOPENm high gates the ports in its mask. -/
def execHopenAssert (m : Fin 4) (s : State) : Host.Outcome State Fault Refusal :=
  finish (if bitOf s.gate.hopen.toNat m then s
    else
      let s1 := modGate (fun g => { g with hopen := g.hopen ||| BitVec.ofNat 4 (2 ^ m.val) }) s
      if gateDead s then s1
      else let s2 := useInvar [R.FIR_HOPENMAP01, R.FIR_HOPENMAP23] s1; hopenAct m (hopenMask s2 m) s2)

/-- HPN_EN_EXTERNAL_LOW (R166): HPn_EN sensed low for more than 40 ns; a hard gate while the device releases the line. -/
def execHpnEnExternalLow (p : Fin 16) (s : State) : Host.Outcome State Fault Refusal :=
  finish (let bit : BitVec 16 := BitVec.ofNat 16 (2 ^ p.val)
    let s1 := modGate (fun g => { g with enExt := g.enExt ||| bit }) s
    if gateDead s ∨ !bitOf s.gate.enRel.toNat p then s1
    else gatePorts 3 (2 ^ p.val) p (setFlag R.FIR_GATEFLAG (16 + p.val) s1))

/-- JAM_QUALIFIED (R167): JAMm asserted for jam_filt. -/
def execJamQualified (m : Fin 2) (s : State) : Host.Outcome State Fault Refusal :=
  finish (if bitOf s.gate.jam.toNat m then s
    else
      let s1 := modGate (fun g => { g with jam := g.jam ||| BitVec.ofNat 2 (2 ^ m.val) }) s
      if gateDead s then s1 else jamAct m (useInvar [R.FIR_GATEEN] s1))

/-- MEDIA_OUT_QUALIFIED (R167): MEDIA_OUT asserted for media_filt. -/
def execMediaOutQualified (s : State) : Host.Outcome State Fault Refusal :=
  finish (if s.gate.mediaOut then s
    else
      let s1 := modGate (fun g => { g with mediaOut := true }) s
      if gateDead s then s1 else mediaAct (useInvar [R.FIR_GATEEN] s1))

/-- A port's HPn_EN follows R163, unless it waits for the end of the slot in progress. -/
def refreshEn (p : Nat) (s : State) : State := if (hp s p).killDue then s else updateEn p s

/-- HPn_EN of every port follows R163, which uses the head-open masks (R13). -/
def refreshAll (s : State) : State :=
  forEach (List.range 16) refreshEn (if firingState s then useInvar [R.FIR_HOPENMAP01, R.FIR_HOPENMAP23] s else s)

/-- The bits that a write has set in a word that held `old`. -/
def newBits (o : Nat) (old : Word) (s : State) : Word := rd s o &&& ~~~old

/-- Gating inputs that stand act on what a write of their enables or masks newly lets through: ports now mapped to a high HOPENm, a JAMm or
MEDIA_OUT now enabled; HPn_EN follows the masks (R163, R167, R170). `old`: the register before the write. -/
def invarChanged (o : Nat) (old : Word) (s : State) : State :=
  let x := newBits o old s
  if o = R.FIR_HOPENMAP01 ∨ o = R.FIR_HOPENMAP23 then
    let m0 := if o = R.FIR_HOPENMAP01 then 0 else 2
    refreshAll (forEach (those 2 (fun j => bitOf s.gate.hopen.toNat (m0 + j))) (fun j s => hopenAct (m0 + j) (bits x (16 * j + 15) (16 * j)) s) s)
  else if o = R.FIR_GATEEN then
    let s1 := forEach (those 2 (fun m => bitOf s.gate.jam.toNat m && bitOf x.toNat (1 + m))) jamAct s
    if s.gate.mediaOut ∧ bitOf x.toNat 0 then mediaAct s1 else s1
  else s

/-- GATE_SOURCE_DEASSERT (R169): a gating input returns to its permitting level. -/
def execGateSourceDeassert (src : GateSource) (s : State) : Host.Outcome State Fault Refusal :=
  finish (refreshAll (modGate (fun g =>
    match src with
    | .kill => { g with kill := false }
    | .hopen m => { g with hopen := g.hopen &&& ~~~(BitVec.ofNat 4 (2 ^ m.val)) }
    | .mediaOut => { g with mediaOut := false }
    | .jam m => { g with jam := g.jam &&& ~~~(BitVec.ofNat 2 (2 ^ m.val)) }
    | .hpnEn p => { g with enExt := g.enExt &&& ~~~(BitVec.ofNat 16 (2 ^ p.val)) }) s))

/-- SAFE_HOLD_KILL (R163): the slot in progress on a port has ended after entry to SAFE_HOLD or SHUTDOWN. -/
def execSafeHoldKill (p : Fin 16) (s : State) : Host.Outcome State Fault Refusal :=
  finish (if (hp s p).killDue then hardGate p s else s)

/-! ## Generator commands (R177) -/

/-- An origin load: the reference of R145 is the present position, counts and the seen speed restart. -/
def loadOrigin (g org : Nat) (s : State) : State :=
  let s1 := wr (R.FIR_LTn_CNT g) 0 s
  modGen g (fun x => { x with org := org, orgline := (rd s (R.FIR_LTn_ORGLINE g)).toNat, hw := (pch s (ltSource s g)).pos, rev := false,
                              since := false, top := none, vSeen := false, v := 0, delayed := [] }) s1

/-- FIR_LTn_CMD_STATUS of an evaluated command; a refusal raises FIR_CMD_REJECT. -/
def firResult (g cmd res code : Nat) (s : State) : State :=
  let s1 := wr (R.FIR_LTn_CMD_STATUS g) (BitVec.ofNat 32 (res + 16 * code + 256 * cmd)) s
  if res = 1 then s1 else logEvent Ev.FIR_CMD_REJECT g g cmd res s1

/-- A generator that works: bound, and not one whose only ports are absent (R18, R93). -/
def ltLive (s : State) (g : Nat) : Bool :=
  ltBound s g && ((ltPipes s g).isEmpty || (ltPipes s g).any (fun d => !(hp s (pipePort s d)).gone))

/-- A write of FIR_LTn_CMD (R177). -/
def firCmd (g cmd : Nat) (s : State) : State :=
  let code := genCode s g
  let ok := ltLive s g && ((lt s g).st = .idle || (lt s g).st = .armed)
  if cmd = 1 then
    if ok then firResult g 1 1 code (loadOrigin g ((rd s (R.FIR_LTn_ORG_INT g)).toNat * 65536 + fld s (R.FIR_LTn_ORG_FRAC g) 15 0) s)
    else firResult g 1 2 code s
  else if cmd = 2 then
    if ok then firResult g 2 1 code (loadOrigin g (pch s (ltSource s g)).pos s) else firResult g 2 2 code s
  else firResult g cmd 3 code s

/-- FIR_SETORG (R177). -/
def execFirSetorg (g : Fin 16) (s : State) : Host.Outcome State Fault Refusal := finish (viaBar0 (R.FIR_LTn_CMD g) (firCmd g 1) s)

/-- FIR_CAPORG (R177). -/
def execFirCaporg (g : Fin 16) (s : State) : Host.Outcome State Fault Refusal := finish (viaBar0 (R.FIR_LTn_CMD g) (firCmd g 2) s)

end Sys2Proof.Machine
end

