-- ==== Sys2Proof/Machine/BruBase.lean ====
section
/-!
DEFINITION. Bring-up as the ports, the page store and the cascade see it: the first failure, generation numbers, and the end of
LINK_TRAIN (spec/03_bring_up.md R88, R92, R102; spec/06_romor_head_link.md R226).
-/
namespace Sys2Proof.Machine

/-- The generation of port `p` increments, saturating, and raises HLP_GEN_CHANGE (R226). -/
def bumpGen (p : Nat) (s : State) : State :=
  let g := (hp s p).gen
  if g = 0xFFFF then s
  else logEvent Ev.HLP_GEN_CHANGE p p g.toNat (g.toNat + 1) (modHlp p (fun h => { h with gen := g + 1 }) s)

/-- GLB_BRUSTAT.selftest: the four activities together. -/
def selftestAct (s : State) : Act :=
  let l := [s.bru.memory, s.bru.journal, s.bru.invar, s.bru.adc]
  if l.any (fun a => a = .failed) then .failed
  else if l.all (fun a => a = .done || a = .skipped) then .done
  else if l.any (fun a => a = .running) then .running
  else .pending

/-- GLB_BRUSTAT.ports. -/
def portsAct (s : State) : Act :=
  let l := (those 16 (portBound s)).map (fun p => (hp s p).bst)
  if s.glb.state.code < 4 then .pending
  else if l.any (fun b => b = .failed || b = .refused) then .failed
  else if l.all (fun b => b = .trained || b = .absent) then .done
  else .running

/-- LINK_TRAIN ends once each of its activities is done, skipped or, for ports, resolved (R35, R88, R92). -/
def bruCheck (s : State) : State :=
  let ended (a : Act) : Bool := a = .done || a = .skipped
  if s.glb.state = .linkTrain ∧ ended s.bru.xmc ∧ portsAct s = .done ∧ ended s.bru.cascade then
    let us := (((s.now : Int) - s.glb.released) / 400).toNat
    logEvent Ev.BRU_READY 0xFF us (maskOf 16 (fun p => portBound s p && (hp s p).bst = .trained)) (rd s R.GLB_BOOTCNT).toNat
      (goto .idle 0 s)
  else s

/-- The outcome of a port whose series has ended without success, by its presence in HEADS (R92). -/
def resolvePort (p reason : Nat) (refused : Bool) (s : State) : State :=
  let pres := headPresence s p
  if pres = 0 then
    let s1 := modHlp p (fun h => { h with lstate := if refused then .refused else .failed,
                                          bst := if refused then .refused else .failed, inSeries := false }) s
    bruCheck (bruErr Ev.BRU_PORT_FAIL p reason (logEvent Ev.BRU_PORT_FAIL p p reason (hp s p).attempts s1))
  else
    let s1 := modHlp p (fun h => { h with lstate := .absent, bst := .absent, inSeries := false, gone := true }) s
    let s2 := logEvent Ev.BRU_PORT_ABSENT p p pres reason s1
    bruCheck (if pres = 2 then bumpGen p s2 else s2)

end Sys2Proof.Machine
end

