-- ==== Sys2Proof/Machine/Link.lean ====
section
/-!
DEFINITION. Training of a head port, identification, time synchronisation, link loss, generations and hot swap
(spec/06_romor_head_link.md R208 to R220, R224 to R226; spec/03_bring_up.md R91, R92). Acknowledgements, MEM traffic and the port
commands stand in LinkFrames.lean.
-/
namespace Sys2Proof.Machine

/-! ## Ordered sets (R184, R185) -/

/-- Data bytes with their check byte (R185). -/
def withCheck (b : List Byte) : List Byte := b ++ [crc8 b]

/-- TS1 or TS2 as the device sends it, on DL0 and DL1 (R183, R184). -/
def sendTs (p : Nat) (name : String) (locked : Bool) (s : State) : State :=
  let ts (lane : Nat) : List Byte := withCheck (leBytes 1 lane ++ leBytes 1 p ++ leBytes 1 (b2n locked) ++ leBytes 1 1 ++ leBytes 9 0)
  emit (.headSet p name (ts 1)) (emit (.headSet p name (ts 0)) s)

/-! ## Attempts (R91, R208, R210, R225) -/

/-- An attempt starts: DETECT, TS1 on both lanes (R208). -/
def startAttempt (p : Nat) (s : State) : State :=
  sendTs p "TS1" false (modHlp p (fun h =>
    { h.fresh with lstate := .detect, bst := .training, attempts := if h.inSeries then h.attempts + 1 else h.attempts }) s)

/-- A series of up to three attempts starts (R91). While bring-up is incomplete the held ports start none, also in the LINK_TRAIN of a
reload, which then does not end: the spec does not say how that reload treats them (DESIGN CHOICE, log 78). -/
def startSeries (p : Nat) (s : State) : State :=
  if portBound s p ∧ !s.bru.incomplete then
    startAttempt p (modHlp p (fun h => { h with inSeries := true, hotTry := false, attempts := 0, reason := 0 }) s)
  else s

/-- The port is in one of the training states. -/
def LState.training (l : LState) : Bool := l = .detect || l = .lock || l = .config || l = .timesync || l = .ident

/-- An attempt fails by the timeout of the state it reached; its lanes stay idle to the end of its 50 ms (R208, R210). -/
def failAttempt (p reason : Nat) (s : State) : State :=
  modHlp p (fun h => { h.fresh with lstate := .down, reason := reason }) (logEvent Ev.HLP_TRAIN_FAIL p p (hp s p).lstate.code reason s)

/-- An attempt on a hot-swap port is over; the port is absent (R92, R225). -/
def hotEnd (p : Nat) (s : State) : State :=
  modHlp p (fun h => { h.fresh with lstate := .absent, bst := .absent, hotTry := false }) s

/-- PORT_ATTEMPT_START (R91): the gap after a failed attempt has passed and the series has attempts left. -/
def execPortAttemptStart (p : Fin 16) (s : State) : Host.Outcome State Fault Refusal :=
  finish (let h := hp s p
    if h.inSeries ∧ h.lstate = .down ∧ h.attempts < 3 ∧ portBound s p then startAttempt p s else s)

/-- PORT_ATTEMPT_END (R92, R210, R225): the 50 ms of the last failed attempt of a series, or of one on an absent hot-swap port, have
passed. -/
def execPortAttemptEnd (p : Fin 16) (s : State) : Host.Outcome State Fault Refusal :=
  finish (let h := hp s p
    if h.inSeries ∧ h.lstate = .down ∧ 3 ≤ h.attempts then resolvePort p h.reason false s
    else if h.hotTry ∧ h.lstate = .down then hotEnd p s
    else s)

/-- HOTSWAP_ATTEMPT_TIMER (R225): in IDLE an absent hot-swap port starts a single attempt. -/
def execHotswapAttemptTimer (p : Fin 16) (s : State) : Host.Outcome State Fault Refusal :=
  finish (let h := hp s p
    if s.glb.state = .idle ∧ portBound s p ∧ headPresence s p = 2 ∧ h.lstate = .absent ∧ !s.bru.incomplete then
      startAttempt p (modHlp p (fun h => { h with hotTry := true, inSeries := false }) s)
    else s)

/-- TRAIN_STATE_TIMEOUT (R208): the timeout of the training state that the port is in expires. -/
def execTrainStateTimeout (p : Fin 16) (s : State) : Host.Outcome State Fault Refusal :=
  finish (let l := (hp s p).lstate
    if l.training then failAttempt p (if l = .detect then 1 else 2) s else s)

/-! ## Identification (R209) -/

/-- A list of 16 numbers is a permutation of 0 to 15. -/
def isPerm16 (l : List Nat) : Bool := (List.range 16).all (fun i => l.contains i)

/-- The first check of R209 that a head fails: the refusal reason and the value read. -/
def identCheck (s : State) (p : Nat) : Option (Nat × Nat) :=
  let h := hp s p
  let cut (r v : Nat) (ok : Bool) (next : Option (Nat × Nat)) : Option (Nat × Nat) := if ok then next else some (r, v)
  let f := h.f
  cut 3 (f 0 4) (slice h.mem 0 4 = [0x52, 0x48, 0x4D, 0x31]) <|
  cut 3 (f 4 2) (f 4 2 = 1) <|
  cut 3 (f 0xFC 4) (f 0xFC 4 = (crc32c (slice h.mem 0 0xFC)).toNat) <|
  cut 3 (f 6 2) (headVendor s p = 0 || f 6 2 = headVendor s p) <|
  cut 3 (f 8 2) (headModel s p = 0 || f 8 2 = headModel s p) <|
  cut 4 (f 0xA 1) (headMinRank s p ≤ f 0xA 1) <|
  cut 3 (f 0x1FC 4) (f 0x1FC 4 = (crc32c (slice h.mem 0x100 0xFC)).toNat) <|
  cut 3 (h.rows * 65536 + h.cols)
    (1 ≤ h.rows && h.rows ≤ 8 && h.cols % 16 = 0 && 16 ≤ h.cols && h.cols ≤ 4096 && h.rows * h.cols ≤ 16384) <|
  cut 3 (f 0x106 4) (isPerm16 ((List.range 16).map (nibble (f 0x106 8)))) <|
  cut 3 h.rails (1 ≤ h.rails && h.rails ≤ 4) <|
  cut 3 h.zones (h.zones ≤ 16) none

/-- Byte reads of head memory in chunks of at most the head's payload (R201). `fuel` bounds the chunks. -/
def memReads : Nat → Nat → MemOwner → Nat → Nat → State → State
  | 0, _, _, _, _, s => s
  | n + 1, p, o, a, len, s =>
    if len = 0 then s
    else
      let k := min len (max 1 (hp s p).payload)
      memReads n p o (a + k) (len - k) (memAsk p o 1 a k [] s)

/-- The thermal block's values that are not 0 go to the port's registers; a bad block keeps the registers (R236, R237). -/
def loadThermal (p : Nat) (s : State) : State :=
  let h := hp s p
  let ok := h.f 0x7FC 4 = (crc32c (slice h.mem 0x700 0xFC)).toNat
  let s0 := modThm p (fun t => { t with blockOk := ok }) s
  let put (o hi lo a n : Nat) (s : State) : State := if h.f a n = 0 then s else setF o hi lo (h.f a n) s
  if ok then
    put (R.THM_Pn_KJ p) 15 0 0x700 2 <| put (R.THM_Pn_KJ p) 31 16 0x702 2 <| put (R.THM_Pn_TAUJB p) 31 0 0x704 4 <|
    put (R.THM_Pn_TAUBZ p) 31 0 0x708 4 <| put (R.THM_Pn_KT p) 15 0 0x70C 2 <| put (R.THM_Pn_SET p) 15 0 0x70E 2 <|
    put (R.THM_Pn_SET p) 31 16 0x710 2 <| put (R.THM_Pn_EPS p) 15 0 0x712 2 <| put (R.THM_Pn_EPS p) 31 16 0x714 2 s0
  else logEvent Ev.THM_MODEL_DEV p p 0xFF 0 s0

/-- The zone temperatures are read from the head's status range (R238). -/
def readZones (p : Nat) (o : MemOwner) (s : State) : State :=
  if (hp s p).zones = 0 then memAsk p o 1 0x8008 2 [] s else memAsk p o 1 0x8020 (2 * (hp s p).zones) [] s

/-- The port enters ACTIVE: banks, model, health of a different head, hot swap (R202, R225, R226, R236, R272, R283). -/
def activate (p : Nat) (s : State) : State :=
  let h := hp s p
  let serial := slice h.mem 0xC 16
  let swapped : Bool := match h.serial with
    | some x => x ≠ serial
    | none => false
  let s1 := modHlp p (fun h => { h with lstate := .active, bst := .trained, serial := some serial, inSeries := false, hotTry := false,
                                        reason := 0, lostHalt := false, gone := false }) s
  let s2 := if swapped then
      healthClear p (bumpGen p (modHlp p (fun h => { h with drops := [], uLines := 0, uTicks := 0, uInserts := 0, uHalts := 0 }) s1))
    else s1
  let s3 := logEvent Ev.HLP_LINK_UP p p h.delta (hp s2 p).gen.toNat s2
  let s4 := if h.gone && headPresence s p = 2 then
      logEvent Ev.HLP_HOTSWAP p p 2 (leNat (slice serial 0 4)) (modHlp p (fun h => { h with uInserts := h.uInserts + 1 }) s3)
    else s3
  let s5 := setF (R.THM_Pn_TELECNT p) 31 0 0 (modNhl p (fun x => { x with suspended := false })
    (modThm p (fun t => { t with zones := [], teleLost := false }) (loadBanks p s4)))
  bruCheck (updateEn p (readZones p .seed (seedModel p (loadThermal p s5))))

/-- Identification ends: the head is accepted, or refused at the first failed check (R92, R209). A refusal on a hot-swap port raises
HLP_TRAIN_FAIL only and leaves it absent, its reason standing until the head is removed (R225). -/
def identEnd (p : Nat) (s : State) : State :=
  match identCheck s p with
  | none => activate p s
  | some (r, v) =>
    let hot := (hp s p).hotTry
    let s1 := logEvent Ev.HLP_TRAIN_FAIL p p 6 r (if hot then s else logEvent Ev.HLP_IDENT_REFUSED p p r v s)
    let s2 := modHlp p (fun h => { h.fresh with reason := r }) s1
    if hot then hotEnd p s2 else resolvePort p r true s2

/-! ## Training sets (R208, R211) -/

/-- In CONFIG a set time passes: the device, whose lanes run at the head's rate (R180), sends one TS2; `n` sets of the run stand now. -/
def configSet (p n : Nat) (first : Bool) (s : State) : State :=
  sendTs p "TS2" true (modHlp p (fun h => { h with tsRun := n, tsAfter := if first || h.tsAfter ≠ 0 then h.tsAfter + 1 else 0 }) s)

/-- One valid training set advances the port; a refused head that still answers on an absent hot-swap port ends the attempt without an
event (R92). CONFIG is left once 16 TS2 have been sent after the first one received (R208; DEDUCED, log 59). -/
def trainSet (p : Nat) (ts2 : Bool) (b : List Byte) (s : State) : State :=
  let h := hp s p
  let locked := bitOf ((b.getD 2 0).toNat) 0
  let run (ok : Bool) : Nat := if ok then h.tsRun + 1 else 0
  match h.lstate with
  | .detect =>
    let n := run (!ts2)
    if 8 ≤ n then
      if h.hotTry && decide (3 ≤ h.reason) then hotEnd p s
      else sendTs p "TS1" true (modHlp p (fun h => { h with lstate := .lock, ulLock := true, tsRun := 0 }) s)
    else modHlp p (fun h => { h with ulLock := true, tsRun := n }) s
  | .lock =>
    let n := run (!ts2 && locked)
    if 8 ≤ n then sendTs p "TS2" true (modHlp p (fun h => { h with lstate := .config, dlLock := true, tsRun := 0, tsAfter := 0 }) s)
    else modHlp p (fun h => { h with dlLock := locked, tsRun := n }) s
  | .config =>
    let n := run ts2
    if 8 ≤ n ∧ 16 ≤ h.tsAfter then
      sendProbe p (modHlp p (fun h => { h with lstate := .timesync, tsRun := 0, tsAfter := 0, credits := (b.getD 4 0).toNat,
                                               payload := 64 * 2 ^ (min 2 (b.getD 5 0).toNat), echoes := [], checking := false }) s)
    else modHlp p (fun h => { h with dlLock := locked }) (configSet p n ts2 s)
  | _ => s

/-- TRAIN_SET_RECEIVED (R208): a TS1 or TS2 arrives on UL of port `p` with its 14 data bytes; one whose check fails is ignored and
breaks the run of consecutive valid sets (R185). -/
def execTrainSetReceived (p : Fin 16) (ts2 : Bool) (data : Vector Byte 14) (s : State) : Host.Outcome State Fault Refusal :=
  finish (let b := data.toList
    if !(hp s p).lstate.training then s
    else if crc8 (b.take 13) = b.getD 13 0 then trainSet p ts2 b s
    else if (hp s p).lstate = .config then configSet p 0 false s
    else modHlp p (fun h => { h with tsRun := 0 }) s)

/-! ## Link loss (R218, R220, R225) -/

/-- The port's operating link ends: HPn_EN low, KILL while the lanes still run, DOWN (R218). A software MEM access that waits ends as
timed out. -/
def portDown (p : Nat) (s : State) : State :=
  let s1 := hardGate p s
  let soft := (hp s1 p).reqs.any (fun m => m.owner = .software) || (hp s1 p).memWait.any (fun m => m.owner = .software)
  let s2 := if soft then setF (R.HLP_Pn_CMD_STATUS p) 13 12 3 s1 else s1
  modHlp p (fun h => { h.fresh with lstate := .down, bst := .training }) s2

/-- Link loss on an ACTIVE port for a cause: 1 lock, 2 discarded frames, 3 time, 4 CTRL. -/
def linkLoss (p cause : Nat) (s : State) : State :=
  if !active s p then s
  else
    let firing := firingState s
    let serial := (hp s p).serial
    let s1 := incF (R.HLP_Pn_ERRCNT p) 31 24 (svcAbort p 3 (portDown p s))
    if s.glb.state = .idle ∧ headPresence s p = 2 then
      let s2 := modHlp p (fun h => { h with lstate := .absent, bst := .absent, gone := true }) (logEvent (Ev.HLP_LINK_DOWN .warn) p p cause 7 s1)
      let s3 := logEvent Ev.HLP_HOTSWAP p p 1 (leNat (slice (serial.getD []) 0 4)) (bumpGen p s2)
      match portPipe s3 p with
      | some d => pipeOff d s3
      | none => s3
    else
      let s2 := startSeries p (modHlp p (fun h => { h with lostHalt := h.lostHalt || (firing && headPresence s p = 0) }) s1)
      if firing then raise (Ev.HLP_LINK_DOWN .halt) p p cause 7 s2 else logEvent (Ev.HLP_LINK_DOWN .warn) p p cause 7 s2

/-- A discarded frame counts; more than 16 within 2^20 ticks on an ACTIVE port are link loss (R218). -/
def discardFrame (p : Nat) (s : State) : State :=
  let l := s.now :: (hp s p).discards.filter (fun t => decide (s.now < t + 2 ^ 20))
  let s1 := modHlp p (fun h => { h with discards := l }) s
  if 16 < l.length then linkLoss p 2 s1 else s1

/-- UPSTREAM_FRAME_BAD (R217, R224): a bad upstream frame is discarded; `codeErr`: for a code or disparity error. HLP_UP_ERROR at most
once in 2^20 ticks (R231); its count takes in the downstream frames that R218 counts as discarded. Frames that arrive before IDENT are not
looked at. Both are where the spec is silent (DESIGN CHOICE, log 78). -/
def execUpstreamFrameBad (p : Fin 16) (codeErr : Bool) (s : State) : Host.Outcome State Fault Refusal :=
  finish (if !active s p ∧ (hp s p).lstate ≠ .ident then s
    else
      let s1 := incF (R.HLP_Pn_ERRCNT p) 15 8 s
      let s2 := if codeErr then incF (R.HLP_Pn_ERRCNT p) 23 16 s1 else s1
      let n := (((hp s2 p).discards ++ (hp s2 p).oldBad).filter (fun t => decide (s2.now < t + 2 ^ 20))).length + 1
      let s3 := if mayRaise s2 (hp s2 p).upErrAt then
          logEvent Ev.HLP_UP_ERROR p p n 0 (modHlp p (fun h => { h with upErrAt := some s2.now }) s2)
        else s2
      discardFrame p s3)

/-- SYMBOL_LOCK_LOSS (R218): symbol lock has been lost for more than 1 µs. -/
def execSymbolLockLoss (p : Fin 16) (s : State) : Host.Outcome State Fault Refusal :=
  finish (if active s p then linkLoss p 1 s
    else if (hp s p).lstate.training then modHlp p (fun h => { h with ulLock := false, tsRun := 0 }) s
    else s)

/-! ## Time synchronisation (R212 to R216) -/

/-- Acquisition starts again from its first PROBE. -/
def acqRestart (p : Nat) (s : State) : State := sendProbe p (modHlp p (fun h => { h with echoes := [], checking := false, synced := false }) s)

/-- Acquisition is complete: identification in training, else timed FIRE frames may go again (R212, R216). -/
def acqDone (p : Nat) (s : State) : State :=
  let s1 := modHlp p (fun h => { h with synced := true, checking := false, echoes := [] }) s
  if (hp s1 p).lstate = .timesync then
    memReads 40 p .ident 0 0x800 (modHlp p (fun h => { h with lstate := .ident, mem := List.replicate 0x800 0 }) s1)
  else s1

/-- Sixteen thetas whose spread is at most 8 eighths give the SET and eq; one check PROBE follows (R212). Both means are rounded toward
minus infinity, where the spec gives no rounding (DESIGN CHOICE, log 78). -/
def acqSixteen (p : Nat) (l : List (Int × Int)) (s : State) : State :=
  let th := l.map Prod.fst
  let hi := th.foldl max (th.headD 0)
  let lo := th.foldl min (th.headD 0)
  if 8 < hi - lo then acqRestart p s
  else
    let total := (l.map Prod.snd).foldl (· + ·) 0
    let delta := shr total 4
    let eq := (6 - rnd delta 3).toNat
    let s1 := modHlp p (fun h => { h with delta := narrow 16 delta, eq := eq, corr := 0, checking := true, echoes := [] }) s
    let s2 := if 16 * 48 < total then logEvent Ev.HLP_FLIGHT_LONG p p (toWord delta).toNat 0 s1 else s1
    sendProbe p (sendSet p (-(shr (th.foldl (· + ·) 0) 4)) eq s2)

/-- The outcome of an offset measured in ACTIVE (R215). -/
def driftCheck (p : Nat) (theta : Int) (s : State) : State :=
  let a := iabs theta
  if a ≤ 2 then s
  else if 16 < a then linkLoss p 3 s
  else
    let s1 := modHlp p (fun h => { h with corr := min 15 (h.corr + 1) }) (sendSet p (-theta) (hp s p).eq s)
    if 8 < a then logEvent Ev.HLP_TIME_DRIFT p p (toWord theta).toNat 0 s1 else s1

/-- An ECHO gives theta and delta, in eighths (R212). -/
def echo (p : Nat) (theta delta : Int) (s0 : State) : State :=
  let s := modHlp p (fun h => { h with theta := satS 8 theta }) s0
  let h := hp s p
  if h.lstate = .active ∧ h.synced then driftCheck p theta s
  else if h.checking then (if iabs theta ≤ 2 then acqDone p s else acqRestart p s)
  else
    let l := (theta, delta) :: h.echoes
    if l.length < 16 then modHlp p (fun h => { h with echoes := l }) s else acqSixteen p l s

/-- TSYNC_ECHO_RX (R212, R215): the ECHO of a PROBE arrives; all times in eighths of a tick, 48.3: it left at t1, arrived at h2; the
ECHO left at h3, arrived at t4. -/
def execTsyncEchoRx (p : Fin 16) (t1 h2 h3 t4 : BitVec 51) (s : State) : Host.Outcome State Fault Refusal :=
  finish (let d (x y : BitVec 51) : Int := (x - y).toInt
    if (hp s p).lstate = .timesync ∨ active s p then echo p (shr (d h2 t1 + d h3 t4) 1) (shr (d t4 t1 - d h3 h2) 1) s else s)

/-- TSYNC_PROBE_TIMER (R215): 2^18 ticks have passed in ACTIVE. -/
def execTsyncProbeTimer (p : Fin 16) (s : State) : Host.Outcome State Fault Refusal :=
  finish (if active s p ∧ (hp s p).synced then sendProbe p s else s)

/-- TSYNC_ACQ_PROBE_TIMER (R212): 4,096 ticks after a PROBE of an acquisition the next of its 16 leaves. -/
def execTsyncAcqProbeTimer (p : Fin 16) (s : State) : Host.Outcome State Fault Refusal :=
  finish (let h := hp s p
    if (h.lstate = .timesync ∨ (active s p ∧ !h.synced)) ∧ !h.checking ∧ h.echoes.length < 16 then sendProbe p s else s)

/-- Bell time has stepped: every ACTIVE port acquires afresh (R216). -/
def portsReacquire (s : State) : State := forEach (those 16 (active s)) acqRestart s

end Sys2Proof.Machine
end

