-- ==== Sys2Proof/Machine/LinkFrames.lean ====
section
/-!
DEFINITION. Acknowledgements and retransmission on a head port, MEM traffic, head usage, head events, and the port commands
(spec/06_romor_head_link.md R201, R203, R221 to R224, R227 to R231, R579, R580).
-/
namespace Sys2Proof.Machine

/-! ## Acknowledgements (R221, R222, R579, R580) -/

/-- A frame leaves again under a new sequence number; the retransmission is counted (R190, R221). -/
def resend (p : Nat) (f : Sent) (s : State) : State :=
  let s1 := modHlp p (fun h => { h with sent := h.sent.filter (fun x => x.fseq ≠ f.fseq) }) (incF (R.HLP_Pn_ERRCNT p) 7 0 s)
  sendFrame p f.ftype f.tag f.line f.body (f.tries + 1) s1

/-- A frame is no longer awaited. -/
def dropSent (p : Nat) (q : Byte) (s : State) : State :=
  modHlp p (fun h => { h with sent := h.sent.filter (fun x => x.fseq ≠ q) }) s

/-- A line whose FIRE frame is lost: it does not fire, the pipe's next line is at most it, and R222 applies, whose second case, an LACK of
status 1, 2, 4, 5 or 6, raises both events (DEDUCED, log 60); a warm-only cycle only leaves. Where the head may hold the line still, its
buffers stay taken (R204). `status` 0xFF for none. -/
def fireLost (p : Nat) (f : Sent) (status : Nat) (s : State) : State :=
  match (hp s p).lines.find? (fun l => f.fires l && !l.fireAck) with
  | none => s
  | some l =>
    if f.warm then modHlp p (fun h => { h with lines := h.lines.filter (fun x => x ≠ l) }) s
    else
      let held : Bool := status = 1 || status = 5 || status = 6 || status = 0xFF
      let rest (ls : List FLine) : List FLine :=
        if held then ls.map (fun x => if x = l then { x with fireSent := false, skipped := true } else x) else ls.filter (fun x => x ≠ l)
      let s1 := modHlp p (fun h => { h with lines := rest h.lines }) s
      let s2 := match portPipe s1 p with
        | some d => if l.kind = .print then
            modDot d (fun x => if lineDiff l.line x.next < 0 then { x with next := l.line } else x) s1
          else s1
        | none => s1
      let s3 := if status = 0xFF then s2 else lostLine Ev.HLP_LINE_UNDELIVERED p l.line 2 (some l.launch) s2
      svcSettle p (lostLine Ev.HLP_FIRE_LOST p l.line status (some l.launch) s3)

/-- A frame of a line is accepted; a line of the same number whose own frames have not left is another (R20, R205). -/
def frameAccepted (p : Nat) (f : Sent) (s : State) : State :=
  if f.ftype = 1 then
    modHlp p (fun h => { h with lines := h.lines.map (fun l =>
      if l.kind ≠ .warm && l.lineSent && l.line = f.line then { l with lineAck := true } else l) }) s
  else if f.ftype = 3 then
    if bitOf ((f.body.getD 2 0).toNat) 0 then
      modHlp p (fun h => { h with lines := h.lines.map (fun l => if l.kind = .warm then { l with parmAck := true } else l) }) s
    else modHlp p (fun h => { h with lines := h.lines.map (fun l =>
      if l.kind ≠ .warm && l.parmSent && l.line = f.line then { l with parmAck := true } else l) }) s
  else if f.ftype = 2 then
    modHlp p (fun h => { h with lines := h.lines.map (fun l => if f.fires l then { l with fireAck := true } else l) }) s
  else if f.ftype = 5 ∧ f.body.getD 0 0 = 3 then modHlp p (fun h => { h with killed := false }) s
  else s

/-- A timed FIRE frame commits a service line or a warm-only cycle at an instant; the media stands still, so no row is offset. -/
def fireAt (p : Nat) (l : FLine) (launch : Nat) (s : State) : State :=
  let l1 := { l with timed := true, launch := launch, offs := List.replicate 8 0, fireSent := true }
  let line := if l.kind = .warm then 0 else l.line
  sendFrame p 2 (line % 65536) line (fireBody l1) 0 (modLine p l (fun _ => l1) s)

/-- The warm-only cycle whose warm bits the head has taken is committed, unless a line's window or a service sequence now stands in its way
(R162, R200, R285; log 57). -/
def fireWarm (p : Nat) (s : State) : State :=
  match (hp s p).lines.find? (fun l => l.kind = .warm && l.parmAck && !l.fireSent) with
  | none => s
  | some l =>
    let launch := s.now + portLead s p
    if firesPending (hp s p) < 4 ∧ (hp s p).synced ∧ (nh s p).seq ≠ 2 ∧ (nh s p).seq ≠ 3 ∧ !warmMeets s p launch then fireAt p l launch s
    else modHlp p (fun h => { h with lines := h.lines.filter (fun x => x ≠ l) }) s

/-- The FIRE frame of a service line leaves once its LINE and PARM frames are accepted, with its launch at least the generator's lead ahead
(R205), at most 8,192 ticks (R198), and a service period, or 16 slots where they are longer, after the line before (R285). A scan line waits while scans are suspended (R272). -/
def fireService (p : Nat) (s : State) : State :=
  let h := hp s p
  match h.lines.find? (fun l => l.kind = .service && l.lineAck && l.parmAck && !l.fireSent && !l.skipped &&
      !(l.scan && (nh s p).suspended)) with
  | none => s
  | some l =>
    let launch := max (s.now + portLead s p) (nh s p).svcAt
    if active s p ∧ firingState s ∧ firesPending h < 4 ∧ h.synced ∧ launch ≤ s.now + 8192 then
      fireAt p l launch (modNhl p (fun x => { x with svcAt := launch + max x.svcPer (16 * slotOf s p) }) s)
    else s

/-- An LACK for a frame that awaits one. After status 6 the frame leaves again at once, where R221 gives an instant only for a missing LACK
(DESIGN CHOICE, log 78). -/
def lack (p : Nat) (f : Sent) (status : Nat) (s0 : State) : State :=
  let s := dropSent p f.fseq s0
  if status = 0 ∨ status = 3 then fireWarm p (fireService p (frameAccepted p f s))
  else if f.ftype = 2 then
    if status = 1 ∨ status = 2 ∨ status = 4 ∨ status = 5 then fireLost p f status s
    else if status = 6 then fireLost p f status (discardFrame p s)
    else if status = 7 then discardFrame p s
    else s
  else if status = 6 then
    let s1 := discardFrame p s
    if active s1 p ∧ f.tries < 2 ∧ f.ftype ≠ 5 then resend p f s1 else s1
  else if status = 7 then discardFrame p s
  else s

/-- LACK_RX (R203, R222, R579, R580): an LACK arrives on an ACTIVE port. One for no frame that awaits it has no effect. -/
def execLackRx (p : Fin 16) (fseq status : Byte) (s : State) : Host.Outcome State Fault Refusal :=
  finish (if !active s p then s
    else match (hp s p).sent.find? (fun f => f.fseq = fseq) with
      | some f => lack p f status.toNat s
      | none => s)

/-- LACK_TIMEOUT (R221): 2,000 ticks after its EOF a LINE, PARM or CTRL frame has no LACK: the head shows so that it discarded one (R218;
DEDUCED, log 61). After the second retransmission a CTRL frame
is link loss; a LINE or PARM frame stays unaccepted, and R222 applies when its line would be committed. -/
def execLackTimeout (p : Fin 16) (fseq : Byte) (s : State) : Host.Outcome State Fault Refusal :=
  finish (match (hp s p).sent.find? (fun f => f.fseq = fseq && f.ftype ≠ 2) with
    | none => s
    | some f =>
      let s1 := discardFrame p s
      if !active s1 p then s1 else if f.tries < 2 then resend p f s1 else if f.ftype = 5 then linkLoss p 4 s1 else s1)

/-- FIRE_LACK_TIMEOUT (R221, R222): 160 ticks after its EOF a FIRE frame has no LACK. -/
def execFireLackTimeout (p : Fin 16) (fseq : Byte) (s : State) : Host.Outcome State Fault Refusal :=
  finish (match (hp s p).sent.find? (fun f => f.fseq = fseq && f.ftype = 2) with
    | none => s
    | some f =>
      let timed := bitOf ((f.body.getD 2 0).toNat) 0
      let ahead := (hp s p).lines.any (fun l => f.fires l && !l.fireAck && decide (s.now + 64 ≤ l.launch))
      let s1 := discardFrame p s
      if timed && f.tries = 0 && ahead && active s1 p && (hp s1 p).synced then resend p f s1 else fireLost p f 0xFF (dropSent p fseq s1))

/-! ## Head usage (R227) -/

/-- The device writes the usage counters and the older summary copy: it first reads both from the head. -/
def usageBegin (p : Nat) (s : State) : State :=
  let s1 := modHlp p (fun h => { h with sums := Vector.replicate 2 (some (List.replicate 128 0)) }) s
  memReads 4 p (.sumRead 1) 0x1F80 128 (memReads 4 p (.sumRead 0) 0x1F00 128 (memReads 64 p .usageRead 0x1000 (2 * (hp s1 p).nprim) s1))

/-- A usage write is due on a port; one that falls into another follows it. -/
def usageStart (p : Nat) (s : State) : State :=
  if !active s p then s
  else
    let s1 := modHlp p (fun h => { h with usage := h.usage + 1 }) s
    if (hp s p).usage = 0 then usageBegin p s1 else s1

/-- A request of a usage write. -/
def MemReq.isUsage (m : MemReq) : Bool :=
  match m.owner with
  | .usageRead => true
  | .usageWrite => true
  | .sumRead _ => true
  | .sumWrite => true
  | _ => false

/-- A usage write whose last request has ended is over; the next one that waits starts. -/
def usageNext (p : Nat) (s : State) : State :=
  let h := hp s p
  if h.usage = 0 ∨ h.reqs.any MemReq.isUsage ∨ h.memWait.any MemReq.isUsage then s
  else
    let s1 := modHlp p (fun h => { h with usage := h.usage - 1 }) s
    if h.usage = 1 then s1 else usageBegin p s1

/-- Usage of every ACTIVE port (R227). -/
def usageAll (s : State) : State := forEach (those 16 (active s)) usageStart s

/-- Counters read from the head, the drops since added in units of 2^20, saturating, and written back. -/
def usageChunk (p addr : Nat) (data : List Byte) (s : State) : State :=
  let q0 := (addr - 0x1000) / 2
  let h := hp s p
  let new := (List.range (data.length / 2)).flatMap (fun i => leBytes 2 (satAddU 16 (fieldAt data (2 * i) 2) (h.drops.getD (q0 + i) 0 / 2 ^ 20)))
  let drops := h.drops.mapIdx (fun q d => if q0 ≤ q ∧ q < q0 + data.length / 2 then d % 2 ^ 20 else d)
  memAsk p .usageWrite 2 addr new.length new (modHlp p (fun h => { h with drops := drops }) s)

/-- Bytes placed at an offset of a list. -/
def spliceAt (l : List Byte) (o : Nat) (d : List Byte) : List Byte := l.take o ++ d ++ l.drop (o + d.length)

/-- A summary copy passes its CRC. -/
def sumValid (b : List Byte) : Bool := fieldAt b 0x7C 4 = (crc32c (slice b 0 0x7C)).toNat

/-- Both copies have been read: the older one takes the newer one's values with the usage since, and the next seq. The serial of the
device is one the spec does not state (log 5). -/
def sumEnd (p : Nat) (s : State) : State :=
  let h := hp s p
  let c0 := (vat h.sums 0).getD []
  let c1 := (vat h.sums 1).getD []
  let newer1 := sumValid c1 && (!sumValid c0 || decide (fieldAt c0 0 4 < fieldAt c1 0 4))
  let base := if newer1 then c1 else if sumValid c0 then c0 else List.replicate 128 0
  let hour := 3600 * 400000000
  let (f, s1) := drawFree s
  let body := leBytes 4 (fieldAt base 0 4 + 1) ++ leBytes 8 (fieldAt base 4 8 + h.uLines) ++ leBytes 4 (fieldAt base 0xC 4 + h.uTicks / hour) ++
    leBytes 4 (fieldAt base 0x10 4 + h.uInserts) ++ leBytes 4 (fieldAt base 0x14 4 + h.uHalts) ++ leBytes 4 f.toNat ++ leBytes 0x60 0
  let all := body ++ leBytes 4 (crc32c body).toNat
  let s2 := modHlp p (fun h => { h with uLines := 0, uTicks := h.uTicks % hour, uInserts := 0, uHalts := 0, sums := Vector.replicate 2 none }) s1
  let dst := if newer1 then 0x1F00 else if sumValid c0 then 0x1F80 else 0x1F00
  let k := min 128 (max 1 h.payload)
  forEach (List.range ((128 + k - 1) / k)) (fun i s => memAsk p .sumWrite 2 (dst + k * i) (min k (128 - k * i)) (slice all (k * i) (min k (128 - k * i))) s) s2

/-- A read of a summary copy returns. -/
def sumChunk (p c addr : Nat) (data : List Byte) (s : State) : State :=
  let s1 := modHlp p (fun h => { h with sums := vset h.sums c ((vat h.sums c).map (fun b => spliceAt b (addr - 0x1F00 - 0x80 * c) data)) }) s
  let left (m : MemReq) : Bool := match m.owner with
    | .sumRead _ => true
    | _ => false
  if (hp s1 p).reqs.any left || (hp s1 p).memWait.any left then s1 else sumEnd p s1

/-- USAGE_SUMMARY_TIMER (R227): 600 s of PRINT have passed. -/
def execUsageSummaryTimer (s : State) : Host.Outcome State Fault Refusal :=
  finish (if s.glb.state = .print then usageAll (accruePrint s) else s)

/-! ## MEM responses (R201, R221, R224, R230, R238) -/

/-- The software MEM access ends: CMD_STATUS.mem and the head's status byte; read data goes to HLP_Pn_MEMBUF (R230). -/
def softMem (p op status : Nat) (data : List Byte) (s : State) : State :=
  let o := R.HLP_Pn_CMD_STATUS p
  let s1 := setF o 23 16 status (setF o 13 12 (if status = 0 then 1 else 2) s)
  if op = 1 ∧ status = 0 then
    forEach (List.range ((data.length + 3) / 4)) (fun k s =>
      let n := min 4 (data.length - 4 * k)
      setF (R.HLP_Pn_MEMBUF p k) (8 * n - 1) 0 (fieldAt data (4 * k) n) s) s1
  else s1

/-- Readings of a zone poll. -/
def zoneReadings (data : List Byte) : List Int := (List.range (data.length / 2)).map (fun z => signed 16 (fieldAt data (2 * z) 2))

/-- The first readings after the entry to ACTIVE: the model is seeded to the reference that they give (R236, R238, R239). -/
def firstReadings (p : Nat) (raw : List Int) (s : State) : State :=
  let l := raw.mapIdx (fun z t => t + zoneOffset s p z)
  zoneSample p raw (seedModel p (modThm p (fun t => { t with tref := if l.isEmpty then t.tref else median l * 256 }) s))

/-- What a MEM response means to its request. A failed read of identification is asked again; other failed reads of the device have no
effect. -/
def memDone (p : Nat) (m : MemReq) (status : Nat) (data : List Byte) (s : State) : State :=
  match m.owner with
  | .software => softMem p m.op status data s
  | .ident =>
    if (hp s p).lstate ≠ .ident then s
    else if status ≠ 0 then memAsk p .ident 1 m.addr m.len [] s
    else
      let s1 := modHlp p (fun h => { h with mem := spliceAt h.mem m.addr data }) s
      let left (m : MemReq) : Bool := m.owner = .ident
      if (hp s1 p).reqs.any left || (hp s1 p).memWait.any left then s1 else identEnd p s1
  | .zone => if status = 0 then zoneSample p (zoneReadings data) s else s
  | .seed => if status = 0 then firstReadings p (zoneReadings data) s else s
  | .usageRead => if status = 0 then usageChunk p m.addr data s else s
  | .sumRead c => if status = 0 then sumChunk p c m.addr data s else s
  | .usageWrite => s
  | .sumWrite => s

/-- MEM_RESPONSE_RX (R201, R224): a MEM response arrives. One whose tag matches no outstanding request is discarded and counted, without
HLP_UP_ERROR, where the spec is silent (DESIGN CHOICE, log 78). -/
def execMemResponseRx (p : Fin 16) (tag status : Byte) (data : List Byte) (s : State) : Host.Outcome State Fault Refusal :=
  finish (if !active s p ∧ (hp s p).lstate ≠ .ident then s
    else match (hp s p).reqs.find? (fun m => m.tag = tag) with
      | none => incF (R.HLP_Pn_ERRCNT p) 15 8 s
      | some m =>
        let s1 := memPump 16 p (modHlp p (fun h => { h with reqs := h.reqs.filter (fun x => x.tag ≠ tag) }) s)
        usageNext p (memDone p m status.toNat (slice data 0 (if m.op = 1 then m.len else 0)) s1))

/-- MEM_RESPONSE_TIMEOUT (R221): 20 µs after it left, a MEM request has no response. A request that fails returns its credit (R224). -/
def execMemResponseTimeout (p : Fin 16) (tag : Byte) (s : State) : Host.Outcome State Fault Refusal :=
  finish (match (hp s p).reqs.find? (fun m => m.tag = tag) with
    | none => s
    | some m =>
      if m.tries < 2 then
        let s1 := modHlp p (fun h => { h with reqs := h.reqs.map (fun x => if x.tag = tag then { x with tries := x.tries + 1 } else x) }) s
        putMem p m (incF (R.HLP_Pn_ERRCNT p) 7 0 s1)
      else
        let s1 := memPump 16 p (modHlp p (fun h => { h with reqs := h.reqs.filter (fun x => x.tag ≠ tag) }) s)
        let s2 := logEvent Ev.HLP_MEM_TIMEOUT p p m.addr tag.toNat s1
        match m.owner with
        | .software => setF (R.HLP_Pn_CMD_STATUS p) 13 12 3 s2
        | .ident => if (hp s2 p).lstate = .ident then memAsk p .ident 1 m.addr m.len [] s2 else s2
        | _ => usageNext p s2)

/-! ## Head events (R231, R272) -/

/-- Scans of the port are suspended for a detector fault: 1 result 4, 2 HEVT; a block in a gap ends, to be scanned again (R272, R277). -/
def detectorFault (p why at_ : Nat) (s : State) : State :=
  logEvent Ev.NHL_DETECTOR_FAULT p p why at_ (modNhl p (fun x => { (if x.seq = 4 then x.gapOver else x) with suspended := true }) s)

/-- HEVT_RX (R231): a head reports a condition; codes 4 and 5 WARN, every other HALT. -/
def execHevtRx (p : Fin 16) (code index : Byte) (value : Word) (s : State) : Host.Outcome State Fault Refusal :=
  finish (if !active s p ∧ (hp s p).lstate ≠ .ident then s
    else
      let c := code.toNat
      let a := c * 256 + index.toNat
      if c = 4 ∨ c = 5 then
        let s1 := logEvent (Ev.HLP_HEAD_FAULT .warn) p p a value.toNat s
        if c = 4 then detectorFault p 2 0 s1 else s1
      else raise (Ev.HLP_HEAD_FAULT .halt) p p a value.toNat s)

/-! ## Port commands (R228, R230) -/

/-- HLP_Pn_CMD_STATUS of an evaluated command; a refusal raises HLP_CMD_REJECT. -/
def hlpResult (p cmd res lst : Nat) (s : State) : State :=
  let o := R.HLP_Pn_CMD_STATUS p
  let s1 := setF o 11 8 cmd (setF o 7 4 lst (setF o 3 0 res s))
  if res = 1 then s1 else logEvent Ev.HLP_CMD_REJECT p p cmd res s1

/-- A software MEM access is pending. -/
def memPending (s : State) (p : Nat) : Bool :=
  (hp s p).reqs.any (fun m => m.owner = .software) || (hp s p).memWait.any (fun m => m.owner = .software)

/-- The software MEM access starts (R230). -/
def softAsk (p op addr len : Nat) (s : State) : State :=
  let data := (List.range 64).flatMap (fun k => leBytes 4 (rd s (R.HLP_Pn_MEMBUF p k)).toNat)
  let o := R.HLP_Pn_CMD_STATUS p
  memAsk p .software op addr len (if op = 2 then slice data 0 len else []) (setF o 23 16 0 (setF o 13 12 0 s))

/-- The link-state table of R230. -/
def hlpTable (p cmd : Nat) (s : State) : Nat × State :=
  let l := (hp s p).lstate
  let addr := fld s (R.HLP_Pn_MEMADDR p) 15 0
  let len := fld s (R.HLP_Pn_MEMADDR p) 24 16
  if cmd < 1 ∨ 3 < cmd then (3, s)
  else if l = .unbound then (2, s)
  else if cmd = 1 then
    if s.bru.incomplete ∨ (s.glb.state ≠ .idle ∧ s.glb.state ≠ .safeHold) then (2, s)
    else (1, startSeries p (if l = .active then portDown p s else s))
  else if l ≠ .active then (2, s)
  else if memPending s p then (5, s)
  else if cmd = 3 ∧ (addr < 0x1800 ∨ 0x1F00 < addr + len ∨ 0x1F00 ≤ addr) then (6, s)
  else (1, softAsk p (cmd - 1) addr len s)

/-- A write of HLP_Pn_CMD (R230): gen first, then the tables. -/
def hlpCmd (p cmd gen : Nat) (s : State) : State :=
  let l := (hp s p).lstate.code
  if gen ≠ (hp s p).gen.toNat then hlpResult p cmd 4 l s
  else
    let r := hlpTable p cmd s
    hlpResult p cmd r.1 l r.2

/-- HLP_RETRAIN (R230). -/
def execHlpRetrain (p : Fin 16) (gen : BitVec 16) (s : State) : Host.Outcome State Fault Refusal :=
  finish (viaBar0 (R.HLP_Pn_CMD p) (hlpCmd p 1 gen.toNat) s)

/-- HLP_MEMRD (R230). -/
def execHlpMemrd (p : Fin 16) (gen : BitVec 16) (s : State) : Host.Outcome State Fault Refusal :=
  finish (viaBar0 (R.HLP_Pn_CMD p) (hlpCmd p 2 gen.toNat) s)

/-- HLP_MEMWR (R228, R230). -/
def execHlpMemwr (p : Fin 16) (gen : BitVec 16) (s : State) : Host.Outcome State Fault Refusal :=
  finish (viaBar0 (R.HLP_Pn_CMD p) (hlpCmd p 3 gen.toNat) s)

end Sys2Proof.Machine
end

