-- ==== Sys2Proof/Machine/Nozzle.lean ====
section
/-!
DEFINITION. Drop-detect and host results, gaps, service scans and spits, ledger grants, and the NHL commands
(spec/08_nozzle_health.md R270 to R289; spec/07_thermal_energy.md R252 to R254).
-/
namespace Sys2Proof.Machine

/-! ## Results (R271 to R273) -/

/-- NHL_HOSTCNT.bad counts a discarded result. -/
def resultBad (s : State) : State := incF R.NHL_HOSTCNT 31 16 s

/-- One entry of a TELE frame of kind 1 (R271, R272): nozzle [11:0], row [14:12], result [19:16]. A reserved result is discarded. -/
def headResult (p : Nat) (e : Word) (s : State) : State :=
  let i := bits e 11 0
  let r := bits e 14 12
  let res := bits e 19 16
  if !nozzleExists s p r i ∨ 4 < res then resultBad s
  else if res = 4 then detectorFault p 1 (r * 65536 + i) s
  else applyResult p r i res 1 1 s

/-- The host's result word (R273). -/
def hostResult (w : Word) (s : State) : State :=
  if s.glb.state.code < 5 then s
  else
    let i := bits w 11 0
    let r := bits w 14 12
    let res := bits w 19 16
    let p := bits w 23 20
    if !active s p ∨ !nozzleExists s p r i ∨ 3 < res ∨ bits w 15 15 = 1 ∨ bits w 31 28 ≠ 0 then
      let s1 := resultBad s
      if mayRaise s1 s1.hostresAt then
        logEvent Ev.NHL_HOSTRES_BAD 0xFF w.toNat 0 (fld s1 R.NHL_HOSTCNT 31 16) { s1 with hostresAt := some s1.now }
      else s1
    else
      let wt := bits w 27 24
      let n := if wt = 0 then fld s (R.NHL_Pn_WCONF p) 15 12 else wt
      serviceCheck p (incF R.NHL_HOSTCNT 15 0 (applyResult p r i res 2 n s))

/-- NHL_HOSTRES_WRITE (R273). -/
def execNhlHostresWrite (value : Word) (s : State) : Host.Outcome State Fault Refusal :=
  finish (viaBar0 R.NHL_HOSTRES (hostResult value) s)

/-! ## Service sequences (R274, R275, R284, R285) -/

/-- A sequence asks for its grant: 2 scan, 3 spit; a refused request drops it (R254, R285). -/
def svcStart (p want : Nat) (s : State) : State :=
  let mw := (rd s (R.NHL_Pn_SVCMW p)).toNat
  let r := ledgerRequest 1 p mw s
  if r.1.glb.state ≠ .armed then ledgerRelease 1 p r.1
  else if r.2 then modNhl p (fun x => { x with seq := 1, want := want, sentLines := 0, fired := 0, awaiting := 0 }) r.1
  else logEvent Ev.NHL_LEDGER_DENIED p p (want - 1) mw r.1

/-- The port has no sequence, and an item may start in ARMED. -/
def svcFree (s : State) (p : Nat) : Bool := s.glb.state = .armed && active s p && (nh s p).seq = 0

/-- A pending item starts in ARMED, a spit ahead of a scan, which follows a spit that was refused too (R285, R286). -/
def svcPending (p : Nat) (s : State) : State :=
  let s1 := if svcFree s p && (nh s p).pendSpit then
      svcStart p 3 (modNhl p (fun x => { x with pendSpit := false, spitFrom := none, req3 := false }) s)
    else s
  if svcFree s1 p && (nh s1 p).pendScan && !(nh s1 p).suspended then svcStart p 2 (modNhl p (fun x => { x with pendScan := false }) s1) else s1

/-- A granted sequence begins: a spit with its first line, a scan with the DDSCAN of the block at SCANPOS, from which it visits every
present row once (R274, R275). A scan whose port is suspended waits with its grant (R272; log 62). -/
def svcGranted (p : Nat) (s0 : State) : State :=
  let x := nh s0 p
  if x.seq = 1 ∧ granted s0 1 p ∧ !(x.want = 2 && x.suspended) then
    let s := modNhl p (fun x => { x with sentLines := 0, fired := 0, svcAt := 0, svcPer := fld s0 (R.NHL_Pn_SVC p) 15 0 }) s0
    if x.want = 2 then
      let rows := match portPipe s p with
        | some d => (rowsOf s d).length
        | none => 1
      sendDdscan p (modNhl p (fun x => { x with seq := 2, rowsLeft := rows, fromNozzle := x.nozzle }) (scanRow p s))
    else latchSpit p (modNhl p (fun x => { x with seq := 3 }) s)
  else s0

/-- The sequence has sent and fired its last line: the grant is released and NHL_SEQ_DONE raised (R285); print lines go to the head again. -/
def svcEnd (p : Nat) (s : State) : State :=
  let x := nh s p
  let s1 := ledgerRelease 1 p (modNhl p (fun x => { x with seq := 0, want := 0, sentLines := 0, awaiting := 0 }) s)
  svcPending p (portPump 8 p (logEvent Ev.NHL_SEQ_DONE p p (x.seq - 1) x.fired s1))

/-- A scan block is over: SCANPOS advances; a gap scan ends with its block, a service scan goes on with the next block, or ends when it is
back where it began (R274, R275). While scans are suspended no further block begins (R272; log 62). -/
def blockDone (p : Nat) (s : State) : State :=
  let old := nh s p
  let s1 := scanAdvance p (modNhl p (fun x => { x with sentLines := 0, awaiting := 0, gapFired := 0 }) s)
  if old.seq = 2 then
    let x := nh s1 p
    let wrapped : Bool := x.nozzle = 0
    let left := x.rowsLeft - b2n wrapped
    let s2 := modNhl p (fun x => { x with rowsLeft := left }) s1
    if left = 0 ∧ (x.fromNozzle ≤ x.nozzle ∨ (wrapped ∧ x.rowsLeft = 0)) then svcEnd p s2
    else if x.suspended then s2
    else sendDdscan p s2
  else modNhl p (fun x => { x with seq := 0, began := false }) s1

/-- Every scan line of the present block has been sent (service) or has fired (gap). -/
def blockSent (s : State) (p : Nat) : Bool :=
  let x := nh s p
  (x.seq = 2 && x.ending = 0 && decide (scanLines s p ≤ x.sentLines)) || (x.seq = 4 && decide (scanLines s p ≤ x.gapFired))

/-- An entry of a TELE frame of kind 1 names a nozzle of the present block (R274, R275). -/
def inBlock (s : State) (p : Nat) (e : Word) : Bool :=
  let x := nh s p
  bits e 14 12 = x.row && decide (x.nozzle ≤ bits e 11 0) && decide (bits e 11 0 < x.nozzle + scanBlock s p)

/-- TELE_KIND1_RX (R271, R275): a TELE frame of kind 1 arrives with its entries of four bytes each; those of the present block count towards
its end. -/
def execTeleKind1Rx (p : Fin 16) (entries : List Word) (s : State) : Host.Outcome State Fault Refusal :=
  finish (if !active s p then s
    else
      let s1 := entries.foldl (fun s e => serviceCheck p (headResult p e s)) s
      let s2 := modNhl p (fun x => { x with awaiting := x.awaiting - (entries.filter (inBlock s p)).length }) s1
      if (nh s2 p).awaiting = 0 ∧ blockSent s2 p then blockDone p s2 else s2)

/-- SCAN_BLOCK_TIMEOUT (R275): 100 µs have passed since the last scan line of the block. A gap block of which a line did not fire is
scanned again (R277). -/
def execScanBlockTimeout (p : Fin 16) (s : State) : Host.Outcome State Fault Refusal :=
  finish (if blockSent s p then blockDone p s
    else if (nh s p).seq = 4 then modNhl p Nhl.gapOver s
    else s)

/-- The next service line goes to the head (R285). It is numbered after the lines its pipe holds, so that no tag stands twice. -/
def svcLine (p : Nat) (s : State) : State :=
  let x := nh s p
  let k := match portPipe s p with
    | some d => ((dp s d).a + x.sentLines) % 2 ^ 32
    | none => x.sentLines
  let rows := portRows s p
  let codes := (List.range 8).map (fun r =>
    if !bitOf rows.toNat r then []
    else if x.seq = 3 then spitCodes s p r x.sentLines
    else if r = x.row then scanCodes s p x.sentLines
    else List.replicate (hp s p).cols 0)
  let r := decideLine p (newLine s p k .service (x.seq = 2) 0 rows codes) s
  portPump 8 p (modHlp p (fun h => { h with lines := h.lines ++ [r.2] })
    (modNhl p (fun x => { x with sentLines := x.sentLines + 1 }) r.1))

/-- A service line of the port has not ended. -/
def svcOpen (s : State) (p : Nat) : Bool := (hp s p).lines.any (fun l => l.kind = .service && !l.skipped && (!l.launched || l.inWindow))

/-- SERVICE_LINE_TIMER (R285): the service period has passed: the next line of the sequence, or its end. -/
def execServiceLineTimer (p : Fin 16) (s : State) : Host.Outcome State Fault Refusal :=
  finish (let x := nh s p
    if x.ending ≠ 0 then s
    else if x.seq = 2 then (if x.suspended then s else if x.sentLines < scanLines s p then svcLine p (fireService p s) else fireService p s)
    else if x.seq = 3 then
      if x.sentLines < spitLines s p then svcLine p (fireService p s)
      else if svcOpen s p then fireService p s
      else svcEnd p s
    else s)

/-- AUTO_SPIT_TIMER (R285, R287): per ms after the end of the last spit. In PRINT the spit stays pending; one that has been pending for a
further per ms asks for service. The count of that event is not stated (log 5). -/
def execAutoSpitTimer (p : Fin 16) (s : State) : Host.Outcome State Fault Refusal :=
  finish (let x := nh s p
    if fld s (R.NHL_Pn_SPIT p) 31 16 = 0 ∨ !active s p then s
    else if s.glb.state = .armed then svcPending p (modNhl p (fun x => { x with pendSpit := true }) s)
    else if s.glb.state = .print then
      if x.pendSpit then
        let late := match x.spitFrom with
          | some t => decide (t + fld s (R.NHL_Pn_SPIT p) 31 16 * 400000 ≤ s.now)
          | none => false
        if late && !x.req3 then
          let (f, s1) := drawFree s
          logEvent Ev.NHL_SERVICE_REQ p p 3 f.toNat (modNhl p (fun x => { x with req3 := true }) s1)
        else s
      else modNhl p (fun x => { x with pendSpit := true, spitFrom := some s.now }) s
    else s)

/-! ## The ledger (R252, R253) -/

/-- LEDGER_GRANT (R252): the waiting requests are evaluated; a granted service sequence begins. -/
def execLedgerGrant (s : State) : Host.Outcome State Fault Refusal :=
  finish (forEach (List.range 16) svcGranted (ledgerEval 64 (ledgerInvar s)))

/-! ## Gaps (R276) -/

/-- A write of NHL_Pn_GAPLEN; a non-zero one declares a gap. -/
def gapWrite (p len : Nat) (s : State) : State :=
  let s1 := setF (R.NHL_Pn_GAPLEN p) 15 0 len s
  if len % 65536 = 0 then s1
  else
    let from_ := match portPipe s1 p with
      | some d => (dp s1 d).a
      | none => 0
    modNhl p (fun x => { x with gap := some ((rd s1 (R.NHL_Pn_GAPLINE p)).toNat, len % 65536, from_) }) s1

/-- NHL_GAP_DECLARE (R276). -/
def execNhlGapDeclare (p : Fin 16) (len : BitVec 16) (s : State) : Host.Outcome State Fault Refusal :=
  finish (viaBar0 (R.NHL_Pn_GAPLEN p) (gapWrite p len.toNat) s)

/-! ## Commands (R282, R283, R286, R288) -/

/-- Every auto entry of the port is freed, and under policy auto entries are built for the nozzles that are out (R281, R282). -/
def rebuildSubs (p : Nat) (s : State) : State :=
  if fld s (R.NHL_Pn_POLICY p) 3 3 = 0 then s
  else
    let auto (j : Nat) : Bool := fld s (subOff (1024 * p + j)) 0 0 = 1 && fld s (subOff (1024 * p + j)) 28 28 = 1
    let named := (healthList s p).filter (fun x => heSub x.2.2 && fld s (subOff (heIdx x.2.2)) 28 28 = 1)
    let s1 := forEach (those 1024 auto) (fun j s => setF (subOff (1024 * p + j)) 0 0 0 s) (modNhl p (fun x => { x with full := false }) s)
    let s2 := named.foldl (fun s x => setF (healthOff s p x.1 x.2.1) 14 14 0 s) s1
    (outList s2 p).foldl (fun s x => if heSub x.2.2 then s else buildSub p x.1 x.2.1 s) s2

/-- ABORT: a service sequence ends, pending items are cleared, a gap sequence ends (R286, R288). -/
def svcAbortCmd (p : Nat) (s : State) : State :=
  modNhl p (fun x => { x.gapOver with pendScan := false, pendSpit := false, spitFrom := none, req3 := false }) (portPump 8 p (svcAbort p 1 s))

/-- The table of R288 for an ACTIVE or bound port. -/
def nhlTable (p cmd : Nat) (s : State) : Nat × State :=
  let x := nh s p
  let running := x.seq = 1 ∨ x.seq = 2 ∨ x.seq = 3
  let st := s.glb.state
  if cmd < 1 ∨ 5 < cmd then (3, s)
  else if st.code < 5 ∨ st = .shutdown ∨ !portBound s p then (2, s)
  else if !active s p ∧ (cmd = 1 ∨ cmd = 2 ∨ cmd = 4) then (2, s)
  else match cmd with
  | 1 =>
    if !bitOf ((hp s p).f 0x20 4) 0 then (2, s)
    else if st = .armed then
      if running then (5, s) else (1, svcStart p 2 (modNhl p (fun x => { x with suspended := false }) s))
    else if st = .print then (1, modNhl p (fun x => { x with suspended := false, pendScan := true }) s)
    else (2, s)
  | 2 =>
    if st = .armed then (if running then (5, s) else (1, svcStart p 3 s))
    else if st = .print then (1, modNhl p (fun x => { x with pendSpit := true, spitFrom := x.spitFrom.or (some s.now) }) s)
    else (2, s)
  | 3 => (1, svcAbortCmd p s)
  | 4 => (1, rebuildSubs p s)
  | _ =>
    if st = .print ∨ st = .stopping then (2, s)
    else if st = .armed ∧ running then (5, s)
    else (1, healthClear p s)

/-- A write of NHL_Pn_CMD (R288): gen first, then the table. -/
def nhlCmd (p cmd gen : Nat) (s : State) : State :=
  let st := gnum s
  let r := if gen ≠ (hp s p).gen.toNat then (4, s) else nhlTable p cmd s
  let s1 := wr (R.NHL_Pn_CMD_STATUS p) (BitVec.ofNat 32 (r.1 + 16 * st + 256 * cmd)) r.2
  if r.1 = 1 then s1 else logEvent Ev.NHL_CMD_REJECT p p cmd r.1 s1

/-- NHL_SCAN (R288). -/
def execNhlScan (p : Fin 16) (gen : BitVec 16) (s : State) : Host.Outcome State Fault Refusal :=
  finish (viaBar0 (R.NHL_Pn_CMD p) (nhlCmd p 1 gen.toNat) s)

/-- NHL_SPIT (R288). -/
def execNhlSpit (p : Fin 16) (gen : BitVec 16) (s : State) : Host.Outcome State Fault Refusal :=
  finish (viaBar0 (R.NHL_Pn_CMD p) (nhlCmd p 2 gen.toNat) s)

/-- NHL_ABORT (R286, R288). -/
def execNhlAbort (p : Fin 16) (gen : BitVec 16) (s : State) : Host.Outcome State Fault Refusal :=
  finish (viaBar0 (R.NHL_Pn_CMD p) (nhlCmd p 3 gen.toNat) s)

/-- NHL_REBUILD (R282, R288). -/
def execNhlRebuild (p : Fin 16) (gen : BitVec 16) (s : State) : Host.Outcome State Fault Refusal :=
  finish (viaBar0 (R.NHL_Pn_CMD p) (nhlCmd p 4 gen.toNat) s)

/-- NHL_CLEAR (R283, R288). -/
def execNhlClear (p : Fin 16) (gen : BitVec 16) (s : State) : Host.Outcome State Fault Refusal :=
  finish (viaBar0 (R.NHL_Pn_CMD p) (nhlCmd p 5 gen.toNat) s)

/-! ## Software writes of the tables (R268, R270, R282) -/

/-- A write of health entry `index` (R270): under policy auto a nozzle that stops being out loses its auto entry, and one that becomes out
gets one (R281, R282). Bits 15, 30 and 31 stay 0 (R6). -/
def healthWrite (index : Nat) (v : Word) (s : State) : State :=
  let p := index / 16384
  let cols := max 1 (hp s p).cols
  let r := index % 16384 / cols
  let i := index % 16384 % cols
  let o := R.TBL_HEALTH + 4 * index
  let old := rd s o
  let v := v &&& 0x3FFF7FFF
  let auto : Bool := fld s (R.NHL_Pn_POLICY p) 3 3 = 1
  let s1 := wr o v s
  let s2 := if !auto then s1
    else if heOut s old && !heOut s v then
      (if heSub old && fld s1 (subOff (heIdx old)) 28 28 = 1 then
        modNhl p (fun x => { x with full := false }) (setF o 14 14 0 (setF (subOff (heIdx old)) 0 0 0 s1)) else s1)
    else if !heOut s old && heOut s v then buildSub p r i s1
    else s1
  serviceCheck p s2

/-- A write of NHL_CFG: a change of weak_fail makes WEAK nozzles out or lets them return (R266, R281, R282, R287). -/
def nhlCfgWrite (v : Word) (s : State) : State :=
  let old := fld s R.NHL_CFG 1 1
  let s1 := wr R.NHL_CFG v s
  if fld s1 R.NHL_CFG 1 1 = old then s1
  else forEach (List.range 16) (fun p s =>
    serviceCheck p (((healthList s p).filter (fun x => heState x.2.2 = 3)).foldl (fun s x => outChanged p x.1 x.2.1 (old = 1) s) s)) s1

end Sys2Proof.Machine
end

