-- ==== Sys2Proof/Machine/Scanning.lean ====
section
/-!
DEFINITION. The scanning unit: jobs, the end of a sweep, feeds, the turnaround and the SCN commands (spec/09_scanning.md R298 to
R309).
-/
namespace Sys2Proof.Machine

/-! ## Feeds (R300) -/

/-- The transport's position, counts of transport_pc. -/
def trCount (s : State) : Nat := ipart (pch s (trPc s)).pos

/-- The feed target y0 + rnd(acc, 8). -/
def feedTarget (s : State) : Nat := narrow 32 ((s.scn.y0 : Int) + rnd s.scn.acc 8)

/-- The transport is commanded to the feed target. -/
def feedMove (s0 : State) : State :=
  let s := useSoft (trKind s0) (trIndex s0) s0
  let t := ssTarget s (feedTarget s * 65536)
  if unitPosition s (trKind s) (trIndex s) = t ∧ trAtRest s then modScn (fun x => { x with fed := true }) s
  else (unitMove (trKind s) (trIndex s) t (modScn (fun x => { x with fed := false }) s)).2

/-- The entry's feed joins the sum and is commanded (R300). -/
def feedAdd (s : State) : State := feedMove (modScn (fun x => { x with acc := x.acc + x.cur.feed, ended := true }) s)

/-! ## The carriage (R298) -/

/-- The carriage's position, counts of carriage_pc. -/
def caCount (s : State) : Nat := ipart (pch s (caPc s)).pos

/-- The start of the pending sweep: that of the sweep, or for a restart the one taken from P(k) of each generator (R296, R304). -/
def pendingStart (s : State) : Nat :=
  let w := s.scn.cur
  if s.scn.restart then farther (!w.rev) ((scnGens s).map (fun g => startFrom s w.rev (genTarget s g (lt s g).k))) else sweepStart s w

/-- The carriage lies short of the start of the pending sweep. -/
def shortOfStart (s : State) : Bool :=
  let d := diff32 (caCount s) (pendingStart s)
  s.scn.cur.w ≠ 0 && (if s.scn.cur.rev then d < 0 else 0 < d)

/-- At a turnaround: once the carriage is at rest, the return stroke when it lies short of the start, else the dwell begins. -/
def turnRest (s : State) : State :=
  if !caAtRest s then modScn (fun x => { x with stroke := false, restAt := none }) s
  else if shortOfStart s then caMove (pendingStart s) (modScn (fun x => { x with stroke := true, restAt := none }) s)
  else modScn (fun x => { x with stroke := false, restAt := x.restAt.or (some s.now) }) s

/-! ## The pending sweep (R298, R299, R301, R306) -/

/-- The job ends with the present sweep. -/
def endsJob (s : State) : Bool := s.scn.last || (nextEntry s s.scn.cur).isNone

/-- A sweep becomes the pending one; its first trigger stands in SCN_RESUME. -/
def pendSweep (w : Sweep) (s : State) : State :=
  let s1 := modScn (fun x => { x with cur := w, nxt := none, restart := false, ended := false, begun := false, lateTurn := false,
                                      dwellMax := false }) s
  let k := match (scnGens s1).head? with
    | some g => sweepKf s1 g w
    | none => w.b
  wr R.SCN_RESUME (BitVec.ofNat 32 k) s1

/-- The last sweep of the job is over and counted: the unit waits for the feed, then the job is DONE (R300). -/
def jobWaits (s : State) : Bool := s.scn.ended && !s.scn.begun

/-- The job ends once the feed is complete. -/
def jobEnd (s : State) : State :=
  modScn (fun x => { x with st := if x.fed then .done else .sweep, last := true, nxt := none, begun := false, restart := false,
                            restAt := x.restAt.or (some s.now) }) s

/-- The sweep, if the entry has one, is over and its feed commanded: the next entry becomes pending; with none left the unit waits for the
feed and ends the job (R299, R301). -/
def turnAdvance (s : State) : State :=
  let s1 := if s.scn.cur.w = 0 then s else incF R.SCN_STAT 31 16 s
  if endsJob s1 then jobEnd s1
  else
    match s1.scn.nxt with
    | some w => turnRest (pendSweep w s1)
    | none =>
      let s2 := sweepSetup (modScn (fun x => { x with begun := false }) s1)
      match s2.scn.nxt with
      | some w => turnRest (pendSweep w s2)
      | none => jobEnd s2

/-- Every trigger of the present sweep has been committed, on every generator. -/
def sweepOver (s : State) : Bool := (scnGens s).all (fun g => decide (0 < lineDiff (lt s g).k (sweepKl s g s.scn.cur)))

/-- No print line of a scanning pipe is left to launch or in its window. -/
def slotsEnded (s : State) : Bool :=
  (ssPipes s).all (fun d => (hp s (pipePort s d)).lines.all (fun l => l.kind ≠ .print || (l.launched && !l.inWindow)))

/-! ## Gates (R302) -/

/-- The data gate. -/
def dataGate (s : State) : Bool :=
  let w := s.scn.cur
  let fill := if fld s R.SCN_CFG 31 16 = 0 then w.w else fld s R.SCN_CFG 31 16
  (ssPipes s).all (fun d =>
    let n0 := if s.scn.restart then (dp s d).next else w.b
    let a := (w.b + w.w) % 2 ^ 32
    let b := (n0 + fill) % 2 ^ 32
    decide (0 ≤ lineDiff (dp s d).wline (if lineDiff a b ≤ 0 then a else b)))

/-- The heads have cooled to tdwell. -/
def cooled (s : State) : Bool :=
  (ssPipes s).all (fun d => (th s (pipePort s d)).tzmax ≤ fldS s R.SCN_DWELL 15 0)

/-- The dwell gate: dwell_min, and the heads cooled or dwell_max ended. -/
def dwellGate (s : State) : Bool :=
  match s.scn.restAt with
  | some t => decide (t + 40000 * s.scn.cur.dwell ≤ s.now) && (cooled s || s.scn.dwellMax)
  | none => false

/-- One evaluation at a turnaround: a wait on data and a dwell ended by dwell_max are counted once each. -/
def turnEval (s0 : State) : State :=
  let s := useInvar [R.SCN_DWELL] s0
  match s.scn.st, s.scn.restAt with
  | .turn, some t =>
    let s1 := if !dataGate s && !s.scn.lateTurn && s.scn.cur.w ≠ 0 then
        incF R.SCN_STAT2 7 0 (modScn (fun x => { x with lateTurn := true }) s)
      else s
    if t + 400000 * fld s1 R.SCN_DWELL 31 16 ≤ s1.now ∧ !cooled s1 ∧ !s1.scn.dwellMax then
      incF R.SCN_STAT2 15 8 (modScn (fun x => { x with dwellMax := true }) s1)
    else s1
  | _, _ => s

/-- Every gate of R302 holds. -/
def turnReady (s : State) : Bool :=
  s.scn.st = .turn && !s.scn.stroke && caAtRest s && s.scn.fed && dataGate s && dwellGate s && s.glb.state = .print

/-! ## The commands of the cycle -/

/-- SWEEP_LAST_SLOT_END (R300): the last slot of the sweep has ended; its feed is added and the transport commanded. In HELD the feed
target is kept, and the move made at the next entry to PRINT (R305). -/
def execSweepLastSlotEnd (s : State) : Host.Outcome State Fault Refusal :=
  finish (if s.scn.ended ∨ !s.scn.begun ∨ !sweepOver s ∨ !slotsEnded s then s
    else match s.scn.st with
    | .sweep => if s.scn.restart then s else feedAdd s
    | .turn => if s.scn.restart then s else turnAdvance (feedAdd s)
    | .held => modScn (fun x => { x with acc := x.acc + x.cur.feed, ended := true, fed := false }) s
    | _ => s)

/-- CARRIAGE_AT_REST (R302): the carriage comes to rest. At the end of a sweep's move the unit enters TURN and the turn signal rises; a
stopped sweep is pending again (R304). -/
def execCarriageAtRest (s : State) : Host.Outcome State Fault Refusal :=
  finish (if !caAtRest s then s
    else match s.scn.st with
    | .sweep =>
      if s.scn.restAt.isSome then s
      else
        let sig := if fld s R.SCN_SIG 15 15 = 1 then raiseSig (fld s R.SCN_SIG 13 8) 1 s else s
        let s1 := modScn (fun x => { x with restAt := some s.now }) sig
        if s1.scn.restart then turnEval (turnRest (modScn (fun x => { x with st := .turn }) s1))
        else if s1.scn.ended then turnEval (turnAdvance (modScn (fun x => { x with st := .turn }) s1))
        else modScn (fun x => { x with st := .turn }) s1
    | .turn =>
      if s.scn.stroke then turnEval (modScn (fun x => { x with stroke := false, restAt := some s.now }) s)
      else if s.scn.restAt.isNone then turnEval (turnRest s)
      else s
    | _ => s)

/-- FEED_COMPLETE (R302): the transport has reached the feed target; a job whose last feed this was is DONE. -/
def execFeedComplete (s : State) : Host.Outcome State Fault Refusal :=
  finish (if s.scn.fed ∨ !trAtRest s ∨ s.scn.st = .held then s
    else
      let s1 := modScn (fun x => { x with fed := true }) s
      if s1.scn.st = .sweep ∧ jobWaits s1 then modScn (fun x => { x with st := .done }) s1
      else turnEval s1)

/-- DWELL_TIMER (R302): dwell_min or dwell_max has passed since the carriage came to rest. -/
def execDwellTimer (s : State) : Host.Outcome State Fault Refusal := finish (turnEval s)

/-- The first line that generator `g` has still to fire in a restart: the earliest NEXT of its pipes (R304). -/
def restartFirst (s : State) (g : Nat) : Nat :=
  match (ltPipes s g).map (fun d => (dp s d).next) with
  | [] => (lt s g).k
  | x :: r => r.foldl (fun m y => if lineDiff y m < 0 then y else m) x

/-- A pipe of a stopped sweep: the lines sent but not fired are assembled and sent again, and a gap sequence of which one has not fired starts
over (R136, R277, R304). -/
def pipeRestart (d : Nat) (s : State) : State :=
  if (dp s d).st = .hold then modDot d rewindPipe (gapRedo (pipePort s d) (sendCancel (pipePort s d) s)) else s

/-- The generators take the origin of the pending sweep; for a new sweep they and their pipes begin at its first trigger, for a restart at
their first unfired line (R292, R296, R304). -/
def loadSweep (s : State) : State :=
  let w := s.scn.cur
  let re := s.scn.restart
  let s1 := forEach (scnGens s) (fun g s =>
    let kf := sweepKf s g w
    let k := if re then restartFirst s g else kf
    modGen g (fun x => { x with org := sweepOrg s g w, orgline := kf, rev := w.rev, hw := (pch s (ltSource s g)).pos, k := k,
                                since := false, top := none, delayed := [] }) s) s
  if re then forEach (ssPipes s1) pipeRestart s1
  else forEach (ssPipes s1) (fun d s => pipeSweep d w s) s1

/-- The pending sweep starts: origins, the move, and the first lines (step 7 of the turnaround). A feed-only entry only feeds. -/
def sweepGo (s : State) : State :=
  if s.scn.cur.w = 0 then turnEval (turnAdvance (feedAdd s))
  else
    let s1 := if s.scn.restart then incF R.SCN_STAT2 23 16 s else s
    let s2 := modScn (fun x => { x with st := .sweep, restart := false, stop := false, ended := false, restAt := none, lateTurn := false,
                                        dwellMax := false }) (loadSweep s1)
    let s3 := caMove (sweepEnd s2) s2
    forEach (ssPipes s3) pumpPipe s3

/-- TURNAROUND_GO (R302): every gate holds, and the move of the next sweep starts; while a gate is open the turnaround waits. -/
def execTurnaroundGo (s : State) : Host.Outcome State Fault Refusal :=
  finish (let s1 := turnEval s
    if turnReady s1 then sweepGo s1 else s1)

/-- At the entry to PRINT READY and HELD enter TURN: the feed goes on to its target, and a stopped sweep is pending again from its first
line not fired. One whose triggers have all been committed is over (R305). -/
def scnPrint (s : State) : State :=
  if !scanning s ∨ (s.scn.st ≠ .ready ∧ s.scn.st ≠ .held) then s
  else
    let s1 := modScn (fun x => { x with st := .turn, stroke := false, restAt := none, dwellMax := false, lateTurn := false }) s
    if jobWaits s1 then jobEnd (feedMove s1)
    else if s1.scn.begun ∧ sweepOver s1 then
      let s2 := modScn (fun x => { x with restart := false }) s1
      if s2.scn.ended then turnAdvance (feedMove s2)
      else if slotsEnded s2 then turnAdvance (feedAdd s2)
      else s2
    else
      let s2 := if s.scn.st = .held then feedMove s1 else s1
      let s3 := match s2.scn.restart, (scnGens s2).head? with
        | true, some g => wr R.SCN_RESUME (BitVec.ofNat 32 (restartFirst s2 g)) s2
        | _, _ => s2
      turnRest s3

/-! ## Commands (R306, R307) -/

/-- The entries on the chain from an entry, to an end entry or the first revisited one (R306). -/
def chain (s : State) : Nat → Nat → List Nat → List Nat
  | 0, _, acc => acc.reverse
  | n + 1, e, acc =>
    if acc.contains e then acc.reverse
    else
      match nextEntry s (feedEntry s e 0) with
      | some x => chain s n x (e :: acc)
      | none => (e :: acc).reverse

/-- R291 on a generator. -/
def sameSpan (s : State) (g : Nat) : Bool :=
  (ltPipes s g).all (fun d => dMin s d = genDmin s g && dMax s d = genDmax s g)

/-- The first failing check of SETJOB, with the failing entry (R306). -/
def jobCheck (s : State) : Option (Nat × Nat) :=
  let e0 := fld s R.SCN_JOB 7 0
  let l := chain s 257 e0 []
  if rd s R.SCN_SPEED = 0 ∨ rd s R.SCN_RUNUP = 0 ∨ rd s R.SCN_RUNOUT = 0 then some (1, 0)
  else if !(scnGens s).all (sameSpan s) then some (2, 0)
  else match l.find? (fun e => !feedOk s e) with
    | some e => some (3, e)
    | none => (l.find? (fun e => !fillFits s e)).map (fun e => (4, e))

/-- The job is loaded (R300, R306); pipes in READY prepare its first lines (R127). -/
def loadJob (s : State) : State :=
  let w := feedEntry s (fld s R.SCN_JOB 7 0) (rd s R.SCN_JOBLINE).toNat
  let s1 := setF R.SCN_STAT 31 16 0 { s with scn := { Scn.reset with st := .ready, y0 := trCount s } }
  let s2 := pendSweep w s1
  forEach (ssPipes s2) (fun d s => if (dp s d).st = .ready then pumpReady d (pipeAnew d s) else s) s2

/-- The unit's state as SCN_STAT shows it. -/
def ScnSt.code : ScnSt → Nat
  | .nojob => 1
  | .ready => 2
  | .turn => 3
  | .sweep => 4
  | .held => 5
  | .done => 6
def scnCode (s : State) : Nat := if scanning s then s.scn.st.code else 0

/-- ENDJOB in TURN: the pending entry is the last one: the one set up, until the finished sweep makes it the present one (R307). -/
def lastPending (x : Scn) : Scn :=
  match x.restart, x.nxt with
  | false, some w => { x with nxt := some { w with next := 2 } }
  | _, _ => { x with last := true, nxt := none }

/-- The table of R307: result, detail, entry, next state. -/
def scnTable (cmd : Nat) (s : State) : Nat × Nat × Nat × State :=
  let quiet := s.glb.state = .idle || s.glb.state = .armed
  if cmd ≠ 1 ∧ cmd ≠ 2 then (3, 0, 0, s)
  else if !scanning s then (2, 0, 0, s)
  else if cmd = 1 then
    if s.scn.st = .turn ∨ s.scn.st = .sweep ∨ !quiet then (2, 0, 0, s)
    else
      match jobCheck s with
      | some (c, e) => (4, c, e, s)
      | none => (1, 0, 0, loadJob s)
  else
    match s.scn.st with
    | .ready => (1, 0, 0, modScn (fun x => { x with st := .nojob }) s)
    | .turn => (1, 0, 0, modScn lastPending s)
    | .sweep => (1, 0, 0, modScn (fun x => { x with last := true, nxt := none }) s)
    | .held => (1, 0, 0, modScn (fun x => { x with st := .done, restart := false }) s)
    | _ => (1, 0, 0, s)

/-- A write of SCN_CMD. -/
def scnCmd (cmd : Nat) (s : State) : State :=
  let st := scnCode s
  let r := scnTable cmd s
  let s1 := wr R.SCN_CMD_STATUS (BitVec.ofNat 32 (r.1 + 16 * st + 256 * cmd + 4096 * r.2.1 + 65536 * r.2.2.1)) r.2.2.2
  if r.1 = 1 then s1 else logEvent Ev.DOT_CMD_REJECT 0xFF 0xFF cmd r.1 s1

/-- SCN_SETJOB (R306, R307). -/
def execScnSetjob (s : State) : Host.Outcome State Fault Refusal := finish (viaBar0 R.SCN_CMD (scnCmd 1) s)

/-- SCN_ENDJOB (R307). -/
def execScnEndjob (s : State) : Host.Outcome State Fault Refusal := finish (viaBar0 R.SCN_CMD (scnCmd 2) s)

end Sys2Proof.Machine
end

