-- ==== Sys2Proof/Machine/Encoder.lean ====
section
/-!
DEFINITION. Encoder edges and sin/cos samples, with the triggers that they carry (spec/10_position.md R310 to R318;
spec/05_firing.md R145, R150).
-/
namespace Sys2Proof.Machine

/-! ## Quadrature (R310 to R313) -/

/-- Place of a pair of levels in the order that counts up while A leads B: 00, 10, 11, 01. -/
def grayPlace (a b : Bool) : Nat := if a then (if b then 2 else 1) else (if b then 3 else 0)

/-- New levels of A and B at channel `n` (R311): one changed level is one count, both at once an illegal transition. -/
def quadSample (n : Nat) (a b : Bool) (s : State) : State :=
  let old := vat s.enc n
  let s1 := { s with enc := vset s.enc n (a, b) }
  if pcUnused s n ∨ pcSinCos s n then s1
  else
    match (grayPlace a b + 4 - grayPlace old.1 old.2) % 4 with
    | 0 => s1
    | 2 => inputFault n true s1
    | d => reactiveGens n (quadEdge n ((d = 1) ≠ pcReverse s n) s1)

/-- ENCODER_EDGE (R311): the levels that A and B of a channel take in one sample. -/
def execEncoderEdge (n : Fin 8) (a b : Bool) (s : State) : Host.Outcome State Fault Refusal := finish (quadSample n a b s)

/-! ## Sin/cos (R315 to R318) -/

/-- POS_SIGNAL_LOST is of severity HALT for a channel that motion or printing follows (R318). -/
def signalHalts (s : State) (n : Nat) : Bool :=
  (trKind s ≠ 0 && trPc s = n) || (caKind s ≠ 0 && caPc s = n) ||
  (List.range 16).any (fun g => ltBound s g && (ltSource s g = n || ltSup s g = n)) ||
  (List.range 8).any (fun i => axUsed s i && axEncPc s i = n) ||
  (List.range 4).any (fun i => moMode s i ≠ 0 && moEncPc s i = n)

/-- The corrected sine and cosine of R316. -/
def scSine (s : State) (n : Nat) (xs : BitVec 12) : Int := xs.toInt - signed 8 (fld s (R.POS_PCn_SCCAL n) 7 0)
def scCosine (s : State) (n : Nat) (xc : BitVec 12) : Int :=
  signed 16 (narrow 16 (shr ((xc.toInt - signed 8 (fld s (R.POS_PCn_SCCAL n) 15 8)) * fld s (R.POS_PCn_SCCAL n) 28 16) 12))

/-- What makes a sample invalid: 1 low, 2 high, 3 phase step; 0 for a valid one (R316). -/
def scBad (s : State) (n amp2 : Nat) (d : Int) : Nat :=
  if amp2 < fld s (R.POS_PCn_SCWIN n) 7 0 * 2 ^ 14 then 1
  else if fld s (R.POS_PCn_SCWIN n) 15 8 * 2 ^ 14 < amp2 then 2
  else if 1024 < d.natAbs then 3
  else 0

/-- An invalid sample: position and phase hold; `persist` of them in a row put the channel in FAULT (R316, R317, R318). -/
def scInvalid (n amp2 why : Nat) (s : State) : State :=
  let s1 := modPc n (fun x => { x with bad := x.bad + 1, good := 0 }) s
  if !(pch s1 n).fault && fld s1 (R.POS_PCn_SCWIN n) 19 16 ≤ (pch s1 n).bad then
    let s2 := setFlag (R.POS_PCn_FLAG n) 3 (modPc n (fun x => { x with fault := true, v := 0, valid := false }) s1)
    if signalHalts s2 n then raise (Ev.POS_SIGNAL_LOST .halt) n n amp2 why s2
    else logEvent (Ev.POS_SIGNAL_LOST .warn) n n amp2 why s2
  else s1

/-- A valid sample: the phase is taken; out of FAULT the position moves by the step (R316); in FAULT it holds (R317). -/
def scValid (n ph : Nat) (d : Int) (s : State) : State :=
  let s1 := modPc n (fun x => { x with bad := 0, good := x.good + 1, ph := ph }) s
  if (pch s1 n).fault then s1
  else
    let old := (pch s1 n).pos
    let m := (if pcReverse s1 n then -d else d) * 64
    reactiveGens n (pcMoved n old [] (pcCount n m s1))

/-- SINCOS_SAMPLE (R316): the raw codes of one sampling instant. -/
def execSincosSample (n : Fin 8) (xs xc : BitVec 12) (s : State) : Host.Outcome State Fault Refusal :=
  finish (if !pcSinCos s n then s
    else
      let s0 := useInvar [R.POS_PCn_SCWIN n] s
      let sn := scSine s0 n xs
      let cs := scCosine s0 n xc
      let amp2 := narrow 24 (sn * sn + cs * cs)
      let s1 := setF (R.POS_PCn_SCAMP n) 23 0 amp2 s0
      let ph := interpolate sn cs
      let d := signed 12 (narrow 12 ((ph : Int) - (pch s1 n).ph))
      let why := scBad s1 n amp2 d
      if why = 0 then scValid n ph d s1 else scInvalid n amp2 why s1)

/-- SIGNAL_OK (R317): 1,024 consecutive valid samples in FAULT have passed: the channel returns to OK, its position suspect, its
speed history restarted (R329). -/
def execSignalOk (n : Fin 8) (s : State) : Host.Outcome State Fault Refusal :=
  finish (if (pch s n).fault ∧ 1024 ≤ (pch s n).good then
      logEvent Ev.POS_SIGNAL_OK n n (fld s (R.POS_PCn_SCAMP n) 23 0) 0
        (modPc n (fun x => { restart x [] with fault := false, suspect := true, good := 0 }) s)
    else s)

end Sys2Proof.Machine
end

