-- ==== Sys2Proof/Machine/SeamlessRun.lean ====
section
/-!
DEFINITION. The steps of a seamless stop after its decision, and its commands (spec/13_seamless_stop.md R407 to R417).
-/
namespace Sys2Proof.Machine

/-! ## The steps of R407 -/

/-- A committed line of the affected set is still to launch, or in its window. -/
def ssDraining (s : State) : Bool :=
  (ssPipes s).any (fun d => (hp s (pipePort s d)).lines.any (fun l => l.kind = .print && ((l.fireSent && !l.launched) || l.inWindow)))

/-- A pipe goes back to kstop of its generator (R136, R405); a gap sequence of which a line has not fired starts over (R277). -/
def ssRewind (d : Nat) (s : State) : State := gapRedo (pipePort s d) (ssBack d s)

/-- The transport is retargeted to a 32.16 position of transport_pc, with another vmax where one is given (1/16 unit/s); a refused MOVE
abandons the sequence (R412). -/
def ssMove (x phase : Nat) (vmax : Option Nat) (s0 : State) : State :=
  let s := if s0.ss.mover then useSoft (trKind s0) (trIndex s0) s0 else s0
  if !s.ss.mover then ssPhase phase s
  else
    match unitMove (trKind s) (trIndex s) (ssTarget s x) s with
    | (false, s1) => ssAbandon s1
    | (true, s1) =>
      match vmax with
      | some v => ssPhase phase (unitVmax (trKind s) (trIndex s) v s1)
      | none => ssPhase phase s1

/-- SS_DRAIN_END (R407, step 3): t_e is reached: CANCEL to each affected port, MOVE to x_rest, DECEL. -/
def execSsDrainEnd (s : State) : Host.Outcome State Fault Refusal :=
  finish (if s.ss.phase ≠ 1 ∨ ssDraining s then s else ssMove s.ss.xrest 2 none (forEach (ssHeld s) ssRewind s))

/-- The transport of the sequence is at rest; on another device of a chain the media's rest shows itself only as the command. -/
def ssRested (s : State) : Bool := !s.ss.mover || trAtRest s

/-- SS_DECEL_DONE (R407, step 4): at rest at x_rest: MOVE to xb at DOT_SSBACKV, BACKUP. -/
def execSsDecelDone (s : State) : Host.Outcome State Fault Refusal :=
  finish (if s.ss.phase ≠ 2 ∨ !ssRested s then s
    else ssMove s.ss.xb 3 (some (toUnits s (rd s R.DOT_SSBACKV).toNat).toNat) s)

/-- The origin load of R408: org, orgline and the line to commit stay; the mark is set to the present position. -/
def ssOrigin (g : Nat) (s : State) : State :=
  if ltSource s g < 8 then modGen g (fun x => { x with hw := (pch s (ltSource s g)).pos, since := false }) s else s

/-- SS_BACKUP_DONE (R407, step 5, R408, R411): at rest at xb: the origins are loaded; REFILL, or PARK. -/
def execSsBackupDone (s : State) : Host.Outcome State Fault Refusal :=
  finish (if s.ss.phase ≠ 3 ∨ !ssRested s then s
    else ssPhase (if s.ss.park then 5 else 4) (forEach (ssGens s) ssOrigin s))

/-- Pipe `d` meets the refill gate (R409). -/
def ssFilled (s : State) (d : Nat) : Bool :=
  let k := (lt s (pipeLt s d)).k
  let need : Int := min (fld s R.DOT_SSCFG 23 8 : Int) ((dotDepth s d : Int) - ((lMax s d : Int) - lMin s d))
  decide (need ≤ lineDiff (dp s d).wline (narrow 32 ((k : Int) - lMin s d)))

/-- ACCEL (R407, step 6): the transport accelerates toward v0; each pipe assembles its first two lines (R409). -/
def ssAccel (s : State) : State :=
  let i := trIndex s
  let v := (toUnits s (16 * s.ss.v0 : Nat)).toNat
  let s1 := if !s.ss.mover then s
    else unitVmax (trKind s) i v (if trKind s = 2 then axPlan i (.vel false) s else moPlan i (.vel false) s)
  forEach (ssHeld s1) pumpPipe (ssPhase 6 s1)

/-- Every device of the chain has reported its refill gate to the transport device (R415). -/
def ssAllReady (s : State) : Bool := (List.range s.cas.length).all (fun i => bitOf s.cas.ready.toNat i)

/-- The device at a position has reported; the last report sends SSGO and enters ACCEL (R415). -/
def ssReady (pos : Nat) (s : State) : State :=
  let s1 := { s with cas := { s.cas with ready := BitVec.ofNat 8 (s.cas.ready.toNat ||| 2 ^ pos) } }
  if ssAllReady s1 ∧ s1.ss.phase = 4 then ssAccel (casMsg 0x13 [] { s1 with cas := { s1.cas with ready := 0 } }) else s1

/-- SS_REFILL_GATE (R409, R415): the refill gate is met in PRINT. A device of a chain reports it first. -/
def execSsRefillGate (s : State) : Host.Outcome State Fault Refusal :=
  finish (if s.ss.phase ≠ 4 ∨ s.glb.state ≠ .print ∨ !(ssHeld s).all (ssFilled s) then s
    else if !chained s then ssAccel s
    else if s.ss.told then s
    else
      let s1 := { s with ss := { s.ss with told := true } }
      if trKind s = 0 then casMsgTo 0x40 0x12 [] s1 else ssReady s1.cas.position s1)

/-- SS_ACCEL_DONE (R407, step 8, R409): the transport is at v0 and returns to the command in force at the decision. -/
def execSsAccelDone (s : State) : Host.Outcome State Fault Refusal := finish (if s.ss.phase = 6 then ssReturn s else s)

/-- SS_TD_REACHED (R415): the device applies a chain's decision to its own affected set, in STOPPING too where the stop that asked for it
has led there (R244, R411). -/
def execSsTdReached (s : State) : Host.Outcome State Fault Refusal :=
  finish (if s.ss.td.isSome ∧ (s.glb.state = .print ∨ s.glb.state = .stopping) then ssApply { s with cas := { s.cas with ready := 0 } } else s)

/-! ## Commands (R416) -/

/-- DOT_SSCMD_STATUS of an evaluated command; a refusal raises DOT_CMD_REJECT for pipe 0xFE. -/
def ssResult (cmd res detail phase : Nat) (s : State) : State :=
  let s1 := wr R.DOT_SSCMD_STATUS (BitVec.ofNat 32 (res + 16 * gnum s + 256 * cmd + 4096 * detail + 65536 * phase)) s
  if res = 1 then s1 else logEvent Ev.DOT_CMD_REJECT 0xFE 0xFE cmd res s1

/-- SSTOP in PRINT: a decision, a cause that joins, or CFG_INVALID with the forbid reason (R413, R414). -/
def ssStopCmd (s : State) : State :=
  let ph := s.ss.phase
  match ssAsk .software s with
  | (s1, none) => ssResult 1 1 0 ph s1
  | (s1, some r) => ssResult 1 4 r ph s1

/-- A write of DOT_SSCMD (R416): 1 SSTOP, 2 ABANDON. -/
def ssCmd (cmd : Nat) (s : State) : State :=
  let ph := s.ss.phase
  match cmd, s.glb.state with
  | _, .off => s
  | 1, .print => ssStopCmd s
  | 1, .stopping => ssResult 1 (if ph ≠ 0 then 1 else 2) 0 ph s
  | 1, .armed => ssResult 1 (if ph = 5 then 1 else 2) 0 ph s
  | 1, _ => ssResult 1 2 0 ph s
  | 2, .print => if ph ≠ 0 then ssResult 2 1 0 ph (ssAbandon s) else ssResult 2 2 0 ph s
  | 2, .stopping => if ph ≠ 0 then ssResult 2 1 0 ph (ssAbandon s) else ssResult 2 2 0 ph s
  | 2, .armed => if ph = 5 then ssResult 2 1 0 ph (ssAbandon s) else ssResult 2 2 0 ph s
  | 2, _ => ssResult 2 2 0 ph s
  | _, _ => ssResult cmd 3 0 ph s

/-- SS_SSTOP (R416). -/
def execSsSstop (s : State) : Host.Outcome State Fault Refusal := finish (viaBar0 R.DOT_SSCMD (ssCmd 1) s)

/-- SS_ABANDON (R412, R416). -/
def execSsAbandon (s : State) : Host.Outcome State Fault Refusal := finish (viaBar0 R.DOT_SSCMD (ssCmd 2) s)

end Sys2Proof.Machine
end

