-- ==== Sys2Proof/Machine/Global.lean ====
section
/-!
DEFINITION. Entry to ARMED, PRINT and IDLE, the end of STOPPING, and the global commands ARM, START, STOP, DISARM, RECOVER and SHUTDOWN
(spec/01_architecture.md R32 to R42; spec/14_cascade.md R440, R441; spec/07_thermal_energy.md R581). RELOAD and LANTERN stand with
their units.
-/
namespace Sys2Proof.Machine

/-! ## Entry to ARMED -/

/-- Warming is requested for each ACTIVE port with a WARMREQ (R253). -/
def askWarming (s : State) : State :=
  forEach (those 16 (active s)) askWarm s

/-- UNKILL leaves on every ACTIVE port, and HPn_EN follows (R163, R187). -/
def unkillAll (s : State) : State :=
  refreshAll (forEach (those 16 (active s)) (fun p s => sendCtrl p 3 0 [] s) s)

/-- Generators and pipes at the entry to ARMED: those in RUN come back with the lines already assembled or sent, STOPPED pipes get READY,
HOLD stays in a seamless stop that has parked (R137, R175, R411); a scanning pipe in HOLD comes back to its first unfired line (DEDUCED,
log 36). -/
def armPipes (s : State) : State :=
  let s1 := forEach (those 16 (pipeBound s)) (fun d s =>
    match (dp s d).st with
    | .run => setPipe d .ready s
    | .stopped => setPipe d .ready (modDot d rewindPipe s)
    | .hold => if scanning s then setPipe d .ready (modDot d rewindPipe (sendCancel (pipePort s d) s)) else s
    | _ => s) s
  let s2 := forEach (those 16 (ltLive s1)) (fun g s => if (lt s g).st = .hold ∧ !scanning s then s else restGen g .armed s) s1
  forEach (List.range 16) pumpReady s2

/-- ARMED is entered from STOPPING or by ARM (R35, R40, R127, R187, R192, R227, R253, R286). -/
def enterArmed (s : State) : State :=
  let stopped := s.glb.state = .stopping
  let s1 := armPipes (goto .armed 0 s)
  let s2 := unkillAll (if stopped then s1 else forEach (those 16 (active s1)) loadBanks s1)
  forEach (List.range 16) svcPending (askWarming (if stopped then usageAll s2 else s2))

/-- The head-open masks are used: what leads to ARMED evaluates HPn_EN (R13, R163). -/
def useMaps (s : State) : State := useInvar [R.FIR_HOPENMAP01, R.FIR_HOPENMAP23] s

/-- STOPPING is complete: the last committed line has fired, the transport is at rest, and no sequence moves it (R35, R257, R411). -/
def stoppingDone (s : State) : Bool :=
  s.glb.state = .stopping && linesDone s && trAtRest s && (s.ss.phase = 0 || s.ss.phase = 5) && s.ss.td.isNone && s.thmg.paths.isEmpty

/-- STOPPING_COMPLETE (R35). -/
def execStoppingComplete (s : State) : Host.Outcome State Fault Refusal :=
  finish (if stoppingDone s then
      let s1 := useMaps s
      if s1.glb.state = .stopping then enterArmed s1 else s1
    else s)

/-! ## Entry to PRINT -/

/-- The earliest NEXT over the pipes of a generator that run (R145; DEDUCED, log 33). -/
def firstLine (s : State) (g : Nat) : Option Nat :=
  (((ltPipes s g).filter (fun d => (dp s d).st = .run)).map (fun d => (dp s d).next)).foldl
    (fun m n => match m with
      | some x => if lineDiff n x < 0 then some n else m
      | none => some n) none

/-- Lines before `k` do not launch again: the pipe retires them (R135, R145). -/
def retireTo (d k : Nat) (s : State) : State :=
  let n := (dp s d).next
  if lineDiff n k < 0 then retireBefore d k (logEvent Ev.DOT_LINES_SKIPPED d d n (lineDiff k n).toNat s) else s

/-- A generator at the entry to PRINT: its next line, which lies after every line launched since the origin load, unless a new sweep loads one
first (R145, R292), the spacing from the last launch (R146), and in fixed-clock mode its first launch instant: the first multiple of the period at least lead ahead (R151; log 33). -/
def printGen (g : Nat) (s : State) : State :=
  let k0 := ((firstLine s g).getD (lt s g).k)
  let k := match if scanning s && !s.scn.restart then none else (lt s g).top with
    | some t => if lineDiff k0 t < 0 then t else k0
    | none => k0
  let per := max 1 (lineClockPeriod s)
  let lead := fld s (R.FIR_LTn_LEAD g) 11 0
  let t0 := (s.now + lead + per - 1) / per * per
  let s1 := restGen g .run (modGen g (fun x => { x with k := k, k0 := k, t0 := t0, last := x.launchAt, clamped := false }) s)
  forEach ((ltPipes s1 g).filter (fun d => (dp s1 d).st = .run)) (fun d s => retireTo d k s) s1

/-- The generators and pipes at the entry to PRINT; a parked sequence goes to REFILL (R137, R175, R411). -/
def printPipes (s : State) : State :=
  let s1 := forEach (those 16 (pipeBound s)) (fun d s => if (dp s d).st = .ready then setPipe d .run s else s) s
  let s2 := forEach (those 16 (ltLive s1)) (fun g s => if (lt s g).st = .hold then s else printGen g s) s1
  if s2.ss.phase = 5 then ssPhase 4 { s2 with ss := { s2.ss with park := false, told := false, go := false } } else s2

/-- MEDIA_OUT that still stands gates the generators anew (R167; DEDUCED, log 37). -/
def mediaGate (s : State) : State := if s.gate.mediaOut then mediaAct (useInvar [R.FIR_GATEEN] s) else s

/-- PRINT is entered (R35, R40, R227, R441). -/
def enterPrint (s : State) : State :=
  let s1 := goto .print 0 s
  let s2 := printPipes { s1 with hlp := s1.hlp.map (fun h => { h with uSince := s1.now }), thm := s1.thm.map (fun t => { t with again := true }),
                                 thmg := { s1.thmg with again := true } }
  mediaGate (forEach (List.range 16) (fun p s => portPump 8 p (pumpPipe p s)) (scnPrint s2))

/-! ## Leaving ARMED and SAFE_HOLD -/

/-- DISARM: a parked sequence is abandoned, KILL goes to every ACTIVE port, and the device enters IDLE (R40, R137, R187, R227, R412). -/
def disarm (s : State) : State :=
  let s1 := goto .idle 0 (ssAbandon s)
  let s2 := refreshAll (forEach (those 16 (active s1)) sendKill s1)
  let s3 := forEach (those 16 (pipeBound s2)) (fun d s => if (dp s d).st = .ready ∨ (dp s d).st = .hold then setPipe d .stopped (modDot d rewindPipe s) else s) s2
  usageAll (forEach (List.range 16) (restGen · .idle) s3)

/-- A gating source of R167 is asserted where it gates, or its flag in FIR_GATEFLAG is set (R169). -/
def gateStands (s : State) : Bool :=
  s.gate.kill || (List.range 16).any (fun p => hopenGates s p) || s.gate.enExt ≠ 0 ||
  (s.gate.mediaOut && fld s R.FIR_GATEEN 0 0 = 1) ||
  (List.range 2).any (fun m => bitOf s.gate.jam.toNat m && fld s R.FIR_GATEEN (m + 1) (m + 1) = 1) ||
  rd s R.FIR_GATEFLAG ≠ 0

/-- A thermal limit of class STOP, HALT or shutdown is still crossed, zones are lost, or a shutdown path runs (R169, R243, R246). -/
def limitsStand (s : State) : Bool :=
  (List.range 16).any (fun p =>
    let t := th s p
    t.tstop.on || t.rstop.on || t.thalt.on || t.rhalt.on || t.zonesLost) ||
  s.thmg.stop.on || s.thmg.shut.on || s.thmg.rshut.on || !s.thmg.paths.isEmpty

/-- A unit whose failures are of class HALT still fails, or the flag of such a failure is set: a position channel (R318), the axis (R347,
R363) or the channel (R378, R388, R391) of the transport or the carriage (R40). -/
def unitsStand (s : State) : Bool :=
  (List.range 8).any (fun n => signalHalts s n && ((pch s n).fault || fld s (R.POS_PCn_FLAG n) 3 3 = 1)) ||
  (List.range 8).any (fun n => axSev s n = .halt &&
    ((ax s n).st = .fault || fld s (R.STP_SAn_FLAG n) 0 0 = 1 || fld s (R.STP_SAn_FLAG n) 3 3 = 1)) ||
  (List.range 4).any (fun n => moSev s n = .halt && ((mo s n).st = .fault || fld s (R.MOT_MCn_FLAG n) 3 0 ≠ 0))

/-- A link or a member whose loss was of class HALT is not back (R220, R436, R444). -/
def linksStand (s : State) : Bool :=
  (List.range 16).any (fun p => portBound s p && (hp s p).lostHalt && !active s p) ||
  s.cas.cu.lostHalt || s.cas.cd.lostHalt || s.cas.timeHalt || s.cas.memberHalt ≠ 0

/-- A HALT-class cause is still present, or a HALT-class flag is still set (R40, R169, R220, R520). -/
def causeActive (s : State) : Bool :=
  gateStands s || limitsStand s || unitsStand s || linksStand s || !s.glb.locked || !s.hst.mismatched.isEmpty

/-- RECOVER: the outputs take new references (R337, R340); after a hold from SELFTEST or LINK_TRAIN the bring-up stays incomplete and every
bound port is held out of ACTIVE, in training or not (R105). -/
def recover (s : State) : State :=
  let s1 := eeResume (goto .idle 0 s)
  if s1.bru.heldFromBru then
    forEach (those 16 (active s1)) portDown { s1 with
      bru := { s1.bru with heldFromBru := false, incomplete := true }, hlp := s1.hlp.map Hlp.stopTraining }
  else s1

/-! ## The commands (R40, R440) -/

/-- GLB_CMD_STATUS of an evaluated command; a refusal raises GLB_CMD_REJECT. -/
def glbResult (cmd res code : Nat) (s : State) : State :=
  let s1 := wr R.GLB_CMD_STATUS (BitVec.ofNat 32 (res + 16 * code + 256 * cmd)) s
  if res = 1 then s1 else logEvent Ev.GLB_CMD_REJECT 0xFF cmd code res s1

/-- Every bound port is ACTIVE, or absent, and bring-up is complete (R40, R93, R105). -/
def readyToArm (s : State) : Bool :=
  !s.bru.incomplete && (those 16 (portBound s)).all (fun p => active s p || (hp s p).lstate = .absent || (hp s p).hotTry)

/-- A member's aggregated state is not ARMED (R440). -/
def membersNotArmed (s : State) : Bool :=
  isCampanile s && (List.range s.cas.length).any (fun n => n ≠ 0 && fld s (R.CAS_AGG_A n) 3 0 ≠ 6)

/-- The period of bell ticks: SCHED.bell_period in BELL mode, else 2^eper (chapter 14, The bell). -/
def tickPeriod (s : State) : Nat := if bellMode s then max 1 (bellPeriod s) else 2 ^ fld s R.CAS_BELLCFG 20 16

/-- START accepted on a campanile: the first bell tick at least lead ahead, broadcast (R440). -/
def startChain (s : State) : State :=
  let per := tickPeriod s
  let ts := (s.now + fld s R.CAS_CMDLEAD 15 0 + per - 1) / per * per
  casMsg 0x01 (leBytes 8 ts) { s with cas := { s.cas with ts := some ts } }

/-- The SHUTDOWN record of the command (R581). -/
def shutdownRecord (s : State) : JRec :=
  { type := .shutdown, sev := .info, code := 0, bell := s.now, a0 := 0, a1 := 0, a2 := 0, gst := s.glb.state,
    payload := leBytes 1 0xFF ++ leBytes 1 0xFF ++ leBytes 1 3 ++ leBytes 2 (narrow 16 (dieTemp s)) ++ leBytes 2 (narrow 16 s.thmg.dieRate) ++
      leBytes 2 (narrow 16 (tjLargest s)) ++ leBytes 2 (narrow 16 (dieTemp s)) ++ leBytes 4 0 ++ leBytes 4 0 ++ leBytes 4 (firstNext s) }

/-- ARM (R40, R440): result and state. -/
def glbArm (s : State) : Nat × State :=
  match s.glb.state with
  | .idle =>
    if !readyToArm s || membersNotArmed s then (5, s)
    else
      let s1 := useMaps s
      if s1.glb.state = .idle then (1, pulseCheck (enterArmed s1)) else (2, s1)
  | .armed => (1, s)
  | _ => (2, s)

/-- START (R40, R440). -/
def glbStart (s : State) : Nat × State :=
  if isMember s then (2, s)
  else
    match s.glb.state with
    | .armed => if membersNotArmed s then (5, s) else (1, if isCampanile s then startChain s else enterPrint s)
    | .print => (1, s)
    | _ => (2, s)

/-- The campanile broadcasts an accepted STOP (R440). -/
def stopChain (s : State) : State := if isCampanile s then casMsg 0x02 [] s else s

/-- STOP (R40, R440). -/
def glbStop (s : State) : Nat × State :=
  if isMember s then (2, s)
  else
    match s.glb.state with
    | .armed => (1, stopChain s)
    | .print => (1, enterStopping 0 (stopChain s))
    | .stopping => (1, stopChain s)
    | _ => (2, s)

/-- DISARM (R40). -/
def glbDisarm (s : State) : Nat × State :=
  match s.glb.state with
  | .idle => (1, s)
  | .armed => (1, disarm s)
  | _ => (2, s)

/-- RECOVER (R40, R105, R169, R220). -/
def glbRecover (s : State) : Nat × State :=
  match s.glb.state with
  | .idle => (1, s)
  | .safeHold =>
    let s1 := useInvar [R.FIR_HOPENMAP01, R.FIR_HOPENMAP23, R.FIR_GATEEN] s
    if causeActive s1 then (4, s1) else (1, recover s1)
  | _ => (2, s)

/-- SHUTDOWN (R34, R40, R581). -/
def glbShutdown (s : State) : Nat × State :=
  let go : Nat × State := (1, enterShutdown 0 (jRecord (shutdownRecord s) s))
  match s.glb.state with
  | .idle => go
  | .armed => go
  | .safeHold => go
  | .shutdown => (1, s)
  | _ => (2, s)

/-- A command's evaluation with its status word; OFF has no access. A command refused because its own use of an Invar value has taken the
device to SAFE_HOLD is refused in that state (R39). -/
def glbRun (cmd : Nat) (f : State → Nat × State) (s : State) : State :=
  if s.glb.state = .off then s
  else
    let r := f s
    glbResult cmd r.1 (gnum (if r.1 = 1 then s else r.2)) r.2

/-- GLB_ARM (R40). -/
def execGlbArm (s : State) : Host.Outcome State Fault Refusal := finish (glbRun 1 glbArm s)

/-- GLB_START (R40). -/
def execGlbStart (s : State) : Host.Outcome State Fault Refusal := finish (glbRun 2 glbStart s)

/-- GLB_STOP (R40). -/
def execGlbStop (s : State) : Host.Outcome State Fault Refusal := finish (glbRun 3 glbStop s)

/-- GLB_DISARM (R40, R187). -/
def execGlbDisarm (s : State) : Host.Outcome State Fault Refusal := finish (glbRun 4 glbDisarm s)

/-- GLB_RECOVER (R40). -/
def execGlbRecover (s : State) : Host.Outcome State Fault Refusal := finish (glbRun 5 glbRecover s)

/-- GLB_SHUTDOWN (R581). -/
def execGlbShutdown (s : State) : Host.Outcome State Fault Refusal := finish (glbRun 8 glbShutdown s)

end Sys2Proof.Machine
end

