-- ==== Sys2Proof/Machine/Cascade.lean ====
section
/-!
DEFINITION. The cascade: training and time of its ports, discovery, bells, chain messages, status, and the CAS commands
(spec/14_cascade.md R419 to R447; spec/03_bring_up.md R95 to R97).
-/
namespace Sys2Proof.Machine

/-- The cascade changed. -/
def modCas (f : Cas → Cas) (s : State) : State := { s with cas := f s.cas }

/-! ## Ports and training (R425, R426) -/

/-- The port: 0 CU, 1 CD. -/
def casPort (s : State) (port : Nat) : CasPort := if port = 0 then s.cas.cu else s.cas.cd
def modCasPort (port : Nat) (f : CasPort → CasPort) (s : State) : State :=
  modCas (fun c => if port = 0 then { c with cu := f c.cu } else { c with cd := f c.cd }) s

/-- The encoding of a port's state in CAS_STAT. -/
def CasLink.code : CasLink → Nat
  | .down => 0
  | .detect => 1
  | .align => 2
  | .config => 3
  | .timesync => 4
  | .active => 5

/-- A training set leaves on both lanes: lane, CASCADE role, locked, link version, scheduling mode in TS2, check (R425). -/
def casTs (port : Nat) (name : String) (locked : Bool) (s : State) : State :=
  let b (lane : Nat) : List Byte :=
    withCheck (leBytes 1 lane ++ leBytes 1 (casRole s) ++ leBytes 1 (b2n locked) ++ leBytes 1 1 ++
      leBytes 1 (if name = "TS2" then b2n (bellMode s) else 0) ++ leBytes 8 0)
  casEmitSet port name (b 0) (b 1) s

/-- A PROBE leaves on CU with the present time: ta in ticks, its fraction in 1/16 tick (R425, R428). -/
def casProbe (s : State) : State :=
  let b := withCheck (leBytes 1 1 ++ leBytes 1 s.cas.frac ++ leBytes 6 (s.now % 2 ^ 48) ++ leBytes 6 0 ++ leBytes 1 0)
  casEmitSet 0 "TSY" b b s

/-- The ECHO that answers a PROBE on CD, whose COM arrived at h2, in sixteenths: it carries h2 and the present time (R425, R426, R428). The
table has no command for a PROBE that arrives there (log 48). -/
def casEcho2 (h2 : Nat) (s : State) : State :=
  let b := withCheck (leBytes 1 2 ++ leBytes 1 (h2 % 16 + 16 * s.cas.frac) ++ leBytes 6 (h2 / 16 % 2 ^ 48) ++ leBytes 6 (s.now % 2 ^ 48) ++
    leBytes 1 0)
  if s.cas.cd.st = .active then casEmitSet 1 "TSY" b b s else s

/-- A training attempt starts: DETECT, TS1 (R426). -/
def casAttempt (port : Nat) (s : State) : State :=
  casTs port "TS1" false (modCasPort port (fun x => { x with st := .detect, run := 0, outs := 0, discards := [] }) s)

/-- Acquisition starts from its first PROBE (R428). -/
def casAcquire (s : State) : State :=
  casProbe (modCas (fun c => { c with echoes := [], group := [], checking := false, synced := false }) s)

/-- The port enters ACTIVE. A link that comes back after a loss leads to a new discovery: the campanile starts it, a member sends REDISC
up the chain (R433, R436; DEDUCED, log 39). -/
def casUp (port : Nat) (s : State) : State :=
  let back := (casPort s port).lost
  let delta := if port = 0 then fld s R.CAS_HOPDLY 15 0 else 0
  let s1 := logEvent Ev.CAS_LINK_UP port port delta s.cas.position
    (modCasPort port (fun x => { x with st := .active, run := 0, outs := 0, alignRaised := false, lost := false, lostHalt := false }) s)
  if !back then s1
  else if isCampanile s1 then bruCheck (startDisc s1)
  else if port = 0 then casSendTo 0x04 0 s1.cas.epoch [] s1
  else s1

/-- One valid training set advances the port (R426). Neighbours share one clock, so in CONFIG a TS2 leaves while each set arrives (DEDUCED from
R423 and R425, log 48). CD, and the CU of a campanile, which never corrects its time, have no acquisition of
their own and enter ACTIVE from CONFIG (log 63). -/
def casTrain (port : Nat) (ts2 : Bool) (b : List Byte) (s : State) : State :=
  let x := casPort s port
  let locked := bitOf ((b.getD 2 0).toNat) 0
  let run (ok : Bool) : Nat := if ok then x.run + 1 else 0
  match x.st with
  | .detect =>
    let n := run (!ts2)
    if 8 ≤ n then casTs port "TS1" true (modCasPort port (fun x => { x with st := .align, run := 0 }) s)
    else modCasPort port (fun x => { x with run := n }) s
  | .align =>
    let n := run (!ts2 && locked)
    if 8 ≤ n then casTs port "TS2" true (modCasPort port (fun x => { x with st := .config, run := 0, outs := 1 }) s)
    else modCasPort port (fun x => { x with run := n }) s
  | .config =>
    let n := run ts2
    let s1 := casTs port "TS2" true (modCasPort port (fun y => { y with run := n, outs := y.outs + 1 }) s)
    if 8 ≤ n ∧ 16 ≤ x.outs + 1 then
      if port = 0 ∧ isMember s then casAcquire (modCasPort 0 (fun x => { x with st := .timesync, run := 0, outs := 0 }) s1)
      else casUp port s1
    else s1
  | _ => s

/-- CAS_TS_RECEIVED (R425, R426): a TS1 or TS2 with its 14 data bytes; one whose check fails is ignored and breaks the run (R185). -/
def execCasTsReceived (port : Fin 2) (ts2 : Bool) (data : Vector Byte 14) (s : State) : Host.Outcome State Fault Refusal :=
  finish (let b := data.toList
    if casRole s = 0 then s
    else if crc8 (b.take 13) = b.getD 13 0 then casTrain port ts2 b s
    else modCasPort port (fun x => { x with run := 0 }) s)

/-- CAS_TRAIN_TIMEOUT (R426): the timeout of the training state passes and the attempt fails; the port is DOWN until 50 ms after the
attempt's start, and then starts a new one. The failure of ALIGN raises BRU_CASCADE_FAIL once per series. -/
def execCasTrainTimeout (port : Fin 2) (s : State) : Host.Outcome State Fault Refusal :=
  finish (let x := casPort s port
    if x.st = .active then s
    else if x.st = .down then (if casRole s = 0 ∨ gnum s < 4 ∨ discHeld s then s else casAttempt port s)
    else
      let s1 := if x.st = .align ∧ !x.alignRaised then
          discFail 5 s.cas.position (modCasPort port (fun x => { x with alignRaised := true }) s)
        else s
      modCasPort port (fun x => { x with st := .down, run := 0, outs := 0 }) s1)

/-- The cascade's part of the entry to LINK_TRAIN and of RETRY (R88, R95, R103, R433): a new series of attempts begins, in which ports that
are down train, the campanile's CU with them, since R97 has it receive there (log 63); a member after a reload sends REDISC. -/
def casStart (s : State) : State :=
  if casRole s = 0 then { s with bru := { s.bru with cascade := .skipped } }
  else
    let s1 := { s with bru := { s.bru with cascade := .running, discFrom := s.now, discWarned := false },
                       cas := { s.cas with cu := { s.cas.cu with alignRaised := false }, cd := { s.cas.cd with alignRaised := false } } }
    let s2 := if s1.cas.cd.st = .down then casAttempt 1 s1 else s1
    let s3 := if s2.cas.cu.st = .down then casAttempt 0 s2 else s2
    if isCampanile s3 then startDisc s3
    else if cuUp s3 then casSendTo 0x04 0 s3.cas.epoch [] s3
    else s3

/-! ## Bell time of a member (R428 to R431) -/

/-- What occupies the lanes of a head port goes on as long as before when bell time moves by `by_` ticks (R191, R216). -/
def Lanes.moved (t : Lanes) (by_ : Int) : Lanes :=
  { t with busy := ((t.busy : Int) + 4 * by_).toNat, hard := ((t.hard : Int) + 4 * by_).toNat }

/-- Bell time moves by a number of sixteenths of a tick; the instants from which durations are taken move with it (R107). -/
def bellMove (d : Int) (s : State) : State :=
  let t := narrow 68 (((16 * s.now + s.cas.frac : Nat) : Int) + d)
  let by_ : Int := ((t / 16 : Nat) : Int) - s.now
  modCas (fun c => { c with frac := t % 16 })
    { s with now := t / 16, glb := { s.glb with released := s.glb.released + by_ }, bru := { s.bru with stFrom := s.bru.stFrom + by_ },
             hlp := s.hlp.map (fun h => { h with tx := h.tx.moved by_ }) }

/-- A step of bell time: counted, and every ACTIVE head port acquires afresh (R216, R430). The instants of past launches, from which R146
spaces the next ones, and those at which bell sets were decoded move with it. -/
def bellStep (d : Int) (s : State) : State :=
  let s1 := bellMove d s
  let by_ : Int := (s1.now : Int) - s.now
  portsReacquire (incF R.CAS_TSTAT 31 24
    { s1 with cas := { s1.cas with bells := s1.cas.bells.map (fun b => { b with seenAt := ((b.seenAt : Int) + by_).toNat }) }, gen := s1.gen.map (fun x => { x with launchAt := x.launchAt.map (fun t => ((t : Int) + by_).toNat) }) })

/-- The severity of a lost link or of lost time (R436). -/
def casSev (s : State) : Sev := if firingState s then .halt else .warn

/-- Sixteen ECHOs: within 4 sixteenths, bell time steps by the mean and one further PROBE checks it (R428). -/
def casSixteen (l : List (Int × Int)) (s : State) : State :=
  let th := l.map Prod.fst
  let hi := th.foldl max (th.headD 0)
  let lo := th.foldl min (th.headD 0)
  if 4 < hi - lo then casAcquire s
  else
    let mean := shr (th.foldl (· + ·) 0) 4
    let delta := shr ((l.map Prod.snd).foldl (· + ·) 0) 4
    let s1 := setF R.CAS_HOPDLY 15 0 (narrow 16 delta) (setF R.CAS_TSTAT 23 16 0 (setF R.CAS_TSTAT 15 0 (narrow 16 (satS 16 mean)) s))
    casProbe (modCas (fun c => { c with checking := true, echoes := [] }) (bellStep mean s1))

/-- A group of four in ACTIVE with a sum of thetas, four times their mean (R429). The mean in whole sixteenths, for CAS_TSTAT and the slew, is
rounded toward minus infinity (DESIGN CHOICE, log 48). -/
def casGroup (sum : Int) (s0 : State) : State :=
  let mean := shr sum 2
  let s := modCas (fun c => { c with group := [], resid := mean }) (setF R.CAS_TSTAT 15 0 (narrow 16 (satS 16 mean)) s0)
  let a := sum.natAbs
  if a ≤ 4 then s
  else if 64 < a then
    let s1 := casAcquire s
    if firingState s then raise (Ev.CAS_TIME_LOST .halt) 0xFF (toWord mean).toNat 0 0 (modCas (fun c => { c with timeHalt := true }) s1)
    else logEvent (Ev.CAS_TIME_LOST .warn) 0xFF (toWord mean).toNat 0 0 s1
  else
    let d := sat (-2) 2 mean
    let s1 := incF R.CAS_TSTAT 23 16 (modCas (fun c => { c with resid := mean - d }) (bellMove d s))
    if 16 < a then logEvent Ev.CAS_TIME_DRIFT 0xFF (toWord mean).toNat 0 0 s1 else s1

/-- An ECHO gives theta and delta, in sixteenths. -/
def casEcho (theta delta : Int) (s : State) : State :=
  if s.cas.synced then
    let l := theta :: s.cas.group
    if l.length < 4 then modCas (fun c => { c with group := l }) s else casGroup (l.foldl (· + ·) 0) s
  else if s.cas.checking then
    if theta.natAbs ≤ 1 then
      let s1 := modCas (fun c => { c with synced := true, checking := false, echoes := [], group := [], resid := theta, timeHalt := false }) s
      if s1.cas.cu.st = .timesync then casUp 0 s1 else s1
    else casAcquire s
  else
    let l := (theta, delta) :: s.cas.echoes
    if l.length < 16 then modCas (fun c => { c with echoes := l }) s else casSixteen l s

/-- CAS_TSYNC_ECHO_RX (R428, R429): the ECHO of a PROBE arrives on CU; times in sixteenths of a tick: the PROBE left at t1, arrived at h2;
the ECHO left at h3, arrived at t4. -/
def execCasTsyncEchoRx (t1 h2 h3 t4 : BitVec 52) (s : State) : Host.Outcome State Fault Refusal :=
  finish (let d (x y : BitVec 52) : Int := (x - y).toInt
    if isMember s && (s.cas.cu.st = .timesync || cuUp s) then
      casEcho (shr (d h2 t1 + d h3 t4) 1) (shr (d t4 t1 - d h3 h2) 1) s
    else s)

/-- CAS_PROBE_TIMER (R429): 2^16 ticks have passed in ACTIVE: four PROBEs. -/
def execCasProbeTimer (s : State) : Host.Outcome State Fault Refusal :=
  finish (if isMember s && cuUp s && s.cas.synced then
      (List.range 4).foldl (fun s _ => casProbe s) (modCas (fun c => { c with group := [] }) s)
    else s)

/-- CAS_ACQ_PROBE_TIMER (R428): the next of the 16 PROBEs. -/
def execCasAcqProbeTimer (s : State) : Host.Outcome State Fault Refusal :=
  finish (if isMember s && (s.cas.cu.st = .timesync || cuUp s) && !s.cas.synced && !s.cas.checking && decide (s.cas.echoes.length < 16) then
      casProbe s
    else s)

/-! ## Link loss (R436) -/

/-- Link loss on an ACTIVE port: CAS_LINK_DOWN and a new attempt. -/
def casLoss (port cause : Nat) (s : State) : State :=
  if (casPort s port).st ≠ .active then s
  else
    let s1 := casAttempt port (modCasPort port (fun x => { x with lost := true }) s)
    let s2 := if port = 0 then modCas (fun c => { c with synced := false, checking := false, echoes := [], group := [] }) s1 else s1
    if firingState s then raise (Ev.CAS_LINK_DOWN .halt) port port cause 5 (modCasPort port (fun x => { x with lostHalt := true }) s2)
    else logEvent (Ev.CAS_LINK_DOWN .warn) port port cause 5 s2

/-- CAS_LINK_LOSS (R436): symbol lock is lost, too many frames are discarded, or lost time is not repaired within 2 ms. -/
def execCasLinkLoss (port : Fin 2) (cause : CasLoss) (s : State) : Host.Outcome State Fault Refusal :=
  finish (match cause with
    | .lock => casLoss port 1 (if (casPort s port).st = .active then s else modCasPort port (fun x => { x with run := 0 }) s)
    | .errors => casLoss port 2 s
    | .time => if port = 0 ∧ !s.cas.synced then casLoss 0 3 s else s)

/-- A discarded frame: counted; more than 16 within 2^20 ticks are link loss (R436, R437). -/
def casBad (port : Nat) (s : State) : State :=
  let l := s.now :: (casPort s port).discards.filter (fun t => decide (s.now < t + 2 ^ 20))
  let s1 := incF R.CAS_CNT 31 24 (modCasPort port (fun x => { x with discards := l }) s)
  if 16 < l.length then casLoss port 2 s1 else s1

/-! ## Reception (R437 to R439) -/

/-- The device is the one that a role-addressed frame means. -/
def isMine (s : State) (dst : Nat) : Bool :=
  (isCampanile s && dst = 0) || (isMember s && s.cas.position ≠ 0 && dst = s.cas.position) ||
  (dst = 0x40 && s.cas.transport = s.cas.position)

/-- A frame back to the sender of another: ACK or NAK, with the sequence it answers (R437, R439). -/
def casAnswer (type : Nat) (h : CasHdr) (body : List Byte) (s : State) : State :=
  let q := s.cas.seq
  casPut h.port (casBytes type q.toNat (myRole s) h.src.toNat s.cas.epoch ([h.seq] ++ body)) (modCas (fun c => { c with seq := q + 1 }) s)

/-- The frame is dropped for its epoch: NAK and count (R439). -/
def casNak (h : CasHdr) (s : State) : State :=
  casAnswer 0x12 h (leBytes 1 (myRole s) ++ leBytes 2 s.cas.epoch) (incF R.CAS_CNT 7 0 s)

/-- Reception of a frame: discarded, forwarded, taken; a message, status or position for a role that the chain does not reach from here is
answered with NAK (R437 to R439). `take` is what the frame does on its receiver, `pass` what it does on
a device that only forwards it. -/
def casRecv (h : CasHdr) (type : Nat) (body : List Byte) (take pass : State → State) (s : State) : State :=
  if casRole s = 0 ∨ (casPort s h.port).st ≠ .active then s
  else if !h.ok then casBad h.port s
  else
    let all := h.dst = 0xFF
    let mine := isMine s h.dst.toNat
    let s1 := if mine then s
      else casPut (1 - h.port.val) (casBytes type h.seq.toNat h.src.toNat h.dst.toNat h.epoch.toNat body) s
    if !mine && !all then
      (if (type = 0x10 ∨ type = 0x13 ∨ type = 0x14) ∧ (casPort s (1 - h.port)).st ≠ .active then casNak h s else pass s1)
    else if all && s1.cas.seen.contains (h.src.toNat, h.seq) then s1
    else
      let s2 := if all then modCas (fun c => { c with seen := ((h.src.toNat, h.seq) :: c.seen).take 16 }) s1 else s1
      if (type = 0x10 ∨ type = 0x13 ∨ type = 0x14) ∧ h.epoch.toNat ≠ s2.cas.epoch then casNak h s2
      else take (if mine ∧ type ≠ 0x11 ∧ type ≠ 0x12 then casAnswer 0x11 h [] s2 else s2)

/-- Reception of a chain message of a kind. -/
def casMsgRecv (h : CasHdr) (kind : Nat) (body : List Byte) (take : State → State) (s : State) : State :=
  casRecv h 0x10 (leBytes 1 kind ++ body) take id s

/-- CAS_ACK_RX (R437): an ACK completes the frame of a sequence number. -/
def execCasAckRx (h : CasHdr) (seq : Byte) (s : State) : Host.Outcome State Fault Refusal :=
  finish (casRecv h 0x11 [seq] (modCas (fun c => { c with sent := c.sent.filter (fun x => x.seq ≠ seq) })) id s)

/-- CAS_NAK_RX (R439): a NAK with the role and epoch of its sender ends the frame. -/
def execCasNakRx (h : CasHdr) (seq role : Byte) (epoch : BitVec 16) (s : State) : Host.Outcome State Fault Refusal :=
  finish (casRecv h 0x12 ([seq, role] ++ leBytes 2 epoch.toNat) (fun s =>
    let dst := match s.cas.sent.find? (fun x => x.seq = seq) with
      | some x => x.dst
      | none => h.src.toNat
    logEvent Ev.CAS_MSG_NAK 0xFF dst role.toNat epoch.toNat (setFlag R.CAS_FLAG 1 (incF R.CAS_CNT 15 8
      (modCas (fun c => { c with sent := c.sent.filter (fun x => x.seq ≠ seq) }) s)))) id s)

/-- CAS_ACK_TIMEOUT (R437): 1 µs without an ACK: retransmitted, at most twice. -/
def execCasAckTimeout (seq : Byte) (s : State) : Host.Outcome State Fault Refusal :=
  finish (match s.cas.sent.find? (fun x => x.seq = seq) with
    | none => s
    | some x =>
      if x.tries < 2 then
        casPut (casToward s (casPos s x.dst)) (casBytes x.type x.seq.toNat (myRole s) x.dst x.epoch x.body)
          (modCas (fun c => { c with sent := c.sent.map (fun y => if y.seq = seq then { y with tries := y.tries + 1 } else y) }) s)
      else modCas (fun c => { c with sent := c.sent.filter (fun y => y.seq ≠ seq) }) s)

/-! ## Discovery (R95 to R97, R432, R433) -/

/-- DISC_TIMER (R95): the campanile sends a discovery message. -/
def execDiscTimer (s : State) : Host.Outcome State Fault Refusal :=
  finish (if isCampanile s && s.bru.cascade = .running then sendDisc s else s)

/-- CASCADE_WAIT_TIMER (R97): 5 s of waiting for discovery. -/
def execCascadeWaitTimer (s : State) : Host.Outcome State Fault Refusal :=
  finish (if s.bru.cascade = .running ∧ !s.bru.discWarned ∧ casRole s ≠ 0 then
      logEvent Ev.BRU_CASCADE_WAIT 0xFF (1 + s.cas.dans.length) (casLength s) 0 { s with bru := { s.bru with discWarned := true } }
    else s)

/-- The bytes of a DANS body (the order of the fields is a DESIGN CHOICE, log 31). -/
def dansBytes (d : Dans) : List Byte :=
  [d.position, d.role, d.expected, d.length, d.topology, d.laneCu, d.laneCd] ++ leBytes 1 (b2n d.bell + 2 * b2n d.scanning + 4 * b2n d.transport) ++
    leBytes 4 d.hash.toNat ++ leBytes 2 d.delta.toNat

/-- This device's answer to discovery (R432). -/
def ownDans (s : State) : Dans :=
  { position := BitVec.ofNat 8 s.cas.position, role := BitVec.ofNat 8 (casRole s), laneCu := BitVec.ofNat 8 (imgF s 10 4 1 0),
    laneCd := BitVec.ofNat 8 (imgF s 10 5 1 0), expected := BitVec.ofNat 8 (casPosition s), length := BitVec.ofNat 8 (casLength s),
    topology := BitVec.ofNat 8 (casTopology s), bell := bellMode s, scanning := scanning s, transport := trKind s ≠ 0,
    hash := BitVec.ofNat 32 (leNat (slice (effHash s) 0 4)), delta := BitVec.ofNat 16 (fld s R.CAS_HOPDLY 15 0) }

/-- DISC_RX (R432): a member takes its position from the hop count, forwards the message with the count incremented, and answers; a
campanile that receives one on CU fails discovery (R97). A device whose discovery R105 has stopped takes no part. -/
def execDiscRx (h : CasHdr) (hops : Byte) (proposed : BitVec 16) (s : State) : Host.Outcome State Fault Refusal :=
  finish (if casRole s = 0 ∨ (casPort s h.port).st ≠ .active then s
    else if !h.ok then casBad h.port s
    else if h.port ≠ 0 ∨ discHeld s then s
    else if isCampanile s then discFail 4 0 s
    else
      let pos := (hops.toNat + 1) % 256
      let s1 := modCas (fun c => { c with position := pos, disc := false, proposed := proposed.toNat,
                                          dans := if c.proposed = proposed.toNat then c.dans else [] }) s
      let s2 := { s1 with bru := { s1.bru with cascade := if s1.bru.cascade = .failed then .failed else .running,
                                               discWarned := s1.bru.discWarned && s.cas.proposed = proposed.toNat } }
      let s3 := casPut 1 (casBytes 0x01 h.seq.toNat h.src.toNat h.dst.toNat h.epoch.toNat (leBytes 1 pos ++ leBytes 2 proposed.toNat)) s2
      casSendTo 0x02 0 proposed.toNat (dansBytes (ownDans s3)) s3)

/-- The checks of R97 on an answer, at the campanile: the reason that fails, if any; `l`: all answers. -/
def dansCheck (s : State) (d : Dans) (l : List Dans) : Option Nat :=
  if casLength s < l.length + 1 then some 1
  else if d.expected ≠ 0xFF ∧ d.expected ≠ d.position then some 2
  else if d.bell ≠ bellMode s then some 3
  else if d.topology.toNat ≠ casTopology s ∨ d.scanning ∨ scanning s then some 6
  else if 1 < (l.filter (fun x => x.transport)).length + (if trKind s = 0 then 0 else 1) then some 7
  else none

/-- Discovery is complete: DONE to the chain, CAS_DISC_DONE (R96, R432). -/
def discDone (s : State) : State :=
  let l := s.cas.dans
  let tr := if trKind s ≠ 0 then 0 else match l.find? (fun d => d.transport) with
    | some d => d.position.toNat
    | none => 0xFF
  let hash (i : Nat) : Nat := if i = 0 then leNat (slice (effHash s) 0 4) else match l.find? (fun d => d.position.toNat = i) with
    | some d => d.hash.toNat
    | none => 0
  let e := s.cas.proposed
  let n := l.length + 1
  let s1 := modCas (fun c => { c with disc := true, epoch := e, length := n, position := 0, transport := tr }) s
  let s2 := forEach (List.range 8) (fun i s => wr (R.CAS_AGG_A i) 0 (wr (R.CAS_AGG_B i) 0 s))
    { s1 with bru := { s1.bru with cascade := .done } }
  bruCheck (logEvent Ev.CAS_DISC_DONE 0xFF n e tr
    (casBroadcast 0x03 (leBytes 2 e ++ leBytes 1 n ++ leBytes 1 tr ++ (List.range n).flatMap (fun i => leBytes 4 (hash i))) s2))

/-- DANS_RX (R96, R432): an answer counts at the campanile, which completes or fails discovery; an answer of a further device after that
fails it, too (R97). A member counts what it forwards (R97). -/
def execDansRx (h : CasHdr) (d : Dans) (s : State) : Host.Outcome State Fault Refusal :=
  let add (s : State) : State := modCas (fun c => { c with dans := c.dans.filter (fun x => x.position ≠ d.position) ++ [d] }) s
  finish (casRecv h 0x02 (dansBytes d) (fun s =>
      if !isCampanile s then s
      else if s.bru.cascade ≠ .running then
        if s.bru.cascade = .done ∧ d.position ≠ 0 ∧ s.cas.dans.all (fun x => x.position ≠ d.position) then
          discFail 1 d.position.toNat (add s)
        else s
      else
        let s1 := add s
        match dansCheck s1 d s1.cas.dans with
        | some r => discFail r d.position.toNat s1
        | none => if s1.cas.dans.length + 1 = casLength s1 then discDone s1 else s1)
    add s)

/-- DONE_RX (R96, R430, R432): a member completes discovery, takes the chain epoch, and steps its bell time by the offset last measured
(DEDUCED, log 39). -/
def execDoneRx (h : CasHdr) (epoch : BitVec 16) (length transport : Byte) (hashes : Vector Word 8) (s : State) :
    Host.Outcome State Fault Refusal :=
  let n := length.toNat
  finish (casRecv h 0x03 (leBytes 2 epoch.toNat ++ [length, transport] ++ (hashes.toList.take n).flatMap (fun w => leBytes 4 w.toNat)) (fun s =>
      if !isMember s || discHeld s then s
      else
        let s1 := modCas (fun c => { c with disc := true, epoch := epoch.toNat, length := n, transport := transport.toNat, resid := 0 }) s
        let s2 := { s1 with bru := { s1.bru with cascade := .done } }
        bruCheck (if s.cas.resid = 0 then s2 else bellStep s.cas.resid s2)) id s)

/-- REDISC_RX (R433): the campanile starts a new discovery in LINK_TRAIN or IDLE, and holds the request in any other state. -/
def execRediscRx (h : CasHdr) (s : State) : Host.Outcome State Fault Refusal :=
  finish (casRecv h 0x04 [] (fun s =>
    if !isCampanile s then s
    else if s.glb.state = .linkTrain ∨ s.glb.state = .idle then bruCheck (startDisc s)
    else modCas (fun c => { c with redisc := true }) s) id s)

/-! ## The bell (R434, R435) -/

/-- The bytes of a bell set. -/
def bellBytes (fire : Bool) (tick epoch tseq : Nat) : List Byte :=
  withCheck (leBytes 1 (b2n fire) ++ leBytes 8 tick ++ leBytes 2 epoch ++ leBytes 2 tseq)

/-- BELL_SEND_TIMER (R434, R435): adv ticks ahead of a tick the campanile sends its bell set; it fires in PRINT, and from an accepted START's
tick on while ARMED waits for it (DEDUCED from the worked example, log 40). -/
def execBellSendTimer (s : State) : Host.Outcome State Fault Refusal :=
  finish (if !isCampanile s then s
    else
      let per := tickPeriod s
      let t0 := (s.now + fld s R.CAS_BELLCFG 9 0 + per - 1) / per * per
      let t := match s.cas.tick with
        | some x => if x < t0 then t0 else x + per
        | none => t0
      let due := match s.cas.ts with
        | some ts => decide (ts ≤ t)
        | none => false
      let fire := bellMode s && (s.glb.state = .print || (s.glb.state = .armed && due))
      let q := s.cas.tseq
      let s1 := modCas (fun c => { c with tick := some t, tseq := (q + 1) % 65536, bells := c.bells ++ [⟨t, fire, q, s.now⟩] }) s
      let b := bellBytes fire t s.cas.epoch q
      if cdUp s1 then casEmitSet 1 "BEL" b b s1 else s1)

/-- BELL_SET_RX (R434): a bell set arrives on CU: forwarded to CD, and decoded when its check and its epoch pass. -/
def execBellSetRx (data : Vector Byte 14) (s : State) : Host.Outcome State Fault Refusal :=
  finish (let b := data.toList
    if !isMember s || !cuUp s then s
    else
      let s1 := if cdUp s then casEmitSet 1 "BEL" b b s else s
      if crc8 (b.take 13) ≠ b.getD 13 0 ∨ fieldAt b 9 2 ≠ s.cas.epoch then s1
      else
        let q := fieldAt b 11 2
        modCas (fun c => { c with tseq := (q + 1) % 65536, bells := (c.bells ++ [⟨fieldAt b 1 8, bitOf (fieldAt b 0 1) 0, q, s.now⟩]) }) s1)

/-- R128 applies to line `k` of every pipe in RUN of generator `g` (R154). -/
def bellLate (g t : Nat) (s : State) : State :=
  let k := (lt s g).k
  forEach ((ltPipes s g).filter (fun d => (dp s d).st = .run)) (fun d s => underrun d k (some (t + 400)) s) s

/-- The device has decoded a bell set for tick `t` with fire = 1 and the chain epoch by the deadline of generator `g` (R435). A device alone
needs none. -/
def bellHeard (t : Nat) (s : State) (g : Nat) : Bool :=
  casRole s = 0 || s.cas.bells.any (fun b => b.tick = t && b.fire && decide (b.seenAt + fld s (R.FIR_LTn_LEAD g) 11 0 ≤ t + 400))

/-- Each of the generators launches its line of the tick (R153), no closer to its last one than R146 allows. A line whose FIRE frame cannot
leave, for want of a buffer, of synchronised time, or because its launch lies more than 8,192 ticks ahead, is not ready for the tick
(R154, R198, R205, R216; log 64). -/
def bellLaunch (gs : List Nat) (t : Nat) (s : State) : State :=
  forEach gs (fun g s =>
    let launch := max (t + 400) (spacedFrom s g)
    if !mayCommit s g then s
    else if firesFit s g true && decide (launch ≤ s.now + 8192) then commitAt g (t + 400) launch s
    else bellLate g t s) s

/-- A tick in PRINT without its bell set in time for the generators: their line is treated as a late one, and CAS_BELL_MISSED (R128, R154,
R435). -/
def bellMissed (gs : List Nat) (t : Nat) (s : State) : State :=
  let s1 := setFlag R.CAS_FLAG 2 (incF R.CAS_CNT 23 16 s)
  let s2 := forEach gs (fun g s => bellLate g t s) s1
  raise Ev.CAS_BELL_MISSED 0xFF (t % 2 ^ 32) s2.cas.tseq 0 s2

/-- The transport device's sample of transport_pc, broadcast at every bell tick (R445; the order of the fields is a DESIGN CHOICE, log 31). -/
def sendPos (s : State) : State :=
  let x := pch s (trPc s)
  casBroadcast 0x14 (leBytes 4 (ipart x.pos) ++ leBytes 4 (posFrac x).toNat ++ leBytes 8 x.t ++ leBytes 4 (toWord x.v).toNat ++
    leBytes 1 (b2n x.valid + 2 * b2n x.dir)) s

/-- LOCAL_BELL_TICK (R435, R445): the deadline of the tick at bell time `tick` has come. -/
def execLocalBellTick (tick : BitVec 64) (s : State) : Host.Outcome State Fault Refusal :=
  finish (let t := tick.toNat
    let heard := s.cas.bells.any (fun b => b.tick = t)
    let late := (those 16 (ltBound s)).filter (fun g => !bellHeard t s g)
    let missed := !late.isEmpty || (casRole s ≠ 0 && !s.cas.bells.any (fun b => b.tick = t && b.fire))
    let s1 := modCas (fun c => { c with bells := c.bells.filter (fun b => decide (t < b.tick)) }) s
    let s2 := if chained s1 && trKind s1 ≠ 0 then sendPos s1 else s1
    if bellMode s2 then
      if s2.glb.state ≠ .print then s2
      else
        let s3 := bellLaunch ((those 16 (ltBound s)).filter (bellHeard t s)) t s2
        if missed then bellMissed late t s3 else s3
    else if chained s2 && !heard then incF R.CAS_CNT 23 16 s2
    else s2)

/-- TRG_SET_RX (R438, R446): a trigger set is forwarded and raises the mapped signals. -/
def execTrgSetRx (port : Fin 2) (mask : Byte) (s : State) : Host.Outcome State Fault Refusal :=
  finish (if casRole s = 0 ∨ (casPort s port).st ≠ .active then s
    else
      let other := 1 - port.val
      let s1 := if (casPort s other).st = .active then casEmitSet other "TRG" [mask] [mask] s else s
      forEach (those 8 (fun k => bitOf mask.toNat k && fld s1 (R.CAS_TRIG k) 15 15 = 1)) (fun k s => raiseSig (fld s (R.CAS_TRIG k) 13 8) 1 s) s1)

/-! ## Messages (R439 to R443) -/

/-- MSG_START_RX (R440): the tick at which armed devices enter PRINT. -/
def execMsgStartRx (h : CasHdr) (ts : BitVec 64) (s : State) : Host.Outcome State Fault Refusal :=
  finish (casMsgRecv h 0x01 (leBytes 8 ts.toNat) (modCas (fun c => { c with ts := some ts.toNat })) s)

/-- START_TICK (R440, R441): bell time reaches ts. -/
def execStartTick (s : State) : Host.Outcome State Fault Refusal :=
  finish (match s.cas.ts with
    | none => s
    | some ts =>
      let s1 := modCas (fun c => { c with ts := none }) s
      if s.glb.state = .armed then enterPrint s1 else raise Ev.CAS_START_MISS 0xFF (gnum s) (ts % 2 ^ 32) 0 s1)

/-- MSG_STOP_RX (R440): a device in PRINT enters STOPPING. -/
def execMsgStopRx (h : CasHdr) (s : State) : Host.Outcome State Fault Refusal :=
  finish (casMsgRecv h 0x02 [] (fun s => if s.glb.state = .print then enterStopping 0 s else s) s)

/-- PEER_STOP_RX (R442). -/
def execPeerStopRx (h : CasHdr) (code : BitVec 16) (s : State) : Host.Outcome State Fault Refusal :=
  finish (casMsgRecv h 0x03 (leBytes 2 code.toNat) (raise Ev.CAS_PEER_STOP 0xFF h.src.toNat code.toNat 0) s)

/-- PEER_HALT_RX (R442). -/
def execPeerHaltRx (h : CasHdr) (code : BitVec 16) (s : State) : Host.Outcome State Fault Refusal :=
  finish (casMsgRecv h 0x04 (leBytes 2 code.toNat) (raise Ev.CAS_PEER_HALT 0xFF h.src.toNat code.toNat 0) s)

/-- SSREQ_RX (R443): another device requests a seamless stop. -/
def execSsreqRx (h : CasHdr) (cause : Byte) (s : State) : Host.Outcome State Fault Refusal :=
  finish (casMsgRecv h 0x10 [cause] (fun s => (ssAsk .chain s).1) s)

/-- SSDEC_RX (R415): the chain's decision: applied at td; forbidden with reason 8 after td, and with reason 7 outside PRINT (R404). -/
def execSsdecRx (h : CasHdr) (td : BitVec 64) (s : State) : Host.Outcome State Fault Refusal :=
  finish (casMsgRecv h 0x11 (leBytes 8 td.toNat) (fun s =>
    let no (r : Nat) : State := casMsgTo 0x40 0x14 (leBytes 1 r) (ssForbid r s)
    if td.toNat < s.now then no 8
    else if s.glb.state ≠ .print then no 7
    else { setF R.DOT_SSSTAT 7 3 8 s with ss := { s.ss with td := some td.toNat } }) s)

/-- SSREADY_RX (R415): a device reports its refill gate. -/
def execSsreadyRx (h : CasHdr) (s : State) : Host.Outcome State Fault Refusal :=
  finish (casMsgRecv h 0x12 [] (ssReady (h.src.toNat % 8)) s)

/-- SSGO_RX (R415): every device enters ACCEL. -/
def execSsgoRx (h : CasHdr) (s : State) : Host.Outcome State Fault Refusal :=
  finish (casMsgRecv h 0x13 [] (fun s => if s.ss.phase = 4 then ssAccel s else s) s)

/-- SSFORBID_RX (R415): a device forbids its part: the transport device abandons for the chain. -/
def execSsforbidRx (h : CasHdr) (reason : Byte) (s : State) : Host.Outcome State Fault Refusal :=
  finish (casMsgRecv h 0x14 [reason] ssAbandon s)

/-- SSABANDON_RX (R412, R415). -/
def execSsabandonRx (h : CasHdr) (s : State) : Host.Outcome State Fault Refusal := finish (casMsgRecv h 0x15 [] ssAbandonLocal s)

/-- USER_MSG_RX (R439): a USER message is stored. -/
def execUserMsgRx (h : CasHdr) (data : Vector Byte 16) (s : State) : Host.Outcome State Fault Refusal :=
  finish (casMsgRecv h 0x20 data.toList (fun s =>
    let b := data.toList
    let s1 := forEach (List.range 4) (fun k s => wr (R.CAS_RXMSG k) (BitVec.ofNat 32 (fieldAt b (4 * k) 4)) s) s
    let s2 := wr R.CAS_RXSRC (BitVec.ofNat 32 (h.src.toNat + 256 * h.epoch.toNat)) s1
    logEvent Ev.CAS_MSG_RX 0xFF h.src.toNat h.epoch.toNat (fieldAt b 0 4) (setFlag R.CAS_FLAG 0 s2)) s)

/-! ## Status and position (R444, R445) -/

/-- STAT_RX (R444): the campanile's aggregated status of a member. -/
def execStatRx (h : CasHdr) (state : BitVec 4) (sev : BitVec 2) (code : BitVec 16) (die : Byte) (fill : BitVec 16) (s : State) :
    Host.Outcome State Fault Refusal :=
  finish (casRecv h 0x13 (leBytes 1 state.toNat ++ leBytes 1 sev.toNat ++ leBytes 2 code.toNat ++ [die] ++ leBytes 2 fill.toNat) (fun s =>
    let n := h.src.toNat % 8
    if !isCampanile s then s
    else wr (R.CAS_AGG_B n) (BitVec.ofNat 32 (fill.toNat + 2 ^ 24 * die.toNat))
      (wr (R.CAS_AGG_A n) (BitVec.ofNat 32 (state.toNat + 16 * sev.toNat + 64 + 65536 * code.toNat))
        (modCas (fun c => { c with memberHalt := c.memberHalt &&& ~~~(BitVec.ofNat 8 (2 ^ n)) }) s))) id s)

/-- STAT_TIMER (R444): 2^sper ticks have passed: a member sends its STAT; the campanile counts a status period without one. -/
def execStatTimer (s : State) : Host.Outcome State Fault Refusal :=
  finish (if isMember s then casStat s
    else if isCampanile s then
      forEach ((List.range s.cas.length).filter (fun n => n ≠ 0)) (fun n s => incF (R.CAS_AGG_B n) 23 16 s) s
    else s)

/-- MEMBER_LOST_TIMEOUT (R444): four periods without a STAT of member `n`. -/
def execMemberLostTimeout (n : Fin 8) (s : State) : Host.Outcome State Fault Refusal :=
  finish (if !isCampanile s || n = 0 || decide (s.cas.length ≤ n.val) then s
    else
      let a := fld s (R.CAS_AGG_A n) 3 0
      let g := fld s (R.CAS_AGG_B n) 23 16
      if firingState s then raise (Ev.CAS_MEMBER_LOST .halt) n n a g (modCas (fun c => { c with memberHalt := c.memberHalt ||| BitVec.ofNat 8 (2 ^ n.val) }) s)
      else logEvent (Ev.CAS_MEMBER_LOST .warn) n n a g s)

/-- The cross-check of a local channel against the received speed (R445). -/
def posCheck (rv : Int) (s0 : State) : State :=
  let s := useInvar [R.CAS_PCHK] s0
  let n := fld s R.CAS_PCHK 2 0
  let x := pch s n
  if fld s R.CAS_PCHK 3 3 = 0 ∨ !isMember s then s
  else if !x.valid || (x.v - rv).natAbs * 1024 ≤ fld s R.CAS_PCHK 13 4 * rv.natAbs then modCas (fun c => { c with posRun := 0 }) s
  else if s.cas.posRun + 1 < max 1 (fld s R.CAS_PCHK 19 16) then modCas (fun c => { c with posRun := c.posRun + 1 }) s
  else raise Ev.CAS_POS_DEV n n (toWord x.v).toNat (toWord rv).toNat (modCas (fun c => { c with posRun := 0 }) s)

/-- POS_FRAME_RX (R445): the transport device's sample: integer and fraction words, bell time, speed, VALID, direction. -/
def execPosFrameRx (h : CasHdr) (posInt posFrac : Word) (time : BitVec 64) (speed : Word) (valid dir : Bool) (s : State) :
    Host.Outcome State Fault Refusal :=
  finish (casRecv h 0x14 (leBytes 4 posInt.toNat ++ leBytes 4 posFrac.toNat ++ leBytes 8 time.toNat ++ leBytes 4 speed.toNat ++
      leBytes 1 (b2n valid + 2 * b2n dir)) (fun s =>
    posCheck (signed 32 speed.toNat) (wr R.CAS_RSPEED speed (wr R.CAS_RPOS_FRAC posFrac (wr R.CAS_RPOS_INT posInt s)))) id s)

/-! ## Commands (R447) -/

/-- CAS_CMD_STATUS of an evaluated command; a refusal raises CAS_CMD_REJECT. -/
def casResult (cmd res : Nat) (s : State) : State :=
  let s1 := wr R.CAS_CMD_STATUS (BitVec.ofNat 32 (res + 16 * gnum s + 256 * cmd)) s
  if res = 1 then s1 else logEvent Ev.CAS_CMD_REJECT 0xFF cmd (gnum s) res s1

/-- A USER frame with the message of CAS_TXMSG to the role of CAS_MSGDST, with its epoch; a broadcast carries the chain epoch (R427, R439). -/
def casUser (s : State) : State :=
  let dst := fld s R.CAS_MSGDST 7 0
  let body := leBytes 1 0x20 ++ (List.range 4).flatMap (fun k => leBytes 4 (rd s (R.CAS_TXMSG k)).toNat)
  if dst = 0xFF then casBroadcast 0x10 body s else casSendTo 0x10 dst (fld s R.CAS_MSGDST 23 8) body s

/-- An earlier USER frame still awaits its ACK. -/
def userWaits (s : State) : Bool := s.cas.sent.any (fun x => x.type = 0x10 && x.body.headD 0 = 0x20)

/-- A write of CAS_CMD (R447): 1 SEND, 2 RESYNC, 3 CLRCNT. -/
def casCmd (cmd : Nat) (s : State) : State :=
  let g := gnum s
  let early := g < 4
  match cmd with
  | 1 =>
    if g = 0 then s
    else if early || g = 10 || !(chained s && s.cas.disc) then casResult 1 2 s
    else if userWaits s then casResult 1 5 s
    else casResult 1 1 (casUser s)
  | 2 =>
    if g = 0 then s
    else if isMember s && (g = 5 || g = 9) then casResult 2 1 (if cuUp s || s.cas.cu.st = .timesync then casAcquire s else s)
    else casResult 2 2 s
  | 3 =>
    if g = 0 then s
    else if early then casResult 3 2 s
    else casResult 3 1 (wr R.CAS_CNT 0 s)
  | _ => if g = 0 then s else casResult cmd 3 s

/-- CAS_SEND (R447). -/
def execCasSend (s : State) : Host.Outcome State Fault Refusal := finish (viaTable R.CAS_CMD (casCmd 1) s)

/-- CAS_RESYNC (R447). -/
def execCasResync (s : State) : Host.Outcome State Fault Refusal := finish (viaTable R.CAS_CMD (casCmd 2) s)

/-- CAS_CLRCNT (R447). -/
def execCasClrcnt (s : State) : Host.Outcome State Fault Refusal := finish (viaTable R.CAS_CMD (casCmd 3) s)

end Sys2Proof.Machine
end

