-- ==== Sys2Proof/Machine/Dma.lean ====
section
/-!
DEFINITION. DMA channels: completion queues and records, hand-over, the data path of a transfer, and the channel commands
(spec/15_dma.md R449 to R486).
-/
namespace Sys2Proof.Machine

/-! ## Channels -/

/-- The encoding of DMA_DCn_STAT.state. -/
def DmaSt.code : DmaSt → Nat
  | .idle => 0
  | .run => 1
  | .wait => 2
  | .cqfull => 3
  | .pausing => 4
  | .paused => 5
  | .error => 6

/-- The queue of a channel (DMA_DCn_CFG.cq). -/
def dmaCq (s : State) (n : Nat) : Nat := fld s (R.DMA_DCn_CFG n) 4 0

/-- A channel's transfer and the data it holds end. -/
def dropXfer (x : Dma) : Dma := { x with xfer := false, held := false, hold := [], reads := [], iss := 0, fail := none, inst := [] }

/-- Reads issued and not complete. -/
def Dma.outstanding (x : Dma) : Nat := (x.reads.filter (fun r => r.data.isNone)).length

/-! ## Completion queues (R466 to R470) -/

/-- Entries, tail and head of a queue, and where its next record lies. -/
def cqSize (s : State) (q : Nat) : Nat := 2 ^ fld s (R.DMA_CQn_CFG q) 8 4
def cqTail (s : State) (q : Nat) : Nat := fld s (R.DMA_CQn_TAIL q) 15 0

def cqNext (s : State) (q : Nat) : Nat := rd64 s (R.DMA_CQn_BASE_LO q) (R.DMA_CQn_BASE_HI q) + 32 * cqTail s q

/-- The queue takes a record: it is enabled and not full, and in the SRAM its next entry lies in banks that are ON (R467, R498). -/
def cqRoom (s : State) (q : Nat) : Bool :=
  fld s (R.DMA_CQn_CFG q) 0 0 = 1 && (cqTail s q + 1) % cqSize s q ≠ fld s (R.DMA_CQn_HEAD q) 15 0 &&
    (fld s (R.DMA_CQn_CFG q) 1 1 = 0 || sramOn s (cqNext s q) 32)

/-- The queue's vector is sent (R470). -/
def cqVector (q : Nat) (s : State) : State :=
  sendMsix ⟨fld s (R.DMA_CQn_CFG q) 14 9 % 64, Nat.mod_lt _ (by decide)⟩ { s with cqSince := vset s.cqSince q 0 }

/-- A record is written to a queue: the tail moves on and the phase changes with each pass; the vector after 2^thr records, and the
queue's signal (R466, R469, R470). -/
def cqWrite (q : Nat) (body : List Byte) (s : State) : State :=
  let t := cqTail s q
  let s1 := postWrite (fld s (R.DMA_CQn_CFG q) 1 1) (cqNext s q) body s
  let nt := (t + 1) % cqSize s q
  let s2 := setF (R.DMA_CQn_TAIL q) 15 0 nt s1
  let s3 := if nt = 0 then setF (R.DMA_CQn_TAIL q) 16 16 (1 - fld s (R.DMA_CQn_TAIL q) 16 16) s2 else s2
  let s4 := { s3 with cqSince := vmod s3.cqSince q (· + 1) }
  let s5 := if fld s (R.DMA_CQn_CFG q) 2 2 = 1 ∧ 2 ^ fld s (R.DMA_CQn_CFG q) 24 21 ≤ vat s4.cqSince q then cqVector q s4 else s4
  if fld s (R.DMA_CQn_CFG q) 3 3 = 1 then raiseSig (fld s (R.DMA_CQn_CFG q) 20 15) 1 s5 else s5

/-- DMA_DCn_STAT.swapped after the event of a record: a SWAP or END that hands over sets it (R466, R471). -/
def recSwapped (x : Dma) (r : DmaRec) : Bool := if r.kind = 1 ∨ r.kind = 2 then x.swapped || x.arm else r.swp

/-- A record's 32 bytes (R466). -/
def recBytes (s : State) (n : Nat) (r : DmaRec) : List Byte :=
  leBytes 1 n ++ leBytes 1 r.status ++
    leBytes 1 (fld s (R.DMA_CQn_TAIL (dmaCq s n)) 16 16 + 2 * b2n (recSwapped (dc s n) r)) ++ leBytes 1 r.pc ++
    leBytes 4 r.pid ++ leBytes 8 r.bytes ++ leBytes 8 r.bell ++ leBytes 4 r.tag ++ leBytes 4 0

/-! ## Hand-over and the ends of instructions -/

/-- A channel ends in ERROR with a status: FLAG.err, DMA_ERROR or DMA_WAIT_TIMEOUT (R484). -/
def dmaError (n status : Nat) (s : State) : State :=
  let x := dc s n
  let s1 := setFlag (R.DMA_DCn_FLAG n) 0 (modDma n (fun x => { x with st := .error, status := status, after := 0 }) s)
  if status = 0x17 then
    logEvent Ev.DMA_WAIT_TIMEOUT n n (x.wtype * 256 + (x.inst.getD 2 0).toNat) x.pc s1
  else logEvent Ev.DMA_ERROR n n status x.pc s1

/-- A record joins those that wait for the channel's queue. -/
def dmaAddRec (n kind status tag : Nat) (s : State) : State :=
  modDma n (fun x => { x with recs := x.recs ++ [⟨kind, status, tag, x.pc, s.now, (rd s (R.DMA_DCn_APID n)).toNat,
    rd64 s (R.DMA_DCn_BYTES_LO n) (R.DMA_DCn_BYTES_HI n), x.swapped⟩] }) s

/-- A drain has reached its end: the DRAINED record, and PAUSED (R477). The record waits for room while the channel is
PAUSED. -/
def dmaDrained (n : Nat) (s : State) : State :=
  dmaAddRec n 3 3 0 (dmaPaused n (modDma n (fun x => { x with after := 0, was := if x.st = .wait then .wait else .run }) s))

/-- The channel goes on at PC: a drain ends here (R477). -/
def dmaGoOn (n : Nat) (s : State) : State :=
  if (dc s n).st = .pausing then s
  else if (dc s n).after = 1 then dmaDrained n (modDma n (fun x => { x with st := .run }) s)
  else modDma n (fun x => { x with st := .run }) s

/-- The channel must write a record and there is no room: CQFULL (R467). -/
def dmaFull (n : Nat) (s : State) : State :=
  logEvent Ev.DMA_CQ_FULL n n (dmaCq s n) (dc s n).pc
    (setFlag (R.DMA_DCn_FLAG n) 2 (modDma n (fun x => { x with st := .cqfull }) s))

/-- The active set takes the shadow's words: pointer, identifier, parameters; PC, the byte count and the descriptors clear (R471,
R454). -/
def dmaTake (n : Nat) (s : State) : State :=
  let s1 := wr (R.DMA_DCn_APTR n) (rd s (R.DMA_DCn_SPTR n)) (wr (R.DMA_DCn_APID n) (rd s (R.DMA_DCn_SPID n)) s)
  let s2 := forEach (List.range 16) (fun k s => wr (R.DMA_DCn_APAR n k) (rd s (R.DMA_DCn_SPAR n k)) s) s1
  let s3 := forEach [R.DMA_DCn_XOFF n, R.DMA_DCn_BYTES_LO n, R.DMA_DCn_BYTES_HI n, R.DMA_DCn_SBASE_LO n, R.DMA_DCn_SBASE_HI n,
    R.DMA_DCn_SPATR n, R.DMA_DCn_SROWS n, R.DMA_DCn_SSTRIDE n, R.DMA_DCn_DBASE_LO n, R.DMA_DCn_DBASE_HI n, R.DMA_DCn_DPATR n,
    R.DMA_DCn_DROWS n, R.DMA_DCn_DSTRIDE n] (fun o s => wr o 0 s) s2
  modDma n (fun x => { dropXfer x with pc := 0, arm := false, swapped := true, srcSet := false, spatSet := false, dstSet := false,
                                       dpatSet := false }) s3

/-- The program pointer lies at a multiple of 16 within a bank that is ON (R449, R472). -/
def ptrOk (s : State) (p : Nat) : Bool := p % 16 = 0 && sramOn s p 16

/-- The active set is discarded: its registers go back to 0 (R478). -/
def dmaDiscard (n : Nat) (s : State) : State :=
  forEach (R.DMA_DCn_APTR n :: R.DMA_DCn_APID n :: (List.range 16).map (R.DMA_DCn_APAR n)) (fun o s => wr o 0 s)
    (modDma n (fun x => { dropXfer x with st := .idle, after := 0, pc := 0 }) s)

/-- The channel may write its first record: a DRAINED record in any state, the others in CQFULL (R467, R475, R477). -/
def mayWrite (s : State) (n : Nat) : Bool :=
  match (dc s n).recs with
  | r :: _ => r.kind = 3 || (dc s n).st = .cqfull
  | [] => false

/-- PC moves on; past index 255 the channel ends with ERR_DECODE (R449). -/
def pcNext (n : Nat) (s : State) : State × Bool :=
  if 255 ≤ (dc s n).pc then (s, false) else (modDma n (fun x => { x with pc := x.pc + 1, inst := [] }) s, true)

/-- A channel's status becomes a record and then ERROR (R484). -/
def failRec (n status : Nat) (s : State) : State :=
  dmaAddRec n 5 status 0 (modDma n (fun x => { dropXfer x with inst := x.inst, after := 0 }) s)

/-- A hand-over: 1 END, 2 SWAP, 3 START; the new pointer is checked (R471, R472). -/
def handOver (n how : Nat) (s : State) : State :=
  let s1 := dmaTake n s
  let s2 := if fld s (R.DMA_DCn_CFG n) 6 6 = 1 then logEvent Ev.DMA_HANDOVER n n (rd s1 (R.DMA_DCn_APID n)).toNat how s1 else s1
  if ptrOk s2 (rd s2 (R.DMA_DCn_APTR n)).toNat then dmaGoOn n s2 else failRec n 0x11 s2

/-- What takes place when a record of a kind has been written, or at the end of a SWAP or END without one (R451, R471, R478, R484). -/
def afterRec (n kind status : Nat) (s : State) : State :=
  if kind = 0 ∨ (kind = 2 ∧ !(dc s n).arm) then
    match pcNext n s with
    | (s1, true) => dmaGoOn n s1
    | (s1, false) => failRec n 0x10 s1
  else if kind = 2 then handOver n 2 s
  else if kind = 1 then
    if (dc s n).arm then handOver n 1 s else modDma n (fun x => { dropXfer x with st := .idle, after := 0 }) s
  else if kind = 4 then dmaDiscard n s
  else if kind = 5 then dmaError n status s
  else s

/-- The first waiting record is written when there is room and no lower-numbered channel waits for the same queue; what follows it
takes place, and so on. A channel that cannot write its record enters CQFULL, except that a DRAINED record waits while the channel is
PAUSED (R467, R468, R477). `fuel` bounds the number. -/
def dmaPump : Nat → Nat → State → State
  | 0, _, s => s
  | fuel + 1, n, s =>
    match (dc s n).recs with
    | [] => s
    | r :: rest =>
      let q := dmaCq s n
      if cqRoom s q ∧ (List.range n).all (fun m => !(mayWrite s m && dmaCq s m = q)) then
        dmaPump fuel n (afterRec n r.kind r.status (modDma n (fun x => { x with recs := rest }) (cqWrite q (recBytes s n r) s)))
      else if (dc s n).st = .cqfull ∨ (r.kind = 3 ∧ rest.isEmpty) then s
      else dmaFull n s

/-- The channel writes a record, and what follows it takes place. -/
def dmaRec (n kind status tag : Nat) (s : State) : State := dmaPump 8 n (dmaAddRec n kind status tag s)

/-- A channel ends in ERROR: the record first (R484). -/
def dmaFail (n status : Nat) (s : State) : State := dmaPump 8 n (failRec n status s)

/-- A failing address is recorded (R457). -/
def errAddr (n a : Nat) (s : State) : State :=
  wr (R.DMA_DCn_ERRADDR_HI n) (BitVec.ofNat 32 (a / 2 ^ 32)) (wr (R.DMA_DCn_ERRADDR_LO n) (BitVec.ofNat 32 a) s)

/-- The instruction is done: PC moves on. -/
def dmaNext (n : Nat) (s : State) : State :=
  match pcNext n s with
  | (s1, true) => s1
  | (s1, false) => dmaFail n 0x10 s1

/-- CPL, SWAP and END (kinds 0, 2, 1), with a record or without (R466, R471). -/
def dmaClose (n kind status : Nat) (cpl : Bool) (tag : Nat) (s : State) : State :=
  if cpl then dmaRec n kind status tag s else dmaPump 8 n (afterRec n kind status s)

/-! ## The transfer (R454 to R457) -/

/-- One side of a transfer: base, row length, rows, stride, space. -/
structure DmaSide where
  base : Nat
  acnt : Nat
  bcnt : Nat
  stride : Int
  space : Nat

def srcSide (s : State) (n : Nat) : DmaSide :=
  { base := rd64 s (R.DMA_DCn_SBASE_LO n) (R.DMA_DCn_SBASE_HI n), acnt := fld s (R.DMA_DCn_SPATR n) 23 0 + 1,
    bcnt := fld s (R.DMA_DCn_SROWS n) 15 0 + 1, stride := signed 32 (rd s (R.DMA_DCn_SSTRIDE n)).toNat,
    space := fld s (R.DMA_DCn_SPATR n) 27 24 }
def dstSide (s : State) (n : Nat) : DmaSide :=
  { base := rd64 s (R.DMA_DCn_DBASE_LO n) (R.DMA_DCn_DBASE_HI n), acnt := fld s (R.DMA_DCn_DPATR n) 23 0 + 1,
    bcnt := fld s (R.DMA_DCn_DROWS n) 15 0 + 1, stride := signed 32 (rd s (R.DMA_DCn_DSTRIDE n)).toNat,
    space := fld s (R.DMA_DCn_DPATR n) 27 24 }

/-- Bytes of the pattern. -/
def DmaSide.total (x : DmaSide) : Nat := x.acnt * x.bcnt

/-- The address of byte `i` (R454). -/
def DmaSide.addr (x : DmaSide) (i : Nat) : Nat := narrow 64 ((x.base : Int) + (i / x.acnt : Nat) * x.stride + (i % x.acnt : Nat))

/-- The length of a request from byte `i`: at most `m` bytes, to no boundary of `b` bytes and no row end (R456). -/
def DmaSide.len (x : DmaSide) (i m b : Nat) : Nat := min (min m (b - x.addr i % b)) (x.acnt - i % x.acnt)

/-- The lengths of R456: host reads, which Max_Read_Request_Size `m` splits further (R511), and reads of the SRAM and the page store. -/
def DmaSide.readLen (x : DmaSide) (m i : Nat) : Nat := if x.space = 0 then x.len i (min 512 m) 4096 else x.len i 64 64
def DmaSide.writeLen (x : DmaSide) (i : Nat) : Nat := x.len i 64 64

/-- An access of `k` bytes at `a` of a space is in range and in a memory that answers (R457). -/
def dmaReach (s : State) (space a k : Nat) : Bool :=
  if space = 0 then true
  else if space = 1 then sramOn s a k
  else xmcUsable s ≠ 0 && decide (a + k ≤ xmcUsable s)

/-- Reads of host memory that are outstanding, over all channels. -/
def hostReads (s : State) : Nat := (List.range 32).foldl (fun k n => if (srcSide s n).space = 0 then k + (dc s n).outstanding else k) 0

/-- One more read of channel `n` may be outstanding: 8 of a channel (R456); of host memory, while Extended Tag Field Enable is 0, 32 over all
channels in place of that (R511). -/
def readRoom (s : State) (n : Nat) : Bool :=
  if (srcSide s n).space = 0 && !s.hst.extTag then decide (hostReads s < 32) else decide ((dc s n).outstanding < 8)

/-- The channel has a source read to issue: a transfer in progress with room for a read and bytes left, not pausing but for a
drain (R456, R475, R477). At a host access it holds while Bus Master Enable is 0 (R513). -/
def wantsRead (s : State) (n : Nat) : Bool :=
  let x := dc s n
  x.xfer && x.fail.isNone && readRoom s n && decide (x.iss < (srcSide s n).total) &&
    (x.st = .run || (x.st = .pausing && x.after = 1)) && ((srcSide s n).space ≠ 0 || s.hst.bme)

/-- Of the channels that ask at fabric port `port` (0 host memory, 1 SRAM, 2 page store), the one that goes first: prio 1 before prio 0, and
within one priority in rotating order from the channel after the one served last (R482). -/
def portPick (s : State) (port : Nat) (ask : Nat → Bool) : Option Nat :=
  let order := (List.range 32).map (fun k => (vat s.dmaTurn port + 1 + k) % 32)
  (order.find? (fun n => ask n && fld s (R.DMA_DCn_CFG n) 5 5 = 1)).or (order.find? ask)

/-- The channel among `cands` that issues the next source read for `port`. -/
def dmaPick (s : State) (cands : List Nat) (port : Nat) : Option Nat :=
  portPick s port (fun n => cands.contains n && wantsRead s n && (srcSide s n).space = port)

/-- Channel `n` had its turn at a port. -/
def tookTurn (port n : Nat) (s : State) : State := { s with dmaTurn := vset s.dmaTurn port n }

/-- Channel `n` issues its next source read; one that does not reach its memory fails the transfer (R456, R457). A read of host memory leaves
in its turn; the SRAM and the page store serve theirs in turn (`serveRead`). -/
def issueRead (n : Nat) (s : State) : State :=
  let x := dc s n
  let src := srcSide s n
  let a := src.addr x.iss
  let k := src.readLen s.hst.maxRead x.iss
  if dmaReach s src.space a k then
    let s1 := modDma n (fun x => { x with iss := x.iss + k, reads := x.reads ++ [⟨x.iss, k, a, none, none⟩] }) s
    if src.space = 0 then toHost (.hostRead n a k (bitOf (x.inst.getD 1 0).toNat 0)) (tookTurn 0 n s1) else s1
  else modDma n (fun x => { x with fail := some 0x11 }) (errAddr n a s)

/-- The channels in `cands` issue their source reads, one after the other (R456, R482). `fuel` bounds the number. -/
def dmaServe (cands : List Nat) : Nat → State → State
  | 0, s => s
  | fuel + 1, s =>
    match (List.range 3).findSome? (dmaPick s cands) with
    | some n => dmaServe cands fuel (issueRead n s)
    | none => s

/-- The place of the oldest read that its memory has not served. -/
def Dma.unserved (x : Dma) : Option Nat := x.reads.findIdx? (fun r => r.data.isNone && r.got.isNone)

/-- Channel `n` waits at the port of the SRAM or the page store. -/
def atPort (s : State) (port n : Nat) : Bool := (dc s n).unserved.isSome && (srcSide s n).space = port

/-- The SRAM or the page store serves the oldest read of channel `n` that waits (R489, R491, R503). -/
def serveRead (port n : Nat) (s : State) : State :=
  match (dc s n).unserved with
  | none => s
  | some j =>
    match (dc s n).reads[j]? with
    | none => s
    | some r =>
      let put (bs : List Byte) (s : State) : State :=
        tookTurn port n (modDma n (fun x => { x with reads := x.reads.set j { r with got := some bs } }) s)
      if !dmaReach s port r.addr r.len then put [] s
      else if port = 1 then put (sramRead s r.addr r.len) (marchYield r.addr r.len s)
      else put (pageRead s r.addr r.len) s

/-- The port serves the reads that wait at it in the order of R482, until `stop` holds. `fuel` bounds the number. -/
def portTurn (port : Nat) (stop : State → Bool) : Nat → State → State
  | 0, s => s
  | fuel + 1, s =>
    if stop s then s
    else
      match portPick s port (atPort s port) with
      | some n => portTurn port stop fuel (serveRead port n s)
      | none => s

/-- A program fetch of channel `n` waits for its turn among the reads at the SRAM's port (R482, R489). -/
def fetchTurn (n : Nat) (s : State) : State :=
  tookTurn 1 n (portTurn 1 (fun s => portPick s 1 (fun m => m = n || atPort s 1 m) = some n) 512 s)

/-- Bytes written by the program rise by `k`, and XOFF with them. -/
def dmaCount (n k : Nat) (s : State) : State :=
  let b := rd64 s (R.DMA_DCn_BYTES_LO n) (R.DMA_DCn_BYTES_HI n) + k
  wr (R.DMA_DCn_XOFF n) (rd s (R.DMA_DCn_XOFF n) + BitVec.ofNat 32 k)
    (wr (R.DMA_DCn_BYTES_HI n) (BitVec.ofNat 32 (b / 2 ^ 32)) (wr (R.DMA_DCn_BYTES_LO n) (BitVec.ofNat 32 b) s))

/-- A destination write: a memory accepts it later (DMA_WRITE_COMPLETE); a host write is complete when it is issued (R458). -/
def dmaPut (n space a : Nat) (bs : List Byte) (s : State) : State :=
  if space = 0 then
    toHost (.hostWrite a bs (bitOf ((dc s n).inst.getD 1 0).toNat 1)) (modDma n (fun x => { x with hpend := x.hpend || !s.hst.bme }) s)
  else modDma n (fun x => { x with wpend := true }) 
    (if space = 1 then sramWrite a bs (marchYield a bs.length s) else pageWrite a bs s)

/-- Destination writes are issued for the bytes that wait, each when all of its bytes are there, or with what is there when `flush`
is set (R456, R475). `fuel` bounds the number. -/
def dmaStore (all : Bool) : Nat → Nat → State → State
  | 0, _, s => s
  | fuel + 1, n, s =>
    let x := dc s n
    let dst := dstSide s n
    let off := (rd s (R.DMA_DCn_XOFF n)).toNat
    let k := if all then min x.hold.length (dst.writeLen off) else dst.writeLen off
    if x.fail.isSome || x.hold.isEmpty || decide (x.hold.length < k) then s
    else
      let a := dst.addr off
      if dmaReach s dst.space a k then
        dmaStore all fuel n (dmaCount n k (dmaPut n dst.space a (x.hold.take k) (modDma n (fun x => { x with hold := x.hold.drop k }) s)))
      else modDma n (fun x => { x with fail := some 0x11 }) (errAddr n a s)

/-- Completed reads at the head of the list enter the holding register, in order (R456). -/
def dmaPack : List DmaRead → List Byte × List DmaRead
  | [] => ([], [])
  | r :: rs =>
    match r.data with
    | some d => let t := dmaPack rs; (d ++ t.1, t.2)
    | none => ([], r :: rs)

/-- The transfer is complete: the bases advance, XOFF returns to 0 and PC moves on (R455). -/
def dmaXferDone (n : Nat) (s : State) : State :=
  let i := (dc s n).inst
  let adv (lo hi : Nat) (d : Int) (s : State) : State :=
    let b := narrow 64 ((rd64 s lo hi : Int) + d)
    wr hi (BitVec.ofNat 32 (b / 2 ^ 32)) (wr lo (BitVec.ofNat 32 b) s)
  let s1 := adv (R.DMA_DCn_SBASE_LO n) (R.DMA_DCn_SBASE_HI n) (signed 32 (fieldAt i 4 4)) s
  let s2 := adv (R.DMA_DCn_DBASE_LO n) (R.DMA_DCn_DBASE_HI n) (signed 32 (fieldAt i 8 4)) s1
  dmaNext n (wr (R.DMA_DCn_XOFF n) 0 (modDma n (fun x => { x with xfer := false, hold := [], reads := [], iss := 0 }) s2))

/-- The channels in `cands` issue the source reads that they can; one whose next read reaches no memory, with none outstanding, fails (R456,
R457). -/
def dmaIssue (cands : List Nat) (s : State) : State :=
  let s1 := dmaServe cands 1024 s
  forEach (cands.filter (fun n => (dc s1 n).xfer && (dc s1 n).fail.isSome && (dc s1 n).outstanding = 0)) (fun n s => dmaFail n 0x11 s) s1

/-- The channels that may go on when channel `n` does: while Extended Tag Field Enable is 0, all that share its host reads (R511). -/
def readers (s : State) (n : Nat) : List Nat := if s.hst.extTag then [n] else n :: (List.range 32).filter (fun m => m ≠ n)

/-- The channel moves what it can: pack, store, and the end of the transfer or its failure; then the next reads (R456). A pausing
channel issues none, except in a drain (R475, R477). -/
def dmaMove (n : Nat) (s : State) : State :=
  let x := dc s n
  let p := dmaPack x.reads
  let s1 := dmaStore false (x.hold.length + p.1.length + 1) n
    (modDma n (fun x => { x with hold := if x.fail.isSome then [] else x.hold ++ p.1, reads := p.2 }) s)
  let y := dc s1 n
  match y.fail with
  | some st => if y.outstanding = 0 then dmaFail n st s1 else s1
  | none =>
    if (srcSide s1 n).total ≤ (rd s1 (R.DMA_DCn_XOFF n)).toNat then dmaXferDone n s1
    else dmaIssue (readers s1 n) s1

/-- Read `i` of a channel is complete with data, or has failed. -/
def readDone (n i : Nat) (res : Except Nat (List Byte)) (s : State) : State :=
  match (dc s n).reads[i]? with
  | some r =>
    if r.data.isSome then s
    else
      let s1 := modDma n (fun x => { x with reads := x.reads.set i { r with data := some (match res with
        | .ok d => slice d 0 r.len
        | .error _ => []) } }) s
      match res with
      | .ok _ => dmaMove n s1
      | .error st => dmaMove n (if (dc s1 n).fail.isSome then s1 else modDma n (fun x => { x with fail := some st }) (errAddr n r.addr s1))
  | none => s

/-- The place of the `k`-th read that is outstanding, in the order of issue. -/
def outAt : List DmaRead → Nat → Option Nat
  | [], _ => none
  | r :: rs, k =>
    if r.data.isSome then (outAt rs k).map (· + 1)
    else
      match k with
      | 0 => some 0
      | k + 1 => (outAt rs k).map (· + 1)

/-- Read `i` of channel `n` has been served by its memory. -/
def isServed (n i : Nat) (s : State) : Bool :=
  match (dc s n).reads[i]? with
  | some r => r.got.isSome
  | none => true

/-- The end of a source read of the device's own memories: its port serves what waits ahead of it in turn, and the data is what the memory
gave (R457, R482, R491, R507). -/
def ownEnd (port n i : Nat) (errs : List EccErr) (s0 : State) : State :=
  let s := portTurn port (isServed n i) 512 s0
  match (dc s n).reads[i]? with
  | some r =>
    let bs := r.got.getD []
    if bs.length ≠ r.len then readDone n i (.error 0x11) s
    else if port = 1 then readDone n i (.ok bs) s
    else
      let s1 := eccErrors r.addr r.len 1 errs s
      if eccHard s r.addr r.len errs then readDone n i (.error 0x13) s1 else readDone n i (.ok bs) s1
  | none => s

/-- The end of a source read by its space: of host memory the data comes with the completion (R456, R457). -/
def readEnd (n i : Nat) (e : DmaReadEnd) (s : State) : State :=
  let sp := (srcSide s n).space
  if sp = 0 then
    match e with
    | .ok d => readDone n i (.ok d) s
    | .bad | .ecc _ => readDone n i (.error 0x12) s
  else
    match e with
    | .ecc errs => ownEnd sp n i errs s
    | .ok _ | .bad => ownEnd sp n i [] s

/-- DMA_READ_COMPLETION (R456, R457): the `k`-th of the channel's outstanding reads completes. -/
def execDmaReadCompletion (n k : Fin 32) (e : DmaReadEnd) (s : State) : Host.Outcome State Fault Refusal :=
  finish (match outAt (dc s n.val).reads k.val with
    | some i => readEnd n.val i e s
    | none => s)

/-- HOST_READ_TIMEOUT (R457): the `k`-th outstanding read, of host memory, reaches the completion timeout. -/
def execHostReadTimeout (n k : Fin 32) (s : State) : Host.Outcome State Fault Refusal :=
  finish (match outAt (dc s n.val).reads k.val with
    | some i => if (srcSide s n.val).space = 0 then readDone n.val i (.error 0x12) s else s
    | none => s)

/-- The end of a pause: the reads issued are complete; the bytes read are written, the holding register is empty, and the channel
enters PAUSED; an abort then writes its record (R475, R477, R478). -/
def pauseDone (n : Nat) (s : State) : State :=
  let x := dc s n
  if x.st ≠ .pausing ∨ x.outstanding ≠ 0 then s
  else if x.after = 1 then
    if x.xfer || x.held then s else dmaPump 8 n (dmaDrained n s)
  else
    let s1 := dmaStore true (x.hold.length + 1) n s
    match (dc s1 n).fail with
    | some st => dmaFail n st s1
    | none =>
      let s2 := dmaPaused n (modDma n (fun x => { x with reads := [], hold := [], iss := (rd s1 (R.DMA_DCn_XOFF n)).toNat }) s1)
      if x.after = 2 then dmaRec n 4 4 0 s2 else s2

/-- DMA_PAUSE_DONE (R475). -/
def execDmaPauseDone (n : Fin 32) (s : State) : Host.Outcome State Fault Refusal := finish (pauseDone n.val s)

/-- The channels that hold at a host access go on, in the order of R482 (R513). -/
def dmaUnhold (s : State) : State := dmaIssue (List.range 32) s

/-- BME_SET (R98, R482, R513): held requests, events and messages continue in order, and the channels that hold at a host access. A
configuration write that is answered with Retry Status sets nothing. -/
def execBmeSet (s : State) : Host.Outcome State Fault Refusal :=
  finish (if s.hst.bme ∨ cfgReply s ≠ .success then s
    else dmaUnhold (evDrain 128 (sendHeld { s with hst := { s.hst with bme := true } })))

/-! ## Queue and signal commands -/

/-- CQFULL_RELEASE (R467, R468): room in its queue lets a channel write its record and go on. -/
def execCqfullRelease (n : Fin 32) (s : State) : Host.Outcome State Fault Refusal :=
  finish (if mayWrite s n.val then dmaPump 8 n.val s else s)

/-- CQ_IRQ_TIMER (R470): a record has waited unsignalled for 2^tmo ticks. -/
def execCqIrqTimer (q : Fin 32) (s : State) : Host.Outcome State Fault Refusal :=
  finish (if fld s (R.DMA_CQn_CFG q.val) 2 2 = 1 ∧ vat s.cqSince q.val ≠ 0 then cqVector q.val s else s)

/-- CQ_HEAD_WRITE (R468): entries are freed. -/
def execCqHeadWrite (q : Fin 32) (head : BitVec 16) (s : State) : Host.Outcome State Fault Refusal :=
  finish (viaBar0 (R.DMA_CQn_HEAD q.val) (setF (R.DMA_CQn_HEAD q.val) 15 0 head.toNat) s)

/-- A write of DMA_SIGRAISE (R465): op 0 adds, op 1 sets. -/
def sigRaiseWrite (v : Word) (s : State) : State :=
  if bits v 6 6 = 1 then sigPut (bits v 5 0) (bits v 15 8) s else raiseSig (bits v 5 0) (bits v 15 8) s

/-- SIGRAISE_ADD (R465). -/
def execSigraiseAdd (sg : Fin 64) (count : Byte) (s : State) : Host.Outcome State Fault Refusal :=
  finish (viaBar0 R.DMA_SIGRAISE (sigRaiseWrite (BitVec.ofNat 32 (sg.val + 256 * count.toNat))) s)

/-- SIGRAISE_SET (R465). -/
def execSigraiseSet (sg : Fin 64) (count : Byte) (s : State) : Host.Outcome State Fault Refusal :=
  finish (viaBar0 R.DMA_SIGRAISE (sigRaiseWrite (BitVec.ofNat 32 (sg.val + 64 + 256 * count.toNat))) s)

/-- A shadow register of a channel, by its relative offset (R473). -/
def isShadow (rel : Nat) : Bool := rel = 0x10 || rel = 0x14 || (decide (0x40 ≤ rel) && decide (rel < 0x80) && rel % 4 = 0)

/-- A write of a shadow register: ignored while armed, with SHADOW_BUSY (R473). -/
def shadowWrite (n rel : Nat) (v : Word) (s : State) : State :=
  let o := R.DMA_DCn_STAT n + rel
  if (dc s n).arm then
    logEvent Ev.DMA_SHADOW_BUSY n n o 0 (setFlag (R.DMA_DCn_FLAG n) 1
      (wr (R.DMA_DCn_CMD_STATUS n) (BitVec.ofNat 32 (4 + 16 * (dc s n).st.code + 256 * 0xF)) s))
  else wr o v s

/-- SHADOW_REGISTER_WRITE (R473). -/
def execShadowRegisterWrite (n : Fin 32) (rel : BitVec 8) (v : Word) (s : State) : Host.Outcome State Fault Refusal :=
  finish (if isShadow rel.toNat then viaBar0 (R.DMA_DCn_STAT n.val + rel.toNat) (shadowWrite n.val rel.toNat v) s else s)

/-! ## Channel commands (R483) -/

/-- DMA_DCn_CMD_STATUS of an evaluated command; a refusal raises DMA_CMD_REJECT. -/
def dmaResult (n cmd res : Nat) (s : State) : State :=
  let s1 := wr (R.DMA_DCn_CMD_STATUS n) (BitVec.ofNat 32 (res + 16 * (dc s n).st.code + 256 * cmd)) s
  if res = 1 then s1 else logEvent Ev.DMA_CMD_REJECT n n cmd res s1

/-- A START accepted in IDLE with the shadow armed: the hand-over, to RUN (R471). -/
def dmaStart (n : Nat) (s : State) : State :=
  dmaPump 8 n (handOver n 3 (modDma n (fun x => { x with st := .run, after := 0 }) s))

/-- RESUME of a paused channel (R476). -/
def dmaResume (n : Nat) (s : State) : State :=
  let s1 := modDma n (fun x => { x with st := x.was }) s
  let x := dc s1 n
  if x.st = .run ∧ x.xfer then dmaMove n s1
  else if x.st = .cqfull then dmaPump 8 n s1
  else s1

/-- DRAIN of a channel in RUN, WAIT or CQFULL (R477). -/
def dmaDrain (n : Nat) (s : State) : State :=
  let x := dc s n
  let s1 := modDma n (fun x => { x with cause := 2, after := 1 }) s
  if x.st = .run then modDma n (fun x => { x with st := .pausing, was := .run }) s1
  else if x.st = .wait then dmaPump 8 n (dmaDrained n s1)
  else if x.st = .cqfull then s1
  else s

/-- ABORT (R478). -/
def dmaAbort (n : Nat) (s : State) : State :=
  match (dc s n).st with
  | .run => dmaPause 6 2 n s
  | .wait => dmaRec n 4 4 0 (dmaPause 6 2 n s)
  | .cqfull => dmaRec n 4 4 0 (modDma n (fun x => { x with recs := x.recs.filter (fun r => r.kind = 3) }) (dmaPause 6 2 n s))
  | .pausing => modDma n (fun x => { x with after := 2 }) s
  | .paused => dmaRec n 4 4 0 (modDma n (fun x => { x with recs := x.recs.filter (fun r => r.kind = 3) }) s)
  | _ => s

/-- The result of a channel command by the table of R483: 1 ACCEPTED, 2 STATE_REJECT, 3 INVALID, 5 NOT_ARMED. -/
def dmaTable (s : State) (n cmd : Nat) : Nat :=
  let st := (dc s n).st
  if cmd = 0 ∨ 8 < cmd then 3
  else if gnum s < 5 then 2
  else if (s.glb.state = .safeHold ∨ s.glb.state = .shutdown) ∧ (cmd = 1 ∨ cmd = 4) then 2
  else if cmd = 1 then
    if st = .idle then (if (dc s n).arm then 1 else 5) else if st = .paused ∨ st = .error then 2 else 1
  else if cmd = 4 then (if st = .idle ∨ st = .pausing ∨ st = .error then 2 else 1)
  else if cmd = 8 then (if st = .error then 1 else 2)
  else 1

/-- A write of DMA_DCn_CMD (R483). -/
def dmaCmd (n cmd : Nat) (s : State) : State :=
  if s.glb.state = .off then s
  else
    let r := dmaTable s n cmd
    let s1 := dmaResult n cmd r s
    if r ≠ 1 then s1
    else if cmd = 1 then (if (dc s n).st = .idle then dmaStart n s1 else s1)
    else if cmd = 2 then dmaPause 1 0 n s1
    else if cmd = 3 then dmaDrain n s1
    else if cmd = 4 then (if (dc s n).st = .paused then dmaResume n s1 else s1)
    else if cmd = 5 then dmaAbort n s1
    else if cmd = 6 then modDma n (fun x => { x with arm := true, swapped := false }) s1
    else if cmd = 7 then modDma n (fun x => { x with arm := false }) s1
    else modDma n (fun x => { x with st := .idle }) s1

/-- DMA_START (R471, R483). -/
def execDmaStart (n : Fin 32) (s : State) : Host.Outcome State Fault Refusal := finish (viaBar0 (R.DMA_DCn_CMD n.val) (dmaCmd n.val 1) s)

/-- DMA_PAUSE (R475). -/
def execDmaPause (n : Fin 32) (s : State) : Host.Outcome State Fault Refusal := finish (viaBar0 (R.DMA_DCn_CMD n.val) (dmaCmd n.val 2) s)

/-- DMA_DRAIN (R477). -/
def execDmaDrain (n : Fin 32) (s : State) : Host.Outcome State Fault Refusal := finish (viaBar0 (R.DMA_DCn_CMD n.val) (dmaCmd n.val 3) s)

/-- DMA_RESUME (R476). -/
def execDmaResume (n : Fin 32) (s : State) : Host.Outcome State Fault Refusal := finish (viaBar0 (R.DMA_DCn_CMD n.val) (dmaCmd n.val 4) s)

/-- DMA_ABORT (R478). -/
def execDmaAbort (n : Fin 32) (s : State) : Host.Outcome State Fault Refusal := finish (viaBar0 (R.DMA_DCn_CMD n.val) (dmaCmd n.val 5) s)

/-- DMA_ARM (R473). -/
def execDmaArm (n : Fin 32) (s : State) : Host.Outcome State Fault Refusal := finish (viaBar0 (R.DMA_DCn_CMD n.val) (dmaCmd n.val 6) s)

/-- DMA_DISARM (R474). -/
def execDmaDisarm (n : Fin 32) (s : State) : Host.Outcome State Fault Refusal := finish (viaBar0 (R.DMA_DCn_CMD n.val) (dmaCmd n.val 7) s)

/-- DMA_CLRERR (R483). -/
def execDmaClrerr (n : Fin 32) (s : State) : Host.Outcome State Fault Refusal := finish (viaBar0 (R.DMA_DCn_CMD n.val) (dmaCmd n.val 8) s)

end Sys2Proof.Machine
end

