-- ==== Sys2Proof/Machine/Memories.lean ====
section
/-!
DEFINITION. SRAM banks and their commands, the march engine, repair, and host accesses through BAR2 and BAR4
(spec/16_memories.md R487 to R510).
-/
namespace Sys2Proof.Machine

/-! ## What uses a bank -/

/-- Bytes that a program can take: 256 instructions (R449). -/
def programBytes : Nat := 4096

/-- Bank `b` holds part of the active program of a channel that is not IDLE, or of its armed program (R497). -/
def programIn (s : State) (b : Nat) : Bool :=
  (List.range 32).any (fun n => (dc s n).st ≠ .idle &&
    (meetsBank b (rd s (R.DMA_DCn_APTR n)).toNat programBytes ||
      ((dc s n).arm && meetsBank b (rd s (R.DMA_DCn_SPTR n)).toNat programBytes)))

/-- An enabled completion queue in the SRAM, and the enabled event ring: where they lie. -/
def cqRing (s : State) (q : Nat) : Nat × Nat := (rd64 s (R.DMA_CQn_BASE_LO q) (R.DMA_CQn_BASE_HI q), 32 * cqSize s q)
def cqInSram (s : State) (q : Nat) : Bool := fld s (R.DMA_CQn_CFG q) 1 0 = 3
def evRing (s : State) : Nat × Nat := (rd64 s R.HST_EVBASE_LO R.HST_EVBASE_HI, 32 * evSize s)
def evInSram (s : State) : Bool := fld s R.HST_EVCFG 1 0 = 3

/-- Bank `b` holds part of an item of R497. -/
def bankInUse (s : State) (b : Nat) : Bool :=
  (List.range 16).any (fun p => pipeBound s p && (dp s p).st ≠ .off && !dotPaged s p && meetsBank b (dotBase s p) (ringBytes s p)) ||
  programIn s b ||
  (List.range 32).any (fun q => cqInSram s q && meetsBank b (cqRing s q).1 (cqRing s q).2) ||
  (evInSram s && meetsBank b (evRing s).1 (evRing s).2) ||
  (fld s R.HST_LANCFG 0 0 = 1 && meetsBank b (rd64 s R.HST_LANBASE_LO R.HST_LANBASE_HI) 8192) ||
  (excluded s).any (fun r => meetsBank b r.1 r.2)

/-! ## Transitions -/

/-- A bank's transition begins: a borrowed window of it is released first (R495, R497). -/
def bankMove (b target : Nat) (s : State) : State :=
  let s1 := match s.mem.win with
    | some w => if bankOf w = b then setF R.MEM_BKSTAT (24 + b) (24 + b) 0 { s with mem := { s.mem with win := none, late := some w } } else s
    | none => s
  setF R.MEM_BKSTAT (16 + b) (16 + b) 1 
    { s1 with mem := { s1.mem with target := vset s1.mem.target b target, powered := s1.mem.powered &&& ~~~(BitVec.ofNat 8 (2 ^ b)) } }

/-- Bank `b` still waits for the test of SELFTEST (R85). -/
def testWaits (s : State) (b : Nat) : Bool :=
  bitOf s.ldr.testBanks.toNat b && (s.bru.memory = .running || s.bru.memory = .failed)

/-- The bank is powered up for its test: it holds zero, and counts as not ON (R85, R495). -/
def bankPower (b : Nat) (s : State) : State :=
  bankFill b 0 { s with mem := { s.mem with powered := s.mem.powered ||| BitVec.ofNat 8 (2 ^ b) } }

/-- BANK_TRANSITION_DONE (R495): the bank is in its new state; coming from OFF it holds zero, going to OFF it loses its contents. On the
way from OFF to RETENTION it is powered up first, and goes on once SELFTEST has tested it (R85). -/
def execBankTransitionDone (b : Fin 8) (s : State) : Host.Outcome State Fault Refusal :=
  finish (let old := bkState s b.val
    let new := vat s.mem.target b.val
    let up := bitOf s.mem.powered.toNat b.val
    if !bkBusy s b.val then s
    else if old = 2 ∧ new = 1 ∧ testWaits s b.val then (if up then s else bankPower b.val s)
    else
      let s1 := setF R.MEM_BKSTAT (16 + b.val) (16 + b.val) 0 (setF R.MEM_BKSTAT (2 * b.val + 1) (2 * b.val) new
        { s with mem := { s.mem with powered := s.mem.powered &&& ~~~(BitVec.ofNat 8 (2 ^ b.val)) } })
      let s2 := if (old = 2 ∧ !up) ∨ new = 2 then bankFill b.val 0 s1 else s1
      logEvent Ev.MEM_BANK_STATE b.val b.val old new
        { s2 with mem := { s2.mem with asleep := s2.mem.asleep &&& ~~~(BitVec.ofNat 8 (2 ^ b.val)) } })

/-! ## Repair -/

/-- Spares of a way: 16 rows and 4 column groups (R499). -/
def waySpares : Nat := 20

/-- Free spares of way `m` of bank `b`. -/
def waysFree (s : State) (b m : Nat) : Nat := waySpares - vat s.mem.used (8 * b + m)

/-- MEM_BKREPn.free follows the spares in use; a way with fewer than 2 raises MEM_REPAIR_LOW once for its bank (R499, R500). -/
def repairLow (b : Nat) (s : State) : State :=
  let least := (List.range 8).foldl (fun f m => min f (waysFree s b m)) waySpares
  let s1 := setF (R.MEM_BKREP b) 23 16 least s
  match (those 8 (fun m => decide (waysFree s b m < 2))).head? with
  | some m =>
    if bitOf s.mem.repLow.toNat b then s1
    else logEvent Ev.MEM_REPAIR_LOW b b m (waysFree s b m)
      (setFlag R.MEM_FLAG 2 { s1 with mem := { s1.mem with repLow := s1.mem.repLow ||| BitVec.ofNat 8 (2 ^ b) } })
  | none => s1

/-- The way of an SRAM offset (R487). -/
def wayOf (a : Nat) : Nat := a % bankSize / 32 % 8

/-- MEM_BKREPn.fail: the way held a fault with no free spare. -/
def wayFails (b m : Nat) (s : State) : State := if waysFree s b m = 0 then setF (R.MEM_BKREP b) (24 + m) (24 + m) 1 s else s

/-- A march fault: the count, MEM_MARCHFAIL, MEM_FLAG.fault; a preserving test covers it with a free spare (R505). -/
def marchFault (preserving : Bool) (a : Nat) (s : State) : State :=
  let b := bankOf a
  let m := wayOf a
  let fix := preserving && decide (0 < waysFree s b m)
  let s1 := wayFails b m (setFlag R.MEM_FLAG 1 (wr R.MEM_MARCHFAIL (BitVec.ofNat 32 a) (incF R.MEM_MARCHSTAT 15 4 s)))
  let s2 := logEvent Ev.MEM_MARCH_FAULT 0xFF a (if preserving then 1 else 2) (b2n fix) s1
  if fix then repairLow b (incF (R.MEM_BKREP b) 15 8 { s2 with mem := { s2.mem with used := vmod s2.mem.used (8 * b + m) (· + 1) } })
  else s2

/-! ## The destructive test (R501, R509) -/

/-- A destructive test starts: the bank reads 0. -/
def marchStart (b : Nat) (s : State) : State :=
  let s1 := bankFill b 0 { s with mem := { s.mem with test := some ⟨b, s.now⟩, cut := none } }
  setF R.MEM_MARCHSTAT 3 3 1 (setF R.MEM_MARCHSTAT 2 0 b s1)

/-- The test ends: every byte of the bank is bg. -/
def marchEnd (s : State) : State :=
  match s.mem.test with
  | some t => setF R.MEM_MARCHSTAT 3 3 0 (bankFill t.bank (BitVec.ofNat 8 (fld s R.MEM_MARCHCFG 23 16)) { s with mem := { s.mem with test := none } })
  | none => s

/-- A test that runs ends before its end: the bank is left all bg; the faults that it has found come with MARCH_TEST_DONE (R505, R509;
DESIGN CHOICE, log 78). -/
def marchCut (s : State) : State :=
  match s.mem.test with
  | some t => marchEnd { s with mem := { s.mem with cut := some t.bank } }
  | none => s

/-- The faults that a destructive test of bank `b` has found, by their offset in the bank (R505). -/
def testFaults (b : Nat) (faults : List (Fin 12582912)) (s : State) : State :=
  faults.foldl (fun s a => marchFault false (b * bankSize + a.val) s) s

/-- MARCH_TEST_DONE (R501, R505): the test ends with the faults it has found; after a test that was ended early, those faults alone. -/
def execMarchTestDone (faults : List (Fin 12582912)) (s : State) : Host.Outcome State Fault Refusal :=
  finish (match s.mem.test, s.mem.cut with
    | some t, _ => logEvent Ev.MEM_MARCH_DONE t.bank t.bank faults.length ((s.now - t.from_) / 400) (testFaults t.bank faults (marchEnd s))
    | none, some b => testFaults b faults { s with mem := { s.mem with cut := none } }
    | none, none => s)

/-! ## Bank commands (R509) -/

/-- MEM_CMD_STATUS of an evaluated command; a refusal raises MEM_CMD_REJECT. -/
def memResult (cmd b res : Nat) (s : State) : State :=
  let s1 := wr R.MEM_CMD_STATUS (BitVec.ofNat 32 (res + 16 * gnum s + 256 * cmd)) s
  if res = 1 then s1 else logEvent Ev.MEM_CMD_REJECT b cmd b res s1

/-- The result of a bank command: 1 ACCEPTED, 2 STATE_REJECT, 3 INVALID, 4 IN_USE. -/
def memTable (s : State) (cmd b : Nat) : Nat :=
  if cmd = 0 ∨ 4 < cmd then 3
  else if gnum s < 5 ∨ s.glb.state = .shutdown then 2
  else if cmd = 1 then (if !bankOn s b then 2 else if bankInUse s b then 4 else 1)
  else if cmd = 2 then (if bkState s b = 1 ∧ !bkBusy s b then 1 else 2)
  else if cmd = 3 then
    if s.glb.state ≠ .idle ∨ !bankOn s b then 2 else if bankInUse s b then 4 else 1
  else 1

/-- A write of MEM_CMD: SLEEP, WAKE, MARCH, STOPMARCH (R495, R501, R509). The one engine ends a test that runs when a MARCH starts another
(DESIGN CHOICE, log 78). -/
def memCmd (cmd b : Nat) (s : State) : State :=
  if s.glb.state = .off then s
  else
    let r := memTable s cmd b
    let s1 := memResult cmd b r s
    if r ≠ 1 then s1
    else if cmd = 1 then bankMove b 1 (if s.mem.test.map MarchTest.bank = some b then marchCut s1 else s1)
    else if cmd = 2 then bankMove b 0 s1
    else if cmd = 3 then marchStart b (marchCut s1)
    else if s.glb.state = .idle then marchCut s1
    else s1

/-- MEM_SLEEP (R497). -/
def execMemSleep (b : Fin 8) (s : State) : Host.Outcome State Fault Refusal := finish (viaBar0 R.MEM_CMD (memCmd 1 b.val) s)

/-- MEM_WAKE (R495). -/
def execMemWake (b : Fin 8) (s : State) : Host.Outcome State Fault Refusal := finish (viaBar0 R.MEM_CMD (memCmd 2 b.val) s)

/-- MEM_MARCH (R501). -/
def execMemMarch (b : Fin 8) (s : State) : Host.Outcome State Fault Refusal := finish (viaBar0 R.MEM_CMD (memCmd 3 b.val) s)

/-- MEM_STOPMARCH (R509): the command names a bank that it does not use. -/
def execMemStopmarch (b : Fin 8) (s : State) : Host.Outcome State Fault Refusal := finish (viaBar0 R.MEM_CMD (memCmd 4 b.val) s)

/-! ## The background test (R502 to R505) -/

/-- The engine may borrow window `i` (R52). -/
def windowFree (s : State) (i : Nat) : Bool :=
  let a := 4096 * i
  marchBank s (bankOf a) && bankOn s (bankOf a) && !(excluded s).any (fun r => decide (r.1 < a + 4096) && decide (a < r.1 + r.2))

/-- The first window from `i` on that the engine may borrow. -/
def nextWindow (s : State) (i : Nat) : Option Nat := ((List.range 24576).drop i).find? (windowFree s)

/-- MARCH_WINDOW_START (R502, R504): the next window in ascending order is borrowed, wrapping from the last to the first. -/
def execMarchWindowStart (s : State) : Host.Outcome State Fault Refusal :=
  finish (if fld s R.MEM_MARCHCFG 0 0 = 0 ∨ s.mem.win.isSome ∨ s.mem.test.isSome ∨ s.glb.div ≠ 0 ∨ gnum s < 3 ∨ 9 ≤ gnum s then s
    else
      match (nextWindow s s.mem.next).or (nextWindow s 0) with
      | some i =>
        let b := bankOf (4096 * i)
        setF R.MEM_BKSTAT (24 + b) (24 + b) 1 (setF R.MEM_MARCHSTAT 2 0 b { s with mem := { s.mem with win := some (4096 * i), next := i, late := none } })
      | none => s)

/-- MARCH_WINDOW_DONE (R502, R505): the march of the borrowed window ends with the faults it has found; the saved words are back. After a
window that was released early, the faults found until then alone: the words were restored at the release. -/
def execMarchWindowDone (faults : List MarchFault) (s : State) : Host.Outcome State Fault Refusal :=
  finish (match s.mem.win, s.mem.late with
    | none, some w => faults.foldl (fun s f => marchFault true (w + f.off.val) s) { s with mem := { s.mem with late := none } }
    | none, none => s
    | some w, _ =>
      let b := bankOf w
      let s1 := faults.foldl (fun s f => marchFault true (w + f.off.val) (match f.word with
        | some bs => sramWrite (w + f.off.val / 32 * 32) (slice bs 0 32) s
        | none => s)) s
      let s2 := setF R.MEM_BKSTAT (24 + b) (24 + b) 0 s1
      match nextWindow s2 (w / 4096 + 1) with
      | some i => { s2 with mem := { s2.mem with win := none, next := i } }
      | none => incF R.MEM_MARCHSTAT 31 24 { s2 with mem := { s2.mem with win := none, next := 0 } })

/-! ## BAR2 and BAR4 -/

/-- The length of an access. -/
def barLen : BarAccess → Nat
  | .read n => n
  | .write d => d.length

def barWrites : BarAccess → Bool
  | .read _ => false
  | .write _ => true

/-- An access to a bank that is not ON: the first since its last change of state raises MEM_BANK_ASLEEP (R496). -/
def asleepHit (b off : Nat) (w : Bool) (s : State) : State :=
  let s1 := setFlag R.MEM_FLAG 0 s
  if bitOf s.mem.asleep.toNat b then s
  else logEvent Ev.MEM_BANK_ASLEEP b b off (if w then 2 else 1)
    { s1 with mem := { s1.mem with asleep := s1.mem.asleep ||| BitVec.ofNat 8 (2 ^ b) } }

/-- The enabled bytes of a write, each at its place. -/
def putBytes (put : Nat → List Byte → State → State) : Nat → List (Option Byte) → State → State
  | _, [], s => s
  | a, some b :: bs, s => putBytes put (a + 1) bs (put a [b] s)
  | a, none :: bs, s => putBytes put (a + 1) bs s

/-- An access through BAR2 at `off` (R488, R496, R503). -/
def bar2 (off : Nat) (a : BarAccess) (s : State) : State :=
  let on (x : Nat) : Bool := decide (x < sramSize) && bankOn s (bankOf x)
  let s1 := (those 8 (fun b => meetsBank b off (barLen a) && !bankOn s b)).foldl (fun s b => asleepHit b off (barWrites a) s) (marchYield off (barLen a) s)
  match a with
  | .read n => respond 2 off ((List.range n).map (fun i => if on (off + i) then (sramRead s (off + i) 1).getD 0 0 else 0)) s1
  | .write d => putBytes (fun x bs s => if on x then sramWrite x bs s else s) off d s1

/-- BAR2_ACCESS (R488, R496): a host access through BAR2. -/
def execBar2Access (off : BitVec 27) (a : BarAccess) (s : State) : Host.Outcome State Fault Refusal :=
  finish (if windowOpen s 2 off.toNat (barWrites a) then bar2 off.toNat a (hostAccess s)
    else earlyAccess 2 off.toNat (barWrites a) (barLen a) (hostAccess s))

/-- The errors of a write that lie in a unit of which it enables some bytes and not all: the merge of such a unit reads it (R507). -/
def mergeErrs (base : Nat) (d : List (Option Byte)) (errs : List EccErr) : List EccErr :=
  errs.filter (fun e =>
    let u := 32 * (base / 32 + e.unit)
    let n := ((List.range 32).filter (fun j => decide (base ≤ u + j) && ((d.getD (u + j - base) none).isSome))).length
    decide (0 < n) && decide (n < 32))

/-- An access through BAR4 at `off`: the page store from the window's base (R507, R508). -/
def bar4 (off : Nat) (a : BarAccess) (errs : List EccErr) (s : State) : State :=
  let base := fld s R.XMC_WINBASE 5 0 * 2 ^ 28 + off
  let top := xmcUsable s
  match a with
  | .read n =>
    if top ≤ base then respond 4 off (List.replicate n 0) s
    else
      let data := (List.range n).map (fun i => if base + i < top then (pageRead s (base + i) 1).getD 0 0 else 0)
      let m := min n (top - base)
      let s1 := eccErrors base m 3 errs s
      if eccHard s base m errs then emit (.poison 4 off) s1 else respond 4 off data s1
  | .write d => putBytes (fun x bs s => if x < top then pageWrite x bs s else s) base d
      (eccErrors base (min d.length (top - base)) 3 (mergeErrs base d errs) s)

/-- BAR4_ACCESS (R508): a host access through BAR4; `errs`: the errors that inline ECC finds in it. -/
def execBar4Access (off : BitVec 28) (a : BarAccess) (errs : List EccErr) (s : State) : Host.Outcome State Fault Refusal :=
  finish (if windowOpen s 4 off.toNat (barWrites a) then bar4 off.toNat a errs (hostAccess s)
    else earlyAccess 4 off.toNat (barWrites a) (barLen a) (hostAccess s))

end Sys2Proof.Machine
end

