-- ==== Sys2Proof/Machine/Motor.lean ====
section
/-!
DEFINITION. Motor channels: PWM periods, zero crossings, start, lock and loss of the rotor, braking, commands
(spec/12_motor_drive.md R373 to R399). What the spec names and does not fix bit by bit is free: the observer's estimates are free values, the
current transform and the modulation free functions of their operands (log 5, log 79).
-/
namespace Sys2Proof.Machine

/-! ## Measures -/

/-- The bus voltage, mV, from the pin voltage of the bus input; without an input the bus is taken at vmax (R379). -/
def busOf (s : State) (n pin : Nat) : Nat :=
  if fld s (R.MOT_MCn_VSENSE n) 13 8 = 0x3F then fld s (R.MOT_MCn_VBUS n) 15 0
  else pin * fld s (R.MOT_MCn_VSENSE n) 31 16 / 256

/-- The phase currents, mA, from the sampled voltages in µV and the low-side on-times in 100 ns (R376, R377). -/
def phaseCurrents (r tmin : Nat) (uv : List Int) (on : List Nat) (prev : List Int) : List Int :=
  let i := uv.map (fun x => quotT x (r : Nat))
  let bad := those 3 (fun k => on.getD k 0 < tmin)
  match bad with
  | [] => i
  | [k] => i.set k (-((i.set k 0).foldl (· + ·) 0))
  | _ => prev

/-- The speed of an encoder channel, 1/16 rpm (R384, R394). -/
def encSpeed (s : State) (n : Nat) : Int :=
  quotT ((pch s (moEncPc s n)).v * 60) (rd s (R.MOT_MCn_ENCRES n)).toNat

/-- The encoder of the channel is OK and its speed VALID. -/
def encOk (s : State) (n : Nat) : Bool := !(pch s (moEncPc s n)).fault && (pch s (moEncPc s n)).valid

/-- Speed in 1/16 rpm from zero crossings: the span of the crossings given, six to an electrical turn, with the sign of their order
(R384, R388). -/
def zcSpeed (poles : Nat) (zc : List (Nat × Nat)) : Int :=
  match zc, zc.getLast? with
  | (t0, i0) :: (_, i1) :: _, some (tn, _) =>
    let k := zc.length - 1
    let v : Int := (16 * 60 * 400000000 * k / (max 1 (6 * (t0 - tn) * poles)) : Nat)
    if (i0 + 6 - i1) % 6 = 1 then v else if (i1 + 6 - i0) % 6 = 1 then -v else v
  | _, _ => 0

/-- The place of a crossing in the order of positive rotation U to V to W (R381): U rises, W falls, V rises, U falls, W rises, V
falls. -/
def zcIndex (phase : Nat) (rising : Bool) : Nat :=
  match phase, rising with
  | 0, true => 0
  | 2, false => 1
  | 1, true => 2
  | 0, false => 3
  | 2, true => 4
  | _, _ => 5

/-- rpm fields in 1/16 rpm. -/
def catchRpm (s : State) (n : Nat) : Nat := 16 * fld s (R.MOT_MCn_CATCH n) 15 0
def revRpm (s : State) (n : Nat) : Nat := 16 * fld s (R.MOT_MCn_CATCH n) 31 16
def focRpm (s : State) (n : Nat) : Nat := 16 * fld s (R.MOT_MCn_HANDOVER n) 15 0

/-- The scale of the demand: speed-loop updates per second. -/
def demScale (s : State) (n : Nat) : Nat := 250 * max 1 (moPwmKhz s n)

/-! ## Faults and braking -/

/-- The channel enters FAULT with all outputs low (R375, R378, R388, R393); `brake`: it short-brakes once slow. -/
def moFault (n : Nat) (brake : Bool) (s : State) : State :=
  moRelease n (moDrive n (setMo n .fault (modMo n (fun x => { x.idle with wantBrake := brake, shorted := false }) s)))

/-- BRAKE is requested: at once below safe_brake_rpm, else the channel coasts until then (R392). -/
def moBrakeAsk (n : Nat) (s : State) : State :=
  if (mo s n).speed.natAbs < 16 * moSafeRpm s n then moRelease n (setMo n .brake (modMo n (fun x => { x.idle with wantBrake := false }) s))
  else moCoast n true s

/-- A coasting or faulted channel that is to brake does so below safe_brake_rpm (R388, R392, R397). -/
def moSlow (n : Nat) (s : State) : State :=
  let x := mo s n
  if !x.wantBrake ∨ 16 * moSafeRpm s n ≤ x.speed.natAbs then s
  else if x.st = .coast then moBrakeAsk n s
  else if x.st = .fault then moDrive n (modMo n (fun x => { x with wantBrake := false, shorted := true }) s)
  else s

/-- A channel that an emergency ramp has brought to rest within the soft limits goes on to its target, from COAST through SENSE; beyond a
limit the move ends (R352, R391, R394). -/
def moGoOn (n tgt : Nat) (s : State) : State :=
  let p := signed 32 (ipart (pch s (moEncPc s n)).pos)
  if moMin s n ≤ p ∧ p ≤ moMax s n then moSense n true (modMo n (fun x => { x with prof := { x.prof with goal := .pos tgt } }) s) else s

/-- The end of a deceleration (R390, R391). -/
def moStopped (n : Nat) (s : State) : State :=
  let x := mo s n
  if x.emerg then
    match x.after with
    | some t => moGoOn n t (moCoast n false s)
    | none => moCoast n false s
  else if x.thenCoast ∨ fld s (R.MOT_MCn_CFG n) 1 1 = 0 then moCoast n false s
  else if x.moving && moEncoder s n then
    setMo n .run (modMo n (fun x => { x with phold := true, prof := { moTake s n x.prof with v := 0 } }) s)
  else moBrakeAsk n s

/-- The electrical angle of an encoder channel, 1/65,536 turn: that of its count, from the offset (R386). -/
def encTurn (s : State) (n : Nat) : Nat := quot ((pch s (moEncPc s n)).pos / 65536 * moPoles s n * 65536) (rd s (R.MOT_MCn_ENCRES n)).toNat
def encAngle (s : State) (n : Nat) : Nat := (fld s (R.MOT_MCn_EOFS n) 15 0 + encTurn s n) % 65536

/-- The electrical angle now, from the last crossing and a speed: phase U's back-EMF rises through zero at half a turn (R384, R387, R388; DEDUCED,
log 79). -/
def zcAngle (s : State) (n : Nat) (v : Int) : Nat :=
  match (mo s n).zc with
  | (t, i) :: _ => narrow 16 (32768 + (i * 65536 / 6 : Nat) + Int.fdiv (v * (moPoles s n * (s.now - t) * 65536 : Nat)) (16 * 60 * 400000000))
  | [] => 0

/-- The angle that the channel takes up as it begins or resumes control. -/
def heldAngle (s : State) (n : Nat) (v : Int) : Nat := if moEncoder s n then encAngle s n else zcAngle s n v

/-! ## Start (R384 to R386) -/

/-- The channel enters RUN at a speed: the demand starts from it, and iq ramps from 0 to that of the speed regulator; a plan goes on from the
present position and speed (R348, R384, R386, R388). -/
def moRun (n : Nat) (speed : Int) (s : State) : State :=
  setMo n .run (modMo n (fun x => { x with
      speed := speed, good := speed, demand := speed * demScale s n, lock := true, angRun := 0,
      prof := if x.moving then moTake s n x.prof else x.prof,
      dInt := 0, qInt := 0, sInt := 0, iqReg := 0, rampFrom := 0,
      emfRun := 0, lockRun := 0, ramp := fld s (R.MOT_MCn_HANDOVER n) 23 16, zc := [], emerg := false, phold := false }) s)

/-- A normal start: ALIGN, or RUN directly on an encoder whose offset is valid (R386). -/
def moAlign (n : Nat) (s : State) : State :=
  if moEncoder s n ∧ fld s (R.MOT_MCn_EOFS n) 16 16 = 1 then moRun n 0 s
  else setMo n .align (modMo n (fun x => { x with zc := [], revFrom := none, revHold := false }) s)

/-- STARTUP, open loop or from zero crossings. In sector i the floating phase crosses with index i; after ALIGN the rotor stands where U falls
(R386; DEDUCED, log 79). -/
def moStartup (n : Nat) (closed : Bool) (forced : Int) (s : State) : State :=
  setMo n .startup (modMo n (fun x => { x with closed := closed, matched := 0, forced := forced, lockRun := 0, zc := if closed then x.zc else [],
                                               sector := match closed, x.zc with
                                                 | true, (_, i) :: _ => (i + 1) % 6
                                                 | _, _ => 3,
                                               comm := 0, commAt := none }) s)

/-- The measured speed at the end of a window of SENSE; none for standstill. -/
def senseSpeed (s : State) (n : Nat) : Option Int :=
  if moEncoder s n then (if encOk s n then some (encSpeed s n) else none)
  else if (mo s n).zc.length < 3 then none else some (zcSpeed (moPoles s n) (mo s n).zc)

/-- SENSE_WINDOW_END (R384). -/
def execSenseWindowEnd (n : Fin 4) (s : State) : Host.Outcome State Fault Refusal :=
  finish (if (mo s n).st ≠ .sense then s
    else
      let v := (senseSpeed s n).getD 0
      let s1 := modMo n (fun x => { x with speed := v }) s
      if (senseSpeed s n).isSome ∧ (catchRpm s n : Int) ≤ v ∧ fld s (R.MOT_MCn_CFG n) 2 2 = 1 then
        if (focRpm s n : Int) ≤ v then
          logEvent Ev.MOT_CATCH n n (toWord v).toNat 1 (moRun n v (modMo n (fun x => { x with angle := heldAngle s n v }) s1))
        else logEvent Ev.MOT_CATCH n n (toWord v).toNat 2 (moStartup n true (v * (1000 * moPwmKhz s n : Nat)) s1)
      else if (senseSpeed s n).isSome ∧ v ≤ -(revRpm s n : Int) ∧ v < 0 then
        let from_ := (mo s1 n).revFrom.getD (s1.now - 400000 * fld s1 (R.MOT_MCn_SENSE n) 7 0)
        let s2 := modMo n (fun x => { x with revFrom := some from_, revHold := false, zc := [] }) s1
        if fld s2 (R.MOT_MCn_CFG n) 3 3 = 1 then setMo n .revbrake (modMo n (fun x => { x with revAt := some s2.now }) s2) else s2
      else moAlign n s1)

/-- ALIGN_END (R386): the alignment time has passed. -/
def execAlignEnd (n : Fin 4) (s : State) : Host.Outcome State Fault Refusal :=
  finish (if (mo s n).st ≠ .align then s
    else if moEncoder s n then
      let ang := narrow 16 (-(encTurn s n : Int))
      moRun n 0 (wr (R.MOT_MCn_EOFS n) (BitVec.ofNat 32 (ang + 65536)) s)
    else moStartup n false 0 s)

/-- REVBRAKE_HOLD_END (R385): the final short brake has been held. -/
def execRevbrakeHoldEnd (n : Fin 4) (s : State) : Host.Outcome State Fault Refusal :=
  finish (if (mo s n).st = .revbrake ∧ (mo s n).revHold then moAlign n s else s)

/-- Milliseconds for which REVBRAKE has braked; none without rev_en (R385, R401). -/
def Motor.brakedMs (x : Motor) (now : Nat) : Nat :=
  match x.revAt with
  | some t => (now - t) / 400000
  | none => 0

/-- REVERSE_TIMEOUT (R385): reverse rotation has persisted for revto. -/
def execReverseTimeout (n : Fin 4) (s : State) : Host.Outcome State Fault Refusal :=
  finish (let x := mo s n
    if (x.st = .sense ∨ x.st = .revbrake) ∧ x.revFrom.isSome ∧ !x.revHold then
      let s1 := moRelease n (setMo n .off (modMo n Motor.idle (setFlag (R.MOT_MCn_FLAG n) 5 s)))
      logEvent Ev.MOT_REVERSE_HELD n n (toWord x.speed).toNat (x.brakedMs s.now) s1
    else s)

/-! ## Loss of the rotor (R387 to R389) -/

/-- The pipes whose generator draws from transport_pc stop as R134 stops them: launched lines complete, the first line not launched
is the first unfired line (R389). -/
def rotorPipes (s : State) : State :=
  forEach (those 16 (fun p => pipeBound s p && ltSource s (pipeLt s p) = trPc s && ((dp s p).st = .run || (dp s p).st = .hold)))
    (fun p s =>
      let s1 := sendCancel (pipePort s p) s
      setPipe p .late (modDot p rewindPipe (wr (R.DOT_Pn_LATE p) (BitVec.ofNat 32 (dp s1 p).next) s1))) s

/-- Lock is lost: all outputs low, the grant released, REACQ, a fresh window (R388, R395); a loss within 1 s of a reacquisition continues the count. -/
def loseLock (n cause : Nat) (s : State) : State :=
  let x := mo s n
  let cont := match x.reacqAt with
    | some t => decide (s.now < t + 400000000)
    | none => false
  let good := x.good
  let s1 := moRelease n (setMo n .reacq (modMo n (fun x => { x with
    lock := false, zc := [], id := 0, iq := 0, idref := 0, angRun := 0, emfRun := 0, fails := if cont then x.fails else 0 })
      (setFlag (R.MOT_MCn_FLAG n) 0 s)))
  let s2 := if moIsTransport s n then rotorPipes (ssAbandon s1) else s1
  raise (Ev.MOT_ROTOR_LOST (lostSev s n)) n n cause (toWord good).toNat s2

/-- A reacquisition window fails: another starts, or the channel faults (R388). -/
def reacqFail (n : Nat) (s : State) : State :=
  let f := (mo s n).fails + 1
  let s1 := modMo n (fun x => { x with fails := f, zc := [] }) s
  if fld s (R.MOT_MCn_CFG n) 7 5 < f then
    let v := (mo s1 n).speed
    raise (Ev.MOT_ROTOR_FAULT (moSev s n)) n n f (toWord v).toNat (moFault n true s1)
  else s1

/-- REACQ_WINDOW_END (R388): 20 ms have passed without a result. -/
def execReacqWindowEnd (n : Fin 4) (s : State) : Host.Outcome State Fault Refusal :=
  finish (if (mo s n).st = .reacq then reacqFail n s else s)

/-- Seven crossings in REACQ: RUN within ±win % of the last speed under lock, else the window fails (R388). -/
def reacqTry (n : Nat) (s0 : State) : State :=
  let s := useInvar [R.MOT_MCn_LOCK n] s0
  if (mo s n).st ≠ .reacq then s
  else
  let x := mo s n
  let v := zcSpeed (moPoles s n) (x.zc.take 7)
  let s1 := modMo n (fun x => { x with speed := v }) s
  let win := fld s (R.MOT_MCn_LOCK n) 31 24
  if (v - x.good).natAbs * 100 ≤ x.good.natAbs * win ∧ (!moEncoder s n || !(pch s (moEncPc s n)).fault) then
    let w := x.fails + 1
    logEvent Ev.MOT_REACQUIRED n n (toWord v).toNat w
      (modMo n (fun x => { x with reacqAt := some s.now }) (moRun n v (modMo n (fun x => { x with angle := heldAngle s n v }) s1)))
  else reacqFail n s1

/-- STARTUP: a crossing counts when it falls within ±25 % of its expected instant. Once the channel commutates from the crossings, 30°
electrical after each, those within 1/12 of the electrical period after a commutation are blanked (R386). Answers none for a blanked
crossing, else whether it matches. -/
def zcMatch (s : State) (n : Nat) (dt : Nat) : Option Bool :=
  let x := mo s n
  let rate := (x.forced / (1000 * max 1 (moPwmKhz s n) : Nat)).toNat
  if rate = 0 then some false
  else
    let expect := 16 * 60 * 400000000 / (6 * rate * moPoles s n)
    if x.closed && decide (expect ≤ 2 * dt) && decide (dt < expect) then none
    else some (decide (expect * 3 ≤ 4 * dt) && decide (4 * dt ≤ expect * 5))

/-- A crossing in STARTUP; on crossings the channel commutates 30° electrical, half the interval, after it (R386). -/
def startupZc (n dt : Nat) (s : State) : State :=
  match zcMatch s n dt with
  | none => modMo n (fun x => { x with zc := x.zc.drop 1 }) s
  | some ok =>
    let m := if ok then (mo s n).matched + 1 else 0
    let closed := (mo s n).closed || fld s (R.MOT_MCn_STARTCFG n) 15 8 ≤ m
    let v := zcSpeed (moPoles s n) ((mo s n).zc.take 7)
    let i := ((mo s n).zc.head?.map Prod.snd).getD 0
    modMo n (fun x => { x with matched := m, closed := closed, speed := if closed then v else x.speed,
                               sector := if closed then i else x.sector, forced := if closed then v * (1000 * moPwmKhz s n : Nat) else x.forced,
                               commAt := if closed then some (s.now + dt / 2) else none }) s

/-- ZERO_CROSSING (R384 to R388, R392): the back-EMF or the braking current of a floating phase crosses zero. -/
def execZeroCrossing (n : Fin 4) (phase : Fin 3) (rising : Bool) (s : State) : Host.Outcome State Fault Refusal :=
  finish (let x := mo s n
    let dt := match x.zc with
      | (t, _) :: _ => s.now - t
      | [] => 0
    let s1 := modMo n (fun x => { x with zc := ((s.now, zcIndex phase.val rising) :: x.zc).take 64 }) s
    let v := zcSpeed (moPoles s n) ((mo s1 n).zc.take 7)
    let meas (s : State) : State := if (mo s n).zc.length < 2 then s else modMo n (fun x => { x with speed := v }) s
    match x.st with
    | .sense => s1
    | .startup => startupZc n dt s1
    | .reacq => if 7 ≤ (mo s1 n).zc.length then reacqTry n s1 else s1
    | .revbrake =>
      let s2 := meas s1
      if 2 ≤ (mo s2 n).zc.length ∧ -(revRpm s2 n : Int) < v then modMo n (fun x => { x with revHold := true }) s2 else s2
    | .coast => if moEncoder s n then s1 else moSlow n (meas s1)
    | .fault => moSlow n (meas s1)
    | .brake => if moEncoder s n then s1 else meas s1
    | _ => s)

/-- COAST_TIMEOUT (R392): 100 ms in COAST without a crossing or a VALID speed. -/
def execCoastTimeout (n : Fin 4) (s : State) : Host.Outcome State Fault Refusal :=
  finish (if (mo s n).st ≠ .coast then s
    else if (mo s n).wantBrake then moBrakeAsk n (modMo n (fun x => { x with speed := 0 }) s)
    else moRelease n (setMo n .off (modMo n (fun x => { x.idle with speed := 0 }) s)))

/-! ## Trips -/

/-- MOT_GATE_FAULT (R375): MCn_FLT_N has been low for 1 µs; a channel in FAULT that short-brakes lets go, too. -/
def execMotGateFault (n : Fin 4) (s : State) : Host.Outcome State Fault Refusal :=
  finish (if !moUsed s n then s
    else
      let c := moCode s n
      let v := (mo s n).speed
      raise (Ev.MOT_GATE_FAULT (moSev s n)) n n c (toWord v).toNat (moFault n false (setFlag (R.MOT_MCn_FLAG n) 2 s)))

/-- A phase current lies above itrip: outputs low, FAULT, flag and event (R378). -/
def moTrip (n phase : Nat) (ma : Word) (s : State) : State :=
  raise (Ev.MOT_OVERCURRENT (moSev s n)) n n phase ma.toNat (moFault n false (setFlag (R.MOT_MCn_FLAG n) 1 s))

/-- The magnitude of a current is above itrip (R378). -/
def overTrip (s : State) (n : Nat) (i : Int) : Bool := decide (fld s (R.MOT_MCn_ILIM n) 31 16 < i.natAbs)

/-- MOT_OVERCURRENT (R378): a conversion of a shunt input, signed mA, is compared with itrip. -/
def execMotOvercurrent (n : Fin 4) (phase : Fin 3) (ma : BitVec 32) (s : State) : Host.Outcome State Fault Refusal :=
  finish (if !moUsed s n then s
    else
      let s1 := useInvar [R.MOT_MCn_ILIM n] s
      if overTrip s1 n (signed 32 ma.toNat) then moTrip n phase ma s1 else s1)

/-- VBUS_LOW_TIMEOUT (R393): the bus has stayed below vmin for 1 ms. -/
def execVbusLowTimeout (n : Fin 4) (s0 : State) : Host.Outcome State Fault Refusal :=
  finish (let s := if moUsed s0 n then useInvar [R.MOT_MCn_VBUS n] s0 else s0
    let x := mo s n
    if x.st = .run ∨ x.st = .decel ∨ x.st = .startup then
      let c := moCode s n
      raise (Ev.MOT_VBUS_LOW (moSev s n)) n n x.vbus c (moFault n false (setFlag (R.MOT_MCn_FLAG n) 3 s))
    else s)

/-! ## A PWM period (R376 to R391, R395) -/

/-- The demand's cap after a refused grant. -/
def capDemand (x : Motor) (d : Int) : Int :=
  match x.cap with
  | some c => sat (-c) c d
  | none => d

/-- The demand after one speed-loop update: toward `tgt` (1/16 rpm, scaled) at acc while |demand| rises, dec while it falls (R381). -/
def rampDemand (d tgt acc dec : Int) : Int :=
  let up := d.natAbs < tgt.natAbs && (0 ≤ d) = (0 ≤ tgt || d = 0)
  let step := if up || d = 0 then acc else dec
  if d < tgt then min (d + step) (if d < 0 then min tgt 0 else tgt)
  else max (d - step) (if 0 < d then max tgt 0 else tgt)

/-- Leave of the ledger to raise |demand| (R395): granted, or the request made now waits, or it is refused and the demand capped. -/
def moLeave (n : Nat) (s : State) : Bool × State :=
  let c := moClass s n
  if granted s c n then (true, s)
  else if waits s c n then (false, s)
  else
    match ledgerRequest c n (rd s (R.MOT_MCn_ACCMW n)).toNat s with
    | (s1, true) => (false, s1)
    | (s1, false) =>
      let d := (mo s1 n).demand.natAbs
      let s2 := modMo n (fun x => { x with cap := some d, capV := some x.prof.v.natAbs }) s1
      (false, logEvent Ev.MOT_LEDGER_DENIED n n c (rd s (R.MOT_MCn_ACCMW n)).toNat
        (if moIsTransport s n then ssAbandon s2 else s2))

/-- The speed-loop update of a channel under VREF: demand and ledger (R381, R390, R395). -/
def speedLoop (n : Nat) (s : State) : State :=
  let x := mo s n
  let k : Int := demScale s n
  let tgt : Int := if x.st = .decel then 0 else signed 32 (rd s (R.MOT_MCn_VREF n)).toNat * k
  let d := capDemand x (rampDemand x.demand tgt (16 * fld s (R.MOT_MCn_ACC n) 15 0 : Nat) (16 * fld s (R.MOT_MCn_ACC n) 31 16 : Nat))
  if x.demand.natAbs < d.natAbs then
    match moLeave n s with
    | (true, s1) => modMo n (fun x => { x with demand := d }) s1
    | (false, s1) => s1
  else modMo n (fun x => { x with demand := d }) (moRelease n s)

/-- The generator with its speed held to the cap of a refused grant (R395). -/
def Motor.capped (x : Motor) : Prof :=
  match x.capV with
  | some c => { x.prof with vmax := min x.prof.vmax c }
  | none => x.prof

/-- One update of the position generator of a channel (R394, R395); a reached target holds the position (R390). -/
def posUpdate (n : Nat) (s : State) : State :=
  let x := (mo s n).capped
  let r := x.next 0
  let put (s : State) : State :=
    modMo n (fun y => { y with prof := { y.capped.move (y.capped.next 0) with vmax := y.prof.vmax },
                               phold := y.phold || (y.prof.goal ≠ .none && (y.capped.next 0).2.2) }) s
  if x.goal = .none then s
  else if x.rises r then
    match moLeave n s with
    | (true, s1) => put s1
    | (false, s1) => modMo n (fun y => { y with prof := y.prof.coast }) s1
  else put (moRelease n s)

/-- A plan whose stop point lies beyond a soft limit ahead (R352, R394): flag, event, the emergency ramp of R391. -/
def moSoftCheck (n : Nat) (s : State) : State :=
  let x := (mo s n).prof
  if !moSoft s n ∨ (mo s n).emerg then s
  else
    match x.crosses (moMin s n) (moMax s n) with
    | none => s
    | some l =>
      let s1 := logEvent Ev.MOT_SOFT_LIMIT n n (toWord x.stopPoint).toNat (toWord l).toNat (setFlag (R.MOT_MCn_FLAG n) 4 s)
      let after := match x.goal with
        | .pos t => some t
        | _ => none
      modMo n (fun y => { y with after := after }) (moDecel n true (if moIsTransport s n then ssAbandon s1 else s1))

/-- The updates of the position generator in this PWM period: 781,250 per second. -/
def posLoop (n : Nat) (s : State) : State :=
  let khz := max 1 (moPwmKhz s n)
  let k := (mo s n).per
  let cnt := (k + 1) * 3125 / (4 * khz) - k * 3125 / (4 * khz)
  let s1 := (List.range cnt).foldl (fun s _ => posUpdate n s) (moSoftCheck n s)
  let cpr : Nat := (rd s (R.MOT_MCn_ENCRES n)).toNat
  modMo n (fun x => { x with demand := quotT (x.prof.vel * 60) cpr * demScale s1 n }) s1

/-- Field weakening, from the voltage vector of the last period (R383). -/
def fieldWeaken (s : State) (n : Nat) (x : Motor) : Motor :=
  let ke := rd s (R.MOT_MCn_KE n)
  let idfw : Int := fld s (R.MOT_MCn_BRKFW n) 31 16
  if bits ke 24 24 = 1 ∧ 16 * moBaseRpm s n < x.speed.natAbs then
    let ulim : Nat := x.vbus * bits ke 23 16 * 37837 / 2 ^ 24
    let umag : Nat := isqrt (x.ud * x.ud + x.uq * x.uq).toNat
    { x with idref := max (-idfw) (min 0 (x.idref + shr (((ulim : Int) - (umag : Int)) * bits ke 31 25) 8)) }
  else { x with idref := min 0 (x.idref + idfw / 64) }

/-- The lock metric of a period (R387): which of its parts fails at the end, 1 angle, 2 magnitude, 3 encoder. -/
def lockMetric (s : State) (n angErr emf : Nat) (x : Motor) : Motor × Option Nat :=
  let l := rd s (R.MOT_MCn_LOCK n)
  let acts := !moEncoder s n || 16 * moBaseRpm s n < 10 * x.speed.natAbs
  let expect := fld s (R.MOT_MCn_KE n) 15 0 * x.speed.natAbs
  let a := if acts && bits l 7 0 < angErr then x.angRun + 1 else 0
  let m := if acts && emf * 100 * 16000 < bits l 23 16 * expect then x.emfRun + 1 else 0
  let cause := if moEncoder s n && (pch s (moEncPc s n)).fault then some 3
    else if bits l 15 8 < a then some 1
    else if bits l 15 8 < m then some 2
    else none
  ({ x with angRun := a, emfRun := m, lock := cause.isNone }, cause)

/-- The bus against vmax during a deceleration (R391). -/
def busHigh (n : Nat) (s : State) : State :=
  let x := mo s n
  let isOver := decide (fld s (R.MOT_MCn_VBUS n) 15 0 ≤ x.vbus)
  if x.st = .decel ∧ isOver ∧ !x.high then
    logEvent Ev.MOT_VBUS_HIGH n n x.vbus (moCode s n) (setFlag (R.MOT_MCn_FLAG n) 3 (modMo n (fun x => { x with high := true }) s))
  else modMo n (fun x => { x with high := x.st = .decel && isOver }) s

/-- iqmax (R382). -/
def iqMax (s : State) (n : Nat) (x : Motor) : Nat :=
  let irun := fld s (R.MOT_MCn_ILIM n) 15 0
  isqrt (irun * irun - (x.idref * x.idref).toNat)

/-- The currents transformed by the angle of control: a free function of them (R376; log 79). -/
def Motor.park (x : Motor) : Motor :=
  let w := (Config.freeMotor ([0, (x.angle : Int)] ++ x.cur)).toNat
  { x with id := signed 16 w, iq := signed 16 (w / 2 ^ 16) }

/-- The current regulators (CPI): each voltage is kp times its current error plus the sum of ki times it; the spec states no limit of the sums
(DEDUCED, log 79). -/
def currentLoop (s : State) (n : Nat) (idr iqr : Int) (x : Motor) : Motor :=
  let kp : Int := fld s (R.MOT_MCn_CPI n) 15 0
  let ki : Int := fld s (R.MOT_MCn_CPI n) 31 16
  let d := x.dInt + ki * (idr - x.id)
  let q := x.qInt + ki * (iqr - x.iq)
  { x with dInt := d, qInt := q, ud := shr (kp * (idr - x.id) + d) 8, uq := shr (kp * (iqr - x.iq) + q) 8 }

/-- The speed regulator (SPI): every fourth period the error between demand and measured speed gives the iq it asks for, in the same form (log
79). -/
def speedReg (s : State) (n : Nat) (x : Motor) : Motor :=
  if x.per % 4 ≠ 0 then x
  else
    let e := Int.tdiv x.demand (demScale s n) - x.speed
    let i := x.sInt + fld s (R.MOT_MCn_SPI n) 31 16 * e
    { x with sInt := i, iqReg := shr (fld s (R.MOT_MCn_SPI n) 15 0 * e + i) 12 }

/-- The iq demand of a period, within ±iqmax (R382): what the speed regulator asks for, reached from the iq of the hand-over over its ramp
(R386, R388). The emergency ramp brakes at irun, and a bus at or above vmax takes every braking iq (R391). -/
def iqDemand (s : State) (n : Nat) (x : Motor) : Int :=
  let top := iqMax s n x
  let irun : Int := fld s (R.MOT_MCn_ILIM n) 15 0
  let braking (i : Int) : Bool := (x.speed < 0 && 0 < i) || (0 < x.speed && i < 0)
  let n0 := fld s (R.MOT_MCn_HANDOVER n) 23 16
  let want := if x.st = .decel && x.emerg then (if x.speed < 0 then irun else -irun)
    else if x.ramp = 0 then x.iqReg
    else x.rampFrom + Int.tdiv ((x.iqReg - x.rampFrom) * ((n0 : Int) - x.ramp)) (max 1 n0)
  let i := sat (-top) top want
  if x.st = .decel && decide (fld s (R.MOT_MCn_VBUS n) 15 0 ≤ x.vbus) && braking i then 0 else i

/-- The current of six-step commutation: the largest phase current (DEDUCED, log 79). -/
def Motor.sixStep (x : Motor) : Int := (x.cur.foldl (fun m i => max m i.natAbs) 0 : Nat)

/-- The phases of a sector that are driven: the one whose back-EMF is positive, and the one whose is negative (R386). -/
def sectorPhases (i : Nat) : Nat × Nat :=
  match i with
  | 0 => (2, 1)
  | 1 => (0, 1)
  | 2 => (0, 2)
  | 3 => (1, 2)
  | 4 => (1, 0)
  | _ => (2, 0)

/-- The modulated outputs of the next period: the on-times are a free function of the voltage vector, its angle and the bus; in STARTUP one
phase is modulated, one is low and one floats (R373, R374, R386; log 79). -/
def moModulate (n : Nat) (s : State) : State :=
  let x := mo s n
  if x.cond ≠ .modulated then moDrive n s
  else
    let t := moPeriod s n
    let f := (Config.freeMotor (if x.st = .startup then [2, x.uq, (x.vbus : Int)] else [1, (x.angle : Int), x.ud, x.uq, (x.vbus : Int)])).toNat
    let pwm (k : Nat) : Gates := Gates.pwm t (moDeadtime s n) (f / 2 ^ (16 * k) % (t + 1))
    let six := sectorPhases x.sector
    putGates n (Vector.ofFn (fun k =>
      if x.st ≠ .startup then pwm k.val
      else if k.val = six.1 then pwm 0
      else if k.val = six.2 then Gates.low t
      else Gates.off)) s

/-- A period of field-oriented control, in RUN and DECEL: the observer's angle, speed and back-EMF are free values (log 5), the encoder's angle and
speed its own. -/
def focPeriod (n : Nat) (s : State) : State :=
  let (f1, s1) := drawFree s
  let (f2, s2) := drawFree s1
  let x0 := { mo s2 n with
    angle := if moEncoder s n then encAngle s n else f1.toNat % 65536,
    speed := if moEncoder s n then encSpeed s n else signed 32 (f1.toNat / 2 ^ 32) }
  let x1 := speedReg s2 n (fieldWeaken s2 n x0.park)
  let iqd := iqDemand s2 n x1
  let r := lockMetric s2 n (f2.toNat % 181) (f2.toNat / 2 ^ 32) (currentLoop s2 n x1.idref iqd { x1 with iqref := iqd })
  let s4 := modMo n (fun _ => r.1) s2
  match r.2 with
  | some c => loseLock n c s4
  | none =>
    let s5 := modMo n (fun x => { x with
        good := x.speed, ramp := x.ramp - 1,
        fails := match x.reacqAt with
        | some t => if s.now < t + 400000000 then x.fails else 0
        | none => x.fails }) s4
    let s6 := busHigh n s5
    let s7 := if (mo s6 n).moving ∧ (mo s6 n).st = .run then posLoop n s6 else if (mo s6 n).per % 4 = 0 then speedLoop n s6 else s6
    let x := mo s7 n
    if x.st = .decel ∧ (if x.emerg then x.speed = 0 else x.demand = 0 ∧ x.speed.natAbs < catchRpm s7 n) then moStopped n s7 else s7

/-- A period of ALIGN: the current vector ialign at angle 0 (R386). -/
def alignPeriod (n : Nat) (s : State) : State :=
  modMo n (fun x => currentLoop s n (fld s (R.MOT_MCn_ISTART n) 15 0) 0 { x with angle := 0 }.park) s

/-- The commutation of a period of STARTUP: by the forced rate, or when the instant after a crossing has come (R386). -/
def commutate (s : State) (n : Nat) (x : Motor) : Motor :=
  if x.closed then
    match x.commAt with
    | some t => if t ≤ s.now then { x with sector := (x.sector + 1) % 6, commAt := none } else x
    | none => x
  else
    let k : Nat := 1000 * max 1 (moPwmKhz s n)
    let whole := 16 * 60 * k * k
    let c := x.comm + (x.forced * (6 * moPoles s n : Nat)).toNat
    { x with sector := (x.sector + c / whole) % 6, comm := c % whole }

/-- A period of STARTUP (R386): six-step at the current iol; the forced rate rises; hand-over once lock has held for 16 periods, with iq at the
last six-step current. -/
def startupPeriod (n : Nat) (s0 : State) : State :=
  let s := modMo n (fun x => currentLoop s0 n 0 (fld s0 (R.MOT_MCn_ISTART n) 31 16) { commutate s0 n x with id := 0, iq := x.sixStep }) s0
  let (f, s1) := drawFree s
  let k : Nat := 1000 * max 1 (moPwmKhz s n)
  let x := mo s1 n
  if x.closed then
    let r := lockMetric s1 n (f.toNat % 181) (f.toNat / 2 ^ 32) x
    let run := if r.1.lock then x.lockRun + 1 else 0
    let s2 := modMo n (fun _ => { r.1 with lockRun := run }) s1
    if (focRpm s n : Int) ≤ x.speed ∧ 16 ≤ run then
      let (g, s3) := drawFree s2
      modMo n (fun y => { y with rampFrom := x.sixStep, angle := g.toNat % 65536 }) (moRun n x.speed s3)
    else s2
  else
    let forced := x.forced + (16 * fld s (R.MOT_MCn_STARTCFG n) 31 16 : Nat)
    let s2 := modMo n (fun x => { x with forced := forced }) s1
    if (2 * focRpm s n * k : Int) ≤ forced then
      logEvent Ev.MOT_START_FAIL n n x.matched (toWord (forced / k)).toNat (moCoast n false s2)
    else s2

/-- A period of REVBRAKE: no crossing for the time that one takes at rev_rpm means a speed below it, and the final short brake begins (R385). -/
def revPeriod (n : Nat) (s : State) : State :=
  let x := mo s n
  let since := match x.zc, x.revAt with
    | (t, _) :: _, _ => t
    | [], some t => t
    | [], none => s.now
  if 16 * 60 * 400000000 < 6 * revRpm s n * moPoles s n * (s.now - since) then modMo n (fun y => { y with revHold := true }) s else s

/-- The speed of an encoder channel that coasts or brakes is that of its encoder (R392). -/
def restPeriod (n : Nat) (s : State) : State :=
  if moEncoder s n ∧ encOk s n then moSlow n (modMo n (fun x => { x with speed := encSpeed s n }) s) else s

/-- The channel's samples of a period reach ADC_AINn: shunts, phase voltages, bus (R376, R379, R542). -/
def moSamples (n : Nat) (uv : List Int) (bus : Nat) (ph : List Nat) (s : State) : State :=
  let v := rd s (R.MOT_MCn_VSENSE n)
  let s1 := forEach (List.range 3) (fun k => adcPut (moShunt s n + k) (uv.getD k 0 / 1000)) s
  let s2 := if bits v 5 0 = 0x3F then s1 else forEach (List.range 3) (fun k => adcPut (bits v 5 0 + k) (ph.getD k 0)) s1
  if bits v 13 8 = 0x3F then s2 else adcPut (bits v 13 8) bus s2

/-- What a channel measures in a period: phase currents, bus and phase voltages; the chopper of a short brake (R376, R377, R379, R385). -/
def moMeasure (n : Nat) (u : List Int) (on : List Nat) (bus : Nat) (ph : List Nat) (s : State) : State :=
  let sh := rd s (R.MOT_MCn_SHUNT n)
  let v := rd s (R.MOT_MCn_VSENSE n)
  let cur := phaseCurrents (bits sh 15 0) (bits sh 23 16) u on (mo s n).cur
  let ibrk := fld s (R.MOT_MCn_BRKFW n) 15 0
  modMo n (fun x => { x with
    cur := cur, vbus := busOf s n bus, phv := if bits v 5 0 = 0x3F then x.phv else ph.map (fun p => p * bits v 31 16 / 256),
    per := (x.per + 1) % (4 * max 1 (moPwmKhz s n)),
    chop := (x.st = .revbrake || x.st = .brake || x.shorted) && cur.any (fun i => ibrk < i.natAbs) }) (moSamples n u bus ph s)

/-- The control of a period, by state, and the outputs of the next. -/
def moControl (n : Nat) (s : State) : State :=
  moModulate n (match (mo s n).st with
    | .run => focPeriod n s
    | .decel => focPeriod n s
    | .align => alignPeriod n s
    | .startup => startupPeriod n s
    | .revbrake => revPeriod n s
    | .coast => restPeriod n s
    | .brake => restPeriod n s
    | _ => s)

/-- PWM_PERIOD_UPDATE (R376 to R391): one PWM period. `uv` are the sampled shunt voltages, µV, which the gain stage holds to ±200 mV (R376);
`on` the low-side on-times, 100 ns; A sample above itrip trips (R378). -/
def execPwmPeriodUpdate (n : Fin 4) (uv : Vector (BitVec 24) 3) (on : Vector (BitVec 16) 3) (volts : MotorVolts) (s : State) :
    Host.Outcome State Fault Refusal :=
  finish (if !moUsed s n then s
    else
      let s0 := useInvar [R.MOT_MCn_ILIM n, R.MOT_MCn_LOCK n, R.MOT_MCn_BRKFW n, R.MOT_MCn_VBUS n, R.MOT_MCn_SOFTMIN n,
        R.MOT_MCn_SOFTMAX n, R.MOT_MCn_LIMCFG n] s
      let u := uv.toList.map (fun x => sat (-200000) 200000 (signed 24 x.toNat))
      let i := u.map (fun x => quotT x (fld s0 (R.MOT_MCn_SHUNT n) 15 0 : Nat))
      let s1 := moMeasure n u (on.toList.map BitVec.toNat) volts.bus.toNat (volts.ph.toList.map BitVec.toNat) s0
      match those 3 (fun k => overTrip s0 n (i.getD k 0)) with
      | k :: _ => if (mo s1 n).st = .fault ∧ (mo s1 n).cond = .coast then moControl n s1 else moTrip n k (toWord (i.getD k 0)) s1
      | [] => moControl n s1)

/-! ## Commands (R399) -/

/-- The analog inputs that a channel senses: shunts; voltages (R376, R379). -/
def moShunts (s : State) (n : Nat) : List Nat := [moShunt s n, moShunt s n + 1, moShunt s n + 2]
def moVolts (s : State) (n : Nat) : List Nat :=
  let v := rd s (R.MOT_MCn_VSENSE n)
  (if bits v 5 0 = 0x3F then [] else [bits v 5 0, bits v 5 0 + 1, bits v 5 0 + 2]) ++ (if bits v 13 8 = 0x3F then [] else [bits v 13 8])

/-- START is refused with CFG_INVALID: a sensorless channel without its voltage inputs, or an input that another used unit senses
(R379, R380). -/
def moCfgBad (s : State) (n : Nat) : Bool :=
  let v := rd s (R.MOT_MCn_VSENSE n)
  let others := (those 4 (fun m => m ≠ n && moUsed s m)).flatMap (fun m => moShunts s m ++ moVolts s m)
  let axes := (those 8 (axUsed s)).flatMap (fun a => [40 + 2 * a, 41 + 2 * a])
  (!moEncoder s n && (bits v 5 0 = 0x3F || bits v 13 8 = 0x3F)) ||
  (moShunts s n ++ moVolts s n).any (fun i => others.contains i) || (moVolts s n).any (fun i => axes.contains i)

/-- The outcome of a channel command. -/
def motResult (n cmd res code : Nat) (s : State) : State :=
  let s1 := wr (R.MOT_MCn_CMD_STATUS n) (BitVec.ofNat 32 (res + 16 * code + 256 * cmd)) s
  if res = 1 then s1 else logEvent Ev.MOT_CMD_REJECT n n cmd res s1

/-- Commands act from IDLE to STOPPING; in SAFE_HOLD and SHUTDOWN only CLRFAULT; ownership refuses others (R397 to R399). -/
def motOpen (s : State) (n cmd : Nat) : Bool :=
  let run := s.glb.state = .idle || s.glb.state = .armed || s.glb.state = .print || s.glb.state = .stopping
  let owned := moOwned s n && (cmd = 1 || cmd = 2 || cmd = 3 || cmd = 5)
  moUsed s n && (run || (holding s && cmd = 6)) && !owned

/-- A state between SENSE and STARTUP. -/
def MoSt.starting : MoSt → Bool
  | .sense => true
  | .revbrake => true
  | .align => true
  | .startup => true
  | _ => false

/-- The result and effect of a channel command by the table of R399. `flt`: MCn_FLT_N reads low; `bus`: the bus, mV. -/
def motTable (n cmd : Nat) (flt : Bool) (bus : Nat) (s : State) : Nat × State :=
  let x := mo s n
  let st := x.st
  match cmd with
  | 1 =>
    if st = .fault then (2, s)
    else if st = .off ∨ st = .coast ∨ st = .brake then (if moCfgBad s n then (4, s) else (1, moSense n false s))
    else if st = .decel then
      (if x.emerg then (2, s)
       else (1, setMo n .run (modMo n (fun y => { y with cap := none, capV := none, moving := false, thenCoast := false }) s)))
    else (1, modMo n (fun y => { y with cap := none, capV := none }) s)
  | 2 =>
    if st.starting ∨ st = .reacq then (1, moCoast n false s) else if st = .run then (1, moDecel n false s) else (1, s)
  | 3 => if st.starting ∨ st = .reacq ∨ st = .run ∨ st = .decel ∨ st = .brake then (1, moCoast n false s) else (1, s)
  | 4 =>
    if st.starting ∨ st = .reacq then (1, moCoast n false s)
    else if st = .run ∨ st = .decel then (1, moDecel n true s) else (1, s)
  | 5 =>
    if st = .reacq ∨ st = .fault ∨ (st = .decel ∧ x.emerg) then (2, s)
    else
      let s0 := if moEncoder s n then useSoft 1 n s else s
      if holding s0 then (2, s0)
      else match moMove n (rd s0 (R.MOT_MCn_TGT n)).toNat s0 with
      | (true, s1) => (1, s1)
      | (false, s1) => (4, s1)
  | _ =>
    if st ≠ .fault then (2, s)
    else
      let s0 := useInvar [R.MOT_MCn_VBUS n] s
      if flt ∨ bus < fld s0 (R.MOT_MCn_VBUS n) 31 16 then (5, s0) else (1, moCoast n false s0)

/-- A channel command (R399). -/
def motCmd (n cmd : Nat) (flt : Bool) (bus : Nat) (s : State) : State :=
  if s.glb.state = .off then s
  else
    let code := moCode s n
    if cmd = 0 ∨ 6 < cmd then motResult n cmd 3 code s
    else if !motOpen s n cmd then motResult n cmd 2 code s
    else let r := motTable n cmd flt bus s; motResult n cmd r.1 code r.2

/-- MOT_START (R384, R399). -/
def execMotStart (n : Fin 4) (s : State) : Host.Outcome State Fault Refusal := finish (viaBar0 (R.MOT_MCn_CMD n) (motCmd n 1 false 0) s)

/-- MOT_STOP (R390, R399). -/
def execMotStop (n : Fin 4) (s : State) : Host.Outcome State Fault Refusal := finish (viaBar0 (R.MOT_MCn_CMD n) (motCmd n 2 false 0) s)

/-- MOT_COAST (R399). -/
def execMotCoast (n : Fin 4) (s : State) : Host.Outcome State Fault Refusal := finish (viaBar0 (R.MOT_MCn_CMD n) (motCmd n 3 false 0) s)

/-- MOT_ESTOP (R391, R399). -/
def execMotEstop (n : Fin 4) (s : State) : Host.Outcome State Fault Refusal := finish (viaBar0 (R.MOT_MCn_CMD n) (motCmd n 4 false 0) s)

/-- MOT_MOVE (R394, R399). -/
def execMotMove (n : Fin 4) (s : State) : Host.Outcome State Fault Refusal := finish (viaBar0 (R.MOT_MCn_CMD n) (motCmd n 5 false 0) s)

/-- MOT_CLRFAULT (R399); `flt`: MCn_FLT_N reads low; `bus`: the voltage of the bus input, mV. -/
def execMotClrfault (n : Fin 4) (flt : Bool) (bus : BitVec 16) (s : State) : Host.Outcome State Fault Refusal :=
  finish (viaBar0 (R.MOT_MCn_CMD n) (motCmd n 6 flt (busOf s n bus.toNat)) s)

end Sys2Proof.Machine
end

