-- ==== Sys2Proof/Machine/Microstep.lean ====
section
/-!
DEFINITION. The built-in microstep table (spec/11_steppers.md R356): a[j] = rnd(4,095 × cos(π j / 512)).
-/
namespace Sys2Proof.Machine

/-- a[0] to a[63] of the built-in table. -/
def quarter0 : List Nat :=
  [4095, 4095, 4095, 4094, 4094, 4093, 4092, 4091, 4090, 4089, 4087, 4086, 4084, 4082, 4080, 4078,
   4075, 4073, 4070, 4067, 4064, 4061, 4058, 4054, 4051, 4047, 4043, 4039, 4035, 4030, 4026, 4021,
   4016, 4011, 4006, 4001, 3996, 3990, 3984, 3978, 3972, 3966, 3960, 3953, 3947, 3940, 3933, 3926,
   3919, 3911, 3904, 3896, 3888, 3880, 3872, 3864, 3856, 3847, 3838, 3830, 3821, 3811, 3802, 3793]

/-- a[64] to a[127] of the built-in table. -/
def quarter1 : List Nat :=
  [3783, 3774, 3764, 3754, 3744, 3733, 3723, 3713, 3702, 3691, 3680, 3669, 3658, 3646, 3635, 3623,
   3611, 3600, 3588, 3575, 3563, 3551, 3538, 3525, 3512, 3499, 3486, 3473, 3460, 3446, 3433, 3419,
   3405, 3391, 3377, 3362, 3348, 3333, 3319, 3304, 3289, 3274, 3259, 3244, 3228, 3213, 3197, 3181,
   3165, 3149, 3133, 3117, 3101, 3084, 3068, 3051, 3034, 3017, 3000, 2983, 2966, 2948, 2931, 2913]

/-- a[128] to a[191] of the built-in table. -/
def quarter2 : List Nat :=
  [2896, 2878, 2860, 2842, 2824, 2805, 2787, 2769, 2750, 2731, 2713, 2694, 2675, 2656, 2636, 2617,
   2598, 2578, 2559, 2539, 2519, 2500, 2480, 2460, 2439, 2419, 2399, 2378, 2358, 2337, 2317, 2296,
   2275, 2254, 2233, 2212, 2191, 2170, 2148, 2127, 2105, 2084, 2062, 2040, 2018, 1997, 1975, 1952,
   1930, 1908, 1886, 1864, 1841, 1819, 1796, 1774, 1751, 1728, 1705, 1682, 1659, 1636, 1613, 1590]

/-- a[192] to a[255] of the built-in table. -/
def quarter3 : List Nat :=
  [1567, 1544, 1521, 1497, 1474, 1450, 1427, 1403, 1380, 1356, 1332, 1308, 1285, 1261, 1237, 1213,
   1189, 1165, 1141, 1116, 1092, 1068, 1044, 1019, 995, 971, 946, 922, 897, 873, 848, 824,
   799, 774, 750, 725, 700, 675, 651, 626, 601, 576, 551, 526, 501, 476, 451, 426,
   401, 376, 351, 326, 301, 276, 251, 226, 201, 176, 151, 126, 100, 75, 50, 25]

/-- a[j] of the built-in table; 0 at j = 256, the start of the next full step. -/
def builtinA (j : Nat) : Nat := (quarter0 ++ quarter1 ++ quarter2 ++ quarter3).getD j 0

/-- b[j] of the built-in table: by quarter-wave symmetry a[256 − j] (R357). -/
def builtinB (j : Nat) : Nat := builtinA (256 - j)

end Sys2Proof.Machine
end

