-- ==== Sys2Proof/Machine/Stepper.lean ====
section
/-!
DEFINITION. Stepper axes: profile updates, coil currents, stall detection, limits, homing, commands (spec/11_steppers.md R344 to
R371).
-/
namespace Sys2Proof.Machine

/-- A short brake or a trip of the transport ends a seamless sequence (R412). -/
def trLost (s : State) (kind i : Nat) : State := if trKind s = kind && trIndex s = i then ssAbandon s else s

/-- The encoder position that stall detection uses. -/
def axEnc (s : State) (n : Nat) : Nat := (pch s (axEncPc s n)).pos

/-- p0 and q0 are taken (R363). -/
def axRefs (n : Nat) (s : State) : State :=
  modAx n (fun x => { x with p0 := x.prof.pos, q0 := if axEncPc s n < 8 then axEnc s n else 0, devRun := 0 }) s

/-- The commanded position in whole microsteps, as an event's argument. -/
def axInt (s : State) (n : Nat) : Nat := ipart (ax s n).prof.pos

/-- The used motor channel whose shunt inputs include a sense input of axis `n`, with that input (R346). -/
def sharedShunt (s : State) (n : Nat) : Option (Nat × Nat) :=
  ((List.range 4).flatMap (fun m => if moUsed s m then
    [40 + 2 * n, 41 + 2 * n].filterMap (fun a => if moShunt s m ≤ a && a < moShunt s m + 3 then some (a, m) else none) else [])).head?

/-! ## Homing (R364 to R367) -/

/-- A separate home input is fitted. -/
def homeSeparate (s : State) (n : Nat) : Bool := bitOf (axInputs s n) 2

/-- The home direction is toward LIMA, the negative end. -/
def homeNeg (s : State) (n : Nat) : Bool := fld s (R.STP_SAn_HOMECFG n) 0 0 = 0

/-- The home input is active: the separate input, or the limit in the home direction. -/
def homeActive (s : State) (n : Nat) : Bool :=
  let x := ax s n
  if homeSeparate s n then x.home else if homeNeg s n then x.lima else x.limb

/-- A homing phase starts with a goal and a speed in 1/16 microstep/s. -/
def homePhase (n phase : Nat) (g : Goal) (vmax : Nat) (s : State) : State :=
  modAx n (fun x => { x with phase := phase, edge := false, phaseAt := s.now, after := none, prof := { x.prof with goal := g, vmax := vmax * unitVel } }) s

/-- Phase 2 BACK: away from the home direction at HVFAST. -/
def homeBack (n : Nat) (s : State) : State := homePhase n 2 (.vel (!homeNeg s n)) (rd s (R.STP_SAn_HVFAST n)).toNat s

/-- HOME: phase 1 SEEK, or phase 2 when the home input is already active. -/
def homeStart (n : Nat) (s : State) : State :=
  let s1 := setAx n .homing (modAx n (fun x => { x with prof := axLatch s n x.prof, low := false, after := none }) s)
  if homeActive s1 n then homeBack n s1 else homePhase n 1 (.vel (homeNeg s n)) (rd s (R.STP_SAn_HVFAST n)).toNat s1

/-- Homing ends without success: homed 0, flag; the axis stops on its normal plan or on the emergency ramp. -/
def homeFail (n : Nat) (ramp : Bool) (s : State) : State :=
  let s1 := setFlag (R.STP_SAn_FLAG n) 4 (modAx n (fun x => { x with homed := false }) s)
  if ramp then axRamp n false none s1 else axStop n s1

/-- The latched position of the first qualified edge of a phase (R365). -/
def homeLatch (n : Nat) (pos : Nat) (s : State) : State :=
  modAx n (fun x => { x with edge := true }) (wr (R.STP_SAn_LATCH n) (BitVec.ofNat 32 (ipart pos)) s)

/-- BACK reverses: the target that the axis reaches after HBACK microsteps; one that lies behind in the modular sense is kept in `after` until
less than half a turn of the position is left. -/
def homeFar (n : Nat) (s : State) : State :=
  let x := ax s n
  match x.st, x.phase, x.prof.goal, x.after with
  | .homing, 2, .vel neg, some t =>
    let d := x.prof.dist t
    if if neg then d ≤ 0 else 0 ≤ d then modAx n (fun x => { x with after := none, prof := { x.prof with goal := .pos t } }) s else s
  | _, _, _, _ => s

/-- A qualified edge of the home input; `pos` is the commanded position at its first transition, `at_` its bell time (R364, R365). One whose
first transition falls in the update in which BACK ended belongs to BACK, which has latched its edge. -/
def homeEdge (n : Nat) (active : Bool) (pos at_ : Nat) (s : State) : State :=
  let x := ax s n
  if x.st ≠ .homing ∨ x.edge ∨ (x.phase = 3 ∧ at_ ≤ x.phaseAt) then s
  else if x.phase = 1 ∧ active then homeBack n (homeLatch n pos s)
  else if x.phase = 2 ∧ !active then
    let back : Int := (rd s (R.STP_SAn_HBACK n)).toNat
    let t := narrow 32 ((ipart pos : Int) + (if homeNeg s n then back else -back))
    if back < 2 ^ 31 then modProf n (fun p => { p with goal := .pos t }) (homeLatch n pos s)
    else modAx n (fun x => { x with after := some t }) (homeLatch n pos s)
  else if x.phase = 3 ∧ active then modProf n (fun p => { p with goal := .stop }) (homeLatch n pos s)
  else s

/-- A homing phase whose motion has come to rest goes on to the next (R364). -/
def homeRest (n : Nat) (s : State) : State :=
  match (ax s n).phase with
  | 2 => homePhase n 3 (.vel (homeNeg s n)) (rd s (R.STP_SAn_HVSLOW n)).toNat s
  | 3 =>
    let t := narrow 32 (((rd s (R.STP_SAn_LATCH n)).toNat : Int) + (rd s (R.STP_SAn_HOFS n)).toNat)
    homePhase n 4 (.pos t) (rd s (R.STP_SAn_VMAX n)).toNat s
  | 4 =>
    let hpos := (rd s (R.STP_SAn_HPOS n)).toNat
    let s1 := modAx n (fun x => { x with prof := x.prof.place (hpos * 65536), homed := true, phase := 0 }) s
    logEvent Ev.HOME_DONE n n (rd s (R.STP_SAn_LATCH n)).toNat hpos (setAx n .hold (axRefs n s1))
  | _ => s

/-! ## Profile updates (R349 to R354, R361, R363) -/

/-- The axis has come to rest at its goal (R349, R352, R353). -/
def axArrive (n : Nat) (s : State) : State :=
  let x := ax s n
  match x.st with
  | .moving => if x.parkOff then axOff n s else setAx n .hold s
  | .homing => homeRest n s
  | .estop =>
    if x.toFault then setAx n .fault (modAx n (fun x => { x with toFault := false, parkOff := false }) s)
    else if x.parkOff then axOff n s
    else
      match x.after with
      | some t =>
        let p := x.prof.signedPos
        if axMin s n * unitPos ≤ p ∧ p ≤ axMax s n * unitPos then setAx n .moving (modAx n (fun x => { x with after := none, prof := { x.prof with goal := .pos t } }) s)
        else setAx n .hold (modAx n (fun x => { x with after := none }) s)
      | none => setAx n .hold (modAx n (fun x => { x with low := holding s }) s)
  | _ => s

/-- A plan whose stop point lies beyond a soft limit ahead: flag, event, emergency ramp (R352). -/
def axSoftCheck (n : Nat) (s : State) : State :=
  let x := ax s n
  if x.st ≠ .moving ∨ !axSoft s n then s
  else
    match x.prof.crosses (axMin s n) (axMax s n) with
    | none => s
    | some l =>
      let after := match x.prof.goal with
        | .pos t => some t
        | _ => none
      let s1 := logEvent Ev.STP_SOFT_LIMIT n n (toWord x.prof.stopPoint).toNat (toWord l).toNat (setFlag (R.STP_SAn_FLAG n) 1 s)
      axRamp n false after (trLost s1 2 n)

/-- A JOG follows the soft limit ahead of it as it stands now (R352, R371). -/
def axJog (n : Nat) (s : State) : State :=
  let x := ax s n
  if x.st ≠ .moving ∨ (axIsTransport s n ∧ s.ss.phase ≠ 0) then s
  else match x.prof.goal with
    | .vel neg => modProf n (fun p => { p with goal := jogGoal s n neg }) s
    | .jog l => modProf n (fun p => { p with goal := jogGoal s n (decide (x.prof.ahead l < 0)) }) s
    | _ => s

/-- One update of the generator, with the ledger's leave to raise |v| (R354). -/
def axAdvance (n : Nat) (s : State) : State :=
  let edec := (rd s (R.STP_SAn_EDEC n)).toNat
  let x := (ax s n).prof
  let r := x.next edec
  let go (s : State) : State :=
    let s1 := modProf n (fun x => x.move (x.next edec)) s
    if ((ax s n).prof.next edec).2.2 then axArrive n s1 else s1
  match axClass s n with
  | none => go s
  | some c =>
    if x.rises r ∧ x.goal ≠ .emerg then
      if granted s c n then go s
      else if waits s c n then modProf n Prof.coast s
      else
        match ledgerRequest c n (rd s (R.STP_SAn_ACCMW n)).toNat s with
        | (s1, true) => modProf n Prof.coast s1
        | (s1, false) =>
          let s2 := logEvent Ev.STP_LEDGER_DENIED n n c (rd s (R.STP_SAn_ACCMW n)).toNat s1
          modProf n (fun p => { p.coast with vmax := p.v.natAbs }) (trLost s2 2 n)
    else go (axRelease n s)

/-- Quiet or strong mode (R346, R361): a change takes effect where j = 0, which a step of a full step passes. -/
def axModeCheck (n : Nat) (before : Nat) (s : State) : State :=
  let x := ax s n
  let v := x.prof.vel.natAbs
  let vthr := (rd s (R.STP_SAn_VTHR n)).toNat
  let want := match fld s (R.STP_SAn_PWM n) 9 8 with
    | 1 => false
    | 2 => true
    | _ => if x.strong then decide (vthr - (rd s (R.STP_SAn_VHYST n)).toNat ≤ v) else decide (vthr ≤ v)
  let want := want && (sharedShunt s n).isNone
  let now := axInt s n
  if want ≠ x.strong ∧ (now % 256 = 0 ∨ now / 256 ≠ before / 256) then
    logEvent Ev.STP_MODE n n (b2n want) (toWord x.prof.vel).toNat (modAx n (fun x => { x with strong := want }) s)
  else s

/-- (q − q0) × ratio >> 16, 32.16 microsteps, and dev, signed 48 bits (R363). -/
def axEncPath (s : State) (n : Nat) : Int := diff48 (axEnc s n) (ax s n).q0 * (rd s (R.STP_SAn_ENC n)).toNat / 65536
def axDev (s : State) (n : Nat) : Int := signed 48 (narrow 48 (diff48 (ax s n).prof.pos (ax s n).p0 - axEncPath s n))

/-- The deviation is computed: an encoder is named and STALLWIN.en is 1 (R363). -/
def axDevOn (s : State) (n : Nat) : Bool := axEncPc s n < 8 && fld s (R.STP_SAn_STALLWIN n) 21 21 = 1

/-- STP_SAn_DEV follows the deviation, in every state (R363). -/
def axDevShow (n : Nat) (s : State) : State :=
  if axDevOn s n then wr (R.STP_SAn_DEV n) (toWord (satS 32 (axDev s n / 65536))) s else s

/-- Stall detection of an energised axis (R363). -/
def axStall (n : Nat) (s : State) : State :=
  let x := ax s n
  let cfg := rd s (R.STP_SAn_STALLWIN n)
  if !axDevOn s n then s
  else
    let qp := axEncPath s n
    let dev := axDev s n
    let s1 := axDevShow n s
    if dev.natAbs ≤ bits cfg 15 0 * 65536 then modAx n (fun x => { x with devRun := 0 }) s1
    else
      let run := x.devRun + 1
      if 15 < x.devRun then s1
      else if run < bits cfg 19 16 then modAx n (fun x => { x with devRun := run }) s1
      else
        let s2 := setFlag (R.STP_SAn_FLAG n) 0 (modAx n (fun x => { x with devRun := 16 }) s1)
        let s3 := if bits cfg 20 20 = 1 then
            axRelease n (setAx n .fault (modAx n (fun x =>
              { x with prof := x.prof.place (addPos x.p0 qp), homed := false, phase := 0, after := none, toFault := false, low := true }) s2))
          else s2
        raise (Ev.STP_STALL (axSev s n)) n n (toWord (satS 32 (dev / 65536))).toNat (axInt s n) s3

/-- PROFILE_UPDATE (R349 to R354, R361, R363): an update of the axis generator, every 1.28 µs. -/
def execProfileUpdate (n : Fin 8) (s : State) : Host.Outcome State Fault Refusal :=
  finish (let st := (ax s n).st
    if !axUsed s n then s
    else if st = .off ∨ st = .fault then axDevShow n s
    else
      let s0 := useInvar [R.STP_SAn_EDEC n, R.STP_SAn_SOFTMIN n, R.STP_SAn_SOFTMAX n, R.STP_SAn_STALLWIN n, R.STP_SAn_LIMCFG n] s
      let before := axInt s0 n
      axStall n (axModeCheck n before (axAdvance n (axSoftCheck n (homeFar n (axJog n s0))))))

/-! ## Coil currents (R356 to R360) -/

/-- a[j] and b[j] of the axis's table (R356). -/
def microstep (s : State) (n j : Nat) : Nat × Nat :=
  if axUserTable s n then
    let w := rd s (0x960000 + 1024 * n + 4 * j)
    (bits w 11 0, bits w 27 16)
  else (builtinA j, builtinB j)

/-- The set-points of coils A and B, signed fractions of 4,096 (R357). -/
def setPoints (s : State) (n : Nat) : Int × Int :=
  let e := axInt s n % 1024
  let t := microstep s n (e % 256)
  let a : Int := t.1
  let b : Int := t.2
  let r : Int × Int := match e / 256 with
    | 0 => (a, b)
    | 1 => (-b, a)
    | 2 => (-a, -b)
    | _ => (b, -a)
  if bitOf (axInputs s n) 4 then (r.1, -r.2) else r

/-- A PWM period, ns (PWM.khz). -/
def pwmPeriod (s : State) (n : Nat) : Nat := quot 1000000 (fld s (R.STP_SAn_PWM n) 6 0)

/-- The mean drive of a coil in a period: quiet mode in proportion; strong mode full on while the sensed current is short of its
threshold, and once it has reached it decay for toff × 100 ns of the period, low or reversed with fast decay (R359, R360; log 65). -/
def coilDrive (s : State) (n : Nat) (set_ : Int) (ma : Nat) : Int :=
  let x := ax s n
  if x.strong then
    let i := if x.low then fld s (R.STP_SAn_IRUN n) 31 16 else fld s (R.STP_SAn_IRUN n) 15 0
    let full : Int := if set_ < 0 then -4096 else if set_ = 0 then 0 else 4096
    let per := pwmPeriod s n
    let off := min per (100 * fld s (R.STP_SAn_PWM n) 23 16)
    if ma < set_.natAbs * i / 4096 then full
    else Int.tdiv (full * ((per : Int) - (if fld s (R.STP_SAn_PWM n) 7 7 = 1 then 2 * off else off))) (max 1 per : Nat)
  else
    let amp : Int := if x.low then fld s (R.STP_SAn_QAMP n) 27 16 else fld s (R.STP_SAn_QAMP n) 11 0
    Int.tdiv (set_ * amp) 4096

/-- STEPPER_PWM_PERIOD (R344, R357 to R360): a PWM period of the current stage; `va` and `vb` are the voltages sampled on the sense
inputs of the two coils, µV (R345). -/
def execStepperPwmPeriod (n : Fin 8) (va vb : BitVec 24) (s : State) : Host.Outcome State Fault Refusal :=
  finish (let x := ax s n
    if !axUsed s n ∨ x.st = .off ∨ x.dark then modAx n (fun x => { x with coilA := 0, coilB := 0 }) s
    else
      let sa := if x.strong then adcPut (41 + 2 * n.val) (vb.toNat / 1000) (adcPut (40 + 2 * n.val) (va.toNat / 1000) s) else s
      let s0 := useInvar [R.STP_SAn_IRUN n] sa
      let sp := setPoints s0 n
      let r := fld s0 (R.STP_SAn_SHUNT n) 15 0
      modAx n (fun x => { x with coilA := coilDrive s0 n sp.1 (quot va.toNat r), coilB := coilDrive s0 n sp.2 (quot vb.toNat r) }) s0)

/-! ## Inputs -/

/-- STP_BRIDGE_FAULT (R347): SAn_FLT_N has been low for 1 µs. -/
def execStpBridgeFault (n : Fin 8) (s : State) : Host.Outcome State Fault Refusal :=
  finish (let x := ax s n
    if !axUsed s n ∨ (x.st = .fault ∧ x.dark) then s
    else
      let code := axCode s n
      let pos := axInt s n
      let s1 := axRelease n (setAx n .fault (modAx n (fun x =>
        { x with prof := { x.prof with v := 0, a := 0, goal := .none }, phase := 0, after := none, toFault := false, dark := true,
                 coilA := 0, coilB := 0 }) (setFlag (R.STP_SAn_FLAG n) 3 s)))
      raise (Ev.STP_BRIDGE_FAULT (axSev s n)) n n code pos s1)

/-- LIMIT_QUALIFIED (R355, R367): a limit input has held a level for its filter. -/
def execLimitQualified (n : Fin 8) (limB asserted : Bool) (s : State) : Host.Outcome State Fault Refusal :=
  finish (let s1 := modAx n (fun x => if limB then { x with limb := asserted } else { x with lima := asserted }) s
    let x := ax s1 n
    let toward := if limB then decide (0 < x.prof.v) else decide (x.prof.v < 0)
    let arg := if limB then 2 else 1
    if !axUsed s1 n ∨ !asserted then s1
    else if x.st = .homing then
      if (limB ≠ homeNeg s1 n) ∧ !homeSeparate s1 n then s1
      else if limB = homeNeg s1 n then
        logEvent Ev.HOME_FAIL_LIMIT n n arg (axInt s1 n) (homeFail n true s1)
      else logEvent Ev.HOME_FAIL_NOTFOUND n n x.phase (axInt s1 n) (homeFail n true s1)
    else if toward ∧ (x.st = .moving ∨ x.st = .estop) then
      let s2 := logEvent Ev.STP_LIMIT n n arg (axInt s1 n) (setFlag (R.STP_SAn_FLAG n) 2 s1)
      axRamp n (ax s2 n).toFault none (trLost s2 2 n)
    else s1)

/-- HOME_EDGE_QUALIFIED (R336, R364, R365): the home input has held a level for home_filt. `chans` are the
extended positions of PC0 to PC7 at the first transition of the edge. -/
def execHomeEdgeQualified (n : Fin 8) (active : Bool) (first : FirstEdge) (chans : Vector (BitVec 56) 8) (s : State) :
    Host.Outcome State Fault Refusal :=
  finish (let s1 := modAx n (fun x => if homeSeparate s n then { x with home := active }
        else if homeNeg s n then { x with lima := active } else { x with limb := active }) s
    let s2 := forEach (those 8 (fun c => fld s1 (R.POS_PCn_CAPCFG c) 1 0 = 2 && fld s1 (R.POS_PCn_CAPCFG c) 4 2 = n.val && !pcUnused s1 c))
      (fun c s => let e := (vat chans c).toNat; capture c (e % 2 ^ 48) (e / 2 ^ 48) (s1.now - first.ago.toNat) s) s1
    if axUsed s2 n then homeEdge n active first.pos.toNat (s1.now - first.ago.toNat) s2 else s2)

/-- HOME_CHATTER_TIMEOUT (R366): the home input has not settled within 10 ms. -/
def execHomeChatterTimeout (n : Fin 8) (s : State) : Host.Outcome State Fault Refusal :=
  finish (if (ax s n).st = .homing then
      logEvent Ev.HOME_FAIL_CHATTER n n (ax s n).phase (axInt s n) (homeFail n false s)
    else s)

/-- HOLD_DELAY_EXPIRY (R362): hdelay has passed at rest. -/
def execHoldDelayExpiry (n : Fin 8) (s : State) : Host.Outcome State Fault Refusal :=
  finish (if (ax s n).st = .hold ∧ (ax s n).prof.v = 0 then modAx n (fun x => { x with low := true }) s else s)

/-! ## Commands (R368 to R370) -/

/-- The outcome of an axis command: status word with the state at evaluation `code`, and the event of a refusal. -/
def stpResult (n cmd res code : Nat) (s : State) : State :=
  let s1 := wr (R.STP_SAn_CMD_STATUS n) (BitVec.ofNat 32 (res + 16 * code + 256 * cmd)) s
  if res = 1 then s1 else logEvent Ev.STP_CMD_REJECT n n cmd res s1

/-- Commands act from IDLE to STOPPING; in SAFE_HOLD and SHUTDOWN only DISABLE and CLRFAULT; ownership refuses others (R368 to
R370). -/
def stpOpen (s : State) (n cmd : Nat) : Bool :=
  let run := s.glb.state = .idle || s.glb.state = .armed || s.glb.state = .print || s.glb.state = .stopping
  let owned := axOwned s n && (cmd = 3 || cmd = 4 || cmd = 7 || cmd = 8 || cmd = 5 || cmd = 2)
  axUsed s n && (run || (holding s && (cmd = 2 || cmd = 9))) && !owned

/-- ENABLE energises at hold amplitude and takes p0 and q0 (R346, R370). -/
def stpEnable (n : Nat) (s : State) : State :=
  let s1 := setAx n .hold (axRefs n (modAx n (fun x => { x with low := true, dark := false }) s))
  match sharedShunt s n with
  | some (ain, m) => logEvent Ev.STP_STRONG_UNAVAIL n n ain m (modAx n (fun x => { x with strong := false }) s1)
  | none => s1

/-- The result and effect of an axis command by the table of R370. `neg`: JOG direction; `flt`: SAn_FLT_N reads low. -/
def stpTable (n cmd : Nat) (neg flt : Bool) (s : State) : Nat × State :=
  let st := (ax s n).st
  match cmd with
  | 1 => if st = .off then (1, stpEnable n s) else if st = .fault then (2, s) else (1, s)
  | 2 => if st = .off ∨ st = .fault then (1, s) else (1, axOff n s)
  | 3 =>
    if st = .hold ∨ st = .moving then
      let s0 := useSoft 2 n s
      if holding s0 then (2, s0)
      else match axMove n (rd s0 (R.STP_SAn_TGT n)).toNat s0 with
      | (true, s1) => (1, s1)
      | (false, s1) => (4, s1)
    else (2, s)
  | 4 =>
    if st = .hold ∨ st = .moving then
      let s := useSoft 2 n s
      if holding s then (2, s)
      else if (neg ∧ (ax s n).lima) ∨ (!neg ∧ (ax s n).limb) then (4, s) else (1, axPlan n (jogGoal s n neg) s)
    else (2, s)
  | 5 => (1, axStop n s)
  | 6 => if st = .moving ∨ st = .homing then (1, axRamp n false none s) else (1, s)
  | 7 => if st = .hold then (1, homeStart n s) else (2, s)
  | 8 =>
    if st = .off ∨ st = .hold then
      (1, axRefs n (modProf n (fun x => x.place ((rd s (R.STP_SAn_PRESET n)).toNat * 65536)) s))
    else (2, s)
  | 9 => if st = .fault then (if flt then (5, s) else (1, axOff n s)) else (2, s)
  | _ => (3, s)

/-- An axis command (R370). -/
def stpCmd (n cmd : Nat) (neg flt : Bool) (s : State) : State :=
  if s.glb.state = .off then s
  else
    let code := axCode s n
    if cmd = 0 ∨ 9 < cmd then stpResult n cmd 3 code s
    else if !stpOpen s n cmd then stpResult n cmd 2 code s
    else let r := stpTable n cmd neg flt s; stpResult n cmd r.1 code r.2

/-- STP_ENABLE (R370). -/
def execStpEnable (n : Fin 8) (s : State) : Host.Outcome State Fault Refusal := finish (viaBar0 (R.STP_SAn_CMD n) (stpCmd n 1 false false) s)

/-- STP_DISABLE (R370). -/
def execStpDisable (n : Fin 8) (s : State) : Host.Outcome State Fault Refusal := finish (viaBar0 (R.STP_SAn_CMD n) (stpCmd n 2 false false) s)

/-- STP_MOVE (R348, R370). -/
def execStpMove (n : Fin 8) (s : State) : Host.Outcome State Fault Refusal := finish (viaBar0 (R.STP_SAn_CMD n) (stpCmd n 3 false false) s)

/-- STP_JOG (R348, R370); `neg` is CMD.jogdir. -/
def execStpJog (n : Fin 8) (neg : Bool) (s : State) : Host.Outcome State Fault Refusal := finish (viaBar0 (R.STP_SAn_CMD n) (stpCmd n 4 neg false) s)

/-- STP_STOP (R370). -/
def execStpStop (n : Fin 8) (s : State) : Host.Outcome State Fault Refusal := finish (viaBar0 (R.STP_SAn_CMD n) (stpCmd n 5 false false) s)

/-- STP_ESTOP (R353, R370). -/
def execStpEstop (n : Fin 8) (s : State) : Host.Outcome State Fault Refusal := finish (viaBar0 (R.STP_SAn_CMD n) (stpCmd n 6 false false) s)

/-- STP_HOME (R364, R370). -/
def execStpHome (n : Fin 8) (s : State) : Host.Outcome State Fault Refusal := finish (viaBar0 (R.STP_SAn_CMD n) (stpCmd n 7 false false) s)

/-- STP_SETPOS (R370). -/
def execStpSetpos (n : Fin 8) (s : State) : Host.Outcome State Fault Refusal := finish (viaBar0 (R.STP_SAn_CMD n) (stpCmd n 8 false false) s)

/-- STP_CLRFAULT (R370); `flt` tells that SAn_FLT_N reads low. -/
def execStpClrfault (n : Fin 8) (flt : Bool) (s : State) : Host.Outcome State Fault Refusal := finish (viaBar0 (R.STP_SAn_CMD n) (stpCmd n 9 false flt) s)

end Sys2Proof.Machine
end

