-- ==== Sys2Proof/Machine/Bringup.lean ====
section
/-!
DEFINITION. SELFTEST and LINK_TRAIN, RETRY, throttling and the core voltage (spec/03_bring_up.md R84 to R92, R102 to R107;
spec/01_architecture.md R29 to R31; spec/19_electrical.md R552, R553).
-/
namespace Sys2Proof.Machine

/-! ## LINK_TRAIN (R73, R88) -/

/-- XMC_STAT follows the training (R89, R90). -/
def xmcReport (s : State) : State :=
  let up := s.bru.xmc = .done
  wr R.XMC_STAT (BitVec.ofNat 32 (s.bru.xmcTrained.toNat + (if up && xmcEcc s then 16 else 0) +
    (if up then 65536 * (xmcUsable s / 2 ^ 28) else 0))) s

/-- The page store's part of the entry to LINK_TRAIN: skipped without channels, else every channel trains (R73, R89). -/
def xmcStart (s : State) : State :=
  xmcReport { s with bru := { s.bru with xmc := if xmcChannels s = 0 then .skipped else .running, xmcTrained := 0,
                                         xmcTries := Vector.replicate 4 0 } }

/-- LINK_TRAIN is entered: page store, ports and discovery start at once, each as far as R73 has it (R88). -/
def enterLinkTrain (s : State) : State :=
  let s1 := goto .linkTrain Ev.BRU_SELFTEST_DONE.code.toNat s
  let s2 := if s1.ldr.trainXmc then xmcStart s1 else s1
  let s3 := forEach (those 16 (fun p => bitOf s2.ldr.trainPorts.toNat p)) startSeries s2
  bruCheck (if s3.ldr.runDisc then casStart s3 else s3)

/-- XMC_TRAIN_DONE (R89): the training of a channel ends; a first failure repeats it; a second one fails the activity. -/
def execXmcTrainDone (ch : Fin 4) (ok : Bool) (phase : Byte) (s : State) : Host.Outcome State Fault Refusal :=
  finish (if s.glb.state ≠ .linkTrain ∨ (s.bru.xmc ≠ .running ∧ s.bru.xmc ≠ .failed) ∨ xmcChannels s ≤ ch.val ∨
      bitOf s.bru.xmcTrained.toNat ch.val ∨ 2 ≤ vat s.bru.xmcTries ch.val then s
    else if ok then
      let t := s.bru.xmcTrained ||| BitVec.ofNat 4 (2 ^ ch.val)
      let all := (List.range (xmcChannels s)).all (fun c => bitOf t.toNat c)
      let a := if all && !xmcEcc s then .done else s.bru.xmc
      bruCheck (xmcReport { s with bru := { s.bru with xmcTrained := t, xmc := a } })
    else
      let n := vat s.bru.xmcTries ch.val + 1
      let s1 := { s with bru := { s.bru with xmcTries := vset s.bru.xmcTries ch.val n } }
      if n < 2 then s1
      else bruErr Ev.BRU_XMC_TRAIN_FAIL ch.val phase.toNat
        (logEvent Ev.BRU_XMC_TRAIN_FAIL ch.val ch.val phase.toNat n { s1 with bru := { s1.bru with xmc := .failed } }))

/-- XMC_ECC_INIT_DONE (R90): every location has been written with valid check bits; the page store is trained. -/
def execXmcEccInitDone (s : State) : Host.Outcome State Fault Refusal :=
  finish (if s.glb.state = .linkTrain ∧ s.bru.xmc = .running ∧ xmcEcc s ∧
      (List.range (xmcChannels s)).all (fun c => bitOf s.bru.xmcTrained.toNat c) then
      bruCheck (xmcReport { s with page := [], bru := { s.bru with xmc := .done } })
    else s)

/-! ## SELFTEST (R85 to R87) -/

/-- The activities of SELFTEST start: all four at a start after a hardware reset, else the memory test alone (R85, R86). -/
def startSelftest (s : State) : State :=
  let a : Act := if s.ldr.cold then .running else .skipped
  { s with bru := { s.bru with memory := .running, journal := a, invar := a, adc := a, stFrom := s.now, tested := 0, repairs := 0 } }

/-- SELFTEST is entered by the commit of an image (R69); the axes go OFF (R368). -/
def enterSelftest (s : State) : State := startSelftest (axAllOff (goto .selftest Ev.IMG_LOADED.code.toNat s))

/-- SELFTEST ends when its activities have: BRU_SELFTEST_DONE, and LINK_TRAIN (R35, R107). -/
def selftestEnd (s : State) : State :=
  if s.glb.state = .selftest ∧ selftestAct s = .done then
    enterLinkTrain (logEvent Ev.BRU_SELFTEST_DONE 0xFF (((s.now : Int) - s.bru.stFrom) / 400).toNat s.bru.tested.toNat s.bru.repairs s)
  else s

/-- A failed activity: BRU_SELFTEST_FAIL with its item: 1 memory, 2 journal, 3 Invar checker, 4 ADC (R87, R102). -/
def selftestFail (item inst detail : Nat) (s : State) : State :=
  bruErr Ev.BRU_SELFTEST_FAIL inst item (logEvent Ev.BRU_SELFTEST_FAIL inst item inst detail s)

/-- The repair fuses of bank `b` load: the spares that they name are in use, and no others (R499). -/
def bankFuses (fuse : Vector Byte 64) (b : Nat) (s : State) : State :=
  let used := (List.range 8).foldl (fun u m => vset u (8 * b + m) (vat fuse (8 * b + m)).toNat) s.mem.used
  wr (R.MEM_BKREP b) (BitVec.ofNat 32 (min 255 ((List.range 8).foldl (fun n m => n + (vat fuse (8 * b + m)).toNat) 0)))
    { s with mem := { s.mem with used := used } }

/-- The ways of bank `b` in which the march finds more faults than spares are free. -/
def waysShort (s : State) (found : Vector Byte 64) (b : Nat) : List Nat :=
  those 8 (fun m => decide (waysFree s b m < (vat found (8 * b + m)).toNat))

/-- The faults that the march finds in bank `b` are covered by free spares as soft repairs, beside those made since the reset; a way with none
left fails (R499, R500). -/
def bankRepair (found : Vector Byte 64) (b : Nat) (s : State) : State :=
  let new (m : Nat) : Nat := min (vat found (8 * b + m)).toNat (waysFree s b m)
  let sum := (List.range 8).foldl (fun n m => n + new m) 0
  let used := (List.range 8).foldl (fun u m => vmod u (8 * b + m) (· + new m)) s.mem.used
  let s1 := setF (R.MEM_BKREP b) 15 8 (min 255 (fld s (R.MEM_BKREP b) 15 8 + sum)) { s with mem := { s.mem with used := used } }
  repairLow b (forEach (waysShort s found b) (fun m s => setF (R.MEM_BKREP b) (24 + m) (24 + m) 1 s) s1)

/-- A tested bank holds the background in every word, as the march leaves it (R85, R501; log 66). -/
def bankTested (b : Nat) (s : State) : State := bankFill b (BitVec.ofNat 8 (fld s R.MEM_MARCHCFG 23 16)) s

/-- Every bank to be tested is powered up. -/
def testReady (s : State) : Bool :=
  (those 8 (fun b => bitOf s.ldr.testBanks.toNat b)).all (fun b => !bkBusy s b || bitOf s.mem.powered.toNat b)

/-- The fuses of every bank load once after a reset (R499). -/
def loadFuses (fuse : Vector Byte 64) (s : State) : State :=
  if s.mem.fused then s
  else forEach (List.range 8) (fun b s => repairLow b (bankFuses fuse b s)) { s with mem := { s.mem with fused := true } }

/-- The memory test ends (R85, R87, R493, R499). After a reset the fuses of every bank are loaded and the tables arrays with them; after a
reload only the banks of R73 take part (R86). -/
def memoryDone (fuse found : Vector Byte 64) (tables : Bool) (s : State) : State :=
  let t := s.ldr.testBanks
  let banks := those 8 (fun b => bitOf t.toNat b)
  let s0 := loadFuses fuse (forEach banks bankTested s)
  let s1 := forEach banks (bankRepair found) s0
  let n := (List.range 64).foldl (fun n i => if bitOf t.toNat (i / 8) then n + (vat s1.mem.used i) else n) 0
  let s2 := { s1 with bru := { s1.bru with tested := t, repairs := n } }
  match (banks.filter (fun b => !(waysShort s0 found b).isEmpty)).head? with
  | some b => selftestFail 1 b (maskOf 8 (fun m => (waysShort s0 found b).contains m)) { s2 with bru := { s2.bru with memory := .failed } }
  | none =>
    if tables && s.ldr.cold then selftestFail 1 8 0 { s2 with bru := { s2.bru with memory := .failed } }
    else selftestEnd { s2 with bru := { s2.bru with memory := .done } }

/-- The journal scan: bad records are skipped; the boot count is one more than the highest found; the next record follows the newest
valid one; a BOOT record is written (R84, R85, R260). -/
def journalScan (s : State) : State :=
  let good := s.jrn.records.filter (fun r => jValid r.2)
  let bad := s.jrn.records.length - good.length
  let seqOf (r : Nat × List Byte) : Nat := fieldAt r.2 0x1C 4
  let best := good.foldl (fun (m : Nat × Nat) r => if m.2 < seqOf r + 1 then (r.1, seqOf r + 1) else m) (0, 0)
  let boot := good.foldl (fun m r => max m (fieldAt r.2 4 4)) 0 + 1
  let s1 := wr R.GLB_BOOTCNT (BitVec.ofNat 32 boot) { s with jrn := { s.jrn with
    newest := best.1, next := if best.2 = 0 then 0 else (best.1 + 1) % 2048, jseq := BitVec.ofNat 32 (best.2 - 1) } }
  let s2 := if bad = 0 then s1 else logEvent Ev.BRU_JOURNAL_TORN 0xFF bad best.1 boot s1
  jRecord { type := .boot, sev := .info, code := 0, bell := s.now, a0 := 0, a1 := 0, a2 := 0, gst := s.glb.state,
            payload := leBytes 1 (fld s R.GLB_RSTCAUSE 7 0) } s2

/-- SELFTEST_ACTIVITY_DONE (R85, R87): one of the four activities ends. -/
def execSelftestActivityDone (result : SelftestResult) (s : State) : Host.Outcome State Fault Refusal :=
  finish (if s.glb.state ≠ .selftest then s
    else
      match result with
      | .memory fuse found tables => if s.bru.memory = .running ∧ testReady s then memoryDone fuse found tables s else s
      | .journal responds =>
        if s.bru.journal ≠ .running then s
        else if responds then
          let s1 := journalScan s
          selftestEnd { s1 with bru := { s1.bru with journal := .done } }
        else selftestFail 2 0 0 { s with bru := { s.bru with journal := .failed } }
      | .invarChecker failing =>
        if s.bru.invar ≠ .running then s
        else
          match failing with
          | some c => selftestFail 3 c.toNat 0 { s with bru := { s.bru with invar := .failed } }
          | none => selftestEnd { s with bru := { s.bru with invar := .done } }
      | .adc failing =>
        if s.bru.adc ≠ .running then s
        else
          match failing with
          | some c => selftestFail 4 c.val 0 { s with bru := { s.bru with adc := .failed } }
          | none => selftestEnd { s with bru := { s.bru with adc := .done } })

/-! ## RETRY (R103, R106) -/

/-- The page store's failed channels get two new attempts (R103). -/
def xmcRetry (s : State) : State :=
  { s with bru := { s.bru with xmc := .running,
                               xmcTries := (List.range 4).foldl (fun v c => if 2 ≤ vat v c then vset v c 0 else v) s.bru.xmcTries } }

/-- A refused or failed port of a stopped LINK_TRAIN; an absent port of presence 1. -/
def portStuck (s : State) (p : Nat) : Bool := portBound s p && ((hp s p).bst = .failed || (hp s p).bst = .refused)
def portAbsent (s : State) (p : Nat) : Bool := portBound s p && (hp s p).bst = .absent && headPresence s p = 1

/-- RETRY: result (1 ACCEPTED, 2 STATE_REJECT), mask of activities restarted, state (R103, R106). In the SELFTEST of a cold start it starts
all four activities again, so the journal scan, and with it the boot count, may come twice: R103 restarts SELFTEST in full, R86 counts at a
start after a reset (DESIGN CHOICE, log 78). -/
def retry (s : State) : Nat × Nat × State :=
  match s.glb.state with
  | .selftest => if selftestAct s = .failed then (1, 1, startSelftest s) else (2, 0, s)
  | .linkTrain =>
    let ports := those 16 (portStuck s)
    let x := s.bru.xmc = .failed
    let c := s.bru.cascade = .failed
    if x ∨ c ∨ ports ≠ [] then
      let s1 := if x then xmcRetry s else s
      let s2 := forEach ports startSeries s1
      (1, (if x then 2 else 0) + (if ports ≠ [] then 4 else 0) + (if c then 8 else 0), if c then bruCheck (casStart s2) else s2)
    else (2, 0, s)
  | .idle =>
    let ports := those 16 (portAbsent s)
    if s.bru.incomplete ∨ ports = [] then (2, 0, s) else (1, 4, forEach ports startSeries s)
  | _ => (2, 0, s)

/-- A write of GLB_BRUCTL: cmd 1 is RETRY, other values are INVALID (R103, R106, R107). -/
def bruCmd (cmd : Nat) (s : State) : State :=
  if s.glb.state = .off then s
  else if cmd ≠ 1 then setF R.GLB_BRUSTAT 17 16 3 s
  else
    let r := retry (if (retry s).1 = 1 then wr R.GLB_BRUERR 0 s else s)
    let s1 := setF R.GLB_BRUSTAT 17 16 r.1 r.2.2
    if r.1 = 1 then logEvent Ev.BRU_RETRY 0xFF (gnum s) r.2.1 0 s1 else s1

/-- BRU_RETRY (R103). -/
def execBruRetry (s : State) : Host.Outcome State Fault Refusal := finish (bruCmd 1 s)

/-! ## Throttle and core voltage -/

/-- A throttle request as one number: a division ranks above skipping (R30). -/
def thrRank (div skip : Nat) : Nat := 16 * div + skip

/-- The forced setting and the automatic request, each as division and skip (R30, R248). -/
def thrForced (s : State) : Nat × Nat := (fld s R.GLB_THRCTL 1 0 % 3, fld s R.GLB_THRCTL 7 4)
def thrAuto (s : State) : Nat × Nat := if fld s R.GLB_THRCTL 8 8 = 1 then (s.glb.autoDiv.val, s.glb.autoSkip.val) else (0, 0)

/-- GLB_THRSTAT.cause: bit 0 automatic, bit 1 forced. -/
def thrCause (s : State) : Nat := (if thrAuto s = (0, 0) then 0 else 1) + (if thrForced s = (0, 0) then 0 else 2)

/-- THROTTLE_APPLY (R31): the effective throttle, the more severe of the two, takes effect. -/
def execThrottleApply (s : State) : Host.Outcome State Fault Refusal :=
  finish (let f := thrForced s
    let a := thrAuto s
    let e := if thrRank f.1 f.2 < thrRank a.1 a.2 then a else f
    if gnum s < 2 ∨ (e.1 = s.glb.div.val ∧ e.2 = s.glb.skip.val) then s
    else logEvent Ev.GLB_THROTTLE 0xFF e.1 e.2 (thrCause s)
      { s with glb := { s.glb with div := Fin.ofNat 3 e.1, skip := Fin.ofNat 16 e.2, thrAt := s.now } })

/-- The code on AVS_VID changes. -/
def driveAvs (c : Fin 37) (s : State) : State :=
  if s.glb.avs = c then s else emit (.pin "AVS_VID" 0 c.val) { s with glb := { s.glb with avs := c, avsAt := s.now } }

/-- AVS_CODE_STEP (R552, R553): from IDLE on the code moves one step towards that of the monitors (`up`: to a higher voltage), at
most once in 50 µs; it falls only when no throttle change has taken place in the preceding 100 µs; with CLOCKS.avs it stays at, or
returns to, 36; a step that falls due with a throttle change waits. -/
def execAvsCodeStep (up : Bool) (s : State) : Host.Outcome State Fault Refusal :=
  finish (let c := s.glb.avs.val
    if (gnum s < 5 && s.ldr.cold) || (s.glb.avsAt ≠ 0 && decide (s.now < s.glb.avsAt + 20000)) ||
        (s.glb.thrAt ≠ 0 && decide (s.now = s.glb.thrAt)) then s
    else if up then (if c < 36 then driveAvs (Fin.ofNat 37 (c + 1)) s else s)
    else if avsFixed s ∨ c = 0 ∨ (s.glb.thrAt ≠ 0 ∧ s.now < s.glb.thrAt + 40000) then s
    else driveAvs (Fin.ofNat 37 (c - 1)) s)

end Sys2Proof.Machine
end

