-- ==== Sys2Proof/Machine/Crypto.lean ====
section
/-!
DEFINITION. SHA-256 and ECDSA P-256, which the spec names and does not spell out (spec/02_alloy_image.md R47, R57, R58). Written
from FIPS 180-4 and FIPS 186-4, the standards of those names: PRESUMED, log 20.
-/
namespace Sys2Proof.Machine.Crypto

/-! ## SHA-256 -/

/-- The greatest number below 2^`k` whose power `e` is at most `x`, found bit by bit. -/
def rootFloor (e x : Nat) : Nat → Nat → Nat
  | 0, r => r
  | k + 1, r => rootFloor e x k (if (r + 2 ^ k) ^ e ≤ x then r + 2 ^ k else r)

/-- The primes below 312, of which there are 64. -/
def primes : List Nat := (List.range 312).filter (fun m => 2 ≤ m && (List.range 18).all (fun d => d < 2 || m ≤ d || m % d ≠ 0))

/-- The first 32 bits of the fractional part of the root of degree `e` of `m`. -/
def fracRoot (e m : Nat) : Word := BitVec.ofNat 32 (rootFloor e (m * 2 ^ (32 * e)) 37 0)

/-- The constants of the 64 rounds: the cube roots of the primes. -/
def roundWords : List Word := primes.map (fracRoot 3)

/-- The eight working words. -/
structure Hash where
  a : Word
  b : Word
  c : Word
  d : Word
  e : Word
  f : Word
  g : Word
  h : Word
  deriving DecidableEq, Repr

/-- The initial hash value: the square roots of the first eight primes. -/
def Hash.init : Hash :=
  let w (k : Nat) : Word := fracRoot 2 (primes.getD k 0)
  ⟨w 0, w 1, w 2, w 3, w 4, w 5, w 6, w 7⟩

/-- One round. -/
def round (v : Hash) (kw : Word × Word) : Hash :=
  let s1 := v.e.rotateRight 6 ^^^ v.e.rotateRight 11 ^^^ v.e.rotateRight 25
  let ch := (v.e &&& v.f) ^^^ (~~~v.e &&& v.g)
  let t1 := v.h + s1 + ch + kw.1 + kw.2
  let s0 := v.a.rotateRight 2 ^^^ v.a.rotateRight 13 ^^^ v.a.rotateRight 22
  let mj := (v.a &&& v.b) ^^^ (v.a &&& v.c) ^^^ (v.b &&& v.c)
  ⟨t1 + (s0 + mj), v.a, v.b, v.c, v.d + t1, v.e, v.f, v.g⟩

/-- The message schedule, newest word first, extended `n` times. -/
def schedule : Nat → List Word → List Word
  | 0, w => w
  | n + 1, w =>
    let x := w.getD 14 0
    let y := w.getD 1 0
    let s0 := x.rotateRight 7 ^^^ x.rotateRight 18 ^^^ (x >>> 3)
    let s1 := y.rotateRight 17 ^^^ y.rotateRight 19 ^^^ (y >>> 10)
    schedule n ((w.getD 15 0 + s0 + w.getD 6 0 + s1) :: w)

/-- The 16 big-endian words of a block. -/
def words : Nat → List Byte → List Word
  | 0, _ => []
  | n + 1, bs => BitVec.ofNat 32 (beNat (bs.take 4)) :: words n (bs.drop 4)

/-- One 64-byte block. -/
def block (v : Hash) (bs : List Byte) : Hash :=
  let w := (schedule 48 (words 16 bs).reverse).reverse
  let r := (roundWords.zip w).foldl round v
  ⟨v.a + r.a, v.b + r.b, v.c + r.c, v.d + r.d, v.e + r.e, v.f + r.f, v.g + r.g, v.h + r.h⟩

/-- The blocks of a padded message. -/
def blocks : Nat → Hash → List Byte → Hash
  | 0, v, _ => v
  | n + 1, v, bs => blocks n (block v (bs.take 64)) (bs.drop 64)

/-- A word's four bytes, most significant first. -/
def beWord (w : Word) : List Byte := (leBytes 4 w.toNat).reverse

/-- SHA-256 of a message: its 32 bytes. -/
def sha256 (m : List Byte) : List Byte :=
  let n := m.length
  let pad := m ++ [0x80] ++ List.replicate ((119 - n % 64) % 64) 0 ++ (leBytes 8 (8 * n)).reverse
  let v := blocks (pad.length / 64) Hash.init pad
  beWord v.a ++ beWord v.b ++ beWord v.c ++ beWord v.d ++ beWord v.e ++ beWord v.f ++ beWord v.g ++ beWord v.h

/-! ## ECDSA P-256 -/

/-- The field prime, the order of the base point, the curve's b and the base point. -/
def p : Nat := 0xffffffff00000001000000000000000000000000ffffffffffffffffffffffff
def n : Nat := 0xffffffff00000000ffffffffffffffffbce6faada7179e84f3b9cac2fc632551
def b : Nat := 0x5ac635d8aa3a93e7b3ebbd55769886bc651d06b0cc53b0f63bce3c3e27d2604b
def gx : Nat := 0x6b17d1f2e12c4247f8bce6e563a440f277037d812deb33a0f4a13945d898c296
def gy : Nat := 0x4fe342e2fe1a7f9b8ee7eb4a7c0f9e162bce33576b315ececbb6406837bf51f5

/-- x^e modulo m over the low `k` bits of e. -/
def powMod : Nat → Nat → Nat → Nat → Nat
  | 0, _, _, _ => 1
  | k + 1, x, e, m =>
    let r := powMod k (x * x % m) (e / 2) m
    if e % 2 = 1 then x * r % m else r

/-- The inverse modulo a prime. -/
def inv (x m : Nat) : Nat := powMod 256 x (m - 2) m

/-- A point in Jacobian coordinates; z = 0 for the point at infinity. -/
structure Pt where
  x : Nat
  y : Nat
  z : Nat
  deriving DecidableEq, Repr

/-- Twice a point, for the curve coefficient a = −3. -/
def double (q : Pt) : Pt :=
  if q.z = 0 ∨ q.y = 0 then ⟨1, 1, 0⟩
  else
    let y2 := q.y * q.y % p
    let s := 4 * q.x * y2 % p
    let z2 := q.z * q.z % p
    let m := 3 * ((q.x + p - z2) % p) * ((q.x + z2) % p) % p
    let x := (m * m + 2 * (p - s)) % p
    ⟨x, (m * ((s + p - x) % p) + 8 * (p - y2 * y2 % p)) % p, 2 * q.y * q.z % p⟩

/-- The sum of two points. -/
def add (q r : Pt) : Pt :=
  if q.z = 0 then r
  else if r.z = 0 then q
  else
    let qz := q.z * q.z % p
    let rz := r.z * r.z % p
    let u1 := q.x * rz % p
    let u2 := r.x * qz % p
    let s1 := q.y * rz % p * r.z % p
    let s2 := r.y * qz % p * q.z % p
    if u1 = u2 then (if s1 = s2 then double q else ⟨1, 1, 0⟩)
    else
      let h := (u2 + p - u1) % p
      let d := (s2 + p - s1) % p
      let h2 := h * h % p
      let h3 := h2 * h % p
      let v := u1 * h2 % p
      let x := (d * d + (p - h3) + 2 * (p - v)) % p
      ⟨x, (d * ((v + p - x) % p) + (p - s1 * h3 % p)) % p, h * q.z % p * r.z % p⟩

/-- A multiple of a point, over the low `k` bits of the factor. -/
def mul : Nat → Nat → Pt → Pt
  | 0, _, _ => ⟨1, 1, 0⟩
  | k + 1, e, q =>
    let r := mul k (e / 2) (double q)
    if e % 2 = 1 then add q r else r

/-- ECDSA verification of a SHA-256 digest with public key (qx, qy) and signature (r, s), all big-endian numbers. -/
def verify (digest qx qy r s : Nat) : Bool :=
  if r = 0 ∨ n ≤ r ∨ s = 0 ∨ n ≤ s ∨ p ≤ qx ∨ p ≤ qy then false
  else if qy * qy % p ≠ (qx * qx % p * qx + (p - 3) * qx + b) % p then false
  else
    let w := inv s n
    let t := add (mul 256 (digest * w % n) ⟨gx, gy, 1⟩) (mul 256 (r * w % n) ⟨qx, qy, 1⟩)
    if t.z = 0 then false
    else
      let zi := inv t.z p
      (t.x * (zi * zi % p) % p) % n = r

end Sys2Proof.Machine.Crypto
end

