-- ==== Sys2Proof/Machine/ImageCheck.lean ====
section
/-!
DEFINITION. The checks of an alloy image, in the order of R68 (spec/02_alloy_image.md R43 to R60, R67, R72, R564, R582).
-/
namespace Sys2Proof.Machine

/-- A failed check: its event with arguments, and what IMG_ERR.section and IMG_ERRARG take (R68, R78, R582). -/
structure ImgFail where
  kind : EvKind
  a0   : Nat
  a1   : Nat
  a2   : Nat
  sect : Nat
  arg  : Nat
  deriving DecidableEq, Repr

/-- A section record of an image: type, flags, offset of its value in the image, value. -/
structure SectRec where
  type  : Nat
  flags : Nat
  off   : Nat
  value : List Byte
  deriving DecidableEq, Repr

/-- The section types that the loader knows, ascending (R49). -/
def knownTypes : List Nat := [1, 2, 3, 4, 5, 6, 7, 8, 9, 10, 11, 12, 0xFF]

/-- The value length that a known section must have (R49). -/
def sectLen (t : Nat) (v : List Byte) : Nat :=
  match t with
  | 1 => 328
  | 2 => 152
  | 3 => 12
  | 4 => 12 + 8 * fieldAt v 0x0A 2
  | 5 => 8
  | 6 => 128
  | 7 => 96
  | 8 => 64
  | 9 => 64
  | 10 => 16
  | 11 => 4 + 4 * fieldAt v 0 2
  | 12 => 8 + 16 * fieldAt v 0 2
  | _ => 136

/-! ## Header -/

/-- Checks 2 to 4 of R68 on the image bytes; `rcvd` bytes received in a push (none for a flash read), `ovf` overflow count. -/
def checkHeader (b : List Byte) (rcvd : Option Nat) (ovf : Nat) : Option ImgFail :=
  let len := fieldAt b 8 4
  let flags := fieldAt b 0x0C 4
  let svn := fieldAt b 0x10 4
  let field (o n : Nat) : Option ImgFail := some ⟨Ev.IMG_FIELD_INVALID, 0, o, fieldAt b o n, 0, o⟩
  if fieldAt b 0 4 ≠ 0x594C414B then some ⟨Ev.IMG_BAD_MAGIC, fieldAt b 0 4, 0, 0, 0, 0⟩
  else if fieldAt b 4 2 ≠ 1 then some ⟨Ev.IMG_BAD_VERSION, fieldAt b 4 2, fieldAt b 6 2, 0, 0, 4⟩
  else if len % 8 ≠ 0 ∨ 1048576 < len ∨ len < 240 ∨ rcvd.getD len < len ∨ ovf ≠ 0 then
    some ⟨Ev.IMG_BAD_LENGTH, len, rcvd.getD len, ovf, 0, 8⟩
  else if 2 ≤ flags then field 0x0C 4
  else if 32 < svn then field 0x10 4
  else if fieldAt b 0x16 10 ≠ 0 then field 0x16 10
  else if flags = 0 ∧ fieldAt b 0x40 32 ≠ 0 then field 0x40 32
  else none

/-! ## Section walk -/

/-- The records from image offset `o` to `len`, with the type before plus 1 (0 for none), or the first failure (R45, R46, R48, R49, R78).
A record after SIGNATURE is out of order, since SIGNATURE is the last (R46; log 50). -/
def walk : Nat → List Byte → Nat → Nat → Nat → Except ImgFail (List SectRec)
  | 0, _, _, _, _ => .ok []
  | k + 1, b, len, o, prev =>
    if len ≤ o then .ok []
    else
      let t := fieldAt b o 2
      let flags := fieldAt b (o + 2) 2
      let n := fieldAt b (o + 4) 4
      let bad (at' reason : Nat) : Except ImgFail (List SectRec) :=
        .error ⟨Ev.IMG_SECTION_BAD, t, at', reason, t % 256, at'⟩
      let v := slice b (o + 8) n
      let known := knownTypes.contains t
      let next := o + 8 + (n + 7) / 8 * 8
      if t + 1 < prev then bad o 1
      else if t + 1 = prev then bad o 2
      else if prev = 0x100 then bad o 1
      else if len < next then bad o 3
      else if known ∧ (sectLen t v ≠ n) then bad o 5
      else if !known ∧ flags % 2 = 0 then bad o 4
      else if 2 ≤ flags then bad (o + 2) 7
      else
        match walk k b len next (t + 1) with
        | .ok rest => .ok (⟨t, flags, o + 8, v⟩ :: rest)
        | .error e => .error e

/-- Check 5 of R68: the records, or the failure. -/
def checkSections (b : List Byte) : Except ImgFail (List SectRec) :=
  let len := fieldAt b 8 4
  let part := fieldAt b 0x0C 4 % 2 = 1
  match walk (len / 8) b len 0x60 0 with
  | .error e => .error e
  | .ok l =>
    let has (t : Nat) : Bool := l.any (fun r => r.type = t)
    let missing (t : Nat) : Except ImgFail (List SectRec) :=
      .error ⟨Ev.IMG_SECTION_MISSING, t, 0, 0, t % 256, 0⟩
    if l.length ≠ fieldAt b 0x14 2 then
      .error ⟨Ev.IMG_SECTION_BAD, (l.getLast?.map SectRec.type).getD 0, 0x14, 6, ((l.getLast?.map SectRec.type).getD 0) % 256, 0x14⟩
    else if !part then
      match knownTypes.find? (fun t => !has t) with
      | some t => missing t
      | none => .ok l
    else if !(knownTypes.any (fun t => t ≠ 0xFF && has t)) then missing 0
    else if !has 0xFF then missing 0xFF
    else .ok l

/-! ## Field checks (R50, R53, R564) -/

/-- One field of a section: offset, size, whether its value is one of those listed. -/
abbrev FieldCk := Nat × Nat × Bool

/-- The nibbles of a number of 8. -/
def nibbles8 (x : Nat) : List Nat := (List.range 8).map (nibble x)

/-- The fields of TOPOLOGY. -/
def ckTopology (v : List Byte) : List FieldCk :=
  let f (o n : Nat) : Nat := fieldAt v o n
  let pl := f 0x141 1
  let pm := f 0x140 1
  let pipe (p : Nat) : List FieldCk :=
    let o := 16 * p
    let port := f o 1
    let ub := port = 0xFF
    let rp := f (o + 4) 4
    let cnt := ((nibbles8 rp).filter (fun x => x ≠ 0xF)).length
    [(o, 1, port < 16 || ub), (o + 1, 1, if ub then f (o + 1) 1 = 0xFF else f (o + 1) 1 < 16),
     (o + 2, 1, if ub then f (o + 2) 1 = 0 else 1 ≤ cnt && f (o + 2) 1 = cnt),
     (o + 3, 1, if ub then f (o + 3) 1 = 0 else f (o + 3) 1 < 4),
     (o + 4, 4, if ub then rp = 0 else (nibbles8 rp).all (fun x => x = 0xF || x < pl)),
     (o + 8, 4, if ub then f (o + 8) 4 = 0
       else (List.range 8).all (fun n => nibble (f (o + 8) 4) n = 0xF || (nibble (f (o + 8) 4) n < 8 && nibble rp n ≠ 0xF))),
     (o + 12, 4, f (o + 12) 4 = 0)]
  let lt (g : Nat) : List FieldCk :=
    let o := 0x100 + 4 * g
    [(o, 1, f o 1 < 8 || f o 1 = 0x10 || f o 1 = 0xFF), (o + 1, 1, f (o + 1) 1 < 3),
     (o + 2, 1, f (o + 2) 1 = 0xFF || (f (o + 1) 1 = 2 && f (o + 2) 1 < 8)), (o + 3, 1, f (o + 3) 1 = 0)]
  let index (k i : Nat) : Bool := if k = 1 then i < 4 else if k = 2 then i < 8 else i = 0
  let channel (k c : Nat) : Bool := if k = 0 then c = 0xFF else c < 8
  (List.range 16).flatMap pipe ++ (List.range 16).flatMap lt ++
  ([(0x140, 1, decide (pm < 2)), (0x141, 1, 1 ≤ pl && pl ≤ 8), (0x142, 1, f 0x142 1 < 3), (0x143, 1, index (f 0x142 1) (f 0x143 1)),
   (0x144, 1, channel (f 0x142 1) (f 0x144 1)), (0x145, 1, f 0x145 1 < 3 && (pm = 1 || f 0x145 1 = 0)),
   (0x146, 1, index (f 0x145 1) (f 0x146 1)), (0x147, 1, channel (f 0x145 1) (f 0x147 1))] : List FieldCk)

/-- The fields of SCHED. -/
def ckSched (v : List Byte) : List FieldCk :=
  let f (o n : Nat) : Nat := fieldAt v o n
  let bell := f 0 1 = 1
  let order := (List.range 16).map (nibble (f 4 8))
  ([(0, 1, f 0 1 < 2), (1, 1, f 1 1 < 2 && !(bell && f 1 1 = 1)), (2, 2, f 2 2 = 0),
   (4, 8, if bell then (List.range 16).all (fun g => order.contains g) else f 4 8 = 0)] : List FieldCk) ++
  [(0x0C, 8, (List.range 8).all (fun c => if c < 6 then f (0x0C + c) 1 < 8 else f (0x0C + c) 1 = 0xFF)),
   (0x14, 128, bell || f 0x14 128 = 0), (0x94, 4, if bell then decide (4167 ≤ f 0x94 4) else decide (f 0x94 4 = 0))]

/-- The fields of CLOCKS. -/
def ckClocks (v : List Byte) : List FieldCk :=
  let f (o n : Nat) : Nat := fieldAt v o n
  [(0, 4, f 0 4 = 0 || 4167 ≤ f 0 4), (4, 1, f 4 1 < 2), (5, 1, 25 ≤ f 5 1 && f 5 1 ≤ 200), (6, 1, f 6 1 < 2), (7, 5, f 7 5 = 0)]

/-- The fields of MEMORY. -/
def ckMemory (v : List Byte) : List FieldCk :=
  let f (o n : Nat) : Nat := fieldAt v o n
  (List.range 8).map (fun b => (b, 1, decide (f b 1 < 3))) ++ [(9, 1, decide (f 9 1 = 0)), (0x0A, 2, decide (f 0x0A 2 ≤ 32))] ++
  (List.range (f 0x0A 2)).flatMap (fun i =>
    [(0x0C + 8 * i, 4, decide (f (0x0C + 8 * i) 4 % 4096 = 0)), (0x10 + 8 * i, 4, f (0x10 + 8 * i) 4 ≠ 0 && f (0x10 + 8 * i) 4 % 4096 = 0)])

/-- The fields of XMC. -/
def ckXmc (v : List Byte) : List FieldCk :=
  let f (o n : Nat) : Nat := fieldAt v o n
  [(0, 1, [0, 2, 4].contains (f 0 1)), (1, 1, [1, 2, 4, 8, 16].contains (f 1 1)), (2, 2, [3200, 4267, 5500, 6400].contains (f 2 2)),
   (4, 1, f 4 1 < 2), (5, 1, f 5 1 = 1 || f 5 1 = 2), (6, 2, f 6 2 = 0)]

/-- The fields of HEADS. -/
def ckHeads (v : List Byte) : List FieldCk :=
  (List.range 16).flatMap (fun h =>
    [(8 * h + 5, 1, decide (fieldAt v (8 * h + 5) 1 < 3)), (8 * h + 6, 1, decide (fieldAt v (8 * h + 6) 1 < 16)),
     (8 * h + 7, 1, decide (fieldAt v (8 * h + 7) 1 = 0))])

/-- The fields of POSITION. -/
def ckPosition (v : List Byte) : List FieldCk :=
  let f (o n : Nat) : Nat := fieldAt v o n
  (List.range 8).flatMap (fun n =>
    let o := 8 * n
    [(o, 1, f o 1 < 3 || (n < 4 && f o 1 < 5)), (o + 1, 1, f (o + 1) 1 < 4), (o + 2, 2, 1 ≤ f (o + 2) 2 && f (o + 2) 2 ≤ 4095),
     (o + 5, 1, f (o + 5) 1 < 8 && !((f o 1 = 1 || f o 1 = 2) && f (o + 5) 1 ≠ 0)), (o + 6, 2, f (o + 6) 2 = 0)]) ++
  (List.range 4).flatMap (fun n =>
    let o := 0x40 + 8 * n
    [(o, 1, f o 1 < 8 || f o 1 = 0xFF), (o + 1, 1, f (o + 1) 1 = 0), (o + 2, 2, decide (1 ≤ f (o + 2) 2)),
     (o + 4, 2, decide (f (o + 2) 2 ≤ f (o + 4) 2)), (o + 6, 2, f (o + 6) 2 = 0)])

/-- The fields of AXES. -/
def ckAxes (v : List Byte) : List FieldCk :=
  let f (o n : Nat) : Nat := fieldAt v o n
  (List.range 8).flatMap (fun n =>
    let o := 8 * n
    [(o, 1, decide (f o 1 < 2)), (o + 1, 1, f (o + 1) 1 < 8 || f (o + 1) 1 = 0xFF), (o + 2, 1, decide (f (o + 2) 1 < 2)),
     (o + 3, 1, decide (f (o + 3) 1 < 2)), (o + 4, 1, decide (f (o + 4) 1 < 32)), (o + 5, 3, decide (f (o + 5) 3 = 0))])

/-- The fields of MOTORS. -/
def ckMotors (v : List Byte) : List FieldCk :=
  let f (o n : Nat) : Nat := fieldAt v o n
  (List.range 4).flatMap (fun n =>
    let o := 16 * n
    [(o, 1, decide (f o 1 < 3)), (o + 1, 1, if f o 1 = 2 then f (o + 1) 1 < 8 else f (o + 1) 1 = 0xFF),
     (o + 2, 1, 1 ≤ f (o + 2) 1 && f (o + 2) 1 ≤ 32), (o + 3, 1, decide (f (o + 3) 1 < 2)),
     (o + 4, 2, 8 ≤ f (o + 4) 2 && f (o + 4) 2 ≤ 100), (o + 6, 1, decide (4 ≤ f (o + 6) 1)), (o + 7, 1, decide (f (o + 7) 1 ≤ 53)),
     (o + 12, 4, decide (f (o + 12) 4 = 0))])

/-- The fields of CASCADE; the strap is compared in its place (R53). -/
def ckCascade (mstr : Bool) (v : List Byte) : List FieldCk :=
  let f (o n : Nat) : Nat := fieldAt v o n
  [(0, 1, f 0 1 = 0 || (f 0 1 = 1 && mstr) || (f 0 1 = 2 && !mstr)), (1, 1, f 1 1 < 8 || f 1 1 = 0xFF),
   (2, 1, 1 ≤ f 2 1 && f 2 1 ≤ 8 && !(f 0 1 = 0 && f 2 1 ≠ 1)), (3, 1, f 3 1 < 3), (4, 1, f 4 1 < 32), (5, 1, f 5 1 < 32),
   (6, 10, f 6 10 = 0)]

/-- A PINS entry: identifier, function, attributes (R564). -/
def ckPin (v : List Byte) (o : Nat) : List FieldCk :=
  let f (o n : Nat) : Nat := fieldAt v o n
  let g := f o 2 / 256
  let i := f o 2 % 256
  let fn := f (o + 2) 1
  let at' := f (o + 3) 1
  let known := (g = 1 && i < 24) || (g = 2 && i < 12) || (g = 3 && i < 64) || (g = 4 && i < 28) || (g = 5 && i < 7)
  [(o, 2, known), (o + 2, 1, fn = 0 || (g ≠ 5 && (fn = 3 || fn = 4 || fn = 0xFF)) || (g = 2 && fn = 1)),
   (o + 3, 1, !bitOf at' 3 && !bitOf at' 6 && !bitOf at' 7 && !(g = 5 && bitOf at' 0))]

/-- The fields of a section in ascending offset. -/
def ckSection (mstr : Bool) (t : Nat) (v : List Byte) : List FieldCk :=
  match t with
  | 1 => ckTopology v
  | 2 => ckSched v
  | 3 => ckClocks v
  | 4 => ckMemory v
  | 5 => ckXmc v
  | 6 => ckHeads v
  | 7 => ckPosition v
  | 8 => ckAxes v
  | 9 => ckMotors v
  | 10 => ckCascade mstr v
  | 11 => (2, 2, decide (fieldAt v 2 2 = 0)) :: (List.range (fieldAt v 0 2)).flatMap (fun i => ckPin v (4 + 4 * i))
  | 12 => (2, 6, decide (fieldAt v 2 6 = 0)) ::
      (List.range (fieldAt v 0 2)).map (fun i => (8 + 16 * i + 12, 4, decide (fieldAt v (8 + 16 * i + 12) 4 = 0)))
  | 0xFF => [(0, 2, decide (fieldAt v 0 2 = 1)), (2, 6, decide (fieldAt v 2 6 = 0))]
  | _ => []

/-- Check 11 of R68: the first field that fails (R50). -/
def checkFields (mstr : Bool) (l : List SectRec) : Option ImgFail :=
  l.findSome? (fun r =>
    ((ckSection mstr r.type r.value).find? (fun c => !c.2.2)).map (fun c =>
      ⟨Ev.IMG_FIELD_INVALID, r.type, c.1, fieldAt r.value c.1 c.2.1, r.type % 256, r.off + c.1⟩))

/-! ## INVAR (R54, R55) -/

/-- The BAR0 offsets of the Invar registers, ascending (R543). -/
def invarOffsets : List Nat :=
  [R.CAS_PCHK, R.DOT_UGUARD, R.DOT_SSMARGIN, R.DOT_SSBACKMAX] ++ (List.range 16).map R.DOT_Pn_LOWM ++
  [R.FIR_HOPENMAP01, R.FIR_HOPENMAP23, R.FIR_GATEEN] ++ (List.range 16).map R.FIR_LTn_SUPTOL ++
  (List.range 16).map R.FIR_Pn_PRECAP ++
  [R.THM_XCHK, R.THM_LBUDGET, R.THM_PRINTRES, R.THM_SDMARGIN, R.THM_DIETHR1, R.THM_DIETHR2, R.THM_DIETHR3, R.THM_DIESTOP,
   R.THM_DIESHUT, R.THM_DIERSHUT] ++
  (List.range 16).flatMap (fun p => [R.THM_Pn_TSTOP p, R.THM_Pn_THALT p, R.THM_Pn_TTHR p, R.THM_Pn_RSTOP p, R.THM_Pn_RHALT p,
    R.THM_Pn_BUDGET01 p, R.THM_Pn_BUDGET23 p, R.THM_Pn_CAPS p]) ++
  [R.SCN_DWELL] ++ (List.range 8).map R.POS_PCn_SCWIN ++
  (List.range 8).flatMap (fun n => [R.STP_SAn_IRUN n, R.STP_SAn_EDEC n, R.STP_SAn_SOFTMIN n, R.STP_SAn_SOFTMAX n,
    R.STP_SAn_STALLWIN n, R.STP_SAn_LIMCFG n]) ++
  (List.range 4).flatMap (fun n => [R.MOT_MCn_ILIM n, R.MOT_MCn_LOCK n, R.MOT_MCn_BRKFW n, R.MOT_MCn_VBUS n, R.MOT_MCn_SOFTMIN n,
    R.MOT_MCn_SOFTMAX n, R.MOT_MCn_LIMCFG n])

/-- The INVAR entries of a section value: index, offset, value, complement. -/
def invarEntries (v : List Byte) : List (Nat × Nat × Nat × Nat) :=
  (List.range (fieldAt v 0 2)).map (fun i =>
    (i, fieldAt v (8 + 16 * i) 4, fieldAt v (12 + 16 * i) 4, fieldAt v (16 + 16 * i) 4))

/-- Check 12 of R68 on an INVAR section (R55). -/
def checkInvar (full : Bool) (r : SectRec) : Option ImgFail :=
  let es := invarEntries r.value
  let bad (e : Nat × Nat × Nat × Nat) : Bool :=
    e.2.2.1 + e.2.2.2 ≠ 0xFFFFFFFF || !invarOffsets.contains e.2.1 || (es.take e.1).any (fun d => d.2.1 = e.2.1)
  match es.find? bad with
  | some e => some ⟨Ev.IMG_INVAR_BAD, e.2.1, e.2.2.1, e.2.2.2, 0x0C, r.off + 8 + 16 * e.1⟩
  | none =>
    if full then
      match invarOffsets.find? (fun o => !es.any (fun e => e.2.1 = o)) with
      | some o => some ⟨Ev.IMG_INVAR_BAD, o, 0, 0, 0x0C, r.off⟩
      | none => none
    else none

/-! ## Cross-section constraints (R56, R582) -/

/-- The first element of least `k`. -/
def lowestBy (k : Nat → Nat) : List Nat → Option Nat
  | [] => none
  | x :: l =>
    match lowestBy k l with
    | some y => if k y < k x then some y else some x
    | none => some x

/-- The first constraint that the image that would result breaks: rule, instance, section type, offset in its value. Instances in
ascending order, 0xFF last (R56); the readings of log 51. -/
def checkRules (i : Image) : Option (Nat × Nat × Nat × Nat) :=
  let f (t o n : Nat) : Nat := fieldAt (i.sec t) o n
  let port (p : Nat) : Nat := f 1 (16 * p) 1
  let bound (p : Nat) : Bool := port p < 16
  let lt (p : Nat) : Nat := f 1 (16 * p + 1) 1
  let src (g : Nat) : Nat := f 1 (0x100 + 4 * g) 1
  let mode (g : Nat) : Nat := f 1 (0x101 + 4 * g) 1
  let pm := f 1 0x140 1
  let ub (b : Bool) : Bool := !b
  let pcUsed (n : Nat) : Bool := n < 8 && f 7 (8 * n) 1 ≠ 0
  let axisUsed (k n : Nat) : Bool := (k = 1 && n < 4 && f 9 (16 * n) 1 ≠ 0) || (k = 2 && n < 8 && f 8 (8 * n) 1 = 1)
  let feeds (g : Nat) : Bool := (those 16 (fun p => bound p && lt p = g)).length ≠ 0
  let r1 := (those 16 (fun h => 2 ≤ (those 16 (fun p => port p = h)).length)).head?.map (fun h =>
    (1, h, 1, 16 * ((those 16 (fun p => port p = h)).getD 1 0)))
  let r2 := (those 16 (fun p => bound p && src (lt p) = 0xFF)).head?.map (fun p => (2, p, 1, 16 * p + 1))
  let ok3 (g : Nat) : Bool := src g = 0xFF || (if mode g = 2 then src g = 0x10 else pcUsed (src g))
  let r3 := (those 16 (fun g => ub (ok3 g))).head?.map (fun g => (3, g, 1, 0x100 + 4 * g))
  let clocked := those 16 (fun g => src g = 0x10)
  let r4 := if f 3 0 4 = 0 then clocked.head?.map (fun g => (4, g, 3, 0))
    else if clocked.isEmpty then some (4, 0xFF, 3, 0) else none
  let pl (p n : Nat) : Nat := nibble (f 1 (16 * p + 4) 4) n
  let pr (p n : Nat) : Nat := nibble (f 1 (16 * p + 8) 4) n
  let ok5 (p : Nat) : Bool := (List.range 8).all (fun n => pr p n = 0xF ||
    (pr p (pr p n) = n && pl p (pr p n) = pl p n && f 1 (16 * p + 3) 1 % 2 = 1 && pr p n ≠ n))
  let r5 := (those 16 (fun p => bound p && ub (ok5 p))).head?.map (fun p => (5, p, 1, 16 * p + 8))
  let r6a := if f 1 0x142 1 ≠ 0 && ub (axisUsed (f 1 0x142 1) (f 1 0x143 1) && pcUsed (f 1 0x144 1)) then some (6, 0, 1, 0x142) else none
  let r6b := if pm = 1 && ub (axisUsed (f 1 0x145 1) (f 1 0x146 1) && pcUsed (f 1 0x147 1)) then some (6, 1, 1, 0x145) else none
  let r7 := if pm = 0 && f 1 0x142 1 ≠ 0 then
      (those 16 (fun g => feeds g && src g ≠ f 1 0x144 1 && src g ≠ 0x10)).head?.map (fun g => (7, g, 1, 0x100 + 4 * g))
    else none
  let used (m : Nat) : Bool := f 9 (16 * m) 1 ≠ 0
  let sh (m : Nat) : Nat := f 9 (16 * m + 7) 1
  let r8a := (those 4 (fun m => used m && (those m (fun k => used k && sh k < sh m + 3 && sh m < sh k + 3)).length ≠ 0)).head?.map
    (fun m => (8, m, 9, 16 * m + 7))
  let pinUsed (id : Nat) : Bool :=
    let g := id / 256
    let n := id % 256
    (g = 1 && pcUsed (n / 3)) || (g = 2 && f 7 (0x40 + 8 * (n / 3)) 1 ≠ 0xFF) || (g = 3 && f 8 (8 * (n / 8)) 1 = 1) || (g = 4 && used (n / 7))
  let taken (e : Nat) : Bool := f 11 (6 + 4 * e) 1 ≠ 0 && pinUsed (f 11 (4 + 4 * e) 2)
  let r8b := (lowestBy (fun e => f 11 (4 + 4 * e) 2) (those (f 11 0 2) taken)).map
    (fun e => (8, 0x10000 + f 11 (4 + 4 * e) 2, 11, 4 + 4 * e))
  let r9 := (those 16 (fun h => (those 16 (fun p => port p = h)).length ≠ 0 && f 6 (8 * h + 5) 1 ≠ 0 && f 6 (8 * h) 2 = 0)).head?.map
    (fun h => (9, h, 6, 8 * h))
  let exOk (e : Nat) : Bool :=
    let a := f 4 (0x0C + 8 * e) 4
    let n := f 4 (0x10 + 8 * e) 4
    a + n ≤ 0x6000000 && (List.range 8).all (fun b => f 4 b 1 ≠ 2 || a + n ≤ b * 0xC00000 || (b + 1) * 0xC00000 ≤ a)
  let r10 := (those (f 4 0x0A 2) (fun e => ub (exOk e))).head?.map (fun e => (10, e, 4, 0x0C + 8 * e))
  let r11 := if pm = 1 then
      (match (those 16 (fun g => feeds g && (2 ≤ mode g || src g ≠ f 1 0x147 1))).head? with
       | some g => some (11, g, 1, 0x100 + 4 * g)
       | none => if f 2 0 1 ≠ 0 then some (11, 0xFF, 2, 0) else if f 3 0 4 ≠ 0 then some (11, 0xFF, 3, 0) else none)
    else none
  [r1, r2, r3, r4, r5, r6a, r6b, r7, r8a, r8b, r9, r10, r11].findSome? id

/-! ## All checks -/

/-- The image that would result: the sections of the new one over those of the image in force (R56, R72). -/
def resultImage (base : Option Image) (b : List Byte) (l : List SectRec) (src : ImgSource) : Image :=
  let part := fieldAt b 0x0C 4 % 2 = 1
  let own := (l.filter (fun r => knownTypes.contains r.type)).map (fun r => (r.type, r.value))
  let old := match base with
    | some i => if part then i.sections.filter (fun kv => !l.any (fun r => r.type = kv.1)) else []
    | none => []
  let hash := slice b 0x20 32
  { sections := own ++ old, svn := fieldAt b 0x10 4,
    effHash := if part then Crypto.sha256 (slice b 0x40 32 ++ hash) else hash, source := src, amended := part }

/-- The budget of a rail that would stand after the commit (R51). -/
def budgetAfter (s : State) (l : List SectRec) (p r : Nat) : Nat :=
  let o := if r < 2 then R.THM_Pn_BUDGET01 p else R.THM_Pn_BUDGET23 p
  let w := match (l.find? (fun x => x.type = 12)).bind (fun x => (invarEntries x.value).find? (fun e => e.2.1 = o)) with
    | some e => e.2.2.1
    | none => (rd s o).toNat
  w / 2 ^ (16 * (r % 2)) % 65536

/-- Check 14 of R68 (R51). -/
def checkProof (s : State) (i : Image) (l : List SectRec) : Option ImgFail :=
  if fieldAt (i.sec 2) 0 1 = 1 then
    let bound (h : Nat) : Bool := (those 16 (fun p => fieldAt (i.sec 1) (16 * p) 1 = h)).length ≠ 0
    let pf (k : Nat) : Nat := fieldAt (i.sec 2) (0x14 + 2 * k) 2
    (those 64 (fun k => bound (k / 4) && budgetAfter s l (k / 4) (k % 4) < pf k)).head?.map (fun k =>
      ⟨Ev.IMG_SCHED_PROOF, k / 4, k % 4, pf k, 2,
        match l.find? (fun x => x.type = 2) with
        | some r => r.off + 0x14 + 2 * k
        | none => 0xFFFFFFFF⟩)
  else none

/-- The OTP key hash is unprovisioned: all zero with the key-lock fuse intact (R59). -/
def unprovisioned (s : State) : Bool := s.ldr.otpKey.all (fun x => x = 0) && !s.ldr.keyLock

/-- Checks 6 to 14 of R68 on an image whose sections have been walked. -/
def checkContents (s : State) (b : List Byte) (l : List SectRec) (src : ImgSource) : Except ImgFail Image :=
  let part := fieldAt b 0x0C 4 % 2 = 1
  let sig := (l.find? (fun r => r.type = 0xFF)).getD ⟨0xFF, 0, 0, []⟩
  let f (o n : Nat) : Nat := beNat (slice sig.value o n)
  let hash := Crypto.sha256 (slice b 0x60 (sig.off - 8 - 0x60))
  let key := Crypto.sha256 (slice sig.value 8 64)
  let digest := Crypto.sha256 (slice b 0 (sig.off - 8))
  let i := resultImage s.ldr.image b l src
  let svn := fieldAt b 0x10 4
  if hash ≠ slice b 0x20 32 then .error ⟨Ev.IMG_HASH_MISMATCH, fieldAt hash 0 4, fieldAt b 0x20 4, 0, 0, 0x20⟩
  else if !unprovisioned s && (key ≠ s.ldr.otpKey || s.ldr.otpKey.all (fun x => x = 0)) then
    .error ⟨Ev.IMG_KEY_MISMATCH, fieldAt key 0 4, 0, 0, 0xFF, sig.off - 8⟩
  else if !Crypto.verify (beNat digest) (f 8 32) (f 0x28 32) (f 0x48 32) (f 0x68 32) then
    .error ⟨Ev.IMG_SIG_INVALID, 0, 0, 0, 0xFF, sig.off - 8⟩
  else if svn < s.ldr.otpSvn then .error ⟨Ev.IMG_ROLLBACK, svn, s.ldr.otpSvn, 0, 0, 0x10⟩
  else if part && (s.ldr.image.isNone || slice b 0x40 32 ≠ effHash s) then
    .error ⟨Ev.IMG_BASE_MISMATCH, fieldAt b 0x40 4, fieldAt (effHash s) 0 4, 0, 0, 0x40⟩
  else
    match checkFields (bits (rd s R.GLB_RSTCAUSE) 4 4 = 1) l with
    | some e => .error e
    | none =>
      match (l.find? (fun r => r.type = 12)).bind (checkInvar !part) with
      | some e => .error e
      | none =>
        match checkRules i with
        | some (rule, inst, t, o) =>
          .error ⟨Ev.IMG_CONSTRAINT, rule, inst, 0, t,
            match l.find? (fun x => x.type = t) with
            | some r => r.off + o
            | none => 0xFFFFFFFF⟩
        | none =>
          match checkProof s i l with
          | some e => .error e
          | none => .ok i

/-- A load begins: slot A with slot B after it, slot B alone, or a host push from PUSH_BEGIN; with an unprovisioned key hash it raises
IMG_KEY_UNPROVISIONED, once (R59; DEDUCED, log 19). -/
def loadBegins (s : State) : State := if unprovisioned s then logEvent Ev.IMG_KEY_UNPROVISIONED 0xFF 0 0 0 s else s

/-- Checks 2 to 14 of R68 on an image received: the image to commit, or the first failure. -/
def checkImage (s : State) (b : List Byte) (rcvd : Option Nat) (ovf : Nat) (src : ImgSource) : Except ImgFail Image :=
  match checkHeader b rcvd ovf with
  | some e => .error e
  | none =>
    let img := slice b 0 (fieldAt b 8 4)
    match checkSections img with
    | .error e => .error e
    | .ok l => checkContents s img l src

/-- The records of an image that has passed its checks, for its commit. -/
def sectionsOf (b : List Byte) : List SectRec :=
  match checkSections (slice b 0 (fieldAt b 8 4)) with
  | .ok l => l
  | .error _ => []

end Sys2Proof.Machine
end

