-- ==== Sys2Proof/Machine/Loader.lean ====
section
/-!
DEFINITION. The image loader: reading, host push, checks, commit, the loader commands and RELOAD (spec/02_alloy_image.md R61 to R79;
spec/18_register_map.md R546 to R548; spec/16_memories.md R498).
-/
namespace Sys2Proof.Machine

/-! ## Image reset (R70, R546 to R548) -/

/-- The bits of a register whose meaning counts since PORST_N (R547). -/
def sincePorst (o : Nat) : Word :=
  if o = R.IMG_ERR then 0xFF000000
  else if o = R.NVJ_JDROP then 0xFFFF
  else if o = R.DOT_SSSTAT then 0xFFFF0000
  else if o = R.CAS_TSTAT then 0xFF000000
  else if o = R.MEM_MARCHSTAT then 0xFFF0
  else 0

/-- The words of a reset's scope take their reset values; the bits that `keep` gives stay (R547). -/
def resetWords (scope : Nat → Bool) (keep : Nat → Word) (s : State) : State :=
  { s with regs := s.regs.filterMap (fun kv =>
      if scope kv.1 then
        let m := keep kv.1
        let w := (regReset kv.1 &&& ~~~m) ||| (kv.2 &&& m)
        if w = regReset kv.1 then none else some (kv.1, w)
      else some kv) }

/-- The word belongs to an Invar register (R543). -/
def isInvar (o : Nat) : Bool := ((regDesc o).map RegDesc.invar).getD false

/-- The old image, the new one, and whether a section is carried; a full image counts everything as changed (R73). -/
structure Commit where
  old  : Option Image
  new  : Image
  recs : List SectRec
  full : Bool

/-- The image carries section `t`. -/
def Commit.carries (c : Commit) (t : Nat) : Bool := c.full || c.recs.any (fun r => r.type = t)

/-- Bytes [o, o + n) of section `t` change. -/
def Commit.changed (c : Commit) (t o n : Nat) : Bool :=
  c.full || (match c.old with
    | some i => decide (slice (i.sec t) o n ≠ slice (c.new.sec t) o n)
    | none => true)

/-- The head port that pipe `p` names in an image. -/
def portOf (i : Image) (p : Nat) : Nat := fieldAt (i.sec 1) (16 * p) 1

/-- Pipe `p`, generator `g`, HEADS entry `h` change. -/
def Commit.pipe (c : Commit) (p : Nat) : Bool := c.changed 1 (16 * p) 16
def Commit.gen (c : Commit) (g : Nat) : Bool := c.changed 1 (0x100 + 4 * g) 4
def Commit.head (c : Commit) (h : Nat) : Bool := c.changed 6 (8 * h) 8

/-- Port `h` is named, before or now, by a pipe entry that changes, or its HEADS entry changes (R73, R74, R548). -/
def Commit.port (c : Commit) (h : Nat) : Bool :=
  c.full || c.head h || (List.range 16).any (fun p => c.pipe p &&
    (portOf c.new p = h || (match c.old with
      | some i => portOf i p = h
      | none => false)))

/-- A TOPOLOGY field from offset 0x140 on changes (R548). -/
def Commit.common (c : Commit) : Bool := c.changed 1 0x140 8

/-- `o` lies in instance `i` of a block at `base`, instances `stride` apart. -/
def inInst (o base stride i : Nat) : Bool := decide (base + stride * i ≤ o) && decide (o < base + stride * (i + 1))

/-- `o` lies in [a, b). -/
def within (o a b : Nat) : Bool := decide (a ≤ o) && decide (o < b)

/-- The registers that the image reset restores (R548). -/
def Commit.scope (c : Commit) (o : Nat) : Bool :=
  !isInvar o && (
    (List.range 16).any (fun p =>
      (inInst o 0x181000 0x100 p && c.pipe p) ||
      ((inInst o 0x201000 0x100 p || inInst o 0x301000 0x40 p) && c.gen p) ||
      ((inInst o 0x202000 0x100 p || inInst o 0x281000 0x100 p || inInst o 0x2C1000 0x100 p) && c.port p)) ||
    (c.common && (within o 0x180000 0x181000 || within o 0x200000 0x201000 || within o 0x300000 0x301000 || within o 0x2C0000 0x2C1000)) ||
    (c.carries 2 && within o 0x280000 0x281000) ||
    (c.carries 3 && o = R.GLB_THRCTL) ||
    (c.carries 4 && o = R.MEM_MARCHCFG) ||
    (c.carries 5 && o = R.XMC_WINBASE) ||
    (c.carries 7 && within o 0x400000 0x480000) ||
    (c.carries 8 && within o 0x480000 0x500000) ||
    (c.carries 9 && within o 0x500000 0x580000) ||
    (c.carries 10 && within o 0x080000 0x100000))

/-- A pipe in OFF whose ring is discarded (R137). -/
def pipeOffData (x : Pipe) : Pipe := { rewindPipe x with st := .off, wline := x.next, pre := [] }

/-- The units behind those registers: what they hold beside the registers starts afresh (R71, R75, R546), and a pipe whose port's generation changes goes to OFF (R137); cascade links stay. Position
channels follow once the image is in force (R322). -/
def Commit.units (c : Commit) (s : State) : State :=
  let pick {α : Type} (b : Bool) (x y : α) : α := if b then x else y
  let s1 := forEach (List.range 16) (fun p s =>
    { s with dot := vmod s.dot p (fun x => pick (c.pipe p) Pipe.reset (pick (c.port (portOf c.new p)) (pipeOffData x) x)), gen := vmod s.gen p (fun x => pick (c.gen p) Gen.reset x),
             thm := vmod s.thm p (fun x => pick (c.port p) Thm.reset x), nhl := vmod s.nhl p (fun x => pick (c.port p) Nhl.reset x) }) s
  let s2 := if c.common then { s1 with ss := Ss.reset, scn := Scn.reset, hostresAt := none } else s1
  let s4 := if c.carries 8 then
      { s2 with stp := s2.stp.map (fun x => { Axis.reset with lima := x.lima, limb := x.limb, home := x.home }) }
    else s2
  let s5 := if c.carries 9 then
      { forEach (List.range 4) (fun n s => putGates n (Vector.replicate 3 Gates.off) s) s4 with mot := Vector.replicate 4 Motor.reset }
    else s4
  if c.carries 10 then
    { s5 with cas := { s5.cas with disc := false, position := 0, length := 1, transport := 0xFF, dans := [], redisc := false, sent := [],
                                   ts := none, bells := [], tick := none, posRun := 0, ready := 0, timeHalt := false, memberHalt := 0, sev := 0, code := 0 } }
  else s5

/-- The INVAR entries are loaded, each as a pair (R54, R70). -/
def Commit.invar (c : Commit) (s : State) : State :=
  match c.recs.find? (fun r => r.type = 12) with
  | some r => (invarEntries r.value).foldl (fun s e => putInvar e.2.1 (BitVec.ofNat 32 e.2.2.1) s) s
  | none => s

/-- A head port after the commit: an unbound one trains no more; a changed one goes down until LINK_TRAIN (R18, R73). -/
def Commit.link (c : Commit) (p : Nat) (s : State) : State :=
  let bound := (List.range 16).any (fun d => portOf c.new d = p)
  if bound && !c.port p then s
  else
    let s1 := if active s p then portDown p s else s
    modHlp p (fun h => { h.fresh with lstate := if bound then .down else .unbound, bst := if bound then .pending else .unbound,
                                      attempts := 0, inSeries := false, hotTry := false, lostHalt := false }) s1

/-- Rings in a bank that leaves ON lose their enable (R498). -/
def ringsOff (b : Nat) (s : State) : State :=
  let s1 := if evInSram s && meetsBank b (evRing s).1 (evRing s).2 then setF R.HST_EVCFG 0 0 0 s else s
  forEach (those 32 (fun q => cqInSram s1 q && meetsBank b (cqRing s1 q).1 (cqRing s1 q).2)) (fun q s => setF (R.DMA_CQn_CFG q) 0 0 0 s) s1

/-- Bank states follow MEMORY; the banks that leave OFF are to be tested (R73, R75, R495). -/
def Commit.banks (c : Commit) (s : State) : State :=
  if c.carries 4 then
    let want (b : Nat) : Nat := fieldAt (c.new.sec 4) b 1
    let now (s : State) (b : Nat) : Nat := if bkBusy s b then vat s.mem.target b else bkState s b
    let test := maskOf 8 (fun b => now s b = 2 && want b ≠ 2)
    let s1 := forEach (those 8 (fun b => now s b ≠ want b)) (fun b s => bankMove b (want b) (if want b = 0 then s else ringsOff b s)) s
    { s1 with ldr := { s1.ldr with testBanks := BitVec.ofNat 8 test } }
  else { s with ldr := { s.ldr with testBanks := 0 } }

/-- Pins that the image parks at a level (R566). -/
def Commit.pins (c : Commit) (s : State) : State :=
  if c.carries 11 then
    let v := c.new.sec 11
    forEach (those (fieldAt v 0 2) (fun i => fieldAt v (6 + 4 * i) 1 = 4)) (fun i s =>
      emit (.pin "PINS" (fieldAt v (4 + 4 * i) 2) (fieldAt v (7 + 4 * i) 1 % 2)) s) s
  else s

/-- IMG_HASH0 to IMG_HASH7 take the effective hash (R72). -/
def putHash (h : List Byte) (s : State) : State :=
  forEach (List.range 8) (fun k s => wr (R.IMG_HASH k) (BitVec.ofNat 32 (fieldAt h (4 * k) 4)) s) s

/-- The encoding of IMG_STAT.source. -/
def ImgSource.code : ImgSource → Nat
  | .slotA => 1
  | .slotB => 2
  | .push => 3

/-- DOT_PIPE_STATE and FIR_LT_STATE for every pipe and generator whose state the commit changed from what it was in `before`
(R137, R175). -/
def bindingEvents (before s : State) : State :=
  forEach (List.range 16) (fun i s =>
    let s1 := if pipeCode before i = pipeCode s i then s
      else logEvent Ev.DOT_PIPE_STATE i i (pipeCode before i) (pipeCode s i) s
    if genCode before i = genCode s1 i then s1
    else logEvent Ev.FIR_LT_STATE i i (genCode before i) (genCode s1 i) s1) s

/-- The image reset has changed a slot or a settle time of `s0`: the check of R157. -/
def slotsChanged (s0 s : State) : State :=
  if (List.range 16).all (fun p => slotOf s p = slotOf s0 p && settleOf s p = settleOf s0 p) then s else pulseCheck s

/-- The INVAR entries have changed gate masks or enables of `s0`: gating inputs that stand act on what they newly let through (R167, R170). -/
def gatesChanged (s0 s : State) : State :=
  [R.FIR_HOPENMAP01, R.FIR_HOPENMAP23, R.FIR_GATEEN].foldl (fun s o => invarChanged o (rd s0 o) s) s

/-- The commit: the image reset, the image's values, generations, banks and links, and SELFTEST (R69 to R75). -/
def commit (c : Commit) (s : State) : State :=
  let ports := maskOf 16 (fun h => c.port h && (List.range 16).any (fun d => portOf c.new d = h))
  let s1 := forEach (List.range 16) (fun p s => if c.port p then bumpGen p s else s) s
  let s2 := c.units (forEach (List.range 16) c.link (resetWords c.scope sincePorst s1))
  let s3 := c.banks (c.invar s2)
  let s4 := c.pins (putHash c.new.effHash { s3 with ldr := { s3.ldr with
    image := some c.new, phase := .none, staged := [], trainPorts := BitVec.ofNat 16 ports, trainXmc := c.carries 5,
    runDisc := c.carries 10 } })
  let s5 := bindingEvents s (logEvent Ev.IMG_LOADED 0xFF (fieldAt c.new.effHash 0 4) c.new.source.code (b2n c.new.amended)
    (if c.carries 7 then pcCommit s4 else s4))
  gatesChanged s2 (enterSelftest (slotsChanged s { s5 with ldr := { s5.ldr with reload := false } }))

/-! ## Load failures (R64, R68) -/

/-- IMG_ERR, IMG_ERRARG and the event of a failed load (R68, R78). -/
def imgError (f : ImgFail) (s : State) : State :=
  let n := satInc 8 (fld s R.IMG_ERR 31 24)
  let s1 := wr R.IMG_ERRARG (BitVec.ofNat 32 f.arg) (wr R.IMG_ERR (BitVec.ofNat 32 (f.kind.code.toNat + 65536 * (f.sect % 256) + 2 ^ 24 * n)) s)
  let inst := if f.kind = Ev.IMG_CONSTRAINT then f.a1 else if f.kind = Ev.IMG_SCHED_PROOF then f.a0 else 0xFF
  logEvent f.kind inst f.a0 f.a1 f.a2 s1

/-- The BOOT strap as sampled (R62). -/
def bootMode (s : State) : Nat := fld s R.GLB_RSTCAUSE 3 2

/-- What follows a failed source: slot B after slot A; after slot B in mode 0b11, at a start, a host push; else FAILED (R64). -/
def nextSource (code : Nat) (s : State) : State :=
  let set (p : LoadPhase) (src : ImgSource) (s : State) : State := { s with ldr := { s.ldr with phase := p, source := src, staged := [] } }
  match s.ldr.source with
  | .slotA => logEvent Ev.IMG_SLOT_FALLBACK 0xFF code 0 0 (set .reading .slotB s)
  | .slotB => if !s.ldr.reload && bootMode s = 3 then set .waitPush .push s else set .failed .slotB s
  | .push => set .failed .push s

/-- A source is done: its image is checked and committed, or the load fails (R68, R69). -/
def checkAndCommit (b : List Byte) (rcvd : Option Nat) (ovf : Nat) (s : State) : State :=
  match checkImage s b rcvd ovf s.ldr.source with
  | .ok i => commit ⟨s.ldr.image, i, sectionsOf b, !i.amended⟩ s
  | .error f => nextSource f.kind.code.toNat (imgError f s)

/-- The loader reads a flash slot now (R28, R63). -/
def readingFlash (s : State) : Bool :=
  s.glb.state = .imageLoad && s.ldr.phase = .reading && s.glb.locked && (s.ldr.source = .slotA || s.ldr.source = .slotB)

/-- The flash address of the slot being read (R63). -/
def slotBase (s : State) : Nat := if s.ldr.source = .slotB then 0x100000 else 0

/-- FLASH_READ_DONE (R68): the flash has returned the bytes of the slot. -/
def execFlashReadDone (bytes : List Byte) (s : State) : Host.Outcome State Fault Refusal :=
  finish (if readingFlash s then checkAndCommit bytes none 0 s else s)

/-- A source failure: IMG_SOURCE_FAIL with its address and reason (R64, R578). -/
def sourceFail (addr reason : Nat) (s : State) : State :=
  nextSource Ev.IMG_SOURCE_FAIL.code.toNat
    (imgError ⟨Ev.IMG_SOURCE_FAIL, s.ldr.source.code, addr, reason, 0, addr - slotBase s⟩ s)

/-- SFDP_TIMEOUT (R578): no signature within 1 ms. -/
def execSfdpTimeout (s : State) : Host.Outcome State Fault Refusal :=
  finish (if readingFlash s then sourceFail (slotBase s) 1 s else s)

/-- The flash is read in 8D-8D-8D: at a start by the BOOT strap, in a load begun by RELOAD by CLOCKS of the image in force (R62, R63; log
52). -/
def flash8d (s : State) : Bool := if s.ldr.reload then imgF s 3 4 1 0 = 1 else bootMode s % 2 = 1

/-- FLASH_STROBE_TIMEOUT (R578): the data strobe stays still for 10 µs; in 8D-8D-8D only. -/
def execFlashStrobeTimeout (addr : Word) (s : State) : Host.Outcome State Fault Refusal :=
  finish (if readingFlash s ∧ flash8d s then sourceFail addr.toNat 2 s else s)

/-! ## Loader commands (R61, R67, R76, R77) -/

/-- The encoding of IMG_STAT.phase. -/
def LoadPhase.code : LoadPhase → Nat
  | .none => 0
  | .reading => 1
  | .waitPush => 2
  | .pushing => 3
  | .checking => 4
  | .commit => 5
  | .failed => 6

/-- REVERT would return to IDLE (R76). -/
def revertOk (s : State) : Bool := s.glb.state = .imageLoad && s.ldr.reload

/-- IMG_CMD_STATUS of an evaluated command; a refusal raises IMG_CMD_REJECT. -/
def imgResult (cmd res st ph : Nat) (s : State) : State :=
  let s1 := wr R.IMG_CMD_STATUS (BitVec.ofNat 32 (res + 16 * st + 256 * cmd + 4096 * ph)) s
  if res = 1 then s1 else logEvent Ev.IMG_CMD_REJECT 0xFF cmd st ph s1

/-- PUSH_BEGIN: PUSHING, the count cleared. -/
def pushBegin (s : State) : State :=
  loadBegins (wr R.IMG_PUSHCNT 0 { s with ldr := { s.ldr with phase := .pushing, source := .push, staged := [] } })

/-- PUSH_END: the pushed image is checked (R67, R68); a stopped loader waits in CHECKING for lock to return (R28; log 53). -/
def pushEnd (s : State) : State :=
  if s.glb.loadStopped then { s with ldr := { s.ldr with phase := .checking } }
  else checkAndCommit s.ldr.staged (some s.ldr.staged.length) (fld s R.IMG_PUSHCNT 31 21) s

/-- RETRY_FLASH, and the flash load of RELOAD: slot B only when IMG_CTL.src is 1, else slot A then B (R77). -/
def readFlash (s : State) : State :=
  loadBegins { s with ldr := { s.ldr with phase := .reading, source := if fld s R.IMG_CTL 5 4 = 1 then .slotB else .slotA, staged := [] } }

/-- REVERT: the image in force stays and the staged one is discarded (R76). -/
def revert (s : State) : State :=
  goto .idle 0 (logEvent Ev.IMG_REVERTED 0xFF (fieldAt (effHash s) 0 4) 0 0
    { s with ldr := { s.ldr with phase := .none, reload := false, staged := [] } })

/-- SVN_COMMIT: the OTP security version rises to the svn of the image in force; it never falls (R61). -/
def svnCommit (s : State) : State :=
  let svn := match s.ldr.image with
    | some i => i.svn
    | none => 0
  let new := max s.ldr.otpSvn svn
  logEvent Ev.IMG_SVN_COMMITTED 0xFF s.ldr.otpSvn new 0 { s with ldr := { s.ldr with otpSvn := new } }

/-- The result of a loader command: 1 ACCEPTED, 2 STATE_REJECT, 3 INVALID. -/
def imgTable (s : State) (cmd : Nat) : Nat :=
  let loading := s.glb.state = .imageLoad
  let waits := s.ldr.phase = .waitPush || s.ldr.phase = .failed
  let pushing := s.ldr.phase = .pushing
  if 5 < cmd then 3
  else if cmd = 1 then (if loading ∧ (waits || pushing) then 1 else 2)
  else if cmd = 2 then (if loading ∧ pushing then 1 else 2)
  else if cmd = 3 then (if loading ∧ waits then 1 else 2)
  else if cmd = 4 then (if loading ∧ (waits || pushing) ∧ s.ldr.reload then 1 else 2)
  else (if s.glb.state = .idle then 1 else 2)

/-- A write of IMG_CTL: src first, then the command; with cmd 0 src only (R77). -/
def imgCtl (cmd src : Nat) (s0 : State) : State :=
  if s0.glb.state = .off then s0
  else
    let s := setF R.IMG_CTL 5 4 src s0
    if cmd = 0 then s
    else
      let r := imgTable s cmd
      let s1 := imgResult cmd r (gnum s) s.ldr.phase.code s
      if r ≠ 1 then s1
      else if cmd = 1 then pushBegin s1
      else if cmd = 2 then pushEnd s1
      else if cmd = 3 then readFlash s1
      else if cmd = 4 then revert s1
      else svnCommit s1

/-- PUSH_BEGIN (R77). -/
def execPushBegin (src : BitVec 2) (s : State) : Host.Outcome State Fault Refusal := finish (imgCtl 1 src.toNat s)

/-- PUSH_END (R77). -/
def execPushEnd (src : BitVec 2) (s : State) : Host.Outcome State Fault Refusal := finish (imgCtl 2 src.toNat s)

/-- RETRY_FLASH (R77). -/
def execRetryFlash (src : BitVec 2) (s : State) : Host.Outcome State Fault Refusal := finish (imgCtl 3 src.toNat s)

/-- REVERT (R76). -/
def execRevert (src : BitVec 2) (s : State) : Host.Outcome State Fault Refusal := finish (imgCtl 4 src.toNat s)

/-- SVN_COMMIT (R61). -/
def execSvnCommit (src : BitVec 2) (s : State) : Host.Outcome State Fault Refusal := finish (imgCtl 5 src.toNat s)

/-- IMG_SRC_WRITE (R77): a write of IMG_CTL with cmd 0. -/
def execImgSrcWrite (src : BitVec 2) (s : State) : Host.Outcome State Fault Refusal :=
  finish (viaBar0 R.IMG_CTL (imgCtl 0 src.toNat) s)

/-- A write of IMG_DATA: in PUSHING four image bytes are appended, or counted beyond 1 MB (R67); a stopped loader takes none (R28). -/
def imgData (v : Word) (s : State) : State :=
  if s.glb.state ≠ .imageLoad ∨ s.ldr.phase ≠ .pushing ∨ s.glb.loadStopped then s
  else if s.ldr.staged.length < 1048576 then
    setF R.IMG_PUSHCNT 20 0 (s.ldr.staged.length + 4) { s with ldr := { s.ldr with staged := s.ldr.staged ++ leBytes 4 v.toNat } }
  else incF R.IMG_PUSHCNT 31 21 s

/-- IMG_DATA_WRITE (R67). -/
def execImgDataWrite (data : Word) (s : State) : Host.Outcome State Fault Refusal := finish (viaBar0 R.IMG_DATA (imgData data) s)

/-! ## RELOAD (R71) -/

/-- RELOAD in IDLE: IMAGE_LOAD is entered; motion comes to rest and DMA pauses; IMG_CTL.src chooses the source (R71). -/
def reload (s : State) : State :=
  let s1 := dmaPauseAll 5 (moReload (axReload (goto .imageLoad 0 s)))
  let s2 := { s1 with ldr := { s1.ldr with reload := true, cold := false } }
  if fld s2 R.IMG_CTL 5 4 = 2 then { s2 with ldr := { s2.ldr with phase := .waitPush, source := .push, staged := [] } } else readFlash s2

/-- RELOAD (R40). -/
def glbReload (s : State) : Nat × State := if s.glb.state = .idle then (1, reload s) else (2, s)

/-- GLB_RELOAD (R71). -/
def execGlbReload (s : State) : Host.Outcome State Fault Refusal := finish (glbRun 6 glbReload s)

end Sys2Proof.Machine
end

