-- ==== Sys2Proof/Machine/Resets.lean ====
section
/-!
DEFINITION. Power, the reset inputs, and the root clock (spec/03_bring_up.md R80 to R84, R101; spec/01_architecture.md R28, R35;
spec/18_register_map.md R546, R547; spec/19_electrical.md R554 to R559).
-/
namespace Sys2Proof.Machine

/-! ## What a reset keeps -/

/-- The levels that stand on the input pins, which no reset changes: straps, reset pins, gating inputs, encoder and limit inputs. -/
def pinLevels (s : State) (t : State) : State :=
  { t with glb := { t.glb with casPin := s.glb.casPin, porst := s.glb.porst, warmrst := s.glb.warmrst, perst := s.glb.perst },
           gate := { t.gate with kill := s.gate.kill, hopen := s.gate.hopen, mediaOut := s.gate.mediaOut, jam := s.gate.jam,
                                 enExt := s.gate.enExt },
           enc := s.enc, stp := s.stp.map (fun x => { Axis.reset with lima := x.lima, limb := x.limb, home := x.home }) }

/-- Every reset of the device stops what it drives: HPn_EN low, the motor gates off, the encoder outputs low (R81, R163, R340, R567); the
stepper bridges and the Romor lanes fall silent with the state of their units. -/
def pinsOff (s : State) : State :=
  let s1 := forEach (List.range 4) (fun n s => putGates n (Vector.replicate 3 Gates.off) s) (forEach (List.range 16) (fun p s => driveEn p false s) s)
  forEach (List.range 4) (fun e s => let x := vat s.ee e
    eePin e "EEn_Z" x.z false (eePin e "EEn_B" x.b false (eePin e "EEn_A" x.a false s))) s1

/-- The record in programming when power or PORST_N interrupts it: its content is open, its check fails (R80, R84; log 5). -/
def jTear (s : State) : State :=
  match s.jrn.busy with
  | some _ =>
    let r := (List.range 8).foldl (fun (acc : List Byte × State) _ => let d := drawFree acc.2; (acc.1 ++ leBytes 8 d.1.toNat, d.2)) ([], s)
    let body := slice r.1 0 56
    let b := body ++ leBytes 4 (crc32c body).toNat ++ leBytes 4 (crc32c body).toNat
    { r.2 with jrn := { r.2.jrn with records := Sparse.set [] r.2.jrn.records r.2.jrn.next b, busy := none } }
  | none => s

/-- What survives every reset: the waiting commands, the journal's records with the place of the next, the OTP array, the output
record, and the model's counter (R80). -/
def nonVolatile (s : State) (t : State) : State :=
  { t with pending := s.pending, out := s.out, freeCtr := s.freeCtr,
           jrn := { t.jrn with records := s.jrn.records, next := s.jrn.next, jseq := s.jrn.jseq },
           ldr := { t.ldr with otpSvn := s.ldr.otpSvn, otpKey := s.ldr.otpKey, keyLock := s.ldr.keyLock } }

/-! ## PORST_N and power -/

/-- The state that PORST_N leaves: RESET, and everything but the levels of pins and what is non-volatile at its reset value. -/
def porst (s0 : State) : State :=
  let s := pinsOff (jTear (driveAvs 36 s0))
  let t := pinLevels s (nonVolatile s State.reset)
  { t with glb := { t.glb with porst := true } }

/-- PORST_ASSERT (R80, R82): a low pulse shorter than 100 ns is ignored. -/
def execPorstAssert (widthNs : Nat) (s : State) : Host.Outcome State Fault Refusal :=
  finish (if widthNs < 100 then s
    else if s.glb.state = .off then { s with glb := { s.glb with porst := true } }
    else porst s)

/-- POWER_LOSS (R34, R84): OFF; a journal record in progress is interrupted. -/
def execPowerLoss (s : State) : Host.Outcome State Fault Refusal :=
  finish (if s.glb.state = .off then s
    else
      let t := porst s
      { t with glb := { t.glb with state := .off, locked := false } })

/-- POWER_ON (R35, R554): the rails rise; the device leaves OFF for RESET, PORST_N asserted. -/
def execPowerOn (s : State) : Host.Outcome State Fault Refusal :=
  finish (if s.glb.state = .off then { s with glb := { s.glb with state := .reset, porst := true } } else s)

/-! ## WARMRST_N -/

/-- The registers that WARMRST_N resets: all but the HST registers, of which HST_INVCTL alone; GLB_RSTCAUSE in its own way (R546). -/
def warmScope (o : Nat) : Bool := (!within o 0x020000 0x040000 || o = R.HST_INVCTL) && o ≠ R.GLB_RSTCAUSE

/-- GLB_RSTCAUSE after WARMRST_N: por 0, warm 1, one more warm reset; boot and cas_mstr stay as sampled, perst restarts (R546). -/
def warmCause (s : State) : Word :=
  let w := rd s R.GLB_RSTCAUSE
  putBits (putBits (putBits (putBits w 0 0 0) 1 1 1) 5 5 0) 31 16 (satInc 16 (bits w 31 16))

/-- The state that WARMRST_N leaves (R80, R527, R546, R547): a record in programming completes first; the host interface keeps its
registers, its link and its queue; an event ring in the SRAM is disabled; the root VCO keeps its lock and bell time runs on. -/
def warmrst (s0 : State) : State :=
  let s := resetWords warmScope sincePorst (pinsOff (jFinish s0))
  let s1 := wr R.GLB_RSTCAUSE (warmCause s) s
  let s2 := if evInSram s1 then setF R.HST_EVCFG 0 0 0 s1 else s1
  let t := pinLevels s2 (nonVolatile s2 State.reset)
  { t with now := s2.now, regs := s2.regs, hst := { s2.hst with occ := [], mismatched := [] },
           glb := { t.glb with porst := s2.glb.porst, warmrst := true, locked := s2.glb.locked, refsel := s2.glb.refsel,
                               casSampled := s2.glb.casSampled, avs := s2.glb.avs, avsAt := s2.glb.avsAt },
           jrn := { t.jrn with records := s2.jrn.records, next := s2.jrn.next, jseq := s2.jrn.jseq } }

/-- WARMRST_ASSERT (R80, R81, R82). -/
def execWarmrstAssert (widthNs : Nat) (s : State) : Host.Outcome State Fault Refusal :=
  finish (if widthNs < 100 then s
    else if s.glb.state = .off ∨ s.glb.porst then { s with glb := { s.glb with warmrst := true } }
    else warmrst s)

/-! ## RESET to IMAGE_LOAD -/

/-- The load at a start begins from the source of the strap (R62, R64). -/
def startLoad (s : State) : State :=
  let m := bootMode s
  if m = 2 then { s with ldr := { s.ldr with phase := .waitPush, source := .push, staged := [], reload := false, cold := true } }
  else loadBegins { s with ldr := { s.ldr with phase := .reading, source := .slotA, staged := [], reload := false, cold := true } }

/-- RESET ends when both resets are released and the root VCO is locked: IMAGE_LOAD; CAS_MSTR is sampled once (R35, R83); a gating source
that stands acts (R167, R168). -/
def leaveReset (s : State) : State :=
  if s.glb.state = .reset ∧ !s.glb.porst ∧ !s.glb.warmrst ∧ s.glb.locked then
    let s1 := if s.glb.casSampled then s
      else setF R.GLB_RSTCAUSE 4 4 (b2n s.glb.casPin) { s with glb := { s.glb with casSampled := true } }
    refreshAll (gatesAct (startLoad (goto .imageLoad 0 s1)))
  else s

/-- PORST_RELEASE (R83, R559): BOOT and REFSEL are sampled; `casMstr`: the level of that strap, sampled at the entry to IMAGE_LOAD. -/
def execPorstRelease (boot : BitVec 2) (casMstr refsel : Bool) (s : State) : Host.Outcome State Fault Refusal :=
  finish (if !s.glb.porst then s
    else if s.glb.state = .off then { s with glb := { s.glb with porst := false } }
    else leaveReset (setF R.GLB_RSTCAUSE 3 2 boot.toNat
      { s with glb := { s.glb with porst := false, refsel := refsel, casPin := casMstr, released := s.now } }))

/-- WARMRST_RELEASE (R35). -/
def execWarmrstRelease (s : State) : Host.Outcome State Fault Refusal :=
  finish (if s.glb.warmrst then leaveReset { s with glb := { s.glb with warmrst := false, released := s.now } } else s)

/-- ROOT_VCO_LOCK (R35, R430): the root VCO locks in RESET; bell time counts from 0. -/
def execRootVcoLock (s : State) : Host.Outcome State Fault Refusal :=
  finish (if s.glb.state ≠ .reset ∨ s.glb.locked then s
    else leaveReset { s with now := 0, glb := { s.glb with locked := true, released := s.glb.released - s.now } })

/-! ## Loss and return of lock (R28) -/

/-- A loss of lock in IMAGE_LOAD stops the loader (R28). -/
def stopLoader (s : State) : State := { s with glb := { s.glb with loadStopped := true } }

/-- The loader restarts when lock returns: a staged image is discarded, a load by host push returns to WAIT_PUSH, a slot is read again
from its first byte (R28). -/
def restartLoader (s : State) : State :=
  let p := if s.ldr.phase = .pushing || s.ldr.phase = .checking then .waitPush else s.ldr.phase
  if s.glb.loadStopped then { s with glb := { s.glb with loadStopped := false }, ldr := { s.ldr with phase := p, staged := [] } } else s

/-- CLOCK_UNLOCK (R28, R42): a loss of root lock has lasted 1 µs; its duration so far in cycles of REFCLK. In SAFE_HOLD and SHUTDOWN each
port is inhibited anew, at the end of a slot in progress (R167). -/
def execClockUnlock (refCycles : Nat) (s : State) : Host.Outcome State Fault Refusal :=
  finish (if !s.glb.locked ∨ s.glb.state = .off then s
    else
      let s1 := { s with glb := { s.glb with locked := false } }
      if s.glb.state = .reset then s1
      else
        let s2 := raise Ev.GLB_CLOCK_UNLOCK 0xFF (min refCycles 0xFFFFFFFF) (gnum s) 0 { s1 with glb := { s1.glb with lossRaised := true } }
        if s.glb.state = .imageLoad then stopLoader s2
        else if s.glb.state = .safeHold ∨ s.glb.state = .shutdown then forEach (those 16 (fun p => !(hp s2 p).killDue)) holdPort s2
        else s2)

/-- CLOCK_RELOCK (R28, R42): lock is back; an interrupted load starts again from its first byte. -/
def execClockRelock (refCycles : Nat) (s : State) : Host.Outcome State Fault Refusal :=
  finish (if s.glb.locked ∨ s.glb.state = .off then s
    else
      let s1 := restartLoader { s with glb := { s.glb with locked := true, lossRaised := false } }
      if s.glb.lossRaised then leaveReset (logEvent Ev.GLB_CLOCK_RELOCK 0xFF (min refCycles 0xFFFFFFFF) (gnum s) 0 s1)
      else leaveReset s1)

/-! ## PCIE_PERST_N -/

/-- The registers that PCIE_PERST_N resets (R546). -/
def perstScope (o : Nat) : Bool :=
  within o 0x020000 0x040000 && !(o = R.HST_EVSEQ || o = R.HST_EVDROP || o = R.HST_INVREJ || o = R.HST_LANSEQ || o = R.HST_INVCTL)

/-- PCIE_PERST_ASSERT (R80, R101, R528, R546): the PCIe side resets; outside RESET the DMA channels pause, the ring is suspended and
BRU_PCIE_RESET is raised. -/
def execPciePerstAssert (s : State) : Host.Outcome State Fault Refusal :=
  finish (if s.glb.state = .off ∨ s.glb.perst then { s with glb := { s.glb with perst := true } }
    else
      let s1 := resetWords perstScope (fun _ => 0) s
      let s2 := setF R.GLB_RSTCAUSE 5 5 1 { s1 with
        glb := { s1.glb with perst := true },
        hst := { s1.hst with linkSpeed := 0, linkWidth := 0, cfgReady := false, bme := false, l1 := false, msixMask := false, maxRead := 512, extTag := false,
                             lanBusy := none, lanPending := false, suspended := true, sinceVec := 0, lastAer := none } }
      if s.glb.state = .reset then s2
      else logEvent Ev.BRU_PCIE_RESET 0xFF (gnum s) 0 0 (dmaPauseAll 4 s2))

end Sys2Proof.Machine
end

