-- ==== Sys2Proof/Machine/Views.lean ====
section
/-!
DEFINITION. What a read of each register returns: the words that report an engine's state are composed from it, all others are held
(the register tables of every chapter; R541, R544, R545).
-/
namespace Sys2Proof.Machine

/-- A word from its fields, each given as the place of its lowest bit and its value. -/
def packW (l : List (Nat × Nat)) : Word := BitVec.ofNat 32 (l.foldl (fun n f => n + f.2 * 2 ^ f.1) 0)

/-! ## GLB, IMG, HST, NVJ, CAS -/

/-- GLB_STATE. -/
def viewState (s : State) : Word :=
  packW [(0, gnum s), (4, match s.glb.prev with
    | some g => g.code
    | none => 0), (16, s.glb.cause.toNat)]

/-- GLB_BRUSTAT (R85, R88, R105); cmd_result is held. -/
def viewBru (s : State) : Word :=
  packW [(0, (selftestAct s).code), (3, s.bru.xmc.code), (6, (portsAct s).code), (9, s.bru.cascade.code), (12, b2n s.bru.incomplete),
    (16, fld s R.GLB_BRUSTAT 17 16)]

/-- GLB_PORTSTAT0 and GLB_PORTSTAT1: the nibbles of ports 8k to 8k + 7. -/
def viewPorts (s : State) (k : Nat) : Word := packW ((List.range 8).map (fun i => (4 * i, (hp s (8 * k + i)).bst.code)))

/-- IMG_STAT. -/
def viewImg (s : State) : Word :=
  packW [(0, s.ldr.phase.code), (3, match s.ldr.image with
    | some i => i.source.code
    | none => 0), (5, match s.ldr.image with
    | some i => b2n i.amended
    | none => 0), (6, b2n (!s.ldr.otpKey.all (fun x => x = 0))), (7, b2n (revertOk s)), (8, s.ldr.otpSvn), (16, match s.ldr.image with
    | some i => i.svn
    | none => 0)]

/-- HST_EVSTAT: disabled, running, suspended or full; events in the queue (R527, R528). -/
def viewEv (s : State) : Word :=
  packW [(0, if fld s R.HST_EVCFG 0 0 = 0 then 0 else if !evRunning s then 2 else if !evRoom s then 3 else 1), (2, s.hst.queue.length)]

/-- HST_OCCVAL: count, present flag, and whether the selection is a W1C flag (R522). -/
def viewOcc (s : State) : Word :=
  let o := occSelOff s
  let b := occSelBit s
  if isW1c o b then packW [(0, occ s o b), (16, fld s o b b), (17, 1)] else 0

/-- HST_LANSTAT, HST_LINK. -/
def viewLan (s : State) : Word := packW [(0, b2n s.hst.lanBusy.isSome), (1, b2n s.hst.lanPending)]
def viewLink (s : State) : Word :=
  packW [(0, s.hst.linkSpeed.toNat), (4, s.hst.linkWidth.toNat), (10, b2n s.hst.bme), (11, b2n s.hst.l1)]

/-- A journal record as programmed (R260). -/
def jRecordAt (s : State) (i : Nat) : List Byte := slice (Sparse.get [] s.jrn.records i) 0 64

/-- NVJ_JSTAT: from the journal scan on, the newest valid record and the count; records waiting. -/
def viewJ (s : State) : Word :=
  let scanned := s.bru.journal = .done || s.bru.journal = .skipped
  packW [(0, if scanned then s.jrn.newest else 0), (12, if scanned then (s.jrn.records.filter (fun r => jValid r.2)).length else 0),
    (24, s.jrn.queue.length)]

/-- CAS_STAT. -/
def viewCas (s : State) : Word :=
  packW [(0, casRole s), (2, s.cas.position), (5, s.cas.length), (9, s.cas.cu.st.code), (12, s.cas.cd.st.code),
    (15, b2n (chained s && decide (s.cas.transport = s.cas.position))), (16, s.cas.epoch)]

/-! ## Ports, pipes, generators -/

/-- HLP_Pn_STAT, HLP_Pn_TSYNC. -/
def viewHlp (s : State) (p : Nat) : Word :=
  let h := hp s p
  packW [(0, h.lstate.code), (4, b2n h.dlLock), (5, b2n h.ulLock), (6, b2n h.killed), (8, h.attempts), (16, h.gen.toNat)]
def viewTsync (s : State) (p : Nat) : Word :=
  let h := hp s p
  packW [(0, h.delta % 65536), (16, narrow 8 (satS 8 h.theta)), (24, h.eq % 16), (28, h.corr % 16)]

/-- HLP_Pn_IDENT`k`; 0 unless the port is ACTIVE. -/
def viewIdent (s : State) (p k : Nat) : Word :=
  let h := hp s p
  if !active s p then 0
  else
    match k with
    | 0 => packW [(0, h.f 6 2), (16, h.f 8 2)]
    | 1 => packW [(0, h.f 0xA 1), (8, h.rows), (12, h.rails), (16, h.cols)]
    | n + 2 => BitVec.ofNat 32 (h.f (0xC + 4 * n) 4)

/-- DOT_Pn_STAT. -/
def viewDot (s : State) (d : Nat) : Word :=
  packW [(0, pipeCode s d), (8, b2n (dp s d).low), (16, if pipeBound s d then (hp s (pipePort s d)).gen.toNat else 0)]

/-- FIR_GATESTAT; in RESET en_low holds its reset value (R5). -/
def viewGate (s : State) : Word :=
  let g := s.gate
  packW [(0, b2n g.kill), (1, g.hopen.toNat), (5, b2n g.mediaOut), (6, g.jam.toNat),
    (16, if s.glb.state = .reset then 0 else (~~~g.enRel ||| g.enExt).toNat)]

/-- FIR_LTn_CTL (its mode bits), FIR_LTn_STAT. -/
def viewLtCtl (s : State) (g : Nat) : Word := packW [(0, if ltBound s g then genMode s g else 0), (2, fld s (R.FIR_LTn_CTL g) 2 2)]
def viewLt (s : State) (g : Nat) : Word :=
  packW [(0, genCode s g), (3, b2n (ltSource s g < 16 && speedOk s g)), (4, b2n (lt s g).fallback)]

/-! ## THM, NHL, SCN -/

/-- THM_DIESTAT, THM_LWAIT, THM_LCLASSn. -/
def viewDie (s : State) : Word := packW [(0, narrow 16 (dieTemp s)), (16, narrow 16 (satS 16 s.thmg.dieRate))]
def viewWait (s : State) : Word :=
  packW [(0, min 255 s.thmg.waiting.length), (8, match ledgerFirst s with
    | some r => r.cls
    | none => 0xFF)]
def viewClass (s : State) (c : Nat) : Word :=
  if c < 6 then BitVec.ofNat 32 ((s.thmg.grants.filter (fun r => r.cls = c)).foldl (fun n r => n + r.mw) 0) else 0

/-- THM_Pn_STAT, THM_Pn_STAT2 (zfault is held). -/
def viewThm (s : State) (p : Nat) : Word := packW [(0, narrow 16 (th s p).tzmax), (16, narrow 16 (tj16 s p))]
def viewThm2 (s : State) (p : Nat) : Word :=
  packW [(0, narrow 16 (satS 16 (th s p).rate)), (16, fld s (R.THM_Pn_STAT2 p) 31 16)]

/-- Word `j` of the thermal-state entry of primitive `q` of port `p`; 0 beyond the head's primitives and on a port that is not ACTIVE
(R544, R545). -/
def viewPrim (s : State) (p q j : Nat) : Word :=
  if !active s p || decide ((hp s p).nprim ≤ q) then 0
  else
    match (th s p).prims[q]? with
    | none => 0
    | some x =>
      match j with
      | 0 => toWord x.tj
      | 1 => toWord x.tb
      | 2 => toWord x.corr
      | _ => packW [(0, narrow 6 x.trim), (6, b2n x.warm), (7, b2n x.wreq)]

/-- NHL_Pn_SCANPOS, NHL_Pn_STAT. -/
def viewScanPos (s : State) (p : Nat) : Word :=
  let x := nh s p
  packW [(0, x.nozzle % 4096), (12, x.row % 8), (15, b2n x.suspended), (16, b2n x.pendScan), (17, b2n x.pendSpit), (18, x.seq)]
def viewNhl (s : State) (p : Nat) : Word := packW [(0, outCount s p % 32768), (16, weakCount s p % 32768)]

/-- SCN_STAT: the open gates stand at a turnaround (R302); sweeps are held. -/
def viewScn (s : State) : Word :=
  let turn := scanning s && s.scn.st = .turn
  packW [(0, scnCode s), (3, b2n s.scn.restart), (4, b2n s.scn.err), (5, b2n (turn && !s.scn.fed)), (6, b2n (turn && !dataGate s)),
    (7, b2n (turn && !dwellGate s)), (8, s.scn.cur.entry % 256), (16, fld s R.SCN_STAT 31 16)]

/-- The pending sweep: the one set up after the present one, a restart, or before that is set up the present one (R298, R304). -/
def Scn.pending (x : Scn) : Sweep :=
  match x.restart, x.nxt with
  | false, some w => w
  | _, _ => x.cur

/-! ## POS, STP, MOT -/

/-- POS_PCn_STAT, POS_FRAC and SPEED; the snapshot of R321 once POS_INT has been read. -/
def viewPc (s : State) (n : Nat) : Word :=
  let x := pch s n
  let v := match x.snap with
    | some (_, _, v) => v
    | none => x.valid
  packW [(0, if pcUnused s n then 0 else if x.fault then 2 else 1), (2, b2n x.dir), (3, b2n v), (4, b2n x.suspect)]
def viewFrac (s : State) (n : Nat) : Word :=
  match (pch s n).snap with
  | some (f, _, _) => f
  | none => posFrac (pch s n)
def viewSpeed (s : State) (n : Nat) : Word :=
  match (pch s n).snap with
  | some (_, v, _) => toWord v
  | none => toWord (pch s n).v

/-- STP_SAn_STAT. -/
def viewStp (s : State) (n : Nat) : Word :=
  let x := ax s n
  let wait := match axClass s n with
    | some c => waits s c n
    | none => false
  packW [(0, axCode s n), (3, if x.st = .homing then x.phase else 0), (6, b2n x.strong), (7, b2n x.homed), (8, b2n wait), (9, b2n x.lima),
    (10, b2n x.limb), (11, b2n x.home)]

/-- MOT_MCn_STAT, MOT_MCn_IDQ. -/
def viewMot (s : State) (n : Nat) : Word :=
  let x := mo s n
  packW [(0, moCode s n), (4, b2n x.lock), (5, b2n (x.idref ≠ 0)), (6, b2n (waits s (moClass s n) (moInst n))), (7, b2n x.emerg), (8, b2n x.phold),
    (9, min 7 x.fails)]
def viewIdq (s : State) (n : Nat) : Word := packW [(0, narrow 16 (satS 16 (mo s n).id)), (16, narrow 16 (satS 16 (mo s n).iq))]

/-- DMA_DCn_STAT. -/
def viewDma (s : State) (n : Nat) : Word :=
  let x := dc s n
  packW [(0, x.st.code), (3, b2n x.arm), (4, b2n x.swapped), (5, x.cause % 8), (8, x.pc % 256), (16, x.wtype % 16), (24, x.status % 256)]

/-! ## All registers -/

/-- The composed word of a register of the global blocks below 0x10_0000. -/
def viewLow (s : State) (o : Nat) : Option Word :=
  if o = R.GLB_STATE then some (viewState s)
  else if o = R.GLB_THRSTAT then some (packW [(0, s.glb.div.val), (4, s.glb.skip.val), (8, thrCause s)])
  else if o = R.GLB_BRUSTAT then some (viewBru s)
  else if o = R.GLB_PORTSTAT0 then some (viewPorts s 0)
  else if o = R.GLB_PORTSTAT1 then some (viewPorts s 1)
  else if o = R.IMG_STAT then some (viewImg s)
  else if o = R.HST_EVSTAT then some (viewEv s)
  else if o = R.HST_OCCVAL then some (viewOcc s)
  else if o = R.HST_LANSTAT then some (viewLan s)
  else if o = R.HST_LINK then some (viewLink s)
  else if o = R.NVJ_JSTAT then some (viewJ s)
  else if R.NVJ_JDATA 0 ≤ o ∧ o ≤ R.NVJ_JDATA 15 then
    some (BitVec.ofNat 32 (fieldAt (jRecordAt s (fld s R.NVJ_JIDX 10 0)) (o - R.NVJ_JDATA 0) 4))
  else if o = R.CAS_STAT then some (viewCas s)
  else none

/-- The composed word of a register of the head ports, the pipes or the generators: instance and relative offset. -/
def viewPort (s : State) (o : Nat) : Option Word :=
  if o < 0x180000 then
    let p := (o - 0x100000) / 0x8000
    match (o - 0x100000) % 0x8000 with
    | 0x00 => some (viewHlp s p)
    | 0x14 => some (viewTsync s p)
    | r => if 0x20 ≤ r ∧ r ≤ 0x34 then some (viewIdent s p ((r - 0x20) / 4)) else none
  else if o < 0x181000 then none
  else if o < 0x200000 then
    let d := (o - 0x181000) / 0x100
    match (o - 0x181000) % 0x100 with
    | 0x10 => some (viewDot s d)
    | 0x14 => some (BitVec.ofNat 32 (dp s d).wline)
    | 0x1C => some (BitVec.ofNat 32 (dp s d).next)
    | _ => none
  else if o = R.FIR_GATESTAT then some (viewGate s)
  else if 0x201000 ≤ o ∧ o < 0x202000 then
    let g := (o - 0x201000) / 0x100
    match (o - 0x201000) % 0x100 with
    | 0x00 => some (viewLtCtl s g)
    | 0x1C => some (viewLt s g)
    | _ => none
  else none

/-- The composed word of a THM, NHL or SCN register; while a reset holds the unit, the reset value (R5). -/
def viewHeat (s : State) (o : Nat) : Option Word :=
  if o = R.THM_TORD then some (if s.glb.state = .reset then 0 else BitVec.ofNat 32 (tOrd s))
  else if o = R.THM_DIESTAT then some (viewDie s)
  else if o = R.THM_LAVAIL then some (if s.glb.state = .reset then 0 else toWord (avail s))
  else if o = R.THM_LWAIT then some (viewWait s)
  else if R.THM_LCLASS 0 ≤ o ∧ o ≤ R.THM_LCLASS 7 then some (viewClass s ((o - R.THM_LCLASS 0) / 4))
  else if o = R.THM_PMEAS then some (BitVec.ofNat 32 (pmeas s))
  else if 0x281000 ≤ o ∧ o < 0x282000 then
    match (o - 0x281000) % 0x100 with
    | 0x00 => some (viewThm s ((o - 0x281000) / 0x100))
    | 0x04 => some (viewThm2 s ((o - 0x281000) / 0x100))
    | _ => none
  else if 0x2C1000 ≤ o ∧ o < 0x2C2000 then
    let p := (o - 0x2C1000) / 0x100
    match (o - 0x2C1000) % 0x100 with
    | 0x24 => some (viewScanPos s p)
    | 0x28 => some (viewNhl s p)
    | 0x2C => some (BitVec.ofNat 32 (subUsed s p))
    | _ => none
  else if o = R.SCN_STAT then some (viewScn s)
  else if o = R.SCN_BNEXT then some (BitVec.ofNat 32 s.scn.pending.b)
  else none

/-- The composed word of a POS, STP, MOT or DMA register, or of the thermal-state table. -/
def viewMove (s : State) (o : Nat) : Option Word :=
  if o < 0x408000 then
    let n := (o - 0x400000) / 0x1000
    match (o - 0x400000) % 0x1000 with
    | 0x00 => some (viewPc s n)
    | 0x04 => some (BitVec.ofNat 32 (ipart (pch s n).pos))
    | 0x08 => some (viewFrac s n)
    | 0x0C => some (viewSpeed s n)
    | _ => none
  else if o < 0x480000 then none
  else if o < 0x500000 then
    let n := (o - 0x480000) / 0x1000
    match (o - 0x480000) % 0x1000 with
    | 0x00 => some (viewStp s n)
    | 0x04 => some (BitVec.ofNat 32 (axInt s n))
    | 0x08 => some (BitVec.ofNat 32 ((ax s n).prof.pos % 65536))
    | 0x0C => some (toWord (ax s n).prof.vel)
    | _ => none
  else if o < 0x580000 then
    let n := (o - 0x500000) / 0x4000
    match (o - 0x500000) % 0x4000 with
    | 0x00 => some (viewMot s n)
    | 0x04 => some (toWord (mo s n).speed)
    | 0x08 => some (viewIdq s n)
    | _ => none
  else if 0x600000 ≤ o ∧ o < 0x620000 ∧ o % 0x1000 = 0 then some (viewDma s ((o - 0x600000) / 0x1000))
  else if 0x920000 ≤ o ∧ o < 0x960000 then
    let i := (o - 0x920000) / 16
    some (viewPrim s (i / 1024) (i % 1024) (o % 16 / 4))
  else none

/-- What a read of the register or table word at BAR0 offset `o` returns; 0 where none stands (R541) and for write-only fields (R7). -/
def readReg (s : State) (o : Nat) : Word :=
  match regDesc o with
  | none => 0
  | some _ =>
    (if o < 0x100000 then viewLow s o
      else if o < 0x280000 then viewPort s o
      else if o < 0x400000 then viewHeat s o
      else viewMove s o).getD (rd s o)

end Sys2Proof.Machine
end

