-- ==== Sys2Proof/Machine/Lantern.lean ====
section
/-!
DEFINITION. The Lantern summary and the management I2C target (spec/17_host_control.md R531 to R534; spec/01_architecture.md R40, R41;
spec/16_memories.md R498).
-/
namespace Sys2Proof.Machine

/-! ## The summary (R532) -/

/-- Bytes padded with zeros, or cut, to `n`. -/
def padTo (n : Nat) (bs : List Byte) : List Byte := slice bs 0 n

/-- Copies of registers, four bytes each. -/
def regCopies (s : State) (os : List Nat) : List Byte := os.flatMap (fun o => leBytes 4 (readReg s o).toNat)

/-- Entries of `n` instances, padded to `size` bytes together. -/
def instCopies (n size : Nat) (f : Nat → List Byte) : List Byte := padTo size ((List.range n).flatMap f)

/-- Bytes 0x0000 to 0x007F: header, image hash and the global registers. -/
def lanHead (s : State) (seq : Nat) : List Byte :=
  ([0x4C, 0x4E, 0x54, 0x31] : List Byte) ++ leBytes 2 1 ++ leBytes 2 0x2000 ++ leBytes 4 seq ++ leBytes 4 (rd s R.HST_EVSEQ).toNat ++
    leBytes 8 s.now ++ leBytes 4 (rd s R.GLB_BOOTCNT).toNat ++ leBytes 1 (gnum s) ++
    leBytes 1 (match s.glb.prev with
      | some g => g.code
      | none => 0) ++ leBytes 2 s.glb.cause.toNat ++ padTo 32 (effHash s) ++
    padTo 64 (regCopies s [R.IMG_STAT, R.GLB_BRUSTAT, R.GLB_THRSTAT, R.GLB_PORTSTAT0, R.GLB_PORTSTAT1, R.FIR_GATESTAT, R.SCN_STAT,
      R.SCN_RESUME, R.DOT_SSSTAT, R.CAS_STAT, R.MEM_BKSTAT, R.XMC_STAT, R.NVJ_JSTAT, R.HST_EVSTAT, R.HST_LINK])

/-- Bytes 0x0080 to 0x04FF: pipes and generators, ports, thermal. -/
def lanPrint (s : State) : List Byte :=
  instCopies 16 512 (fun n => regCopies s [R.DOT_Pn_STAT n, R.DOT_Pn_WLINE n, R.DOT_Pn_NEXT n, R.DOT_Pn_FILL n, R.DOT_Pn_LATE n,
    R.DOT_Pn_SUBCNT n, R.FIR_LTn_STAT n, R.FIR_LTn_LASTLINE n]) ++
  instCopies 16 512 (fun n => regCopies s [R.HLP_Pn_STAT n, R.HLP_Pn_ERRCNT n, R.HLP_Pn_TSYNC n, R.THM_Pn_STAT n, R.THM_Pn_STAT2 n,
    R.THM_Pn_TELECNT n, R.FIR_Pn_TORNCNT n, R.NHL_Pn_STAT n]) ++
  padTo 128 (regCopies s ([R.THM_DIESTAT, R.THM_TORD, R.THM_LAVAIL, R.THM_PMEAS, R.THM_LWAIT] ++ (List.range 8).map R.THM_LCLASS ++
    [R.THM_LBUDGET, R.THM_PRINTRES, R.THM_SDMARGIN]))

/-- Bytes 0x0500 to 0x0AFF: DMA and the event ring. -/
def lanDma (s : State) : List Byte :=
  instCopies 32 1024 (fun n => regCopies s [R.DMA_DCn_STAT n, R.DMA_DCn_APID n, R.DMA_DCn_APTR n, R.DMA_DCn_XOFF n, R.DMA_DCn_C n 0,
    R.DMA_DCn_BYTES_LO n, R.DMA_DCn_ERRADDR_LO n, R.DMA_DCn_FLAG n]) ++
  instCopies 32 256 (fun n => regCopies s [R.DMA_CQn_TAIL n, R.DMA_CQn_HEAD n]) ++
  padTo 128 (regCopies s ((List.range 16).map R.DMA_SIGCNT ++ [R.DMA_SIGSAT])) ++
  padTo 128 (regCopies s [R.HST_EVTAIL, R.HST_EVHEAD, R.HST_EVSEQ, R.HST_EVDROP, R.HST_LANSTAT])

/-- A position channel's entry: the values at the capture, whatever the snapshot of R321 holds (DEDUCED, log 46). -/
def lanPc (s : State) (n : Nat) : List Byte :=
  let live := modPc n (fun x => { x with snap := none }) s
  regCopies live [R.POS_PCn_STAT n, R.POS_PCn_POS_INT n, R.POS_PCn_POS_FRAC n, R.POS_PCn_SPEED n] ++
    regCopies s [R.POS_PCn_FAULTCNT n, R.POS_PCn_FLAG n, R.POS_PCn_CAP_INT n, R.POS_PCn_CAP_FRAC n]

/-- Bytes 0x0B00 to 0x10FF: position, emulated encoders, motion. -/
def lanMove (s : State) : List Byte :=
  instCopies 8 256 (lanPc s) ++
  instCopies 32 512 (fun i => let n := i / 4; let m := i % 4; regCopies s [R.POS_PCn_CMPm_STAT n m, R.POS_PCn_CMPm_TGT_INT n m,
    R.POS_PCn_CMPm_SKIPCNT n m, R.POS_PCn_CMPm_FLAG n m]) ++
  instCopies 4 256 (fun n => padTo 16 (regCopies s [R.POS_EEn_OUT n, R.POS_EEn_LAG n, R.POS_EEn_FLAG n])) ++
  instCopies 8 256 (fun n => padTo 32 (regCopies s [R.STP_SAn_STAT n, R.STP_SAn_POS_INT n, R.STP_SAn_VEL n, R.STP_SAn_DEV n,
    R.STP_SAn_FLAG n, R.STP_SAn_LATCH n, R.STP_SAn_TGT n])) ++
  instCopies 4 256 (fun n => padTo 32 (regCopies s [R.MOT_MCn_STAT n, R.MOT_MCn_SPEED n, R.MOT_MCn_IDQ n, R.MOT_MCn_VREF n,
    R.MOT_MCn_FLAG n]))

/-- Bytes 0x1100 to 0x1FF7: cascade, flags, the recent events, reserved. -/
def lanTail (s : State) : List Byte :=
  padTo 128 (regCopies s ([R.CAS_TSTAT, R.CAS_HOPDLY, R.CAS_FLAG, R.CAS_CNT] ++
    (List.range 8).flatMap (fun n => [R.CAS_AGG_A n, R.CAS_AGG_B n]))) ++
  padTo 128 (regCopies s ([R.FIR_GATEFLAG, R.DOT_SSFLAG, R.MEM_FLAG, R.HST_FLAG, R.NHL_HOSTCNT, R.XMC_ECCCNT, R.MEM_MARCHSTAT,
    R.NVJ_JDROP] ++ (List.range 8).map R.MEM_BKREP)) ++
  padTo 512 ((s.hst.recent.take 16).flatMap Event.bytes) ++ padTo 3064 []

/-- The 8,192 bytes of a snapshot with a given seq: seq stands at 0x0008 and 0x1FF8, CRC-32C at 0x1FFC (R532). -/
def lanBytes (s : State) (seq : Nat) : List Byte :=
  let b := lanHead s seq ++ lanPrint s ++ lanDma s ++ lanMove s ++ lanTail s ++ leBytes 4 seq
  b ++ leBytes 4 (crc32c b).toNat

/-! ## Capture and write (R531, R498) -/

/-- A snapshot into the I2C copy only: no write, and no increment of seq (R534). -/
def lanCopy (s : State) : State := { s with hst := { s.hst with lanLast := lanBytes s s.hst.lanCount.toNat } }

/-- The address of the buffer, and whether the SRAM holds it in banks that are not all ON (R498). -/
def lanBase (s : State) : Nat := rd64 s R.HST_LANBASE_LO R.HST_LANBASE_HI
def lanAstray (s : State) : Bool := fld s R.HST_LANCFG 0 0 = 1 && !sramOn s (lanBase s) 8192

/-- A snapshot is captured and its write begins; with the buffer astray it goes to the I2C copy only, with HST_ACCESS_BAD
(R498, R531). -/
def lanCapture (s : State) : State :=
  if lanAstray s then accessBad R.HST_LANBASE_LO 8192 2 (lanCopy s)
  else
    let q := s.hst.lanCount + 1
    let b := lanBytes s q.toNat
    { s with hst := { s.hst with lanCount := q, lanLast := b, lanBusy := some (q, b) } }

/-- The LANTERN command: result and next state (R40, R531). -/
def glbLantern (s : State) : Nat × State :=
  if gnum s < 5 then (2, s)
  else if s.hst.lanBusy.isSome then (1, { s with hst := { s.hst with lanPending := true } })
  else (1, lanCapture s)

/-- GLB_LANTERN (R40, R531). -/
def execGlbLantern (s : State) : Host.Outcome State Fault Refusal := finish (glbRun 7 glbLantern s)

/-- The end of a summary's write: the buffer holds the snapshot, HST_LANSEQ takes its seq, HST_LANTERN_DONE and the vector follow,
and a pending snapshot is captured (R524, R531). Where the buffer no longer lies in banks that are ON, nothing is written and HST_LANSEQ keeps
its value, as at the capture (R498). -/
def lanDone (s : State) : State :=
  match s.hst.lanBusy with
  | none => s
  | some (q, b) =>
    let space := fld s R.HST_LANCFG 0 0
    if space = 0 ∧ !s.hst.bme then s
    else if lanAstray s then
      let s1 := accessBad R.HST_LANBASE_LO 8192 2 { s with hst := { s.hst with lanBusy := none, lanPending := false } }
      if s.hst.lanPending then lanCapture s1 else s1
    else
      let s1 := wr R.HST_LANSEQ q (postWrite space (lanBase s) b { s with hst := { s.hst with lanBusy := none } })
      let s2 := logEvent Ev.HST_LANTERN_DONE 0xFF q.toNat (s.now % 2 ^ 32) 0 s1
      let s3 := if fld s R.HST_LANCFG 1 1 = 1 then
          sendMsix ⟨fld s R.HST_LANCFG 7 2 % 64, Nat.mod_lt _ (by decide)⟩ s2
        else s2
      if s3.hst.lanPending then lanCapture { s3 with hst := { s3.hst with lanPending := false } } else s3

/-- LANTERN_WRITE_DONE (R531): the last byte of the summary has been written; nothing is written to the host while Bus Master Enable
is 0 (R513). -/
def execLanternWriteDone (s : State) : Host.Outcome State Fault Refusal := finish (lanDone s)

/-! ## The I2C view (R534) -/

/-- The live copies, one word each. -/
def i2cLive : List Nat :=
  [R.GLB_STATE, R.GLB_RSTCAUSE, R.GLB_BOOTCNT, R.THM_DIESTAT] ++ (List.range 16).map R.THM_Pn_STAT ++ [R.IMG_STAT, R.HST_EVSEQ]

/-- The unit that is latched together and holds address `a`: its base and its bytes now; outside the words and records a byte alone. -/
def i2cUnit (s : State) (a : Nat) : Nat × List Byte :=
  if a < 0x100 then
    (a - a % 4, match i2cLive[a / 4]? with
      | some o => leBytes 4 (readReg s o).toNat
      | none => List.replicate 4 0)
  else if 0x010000 ≤ a ∧ a < 0x012000 then (a, [s.hst.lanLast.getD (a - 0x010000) 0])
  else if 0x020000 ≤ a ∧ a < 0x040000 then (a - a % 64, jRecordAt s ((a - 0x020000) / 64))
  else (a, [0])

/-- I2C_POINTER_WRITE (R534): three bytes set the pointer, most significant first. -/
def execI2cPointerWrite (high mid low : Byte) (s : State) : Host.Outcome State Fault Refusal :=
  finish (if s.glb.state = .off then s
    else { s with hst := { s.hst with i2cPtr := beNat [high, mid, low] } })

/-- A read of the byte at the pointer: a unit is latched at the read of its first byte, and its other bytes come from the latch; the
pointer advances. -/
def i2cRead (s : State) : State :=
  let a := s.hst.i2cPtr
  let u := i2cUnit s a
  let held := s.hst.i2cLatch.1 = u.1 && !s.hst.i2cLatch.2.isEmpty
  let l := if a = u.1 || !held then u else s.hst.i2cLatch
  respond 8 a [l.2.getD (a - l.1) 0]
    { s with hst := { s.hst with i2cPtr := (a + 1) % 2 ^ 24, i2cLatch := if a = u.1 then u else s.hst.i2cLatch } }

/-- I2C_READ (R534). -/
def execI2cRead (s : State) : Host.Outcome State Fault Refusal := finish (if s.glb.state = .off then s else i2cRead s)

/-- I2C_SNAPSHOT (R534): the data byte 0x4C after the pointer 0xFF_0000. -/
def execI2cSnapshot (s : State) : Host.Outcome State Fault Refusal :=
  finish (if s.glb.state = .off then s
    else lanCopy { s with hst := { s.hst with i2cPtr := 0xFF0000 } })

end Sys2Proof.Machine
end

