-- ==== Sys2Proof/Machine/RegWrite.lean ====
section
/-!
DEFINITION. Writes of BAR0: what each register does with a written word, locks, the Invar protocol and the tables window
(spec/00_scope.md R6 to R8; spec/17_host_control.md R515 to R521; spec/18_register_map.md R541 to R545; the locks R141, R176, R308,
R335, R371, R400, R417, R485, R498).
-/
namespace Sys2Proof.Machine

/-- The plain write of a word: read-write bits take the value, W1S bits are set, W1C flags are cleared where the value has 1; all other
bits keep theirs (R6, R7). -/
def plainWrite (o : Nat) (v : Word) (s : State) : State :=
  match regDesc o with
  | none => s
  | some d =>
    let old := rd s o
    wr o (((old &&& ~~~d.rw) ||| (v &&& d.rw) ||| (v &&& d.w1s)) &&& ~~~(v &&& d.w1c)) s

/-- A write that a lock turns away: the event of the unit with instance, offset and state. -/
def lockedWrite (k : EvKind) (inst o st : Nat) (s : State) : State := logEvent k inst inst o st s

/-- A number brought into a range: a value out of range takes the nearest limit. -/
def clampTo (lo hi x : Nat) : Nat := if x < lo then lo else if hi < x then hi else x

/-- A word with a field brought into a range. -/
def clampF (hi lo min max : Nat) (v : Word) : Word := putBits v hi lo (clampTo min max (bits v hi lo))

/-! ## GLB, IMG, HST, MEM, CAS, HLP -/

/-- A write of GLB_CMD (R40); values without a command are refused as INVALID. -/
def glbCmd (cmd : Nat) (s : State) : State :=
  glbRun cmd (match cmd with
    | 1 => glbArm
    | 2 => glbStart
    | 3 => glbStop
    | 4 => glbDisarm
    | 5 => glbRecover
    | 6 => glbReload
    | 7 => glbLantern
    | 8 => glbShutdown
    | _ => fun s => (3, s)) s

/-- A write of HST_EVCFG with the check of R498: a ring in the SRAM must lie wholly within banks that are ON when it is enabled. -/
def evCfgChecked (v : Word) (s : State) : State :=
  let size := 32 * 2 ^ clampK (bits v 12 8)
  if fld s R.HST_EVCFG 0 0 = 0 ∧ bits v 1 0 = 3 ∧ !sramOn s (evRing s).1 size then accessBad R.HST_EVCFG 4 2 s
  else evCfgWrite v s

/-- EVCFG_WRITE (R498, R530). -/
def execEvcfgWrite (value : Word) (s : State) : Host.Outcome State Fault Refusal :=
  finish (viaBar0 R.HST_EVCFG (evCfgChecked value) s)

/-- A write of an MSI-X table word; a vector that its mask bit no longer masks is sent when it was pending (R524). -/
def msixWrite (o : Nat) (v : Word) (s : State) : State := msixPump ((o - 0x021000) / 16) (plainWrite o v s)

/-- A write to the GLB or IMG block. -/
def writeGlb (o : Nat) (v : Word) (s : State) : State :=
  if o = R.GLB_CMD then glbCmd (bits v 3 0) s
  else if o = R.GLB_BRUCTL then bruCmd (bits v 3 0) s
  else if o = R.IMG_CTL then imgCtl (bits v 3 0) (bits v 5 4) s
  else if o = R.IMG_DATA then imgData v s
  else plainWrite o v s

/-- A write to the HST block (R527, R530, R531). -/
def writeHst (o : Nat) (v : Word) (s : State) : State :=
  if o = R.HST_EVBASE_LO ∨ o = R.HST_EVBASE_HI then
    (if fld s R.HST_EVCFG 0 0 = 1 then accessBad o 4 3 s else plainWrite o v s)
  else if o = R.HST_EVCFG then evCfgChecked v s
  else if o = R.HST_EVHEAD then evHeadWrite (bits v 15 0) s
  else if o = R.HST_OCCCLR then occClrWrite (bits v 1 0) s
  else if o = R.HST_LANBASE_LO ∨ o = R.HST_LANBASE_HI ∨ o = R.HST_LANCFG then
    (if s.hst.lanBusy.isSome then accessBad o 4 3 s else plainWrite o v s)
  else if 0x021000 ≤ o ∧ o < 0x021400 then msixWrite o v s
  else plainWrite o v s

/-- A write to the MEM, XMC, NVJ, CAS or HLP block. -/
def writeMem (o : Nat) (v : Word) (s : State) : State :=
  if o = R.MEM_CMD then memCmd (bits v 3 0) (bits v 6 4) s
  else if o = R.CAS_BELLCFG then plainWrite o (clampF 9 0 64 1023 (clampF 20 16 12 20 (clampF 28 24 16 24 v))) s
  else if o = R.CAS_CMD then casCmd (bits v 3 0) s
  else if 0x100000 ≤ o ∧ o % 0x8000 = 4 then hlpCmd ((o - 0x100000) / 0x8000) (bits v 3 0) (bits v 31 16) s
  else plainWrite o v s

/-! ## DOT, FIR (R141, R176, R417) -/

/-- A write to a pipe's register `rel`; its configuration is writable in OFF, where a deeper ring or a smaller delay frees space (R133,
R141). -/
def writePipe (d rel : Nat) (v : Word) (s : State) : State :=
  let o := R.DOT_Pn_CFG d + rel
  if rel = 0x14 then wlineWrite d v.toNat s
  else if rel = 0x18 then waddWrite d (bits v 15 0) s
  else if rel = 0x24 then dotCmd d (bits v 3 0) (bits v 31 16) s
  else if rel ≤ 0x0C ∨ rel = 0x30 ∨ (0x40 ≤ rel ∧ rel < 0x60) then
    (if pipeCode s d = 1 then spaceCheck d s (plainWrite o v s) else lockedWrite Ev.DOT_CFG_LOCKED d o (pipeCode s d) s)
  else plainWrite o v s

/-- A write to the DOT block. -/
def writeDot (o : Nat) (v : Word) (s : State) : State :=
  if 0x181000 ≤ o then writePipe ((o - 0x181000) / 0x100) ((o - 0x181000) % 0x100) v s
  else if o = R.DOT_PREDCFG then plainWrite o (clampF 4 0 14 24 (clampF 12 8 14 26 v)) s
  else if o = R.DOT_SSCFG ∨ o = R.DOT_SSRATIO ∨ o = R.DOT_SSBACKV then
    (if s.ss.phase = 0 then plainWrite o v s else lockedWrite Ev.DOT_CFG_LOCKED 0xFE o s.ss.phase s)
  else if o = R.DOT_SSCMD then ssCmd (bits v 3 0) s
  else plainWrite o v s

/-- A write to a generator's register `rel`; FIR_LTn_LEAD takes at least 160. -/
def writeLt (g rel : Nat) (v : Word) (s : State) : State :=
  let o := R.FIR_LTn_CTL g + rel
  if rel = 0x38 then firCmd g (bits v 3 0) s
  else if rel ≤ 0x18 then
    (if genCode s g = 1 ∨ genCode s g = 2 then plainWrite o (if rel = 0x14 then clampF 11 0 160 4095 v else v) s
     else lockedWrite Ev.FIR_CFG_LOCKED g o (genCode s g) s)
  else plainWrite o v s

/-- The state of the generator that drives port `p`; 0 where none does. -/
def portGen (s : State) (p : Nat) : Nat :=
  match portPipe s p with
  | some d => if pipeLt s d < 16 then genCode s (pipeLt s d) else 0
  | none => 0

/-- A write to a port's FIR register `rel`: FIR_Pn_SLOT and FIR_Pn_WARM are locked while its generator is in RUN or HOLD; a slot takes
520 to 16,383, and a change of it is followed by the check of R157 and goes to the head (R202). -/
def writeFirPort (p rel : Nat) (v : Word) (s : State) : State :=
  let o := R.FIR_Pn_SLOT p + rel
  if rel = 0x00 ∨ rel = 0x10 then
    (if portGen s p = 3 ∨ portGen s p = 4 then lockedWrite Ev.FIR_CFG_LOCKED p o (portGen s p) s
     else if rel = 0x00 then
       let s1 := plainWrite o (clampF 15 0 520 16383 v) s
       if rd s1 o = rd s o then s1 else bankChanged p s (pulseCheck s1)
     else plainWrite o v s)
  else plainWrite o v s

/-- A write to the FIR block. -/
def writeFir (o : Nat) (v : Word) (s : State) : State :=
  if o < 0x201000 then plainWrite o v s
  else if o < 0x202000 then writeLt ((o - 0x201000) / 0x100) ((o - 0x201000) % 0x100) v s
  else writeFirPort ((o - 0x202000) / 0x100) ((o - 0x202000) % 0x100) v s

/-! ## THM, NHL, SCN (R308) -/

/-- A write to the THM or NHL block. -/
def writeHeat (o : Nat) (v : Word) (s : State) : State :=
  if o = R.THM_CMD then thmCmd (bits v 3 0) (bits v 7 4) (bits v 31 16) s
  else if o = R.NHL_CFG then nhlCfgWrite v s
  else if o = R.NHL_HOSTRES then hostResult v s
  else if 0x2C1000 ≤ o then
    let p := (o - 0x2C1000) / 0x100
    let rel := (o - 0x2C1000) % 0x100
    if rel = 0x20 then gapWrite p (bits v 15 0) s
    else if rel = 0x30 then nhlCmd p (bits v 3 0) (bits v 31 16) s
    else plainWrite o v s
  else plainWrite o v s

/-- A write to the SCN block: the job's registers are locked in READY, TURN, SWEEP and HELD. -/
def writeScn (o : Nat) (v : Word) (s : State) : State :=
  if o = R.SCN_CMD then scnCmd (bits v 3 0) s
  else if o ≤ R.SCN_JOBLINE ∨ 0x301000 ≤ o then
    (if 2 ≤ scnCode s ∧ scnCode s ≤ 5 then lockedWrite Ev.DOT_CFG_LOCKED 0xFF o (scnCode s) s else plainWrite o v s)
  else plainWrite o v s

/-! ## POS, STP, MOT (R335, R371, R400) -/

/-- A write to a compare's register `rel`. -/
def writeCmp (n m rel : Nat) (v : Word) (s : State) : State :=
  let o := R.POS_PCn_CMPm_CTL n m + rel
  if rel = 0x28 then cmpCmd n m (bits v 3 0) s
  else if rel ≤ 0x0C then
    (if cmpArmed s n m then lockedWrite Ev.POS_CFG_LOCKED (0x20 + cmpInst n m) o 0 s else plainWrite o v s)
  else plainWrite o v s

/-- A write to the POS block. -/
def writePos (o : Nat) (v : Word) (s : State) : State :=
  if 0x408000 ≤ o then plainWrite o v s
  else
    let n := (o - 0x400000) / 0x1000
    let rel := (o - 0x400000) % 0x1000
    if rel = 0x20 then posCmd n (bits v 3 0) s
    else if rel = 0x10 then plainWrite o (clampF 4 0 12 24 (clampF 12 8 16 28 v)) s
    else if 0x100 ≤ rel then writeCmp n ((rel - 0x100) / 0x40) ((rel - 0x100) % 0x40) v s
    else plainWrite o v s

/-- The registers that R371 locks in MOVING, HOMING and ESTOP. -/
def stpLockable : List Nat := [0x24, 0x28, 0x2C, 0x30, 0x34, 0x3C, 0x40, 0x44, 0x48, 0x4C, 0x50, 0x54, 0x5C]

/-- A write to an axis's register. -/
def writeStp (o : Nat) (v : Word) (pins : Pins) (s : State) : State :=
  let n := (o - 0x480000) / 0x1000
  let rel := (o - 0x480000) % 0x1000
  let st := (ax s n).st
  if rel = 0x64 then stpCmd n (bits v 3 0) (bits v 4 4 = 1) pins.flt s
  else if stpLockable.contains rel ∧ axUsed s n ∧ (st = .moving ∨ st = .homing ∨ st = .estop) then
    lockedWrite Ev.STP_CFG_LOCKED n o (axCode s n) s
  else plainWrite o v s

/-- The registers that R400 locks outside UNUSED, OFF, COAST and BRAKE. -/
def motLockable : List Nat := [0x14, 0x18, 0x1C, 0x20, 0x24, 0x28, 0x34, 0x3C, 0x40, 0x44, 0x48]

/-- A write to a motor channel's register; a write of VREF ends the cap of R395. -/
def writeMot (o : Nat) (v : Word) (pins : Pins) (s : State) : State :=
  let n := (o - 0x500000) / 0x4000
  let rel := (o - 0x500000) % 0x4000
  let st := (mo s n).st
  if rel = 0x50 then motCmd n (bits v 3 0) pins.flt (busOf s n pins.bus.toNat) s
  else if rel = 0x0C then modMo n (fun x => { x with cap := none, capV := none }) (plainWrite o v s)
  else if motLockable.contains rel ∧ moUsed s n ∧ !(st = .off ∨ st = .coast ∨ st = .brake) then
    lockedWrite Ev.MOT_CFG_LOCKED n o (moCode s n) s
  else plainWrite o v s

/-! ## DMA (R465, R468, R473, R485, R498) -/

/-- The state of the lowest channel that names queue `q` and is not IDLE; 0 where there is none. -/
def cqUser (s : State) (q : Nat) : Nat :=
  match (List.range 32).find? (fun n => dmaCq s n = q && (dc s n).st ≠ .idle) with
  | some n => (dc s n).st.code
  | none => 0

/-- A write of DMA_CQn_CFG: k, space and en keep their values while the queue is enabled and in use; a queue in the SRAM must lie wholly
within banks that are ON when it is enabled; enabling it sets head and tail to 0 and the phase to 1 (R485, R498). -/
def cqCfgWrite (q : Nat) (v : Word) (s : State) : State :=
  let o := R.DMA_CQn_CFG q
  let en := fld s o 0 0
  if en = 1 ∧ cqUser s q ≠ 0 then
    let keep := putBits (putBits v 8 4 (fld s o 8 4)) 1 0 (fld s o 1 0)
    let s1 := plainWrite o keep s
    if bits v 8 4 = fld s o 8 4 ∧ bits v 1 0 = fld s o 1 0 then s1
    else lockedWrite Ev.DMA_CFG_LOCKED (0x20 + q) o (cqUser s q) s1
  else if bits v 1 0 = 3 ∧ !sramOn s (cqRing s q).1 (32 * 2 ^ bits v 8 4) then
    lockedWrite Ev.DMA_CFG_LOCKED (0x20 + q) o (cqUser s q) s
  else if en = 0 ∧ bits v 0 0 = 1 then
    let s1 := wr (R.DMA_CQn_TAIL q) 0x10000 (wr (R.DMA_CQn_HEAD q) 0 (plainWrite o v s))
    { s1 with cqSince := vset s1.cqSince q 0 }
  else plainWrite o v s

/-- A write to a queue's register `rel`. -/
def writeCq (q rel : Nat) (v : Word) (s : State) : State :=
  let o := R.DMA_CQn_BASE_LO q + rel
  if rel = 0x08 then cqCfgWrite q v s
  else if (rel = 0x00 ∨ rel = 0x04) ∧ fld s (R.DMA_CQn_CFG q) 0 0 = 1 ∧ cqUser s q ≠ 0 then
    lockedWrite Ev.DMA_CFG_LOCKED (0x20 + q) o (cqUser s q) s
  else plainWrite o v s

/-- A write to the DMA block. -/
def writeDma (o : Nat) (v : Word) (s : State) : State :=
  if o < 0x620000 then
    let n := (o - 0x600000) / 0x1000
    let rel := (o - 0x600000) % 0x1000
    if rel = 0x08 then dmaCmd n (bits v 3 0) s
    else if rel = 0x04 then
      (if (dc s n).st = .idle then plainWrite o v s else lockedWrite Ev.DMA_CFG_LOCKED n o (dc s n).st.code s)
    else if isShadow rel then shadowWrite n rel v s
    else plainWrite o v s
  else if o < 0x621000 then writeCq ((o - 0x620000) / 0x40) ((o - 0x620000) % 0x40) v s
  else if o = R.DMA_SIGRAISE then sigRaiseWrite v s
  else plainWrite o v s

/-! ## All registers -/

/-- The effect of a 1 DW write to the register at `o` (R7, R517): commands run by their own tables, locked registers turn the write
away. -/
def writeReg (o : Nat) (v : Word) (pins : Pins) (s : State) : State :=
  if o < 0x020000 then writeGlb o v s
  else if o < 0x040000 then writeHst o v s
  else if o < 0x180000 then writeMem o v s
  else if o < 0x200000 then writeDot o v s
  else if o < 0x280000 then writeFir o v s
  else if o < 0x300000 then writeHeat o v s
  else if o < 0x400000 then writeScn o v s
  else if o < 0x480000 then writePos o v s
  else if o < 0x500000 then writeStp o v pins s
  else if o < 0x580000 then writeMot o v pins s
  else if o < 0x600000 then plainWrite o v s
  else writeDma o v s

/-! ## The Invar protocol (R518) -/

/-- A refused Invar write: HST_INVREJ, the flag and HST_INVAR_REJECT. -/
def invarRefuse (o reason : Nat) (v : Word) (s : State) : State :=
  let n := satInc 4 (fld s R.HST_INVREJ 31 28)
  logEvent Ev.HST_INVAR_REJECT 0xFF o reason v.toNat
    (setFlag R.HST_FLAG 0 (wr R.HST_INVREJ (packW [(0, o % 2 ^ 24), (24, reason), (28, n)]) s))

/-- What an Invar write at `o` does: the first reason of R518 that applies, in its order, or the pair. -/
def invarWrite (o : Nat) (whole : Bool) (v c : Word) (s : State) : State :=
  if !whole ∨ o % 8 ≠ 0 then invarRefuse o 1 v s
  else if c ≠ ~~~v then invarRefuse o 2 v s
  else if fld s R.HST_INVCTL 0 0 = 1 then invarRefuse o 3 v s
  else invarChanged o (rd s o) (putInvar o v s)

/-- INVAR_WRITE (R518 to R521): a write of 8 bytes at an offset; `whole`: a single write with all byte enables. At an offset that
holds no Invar register it is an access of another form (R515). -/
def execInvarWrite (offset : BitVec 24) (whole : Bool) (value complement : Word) (s : State) : Host.Outcome State Fault Refusal :=
  finish (viaBar0 offset.toNat (fun s =>
    if isInvar offset.toNat then invarWrite offset.toNat whole value complement s else accessBad offset.toNat 8 2 s) s)

/-! ## Register writes (R7, R8, R515) -/

/-- A write of 1 DW with all byte enables below the tables window (R515, R541). -/
def dwWrite (o : Nat) (v : Word) (pins : Pins) (s : State) : State :=
  if (regDesc o).isNone ∨ 0x800000 ≤ o then accessBad o 4 2 s
  else if isInvar o then invarRefuse o 1 v s
  else writeReg o v pins s

/-- REGISTER_WRITE (R7, R515): a host write of 1 DW to a register of BAR0. -/
def execRegisterWrite (offset : BitVec 24) (value : Word) (pins : Pins) (s : State) : Host.Outcome State Fault Refusal :=
  finish (viaBar0 offset.toNat (dwWrite offset.toNat value pins) s)

/-- W1C_FLAG_CLEAR (R8, R523): a write of 1 to one flag; `sets` says that hardware sets the flag in the same cycle, which then wins
and is counted (R8, R9). -/
def execW1cFlagClear (offset : BitVec 24) (bit : Fin 32) (sets : Bool) (s : State) : Host.Outcome State Fault Refusal :=
  finish (viaBar0 offset.toNat (fun s =>
    if isW1c offset.toNat bit.val then
      let s1 := clearFlags offset.toNat (BitVec.ofNat 32 (2 ^ bit.val)) s
      if sets then setFlag offset.toNat bit.val s1 else s1
    else s) s)

/-! ## The tables window (R515, R545) -/

/-- A write to a substitution entry as a whole; an entry no longer valid gives its index back (R278, R281). -/
def substWrite (o : Nat) (v h : Word) (s : State) : State :=
  let old := fld s o 0 0
  let s1 := wr (o + 4) (h &&& regStored (o + 4)) (wr o (v &&& regStored o) s)
  if old = 1 ∧ bits v 0 0 = 0 then modNhl ((o - R.TBL_SUBST) / 8192) (fun x => { x with full := false }) s1 else s1

/-- One 32-bit word of a table other than the substitution and thermal-state tables. -/
def tableDw (o : Nat) (v : Word) (s : State) : State :=
  if o < 0x900000 then healthWrite ((o - R.TBL_HEALTH) / 4) v s
  else wr o (v &&& regStored o) s

/-- After a write to the waveform table: the check of R157, and the change goes to the head (R202). -/
def tableAfter (o : Nat) (s0 s : State) : State :=
  if R.TBL_WAVE ≤ o ∧ o < 0x963800 then bankChanged ((o - R.TBL_WAVE) / 128) s0 (pulseCheck s) else s

/-- A write of 1 DW, or of 2 DW at 8-byte alignment, to the tables window. A 64-bit entry takes only 2 DW; the thermal-state region and
unassigned offsets discard the write and raise HST_ACCESS_BAD (R515, R541, R545). -/
def tableWrite (o : Nat) (v : Word) (high : Option Word) (s : State) : State :=
  let size := match high with
    | some _ => 8
    | none => 4
  let good := o % 4 = 0 && (regDesc o).isSome && decide (0x800000 ≤ o) && !(decide (R.TBL_THERMAL ≤ o) && decide (o < R.TBL_USTEP))
  let subst := decide (R.TBL_SUBST ≤ o) && decide (o < R.TBL_THERMAL)
  match high with
  | none => if good && !subst then tableAfter o s (tableDw o v s) else accessBad o size 2 s
  | some h =>
    if !good ∨ o % 8 ≠ 0 then accessBad o size 2 s
    else if subst then substWrite o v h s
    else tableAfter o s (tableDw (o + 4) h (tableDw o v s))

/-- TABLE_ENTRY_WRITE (R515, R545): a host write to the tables window; `high` is the second DW of a 2 DW write. -/
def execTableEntryWrite (offset : BitVec 24) (value : Word) (high : Option Word) (s : State) : Host.Outcome State Fault Refusal :=
  finish (viaBar0 offset.toNat (tableWrite offset.toNat value high) s)

/-! ## L1 and the ADC -/

/-- Nothing is outstanding or queued towards the host (R514): requests, records, events, messages, the summary. -/
def linkQuiet (s : State) : Bool :=
  s.hst.held.isEmpty && s.hst.queue.isEmpty && s.hst.lanBusy.isNone &&
  (List.range 32).all (fun n => (dc s n).outstanding = 0 && !(dc s n).hpend && (dc s n).recs.isEmpty) &&
  rd s (R.MSIX_PBA 0) = 0 && rd s (R.MSIX_PBA 1) = 0

/-- L1_ENTRY (R514): no BAR access has arrived for 2^14 ticks; the link enters L1 when nothing is outstanding or queued. -/
def execL1Entry (s : State) : Host.Outcome State Fault Refusal :=
  finish (if s.hst.linkSpeed ≠ 0 ∧ linkQuiet s then { s with hst := { s.hst with l1 := true } } else s)

/-- The analog inputs that used motor channels and stepper axes claim (R345, R376, R379). -/
def adcClaimed (s : State) : List Nat :=
  (those 8 (axUsed s)).flatMap (fun a => [40 + 2 * a, 41 + 2 * a]) ++ (those 4 (moUsed s)).flatMap (fun m => moShunts s m ++ moVolts s m)

/-- ADC_BACKGROUND_SAMPLE (R542): a background slot samples an unclaimed input. -/
def execAdcBackgroundSample (input : Fin 56) (mv : BitVec 16) (s : State) : Host.Outcome State Fault Refusal :=
  finish (if s.glb.state = .off ∨ s.glb.state = .reset ∨ fld s R.ADC_CTL 0 0 = 0 ∨ (adcClaimed s).contains input.val then s
    else adcPut input.val (signed 16 mv.toNat) s)

end Sys2Proof.Machine
end

