-- ==== Sys2Proof/Machine/DmaRun.lean ====
section
/-!
DEFINITION. The DMA instructions (spec/15_dma.md R449 to R463, R471): fetch and check, and what each instruction does.
-/
namespace Sys2Proof.Machine

/-! ## Fetch and check (R449 to R452) -/

/-- Bytes `o` to `o + n − 1` of an instruction are 0. -/
def zeros (i : List Byte) (o n : Nat) : Bool := (slice i o n).all (fun b => b = 0)

/-- Byte `k` of an instruction. -/
def ib (i : List Byte) (k : Nat) : Nat := (i.getD k 0).toNat

/-- A WAIT names a type, an index, a limit and an operand of its ranges (R461, R462). -/
def waitValid (i : List Byte) : Bool :=
  let idx := ib i 2
  let e := ib i 3
  let op := fieldAt i 8 8
  zeros i 4 4 && (e = 0 || (decide (10 ≤ e) && decide (e ≤ 40))) &&
  (match ib i 1 with
    | 0 => decide (idx < 64)
    | 1 => decide (idx < 16) && decide (1 ≤ op) && decide (op ≤ 16384)
    | 2 => decide (idx < 16)
    | 3 => idx = 0
    | 4 => decide (idx < 16)
    | _ => false)

/-- The opcode is known, every reserved bit is 0 and every field is within its range (R451, R452). -/
def instValid (i : List Byte) : Bool :=
  match ib i 0 with
  | 0x00 => zeros i 1 15
  | 0x01 => zeros i 2 6 && decide (ib i 1 / 16 ≤ 2)
  | 0x02 => zeros i 2 6 && decide (ib i 1 / 16 ≤ 2)
  | 0x03 => zeros i 6 2 && zeros i 12 4
  | 0x04 => zeros i 6 2 && zeros i 12 4
  | 0x05 => decide (ib i 1 < 4) && zeros i 2 2 && zeros i 12 4
  | 0x06 => decide (ib i 1 < 4) && zeros i 2 2 && zeros i 8 8
  | 0x07 => decide (ib i 1 < 4) && zeros i 3 13
  | 0x08 => waitValid i
  | 0x09 => decide (ib i 1 < 64) && zeros i 3 13
  | 0x0A => zeros i 1 3 && ib i 4 % 4 = 0 && zeros i 12 4
  | 0x0B => zeros i 1 3 && zeros i 8 8
  | 0x0C => decide (ib i 1 < 2) && zeros i 2 2 && zeros i 8 8
  | 0x0D => decide (ib i 1 < 2) && zeros i 2 2 && zeros i 8 8
  | _ => false

/-- A channel in RUN with no instruction in progress runs the instruction at PC when its opcode is `op`: it is fetched from the SRAM,
in its turn at the port and releasing a borrowed window (R450, R482, R503); a fetch that reaches no memory ends the channel with ERR_ADDR, an instruction that R451
refuses with ERR_DECODE. -/
def dmaRun (n op : Nat) (act : List Byte → State → State) (s : State) : State :=
  let x := dc s n
  if x.st ≠ .run ∨ x.xfer ∨ x.held then s
  else
    let a := (rd s (R.DMA_DCn_APTR n)).toNat + 16 * x.pc
    if !sramOn s a 16 then dmaFail n 0x11 (errAddr n a s)
    else
      let i := sramRead s a 16
      let fetched := marchYield a 16 (fetchTurn n s)
      if !instValid i then dmaFail n 0x10 fetched
      else if ib i 0 ≠ op then s
      else act i (modDma n (fun x => { x with inst := i }) fetched)

/-! ## Counters, descriptors and the transfer -/

/-- DMA_NOP (R452). -/
def execDmaNop (ch : Fin 32) (s : State) : Host.Outcome State Fault Refusal :=
  finish (dmaRun ch.val 0x00 (fun _ s => dmaNext ch.val s) s)

/-- The base that a SRC or DST sets: its offset, or the sum of a parameter and it, modulo 2^64 (R453). -/
def baseOf (s : State) (n : Nat) (i : List Byte) : Nat :=
  let off := fieldAt i 8 8
  if bitOf (ib i 1) 3 then
    let p := ib i 1 % 8
    (rd64 s (R.DMA_DCn_APAR n (2 * p)) (R.DMA_DCn_APAR n (2 * p + 1)) + off) % 2 ^ 64
  else off

/-- A side takes base and space: its registers at `lo`, `hi` and `patr`. -/
def setBase (lo hi patr base space : Nat) (s : State) : State :=
  setF patr 27 24 space (wr hi (BitVec.ofNat 32 (base / 2 ^ 32)) (wr lo (BitVec.ofNat 32 base) s))

/-- A side takes the pattern of a SPAT or DPAT: its registers at `patr`, `rows` and `stride` (R454). -/
def setPattern (patr rows stride : Nat) (i : List Byte) (s : State) : State :=
  wr stride (BitVec.ofNat 32 (fieldAt i 8 4)) (wr rows (BitVec.ofNat 32 (fieldAt i 4 2)) (setF patr 23 0 (fieldAt i 1 3) s))

/-- The bits [31:28] of SPATR and DPATR: 1 once base and pattern have been set since the hand-over. -/
def markSet (n : Nat) (s : State) : State :=
  let x := dc s n
  let s1 := if x.srcSet && x.spatSet then setF (R.DMA_DCn_SPATR n) 31 28 1 s else s
  if x.dstSet && x.dpatSet then setF (R.DMA_DCn_DPATR n) 31 28 1 s1 else s1

/-- DMA_SRC (R453). -/
def execDmaSrc (ch : Fin 32) (s : State) : Host.Outcome State Fault Refusal :=
  finish (let n := ch.val
    dmaRun n 0x01 (fun i s => dmaNext n (markSet n (modDma n (fun x => { x with srcSet := true })
      (setBase (R.DMA_DCn_SBASE_LO n) (R.DMA_DCn_SBASE_HI n) (R.DMA_DCn_SPATR n) (baseOf s n i) (ib i 1 / 16) s)))) s)

/-- DMA_DST (R453). -/
def execDmaDst (ch : Fin 32) (s : State) : Host.Outcome State Fault Refusal :=
  finish (let n := ch.val
    dmaRun n 0x02 (fun i s => dmaNext n (markSet n (modDma n (fun x => { x with dstSet := true })
      (setBase (R.DMA_DCn_DBASE_LO n) (R.DMA_DCn_DBASE_HI n) (R.DMA_DCn_DPATR n) (baseOf s n i) (ib i 1 / 16) s)))) s)

/-- DMA_SPAT (R454). -/
def execDmaSpat (ch : Fin 32) (s : State) : Host.Outcome State Fault Refusal :=
  finish (let n := ch.val
    dmaRun n 0x03 (fun i s => dmaNext n (markSet n (modDma n (fun x => { x with spatSet := true })
      (setPattern (R.DMA_DCn_SPATR n) (R.DMA_DCn_SROWS n) (R.DMA_DCn_SSTRIDE n) i s)))) s)

/-- DMA_DPAT (R454). -/
def execDmaDpat (ch : Fin 32) (s : State) : Host.Outcome State Fault Refusal :=
  finish (let n := ch.val
    dmaRun n 0x04 (fun i s => dmaNext n (markSet n (modDma n (fun x => { x with dpatSet := true })
      (setPattern (R.DMA_DCn_DPATR n) (R.DMA_DCn_DROWS n) (R.DMA_DCn_DSTRIDE n) i s)))) s)

/-- The start of a transfer: both sides set, and equal counts of at most 2^32 − 1 bytes (R454, R455). -/
def xferStart (n : Nat) (s : State) : State :=
  let x := dc s n
  if !(x.srcSet && x.spatSet && x.dstSet && x.dpatSet) then dmaFail n 0x10 s
  else if (srcSide s n).total ≠ (dstSide s n).total ∨ 2 ^ 32 ≤ (srcSide s n).total then dmaFail n 0x14 s
  else dmaMove n (wr (R.DMA_DCn_XOFF n) 0 (modDma n (fun x => { x with xfer := true, iss := 0, hold := [], reads := [] }) s))

/-- DMA_XFER (R455, R456). -/
def execDmaXfer (ch : Fin 32) (s : State) : Host.Outcome State Fault Refusal :=
  finish (dmaRun ch.val 0x05 (fun _ s => xferStart ch.val s) s)

/-- DMA_SETC (R460). -/
def execDmaSetc (ch : Fin 32) (s : State) : Host.Outcome State Fault Refusal :=
  finish (dmaRun ch.val 0x06 (fun i s => dmaNext ch.val (wr (R.DMA_DCn_C ch.val (ib i 1)) (BitVec.ofNat 32 (fieldAt i 4 4)) s)) s)

/-- A LOOP: nothing when the counter is 0; else it falls by 1, and the program goes on at the target when it is not 0 (R460). -/
def loopStep (n c target : Nat) (s : State) : State :=
  let v := (rd s (R.DMA_DCn_C n c)).toNat
  if v = 0 then dmaNext n s
  else
    let s1 := wr (R.DMA_DCn_C n c) (BitVec.ofNat 32 (v - 1)) s
    if v - 1 = 0 then dmaNext n s1 else modDma n (fun x => { x with pc := target, inst := [] }) s1

/-- DMA_LOOP (R460). -/
def execDmaLoop (ch : Fin 32) (s : State) : Host.Outcome State Fault Refusal :=
  finish (dmaRun ch.val 0x07 (fun i s => loopStep ch.val (ib i 1) (ib i 2) s) s)

/-! ## WAIT (R461 to R463) -/

/-- Channel `m` waits for signal `sg`. -/
def waitsFor (s : State) (sg m : Nat) : Bool :=
  (dc s m).st = .wait && ib (dc s m).inst 1 = 0 && ib (dc s m).inst 2 = sg

/-- The condition of a WAIT holds. A signal serves the channels that wait ahead first: `ahead` of them (R463). -/
def waitHolds (s : State) (ahead : Nat) (i : List Byte) : Bool :=
  let idx := ib i 2
  let op := fieldAt i 8 8
  match ib i 1 with
  | 0 => decide (ahead < sigCount s idx)
  | 1 => decide ((op : Int) ≤ lineDiff (wlimit s idx) (dp s idx).wline)
  | 2 => (lt s idx).since && decide (0 ≤ lineDiff (rd s (R.FIR_LTn_LASTLINE idx)).toNat (op % 2 ^ 32))
  | 3 => decide (op ≤ s.now)
  | _ => decide (0 ≤ lineDiff (dp s idx).next (op % 2 ^ 32))

/-- The pipe or generator of a SPACE, LAUNCH or NEXT wait is UNBOUND or OFF (R461). -/
def waitAstray (s : State) (i : List Byte) : Bool :=
  match ib i 1 with
  | 1 => decide (pipeCode s (ib i 2) ≤ 1)
  | 2 => genCode s (ib i 2) = 0
  | 4 => decide (pipeCode s (ib i 2) ≤ 1)
  | _ => false

/-- A WAIT is over: a signal is consumed, and the channel goes on. -/
def waitOver (n : Nat) (i : List Byte) (s : State) : State :=
  let sg := ib i 2
  let s1 := if ib i 1 = 0 then sigPut sg (sigCount s sg - 1) s else s
  dmaNext n (modDma n (fun x => { x with st := .run, wtype := 0 }) s1)

/-- A WAIT begins. -/
def waitStart (n : Nat) (i : List Byte) (s : State) : State :=
  if waitAstray s i then dmaFail n 0x16 s
  else if waitHolds s (those 32 (waitsFor s (ib i 2))).length i then waitOver n i s
  else modDma n (fun x => { x with st := .wait, wtype := ib i 1 }) s

/-- DMA_WAIT (R461, R462). -/
def execDmaWait (ch : Fin 32) (s : State) : Host.Outcome State Fault Refusal :=
  finish (dmaRun ch.val 0x08 (waitStart ch.val) s)

/-- Lower channels that wait for the same signal. -/
def waitsAhead (s : State) (n : Nat) : Nat := (those n (waitsFor s (ib (dc s n).inst 2))).length

/-- DMA_WAIT_SATISFIED (R461, R463): the condition of a held WAIT holds. -/
def execDmaWaitSatisfied (ch : Fin 32) (s : State) : Host.Outcome State Fault Refusal :=
  finish (let n := ch.val
    let i := (dc s n).inst
    if (dc s n).st ≠ .wait then s
    else if waitAstray s i then dmaFail n 0x16 s
    else if waitHolds s (waitsAhead s n) i then waitOver n i s
    else s)

/-- DMA_WAIT_TIMEOUT (R462): the limit has passed with the condition still false. -/
def execDmaWaitTimeout (ch : Fin 32) (s : State) : Host.Outcome State Fault Refusal :=
  finish (let n := ch.val
    let i := (dc s n).inst
    if (dc s n).st ≠ .wait ∨ ib i 3 = 0 ∨ waitHolds s (waitsAhead s n) i then s
    else dmaFail n 0x17 s)

/-! ## SIGNAL, WRI, CPL, SWAP and END (R458) -/

/-- WRI reaches the register at `o`: of type RW, WO, W1C or W1S, in DOT, FIR, THM, NHL, SCN, POS, STP, MOT, CAS or DMA (R459). -/
def wriOk (o : Nat) : Bool :=
  (within o 0x080000 0x100000 || within o 0x180000 0x580000 || within o 0x600000 0x622000) &&
  (match regDesc o with
    | some d => !d.invar && (d.rw ||| d.wo ||| d.w1c ||| d.w1s) ≠ 0
    | none => false)

/-- The instruction acts. -/
def dmaAct (n : Nat) (i : List Byte) (pins : Pins) (s0 : State) : State :=
  let s := modDma n (fun x => { x with held := false }) s0
  let tag := fieldAt i 4 4
  let cpl := bitOf (ib i 1) 0
  match ib i 0 with
  | 0x09 => dmaNext n (raiseSig (ib i 1) (if ib i 2 = 0 then 1 else ib i 2) s)
  | 0x0A => if wriOk tag then dmaNext n (writeReg tag (BitVec.ofNat 32 (fieldAt i 8 4)) pins s) else dmaFail n 0x15 s
  | 0x0B => dmaClose n 0 0 true tag s
  | 0x0C => dmaClose n 2 2 cpl tag s
  | 0x0D => dmaClose n 1 1 cpl tag s
  | _ => s

/-- The instruction waits until every earlier write of the program is complete, then acts (R458). -/
def dmaOrdered (n : Nat) (pins : Pins) (i : List Byte) (s : State) : State :=
  if (dc s n).wpend || (dc s n).hpend then modDma n (fun x => { x with held := true }) s else dmaAct n i pins s

/-- No unit of a channel's own instructions looks at pins but CLRFAULT. -/
def noPins : Pins := { flt := false, bus := 0 }

/-- DMA_SIGNAL (R458, R463). -/
def execDmaSignal (ch : Fin 32) (s : State) : Host.Outcome State Fault Refusal :=
  finish (dmaRun ch.val 0x09 (dmaOrdered ch.val noPins) s)

/-- DMA_WRI (R458, R459); `pins` as at REGISTER_WRITE. -/
def execDmaWri (ch : Fin 32) (pins : Pins) (s : State) : Host.Outcome State Fault Refusal :=
  finish (dmaRun ch.val 0x0A (dmaOrdered ch.val pins) s)

/-- DMA_CPL (R458, R466). -/
def execDmaCpl (ch : Fin 32) (s : State) : Host.Outcome State Fault Refusal :=
  finish (dmaRun ch.val 0x0B (dmaOrdered ch.val noPins) s)

/-- DMA_SWAP (R458, R471). -/
def execDmaSwap (ch : Fin 32) (s : State) : Host.Outcome State Fault Refusal :=
  finish (dmaRun ch.val 0x0C (dmaOrdered ch.val noPins) s)

/-- DMA_END (R458, R471). -/
def execDmaEnd (ch : Fin 32) (s : State) : Host.Outcome State Fault Refusal :=
  finish (dmaRun ch.val 0x0D (dmaOrdered ch.val noPins) s)

/-- DMA_WRITE_COMPLETE (R458, R507): the memories have accepted the channel's writes; an instruction that waited for them acts. -/
def execDmaWriteComplete (ch : Fin 32) (e : WriteEnd) (s : State) : Host.Outcome State Fault Refusal :=
  finish (let n := ch.val
    let s0 := if (dc s n).wpend && (dstSide s n).space = 2 then eccErrors 0 (xmcUsable s) 1 e.errs s else s
    let s1 := modDma n (fun x => { x with wpend := false }) s0
    let x := dc s1 n
    if x.held ∧ !x.hpend ∧ (x.st = .run ∨ (x.st = .pausing ∧ x.after = 1)) then dmaAct n x.inst e.pins s1 else s1)

end Sys2Proof.Machine
end

