-- ==== Sys2Proof/Machine/Dispatch.lean ====
section
/-!
DEFINITION. The dispatch of commands to their meanings: one arm per command, one direct call each.
-/
namespace Sys2Proof.Machine

/-- The effect of a command on everything but the queue. -/
def exec (i : Instr) (s : State) : Host.Outcome State Fault Refusal :=
  match i with
  | .porstAssert widthNs => Sys2Proof.Machine.execPorstAssert widthNs s
  | .warmrstAssert widthNs => Sys2Proof.Machine.execWarmrstAssert widthNs s
  | .porstRelease boot casMstr refsel => Sys2Proof.Machine.execPorstRelease boot casMstr refsel s
  | .warmrstRelease => Sys2Proof.Machine.execWarmrstRelease s
  | .rootVcoLock => Sys2Proof.Machine.execRootVcoLock s
  | .clockUnlock refCycles => Sys2Proof.Machine.execClockUnlock refCycles s
  | .clockRelock refCycles => Sys2Proof.Machine.execClockRelock refCycles s
  | .throttleApply => Sys2Proof.Machine.execThrottleApply s
  | .glbArm => Sys2Proof.Machine.execGlbArm s
  | .glbStart => Sys2Proof.Machine.execGlbStart s
  | .glbStop => Sys2Proof.Machine.execGlbStop s
  | .glbDisarm => Sys2Proof.Machine.execGlbDisarm s
  | .glbRecover => Sys2Proof.Machine.execGlbRecover s
  | .glbReload => Sys2Proof.Machine.execGlbReload s
  | .glbLantern => Sys2Proof.Machine.execGlbLantern s
  | .glbShutdown => Sys2Proof.Machine.execGlbShutdown s
  | .stoppingComplete => Sys2Proof.Machine.execStoppingComplete s
  | .earlyAccess bar offset write => Sys2Proof.Machine.execEarlyAccess bar offset write s
  | .pciePerstAssert => Sys2Proof.Machine.execPciePerstAssert s
  | .pushBegin src => Sys2Proof.Machine.execPushBegin src s
  | .pushEnd src => Sys2Proof.Machine.execPushEnd src s
  | .retryFlash src => Sys2Proof.Machine.execRetryFlash src s
  | .revert src => Sys2Proof.Machine.execRevert src s
  | .svnCommit src => Sys2Proof.Machine.execSvnCommit src s
  | .imgSrcWrite src => Sys2Proof.Machine.execImgSrcWrite src s
  | .imgDataWrite data => Sys2Proof.Machine.execImgDataWrite data s
  | .flashReadDone bytes => Sys2Proof.Machine.execFlashReadDone bytes s
  | .sfdpTimeout => Sys2Proof.Machine.execSfdpTimeout s
  | .flashStrobeTimeout addr => Sys2Proof.Machine.execFlashStrobeTimeout addr s
  | .selftestActivityDone result => Sys2Proof.Machine.execSelftestActivityDone result s
  | .xmcTrainDone ch ok phase => Sys2Proof.Machine.execXmcTrainDone ch ok phase s
  | .xmcEccInitDone => Sys2Proof.Machine.execXmcEccInitDone s
  | .portAttemptStart p => Sys2Proof.Machine.execPortAttemptStart p s
  | .portAttemptEnd p => Sys2Proof.Machine.execPortAttemptEnd p s
  | .bruRetry => Sys2Proof.Machine.execBruRetry s
  | .discTimer => Sys2Proof.Machine.execDiscTimer s
  | .cascadeWaitTimer => Sys2Proof.Machine.execCascadeWaitTimer s
  | .dotWlineWrite p line => Sys2Proof.Machine.execDotWlineWrite p line s
  | .dotWaddWrite p add => Sys2Proof.Machine.execDotWaddWrite p add s
  | .dotEnable p gen => Sys2Proof.Machine.execDotEnable p gen s
  | .dotDisable p gen => Sys2Proof.Machine.execDotDisable p gen s
  | .dotClear p gen => Sys2Proof.Machine.execDotClear p gen s
  | .dotSetline p gen => Sys2Proof.Machine.execDotSetline p gen s
  | .dotRelease p gen => Sys2Proof.Machine.execDotRelease p gen s
  | .lineAssemblyDone p => Sys2Proof.Machine.execLineAssemblyDone p s
  | .prefetchDone p row e => Sys2Proof.Machine.execPrefetchDone p row e s
  | .underrunPredictTimer p => Sys2Proof.Machine.execUnderrunPredictTimer p s
  | .predictSample g => Sys2Proof.Machine.execPredictSample g s
  | .fixedClockCommit g => Sys2Proof.Machine.execFixedClockCommit g s
  | .lineLaunch what => Sys2Proof.Machine.execLineLaunch what s
  | .fireSlotStart p row => Sys2Proof.Machine.execFireSlotStart p row s
  | .lineWindowEnd p row => Sys2Proof.Machine.execLineWindowEnd p row s
  | .warmCycleTimer p => Sys2Proof.Machine.execWarmCycleTimer p s
  | .waveformEntryWrite index value => Sys2Proof.Machine.execWaveformEntryWrite index value s
  | .headKillAssert => Sys2Proof.Machine.execHeadKillAssert s
  | .hopenAssert m => Sys2Proof.Machine.execHopenAssert m s
  | .hpnEnExternalLow p => Sys2Proof.Machine.execHpnEnExternalLow p s
  | .jamQualified m => Sys2Proof.Machine.execJamQualified m s
  | .mediaOutQualified => Sys2Proof.Machine.execMediaOutQualified s
  | .gateSourceDeassert src => Sys2Proof.Machine.execGateSourceDeassert src s
  | .safeHoldKill p => Sys2Proof.Machine.execSafeHoldKill p s
  | .firSetorg g => Sys2Proof.Machine.execFirSetorg g s
  | .firCaporg g => Sys2Proof.Machine.execFirCaporg g s
  | .trainSetReceived p ts2 data => Sys2Proof.Machine.execTrainSetReceived p ts2 data s
  | .trainStateTimeout p => Sys2Proof.Machine.execTrainStateTimeout p s
  | .tsyncEchoRx p t1 h2 h3 t4 => Sys2Proof.Machine.execTsyncEchoRx p t1 h2 h3 t4 s
  | .tsyncProbeTimer p => Sys2Proof.Machine.execTsyncProbeTimer p s
  | .lackRx p fseq status => Sys2Proof.Machine.execLackRx p fseq status s
  | .lackTimeout p fseq => Sys2Proof.Machine.execLackTimeout p fseq s
  | .fireLackTimeout p fseq => Sys2Proof.Machine.execFireLackTimeout p fseq s
  | .memResponseRx p tag status data => Sys2Proof.Machine.execMemResponseRx p tag status data s
  | .memResponseTimeout p tag => Sys2Proof.Machine.execMemResponseTimeout p tag s
  | .teleKind0Rx p tag warmOnly slots energy ipk temps => Sys2Proof.Machine.execTeleKind0Rx p tag warmOnly slots energy ipk temps s
  | .teleKind1Rx p entries => Sys2Proof.Machine.execTeleKind1Rx p entries s
  | .hevtRx p code index value => Sys2Proof.Machine.execHevtRx p code index value s
  | .upstreamFrameBad p codeErr => Sys2Proof.Machine.execUpstreamFrameBad p codeErr s
  | .symbolLockLoss p => Sys2Proof.Machine.execSymbolLockLoss p s
  | .hotswapAttemptTimer p => Sys2Proof.Machine.execHotswapAttemptTimer p s
  | .hlpRetrain p gen => Sys2Proof.Machine.execHlpRetrain p gen s
  | .hlpMemrd p gen => Sys2Proof.Machine.execHlpMemrd p gen s
  | .hlpMemwr p gen => Sys2Proof.Machine.execHlpMemwr p gen s
  | .teleMissingTimeout p => Sys2Proof.Machine.execTeleMissingTimeout p s
  | .modelIdleUpdate p => Sys2Proof.Machine.execModelIdleUpdate p s
  | .zonePollTimer p => Sys2Proof.Machine.execZonePollTimer p s
  | .dieSensorSample temps => Sys2Proof.Machine.execDieSensorSample temps s
  | .fallbackComplete => Sys2Proof.Machine.execFallbackComplete s
  | .fallbackTtlExpiry => Sys2Proof.Machine.execFallbackTtlExpiry s
  | .ledgerGrant => Sys2Proof.Machine.execLedgerGrant s
  | .ledgerWaitTimeout cls inst => Sys2Proof.Machine.execLedgerWaitTimeout cls inst s
  | .journalProgramDone => Sys2Proof.Machine.execJournalProgramDone s
  | .thmReseed p gen => Sys2Proof.Machine.execThmReseed p gen s
  | .thmClrmax p gen => Sys2Proof.Machine.execThmClrmax p gen s
  | .nhlHostresWrite value => Sys2Proof.Machine.execNhlHostresWrite value s
  | .tableEntryWrite offset value high => Sys2Proof.Machine.execTableEntryWrite offset value high s
  | .scanBlockTimeout p => Sys2Proof.Machine.execScanBlockTimeout p s
  | .nhlGapDeclare p len => Sys2Proof.Machine.execNhlGapDeclare p len s
  | .serviceLineTimer p => Sys2Proof.Machine.execServiceLineTimer p s
  | .autoSpitTimer p => Sys2Proof.Machine.execAutoSpitTimer p s
  | .nhlScan p gen => Sys2Proof.Machine.execNhlScan p gen s
  | .nhlSpit p gen => Sys2Proof.Machine.execNhlSpit p gen s
  | .nhlAbort p gen => Sys2Proof.Machine.execNhlAbort p gen s
  | .nhlRebuild p gen => Sys2Proof.Machine.execNhlRebuild p gen s
  | .nhlClear p gen => Sys2Proof.Machine.execNhlClear p gen s
  | .scnSetjob => Sys2Proof.Machine.execScnSetjob s
  | .scnEndjob => Sys2Proof.Machine.execScnEndjob s
  | .sweepLastSlotEnd => Sys2Proof.Machine.execSweepLastSlotEnd s
  | .carriageAtRest => Sys2Proof.Machine.execCarriageAtRest s
  | .feedComplete => Sys2Proof.Machine.execFeedComplete s
  | .dwellTimer => Sys2Proof.Machine.execDwellTimer s
  | .turnaroundGo => Sys2Proof.Machine.execTurnaroundGo s
  | .encoderEdge n a b => Sys2Proof.Machine.execEncoderEdge n a b s
  | .indexEdge n => Sys2Proof.Machine.execIndexEdge n s
  | .sincosSample n xs xc => Sys2Proof.Machine.execSincosSample n xs xc s
  | .signalOk n => Sys2Proof.Machine.execSignalOk n s
  | .sincosSpeedTick n => Sys2Proof.Machine.execSincosSpeedTick n s
  | .speedStandstillTimeout n => Sys2Proof.Machine.execSpeedStandstillTimeout n s
  | .posIntRead n => Sys2Proof.Machine.execPosIntRead n s
  | .posPreset n => Sys2Proof.Machine.execPosPreset n s
  | .posClrcnt n => Sys2Proof.Machine.execPosClrcnt n s
  | .cmpArm n m => Sys2Proof.Machine.execCmpArm n m s
  | .cmpDisarm n m => Sys2Proof.Machine.execCmpDisarm n m s
  | .eeOutputStep e => Sys2Proof.Machine.execEeOutputStep e s
  | .stpEnable n => Sys2Proof.Machine.execStpEnable n s
  | .stpDisable n => Sys2Proof.Machine.execStpDisable n s
  | .stpMove n => Sys2Proof.Machine.execStpMove n s
  | .stpJog n neg => Sys2Proof.Machine.execStpJog n neg s
  | .stpStop n => Sys2Proof.Machine.execStpStop n s
  | .stpEstop n => Sys2Proof.Machine.execStpEstop n s
  | .stpHome n => Sys2Proof.Machine.execStpHome n s
  | .stpSetpos n => Sys2Proof.Machine.execStpSetpos n s
  | .stpClrfault n flt => Sys2Proof.Machine.execStpClrfault n flt s
  | .profileUpdate n => Sys2Proof.Machine.execProfileUpdate n s
  | .stpBridgeFault n => Sys2Proof.Machine.execStpBridgeFault n s
  | .limitQualified n limB asserted => Sys2Proof.Machine.execLimitQualified n limB asserted s
  | .homeEdgeQualified n active first chans => Sys2Proof.Machine.execHomeEdgeQualified n active first chans s
  | .homeChatterTimeout n => Sys2Proof.Machine.execHomeChatterTimeout n s
  | .holdDelayExpiry n => Sys2Proof.Machine.execHoldDelayExpiry n s
  | .motStart n => Sys2Proof.Machine.execMotStart n s
  | .motStop n => Sys2Proof.Machine.execMotStop n s
  | .motCoast n => Sys2Proof.Machine.execMotCoast n s
  | .motEstop n => Sys2Proof.Machine.execMotEstop n s
  | .motMove n => Sys2Proof.Machine.execMotMove n s
  | .motClrfault n flt bus => Sys2Proof.Machine.execMotClrfault n flt bus s
  | .motGateFault n => Sys2Proof.Machine.execMotGateFault n s
  | .motOvercurrent n phase ma => Sys2Proof.Machine.execMotOvercurrent n phase ma s
  | .pwmPeriodUpdate n uv on volts => Sys2Proof.Machine.execPwmPeriodUpdate n uv on volts s
  | .senseWindowEnd n => Sys2Proof.Machine.execSenseWindowEnd n s
  | .zeroCrossing n phase rising => Sys2Proof.Machine.execZeroCrossing n phase rising s
  | .alignEnd n => Sys2Proof.Machine.execAlignEnd n s
  | .reverseTimeout n => Sys2Proof.Machine.execReverseTimeout n s
  | .revbrakeHoldEnd n => Sys2Proof.Machine.execRevbrakeHoldEnd n s
  | .reacqWindowEnd n => Sys2Proof.Machine.execReacqWindowEnd n s
  | .vbusLowTimeout n => Sys2Proof.Machine.execVbusLowTimeout n s
  | .coastTimeout n => Sys2Proof.Machine.execCoastTimeout n s
  | .ssSstop => Sys2Proof.Machine.execSsSstop s
  | .ssAbandon => Sys2Proof.Machine.execSsAbandon s
  | .ssDrainEnd => Sys2Proof.Machine.execSsDrainEnd s
  | .ssDecelDone => Sys2Proof.Machine.execSsDecelDone s
  | .ssBackupDone => Sys2Proof.Machine.execSsBackupDone s
  | .ssRefillGate => Sys2Proof.Machine.execSsRefillGate s
  | .ssAccelDone => Sys2Proof.Machine.execSsAccelDone s
  | .casTsReceived port ts2 data => Sys2Proof.Machine.execCasTsReceived port ts2 data s
  | .casTrainTimeout port => Sys2Proof.Machine.execCasTrainTimeout port s
  | .casTsyncEchoRx t1 h2 h3 t4 => Sys2Proof.Machine.execCasTsyncEchoRx t1 h2 h3 t4 s
  | .casProbeTimer => Sys2Proof.Machine.execCasProbeTimer s
  | .bellSendTimer => Sys2Proof.Machine.execBellSendTimer s
  | .bellSetRx data => Sys2Proof.Machine.execBellSetRx data s
  | .localBellTick tick => Sys2Proof.Machine.execLocalBellTick tick s
  | .trgSetRx port mask => Sys2Proof.Machine.execTrgSetRx port mask s
  | .discRx h hops proposed => Sys2Proof.Machine.execDiscRx h hops proposed s
  | .dansRx h d => Sys2Proof.Machine.execDansRx h d s
  | .doneRx h epoch length transport hashes => Sys2Proof.Machine.execDoneRx h epoch length transport hashes s
  | .rediscRx h => Sys2Proof.Machine.execRediscRx h s
  | .msgStartRx h ts => Sys2Proof.Machine.execMsgStartRx h ts s
  | .startTick => Sys2Proof.Machine.execStartTick s
  | .msgStopRx h => Sys2Proof.Machine.execMsgStopRx h s
  | .peerStopRx h code => Sys2Proof.Machine.execPeerStopRx h code s
  | .peerHaltRx h code => Sys2Proof.Machine.execPeerHaltRx h code s
  | .ssreqRx h cause => Sys2Proof.Machine.execSsreqRx h cause s
  | .ssdecRx h td => Sys2Proof.Machine.execSsdecRx h td s
  | .ssreadyRx h => Sys2Proof.Machine.execSsreadyRx h s
  | .ssgoRx h => Sys2Proof.Machine.execSsgoRx h s
  | .ssforbidRx h reason => Sys2Proof.Machine.execSsforbidRx h reason s
  | .ssabandonRx h => Sys2Proof.Machine.execSsabandonRx h s
  | .userMsgRx h data => Sys2Proof.Machine.execUserMsgRx h data s
  | .casAckRx h seq => Sys2Proof.Machine.execCasAckRx h seq s
  | .casNakRx h seq role epoch => Sys2Proof.Machine.execCasNakRx h seq role epoch s
  | .casAckTimeout seq => Sys2Proof.Machine.execCasAckTimeout seq s
  | .statRx h state sev code die fill => Sys2Proof.Machine.execStatRx h state sev code die fill s
  | .statTimer => Sys2Proof.Machine.execStatTimer s
  | .memberLostTimeout n => Sys2Proof.Machine.execMemberLostTimeout n s
  | .posFrameRx h posInt posFrac time speed valid dir => Sys2Proof.Machine.execPosFrameRx h posInt posFrac time speed valid dir s
  | .casLinkLoss port cause => Sys2Proof.Machine.execCasLinkLoss port cause s
  | .casSend => Sys2Proof.Machine.execCasSend s
  | .casResync => Sys2Proof.Machine.execCasResync s
  | .casClrcnt => Sys2Proof.Machine.execCasClrcnt s
  | .dmaStart n => Sys2Proof.Machine.execDmaStart n s
  | .dmaPause n => Sys2Proof.Machine.execDmaPause n s
  | .dmaDrain n => Sys2Proof.Machine.execDmaDrain n s
  | .dmaResume n => Sys2Proof.Machine.execDmaResume n s
  | .dmaAbort n => Sys2Proof.Machine.execDmaAbort n s
  | .dmaArm n => Sys2Proof.Machine.execDmaArm n s
  | .dmaDisarm n => Sys2Proof.Machine.execDmaDisarm n s
  | .dmaClrerr n => Sys2Proof.Machine.execDmaClrerr n s
  | .dmaNop ch => Sys2Proof.Machine.execDmaNop ch s
  | .dmaSrc ch => Sys2Proof.Machine.execDmaSrc ch s
  | .dmaDst ch => Sys2Proof.Machine.execDmaDst ch s
  | .dmaSpat ch => Sys2Proof.Machine.execDmaSpat ch s
  | .dmaDpat ch => Sys2Proof.Machine.execDmaDpat ch s
  | .dmaXfer ch => Sys2Proof.Machine.execDmaXfer ch s
  | .dmaSetc ch => Sys2Proof.Machine.execDmaSetc ch s
  | .dmaLoop ch => Sys2Proof.Machine.execDmaLoop ch s
  | .dmaWait ch => Sys2Proof.Machine.execDmaWait ch s
  | .dmaSignal ch => Sys2Proof.Machine.execDmaSignal ch s
  | .dmaWri ch pins => Sys2Proof.Machine.execDmaWri ch pins s
  | .dmaCpl ch => Sys2Proof.Machine.execDmaCpl ch s
  | .dmaSwap ch => Sys2Proof.Machine.execDmaSwap ch s
  | .dmaEnd ch => Sys2Proof.Machine.execDmaEnd ch s
  | .dmaReadCompletion n k e => Sys2Proof.Machine.execDmaReadCompletion n k e s
  | .dmaWriteComplete ch e => Sys2Proof.Machine.execDmaWriteComplete ch e s
  | .dmaPauseDone n => Sys2Proof.Machine.execDmaPauseDone n s
  | .dmaWaitSatisfied ch => Sys2Proof.Machine.execDmaWaitSatisfied ch s
  | .dmaWaitTimeout ch => Sys2Proof.Machine.execDmaWaitTimeout ch s
  | .cqfullRelease n => Sys2Proof.Machine.execCqfullRelease n s
  | .cqIrqTimer q => Sys2Proof.Machine.execCqIrqTimer q s
  | .cqHeadWrite q head => Sys2Proof.Machine.execCqHeadWrite q head s
  | .sigraiseAdd sg count => Sys2Proof.Machine.execSigraiseAdd sg count s
  | .sigraiseSet sg count => Sys2Proof.Machine.execSigraiseSet sg count s
  | .shadowRegisterWrite n rel v => Sys2Proof.Machine.execShadowRegisterWrite n rel v s
  | .memSleep b => Sys2Proof.Machine.execMemSleep b s
  | .memWake b => Sys2Proof.Machine.execMemWake b s
  | .memMarch b => Sys2Proof.Machine.execMemMarch b s
  | .memStopmarch b => Sys2Proof.Machine.execMemStopmarch b s
  | .bankTransitionDone b => Sys2Proof.Machine.execBankTransitionDone b s
  | .marchWindowStart => Sys2Proof.Machine.execMarchWindowStart s
  | .marchWindowDone faults => Sys2Proof.Machine.execMarchWindowDone faults s
  | .marchTestDone faults => Sys2Proof.Machine.execMarchTestDone faults s
  | .bar2Access off a => Sys2Proof.Machine.execBar2Access off a s
  | .bar4Access off a e => Sys2Proof.Machine.execBar4Access off a e s
  | .hstAccessBad offset size write => Sys2Proof.Machine.execHstAccessBad offset size write s
  | .invarWrite offset whole value complement => Sys2Proof.Machine.execInvarWrite offset whole value complement s
  | .invarLock => Sys2Proof.Machine.execInvarLock s
  | .w1cFlagClear offset bit sets => Sys2Proof.Machine.execW1cFlagClear offset bit sets s
  | .occClearSelected => Sys2Proof.Machine.execOccClearSelected s
  | .occClearAll => Sys2Proof.Machine.execOccClearAll s
  | .bmeClear => Sys2Proof.Machine.execBmeClear s
  | .bmeSet => Sys2Proof.Machine.execBmeSet s
  | .aerError status header uncorrectable => Sys2Proof.Machine.execAerError status header uncorrectable s
  | .l1Entry => Sys2Proof.Machine.execL1Entry s
  | .msixUnmask v => Sys2Proof.Machine.execMsixUnmask v s
  | .evheadWrite head => Sys2Proof.Machine.execEvheadWrite head s
  | .evcfgWrite value => Sys2Proof.Machine.execEvcfgWrite value s
  | .evIrqTimer => Sys2Proof.Machine.execEvIrqTimer s
  | .lanternWriteDone => Sys2Proof.Machine.execLanternWriteDone s
  | .i2cPointerWrite high mid low => Sys2Proof.Machine.execI2cPointerWrite high mid low s
  | .i2cRead => Sys2Proof.Machine.execI2cRead s
  | .i2cSnapshot => Sys2Proof.Machine.execI2cSnapshot s
  | .registerWrite offset value pins => Sys2Proof.Machine.execRegisterWrite offset value pins s
  | .adcBackgroundSample input mv => Sys2Proof.Machine.execAdcBackgroundSample input mv s
  | .avsCodeStep up => Sys2Proof.Machine.execAvsCodeStep up s
  | .powerOn => Sys2Proof.Machine.execPowerOn s
  | .powerLoss => Sys2Proof.Machine.execPowerLoss s
  | .pciePerstRelease => Sys2Proof.Machine.execPciePerstRelease s
  | .pcieLinkUp speed link => Sys2Proof.Machine.execPcieLinkUp speed link s
  | .tsyncAcqProbeTimer p => Sys2Proof.Machine.execTsyncAcqProbeTimer p s
  | .casAcqProbeTimer => Sys2Proof.Machine.execCasAcqProbeTimer s
  | .ssTdReached => Sys2Proof.Machine.execSsTdReached s
  | .usageSummaryTimer => Sys2Proof.Machine.execUsageSummaryTimer s
  | .reactiveDelayedCommit g => Sys2Proof.Machine.execReactiveDelayedCommit g s
  | .speedSampleTick n => Sys2Proof.Machine.execSpeedSampleTick n s
  | .stepperPwmPeriod n va vb => Sys2Proof.Machine.execStepperPwmPeriod n va vb s
  | .hostReadTimeout n k => Sys2Proof.Machine.execHostReadTimeout n k s

end Sys2Proof.Machine
end

