-- ==== Sys2Proof/Safety.lean ====
section
/-!
DEFINITION. What counts as a safe run, and the terms in which statements say what a command leaves unchanged.
-/
namespace Sys2Proof.Machine

/-- A run's outcome is safe when the block goes on: it never stops on a command. -/
def Safe (o : Host.Outcome State Fault Refusal) : Prop := ∃ s, o = .next s

/-- The registers that the delivery of events writes: the ring's tail, the event sequence and drop counts, HST_FLAG.ev_lost, the
MSI-X pending bits and the journal's drop count (R262, R524, R526, R527). -/
def eventRegs : List Nat :=
  [R.HST_EVTAIL, R.HST_EVSEQ, R.HST_EVDROP, R.HST_FLAG, R.MSIX_PBA 0, R.MSIX_PBA 1, R.NVJ_JDROP]

/-- `t` is `s` once the events raised in `s` have been delivered: no more changes than delivery makes. Of the host interface only the
event queue, its counts, the recent events, the held requests and L1 may differ; of the journal its queue and the record in progress;
of the cascade the severity and the code that the next STAT reports; of the registers those of `eventRegs`; the SRAM only where it
holds the ring; the output only grows. What the command noted for itself alone, the events that a STAT has reported and the signals that it has
saturated, is empty again (R444, R463). Where no event was raised, nothing else differs (R260 to R262, R444, R513, R522 to R532). -/
structure Delivered (s t : State) : Prop where
  rest : ∃ r q l n rc oc hd pw jq js jb v c m o,
    t = { s with regs := r,
                 hst := { s.hst with raised := [], queue := q, lost := l, sinceVec := n, recent := rc, occ := oc, held := hd,
                                     l1 := pw },
                 jrn := { s.jrn with queue := jq, jseq := js, busy := jb },
                 cas := { s.cas with sev := v, code := c, noted := 0 }, sigOver := [], sram := m, out := o }
  regs : ∀ o, o ∉ eventRegs → rd t o = rd s o
  sram : fld s R.HST_EVCFG 1 1 = 0 → t.sram = s.sram
  out : s.out <:+ t.out
  still : s.hst.raised = [] → t = { s with cas := { s.cas with noted := 0 }, sigOver := [] }

/-- The command `c` completes in the state `s` with the effect `u`: exec answers a next state, and that state is `u` with its events
delivered. -/
def Completes (c : Instr) (s u : State) : Prop := ∃ t, exec c s = .next t ∧ Delivered u t

/-! ## The invariant of every step -/

/-- The canonical form of a sparse map: keys strictly rising, and no entry equal to what its key reads as when it is not listed. -/
abbrev Sparse.wf {α : Type} [DecidableEq α] (d : Nat → α) (l : Sparse α) : Prop :=
  l.Pairwise (fun a b => a.1 < b.1) ∧ ∀ p ∈ l, p.2 ≠ d p.1

/-- The canonical form of the memories: the SRAM and the page store. -/
abbrev State.memWf (s : State) : Prop := Sparse.wf (sramFill s) s.sram ∧ Sparse.wf (fun _ => (0 : Byte)) s.page

/-- The canonical form of the registers; every bit that a register does not store reads 0 (R6). -/
abbrev State.regsWf (s : State) : Prop := Sparse.wf regReset s.regs ∧ ∀ p ∈ s.regs, p.2 &&& ~~~(regStored p.1) = 0

/-- The internal event queue holds at most 64 events, the recent events are at most 16, the journal's queue holds at most 16 records
(R262, R527, R532). -/
abbrev State.queuesWf (s : State) : Prop :=
  s.hst.queue.length ≤ 64 ∧ s.hst.recent.length ≤ 16 ∧ s.jrn.queue.length ≤ 16

/-- What every step keeps: canonical memories and registers, bounded queues, no event left undelivered (R526), and nothing left of what a
command notes for itself alone (R444, R463). -/
abbrev State.Inv (s : State) : Prop :=
  s.memWf ∧ s.regsWf ∧ s.queuesWf ∧ s.hst.raised = [] ∧ s.cas.noted = 0 ∧ s.sigOver = []

end Sys2Proof.Machine
end

