-- ==== Sys2Proof/WellFormed.lean ====
section
/-!
DEFINITION. Which commands are well formed: operands that a type does not bound lie where the spec lets them lie. A command that is not
well formed is no event of the block; the machine gives every command an effect all the same.
-/
namespace Sys2Proof

/-- The bytes that a BAR maps; the device has BAR0, BAR2 and BAR4 (spec/17_host_control.md). -/
def barSize (bar : Fin 8) : Nat :=
  if bar = 0 then 2 ^ 24 else if bar = 2 then 2 ^ 27 else if bar = 4 then 2 ^ 28 else 0

/-- The bytes of a flash slot, the longest image (R48, R63). -/
def slotSize : Nat := 1048576

/-- The offset is a multiple of `n`. -/
def aligned (offset n : Nat) : Bool := decide (offset % n = 0)

/-- A way has 16 spare rows and 4 spare column groups (spec/16_memories.md, at R499). -/
def SelftestResult.wf : SelftestResult → Bool
  | .memory fuse _ _ => (List.range 64).all (fun k => decide (fuse.toList[k]!.toNat ≤ 20))
  | .journal _ | .invarChecker _ | .adc _ => true

/-- A read brings at most 512 bytes (R456). -/
def DmaReadEnd.wf : DmaReadEnd → Bool
  | .ok data => decide (data.length ≤ 512)
  | .bad | .ecc _ => true

/-- A saved word has 32 bytes (R502). -/
def MarchFault.wf (f : MarchFault) : Bool := (f.word.map (fun w => decide (w.length = 32))).getD true

/-- An access of a host moves 1 byte to 4 KB, inside the BAR. -/
def BarAccess.wf (a : BarAccess) (off size : Nat) : Bool :=
  let n := match a with
    | .read len => len
    | .write data => data.length
  decide (1 ≤ n) && decide (n ≤ 4096) && decide (off + n ≤ size)

/-- A command whose operands lie in the ranges of the spec: a loss of lock lasts 1 µs or more (R28); an offset lies in its BAR; flash
addresses and lengths lie in the slots (R63); head frames have their sizes (R201, R232, R271); a table entry lies in the window and a
register at a multiple of 4 (R515, R545); a state is one of the ten (R444); a PCIe link has a speed and width of the device. -/
def Instr.wf : Instr → Bool
  | .clockUnlock n => decide (100 ≤ n)
  | .earlyAccess bar offset _ => decide (offset < barSize bar)
  | .flashReadDone bytes => decide (bytes.length ≤ slotSize)
  | .flashStrobeTimeout addr => decide (addr.toNat < 2 * slotSize)
  | .selftestActivityDone result => result.wf
  | .memResponseRx _ _ _ data => decide (data.length ≤ 256)
  | .teleKind0Rx _ _ _ _ energy ipk temps => decide (energy.length ≤ 64) && decide (ipk.length ≤ 4) && decide (temps.length ≤ 16)
  | .teleKind1Rx _ entries => decide (1 ≤ entries.length) && decide (entries.length ≤ 64)
  | .tableEntryWrite offset _ high => decide (0x800000 ≤ offset.toNat) && aligned offset.toNat (if high.isSome then 8 else 4)
  | .statRx _ state _ _ _ _ => decide (1 ≤ state.toNat) && decide (state.toNat ≤ 10)
  | .dmaReadCompletion _ _ e => e.wf
  | .marchWindowDone faults => faults.all MarchFault.wf
  | .bar2Access off a => a.wf off.toNat (barSize 2)
  | .bar4Access off a _ => a.wf off.toNat (barSize 4)
  | .hstAccessBad _ size _ => decide (1 ≤ size) && decide (size ≤ 4096)
  | .invarWrite offset whole _ _ => aligned offset.toNat (if whole then 8 else 4)
  | .w1cFlagClear offset _ _ => aligned offset.toNat 4
  | .registerWrite offset _ _ => aligned offset.toNat 4
  | .shadowRegisterWrite _ rel _ => aligned rel.toNat 4
  | .pcieLinkUp speed link => decide (1 ≤ speed.toNat) && decide (speed.toNat ≤ 4) && [1, 2, 4, 8].contains link.width.toNat
  | .porstAssert .. | .warmrstAssert .. | .porstRelease .. | .clockRelock .. | .pushBegin .. | .pushEnd .. | .retryFlash ..
  | .revert .. | .svnCommit .. | .imgSrcWrite .. | .imgDataWrite .. | .xmcTrainDone .. | .portAttemptStart .. | .portAttemptEnd ..
  | .dotWlineWrite .. | .dotWaddWrite .. | .dotEnable .. | .dotDisable .. | .dotClear .. | .dotSetline .. | .dotRelease ..
  | .lineAssemblyDone .. | .prefetchDone .. | .underrunPredictTimer .. | .predictSample .. | .fixedClockCommit .. | .lineLaunch ..
  | .fireSlotStart .. | .lineWindowEnd .. | .warmCycleTimer .. | .waveformEntryWrite .. | .hopenAssert .. | .hpnEnExternalLow ..
  | .jamQualified .. | .gateSourceDeassert .. | .safeHoldKill .. | .firSetorg .. | .firCaporg .. | .trainSetReceived ..
  | .trainStateTimeout .. | .tsyncEchoRx .. | .tsyncProbeTimer .. | .lackRx .. | .lackTimeout .. | .fireLackTimeout ..
  | .memResponseTimeout .. | .hevtRx .. | .upstreamFrameBad .. | .symbolLockLoss .. | .hotswapAttemptTimer .. | .hlpRetrain ..
  | .hlpMemrd .. | .hlpMemwr .. | .teleMissingTimeout .. | .modelIdleUpdate .. | .zonePollTimer .. | .dieSensorSample ..
  | .ledgerWaitTimeout .. | .thmReseed .. | .thmClrmax .. | .nhlHostresWrite .. | .scanBlockTimeout .. | .nhlGapDeclare ..
  | .serviceLineTimer .. | .autoSpitTimer .. | .nhlScan .. | .nhlSpit .. | .nhlAbort .. | .nhlRebuild .. | .nhlClear ..
  | .encoderEdge .. | .indexEdge .. | .sincosSample .. | .signalOk .. | .sincosSpeedTick .. | .speedStandstillTimeout ..
  | .posIntRead .. | .posPreset .. | .posClrcnt .. | .cmpArm .. | .cmpDisarm .. | .eeOutputStep .. | .stpEnable .. | .stpDisable ..
  | .stpMove .. | .stpJog .. | .stpStop .. | .stpEstop .. | .stpHome .. | .stpSetpos .. | .stpClrfault .. | .profileUpdate ..
  | .stpBridgeFault .. | .limitQualified .. | .homeEdgeQualified .. | .homeChatterTimeout .. | .holdDelayExpiry .. | .motStart ..
  | .motStop .. | .motCoast .. | .motEstop .. | .motMove .. | .motClrfault .. | .motGateFault .. | .motOvercurrent ..
  | .pwmPeriodUpdate .. | .senseWindowEnd .. | .zeroCrossing .. | .alignEnd .. | .reverseTimeout .. | .revbrakeHoldEnd ..
  | .reacqWindowEnd .. | .vbusLowTimeout .. | .coastTimeout .. | .casTsReceived .. | .casTrainTimeout .. | .casTsyncEchoRx ..
  | .bellSetRx .. | .localBellTick .. | .trgSetRx .. | .discRx .. | .dansRx .. | .doneRx .. | .rediscRx .. | .msgStartRx ..
  | .msgStopRx .. | .peerStopRx .. | .peerHaltRx .. | .ssreqRx .. | .ssdecRx .. | .ssreadyRx .. | .ssgoRx .. | .ssforbidRx ..
  | .ssabandonRx .. | .userMsgRx .. | .casAckRx .. | .casNakRx .. | .casAckTimeout .. | .memberLostTimeout .. | .posFrameRx ..
  | .casLinkLoss .. | .dmaStart .. | .dmaPause .. | .dmaDrain .. | .dmaResume .. | .dmaAbort .. | .dmaArm .. | .dmaDisarm ..
  | .dmaClrerr .. | .dmaNop .. | .dmaSrc .. | .dmaDst .. | .dmaSpat .. | .dmaDpat .. | .dmaXfer .. | .dmaSetc .. | .dmaLoop ..
  | .dmaWait .. | .dmaSignal .. | .dmaWri .. | .dmaCpl .. | .dmaSwap .. | .dmaEnd .. | .dmaWriteComplete .. | .dmaPauseDone ..
  | .dmaWaitSatisfied .. | .dmaWaitTimeout .. | .cqfullRelease .. | .cqIrqTimer .. | .cqHeadWrite .. | .sigraiseAdd ..
  | .sigraiseSet .. | .memSleep .. | .memWake .. | .memMarch .. | .memStopmarch .. | .bankTransitionDone .. | .marchTestDone ..
  | .aerError .. | .msixUnmask .. | .evheadWrite .. | .evcfgWrite .. | .i2cPointerWrite .. | .adcBackgroundSample ..
  | .avsCodeStep .. | .tsyncAcqProbeTimer .. | .reactiveDelayedCommit .. | .speedSampleTick .. | .stepperPwmPeriod ..
  | .hostReadTimeout .. | .warmrstRelease | .rootVcoLock | .throttleApply | .glbArm | .glbStart | .glbStop | .glbDisarm
  | .glbRecover | .glbReload | .glbLantern | .glbShutdown | .stoppingComplete | .pciePerstAssert | .sfdpTimeout | .xmcEccInitDone
  | .bruRetry | .discTimer | .cascadeWaitTimer | .headKillAssert | .mediaOutQualified | .fallbackComplete | .fallbackTtlExpiry
  | .ledgerGrant | .journalProgramDone | .scnSetjob | .scnEndjob | .sweepLastSlotEnd | .carriageAtRest | .feedComplete
  | .dwellTimer | .turnaroundGo | .ssSstop | .ssAbandon | .ssDrainEnd | .ssDecelDone | .ssBackupDone | .ssRefillGate | .ssAccelDone
  | .casProbeTimer | .bellSendTimer | .startTick | .statTimer | .casSend | .casResync | .casClrcnt | .marchWindowStart | .invarLock
  | .occClearSelected | .occClearAll | .bmeClear | .bmeSet | .l1Entry | .evIrqTimer | .lanternWriteDone | .i2cRead | .i2cSnapshot
  | .powerOn | .powerLoss | .pciePerstRelease | .casAcqProbeTimer | .ssTdReached | .usageSummaryTimer => true

end Sys2Proof
end

