-- ==== Sys2Proof/Certificates/Slice0/Obligations.lean ====
section
/-! DEFINITION. The statements about the block, one `def Obligations.<Name> : Prop` each, with the words they use first. A statement
that a command completes is written with `Completes` (Sys2Proof/Safety.lean) or names the next state of `exec`. -/

open Sys2Proof Sys2Proof.Machine

/-- The order in which the events of one command take their sequence numbers. -/
def evBefore (e f : Event) : Prop := e.code.toNat < f.code.toNat ∨ (e.code = f.code ∧ e.inst.toNat ≤ f.inst.toNat)

/-- What a reset of the device leaves of the units: nothing moves, nothing is driven, nothing is queued (R80, R81). -/
def UnitsReset (t : State) : Prop :=
  t.ldr.image = none ∧ t.sram = [] ∧ t.page = [] ∧ t.jrn.busy = none ∧ t.jrn.queue = [] ∧ t.bru = State.reset.bru ∧
  t.dot = State.reset.dot ∧ t.gen = State.reset.gen ∧ t.hlp = State.reset.hlp ∧ t.thm = State.reset.thm ∧ t.thmg = State.reset.thmg ∧
  t.nhl = State.reset.nhl ∧ t.scn = State.reset.scn ∧ t.pc = State.reset.pc ∧ t.ee = State.reset.ee ∧ t.mot = State.reset.mot ∧
  t.ss = State.reset.ss ∧ t.cas = State.reset.cas ∧ t.dma = State.reset.dma ∧ t.mem = State.reset.mem ∧
  ∀ n, (ax t n).st = Axis.reset.st ∧ (ax t n).prof = Axis.reset.prof

/-- The PCIe side after the assertion of PCIE_PERST_N: the link down, no Bus Master Enable, no write of a summary in progress, the event
ring suspended, and the host registers at their reset values but for the counts that R546 keeps. -/
def pcieDown (s : State) : State :=
  setF R.GLB_RSTCAUSE 5 5 1 { resetWords perstScope (fun _ => 0) s with
    glb := { s.glb with perst := true },
    hst := { s.hst with linkSpeed := 0, linkWidth := 0, cfgReady := false, bme := false, l1 := false, msixMask := false,
                        lanBusy := none, lanPending := false, suspended := true, sinceVec := 0, lastAer := none, maxRead := 512, extTag := false } }

/-- The status word of an accepted global command: result 1, the state before it, the command. -/
def accepted (cmd : Nat) (g : GState) : Word := BitVec.ofNat 32 (1 + 16 * g.code + 256 * cmd)

/-- The banks that the memory test takes. -/
def testBanks (s : State) : List Nat := those 8 (fun b => bitOf s.ldr.testBanks.toNat b)

/-- The tested banks hold the background, and the repair fuses of every bank have loaded since the reset. -/
def testLoaded (fuse : Vector Byte 64) (s : State) : State := loadFuses fuse (forEach (testBanks s) bankTested s)

/-- The same with the faults found covered by free spares; the banks and their repairs in use are noted for BRU_SELFTEST_DONE. -/
def testRepaired (fuse found : Vector Byte 64) (s : State) : State :=
  let t := forEach (testBanks s) (bankRepair found) (testLoaded fuse s)
  let n := (List.range 64).foldl (fun n i => if bitOf s.ldr.testBanks.toNat (i / 8) then n + vat t.mem.used i else n) 0
  { t with bru := { t.bru with tested := s.ldr.testBanks, repairs := n } }

/-- The status word of an accepted loader command: result 1, the state and phase before it, the command. -/
def imgAccepted (cmd : Nat) (s : State) : Word :=
  BitVec.ofNat 32 (1 + 16 * s.glb.state.code + 256 * cmd + 4096 * s.ldr.phase.code)

/-- IMG_CTL as a loader command leaves it: the source field as written, and the status of the command. -/
def imgTaken (cmd : Nat) (src : BitVec 2) (s : State) : State :=
  wr R.IMG_CMD_STATUS (imgAccepted cmd s) (setF R.IMG_CTL 5 4 src.toNat s)

/-- A frame addressed to this device alone arrives whole on an ACTIVE port, under its role epoch. -/
def frameMine (h : CasHdr) (s : State) : Prop :=
  casRole s ≠ 0 ∧ (casPort s h.port).st = .active ∧ h.ok = true ∧ h.dst ≠ 0xFF ∧ isMine s h.dst.toNat = true ∧
    h.epoch.toNat = s.cas.epoch

/-- A broadcast that this device has not yet accepted arrives whole on an ACTIVE port, under its role epoch. -/
def frameAll (h : CasHdr) (s : State) : Prop :=
  casRole s ≠ 0 ∧ (casPort s h.port).st = .active ∧ h.ok = true ∧ h.dst = 0xFF ∧ isMine s h.dst.toNat = false ∧
    s.cas.seen.contains (h.src.toNat, h.seq) = false ∧ h.epoch.toNat = s.cas.epoch

/-- The device after it has acknowledged a frame of its own; after it has forwarded a broadcast and noted its copy. -/
def acked (h : CasHdr) (s : State) : State := casAnswer 0x11 h [] s
def relayed (h : CasHdr) (type : Nat) (body : List Byte) (s : State) : State :=
  modCas (fun c => { c with seen := ((h.src.toNat, h.seq) :: c.seen).take 16 })
    (casPut (1 - h.port.val) (casBytes type h.seq.toNat h.src.toNat 0xFF h.epoch.toNat body) s)

/-- Channel `n` is in RUN between instructions, and the instruction at its PC is `i`, whose opcode is `op`: it lies in a bank that is ON
and its fields are within their ranges (R449 to R452). -/
def fetched (n op : Nat) (i : List Byte) (s : State) : Prop :=
  (dc s n).st = .run ∧ (dc s n).xfer = false ∧ (dc s n).held = false ∧
    sramOn s ((rd s (R.DMA_DCn_APTR n)).toNat + 16 * (dc s n).pc) 16 = true ∧
    i = sramRead s ((rd s (R.DMA_DCn_APTR n)).toNat + 16 * (dc s n).pc) 16 ∧ instValid i = true ∧ ib i 0 = op

/-- The state in which a fetched instruction acts: the port has served what waits ahead of it, and a borrowed window has been released (R482,
R503). -/
def running (n : Nat) (i : List Byte) (s : State) : State :=
  modDma n (fun x => { x with inst := i }) (marchYield ((rd s (R.DMA_DCn_APTR n)).toNat + 16 * (dc s n).pc) 16 (fetchTurn n s))

/-- The instruction is done, and PC moves on by one. -/
def pcOn (n : Nat) (s : State) : State := modDma n (fun x => { x with pc := x.pc + 1, inst := [] }) s

/-- No write of the program waits for a memory or for the host. -/
def written (n : Nat) (s : State) : Prop := (dc s n).wpend = false ∧ (dc s n).hpend = false

/-- The command at the front of the queue takes its effect, with the rest of the queue waiting. (INDEX.md, the table of operations and
events, 95_what_each_step_holds.md) -/
def Obligations.StepRunsFront : Prop :=
  ∀ c rest (s : State), step { s with pending := c :: rest } = exec c { s with pending := rest }

/-- With no command waiting, bell time advances by one tick and the downstream lanes of the head ports run on; nothing else changes, and
where no lane has anything to send, nothing but bell time does (the model's choice, log 2). (00_scope.md R3) -/
def Obligations.StepIdles : Prop :=
  ∀ s, s.pending = [] → ∃ t, step s = .next t ∧ t = { s with now := s.now + 1, hlp := t.hlp, out := t.out } ∧ s.out <:+ t.out ∧
    ((∀ p : Fin 16, (hp s p).tx.queue = [] ∧ (hp s p).tx.idle = true) → t = { s with now := s.now + 1 })

/-- Every command answers a next state; it leaves the commands that wait alone, and takes back nothing that the block has put out.
(95_what_each_step_holds.md) -/
def Obligations.EveryCommandAnswers : Prop :=
  ∀ c s, ∃ t, exec c s = .next t ∧ t.pending = s.pending ∧ s.out <:+ t.out ∧ s.freeCtr ≤ t.freeCtr

/-- What the machine holds right after reset: the state RESET with PORST_N asserted, every register at its reset value, no image, no unit
in motion and nothing queued. (03_bring_up.md R80, 18_register_map.md R546, 00_scope.md R4) -/
def Obligations.ResetValues : Prop :=
  State.reset.glb.state = .reset ∧ State.reset.glb.porst = true ∧ State.reset.glb.locked = false ∧ State.reset.now = 0 ∧
  State.reset.pending = [] ∧ State.reset.ldr.image = none ∧ State.reset.sram = [] ∧ State.reset.page = [] ∧
  State.reset.hst.queue = [] ∧ State.reset.hst.bme = false ∧ State.reset.jrn.queue = [] ∧ State.reset.out = [] ∧
  (∀ o, rd State.reset o = regReset o) ∧
  (∀ n : Fin 16, pipeCode State.reset n = 0 ∧ genCode State.reset n = 0 ∧ fld State.reset (R.FIR_LTn_LEAD n) 11 0 = 0x190 ∧
    fld State.reset (R.DOT_Pn_CFG n) 23 20 = 8) ∧
  (∀ n : Fin 32, (dc State.reset n).st = .idle ∧ (dc State.reset n).arm = false) ∧
  (∀ n : Fin 8, axUsed State.reset n = false) ∧ (∀ n : Fin 4, moUsed State.reset n = false) ∧
  fld State.reset R.DOT_PREDCFG 4 0 = 0x14 ∧ fld State.reset R.DOT_SSCFG 31 24 = 0x20 ∧ fld State.reset R.CAS_BELLCFG 9 0 = 0x100

/-- The invariant holds right after reset. (00_scope.md R6, 17_host_control.md R526) -/
def Obligations.Reset_Inv : Prop :=
  State.reset.Inv

/-- Every step keeps the memories and registers in their canonical form with reserved bits 0, the queues within their bounds, no event left
undelivered, and nothing left of what a command notes for itself alone. (00_scope.md R6, 07_thermal_energy.md R262, 17_host_control.md
R526, 17_host_control.md R527, 17_host_control.md R532) -/
def Obligations.StepKeepsInv : Prop :=
  ∀ s t, s.Inv → step s = .next t → t.Inv

/-- SHUTDOWN is left only at PORST_N, WARMRST_N or power loss: no other command ends it and no event changes it. (R34) -/
def Obligations.ShutdownEndsByResetOnly : Prop :=
  (∀ c s t, s.glb.state = .shutdown → (∀ w, c ≠ .porstAssert w) → (∀ w, c ≠ .warmrstAssert w) → c ≠ .powerLoss →
    exec c s = .next t → t.glb.state = .shutdown) ∧
  (∀ w s, s.glb.state = .shutdown → 100 ≤ w → ∃ t, exec (.porstAssert w) s = .next t ∧ t.glb.state = .reset) ∧
  (∀ w s, s.glb.state = .shutdown → s.glb.porst = false → 100 ≤ w → ∃ t, exec (.warmrstAssert w) s = .next t ∧ t.glb.state = .reset) ∧
  (∀ s, s.glb.state = .shutdown → ∃ t, exec .powerLoss s = .next t ∧ t.glb.state = .off)

/-- The bindings stand: outside IMAGE_LOAD nothing but a reset changes the image in force, and a reload is accepted only in IDLE.
(01_architecture.md R19, 02_alloy_image.md R71) -/
def Obligations.BindingsStand : Prop :=
  (∀ c s t, s.glb.state ≠ .imageLoad → (∀ w, c ≠ .porstAssert w) → (∀ w, c ≠ .warmrstAssert w) → c ≠ .powerLoss →
    exec c s = .next t → t.ldr.image = s.ldr.image) ∧
  (∀ s t, s.glb.state ≠ .imageLoad → s.glb.state ≠ .idle → exec .glbReload s = .next t → t.glb.state = s.glb.state)

/-- The OTP array: no step lowers the security version, and none changes the key hash or the key lock; SVN_COMMIT alone raises the version,
to that of the image in force. (02_alloy_image.md R61, 19_electrical.md R576) -/
def Obligations.OtpOnlyRises : Prop :=
  (∀ s t, step s = .next t → s.ldr.otpSvn ≤ t.ldr.otpSvn ∧ t.ldr.otpKey = s.ldr.otpKey ∧ t.ldr.keyLock = s.ldr.keyLock) ∧
  (∀ src i s, s.glb.state = .idle → s.ldr.image = some i →
    ∃ t, exec (.svnCommit src) s = .next t ∧ t.ldr.otpSvn = max s.ldr.otpSvn i.svn)

/-- Delivery of events: their order, their sequence numbers, the ring's entry and tail, and the queue of 64. (17_host_control.md R525,
17_host_control.md R526, 17_host_control.md R527, 07_thermal_energy.md R262) -/
def Obligations.EventDelivery : Prop :=
  (∀ l, (evSort l).Perm l ∧ (evSort l).Pairwise evBefore) ∧
  (∀ e s, s.regsWf → rd (evDeliver e s).1 R.HST_EVSEQ = rd s R.HST_EVSEQ + 1) ∧
  (∀ e s, s.regsWf → evRunning s = true → s.hst.queue = [] → evRoom s = true → fld s R.HST_EVCFG 1 1 = 0 → fld s R.HST_EVCFG 2 2 = 0 →
    (evSend e s).out = .hostWrite (rd64 s R.HST_EVBASE_LO R.HST_EVBASE_HI + 32 * fld s R.HST_EVTAIL 15 0) e.bytes false :: s.out ∧
    fld (evSend e s) R.HST_EVTAIL 15 0 = (fld s R.HST_EVTAIL 15 0 + 1) % evSize s) ∧
  (∀ e s, s.hst.everEnabled = true → evRunning s = false ∨ evRoom s = false → s.hst.queue.length < 64 →
    evSend e s = { s with hst := { s.hst with queue := s.hst.queue ++ [e] } }) ∧
  (∀ e s, s.hst.everEnabled = true → evRunning s = false ∨ evRoom s = false → s.hst.queue.length = 64 →
    (evSend e s).hst.queue.length = 64 ∧ (evSend e s).hst.lost.isSome = true) ∧
  (∀ e s, s.hst.everEnabled = false → evSend e s = s) ∧
  (∀ e : Event, e.bytes.length = 32) ∧
  (∀ b s, s.jrn.busy = some b → s.jrn.queue = [] → Completes .journalProgramDone s (pathsClose { s with jrn := { s.jrn with
    records := Sparse.set [] s.jrn.records s.jrn.next b, newest := s.jrn.next, next := (s.jrn.next + 1) % 2048, busy := none } }))

/-- What an event's severity asks for: INFO and WARN leave the global state, STOP leads from PRINT to STOPPING, or to SAFE_HOLD where the
move to rest of a seamless stop uses a soft limit that fails its check, and HALT to SAFE_HOLD; no severity acts in OFF, RESET,
IMAGE_LOAD or SHUTDOWN. (01_architecture.md R35, 17_host_control.md R525) -/
def Obligations.Severities : Prop :=
  (∀ k i a b c s, k.sev = .info ∨ k.sev = .warn → raise k i a b c s = logPeer k i a b c s ∧
    (raise k i a b c s).glb.state = s.glb.state) ∧
  (∀ k i a b c s, k.sev = .stop → s.glb.state = .print → s.ss.phase ≠ 6 → (raise k i a b c s).glb.state = .stopping) ∧
  (∀ k i a b c s, k.sev = .stop → s.glb.state = .print →
    (raise k i a b c s).glb.state = .stopping ∨ (raise k i a b c s).glb.state = .safeHold) ∧
  (∀ k i a b c s, k.sev = .stop → s.glb.state ≠ .print → (raise k i a b c s).glb.state = s.glb.state) ∧
  (∀ k i a b c s, k.sev = .halt → haltable s = true → (raise k i a b c s).glb.state = .safeHold) ∧
  (∀ k i a b c s, k.sev = .halt → haltable s = false → (raise k i a b c s).glb.state = s.glb.state) ∧
  (∀ s, haltable s = true ↔ s.glb.state ∈ [GState.selftest, .linkTrain, .idle, .armed, .print, .stopping])

/-- PORST_N, power and WARMRST_N: what each leaves and keeps. (03_bring_up.md R80, 03_bring_up.md R81, 03_bring_up.md R82,
18_register_map.md R546, 18_register_map.md R547) -/
def Obligations.ResetsLeave : Prop :=
  (∀ w s, 100 ≤ w → s.glb.state ≠ .off → ∃ t, exec (.porstAssert w) s = .next t ∧ t.glb.state = .reset ∧ t.glb.porst = true ∧
    t.glb.locked = false ∧ t.now = 0 ∧ (∀ o, rd t o = regReset o) ∧ UnitsReset t ∧ t.hst = State.reset.hst ∧
    (s.jrn.busy = none → t.jrn.records = s.jrn.records) ∧ t.ldr.otpSvn = s.ldr.otpSvn ∧ t.ldr.otpKey = s.ldr.otpKey ∧
    t.pending = s.pending) ∧
  (∀ w s, w < 100 → Completes (.porstAssert w) s s) ∧
  (∀ s, s.glb.state ≠ .off → ∃ t, exec .powerLoss s = .next t ∧ t.glb.state = .off ∧ t.glb.locked = false ∧
    (∀ o, rd t o = regReset o) ∧ UnitsReset t ∧ t.hst = State.reset.hst ∧ (s.jrn.busy = none → t.jrn.records = s.jrn.records) ∧
    t.ldr.otpSvn = s.ldr.otpSvn ∧ t.ldr.otpKey = s.ldr.otpKey ∧ t.pending = s.pending) ∧
  (∀ s, s.glb.state = .off →
    Completes .powerOn s { s with glb := { s.glb with state := .reset, porst := true } }) ∧
  (∀ w s, 100 ≤ w → s.glb.state ≠ .off → s.glb.porst = false → s.Inv →
    ∃ t, exec (.warmrstAssert w) s = .next t ∧ t.glb.state = .reset ∧
    t.glb.warmrst = true ∧ t.glb.locked = s.glb.locked ∧ t.now = s.now ∧ UnitsReset t ∧
    fld t R.GLB_RSTCAUSE 0 0 = 0 ∧ fld t R.GLB_RSTCAUSE 1 1 = 1 ∧ fld t R.GLB_RSTCAUSE 3 2 = fld s R.GLB_RSTCAUSE 3 2 ∧
    fld t R.GLB_RSTCAUSE 31 16 = satInc 16 (fld s R.GLB_RSTCAUSE 31 16) ∧
    (∀ o, 0x020000 ≤ o → o < 0x040000 → o ≠ R.HST_INVCTL → o ≠ R.HST_EVCFG → rd t o = rd s o) ∧
    (s.jrn.busy = none → t.jrn.records = s.jrn.records) ∧ t.ldr.otpSvn = s.ldr.otpSvn ∧ t.ldr.otpKey = s.ldr.otpKey ∧
    t.pending = s.pending) ∧
  (∀ w s, w < 100 → Completes (.warmrstAssert w) s s)

/-- The way from RESET to IMAGE_LOAD: the releases of the reset inputs and the lock of the root VCO. Loss and return of the root lock.
(01_architecture.md R28, 01_architecture.md R35, 03_bring_up.md R83) -/
def Obligations.ResetReleases : Prop :=
  (∀ b m r s, s.glb.porst = true → s.glb.state = .reset → s.glb.warmrst = false → s.glb.locked = true → s.glb.casSampled = false →
    Completes (.porstRelease b m r) s (refreshAll (gatesAct (startLoad (goto .imageLoad 0 (setF R.GLB_RSTCAUSE 4 4 (b2n m)
      (setF R.GLB_RSTCAUSE 3 2 b.toNat
        { s with glb := { s.glb with porst := false, refsel := r, casPin := m, released := s.now, casSampled := true } }))))))) ∧
  (∀ b m r s, s.glb.porst = true → s.glb.state = .reset → s.glb.locked = false →
    Completes (.porstRelease b m r) s (setF R.GLB_RSTCAUSE 3 2 b.toNat
      { s with glb := { s.glb with porst := false, refsel := r, casPin := m, released := s.now } })) ∧
  (∀ s, s.glb.warmrst = true → s.glb.state = .reset → s.glb.porst = false → s.glb.locked = true → s.glb.casSampled = true →
    Completes .warmrstRelease s
      (refreshAll (gatesAct (startLoad (goto .imageLoad 0 { s with glb := { s.glb with warmrst := false, released := s.now } }))))) ∧
  (∀ s, s.glb.state = .reset → s.glb.locked = false → s.glb.porst = true ∨ s.glb.warmrst = true →
    Completes .rootVcoLock s { s with now := 0, glb := { s.glb with locked := true, released := s.glb.released - s.now } }) ∧
  (∀ s, s.glb.state = .reset → s.glb.locked = false → s.glb.porst = false → s.glb.warmrst = false → s.glb.casSampled = false →
    Completes .rootVcoLock s (refreshAll (gatesAct (startLoad (goto .imageLoad 0 (setF R.GLB_RSTCAUSE 4 4 (b2n s.glb.casPin)
      { s with now := 0, glb := { s.glb with locked := true, released := s.glb.released - s.now, casSampled := true } })))))) ∧
  (∀ s, s.glb.state = .imageLoad → s.gate.kill = false → s.gate.hopen = 0 → s.gate.jam = 0 → s.gate.mediaOut = false →
    (gatesAct s).glb = s.glb ∧ (gatesAct s).ldr = s.ldr) ∧
  (∀ s, (startLoad s).glb = s.glb ∧ (startLoad s).ldr.cold = true ∧ (startLoad s).ldr.staged = [] ∧
    (startLoad s).ldr.phase = if fld s R.GLB_RSTCAUSE 3 2 = 2 then .waitPush else .reading) ∧
  (∀ n s, s.glb.locked = true → s.glb.state = .reset →
    Completes (.clockUnlock n) s { s with glb := { s.glb with locked := false } }) ∧
  (∀ n s, s.glb.locked = true → s.glb.state = .imageLoad →
    ∃ t, exec (.clockUnlock n) s = .next t ∧ t.glb.state = .imageLoad ∧ t.glb.loadStopped = true ∧ t.glb.locked = false ∧
      t.ldr = s.ldr) ∧
  (∀ n s, s.glb.locked = true → haltable s = true →
    ∃ t, exec (.clockUnlock n) s = .next t ∧ t.glb.state = .safeHold) ∧
  (∀ n s, s.glb.locked = false → s.glb.state ≠ .off → s.glb.state ≠ .reset → s.glb.lossRaised = true →
    Completes (.clockRelock n) s (logEvent Ev.GLB_CLOCK_RELOCK 0xFF (min n 0xFFFFFFFF) s.glb.state.code 0
      (restartLoader { s with glb := { s.glb with locked := true, lossRaised := false } }))) ∧
  (∀ n s, s.glb.locked = false → s.glb.state ≠ .off → s.glb.state ≠ .reset → s.glb.lossRaised = false →
    Completes (.clockRelock n) s (restartLoader { s with glb := { s.glb with locked := true, lossRaised := false } })) ∧
  (∀ s, s.glb.loadStopped = false → restartLoader s = s) ∧ (∀ s, (restartLoader s).glb.loadStopped = false) ∧
  (∀ n s, s.glb.locked = false → s.glb.state = .reset → s.glb.porst = false → s.glb.warmrst = false →
    ∃ t, exec (.clockRelock n) s = .next t ∧ t.glb.state = .imageLoad)

/-- The PCIe side: its reset, the release, and the trained link. That Max_Read_Request_Size and Extended Tag Field Enable come with the
link is the model's choice (log 78). (03_bring_up.md R98, 03_bring_up.md R101, 18_register_map.md R546) -/
def Obligations.PcieReset : Prop :=
  (∀ s, s.glb.state ≠ .off → s.glb.state ≠ .reset → s.glb.perst = false →
    Completes .pciePerstAssert s (logEvent Ev.BRU_PCIE_RESET 0xFF s.glb.state.code 0 0 (dmaPauseAll 4 (pcieDown s)))) ∧
  (∀ s, s.glb.state = .reset → s.glb.perst = false → Completes .pciePerstAssert s (pcieDown s)) ∧
  (∀ s o, s.Inv → (o < 0x020000 ∨ 0x040000 ≤ o) → o ≠ R.GLB_RSTCAUSE → rd (pcieDown s) o = rd s o) ∧
  (∀ s, s.Inv → fld (pcieDown s) R.GLB_RSTCAUSE 5 5 = 1 ∧ rd (pcieDown s) R.HST_EVHEAD = regReset R.HST_EVHEAD ∧
    rd (pcieDown s) R.HST_EVCFG = regReset R.HST_EVCFG ∧ rd (pcieDown s) R.HST_EVTAIL = regReset R.HST_EVTAIL ∧
    rd (pcieDown s) R.HST_EVSEQ = rd s R.HST_EVSEQ ∧ rd (pcieDown s) R.HST_LANSEQ = rd s R.HST_LANSEQ) ∧
  (∀ s, Completes .pciePerstRelease s { s with glb := { s.glb with perst := false } }) ∧
  (∀ v w s s1, s.glb.porst = false → s.glb.perst = false → s.glb.state ≠ .off →
    s1 = { s with hst := { s.hst with linkSpeed := v, linkWidth := w.width, cfgReady := true, maxRead := 128 * 2 ^ w.maxRead.val,
                                      extTag := w.extTag } } →
    Completes (.pcieLinkUp v w) s s1)

/-- The global commands where they are accepted: the status word and the state that follows; a campanile broadcasts its START and STOP. A
HALT condition that an entry meets leads on to SAFE_HOLD. (01_architecture.md R40, 01_architecture.md R35) -/
def Obligations.GlobalCommandsAccepted : Prop :=
  (∀ s, s.Inv → s.glb.state = .idle → readyToArm s = true → membersNotArmed s = false → (useMaps s).glb.state = .idle →
    ∃ t, exec .glbArm s = .next t ∧ (t.glb.state = .armed ∨ t.glb.state = .safeHold) ∧
      rd t R.GLB_CMD_STATUS = accepted 1 .idle) ∧
  (∀ s, s.Inv → s.glb.state = .armed → isMember s = false → isCampanile s = false →
    ∃ t, exec .glbStart s = .next t ∧ (t.glb.state = .print ∨ t.glb.state = .stopping ∨ t.glb.state = .safeHold) ∧
      rd t R.GLB_CMD_STATUS = accepted 2 .armed) ∧
  (∀ s, s.glb.state = .armed → isMember s = false → isCampanile s = true → membersNotArmed s = false →
    Completes .glbStart s (wr R.GLB_CMD_STATUS (accepted 2 .armed) (startChain s))) ∧
  (∀ s, ∃ ts, startChain s = casMsg 0x01 (leBytes 8 ts) { s with cas := { s.cas with ts := some ts } } ∧
    tickPeriod s ∣ ts ∧ s.now + fld s R.CAS_CMDLEAD 15 0 ≤ ts ∧ ts < s.now + fld s R.CAS_CMDLEAD 15 0 + tickPeriod s) ∧
  (∀ s, s.Inv → s.glb.state = .print → isMember s = false →
    ∃ t, exec .glbStop s = .next t ∧ (t.glb.state = .stopping ∨ t.glb.state = .safeHold) ∧
      rd t R.GLB_CMD_STATUS = accepted 3 .print) ∧
  (∀ s, s.glb.state = .armed ∨ s.glb.state = .stopping → isMember s = false → isCampanile s = false →
    Completes .glbStop s (wr R.GLB_CMD_STATUS (accepted 3 s.glb.state) s)) ∧
  (∀ s, s.glb.state = .armed ∨ s.glb.state = .stopping → isMember s = false → isCampanile s = true →
    Completes .glbStop s (wr R.GLB_CMD_STATUS (accepted 3 s.glb.state) (casMsg 0x02 [] s))) ∧
  (∀ s, s.Inv → s.glb.state = .armed →
    ∃ t, exec .glbDisarm s = .next t ∧ t.glb.state = .idle ∧
      rd t R.GLB_CMD_STATUS = accepted 4 .armed) ∧
  (∀ s, invarAgrees s R.FIR_HOPENMAP01 = true → invarAgrees s R.FIR_HOPENMAP23 = true → useMaps s = s ∧
    (invarAgrees s R.FIR_GATEEN = true → useInvar [R.FIR_HOPENMAP01, R.FIR_HOPENMAP23, R.FIR_GATEEN] s = s)) ∧
  (∀ s, s.Inv → s.glb.state = .safeHold → causeActive (useInvar [R.FIR_HOPENMAP01, R.FIR_HOPENMAP23, R.FIR_GATEEN] s) = false →
    ∃ t, exec .glbRecover s = .next t ∧ t.glb.state = .idle ∧ rd t R.GLB_CMD_STATUS = accepted 5 .safeHold) ∧
  (∀ s, s.Inv → s.glb.state = .idle ∨ s.glb.state = .armed ∨ s.glb.state = .safeHold →
    ∃ t, exec .glbShutdown s = .next t ∧ t.glb.state = .shutdown ∧ rd t R.GLB_CMD_STATUS = accepted 8 s.glb.state) ∧
  (∀ s, stoppingDone s = true → ∃ t, exec .stoppingComplete s = .next t ∧ (t.glb.state = .armed ∨ t.glb.state = .safeHold)) ∧
  (∀ s, stoppingDone s = false → Completes .stoppingComplete s s)

/-- The global commands where they are refused: GLB_CMD_STATUS takes the result and the state at the refusal, GLB_CMD_REJECT is raised, and
nothing else changes but what an Invar register that disagrees with its complement does. (01_architecture.md R40) -/
def Obligations.GlobalCommandsRefused : Prop :=
  (∀ s, s.glb.state ≠ .off → s.glb.state ≠ .idle → s.glb.state ≠ .armed →
    Completes .glbArm s (glbResult 1 2 s.glb.state.code s)) ∧
  (∀ s, s.glb.state = .idle → readyToArm s = false ∨ membersNotArmed s = true → Completes .glbArm s (glbResult 1 5 5 s)) ∧
  (∀ s, s.glb.state = .idle → readyToArm s = true → membersNotArmed s = false → (useMaps s).glb.state ≠ .idle →
    Completes .glbArm s (glbResult 1 2 (useMaps s).glb.state.code (useMaps s))) ∧
  (∀ s, s.glb.state ≠ .off → s.glb.state ≠ .armed → s.glb.state ≠ .print →
    Completes .glbStart s (glbResult 2 2 s.glb.state.code s)) ∧
  (∀ s, s.glb.state ≠ .off → isMember s = true →
    Completes .glbStart s (glbResult 2 2 s.glb.state.code s) ∧ Completes .glbStop s (glbResult 3 2 s.glb.state.code s)) ∧
  (∀ s, s.glb.state ≠ .off → s.glb.state ≠ .armed → s.glb.state ≠ .print → s.glb.state ≠ .stopping →
    Completes .glbStop s (glbResult 3 2 s.glb.state.code s)) ∧
  (∀ s, s.glb.state ≠ .off → s.glb.state ≠ .idle → s.glb.state ≠ .armed →
    Completes .glbDisarm s (glbResult 4 2 s.glb.state.code s)) ∧
  (∀ s, s.glb.state ≠ .off → s.glb.state ≠ .idle → s.glb.state ≠ .safeHold →
    Completes .glbRecover s (glbResult 5 2 s.glb.state.code s)) ∧
  (∀ s u, s.glb.state = .safeHold → u = useInvar [R.FIR_HOPENMAP01, R.FIR_HOPENMAP23, R.FIR_GATEEN] s → causeActive u = true →
    Completes .glbRecover s (glbResult 5 4 9 u)) ∧
  (∀ cmd res code s, res ≠ 1 → glbResult cmd res code s =
    logEvent Ev.GLB_CMD_REJECT 0xFF cmd code res (wr R.GLB_CMD_STATUS (BitVec.ofNat 32 (res + 16 * code + 256 * cmd)) s))

/-- SELFTEST: what the end of each activity does. The memory test: where every way has a free spare for each fault found and the tables
arrays can be repaired, it is done; else it fails with the first bank that has none (instance 8 for the tables arrays), and the ways. A
fault takes a free spare of its way as a soft repair; fuses load once after a reset. The background that a tested bank holds is the
model's reading (log 66). LINK_TRAIN: the training of the page store's channels and the initialisation of its ECC. A channel fails at
its second failed attempt; the activity is done once every channel is trained, and with inline ECC once its initialisation is; XMC_STAT
shows the trained channels and, when it is done, ECC and the usable capacity. LINK_TRAIN goes to IDLE when no activity is left. RETRY
where it restarts a failed activity: GLB_BRUERR reads 0, the result is ACCEPTED and BRU_RETRY is raised. In SELFTEST all its activities
start again; that a cold start then scans the journal again, and counts the boot again, is the model's choice (log 78). (03_bring_up.md
R85, 03_bring_up.md R87, 03_bring_up.md R89, 03_bring_up.md R90, 03_bring_up.md R103) -/
def Obligations.BringUp : Prop :=
  (∀ fuse found s, s.glb.state = .selftest → s.bru.memory = .running → testReady s = true →
    (∀ b ∈ testBanks s, waysShort (testLoaded fuse s) found b = []) →
    Completes (.selftestActivityDone (.memory fuse found false)) s (selftestEnd { testRepaired fuse found s with
      bru := { (testRepaired fuse found s).bru with memory := .done } })) ∧
  (∀ fuse found tables s b, s.glb.state = .selftest → s.bru.memory = .running → testReady s = true →
    (testBanks s).find? (fun b => !(waysShort (testLoaded fuse s) found b).isEmpty) = some b →
    Completes (.selftestActivityDone (.memory fuse found tables)) s (bruErr Ev.BRU_SELFTEST_FAIL b 1
      (logEvent Ev.BRU_SELFTEST_FAIL b 1 b (maskOf 8 (fun m => (waysShort (testLoaded fuse s) found b).contains m))
        { testRepaired fuse found s with bru := { (testRepaired fuse found s).bru with memory := .failed } }))) ∧
  (∀ fuse found s, s.glb.state = .selftest → s.bru.memory = .running → testReady s = true → s.ldr.cold = true →
    (∀ b ∈ testBanks s, waysShort (testLoaded fuse s) found b = []) →
    Completes (.selftestActivityDone (.memory fuse found true)) s (bruErr Ev.BRU_SELFTEST_FAIL 8 1
      (logEvent Ev.BRU_SELFTEST_FAIL 8 1 8 0
        { testRepaired fuse found s with bru := { (testRepaired fuse found s).bru with memory := .failed } }))) ∧
  (∀ found (b m : Fin 8) s, vat (bankRepair found b s).mem.used (8 * b + m) =
    vat s.mem.used (8 * b + m) + min (vat found (8 * b + m)).toNat (20 - vat s.mem.used (8 * b + m))) ∧
  (∀ fuse (b m : Fin 8) s, vat (bankFuses fuse b s).mem.used (8 * b + m) = (vat fuse (8 * b + m)).toNat) ∧
  (∀ fuse s, s.mem.fused = true → loadFuses fuse s = s) ∧
  (∀ fuse found tables s, s.glb.state = .selftest → testReady s = false →
    Completes (.selftestActivityDone (.memory fuse found tables)) s s) ∧
  (∀ s, s.glb.state = .selftest → s.bru.journal = .running →
    Completes (.selftestActivityDone (.journal true)) s
      (selftestEnd { journalScan s with bru := { (journalScan s).bru with journal := .done } })) ∧
  (∀ s, s.glb.state = .selftest → s.bru.journal = .running →
    Completes (.selftestActivityDone (.journal false)) s (bruErr Ev.BRU_SELFTEST_FAIL 0 2
      (logEvent Ev.BRU_SELFTEST_FAIL 0 2 0 0 { s with bru := { s.bru with journal := .failed } }))) ∧
  (∀ s, s.glb.state = .selftest → s.bru.invar = .running →
    Completes (.selftestActivityDone (.invarChecker none)) s (selftestEnd { s with bru := { s.bru with invar := .done } })) ∧
  (∀ c s, s.glb.state = .selftest → s.bru.invar = .running →
    Completes (.selftestActivityDone (.invarChecker (some c))) s (bruErr Ev.BRU_SELFTEST_FAIL c.toNat 3
      (logEvent Ev.BRU_SELFTEST_FAIL c.toNat 3 c.toNat 0 { s with bru := { s.bru with invar := .failed } }))) ∧
  (∀ s, s.glb.state = .selftest → s.bru.adc = .running →
    Completes (.selftestActivityDone (.adc none)) s (selftestEnd { s with bru := { s.bru with adc := .done } })) ∧
  (∀ c s, s.glb.state = .selftest → s.bru.adc = .running →
    Completes (.selftestActivityDone (.adc (some c))) s (bruErr Ev.BRU_SELFTEST_FAIL c.val 4
      (logEvent Ev.BRU_SELFTEST_FAIL c.val 4 c.val 0 { s with bru := { s.bru with adc := .failed } }))) ∧
  (∀ s, s.glb.state = .selftest → selftestAct s = .done →
    selftestEnd s = enterLinkTrain (logEvent Ev.BRU_SELFTEST_DONE 0xFF (((s.now : Int) - s.bru.stFrom) / 400).toNat s.bru.tested.toNat
      s.bru.repairs s)) ∧
  (∀ s, selftestAct s ≠ .done → selftestEnd s = s) ∧
  (∀ ch phase s, s.glb.state = .linkTrain → s.bru.xmc = .running → ch.val < xmcChannels s →
    bitOf s.bru.xmcTrained.toNat ch.val = false → vat s.bru.xmcTries ch.val < 2 →
    Completes (.xmcTrainDone ch true phase) s (bruCheck (xmcReport { s with bru := { s.bru with
      xmcTrained := s.bru.xmcTrained ||| BitVec.ofNat 4 (2 ^ ch.val),
      xmc := if ((List.range (xmcChannels s)).all (fun c => bitOf (s.bru.xmcTrained ||| BitVec.ofNat 4 (2 ^ ch.val)).toNat c)) = true ∧
          xmcEcc s = false then .done else .running } }))) ∧
  (∀ ch phase s, s.glb.state = .linkTrain → s.bru.xmc = .running → ch.val < xmcChannels s →
    bitOf s.bru.xmcTrained.toNat ch.val = false → vat s.bru.xmcTries ch.val = 0 →
    Completes (.xmcTrainDone ch false phase) s { s with bru := { s.bru with xmcTries := vset s.bru.xmcTries ch.val 1 } }) ∧
  (∀ ch phase s, s.glb.state = .linkTrain → s.bru.xmc = .running → ch.val < xmcChannels s →
    bitOf s.bru.xmcTrained.toNat ch.val = false → vat s.bru.xmcTries ch.val = 1 →
    Completes (.xmcTrainDone ch false phase) s (bruErr Ev.BRU_XMC_TRAIN_FAIL ch.val phase.toNat
      (logEvent Ev.BRU_XMC_TRAIN_FAIL ch.val ch.val phase.toNat 2
        { s with bru := { s.bru with xmcTries := vset s.bru.xmcTries ch.val 2, xmc := .failed } }))) ∧
  (∀ s, s.glb.state = .linkTrain → s.bru.xmc = .running → xmcEcc s = true →
    (∀ c, c < xmcChannels s → bitOf s.bru.xmcTrained.toNat c = true) →
    Completes .xmcEccInitDone s (bruCheck (xmcReport { s with page := [], bru := { s.bru with xmc := .done } }))) ∧
  (∀ s, s.Inv → fld (xmcReport s) R.XMC_STAT 3 0 = s.bru.xmcTrained.toNat ∧
    fld (xmcReport s) R.XMC_STAT 4 4 = (if s.bru.xmc = .done ∧ xmcEcc s = true then 1 else 0) ∧
    fld (xmcReport s) R.XMC_STAT 31 16 = (if s.bru.xmc = .done then xmcUsable s / 2 ^ 28 % 65536 else 0)) ∧
  (∀ s, s.glb.state = .linkTrain → s.bru.xmc = .done ∨ s.bru.xmc = .skipped → portsAct s = .done →
    s.bru.cascade = .done ∨ s.bru.cascade = .skipped → (bruCheck s).glb.state = .idle) ∧
  (∀ s, s.bru.xmc = .running ∨ s.bru.xmc = .failed → bruCheck s = s) ∧
  (∀ s, s.glb.state = .selftest → selftestAct s = .failed →
    Completes .bruRetry s (logEvent Ev.BRU_RETRY 0xFF 3 1 0
      (setF R.GLB_BRUSTAT 17 16 1 (startSelftest (wr R.GLB_BRUERR 0 s))))) ∧
  (∀ s, s.glb.state = .linkTrain → s.bru.xmc = .failed → s.bru.cascade ≠ .failed → (∀ p, portStuck s p = false) →
    Completes .bruRetry s (logEvent Ev.BRU_RETRY 0xFF 4 2 0
      (setF R.GLB_BRUSTAT 17 16 1 (xmcRetry (wr R.GLB_BRUERR 0 s))))) ∧
  (∀ s, s.glb.state = .linkTrain → s.bru.xmc ≠ .failed → s.bru.cascade ≠ .failed → (∀ p, portStuck s p = false) →
    Completes .bruRetry s (setF R.GLB_BRUSTAT 17 16 2 s)) ∧
  (∀ s, s.glb.state = .idle → s.bru.incomplete = false → those 16 (portAbsent s) ≠ [] →
    Completes .bruRetry s (logEvent Ev.BRU_RETRY 0xFF 5 4 0
      (setF R.GLB_BRUSTAT 17 16 1 (forEach (those 16 (portAbsent s)) startSeries (wr R.GLB_BRUERR 0 s))))) ∧
  (∀ s, s.glb.state = .armed ∨ s.glb.state = .print → Completes .bruRetry s (setF R.GLB_BRUSTAT 17 16 2 s)) ∧
  (∀ s, (startSelftest s).bru.memory = .running ∧ (startSelftest s).glb = s.glb ∧
    (s.ldr.cold = false → (startSelftest s).bru.journal = .skipped ∧ (startSelftest s).bru.invar = .skipped ∧
      (startSelftest s).bru.adc = .skipped) ∧
    (s.ldr.cold = true → (startSelftest s).bru.journal = .running ∧ (startSelftest s).bru.invar = .running ∧
      (startSelftest s).bru.adc = .running))

/-- The throttle in force is the more severe of the forced and the automatic one; the voltage moves one code at a time. (01_architecture.md
R30, 01_architecture.md R31, 19_electrical.md R552, 19_electrical.md R553) -/
def Obligations.ThrottleAndVoltage : Prop :=
  (∀ s, 2 ≤ s.glb.state.code → thrRank (thrAuto s).1 (thrAuto s).2 ≤ thrRank (thrForced s).1 (thrForced s).2 →
    ¬((thrForced s).1 = s.glb.div.val ∧ (thrForced s).2 = s.glb.skip.val) →
    Completes .throttleApply s (logEvent Ev.GLB_THROTTLE 0xFF (thrForced s).1 (thrForced s).2 (thrCause s)
      { s with glb := { s.glb with div := Fin.ofNat 3 (thrForced s).1, skip := Fin.ofNat 16 (thrForced s).2, thrAt := s.now } })) ∧
  (∀ s, 2 ≤ s.glb.state.code → thrRank (thrForced s).1 (thrForced s).2 < thrRank (thrAuto s).1 (thrAuto s).2 →
    ¬((thrAuto s).1 = s.glb.div.val ∧ (thrAuto s).2 = s.glb.skip.val) →
    Completes .throttleApply s (logEvent Ev.GLB_THROTTLE 0xFF (thrAuto s).1 (thrAuto s).2 (thrCause s)
      { s with glb := { s.glb with div := Fin.ofNat 3 (thrAuto s).1, skip := Fin.ofNat 16 (thrAuto s).2, thrAt := s.now } })) ∧
  (∀ s, 5 ≤ s.glb.state.code → s.glb.avsAt = 0 ∨ s.glb.avsAt + 20000 ≤ s.now → s.glb.thrAt = 0 ∨ s.now ≠ s.glb.thrAt →
    s.glb.avs.val < 36 →
    Completes (.avsCodeStep true) s (emit (.pin "AVS_VID" 0 (s.glb.avs.val + 1))
      { s with glb := { s.glb with avs := Fin.ofNat 37 (s.glb.avs.val + 1), avsAt := s.now } })) ∧
  (∀ s, 5 ≤ s.glb.state.code → s.glb.avsAt = 0 ∨ s.glb.avsAt + 20000 ≤ s.now → s.glb.thrAt = 0 ∨ s.glb.thrAt + 40000 ≤ s.now →
    avsFixed s = false → 0 < s.glb.avs.val →
    Completes (.avsCodeStep false) s (emit (.pin "AVS_VID" 0 (s.glb.avs.val - 1))
      { s with glb := { s.glb with avs := Fin.ofNat 37 (s.glb.avs.val - 1), avsAt := s.now } }))

/-- An image whose bytes have arrived is checked, and committed or refused with its error. What follows a failed source: slot B after slot
A; after slot B in boot mode 3, at a start, a host push; else FAILED. (02_alloy_image.md R64, 02_alloy_image.md R68, 02_alloy_image.md
R69, 02_alloy_image.md R578) -/
def Obligations.ImageSources : Prop :=
  (∀ b s, readingFlash s = true → Completes (.flashReadDone b) s (checkAndCommit b none 0 s)) ∧
  (∀ src s, s.glb.state = .imageLoad → s.ldr.phase = .pushing → s.glb.loadStopped = false →
    Completes (.pushEnd src) s (checkAndCommit s.ldr.staged (some s.ldr.staged.length) (fld s R.IMG_PUSHCNT 31 21) (imgTaken 2 src s))) ∧
  (∀ src s, s.glb.state = .imageLoad → s.ldr.phase = .pushing → s.glb.loadStopped = true →
    Completes (.pushEnd src) s { imgTaken 2 src s with ldr := { s.ldr with phase := .checking } }) ∧
  (∀ b n v s, checkAndCommit b n v s =
    match checkImage s b n v s.ldr.source with
    | .ok i => commit ⟨s.ldr.image, i, sectionsOf b, !i.amended⟩ s
    | .error f => nextSource f.kind.code.toNat (imgError f s)) ∧
  (∀ s, readingFlash s = true → Completes .sfdpTimeout s (sourceFail (slotBase s) 1 s)) ∧
  (∀ a s, readingFlash s = true → flash8d s = true → Completes (.flashStrobeTimeout a) s (sourceFail a.toNat 2 s)) ∧
  (∀ b a s, readingFlash s = false → Completes (.flashReadDone b) s s ∧ Completes .sfdpTimeout s s ∧ Completes (.flashStrobeTimeout a) s s) ∧
  (∀ code s, s.ldr.source = .slotA → nextSource code s = logEvent Ev.IMG_SLOT_FALLBACK 0xFF code 0 0
    { s with ldr := { s.ldr with phase := .reading, source := .slotB, staged := [] } }) ∧
  (∀ code s, s.ldr.source = .slotB → s.ldr.reload = false → fld s R.GLB_RSTCAUSE 3 2 = 3 →
    nextSource code s = { s with ldr := { s.ldr with phase := .waitPush, source := .push, staged := [] } }) ∧
  (∀ code s, s.ldr.source = .slotB → s.ldr.reload = true ∨ fld s R.GLB_RSTCAUSE 3 2 ≠ 3 →
    nextSource code s = { s with ldr := { s.ldr with phase := .failed, staged := [] } }) ∧
  (∀ code s, s.ldr.source = .push → nextSource code s = { s with ldr := { s.ldr with phase := .failed, staged := [] } }) ∧
  (∀ f s, s.Inv → rd (imgError f s) R.IMG_ERRARG = BitVec.ofNat 32 f.arg &&& regStored R.IMG_ERRARG ∧
    fld (imgError f s) R.IMG_ERR 15 0 = f.kind.code.toNat ∧
    fld (imgError f s) R.IMG_ERR 31 24 = satInc 8 (fld s R.IMG_ERR 31 24))

/-- RELOAD in IDLE leads to IMAGE_LOAD, its source by IMG_CTL.src: a host push, slot B alone, or the slots in order. The loader's commands
where they are accepted, and the bytes of a host push. The start of a load with no key provisioned raises IMG_KEY_UNPROVISIONED, once
(the model's reading, log 19). (02_alloy_image.md R61, 02_alloy_image.md R67, 02_alloy_image.md R71, 02_alloy_image.md R76,
02_alloy_image.md R77) -/
def Obligations.LoaderCommands : Prop :=
  (∀ s, s.Inv → s.glb.state = .idle → ∃ t, exec .glbReload s = .next t ∧ t.glb.state = .imageLoad ∧
    rd t R.GLB_CMD_STATUS = accepted 6 .idle ∧ t.ldr.reload = true ∧ t.ldr.cold = false ∧ t.ldr.staged = [] ∧
    t.ldr.image = s.ldr.image) ∧
  (∀ s, s.glb.state ≠ .off → s.glb.state ≠ .idle → Completes .glbReload s (glbResult 6 2 s.glb.state.code s)) ∧
  (∀ src s, s.glb.state = .imageLoad → s.ldr.phase = .waitPush ∨ s.ldr.phase = .failed ∨ s.ldr.phase = .pushing →
    Completes (.pushBegin src) s (loadBegins (wr R.IMG_PUSHCNT 0
      { imgTaken 1 src s with ldr := { s.ldr with phase := .pushing, source := .push, staged := [] } }))) ∧
  (∀ s, unprovisioned s = false → loadBegins s = s) ∧
  (∀ s, unprovisioned s = true → loadBegins s = logEvent Ev.IMG_KEY_UNPROVISIONED 0xFF 0 0 0 s) ∧
  (∀ d s, windowOpen s 0 R.IMG_DATA true = true → s.glb.state = .imageLoad → s.ldr.phase = .pushing → s.glb.loadStopped = false →
    s.ldr.staged.length < 1048576 →
    Completes (.imgDataWrite d) s (setF R.IMG_PUSHCNT 20 0 (s.ldr.staged.length + 4)
      { hostAccess s with ldr := { s.ldr with staged := s.ldr.staged ++ leBytes 4 d.toNat } })) ∧
  (∀ d s, windowOpen s 0 R.IMG_DATA true = true → s.glb.state = .imageLoad → s.ldr.phase = .pushing → s.glb.loadStopped = false →
    1048576 ≤ s.ldr.staged.length →
    Completes (.imgDataWrite d) s (incF R.IMG_PUSHCNT 31 21 (hostAccess s))) ∧
  (∀ d s, windowOpen s 0 R.IMG_DATA true = true → s.glb.state ≠ .imageLoad ∨ s.ldr.phase ≠ .pushing ∨ s.glb.loadStopped = true →
    Completes (.imgDataWrite d) s (hostAccess s)) ∧
  (∀ src s, s.Inv → s.glb.state = .imageLoad → s.ldr.phase = .waitPush ∨ s.ldr.phase = .failed →
    Completes (.retryFlash src) s (loadBegins { imgTaken 3 src s with ldr := { s.ldr with
      phase := .reading, source := if src = 1 then .slotB else .slotA, staged := [] } })) ∧
  (∀ src s, s.glb.state = .imageLoad → s.ldr.reload = true →
    s.ldr.phase = .waitPush ∨ s.ldr.phase = .failed ∨ s.ldr.phase = .pushing →
    ∃ t, exec (.revert src) s = .next t ∧ t.glb.state = .idle) ∧
  (∀ src s, s.glb.state = .idle →
    Completes (.svnCommit src) s (logEvent Ev.IMG_SVN_COMMITTED 0xFF s.ldr.otpSvn (max s.ldr.otpSvn ((s.ldr.image.map Image.svn).getD 0)) 0
      { imgTaken 5 src s with ldr := { s.ldr with otpSvn := max s.ldr.otpSvn ((s.ldr.image.map Image.svn).getD 0) } })) ∧
  (∀ src s, windowOpen s 0 R.IMG_CTL true = true → s.glb.state ≠ .off →
    Completes (.imgSrcWrite src) s (setF R.IMG_CTL 5 4 src.toNat (hostAccess s))) ∧
  (∀ src s, s.glb.state ≠ .off → s.glb.state ≠ .idle →
    Completes (.svnCommit src) s (logEvent Ev.IMG_CMD_REJECT 0xFF 5 s.glb.state.code s.ldr.phase.code
      (wr R.IMG_CMD_STATUS (BitVec.ofNat 32 (2 + 16 * s.glb.state.code + 256 * 5 + 4096 * s.ldr.phase.code))
        (setF R.IMG_CTL 5 4 src.toNat s))))

/-- The data path between the ring and the head. The line whose assembly ends joins the lines of its port; the pipe starts on its next line
when R127 lets it, and the port sends what it can. A fetch that ends brings its row's next line into the prefetch store, but with an
error that ECC cannot correct brings none. The evaluation of R130 sets DOT_Pn_FILL from fill and the prediction, checks the low
watermark, and with the prediction below the guard raises DOT_UNDERRUN_PREDICTED and asks for a seamless stop. The host's commit of
lines: forward within the ring's limit, else ignored with DOT_WLINE_BAD. That an unbound pipe's WLINE moves too is the model's choice
(log 24). (04_dot_data.md R117, 04_dot_data.md R127, 04_dot_data.md R130) -/
def Obligations.DotLines : Prop :=
  (∀ p l s, (dp s p.val).asm = some l →
    Completes (.lineAssemblyDone p) s (portPump 8 (pipePort s p) (pumpPipe p
      (modHlp (pipePort s p) (fun h => { h with lines := h.lines ++ [l] }) (modDot p (fun x => { x with asm := none }) s))))) ∧
  (∀ p s, mayAssemble s p = false → pumpPipe p s = s) ∧
  (∀ (p : Fin 16) s, mayAssemble s p = true → ∃ l, (dp (pumpPipe p s) p).asm = some l ∧ l.line = (dp s p).a ∧
    (dp (pumpPipe p s) p).a = ((dp s p).a + 1) % 2 ^ 32) ∧
  (∀ (p : Fin 16) (row : Fin 8) m s, dotPaged s p = true → (dp s p).st ≠ .off → rowPresent s p row = true →
    (wantedLines s p row).find? (fun m => !(dp s p).pre.any (fun y => y.row = row.val && y.line = m)) = some m →
    Completes (.prefetchDone p row []) s (pumpPipe p (modDot p (fun x => { x with
      pre := (dp s p).pre.filter (fun y => y.row ≠ row.val || (wantedLines s p row).contains y.line) ++
        [⟨row.val, m, pageRead s (ringAddr s p (rowPlane s p row) m) (plBytes s p)⟩] }) s)) ∧
    ∀ u c, xmcEcc s = true → u < eccUnits (ringAddr s p (rowPlane s p row) m) (plBytes s p) →
      Completes (.prefetchDone p row [⟨u, c, true⟩]) s (eccUncorr (32 * (ringAddr s p (rowPlane s p row) m / 32 + u)) 2 s)) ∧
  (∀ (p : Fin 16) s u, pipeBound s p = true → (dp s p).st = .run → invarAgrees s R.DOT_UGUARD = true →
    invarAgrees s (R.DOT_Pn_LOWM p) = true → u = modDot p (winRoll s) s →
    fld s R.DOT_PREDCFG 16 16 = 0 ∨ (fld s R.DOT_UGUARD 7 0 : Int) ≤ dotFill u p + dotDrift u (dp u p) →
    Completes (.underrunPredictTimer p) s (lowCheck p (dotFill u p)
      (setF (R.DOT_Pn_FILL p) 31 16 (narrow 16 (satS 16 (dotFill u p + dotDrift u (dp u p))))
        (setF (R.DOT_Pn_FILL p) 15 0 (narrow 16 (satS 16 (dotFill u p))) u)))) ∧
  (∀ (p : Fin 16) s u, pipeBound s p = true → (dp s p).st = .run → invarAgrees s R.DOT_UGUARD = true →
    invarAgrees s (R.DOT_Pn_LOWM p) = true → u = modDot p (winRoll s) s →
    fld s R.DOT_PREDCFG 16 16 = 1 → dotFill u p + dotDrift u (dp u p) < fld s R.DOT_UGUARD 7 0 →
    Completes (.underrunPredictTimer p) s (ssAsk .dataLate (logEvent Ev.DOT_UNDERRUN_PREDICTED p p (toWord (dotFill u p)).toNat
      (toWord (dotFill u p + dotDrift u (dp u p))).toNat (lowCheck p (dotFill u p)
        (setF (R.DOT_Pn_FILL p) 31 16 (narrow 16 (satS 16 (dotFill u p + dotDrift u (dp u p))))
          (setF (R.DOT_Pn_FILL p) 15 0 (narrow 16 (satS 16 (dotFill u p))) u))))).1) ∧
  (∀ (p : Fin 16) (n : Word) s, windowOpen s 0 (R.DOT_Pn_WLINE p) true = true → 0 ≤ lineDiff n.toNat (dp s p).wline →
    lineDiff n.toNat (wlimit s p) ≤ 0 →
    Completes (.dotWlineWrite p n) s (pumpPipe p (modDot p (fun x => { winRoll s x with
      wline := n.toNat, cin := (winRoll s x).cin + (lineDiff n.toNat x.wline).toNat }) (hostAccess s)))) ∧
  (∀ (p : Fin 16) (n : Word) s, windowOpen s 0 (R.DOT_Pn_WLINE p) true = true →
    lineDiff n.toNat (dp s p).wline < 0 ∨ 0 < lineDiff n.toNat (wlimit s p) →
    Completes (.dotWlineWrite p n) s (logEvent Ev.DOT_WLINE_BAD p p n.toNat (wlimit s p) (hostAccess s))) ∧
  (∀ (p : Fin 16) (a : BitVec 16) s, windowOpen s 0 (R.DOT_Pn_WADD p) true = true →
    0 ≤ lineDiff (((dp s p).wline + a.toNat) % 2 ^ 32) (dp s p).wline →
    lineDiff (((dp s p).wline + a.toNat) % 2 ^ 32) (wlimit s p) ≤ 0 →
    Completes (.dotWaddWrite p a) s (pumpPipe p (modDot p (fun x => { winRoll s x with
      wline := ((dp s p).wline + a.toNat) % 2 ^ 32,
      cin := (winRoll s x).cin + (lineDiff (((dp s p).wline + a.toNat) % 2 ^ 32) x.wline).toNat }) (hostAccess s))))

/-- The commands of a pipe, accepted: the status word of result 1, and the state that R138 gives. That ENABLE starts the counts of the
prediction windows again is the model's choice (log 78). (04_dot_data.md R137, 04_dot_data.md R138) -/
def Obligations.PipeCommands : Prop :=
  (∀ (p : Fin 16) (gen : BitVec 16) s, windowOpen s 0 (R.DOT_Pn_CMD p) true = true → pipeBound s p = true →
    gen = (hp s (pipePort s p)).gen → s.glb.state = .idle ∨ s.glb.state = .armed → (dp s p).st = .off →
    active s (pipePort s p) = true → ringChecks s p = 0 →
    Completes (.dotEnable p gen) s (dotResult p 1 1 0 (pipeCode s p) (pipeEnable p (hostAccess s)))) ∧
  (∀ (p : Fin 16) (gen : BitVec 16) s, windowOpen s 0 (R.DOT_Pn_CMD p) true = true → pipeBound s p = true →
    gen = (hp s (pipePort s p)).gen → (dp s p).st = .stopped ∨ (dp s p).st = .late →
    Completes (.dotDisable p gen) s (dotResult p 2 1 0 (pipeCode s p) (pipeOff p (hostAccess s)))) ∧
  (∀ (p : Fin 16) (gen : BitVec 16) s, windowOpen s 0 (R.DOT_Pn_CMD p) true = true → pipeBound s p = true →
    gen = (hp s (pipePort s p)).gen → (dp s p).st = .stopped ∨ (dp s p).st = .late →
    Completes (.dotClear p gen) s (dotResult p 3 1 0 (pipeCode s p) (ringEmpty p (dp s p).next (dp s p).next (hostAccess s)))) ∧
  (∀ (p : Fin 16) (gen : BitVec 16) s, windowOpen s 0 (R.DOT_Pn_CMD p) true = true → pipeBound s p = true →
    gen = (hp s (pipePort s p)).gen → (dp s p).st = .off ∨ (dp s p).st = .stopped ∨ (dp s p).st = .late →
    Completes (.dotSetline p gen) s (dotResult p 4 1 0 (pipeCode s p)
      (ringEmpty p (rd s (R.DOT_Pn_LINE p)).toNat (rd s (R.DOT_Pn_LINE p)).toNat (hostAccess s)))) ∧
  (∀ (p : Fin 16) (gen : BitVec 16) s, windowOpen s 0 (R.DOT_Pn_CMD p) true = true → pipeBound s p = true →
    gen = (hp s (pipePort s p)).gen → (dp s p).st = .late → s.glb.state = .idle ∨ s.glb.state = .armed →
    Completes (.dotRelease p gen) s (dotResult p 5 1 0 (pipeCode s p) (pipeUp p (hostAccess s)))) ∧
  (∀ (p : Fin 16) (gen : BitVec 16) s, windowOpen s 0 (R.DOT_Pn_CMD p) true = true → pipeBound s p = true →
    gen ≠ (hp s (pipePort s p)).gen →
    Completes (.dotEnable p gen) s (dotResult p 1 6 0 (pipeCode s p) (hostAccess s)) ∧
    Completes (.dotDisable p gen) s (dotResult p 2 6 0 (pipeCode s p) (hostAccess s)) ∧
    Completes (.dotClear p gen) s (dotResult p 3 6 0 (pipeCode s p) (hostAccess s)) ∧
    Completes (.dotSetline p gen) s (dotResult p 4 6 0 (pipeCode s p) (hostAccess s)) ∧
    Completes (.dotRelease p gen) s (dotResult p 5 6 0 (pipeCode s p) (hostAccess s)))

/-- The commit of a line by a generator of each mode, where the line is in time and its ports can take it. A line on the head: its launch,
the slots of its rows, the end of their windows, and the warm-only cycles between lines. (05_firing.md R146, 05_firing.md R147,
05_firing.md R156) -/
def Obligations.LineOnTheHead : Prop :=
  (∀ (g : Fin 16) t rest s u, (lt s g).delayed = t :: rest → mayCommit s g = true → (scanning s && s.scn.stop) = false →
    reached s g (lt s g).k = true → reached s g (((lt s g).k + 1) % 2 ^ 32) = false → spacedFrom s g ≤ s.now →
    firesFit s g false = true →
    u = (if (lt s g).fallback then incF (R.FIR_LTn_CNT g) 23 12 (countLate g (lt s g).k (s.now - t) s)
      else countLate g (lt s g).k (s.now - t) s) →
    Completes (.reactiveDelayedCommit g) s (commitGen g (u.now + 72) false (genSee g u))) ∧
  (∀ (g : Fin 16) s, (lt s g).delayed = [] → Completes (.reactiveDelayedCommit g) s s) ∧
  (∀ (g : Fin 16) (tk launch : Int) s0 s s1 s2, s = genSee g s0 → ltBound s0 g = true → genMode s0 g = 0 → mayCommit s g = true →
    (scanning s && s.scn.stop) = false → speedOk s g = true →
    s1 = setFallback g false (modGen g (fun x => { x with delayed := [] }) s) → predictAt s1 g (lt s1 g).k = (tk, s2) →
    tk < s2.now + fld s2 (R.FIR_LTn_LEAD g) 11 0 + 64 → reached s2 g (((lt s1 g).k + 1) % 2 ^ 32) = false →
    launch = max tk (max (spacedFrom s2 g) (s2.now + fld s2 (R.FIR_LTn_LEAD g) 11 0)) → launch ≤ s2.now + 8192 →
    firesFit s2 g true = true →
    Completes (.predictSample g) s0 (if tk < launch then countLate g (lt s1 g).k (launch - tk).toNat (commitGen g launch.toNat true s2)
      else commitGen g launch.toNat true s2)) ∧
  (∀ g k s, genSpeed s g ≠ 0 → predictAt s g k = ((pch s (ltSource s g)).t +
    Int.fdiv ((if (lt s g).rev then -(diff48 (genTarget s g k) (pch s (ltSource s g)).pos)
      else diff48 (genTarget s g k) (pch s (ltSource s g)).pos) * 390625 + 2 * genSpeed s g) (4 * genSpeed s g), s)) ∧
  (∀ (g : Fin 16) (t launch : Nat) s, ltBound s g = true → genMode s g = 2 → mayCommit s g = true → firesFit s g true = true →
    t = (lt s g).t0 + (lineDiff (lt s g).k (lt s g).k0).toNat * lineClockPeriod s →
    launch = max (max t (spacedFrom s g)) (s.now + fld s (R.FIR_LTn_LEAD g) 11 0) → launch ≤ s.now + 8192 →
    Completes (.fixedClockCommit g) s (if t < launch then countLate g (lt s g).k (launch - t) (commitGen g launch true s)
      else commitGen g launch true s)) ∧
  (∀ (g : Fin 16) k s, nextLaunch s g = some k → ∃ u v, u = forEach (ltPipes s g) (fun d s => launchPipe d k s) (launchMonitor g (genLaunched g k s)) ∧
    v = superviseCheck g u ∧
    Completes (.lineLaunch (.line g)) s (if scanning v then sweepLaunched v else v)) ∧
  (∀ (p : Fin 16) l s, (hp s p).lines.find? (fun l => l.kind ≠ .print && l.fireSent && !l.launched) = some l →
    Completes (.lineLaunch (.warm p)) s (cancelWhenDue p (launchHeld p l s))) ∧
  (∀ (p : Fin 16) (row : Fin 8) l s, (hp s p).lines.find? (fun l => l.launched && bitOf l.rowmask.toNat row && !bitOf l.done.toNat row &&
      decide (l.started.getD row 0 < 16)) = some l →
    Completes (.fireSlotStart p row) s
      (modLine p l (fun x => if x.launched then { x with started := x.started.modify row (fun n => n + 1) } else x) s)) ∧
  (∀ (p : Fin 16) (row : Fin 8) l s, (hp s p).lines.find? (fun l => l.launched && bitOf l.rowmask.toNat row && !bitOf l.done.toNat row) =
      some l → FLine.inWindow { l with done := l.done ||| BitVec.ofNat 8 (2 ^ row.val) } = true →
    Completes (.lineWindowEnd p row) s (portPump 8 p (retireLines p
      (modLine p l (fun x => if x.launched then { l with done := l.done ||| BitVec.ofNat 8 (2 ^ row.val) } else x) s)))) ∧
  (∀ (p : Fin 16) (row : Fin 8) l s, (hp s p).lines.find? (fun l => l.launched && bitOf l.rowmask.toNat row && !bitOf l.done.toNat row) =
      some l → FLine.inWindow { l with done := l.done ||| BitVec.ofNat 8 (2 ^ row.val) } = false →
    Completes (.lineWindowEnd p row) s (portPump 8 p (retireLines p (svcSettle p (lineFired p { l with done := l.done ||| BitVec.ofNat 8 (2 ^ row.val) }
      (modLine p l (fun x => if x.launched then { l with done := l.done ||| BitVec.ofNat 8 (2 ^ row.val) } else x) s)))))) ∧
  (∀ (p : Fin 16) l b s s1 s2, mayWarm s p = true →
    decideLine p (newLine s p 0 .warm false 0 (portRows s p) ((List.range 8).map (fun r =>
      if bitOf (portRows s p).toNat r then List.replicate (hp s p).cols 0 else []))) s = (s1, l) →
    bankFor p l s1 = some (b, s2) →
    ∃ l1, l1 = { l with bank := b, lineAck := true, parmSent := true, offs := List.replicate 8 0 } ∧
      Completes (.warmCycleTimer p) s (sendFrame p 3 0 0 (parmBody (hp s2 p) l1 true) 0
        (modHlp p (fun h => { h with lines := h.lines ++ [l1] }) s2))) ∧
  (∀ (p : Fin 16) s, mayWarm s p = false → Completes (.warmCycleTimer p) s s)

/-- The gating inputs: each sets its flag and raises its event; a HALT from a running state leads to SAFE_HOLD, MEDIA_OUT in PRINT to
STOPPING. The end of a gating input, and the origin and waveform writes of a generator and its port. (05_firing.md R159, 05_firing.md
R163, 05_firing.md R166, 05_firing.md R167, 05_firing.md R169) -/
def Obligations.Gating : Prop :=
  (∀ src mask inst s, gatePorts src mask inst s =
    raise Ev.FIR_HARD_GATE 0xFF src mask inst (forEach (those 16 (bitOf mask)) hardGate s)) ∧
  (∀ s, s.gate.kill = false → gateDead s = false → Completes .headKillAssert s
    (gatePorts 1 0xFFFF 0 (setFlag R.FIR_GATEFLAG 0 { s with gate := { s.gate with kill := true } }))) ∧
  (∀ s, s.gate.kill = false → gateDead s = true →
    Completes .headKillAssert s { s with gate := { s.gate with kill := true } }) ∧
  (∀ (m : Fin 4) s, bitOf s.gate.hopen.toNat m = false → gateDead s = false → invarAgrees s R.FIR_HOPENMAP01 = true →
    invarAgrees s R.FIR_HOPENMAP23 = true → hopenMask s m ≠ 0 →
    Completes (.hopenAssert m) s (gatePorts 2 (hopenMask s m) m
      (setFlag R.FIR_GATEFLAG (1 + m.val) { s with gate := { s.gate with hopen := s.gate.hopen ||| BitVec.ofNat 4 (2 ^ m.val) } }))) ∧
  (∀ (m : Fin 4) s, bitOf s.gate.hopen.toNat m = false → gateDead s = false → invarAgrees s R.FIR_HOPENMAP01 = true →
    invarAgrees s R.FIR_HOPENMAP23 = true → hopenMask s m = 0 →
    Completes (.hopenAssert m) s { s with gate := { s.gate with hopen := s.gate.hopen ||| BitVec.ofNat 4 (2 ^ m.val) } }) ∧
  (∀ (p : Fin 16) s, gateDead s = false → bitOf s.gate.enRel.toNat p = true →
    Completes (.hpnEnExternalLow p) s (gatePorts 3 (2 ^ p.val) p
      (setFlag R.FIR_GATEFLAG (16 + p.val) { s with gate := { s.gate with enExt := s.gate.enExt ||| BitVec.ofNat 16 (2 ^ p.val) } }))) ∧
  (∀ (p : Fin 16) s, bitOf s.gate.enRel.toNat p = false →
    Completes (.hpnEnExternalLow p) s { s with gate := { s.gate with enExt := s.gate.enExt ||| BitVec.ofNat 16 (2 ^ p.val) } }) ∧
  (∀ (m : Fin 2) s, bitOf s.gate.jam.toNat m = false → gateDead s = false → invarAgrees s R.FIR_GATEEN = true →
    fld s R.FIR_GATEEN (1 + m.val) (1 + m.val) = 1 →
    Completes (.jamQualified m) s (raise Ev.FIR_JAM m m 0xFFFF 0 (setFlag R.FIR_GATEFLAG (6 + m.val)
      { s with gate := { s.gate with jam := s.gate.jam ||| BitVec.ofNat 2 (2 ^ m.val) } }))) ∧
  (∀ s u gens, s.gate.mediaOut = false → gateDead s = false → invarAgrees s R.FIR_GATEEN = true → fld s R.FIR_GATEEN 0 0 = 1 →
    u = { s with gate := { s.gate with mediaOut := true } } →
    gens = those 16 (fun g => ltBound s g && ((lt s g).st = .run || (lt s g).st = .hold)) →
    Completes .mediaOutQualified s (raise Ev.FIR_MEDIA_OUT 0xFF (maskOf 16 (fun g => gens.contains g))
      (match gens.head? with
       | some g => (rd s (R.FIR_LTn_LASTLINE g)).toNat
       | none => 0) 0 (setFlag R.FIR_GATEFLAG 5 u))) ∧
  (∀ s, s.gate.mediaOut = false → gateDead s = false → invarAgrees s R.FIR_GATEEN = true → fld s R.FIR_GATEEN 0 0 = 1 →
    s.glb.state = .print → ∃ t, exec .mediaOutQualified s = .next t ∧ (t.glb.state = .stopping ∨ t.glb.state = .safeHold)) ∧
  (∀ s, haltable s = true → s.gate.kill = false → ∃ t, exec .headKillAssert s = .next t ∧ t.glb.state = .safeHold) ∧
  (∀ (p : Fin 16) s, (hp s p).killDue = true → Completes (.safeHoldKill p) s (hardGate p s)) ∧
  (∀ s, Completes (.gateSourceDeassert .kill) s (refreshAll { s with gate := { s.gate with kill := false } })) ∧
  (∀ (m : Fin 4) s, Completes (.gateSourceDeassert (.hopen m)) s (refreshAll
    { s with gate := { s.gate with hopen := s.gate.hopen &&& ~~~(BitVec.ofNat 4 (2 ^ m.val)) } })) ∧
  (∀ s, Completes (.gateSourceDeassert .mediaOut) s (refreshAll
    { s with gate := { s.gate with mediaOut := false } })) ∧
  (∀ (m : Fin 2) s, Completes (.gateSourceDeassert (.jam m)) s (refreshAll
    { s with gate := { s.gate with jam := s.gate.jam &&& ~~~(BitVec.ofNat 2 (2 ^ m.val)) } })) ∧
  (∀ (p : Fin 16) s, Completes (.gateSourceDeassert (.hpnEn p)) s (refreshAll
    { s with gate := { s.gate with enExt := s.gate.enExt &&& ~~~(BitVec.ofNat 16 (2 ^ p.val)) } })) ∧
  (∀ (i : Fin 512) v s, windowOpen s 0 (R.TBL_WAVE + 4 * i) true = true →
    Completes (.waveformEntryWrite i v) s (bankChanged (i.val / 32) (hostAccess s)
      (pulseCheck (wr (R.TBL_WAVE + 4 * i.val) (v &&& 0x07FFFFFF) (hostAccess s))))) ∧
  (∀ p s t, waveEnts t p = waveEnts s p → slotOf t p = slotOf s p → settleOf t p = settleOf s p → bankChanged p s t = t) ∧
  (∀ (p : Fin 16) b s t, waveEnts t p ≠ waveEnts s p ∨ slotOf t p ≠ slotOf s p ∨ settleOf t p ≠ settleOf s p → active t p = true →
    freeBank (hp t p) = some b → bankChanged p s t = loadBank p b (waveEnts t p) (slotOf t p) (settleOf t p)
      (modHlp p (fun h => { h with bankDue := false }) t)) ∧
  (∀ (p : Fin 16) s t, waveEnts t p ≠ waveEnts s p ∨ slotOf t p ≠ slotOf s p ∨ settleOf t p ≠ settleOf s p → active t p = true →
    freeBank (hp t p) = none → bankChanged p s t = modHlp p (fun h => { h with bankDue := true }) t) ∧
  (∀ (g : Fin 16) s, windowOpen s 0 (R.FIR_LTn_CMD g) true = true → ltLive s g = true → (lt s g).st = .idle ∨ (lt s g).st = .armed →
    Completes (.firSetorg g) s (firResult g 1 1 (genCode s g)
      (loadOrigin g ((rd s (R.FIR_LTn_ORG_INT g)).toNat * 65536 + fld s (R.FIR_LTn_ORG_FRAC g) 15 0) (hostAccess s))) ∧
    Completes (.firCaporg g) s (firResult g 2 1 (genCode s g) (loadOrigin g (pch s (ltSource s g)).pos (hostAccess s)))) ∧
  (∀ (g : Fin 16) s, windowOpen s 0 (R.FIR_LTn_CMD g) true = true → ltLive s g = false ∨ (lt s g).st = .run ∨ (lt s g).st = .hold →
    Completes (.firSetorg g) s (firResult g 1 2 (genCode s g) (hostAccess s)) ∧
    Completes (.firCaporg g) s (firResult g 2 2 (genCode s g) (hostAccess s)))

/-- Attempts of a port: they start in DETECT with TS1 on both lanes; a series ends after three. That an attempt's window of discarded
frames starts empty is the model's choice (log 78). Training sets: one whose check fails breaks the run; eight in a row advance the
port. Time synchronisation of a port: the PROBEs of an acquisition and of ACTIVE, and the offset that an ECHO gives.
(06_romor_head_link.md R208, 06_romor_head_link.md R210, 06_romor_head_link.md R212) -/
def Obligations.PortTraining : Prop :=
  (∀ (p : Fin 16) s, (hp s p).inSeries = true → (hp s p).lstate = .down → (hp s p).attempts < 3 → portBound s p = true →
    Completes (.portAttemptStart p) s (startAttempt p s)) ∧
  (∀ (p : Fin 16) s, (hp s p).inSeries = true → (hp s p).lstate = .down → 3 ≤ (hp s p).attempts →
    Completes (.portAttemptEnd p) s (resolvePort p (hp s p).reason false s)) ∧
  (∀ (p : Fin 16) s, (hp s p).inSeries = false → (hp s p).hotTry = true → (hp s p).lstate = .down →
    Completes (.portAttemptEnd p) s (hotEnd p s)) ∧
  (∀ (p : Fin 16) s, s.glb.state = .idle → portBound s p = true → headPresence s p = 2 → (hp s p).lstate = .absent →
    s.bru.incomplete = false →
    Completes (.hotswapAttemptTimer p) s (startAttempt p (modHlp p (fun h => { h with hotTry := true, inSeries := false }) s))) ∧
  (∀ (p : Fin 16) s, (hp s p).lstate.training = true →
    Completes (.trainStateTimeout p) s (modHlp p (fun h => { h.fresh with lstate := .down, reason := if (hp s p).lstate = .detect then 1 else 2 })
      (logEvent Ev.HLP_TRAIN_FAIL p p (hp s p).lstate.code (if (hp s p).lstate = .detect then 1 else 2) s))) ∧
  (∀ p s, (hp (startAttempt p s) p).lstate = .detect ∧ (hp (startAttempt p s) p).lines = [] ∧ (hp (startAttempt p s) p).sent = [] ∧
    (hp (startAttempt p s) p).attempts = (hp s p).attempts + (if (hp s p).inSeries then 1 else 0)) ∧
  (∀ (p : Fin 16) ts2 (data : Vector Byte 14) s, (hp s p).lstate = .detect ∨ (hp s p).lstate = .lock →
    crc8 (data.toList.take 13) ≠ data.toList.getD 13 0 →
    Completes (.trainSetReceived p ts2 data) s (modHlp p (fun h => { h with tsRun := 0 }) s)) ∧
  (∀ (p : Fin 16) ts2 (data : Vector Byte 14) s, (hp s p).lstate = .config → crc8 (data.toList.take 13) ≠ data.toList.getD 13 0 →
    Completes (.trainSetReceived p ts2 data) s (configSet p 0 false s)) ∧
  (∀ (p : Fin 16) (data : Vector Byte 14) s, (hp s p).lstate = .detect → crc8 (data.toList.take 13) = data.toList.getD 13 0 →
    (hp s p).tsRun < 7 →
    Completes (.trainSetReceived p false data) s (modHlp p (fun h => { h with ulLock := true, tsRun := (hp s p).tsRun + 1 }) s)) ∧
  (∀ (p : Fin 16) (data : Vector Byte 14) s, (hp s p).lstate = .detect → crc8 (data.toList.take 13) = data.toList.getD 13 0 →
    7 ≤ (hp s p).tsRun → (hp s p).hotTry = false ∨ (hp s p).reason < 3 →
    Completes (.trainSetReceived p false data) s
      (sendTs p "TS1" true (modHlp p (fun h => { h with lstate := .lock, ulLock := true, tsRun := 0 }) s))) ∧
  (∀ (p : Fin 16) (data : Vector Byte 14) s, (hp s p).lstate = .lock → crc8 (data.toList.take 13) = data.toList.getD 13 0 →
    bitOf ((data.toList.getD 2 0).toNat) 0 = true → 7 ≤ (hp s p).tsRun →
    Completes (.trainSetReceived p false data) s
      (sendTs p "TS2" true (modHlp p (fun h => { h with lstate := .config, dlLock := true, tsRun := 0, tsAfter := 0 }) s))) ∧
  (∀ (p : Fin 16) (data : Vector Byte 14) s, (hp s p).lstate = .config → crc8 (data.toList.take 13) = data.toList.getD 13 0 →
    7 ≤ (hp s p).tsRun → 16 ≤ (hp s p).tsAfter → ∃ u, Completes (.trainSetReceived p true data) s (sendProbe p u) ∧
      (hp u p).lstate = .timesync ∧ (hp u p).credits = (data.toList.getD 4 0).toNat ∧
      (hp u p).payload = 64 * 2 ^ (min 2 (data.toList.getD 5 0).toNat)) ∧
  (∀ (p : Fin 16) s, active s p = true → (hp s p).synced = true → Completes (.tsyncProbeTimer p) s (sendProbe p s)) ∧
  (∀ (p : Fin 16) s, (hp s p).lstate = .timesync → (hp s p).checking = false → (hp s p).echoes.length < 16 →
    Completes (.tsyncAcqProbeTimer p) s (sendProbe p s)) ∧
  (∀ (p : Fin 16) (t1 h2 h3 t4 : BitVec 51) theta s, active s p = true → (hp s p).synced = true →
    theta = shr ((h2 - t1).toInt + (h3 - t4).toInt) 1 → iabs theta ≤ 2 →
    Completes (.tsyncEchoRx p t1 h2 h3 t4) s (modHlp p (fun h => { h with theta := satS 8 theta }) s)) ∧
  (∀ p theta s, 2 < iabs theta → iabs theta ≤ 8 →
    driftCheck p theta s = modHlp p (fun h => { h with corr := min 15 (h.corr + 1) }) (sendSet p (-theta) (hp s p).eq s)) ∧
  (∀ p theta s, 16 < iabs theta → driftCheck p theta s = linkLoss p 3 s)

/-- Bad upstream frames and the loss of symbol lock. That the count of HLP_UP_ERROR takes in the discards of downstream frames, and that
frames before IDENT are not looked at, is the model's choice (log 78). Acknowledgements of downstream frames, and their absence.
(06_romor_head_link.md R217, 06_romor_head_link.md R218, 06_romor_head_link.md R221, 06_romor_head_link.md R222, 06_romor_head_link.md
R224) -/
def Obligations.LinkFrames : Prop :=
  (∀ (p : Fin 16) c s s3, active s p = true ∨ (hp s p).lstate = .ident →
    s3 = (let s1 := incF (R.HLP_Pn_ERRCNT p) 15 8 s
      let s2 := if c then incF (R.HLP_Pn_ERRCNT p) 23 16 s1 else s1
      if mayRaise s2 (hp s2 p).upErrAt then
        logEvent Ev.HLP_UP_ERROR p p ((((hp s2 p).discards ++ (hp s2 p).oldBad).filter (fun t => decide (s2.now < t + 2 ^ 20))).length + 1) 0
          (modHlp p (fun h => { h with upErrAt := some s2.now }) s2)
      else s2) →
    Completes (.upstreamFrameBad p c) s (discardFrame p s3)) ∧
  (∀ (p : Fin 16) s, active s p = true → Completes (.symbolLockLoss p) s (linkLoss p 1 s)) ∧
  (∀ (p : Fin 16) s, active s p = false → (hp s p).lstate.training = true →
    Completes (.symbolLockLoss p) s (modHlp p (fun h => { h with ulLock := false, tsRun := 0 }) s)) ∧
  (∀ (p : Fin 16) q f s, active s p = true → (hp s p).sent.find? (fun f => f.fseq = q) = some f →
    Completes (.lackRx p q 0) s (fireWarm p (fireService p (frameAccepted p f (dropSent p f.fseq s))))) ∧
  (∀ (p : Fin 16) q f s, active s p = true → (hp s p).sent.find? (fun f => f.fseq = q) = some f → f.ftype = 2 →
    Completes (.lackRx p q 1) s (fireLost p f 1 (dropSent p f.fseq s)) ∧
    Completes (.lackRx p q 6) s (fireLost p f 6 (discardFrame p (dropSent p f.fseq s)))) ∧
  (∀ (p : Fin 16) q st s, active s p = false ∨ (hp s p).sent.find? (fun f => f.fseq = q) = none →
    Completes (.lackRx p q st) s s) ∧
  (∀ (p : Fin 16) q f s, (hp s p).sent.find? (fun f => f.fseq = q && f.ftype ≠ 2) = some f → active (discardFrame p s) p = true →
    f.tries < 2 → Completes (.lackTimeout p q) s (resend p f (discardFrame p s))) ∧
  (∀ (p : Fin 16) q f s, (hp s p).sent.find? (fun f => f.fseq = q && f.ftype ≠ 2) = some f → active (discardFrame p s) p = true →
    2 ≤ f.tries → Completes (.lackTimeout p q) s (if f.ftype = 5 then linkLoss p 4 (discardFrame p s) else discardFrame p s)) ∧
  (∀ (p : Fin 16) q f s, (hp s p).sent.find? (fun f => f.fseq = q && f.ftype ≠ 2) = some f → active (discardFrame p s) p = false →
    Completes (.lackTimeout p q) s (discardFrame p s)) ∧
  (∀ (p : Fin 16) q f l s, (hp s p).sent.find? (fun f => f.fseq = q && f.ftype = 2) = some f →
    bitOf ((f.body.getD 2 0).toNat) 0 = true → f.tries = 0 → l ∈ (hp s p).lines → f.fires l = true → l.fireAck = false →
    s.now + 64 ≤ l.launch → active (discardFrame p s) p = true → (hp (discardFrame p s) p).synced = true →
    Completes (.fireLackTimeout p q) s (resend p f (discardFrame p s))) ∧
  (∀ (p : Fin 16) q f s, (hp s p).sent.find? (fun f => f.fseq = q && f.ftype = 2) = some f → f.tries ≠ 0 →
    Completes (.fireLackTimeout p q) s (fireLost p f 0xFF (dropSent p q (discardFrame p s))))

/-- MEM responses, head events, and the usage account. The commands of a head port, accepted; a write with another generation is refused
with result 4. (06_romor_head_link.md, the commands of HLP_Pn_CMD, 06_romor_head_link.md R204) -/
def Obligations.PortCommands : Prop :=
  (∀ (p : Fin 16) tag st data m s, active s p = true ∨ (hp s p).lstate = .ident →
    (hp s p).reqs.find? (fun m => m.tag = tag) = some m →
    Completes (.memResponseRx p tag st data) s (usageNext p (memDone p m st.toNat (slice data 0 (if m.op = 1 then m.len else 0))
      (memPump 16 p (modHlp p (fun h => { h with reqs := h.reqs.filter (fun x => x.tag ≠ tag) }) s))))) ∧
  (∀ (p : Fin 16) tag st data s, active s p = true ∨ (hp s p).lstate = .ident → (hp s p).reqs.find? (fun m => m.tag = tag) = none →
    Completes (.memResponseRx p tag st data) s (incF (R.HLP_Pn_ERRCNT p) 15 8 s)) ∧
  (∀ (p : Fin 16) tag m s, (hp s p).reqs.find? (fun m => m.tag = tag) = some m → m.tries < 2 →
    Completes (.memResponseTimeout p tag) s (putMem p m (incF (R.HLP_Pn_ERRCNT p) 7 0
      (modHlp p (fun h => { h with reqs := h.reqs.map (fun x => if x.tag = tag then { x with tries := x.tries + 1 } else x) }) s)))) ∧
  (∀ (p : Fin 16) tag m s, (hp s p).reqs.find? (fun m => m.tag = tag) = some m → 2 ≤ m.tries → m.owner = .software →
    Completes (.memResponseTimeout p tag) s (setF (R.HLP_Pn_CMD_STATUS p) 13 12 3 (logEvent Ev.HLP_MEM_TIMEOUT p p m.addr tag.toNat
      (memPump 16 p (modHlp p (fun h => { h with reqs := h.reqs.filter (fun x => x.tag ≠ tag) }) s))))) ∧
  (∀ (p : Fin 16) i v s, active s p = true ∨ (hp s p).lstate = .ident →
    Completes (.hevtRx p 5 i v) s (logEvent (Ev.HLP_HEAD_FAULT .warn) p p (5 * 256 + i.toNat) v.toNat s)) ∧
  (∀ (p : Fin 16) i v s, active s p = true ∨ (hp s p).lstate = .ident → haltable s = true → ∃ t, exec (.hevtRx p 1 i v) s = .next t ∧ t.glb.state = .safeHold) ∧
  (∀ s, s.glb.state = .print → Completes .usageSummaryTimer s (usageAll (accruePrint s))) ∧
  (∀ (p : Fin 16) (gen : BitVec 16) s, windowOpen s 0 (R.HLP_Pn_CMD p) true = true → gen = (hp s p).gen → (hp s p).lstate ≠ .unbound →
    s.bru.incomplete = false → s.glb.state = .idle ∨ s.glb.state = .safeHold →
    Completes (.hlpRetrain p gen) s (hlpResult p 1 1 (hp s p).lstate.code (startSeries p
      (if (hp s p).lstate = .active then portDown p (hostAccess s) else hostAccess s)))) ∧
  (∀ (p : Fin 16) (gen : BitVec 16) s, windowOpen s 0 (R.HLP_Pn_CMD p) true = true → gen = (hp s p).gen → (hp s p).lstate = .active →
    memPending s p = false →
    Completes (.hlpMemrd p gen) s (hlpResult p 2 1 (hp s p).lstate.code
      (softAsk p 1 (fld s (R.HLP_Pn_MEMADDR p) 15 0) (fld s (R.HLP_Pn_MEMADDR p) 24 16) (hostAccess s)))) ∧
  (∀ (p : Fin 16) (gen : BitVec 16) s, windowOpen s 0 (R.HLP_Pn_CMD p) true = true → gen = (hp s p).gen → (hp s p).lstate = .active →
    memPending s p = false → 0x1800 ≤ fld s (R.HLP_Pn_MEMADDR p) 15 0 →
    fld s (R.HLP_Pn_MEMADDR p) 15 0 + fld s (R.HLP_Pn_MEMADDR p) 24 16 ≤ 0x1F00 → fld s (R.HLP_Pn_MEMADDR p) 15 0 < 0x1F00 →
    Completes (.hlpMemwr p gen) s (hlpResult p 3 1 (hp s p).lstate.code
      (softAsk p 2 (fld s (R.HLP_Pn_MEMADDR p) 15 0) (fld s (R.HLP_Pn_MEMADDR p) 24 16) (hostAccess s)))) ∧
  (∀ (p : Fin 16) (gen : BitVec 16) s, windowOpen s 0 (R.HLP_Pn_CMD p) true = true → gen ≠ (hp s p).gen →
    Completes (.hlpRetrain p gen) s (hlpResult p 1 4 (hp s p).lstate.code (hostAccess s)) ∧
    Completes (.hlpMemrd p gen) s (hlpResult p 2 4 (hp s p).lstate.code (hostAccess s)) ∧
    Completes (.hlpMemwr p gen) s (hlpResult p 3 4 (hp s p).lstate.code (hostAccess s)))

/-- Telemetry of a fired line: its measured energy corrects the model of each primitive, the run of missing frames ends, and the measured
current and the head's limits are evaluated; a line without telemetry is counted, and 64 in a row are lost telemetry. The thermal
model's own timers: the idle update, and the poll of the head's zones. RESEED and CLRMAX of a port's model, accepted and refused.
(07_thermal_energy.md R238, 07_thermal_energy.md R240) -/
def Obligations.ThermalModel : Prop :=
  (∀ (p : Fin 16) (tag : BitVec 16) (w : Bool) slots energy ipk temps l s s1 s2, active s p = true →
    (hp s p).lines.find? (fun l => l.launched && l.tele = .waiting && ((l.kind = .warm) = w) && (w || l.line % 65536 = tag.toNat)) =
      some l →
    s1 = retireLines p (modHlp p (fun h => { h with lines := h.lines.map (fun x => if x = l then { x with tele := .got } else x) })
      (modThm p (fun t => { t with prims := t.prims.mapIdx (fun q x => { x with
        corr := s32 (x.corr + teleCorr (hp s p) l slots.val (energy.map BitVec.toNat) q) }) }) s)) →
    s2 = setF (R.THM_Pn_TELECNT p) 31 16 0 (modThm p (fun t => { t with teleLost := false }) s1) → (hp s p).zones ≠ 0 →
    Completes (.teleKind0Rx p tag w slots energy ipk temps) s (zoneSample p (temps.map (fun x => signed 16 x.toNat))
      (peakCheck p (ipk.map BitVec.toNat) (useInvar [R.THM_Pn_BUDGET01 p, R.THM_Pn_BUDGET23 p]
        { s2 with thmg := { s2.thmg with
            energy := (s2.now, (energy.map BitVec.toNat).foldl (· + ·) 0) :: s2.thmg.energy.filter (fun x => s2.now < x.1 + 2 ^ 20) } })))) ∧
  (∀ (p : Fin 16) tag w slots energy ipk temps s, active s p = false → Completes (.teleKind0Rx p tag w slots energy ipk temps) s s) ∧
  (∀ (p : Fin 16) s, (hp s p).lines.find? (fun l => l.launched && !l.inWindow && l.tele = .waiting) = none →
    Completes (.teleMissingTimeout p) s s) ∧
  (∀ (p : Fin 16) l s s2, (hp s p).lines.find? (fun l => l.launched && !l.inWindow && l.tele = .waiting) = some l →
    s2 = incF (R.THM_Pn_TELECNT p) 31 16 (incF (R.THM_Pn_TELECNT p) 15 0 (retireLines p
      (modHlp p (fun h => { h with lines := h.lines.map (fun x => if x = l then { x with tele := .missing } else x) }) s))) →
    mayRaise s2 s2.thmg.missAt = false → fld s2 (R.THM_Pn_TELECNT p) 31 16 ≠ 64 →
    Completes (.teleMissingTimeout p) s s2) ∧
  (∀ (p : Fin 16) l s s2, (hp s p).lines.find? (fun l => l.launched && !l.inWindow && l.tele = .waiting) = some l →
    s2 = incF (R.THM_Pn_TELECNT p) 31 16 (incF (R.THM_Pn_TELECNT p) 15 0 (retireLines p
      (modHlp p (fun h => { h with lines := h.lines.map (fun x => if x = l then { x with tele := .missing } else x) }) s))) →
    mayRaise s2 s2.thmg.missAt = false → fld s2 (R.THM_Pn_TELECNT p) 31 16 = 64 →
    Completes (.teleMissingTimeout p) s (raise Ev.THM_TELE_LOST p p 64 0 (modThm p (fun t => { t with teleLost := true }) s2))) ∧
  (∀ (p : Fin 16) s, active s p = true → Completes (.modelIdleUpdate p) s (modelUpdate p (fun _ => 0) s)) ∧
  (∀ (p : Fin 16) s, active s p = true → (hp s p).zones = 0 → Completes (.zonePollTimer p) s (memAsk p .zone 1 0x8008 2 [] s)) ∧
  (∀ (p : Fin 16) s, active s p = true → (hp s p).zones ≠ 0 →
    Completes (.zonePollTimer p) s (memAsk p .zone 1 0x8020 (2 * (hp s p).zones) [] s)) ∧
  (∀ cls inst r s, s.thmg.waiting.find? (fun r => r.cls = Fin.val (n := 6) cls && r.inst = Fin.val (n := 16) inst && !r.warned) = some r →
    Completes (.ledgerWaitTimeout cls inst) s (logEvent Ev.THM_LEDGER_WAIT cls.val cls.val inst.val r.mw
      { s with thmg := { s.thmg with waiting := s.thmg.waiting.map (fun x => if x = r then { x with warned := true } else x) } })) ∧
  (∀ s b, s.jrn.busy = some b → s.jrn.queue = [] → Completes .journalProgramDone s (pathsClose { s with jrn := { s.jrn with
    records := Sparse.set [] s.jrn.records s.jrn.next b, newest := s.jrn.next, next := (s.jrn.next + 1) % 2048, busy := none } })) ∧
  (∀ s b r q, s.jrn.busy = some b → s.jrn.queue = r :: q → Completes .journalProgramDone s (pathsClose { s with jrn := { s.jrn with
    records := Sparse.set [] s.jrn.records s.jrn.next b, newest := s.jrn.next, next := (s.jrn.next + 1) % 2048, queue := q,
    jseq := s.jrn.jseq + 1, busy := some (r.bytes (rd s R.GLB_BOOTCNT) (s.jrn.jseq + 1)) } })) ∧
  (∀ (p : Fin 16) (gen : BitVec 16) s, windowOpen s 0 R.THM_CMD true = true → gen = (hp s p).gen → portBound s p = true →
    s.glb.state = .idle ∨ s.glb.state = .armed ∨ s.glb.state = .safeHold → active s p = true →
    Completes (.thmReseed p gen) s (thmResult 1 p 1 (seedModel p (hostAccess s))) ∧
    Completes (.thmClrmax p gen) s (thmResult 2 p 1 (modThm p (fun t => { t with tjmax := 0, rate := 0 }) (hostAccess s)))) ∧
  (∀ (p : Fin 16) (gen : BitVec 16) s, windowOpen s 0 R.THM_CMD true = true → gen = (hp s p).gen → portBound s p = true →
    s.glb.state = .print ∨ s.glb.state = .stopping →
    Completes (.thmReseed p gen) s (thmResult 1 p 2 (hostAccess s)) ∧
    Completes (.thmClrmax p gen) s (thmResult 2 p 1 (modThm p (fun t => { t with tjmax := 0, rate := 0 }) (hostAccess s)))) ∧
  (∀ (p : Fin 16) (gen : BitVec 16) s, windowOpen s 0 R.THM_CMD true = true → s.glb.state ≠ .off → gen = (hp s p).gen →
    portBound s p = false →
    Completes (.thmReseed p gen) s (thmResult 1 p 2 (hostAccess s)) ∧ Completes (.thmClrmax p gen) s (thmResult 2 p 2 (hostAccess s))) ∧
  (∀ (p : Fin 16) (gen : BitVec 16) s, windowOpen s 0 R.THM_CMD true = true → s.glb.state ≠ .off → gen ≠ (hp s p).gen →
    Completes (.thmReseed p gen) s (thmResult 1 p 4 (hostAccess s)) ∧ Completes (.thmClrmax p gen) s (thmResult 2 p 4 (hostAccess s))) ∧
  (∀ (p : Fin 16) s, (th (seedModel p s) p).tjmax = (th s p).tref ∧ (th (seedModel p s) p).prims.length = (hp s p).nprim ∧
    ∀ q, q < (hp s p).nprim → ((th (seedModel p s) p).prims.getD q ⟨0, 0, 0, 0, false, false⟩) =
      { (th s p).prims.getD q ⟨0, 0, 0, 0, false, false⟩ with tj := (th s p).tref, tb := (th s p).tref, corr := 0 })

/-- The die's sensors: below every limit a sample only updates the temperature and its rate; at the shut-down limit the device enters
SHUTDOWN; the automatic throttle follows the three throttle limits. The shut-down paths: the fall-back ends at rest, with the record of
each path written, or is cut short when the time to the limit has passed. (07_thermal_energy.md R243, 07_thermal_energy.md R245,
07_thermal_energy.md R248, 07_thermal_energy.md R256, 07_thermal_energy.md R257, 07_thermal_energy.md R258) -/
def Obligations.ThermalPaths : Prop :=
  (∀ temps s s1 h rr r, s.glb.state ≠ .off → s.glb.state ≠ .reset →
    (∀ o, o ∈ [R.THM_DIETHR1, R.THM_DIETHR2, R.THM_DIETHR3, R.THM_DIESTOP, R.THM_DIESHUT, R.THM_DIERSHUT, R.THM_SDMARGIN] →
      invarAgrees s o = true) →
    s1 = { s with thmg := { s.thmg with die := temps.map (fun x => signed 16 x.toNat) } } →
    h = (s.now, dieTemp s1) :: keepHist (2 ^ fld s R.THM_CFG 4 0) s.now s.thmg.dieHist → rr = rateOf s h →
    r = rr.getD s.thmg.dieRate → (s.thmg.again && decide (s.glb.state = .print)) = false →
    (limitStep s R.THM_DIETHR1 s.thmg.thr1 (dieTemp s1)).on = s.thmg.thr1.on →
    (limitStep s R.THM_DIETHR2 s.thmg.thr2 (dieTemp s1)).on = s.thmg.thr2.on →
    (limitStep s R.THM_DIETHR3 s.thmg.thr3 (dieTemp s1)).on = s.thmg.thr3.on →
    (limitStep s R.THM_DIESTOP s.thmg.stop (dieTemp s1)).on = s.thmg.stop.on →
    (limitStep s R.THM_DIESHUT s.thmg.shut (dieTemp s1)).on = s.thmg.shut.on →
    (limitMaybe s R.THM_DIERSHUT s.thmg.rshut rr).on = s.thmg.rshut.on →
    Completes (.dieSensorSample temps) s { s1 with
      thmg := { s1.thmg with dieHist := h, dieRate := r, thr1 := limitStep s R.THM_DIETHR1 s.thmg.thr1 (dieTemp s1),
                             thr2 := limitStep s R.THM_DIETHR2 s.thmg.thr2 (dieTemp s1),
                             thr3 := limitStep s R.THM_DIETHR3 s.thmg.thr3 (dieTemp s1),
                             stop := limitStep s R.THM_DIESTOP s.thmg.stop (dieTemp s1),
                             shut := limitStep s R.THM_DIESHUT s.thmg.shut (dieTemp s1),
                             rshut := limitMaybe s R.THM_DIERSHUT s.thmg.rshut rr,
                             again := s.thmg.again && !decide (s.glb.state = .print) },
      glb := { s.glb with autoDiv := (autoThrottle s.thmg.thr1.on s.thmg.thr2.on s.thmg.thr3.on).1,
                          autoSkip := (autoThrottle s.thmg.thr1.on s.thmg.thr2.on s.thmg.thr3.on).2 } }) ∧
  (∀ temps s, s.glb.state ∉ [GState.off, .reset, .shutdown] →
    (∀ o, o ∈ [R.THM_DIETHR1, R.THM_DIETHR2, R.THM_DIETHR3, R.THM_DIESTOP, R.THM_DIESHUT, R.THM_DIERSHUT, R.THM_SDMARGIN] →
      invarAgrees s o = true) →
    s.thmg.shut.on = false →
    (limitStep s R.THM_DIESHUT s.thmg.shut
      (dieTemp { s with thmg := { s.thmg with die := temps.map (fun x => signed 16 x.toNat) } })).on = true →
    ∃ t, exec (.dieSensorSample temps) s = .next t ∧ t.glb.state = .shutdown) ∧
  (∀ a b c, autoThrottle a b c = if c then (2, 0) else if b then (1, 0) else if a then (0, 4) else (0, 0)) ∧
  (∀ s, s.thmg.paths ≠ [] → trAtRest s = true → linesDone s = true → Completes .fallbackComplete s (pathsClose (pathRecords 2 s.thmg.paths
    { s with thmg := { s.thmg with paths := s.thmg.paths.map (fun x => { x with recorded := true }) } }))) ∧
  (∀ s, s.thmg.paths = [] → Completes .fallbackComplete s s ∧ Completes .fallbackTtlExpiry s s) ∧
  (∀ s, s.thmg.paths ≠ [] → Completes .fallbackTtlExpiry s (mainPath s.thmg.paths s)) ∧
  (∀ s, pathPending s = true → pathsClose s = s) ∧
  (∀ xs x s, x ∈ xs → Path.die x = true → s.glb.state ∉ [GState.off, .reset, .shutdown] → (pathEnd xs s).glb.state = .shutdown) ∧
  (∀ xs s, xs ≠ [] → (∀ x ∈ xs, Path.die x = false) → haltable s = true → (pathEnd xs s).glb.state = .safeHold) ∧
  (∀ xs s, s.glb.state = .shutdown → (pathEnd xs s).glb.state = .shutdown ∧ (mainPath xs s).glb.state = .shutdown)

/-- Drop detection: the head's results, the host's results, and gaps. Confidence counting: a good result lowers the missing count, a
missing one raises it; the count's limits make the nozzle FAILED and let it return; a forced state stays; the weak count and the source
follow. (08_nozzle_health.md R269, 08_nozzle_health.md R271, 08_nozzle_health.md R272, 08_nozzle_health.md R273) -/
def Obligations.NozzleResults : Prop :=
  (∀ (p : Fin 16) (e : Word) s s1, active s p = true →
    s1 = modNhl p (fun x => { x with awaiting := x.awaiting - (if inBlock s p e then 1 else 0) }) (serviceCheck p (headResult p e s)) →
    (nh s1 p).awaiting ≠ 0 ∨ blockSent s1 p = false → Completes (.teleKind1Rx p [e]) s s1) ∧
  (∀ (p : Fin 16) (e : Word) s s1, active s p = true →
    s1 = modNhl p (fun x => { x with awaiting := x.awaiting - (if inBlock s p e then 1 else 0) }) (serviceCheck p (headResult p e s)) →
    (nh s1 p).awaiting = 0 → blockSent s1 p = true → Completes (.teleKind1Rx p [e]) s (blockDone p s1)) ∧
  (∀ (p : Fin 16) (e : Word) s, nozzleExists s p (bits e 14 12) (bits e 11 0) = true → bits e 19 16 ≤ 3 →
    headResult p e s = applyResult p (bits e 14 12) (bits e 11 0) (bits e 19 16) 1 1 s) ∧
  (∀ (p : Fin 16) (e : Word) s, nozzleExists s p (bits e 14 12) (bits e 11 0) = false ∨ 4 < bits e 19 16 →
    headResult p e s = incF R.NHL_HOSTCNT 31 16 s) ∧
  (∀ (p : Fin 16) (e : Word) s, nozzleExists s p (bits e 14 12) (bits e 11 0) = true → bits e 19 16 = 4 →
    headResult p e s = detectorFault p 1 (bits e 14 12 * 65536 + bits e 11 0) s) ∧
  (∀ (v : Word) s, windowOpen s 0 R.NHL_HOSTRES true = true → 5 ≤ s.glb.state.code → active s (bits v 23 20) = true →
    nozzleExists s (bits v 23 20) (bits v 14 12) (bits v 11 0) = true → bits v 19 16 ≤ 3 → bits v 15 15 = 0 → bits v 31 28 = 0 →
    bits v 27 24 ≠ 0 →
    Completes (.nhlHostresWrite v) s (serviceCheck (bits v 23 20) (incF R.NHL_HOSTCNT 15 0
      (applyResult (bits v 23 20) (bits v 14 12) (bits v 11 0) (bits v 19 16) 2 (bits v 27 24) (hostAccess s))))) ∧
  (∀ (p : Fin 16) (n : BitVec 16) s s1, windowOpen s 0 (R.NHL_Pn_GAPLEN p) true = true → n ≠ 0 →
    s1 = setF (R.NHL_Pn_GAPLEN p) 15 0 n.toNat (hostAccess s) → portPipe s1 p = none →
    Completes (.nhlGapDeclare p n) s (modNhl p (fun x => { x with gap := some ((rd s1 (R.NHL_Pn_GAPLINE p)).toNat, n.toNat, 0) }) s1)) ∧
  (∀ (p : Fin 16) (n : BitVec 16) s s1 d, windowOpen s 0 (R.NHL_Pn_GAPLEN p) true = true → n ≠ 0 →
    s1 = setF (R.NHL_Pn_GAPLEN p) 15 0 n.toNat (hostAccess s) → portPipe s1 p = some d →
    Completes (.nhlGapDeclare p n) s
      (modNhl p (fun x => { x with gap := some ((rd s1 (R.NHL_Pn_GAPLINE p)).toNat, n.toNat, (dp s1 d).a) }) s1)) ∧
  (∀ (p : Fin 16) s, windowOpen s 0 (R.NHL_Pn_GAPLEN p) true = true →
    Completes (.nhlGapDeclare p 0) s (setF (R.NHL_Pn_GAPLEN p) 15 0 0 (hostAccess s))) ∧
  (∀ conf wconf (src : Nat) e, heResult conf wconf 4 src e = e) ∧
  (∀ conf wconf res src e, res < 4 → src < 4 → 5 ≤ heState e → heState (heResult conf wconf res src e) = heState e) ∧
  (∀ conf wconf src e, src < 4 →
    bits (heResult conf wconf 0 src e) 7 3 = bits e 7 3 - bits conf 14 10 ∧ bits (heResult conf wconf 0 src e) 11 8 = bits e 11 8 - 1) ∧
  (∀ conf wconf src e, src < 4 →
    bits (heResult conf wconf 1 src e) 7 3 = min 31 (bits e 7 3 + bits conf 4 0) ∧ bits (heResult conf wconf 1 src e) 11 8 = bits e 11 8) ∧
  (∀ conf wconf res src e, 2 ≤ res → res < 4 → src < 4 →
    bits (heResult conf wconf res src e) 7 3 = min 31 (bits e 7 3 + bits conf 9 5) ∧
    bits (heResult conf wconf res src e) 11 8 = min 15 (bits e 11 8 + bits wconf 11 8)) ∧
  (∀ conf wconf res src e, res < 4 → src < 4 → bits (heResult conf wconf res src e) 13 12 = src) ∧
  (∀ conf wconf res src e, res < 4 → src < 4 → heState e < 4 →
    (heState (heResult conf wconf res src e) = 4 ↔ bits conf 19 15 ≤ bits (heResult conf wconf res src e) 7 3)) ∧
  (∀ conf wconf res src e, res < 4 → src < 4 → heState e = 4 →
    (heState (heResult conf wconf res src e) = 4 ↔ bits conf 24 20 < bits (heResult conf wconf res src e) 7 3)) ∧
  (∀ conf wconf res src e, res < 4 → bits (heResult conf wconf res src e) 31 14 = bits e 31 14)

/-- The timers of scans, service lines, automatic spits and grants. The nozzle commands: a scan and a spit of an ARMED device start, those
of a printing one wait; the others act at once; another generation is refused with result 4. (08_nozzle_health.md R285,
08_nozzle_health.md R286) -/
def Obligations.NozzleCommands : Prop :=
  (∀ (p : Fin 16) s, blockSent s p = true → Completes (.scanBlockTimeout p) s (blockDone p s)) ∧
  (∀ (p : Fin 16) s, (nh s p).seq = 4 → blockSent s p = false →
    Completes (.scanBlockTimeout p) s (modNhl p (fun x =>
      { x with seq := 0, sentLines := 0, gapFired := 0, awaiting := 0, pendScan := x.pendScan || x.began, began := false }) s)) ∧
  (∀ (p : Fin 16) s, (nh s p).ending ≠ 0 → Completes (.serviceLineTimer p) s s) ∧
  (∀ (p : Fin 16) s, (nh s p).ending = 0 → (nh s p).seq = 2 → (nh s p).suspended = true → Completes (.serviceLineTimer p) s s) ∧
  (∀ (p : Fin 16) s, (nh s p).ending = 0 → (nh s p).seq = 2 → (nh s p).suspended = false → (nh s p).sentLines < scanLines s p →
    Completes (.serviceLineTimer p) s (svcLine p (fireService p s))) ∧
  (∀ (p : Fin 16) s, (nh s p).ending = 0 → (nh s p).seq = 2 → scanLines s p ≤ (nh s p).sentLines → (nh s p).suspended = false →
    Completes (.serviceLineTimer p) s (fireService p s)) ∧
  (∀ (p : Fin 16) s, (nh s p).ending = 0 → (nh s p).seq = 3 → (nh s p).sentLines < spitLines s p →
    Completes (.serviceLineTimer p) s (svcLine p (fireService p s))) ∧
  (∀ (p : Fin 16) s, (nh s p).ending = 0 → (nh s p).seq = 3 → spitLines s p ≤ (nh s p).sentLines → svcOpen s p = true →
    Completes (.serviceLineTimer p) s (fireService p s)) ∧
  (∀ (p : Fin 16) s, (nh s p).ending = 0 → (nh s p).seq = 3 → spitLines s p ≤ (nh s p).sentLines → svcOpen s p = false →
    Completes (.serviceLineTimer p) s (svcEnd p s)) ∧
  (∀ (p : Fin 16) s, fld s (R.NHL_Pn_SPIT p) 31 16 ≠ 0 → active s p = true → s.glb.state = .armed →
    Completes (.autoSpitTimer p) s (svcPending p (modNhl p (fun x => { x with pendSpit := true }) s))) ∧
  (∀ (p : Fin 16) s, fld s (R.NHL_Pn_SPIT p) 31 16 ≠ 0 → active s p = true → s.glb.state = .print → (nh s p).pendSpit = false →
    Completes (.autoSpitTimer p) s (modNhl p (fun x => { x with pendSpit := true, spitFrom := some s.now }) s)) ∧
  (∀ s, Completes .ledgerGrant s (forEach (List.range 16) svcGranted (ledgerEval 64 (ledgerInvar s)))) ∧
  (∀ (p : Fin 16) (gen : BitVec 16) s, windowOpen s 0 (R.NHL_Pn_CMD p) true = true → gen = (hp s p).gen → active s p = true →
    portBound s p = true → s.glb.state = .armed → bitOf ((hp s p).f 0x20 4) 0 = true → (nh s p).seq ∉ [1, 2, 3] →
    Completes (.nhlScan p gen) s (wr (R.NHL_Pn_CMD_STATUS p) (BitVec.ofNat 32 (1 + 16 * gnum s + 256))
      (svcStart p 2 (modNhl p (fun x => { x with suspended := false }) (hostAccess s))))) ∧
  (∀ (p : Fin 16) (gen : BitVec 16) s, windowOpen s 0 (R.NHL_Pn_CMD p) true = true → gen = (hp s p).gen → active s p = true →
    portBound s p = true → s.glb.state = .print → bitOf ((hp s p).f 0x20 4) 0 = true →
    Completes (.nhlScan p gen) s (wr (R.NHL_Pn_CMD_STATUS p) (BitVec.ofNat 32 (1 + 16 * gnum s + 256))
      (modNhl p (fun x => { x with suspended := false, pendScan := true }) (hostAccess s)))) ∧
  (∀ (p : Fin 16) (gen : BitVec 16) s, windowOpen s 0 (R.NHL_Pn_CMD p) true = true → gen = (hp s p).gen → active s p = true →
    portBound s p = true → s.glb.state = .armed → (nh s p).seq ∉ [1, 2, 3] →
    Completes (.nhlSpit p gen) s (wr (R.NHL_Pn_CMD_STATUS p) (BitVec.ofNat 32 (1 + 16 * gnum s + 512)) (svcStart p 3 (hostAccess s)))) ∧
  (∀ (p : Fin 16) (gen : BitVec 16) s, windowOpen s 0 (R.NHL_Pn_CMD p) true = true → gen = (hp s p).gen → active s p = true →
    portBound s p = true → s.glb.state = .print →
    Completes (.nhlSpit p gen) s (wr (R.NHL_Pn_CMD_STATUS p) (BitVec.ofNat 32 (1 + 16 * gnum s + 512))
      (modNhl p (fun x => { x with pendSpit := true, spitFrom := x.spitFrom.or (some s.now) }) (hostAccess s)))) ∧
  (∀ (p : Fin 16) (gen : BitVec 16) s, windowOpen s 0 (R.NHL_Pn_CMD p) true = true → gen = (hp s p).gen → portBound s p = true →
    5 ≤ s.glb.state.code → s.glb.state ≠ .shutdown →
    Completes (.nhlAbort p gen) s (wr (R.NHL_Pn_CMD_STATUS p) (BitVec.ofNat 32 (1 + 16 * gnum s + 768)) (svcAbortCmd p (hostAccess s)))) ∧
  (∀ (p : Fin 16) (gen : BitVec 16) s, windowOpen s 0 (R.NHL_Pn_CMD p) true = true → gen = (hp s p).gen → active s p = true →
    5 ≤ s.glb.state.code → s.glb.state ≠ .shutdown → portBound s p = true →
    Completes (.nhlRebuild p gen) s (wr (R.NHL_Pn_CMD_STATUS p) (BitVec.ofNat 32 (1 + 16 * gnum s + 1024)) (rebuildSubs p (hostAccess s)))) ∧
  (∀ (p : Fin 16) (gen : BitVec 16) s, windowOpen s 0 (R.NHL_Pn_CMD p) true = true → gen = (hp s p).gen → portBound s p = true →
    s.glb.state = .idle ∨ s.glb.state = .safeHold →
    Completes (.nhlClear p gen) s (wr (R.NHL_Pn_CMD_STATUS p) (BitVec.ofNat 32 (1 + 16 * gnum s + 1280)) (healthClear p (hostAccess s)))) ∧
  (∀ (p : Fin 16) (gen : BitVec 16) s c cmd, windowOpen s 0 (R.NHL_Pn_CMD p) true = true → gen ≠ (hp s p).gen →
    (c, cmd) ∈ [(Instr.nhlScan p gen, 1), (.nhlSpit p gen, 2), (.nhlAbort p gen, 3), (.nhlRebuild p gen, 4), (.nhlClear p gen, 5)] →
    Completes c s (logEvent Ev.NHL_CMD_REJECT p p cmd 4
      (wr (R.NHL_Pn_CMD_STATUS p) (BitVec.ofNat 32 (4 + 16 * gnum s + 256 * cmd)) (hostAccess s))))

/-- The cycle of a scanning printer: the end of a sweep adds its feed, the carriage at rest opens the turnaround, and the next sweep starts
when every gate holds. An entry with no line only feeds. (09_scanning.md R298, 09_scanning.md R300) -/
def Obligations.SweepCycle : Prop :=
  (∀ s, s.scn.st = .sweep → s.scn.ended = false → s.scn.restart = false → s.scn.begun = true → sweepOver s = true →
    slotsEnded s = true → Completes .sweepLastSlotEnd s (feedAdd s)) ∧
  (∀ s, s.scn.st = .turn → s.scn.ended = false → s.scn.restart = false → s.scn.begun = true → sweepOver s = true →
    slotsEnded s = true → Completes .sweepLastSlotEnd s (turnAdvance (feedAdd s))) ∧
  (∀ s, s.scn.st = .held → s.scn.ended = false → s.scn.begun = true → sweepOver s = true → slotsEnded s = true →
    Completes .sweepLastSlotEnd s { s with scn := { s.scn with acc := s.scn.acc + s.scn.cur.feed, ended := true, fed := false } }) ∧
  (∀ s, feedAdd s = feedMove { s with scn := { s.scn with acc := s.scn.acc + s.scn.cur.feed, ended := true } }) ∧
  (∀ s, feedTarget s = narrow 32 ((s.scn.y0 : Int) + rnd s.scn.acc 8)) ∧
  (∀ s, caAtRest s = true → s.scn.st = .sweep → s.scn.restAt = none → fld s R.SCN_SIG 15 15 = 0 → s.scn.restart = false →
    s.scn.ended = false →
    Completes .carriageAtRest s { s with scn := { s.scn with restAt := some s.now, st := .turn } }) ∧
  (∀ s, caAtRest s = true → s.scn.st = .sweep → s.scn.restAt = none → fld s R.SCN_SIG 15 15 = 0 → s.scn.restart = false →
    s.scn.ended = true →
    Completes .carriageAtRest s (turnEval (turnAdvance { s with scn := { s.scn with restAt := some s.now, st := .turn } }))) ∧
  (∀ s, caAtRest s = true → s.scn.st = .sweep → s.scn.restAt = none → fld s R.SCN_SIG 15 15 = 0 → s.scn.restart = true →
    Completes .carriageAtRest s (turnEval (turnRest { s with scn := { s.scn with restAt := some s.now, st := .turn } }))) ∧
  (∀ s, caAtRest s = true → s.scn.st = .turn → s.scn.stroke = false → s.scn.restAt = none →
    Completes .carriageAtRest s (turnEval (turnRest s))) ∧
  (∀ s, caAtRest s = true → s.scn.st = .turn → s.scn.stroke = true →
    Completes .carriageAtRest s (turnEval { s with scn := { s.scn with stroke := false, restAt := some s.now } })) ∧
  (∀ s, s.scn.fed = false → trAtRest s = true → s.scn.st = .sweep → s.scn.ended = true → s.scn.begun = false →
    Completes .feedComplete s { s with scn := { s.scn with fed := true, st := .done } }) ∧
  (∀ s, s.scn.fed = false → trAtRest s = true → s.scn.st = .turn →
    Completes .feedComplete s (turnEval { s with scn := { s.scn with fed := true } })) ∧
  (∀ s t, s.scn.st = .turn → s.scn.restAt = some t → invarAgrees s R.SCN_DWELL = true →
    t + 400000 * fld s R.SCN_DWELL 31 16 ≤ s.now → cooled s = false → s.scn.dwellMax = false → dataGate s = true →
    Completes .dwellTimer s (incF R.SCN_STAT2 15 8 { s with scn := { s.scn with dwellMax := true } })) ∧
  (∀ s, turnReady (turnEval s) = true → Completes .turnaroundGo s (sweepGo (turnEval s))) ∧
  (∀ s, turnReady (turnEval s) = false → Completes .turnaroundGo s (turnEval s)) ∧
  (∀ s, s.scn.cur.w = 0 → sweepGo s = turnEval (turnAdvance (feedAdd s))) ∧
  (∀ s, turnReady s = true → s.scn.st = .turn ∧ caAtRest s = true ∧ s.scn.fed = true ∧ dataGate s = true ∧ dwellGate s = true ∧
    s.glb.state = .print)

/-- SETJOB and ENDJOB in the states of the scanning unit: ENDJOB in TURN makes the pending entry, the one set up where the finished sweep
is not over, the last. (09_scanning.md R306, 09_scanning.md R308) -/
def Obligations.ScanCommands : Prop :=
  (∀ s, windowOpen s 0 R.SCN_CMD true = true → scanning s = true → s.scn.st ≠ .turn → s.scn.st ≠ .sweep →
    s.glb.state = .idle ∨ s.glb.state = .armed → jobCheck s = none →
    Completes .scnSetjob s (wr R.SCN_CMD_STATUS (BitVec.ofNat 32 (1 + 16 * scnCode s + 256)) (loadJob (hostAccess s)))) ∧
  (∀ s c e, windowOpen s 0 R.SCN_CMD true = true → scanning s = true → s.scn.st ≠ .turn → s.scn.st ≠ .sweep →
    s.glb.state = .idle ∨ s.glb.state = .armed → jobCheck s = some (c, e) →
    Completes .scnSetjob s (logEvent Ev.DOT_CMD_REJECT 0xFF 0xFF 1 4
      (wr R.SCN_CMD_STATUS (BitVec.ofNat 32 (4 + 16 * scnCode s + 256 + 4096 * c + 65536 * e)) (hostAccess s)))) ∧
  (∀ s, windowOpen s 0 R.SCN_CMD true = true →
    scanning s = false ∨ s.scn.st = .turn ∨ s.scn.st = .sweep ∨ (s.glb.state ≠ .idle ∧ s.glb.state ≠ .armed) →
    Completes .scnSetjob s (logEvent Ev.DOT_CMD_REJECT 0xFF 0xFF 1 2
      (wr R.SCN_CMD_STATUS (BitVec.ofNat 32 (2 + 16 * scnCode s + 256)) (hostAccess s)))) ∧
  (∀ s x, windowOpen s 0 R.SCN_CMD true = true → scanning s = true →
    x = (match s.scn.st with
      | .ready => { s.scn with st := .nojob }
      | .turn => (match s.scn.restart, s.scn.nxt with
        | false, some w => { s.scn with nxt := some { w with next := 2 } }
        | _, _ => { s.scn with last := true, nxt := none })
      | .sweep => { s.scn with last := true, nxt := none }
      | .held => { s.scn with st := .done, restart := false }
      | _ => s.scn) →
    Completes .scnEndjob s (wr R.SCN_CMD_STATUS (BitVec.ofNat 32 (1 + 16 * scnCode s + 512)) { hostAccess s with scn := x })) ∧
  (∀ s, windowOpen s 0 R.SCN_CMD true = true → scanning s = false →
    Completes .scnEndjob s (logEvent Ev.DOT_CMD_REJECT 0xFF 0xFF 2 2
      (wr R.SCN_CMD_STATUS (BitVec.ofNat 32 (2 + 512)) (hostAccess s))))

/-- Quadrature: one changed level is one count, up while A leads B; both at once are an illegal transition; a count moves the 48-bit
position and, at its wrap, the epoch. Sin/cos channels: a valid sample moves the position by its phase step, an invalid one holds it;
after 1,024 valid samples a channel in FAULT returns to OK with a suspect position. (10_position.md R312, 10_position.md R316,
10_position.md R317, 10_position.md R320) -/
def Obligations.EncoderInputs : Prop :=
  (∀ (n : Fin 8) a b s, pcUnused s n = false → pcSinCos s n = false →
    (grayPlace a b + 4 - grayPlace (vat s.enc n).1 (vat s.enc n).2) % 4 = 1 →
    Completes (.encoderEdge n a b) s (reactiveGens n (quadEdge n (!pcReverse s n) { s with enc := vset s.enc n (a, b) }))) ∧
  (∀ (n : Fin 8) a b s, pcUnused s n = false → pcSinCos s n = false →
    (grayPlace a b + 4 - grayPlace (vat s.enc n).1 (vat s.enc n).2) % 4 = 3 →
    Completes (.encoderEdge n a b) s (reactiveGens n (quadEdge n (pcReverse s n) { s with enc := vset s.enc n (a, b) }))) ∧
  (∀ (n : Fin 8) a b s, pcUnused s n = false → pcSinCos s n = false → a ≠ (vat s.enc n).1 → b ≠ (vat s.enc n).2 →
    Completes (.encoderEdge n a b) s (inputFault n true { s with enc := vset s.enc n (a, b) })) ∧
  (∀ a b a' b', ((grayPlace a' b' + 4 - grayPlace a b) % 4 = 1 ∨ (grayPlace a' b' + 4 - grayPlace a b) % 4 = 3 ↔ (a ≠ a') ≠ (b ≠ b'))) ∧
  (∀ (n : Fin 8) d s, -65536 ≤ d → d ≤ 65536 → (pch s n).pos < 2 ^ 48 →
    (pch (pcCount n d s) n).pos = narrow 48 ((pch s n).pos + d) ∧ (pch (pcCount n d s) n).t = s.now ∧
    (pch (pcCount n d s) n).epoch = (if ((pch s n).pos : Int) + d < 0 then narrow 8 ((pch s n).epoch - 1)
      else if (2 : Int) ^ 48 ≤ (pch s n).pos + d then narrow 8 ((pch s n).epoch + 1) else narrow 8 (pch s n).epoch)) ∧
  (∀ s n t, tooClose s n (some t) = decide (s.now < t + 4 * pcMinEdge s n)) ∧
  (∀ (n : Fin 8) xs xc s s1, pcSinCos s n = true → invarAgrees s (R.POS_PCn_SCWIN n) = true →
    s1 = setF (R.POS_PCn_SCAMP n) 23 0 (narrow 24 (scSine s n xs * scSine s n xs + scCosine s n xc * scCosine s n xc)) s →
    scBad s1 n (narrow 24 (scSine s n xs * scSine s n xs + scCosine s n xc * scCosine s n xc))
      (signed 12 (narrow 12 ((interpolate (scSine s n xs) (scCosine s n xc) : Int) - (pch s1 n).ph))) = 0 →
    Completes (.sincosSample n xs xc) s (scValid n (interpolate (scSine s n xs) (scCosine s n xc))
      (signed 12 (narrow 12 ((interpolate (scSine s n xs) (scCosine s n xc) : Int) - (pch s1 n).ph))) s1)) ∧
  (∀ (n : Fin 8) amp2 why s, (pch s n).bad + 1 < fld s (R.POS_PCn_SCWIN n) 19 16 →
    scInvalid n amp2 why s = modPc n (fun x => { x with bad := x.bad + 1, good := 0 }) s) ∧
  (∀ (n : Fin 8) ph d s, (pch s n).fault = true →
    scValid n ph d s = modPc n (fun x => { x with bad := 0, good := x.good + 1, ph := ph }) s) ∧
  (∀ (n : Fin 8) s, (pch s n).fault = true → 1024 ≤ (pch s n).good →
    Completes (.signalOk n) s (logEvent Ev.POS_SIGNAL_OK n n (fld s (R.POS_PCn_SCAMP n) 23 0) 0
      (modPc n (fun x => { restart x [] with fault := false, suspect := true, good := 0 }) s))) ∧
  (∀ (n : Fin 8) s l p, pcSinCos s n = true → (pch s n).fault = false → l = ((pch s n).pos :: (pch s n).samples).take 5 →
    l[4]? = some p → 0 ≤ satS 32 (rnd (diff48 (pch s n).pos p * 25000) 12) → (pch s n).dir = false →
    Completes (.sincosSpeedTick n) s (modPc n (fun x => { x with
      samples := l, v := satS 32 (rnd (diff48 (pch s n).pos p * 25000) 12), valid := true }) s)) ∧
  (∀ sn cs, sn ≠ 0 ∨ cs ≠ 0 → phaseExact sn cs = false →
    interpolate sn cs = phaseStep sn cs % 4096 ∨ interpolate sn cs = (phaseStep sn cs + 1) % 4096)

/-- Index edges and the speed timers of a quadrature channel. PRESET, CLRCNT and the compare commands by the tables of the position unit;
the read of POS_INT answers and takes the snapshot. (10_position.md R314, 10_position.md R326, 10_position.md R328, 10_position.md
R341, 10_position.md R342) -/
def Obligations.PositionChannels : Prop :=
  (∀ (n : Fin 8) s s1, pcHasIndex s n = true → tooClose s n (pch s n).zAt = false → fld s (R.POS_PCn_CAPCFG n) 6 6 = 0 →
    s1 = eeZ n (modPc n (fun x => { x with zAt := some s.now }) s) → fld s1 (R.POS_PCn_CAPCFG n) 1 0 = 1 →
    Completes (.indexEdge n) s (capture n (pch s1 n).pos (pch s1 n).epoch s1.now s1)) ∧
  (∀ (n : Fin 8) s, pcHasIndex s n = true → tooClose s n (pch s n).zAt = true →
    Completes (.indexEdge n) s (modPc n (fun x => { x with zAt := some s.now }) (inputFault n false s))) ∧
  (∀ (n : Fin 8) s, pcUnused s n = false → pcSinCos s n = false →
    Completes (.speedStandstillTimeout n) s (modPc n (fun x => { x with hist := [], v := 0, valid := false, samples := [x.pos] }) s)) ∧
  (∀ (n : Fin 8) s, pcUnused s n = false → pcSinCos s n = false → (pch s n).valid = false →
    Completes (.speedSampleTick n) s s) ∧
  (∀ (n : Fin 8) s te l, pcUnused s n = false → pcSinCos s n = false → (pch s n).hist = te :: l → (pch s n).valid = true →
    2 * ((pch s n).mean.2 / max 1 (pch s n).mean.1) < s.now - te → (pch s n).dir = false → pcGens s n = [] →
    Completes (.speedSampleTick n) s
      (modPc n (fun x => { x with v := satS 32 ((6400000000 / (s.now - te) : Nat) : Int) }) s)) ∧
  (∀ n p e t s, ¬(fld s (R.POS_PCn_CAPCFG n) 5 5 = 1 ∧ fld s (R.POS_PCn_FLAG n) 4 4 = 1) → fld s (R.POS_PCn_CAPCFG n) 15 15 = 0 →
    capture n p e t s = setFlag (R.POS_PCn_FLAG n) 4 (wr (R.POS_PCn_CAP_THI n) (BitVec.ofNat 32 (t / 2 ^ 32))
      (wr (R.POS_PCn_CAP_TLO n) (BitVec.ofNat 32 t) (wr (R.POS_PCn_CAP_FRAC n) (BitVec.ofNat 32 (p % 65536 + e * 65536))
        (wr (R.POS_PCn_CAP_INT n) (BitVec.ofNat 32 (ipart p)) s))))) ∧
  (∀ (n : Fin 8) s, windowOpen s 0 (R.POS_PCn_CMD n) true = true → 4 ≤ s.glb.state.code → s.glb.state ≠ .shutdown →
    pcUnused s n = false → pcInUse s n = false →
    Completes (.posPreset n) s
      (preset n (wr (R.POS_PCn_CMD_STATUS n) (BitVec.ofNat 32 (1 + 16 * gnum s + 256)) (hostAccess s)))) ∧
  (∀ (n : Fin 8) s, windowOpen s 0 (R.POS_PCn_CMD n) true = true → s.glb.state ≠ .off →
    posEarly s n = true ∨ pcInUse s n = true ∨ s.glb.state = .shutdown →
    Completes (.posPreset n) s (posResult (R.POS_PCn_CMD_STATUS n) n 1 2 (hostAccess s))) ∧
  (∀ (n : Fin 8) s, windowOpen s 0 (R.POS_PCn_CMD n) true = true → 4 ≤ s.glb.state.code → pcUnused s n = false →
    Completes (.posClrcnt n) s (wr (R.POS_PCn_FAULTCNT n) 0
      (wr (R.POS_PCn_CMD_STATUS n) (BitVec.ofNat 32 (1 + 16 * gnum s + 512)) (hostAccess s)))) ∧
  (∀ (n : Fin 8) (m : Fin 4) s, windowOpen s 0 (R.POS_PCn_CMPm_CMD n m) true = true → 4 ≤ s.glb.state.code →
    s.glb.state ≠ .shutdown → pcUnused s n = false → cmpArmed s n m = false →
    Completes (.cmpArm n m) s
      (cmpArm n m (wr (R.POS_PCn_CMPm_CMD_STATUS n m) (BitVec.ofNat 32 (1 + 16 * gnum s + 256)) (hostAccess s)))) ∧
  (∀ (n : Fin 8) (m : Fin 4) s, windowOpen s 0 (R.POS_PCn_CMPm_CMD n m) true = true → s.glb.state ≠ .off →
    posEarly s n = true ∨ cmpArmed s n m = true ∨ s.glb.state = .shutdown →
    Completes (.cmpArm n m) s (posResult (R.POS_PCn_CMPm_CMD_STATUS n m) (32 + (4 * n + m)) 1 2 (hostAccess s))) ∧
  (∀ (n : Fin 8) (m : Fin 4) s, windowOpen s 0 (R.POS_PCn_CMPm_CMD n m) true = true → 4 ≤ s.glb.state.code → pcUnused s n = false →
    Completes (.cmpDisarm n m) s (setF (R.POS_PCn_CMPm_STAT n m) 0 0 0
      (wr (R.POS_PCn_CMPm_CMD_STATUS n m) (BitVec.ofNat 32 (1 + 16 * gnum s + 512)) (hostAccess s)))) ∧
  (∀ (n : Fin 8) s, windowOpen s 0 (R.POS_PCn_POS_INT n) false = true →
    Completes (.posIntRead n) s (respond 0 (R.POS_PCn_POS_INT n) (leBytes 4 (ipart (pch s n).pos)) (posSnap n (hostAccess s)))) ∧
  (∀ (n : Fin 8) s p, p = (rd s (R.POS_PCn_PRESET_INT n)).toNat * 65536 + fld s (R.POS_PCn_PRESET_FRAC n) 15 0 →
    pcGens s n = [] → (∀ e < 4, eeSource s e ≠ n) →
    preset n s = modPc n (fun x => { x with
      hist := [], v := 0, valid := false, samples := [p], pos := p, epoch := 0, dir := false,
      ext := p, suspect := false, cmp := x.cmp.map (fun c => { c with mark := p }) }) s)

/-- A compare's hit: what it records, and the disarm of a compare without spacing; the behind checks of its modes. Emulated-encoder
outputs: one step toward the target, none while motion is held. (10_position.md R337, 10_position.md R339) -/
def Obligations.ComparesAndOutputs : Prop :=
  (∀ n m s, cmpSpace s n m = 0 → cmpAfter n m (cmpBehind n m) s = cmpDisarm n m s) ∧
  (∀ n m s, fld s (R.POS_PCn_CMPm_CTL n m) 3 2 = 0 ∨ fld s (R.POS_PCn_CMPm_CTL n m) 3 2 = 3 →
    cmpBehind n m s = logEvent Ev.CMP_MISSED (cmpInst n m) (cmpInst n m) (ipart (cmpTgt s n m)) (ipart (cmpRec s n m).mark)
      (cmpDisarm n m (setFlag (R.POS_PCn_CMPm_FLAG n m) 1 s))) ∧
  (∀ n m s, fld s (R.POS_PCn_CMPm_CTL n m) 3 2 = 1 → cmpBehind n m s = cmpSkip n m s) ∧
  (∀ n m s, fld s (R.POS_PCn_CMPm_CTL n m) 3 2 = 2 → cmpBehind n m s = cmpLate n m s) ∧
  (∀ rev mark p, (if rev then 0 < diff48 mark p else 0 < diff48 p mark) → markStep rev mark p = p) ∧
  (∀ rev mark p, (if rev then diff48 mark p ≤ 0 else diff48 p mark ≤ 0) → markStep rev mark p = mark) ∧
  (∀ n old m s, cmpArmed s n m = false →
    cmpEval n old m s = modCmp n m (fun c => { c with mark := markStep (cmpDir s n m = 1) c.mark (pch s n).pos }) s) ∧
  (∀ (e : Fin 4) s, holding s = true ∨ eeSource s e = 0xFF ∨ eeDiff s e = 0 → Completes (.eeOutputStep e) s s) ∧
  (∀ (e : Fin 4) s c, holding s = false → eeSource s e ≠ 0xFF → 0 < eeDiff s e → fld s (R.POS_EEn_CFG e) 8 8 = 0 →
    c = narrow 32 ((rd s (R.POS_EEn_OUT e)).toNat + 1) →
    Completes (.eeOutputStep e) s (eeLag e
      (eePin e "EEn_A" (eeu s e).a (c % 4 = 1 || c % 4 = 2) (eePin e "EEn_B" (eeu s e).b (c % 4 = 2 || c % 4 = 3)
        (modEe e (fun x => { x with a := c % 4 = 1 || c % 4 = 2, b := c % 4 = 2 || c % 4 = 3 })
          (wr (R.POS_EEn_OUT e) (BitVec.ofNat 32 c) s)))))) ∧
  (∀ (e : Fin 4) s c, holding s = false → eeSource s e ≠ 0xFF → eeDiff s e < 0 → fld s (R.POS_EEn_CFG e) 8 8 = 0 →
    c = narrow 32 ((rd s (R.POS_EEn_OUT e)).toNat - 1) →
    Completes (.eeOutputStep e) s (eeLag e
      (eePin e "EEn_A" (eeu s e).a (c % 4 = 1 || c % 4 = 2) (eePin e "EEn_B" (eeu s e).b (c % 4 = 2 || c % 4 = 3)
        (modEe e (fun x => { x with a := c % 4 = 1 || c % 4 = 2, b := c % 4 = 2 || c % 4 = 3 })
          (wr (R.POS_EEn_OUT e) (BitVec.ofNat 32 c) s))))))

/-- An update of an axis: the soft limit a JOG runs to, HOME's reversal by HBACK, soft limits, the generator's step, the drive mode and
stall detection, in this order; an axis that is OFF or in FAULT only shows its deviation. A goal reached is met exactly, at speed and
acceleration 0. The order, the follow-up of a JOG's limit and a reversal of half a turn or more are the model's (log 30). The coils of
an axis: the microstep table, the four full steps, the duty of quiet mode and the chopper of strong mode; an axis that is OFF drives
nothing. The inputs of an axis: the bridge fault, the limits, the home input and its timers. (11_steppers.md R349, 11_steppers.md R357,
11_steppers.md R359, 11_steppers.md R363, 11_steppers.md R367) -/
def Obligations.AxisMotion : Prop :=
  (∀ (n : Fin 8) s, axUsed s n = true → (ax s n).st ≠ .off → (ax s n).st ≠ .fault →
    (∀ o, o ∈ [R.STP_SAn_EDEC n, R.STP_SAn_SOFTMIN n, R.STP_SAn_SOFTMAX n, R.STP_SAn_STALLWIN n, R.STP_SAn_LIMCFG n] →
      invarAgrees s o = true) →
    Completes (.profileUpdate n) s (axStall n (axModeCheck n (axInt s n) (axAdvance n (axSoftCheck n (homeFar n (axJog n s))))))) ∧
  (∀ (n : Fin 8) s, axUsed s n = false → Completes (.profileUpdate n) s s) ∧
  (∀ (n : Fin 8) s, axUsed s n = true → (ax s n).st = .off ∨ (ax s n).st = .fault → Completes (.profileUpdate n) s (axDevShow n s)) ∧
  (∀ n s, (ax s n).st ≠ .moving → axJog n s = s) ∧
  (∀ n neg s, (ax s n).st = .moving → s.ss.phase = 0 → (ax s n).prof.goal = .vel neg →
    axJog n s = modProf n (fun p => { p with goal := jogGoal s n neg }) s) ∧
  (∀ n s, (ax s n).st ≠ .homing → homeFar n s = s) ∧
  (∀ n neg t s, (ax s n).st = .homing → (ax s n).phase = 2 → (ax s n).prof.goal = .vel neg → (ax s n).after = some t →
    (if neg then (ax s n).prof.dist t ≤ 0 else 0 ≤ (ax s n).prof.dist t) →
    homeFar n s = modAx n (fun x => { x with after := none, prof := { x.prof with goal := .pos t } }) s) ∧
  (∀ (x : Prof) t e, x.goal = .pos t ∨ x.goal = .jog t → (x.next e).2.2 = true →
    (x.move (x.next e)).p = t * unitPos ∧ (x.move (x.next e)).v = 0 ∧ (x.move (x.next e)).a = 0 ∧ (x.move (x.next e)).goal = .none) ∧
  (∀ (x : Prof) e, x.goal = .emerg → 0 < x.v →
    (x.next e).1 = max (x.v - e * unitAcc) 0 ∧ ((x.next e).2.2 = true ↔ x.v ≤ e * unitAcc)) ∧
  (∀ (n : Fin 8) va vb s, axUsed s n = false ∨ (ax s n).st = .off ∨ (ax s n).dark = true →
    Completes (.stepperPwmPeriod n va vb) s (modAx n (fun x => { x with coilA := 0, coilB := 0 }) s)) ∧
  (∀ (n : Fin 8) va vb s, axUsed s n = true → (ax s n).st ≠ .off → (ax s n).dark = false → (ax s n).strong = false →
    invarAgrees s (R.STP_SAn_IRUN n) = true →
    Completes (.stepperPwmPeriod n va vb) s (modAx n (fun x => { x with
      coilA := Int.tdiv ((setPoints s n).1 * (if (ax s n).low then fld s (R.STP_SAn_QAMP n) 27 16 else fld s (R.STP_SAn_QAMP n) 11 0)) 4096,
      coilB := Int.tdiv ((setPoints s n).2 * (if (ax s n).low then fld s (R.STP_SAn_QAMP n) 27 16 else fld s (R.STP_SAn_QAMP n) 11 0)) 4096 }) s)) ∧
  (∀ s n a b, microstep s n (axInt s n % 256) = (a, b) → bitOf (axInputs s n) 4 = false →
    setPoints s n = (match axInt s n % 1024 / 256 with
      | 0 => ((a : Int), (b : Int))
      | 1 => (-b, a)
      | 2 => (-a, -b)
      | _ => (b, -a))) ∧
  (∀ (n : Fin 8) va vb s s1, axUsed s n = true → (ax s n).st ≠ .off → (ax s n).dark = false → (ax s n).strong = true →
    s1 = adcPut (41 + 2 * n.val) (vb.toNat / 1000) (adcPut (40 + 2 * n.val) (va.toNat / 1000) s) →
    invarAgrees s1 (R.STP_SAn_IRUN n) = true →
    Completes (.stepperPwmPeriod n va vb) s (modAx n (fun x => { x with
      coilA := coilDrive s1 n (setPoints s1 n).1 (quot va.toNat (fld s1 (R.STP_SAn_SHUNT n) 15 0)),
      coilB := coilDrive s1 n (setPoints s1 n).2 (quot vb.toNat (fld s1 (R.STP_SAn_SHUNT n) 15 0)) }) s1)) ∧
  (∀ s n set_ ma, (ax s n).strong = true → (ax s n).low = false → 0 < set_ →
    ma < set_.natAbs * fld s (R.STP_SAn_IRUN n) 15 0 / 4096 → coilDrive s n set_ ma = 4096) ∧
  (∀ s n set_ ma off, (ax s n).strong = true → (ax s n).low = false → 0 < set_ →
    set_.natAbs * fld s (R.STP_SAn_IRUN n) 15 0 / 4096 ≤ ma → off = min (pwmPeriod s n) (100 * fld s (R.STP_SAn_PWM n) 23 16) →
    coilDrive s n set_ ma = Int.tdiv (4096 * ((pwmPeriod s n : Int) - (if fld s (R.STP_SAn_PWM n) 7 7 = 1 then 2 * off else off)))
      (max 1 (pwmPeriod s n) : Nat)) ∧
  (∀ (n : Fin 8) s, axUsed s n = true → (ax s n).dark = false → axIsTransport s n = false → axIsCarriage s n = false →
    Completes (.stpBridgeFault n) s (raise (Ev.STP_BRIDGE_FAULT .warn) n n (axCode s n) (axInt s n)
      (axRelease n (setAx n .fault (modAx n (fun x => { x with
        prof := { x.prof with v := 0, a := 0, goal := .none }, phase := 0, after := none, toFault := false, dark := true,
        coilA := 0, coilB := 0 }) (setFlag (R.STP_SAn_FLAG n) 3 s)))))) ∧
  (∀ (n : Fin 8) s, axUsed s n = true → (ax s n).dark = false → axIsTransport s n = true → haltable s = true →
    ∃ t, exec (.stpBridgeFault n) s = .next t ∧ t.glb.state = .safeHold) ∧
  (∀ (n : Fin 8) (limB : Bool) s, Completes (.limitQualified n limB false) s
    (modAx n (fun x => if limB then { x with limb := false } else { x with lima := false }) s)) ∧
  (∀ (n : Fin 8) (limB : Bool) s s1, axUsed s n = true → (ax s n).st = .moving →
    (if limB then 0 < (ax s n).prof.v else (ax s n).prof.v < 0) → axIsTransport s n = false →
    s1 = modAx n (fun x => if limB then { x with limb := true } else { x with lima := true }) s →
    Completes (.limitQualified n limB true) s (axRamp n (ax s n).toFault none
      (logEvent Ev.STP_LIMIT n n (if limB then 2 else 1) (axInt s n) (setFlag (R.STP_SAn_FLAG n) 2 s1)))) ∧
  (∀ (n : Fin 8) s, (ax s n).st = .homing → Completes (.homeChatterTimeout n) s
    (logEvent Ev.HOME_FAIL_CHATTER n n (ax s n).phase (axInt s n) (homeFail n false s))) ∧
  (∀ (n : Fin 8) s, (ax s n).st = .hold → (ax s n).prof.v = 0 →
    Completes (.holdDelayExpiry n) s (modAx n (fun x => { x with low := true }) s)) ∧
  (∀ (n : Fin 8) active first chans s s1, axUsed s n = true →
    s1 = modAx n (fun x => if homeSeparate s n then { x with home := active }
      else if homeNeg s n then { x with lima := active } else { x with limb := active }) s →
    (∀ c < 8, fld s (R.POS_PCn_CAPCFG c) 1 0 ≠ 2) →
    Completes (.homeEdgeQualified n active first chans) s (homeEdge n active first.pos.toNat (s1.now - first.ago.toNat) s1)) ∧
  (∀ n pos t s, (ax s n).st = .homing → (ax s n).edge = false → (ax s n).phase = 3 → (ax s n).phaseAt < t →
    homeEdge n true pos t s = modProf n (fun p => { p with goal := .stop }) (homeLatch n pos s)) ∧
  (∀ n active pos t s, (ax s n).edge = true → homeEdge n active pos t s = s) ∧
  (∀ n active pos t s, (ax s n).phase = 3 → t ≤ (ax s n).phaseAt → homeEdge n active pos t s = s)

/-- The nine commands of an axis where they act, by the table of states and commands. (11_steppers.md R370) -/
def Obligations.AxisCommands : Prop :=
  (∀ (n : Fin 8) s u, windowOpen s 0 (R.STP_SAn_CMD n) true = true → u = hostAccess s →
    stpOpen u n 1 = true → (ax u n).st = .off →
    Completes (.stpEnable n) s (stpResult n 1 1 1 (stpEnable n u))) ∧
  (∀ (n : Fin 8) s u, windowOpen s 0 (R.STP_SAn_CMD n) true = true → u = hostAccess s →
    stpOpen u n 2 = true → (ax u n).st ≠ .off → (ax u n).st ≠ .fault →
    Completes (.stpDisable n) s (stpResult n 2 1 (axCode u n) (axOff n u))) ∧
  (∀ (n : Fin 8) s u, windowOpen s 0 (R.STP_SAn_CMD n) true = true → u = hostAccess s →
    stpOpen u n 3 = true → (ax u n).st = .hold ∨ (ax u n).st = .moving →
    useSoft 2 n u = u → axBadTarget u n (rd u (R.STP_SAn_TGT n)).toNat = false →
    Completes (.stpMove n) s (stpResult n 3 1 (axCode u n) (axPlan n (.pos (rd u (R.STP_SAn_TGT n)).toNat) u))) ∧
  (∀ (n : Fin 8) s u, windowOpen s 0 (R.STP_SAn_CMD n) true = true → u = hostAccess s →
    stpOpen u n 3 = true → (ax u n).st = .hold ∨ (ax u n).st = .moving →
    useSoft 2 n u = u → axBadTarget u n (rd u (R.STP_SAn_TGT n)).toNat = true → Completes (.stpMove n) s (stpResult n 3 4 (axCode u n) u)) ∧
  (∀ (n : Fin 8) (neg : Bool) s u, windowOpen s 0 (R.STP_SAn_CMD n) true = true → u = hostAccess s →
    stpOpen u n 4 = true → (ax u n).st = .hold ∨ (ax u n).st = .moving →
    useSoft 2 n u = u → (if neg then (ax u n).lima else (ax u n).limb) = false →
    Completes (.stpJog n neg) s (stpResult n 4 1 (axCode u n) (axPlan n (jogGoal u n neg) u))) ∧
  (∀ (n : Fin 8) s u, windowOpen s 0 (R.STP_SAn_CMD n) true = true → u = hostAccess s →
    stpOpen u n 5 = true → (ax u n).st = .moving →
    Completes (.stpStop n) s (stpResult n 5 1 3 (modProf n (fun x => { x with goal := .stop }) u))) ∧
  (∀ (n : Fin 8) s u, windowOpen s 0 (R.STP_SAn_CMD n) true = true → u = hostAccess s →
    stpOpen u n 6 = true → (ax u n).st = .moving ∨ (ax u n).st = .homing →
    Completes (.stpEstop n) s (stpResult n 6 1 (axCode u n) (axRamp n false none u))) ∧
  (∀ (n : Fin 8) s u, windowOpen s 0 (R.STP_SAn_CMD n) true = true → u = hostAccess s →
    stpOpen u n 7 = true → (ax u n).st = .hold → Completes (.stpHome n) s (stpResult n 7 1 2 (homeStart n u))) ∧
  (∀ (n : Fin 8) s u, windowOpen s 0 (R.STP_SAn_CMD n) true = true → u = hostAccess s →
    stpOpen u n 8 = true → (ax u n).st = .off ∨ (ax u n).st = .hold →
    Completes (.stpSetpos n) s (stpResult n 8 1 (axCode u n)
      (axRefs n (modProf n (fun x => x.place ((rd u (R.STP_SAn_PRESET n)).toNat * 65536)) u)))) ∧
  (∀ (n : Fin 8) s u, windowOpen s 0 (R.STP_SAn_CMD n) true = true → u = hostAccess s →
    stpOpen u n 9 = true → (ax u n).st = .fault →
    Completes (.stpClrfault n false) s (stpResult n 9 1 6 (axOff n u)) ∧
    Completes (.stpClrfault n true) s (stpResult n 9 5 6 u))

/-- The commands of an axis where they are refused: before IDLE, in the holds but DISABLE and CLRFAULT, unused, or owned by the device. The
status word takes the result, and STP_CMD_REJECT is all that follows. (11_steppers.md R370) -/
def Obligations.AxisCommandsRefused : Prop :=
  (∀ (n : Fin 8) s u c cmd, windowOpen s 0 (R.STP_SAn_CMD n) true = true → u = hostAccess s →
    u.glb.state ≠ .off → stpOpen u n cmd = false →
    (c, cmd) ∈ [(Instr.stpEnable n, 1), (.stpDisable n, 2), (.stpMove n, 3), (.stpJog n true, 4), (.stpJog n false, 4), (.stpStop n, 5),
      (.stpEstop n, 6), (.stpHome n, 7), (.stpSetpos n, 8), (.stpClrfault n true, 9), (.stpClrfault n false, 9)] →
    Completes c s (logEvent Ev.STP_CMD_REJECT n n cmd 2
      (wr (R.STP_SAn_CMD_STATUS n) (BitVec.ofNat 32 (2 + 16 * axCode u n + 256 * cmd)) u))) ∧
  (∀ s n cmd, axUsed s n = false → stpOpen s n cmd = false) ∧
  (∀ s n cmd, s.glb.state.code < 5 → stpOpen s n cmd = false) ∧
  (∀ s n cmd, axOwned s n = true → cmd ∈ [2, 3, 4, 5, 7, 8] → stpOpen s n cmd = false) ∧
  (∀ s n cmd, holding s = true → cmd ≠ 2 → cmd ≠ 9 → stpOpen s n cmd = false) ∧
  (∀ s n, axUsed s n = true → s.glb.state ∈ [GState.idle, .armed, .print, .stopping] → axOwned s n = false →
    ∀ cmd, stpOpen s n cmd = true)

/-- The start of a motor: what the end of the pre-start window decides, the alignment, and the reverse brake. The angle taken up on a catch
follows the last crossing, as the model reads it (log 79). Zero crossings, the reacquisition window, and the end of a coast.
(12_motor_drive.md R384, 12_motor_drive.md R388) -/
def Obligations.MotorStart : Prop :=
  (∀ (n : Fin 4) s, (mo s n).st = .sense → senseSpeed s n = none →
    Completes (.senseWindowEnd n) s (moAlign n (modMo n (fun x => { x with speed := 0 }) s))) ∧
  (∀ (n : Fin 4) v s, (mo s n).st = .sense → senseSpeed s n = some v → (catchRpm s n : Int) ≤ v →
    fld s (R.MOT_MCn_CFG n) 2 2 = 1 → (focRpm s n : Int) ≤ v →
    Completes (.senseWindowEnd n) s (logEvent Ev.MOT_CATCH n n (toWord v).toNat 1 (moRun n v
      (modMo n (fun x => { x with speed := v, angle := heldAngle s n v }) s)))) ∧
  (∀ (n : Fin 4) v s, (mo s n).st = .sense → senseSpeed s n = some v → (catchRpm s n : Int) ≤ v →
    fld s (R.MOT_MCn_CFG n) 2 2 = 1 → v < focRpm s n →
    Completes (.senseWindowEnd n) s (logEvent Ev.MOT_CATCH n n (toWord v).toNat 2
      (moStartup n true (v * (1000 * moPwmKhz s n : Nat)) (modMo n (fun x => { x with speed := v }) s)))) ∧
  (∀ (n : Fin 4) v s, (mo s n).st = .sense → senseSpeed s n = some v → v < 0 → v ≤ -(revRpm s n : Int) →
    fld s (R.MOT_MCn_CFG n) 3 3 = 1 → ∃ t, exec (.senseWindowEnd n) s = .next t ∧ (mo t n).st = .revbrake) ∧
  (∀ (n : Fin 4) s, (mo s n).st = .align → moEncoder s n = false → Completes (.alignEnd n) s (moStartup n false 0 s)) ∧
  (∀ (n : Fin 4) s, (mo s n).st = .align → moEncoder s n = true →
    Completes (.alignEnd n) s (moRun n 0 (wr (R.MOT_MCn_EOFS n) (BitVec.ofNat 32 (narrow 16
      (-(quot ((pch s (moEncPc s n)).pos / 65536 * moPoles s n * 65536) (rd s (R.MOT_MCn_ENCRES n)).toNat : Nat)) + 65536)) s))) ∧
  (∀ (n : Fin 4) s, (mo s n).st = .revbrake → (mo s n).revHold = true → Completes (.revbrakeHoldEnd n) s (moAlign n s)) ∧
  (∀ (n : Fin 4) s, (mo s n).st = .sense ∨ (mo s n).st = .revbrake → (mo s n).revFrom.isSome = true → (mo s n).revHold = false →
    Completes (.reverseTimeout n) s (logEvent Ev.MOT_REVERSE_HELD n n (toWord (mo s n).speed).toNat ((mo s n).brakedMs s.now)
      (moRelease n (setMo n .off (modMo n Motor.idle (setFlag (R.MOT_MCn_FLAG n) 5 s)))))) ∧
  (∀ (n : Nat) s, moEncoder s n = true → fld s (R.MOT_MCn_EOFS n) 16 16 = 1 → moAlign n s = moRun n 0 s) ∧
  (∀ (x : Motor) t now, x.revAt = some t → x.brakedMs now = (now - t) / 400000) ∧
  (∀ s n v, moEncoder s n = true → heldAngle s n v = (fld s (R.MOT_MCn_EOFS n) 15 0 +
    quot ((pch s (moEncPc s n)).pos / 65536 * moPoles s n * 65536) (rd s (R.MOT_MCn_ENCRES n)).toNat) % 65536) ∧
  (∀ (n : Fin 4) v s, (mo (moRun n v s) n).st = .run ∧ (mo (moRun n v s) n).speed = v ∧
    (mo (moRun n v s) n).demand = v * demScale s n ∧ (mo (moRun n v s) n).iqReg = 0 ∧
    (mo (moRun n v s) n).ramp = fld s (R.MOT_MCn_HANDOVER n) 23 16) ∧
  (∀ (n : Fin 4) (phase : Fin 3) rising s, (mo s n).st = .sense ∨ (mo s n).st = .reacq → (mo s n).zc.length < 6 →
    Completes (.zeroCrossing n phase rising) s
      (modMo n (fun x => { x with zc := ((s.now, zcIndex phase.val rising) :: x.zc).take 64 }) s)) ∧
  (∀ (n : Fin 4) (phase : Fin 3) rising s, (mo s n).st = .reacq → 6 ≤ (mo s n).zc.length →
    Completes (.zeroCrossing n phase rising) s
      (reacqTry n (modMo n (fun x => { x with zc := ((s.now, zcIndex phase.val rising) :: x.zc).take 64 }) s))) ∧
  (∀ (n : Fin 4) s, (mo s n).st = .reacq → (mo s n).fails < fld s (R.MOT_MCn_CFG n) 7 5 →
    Completes (.reacqWindowEnd n) s (modMo n (fun x => { x with fails := x.fails + 1, zc := [] }) s)) ∧
  (∀ (n : Fin 4) s, (mo s n).st = .reacq → fld s (R.MOT_MCn_CFG n) 7 5 ≤ (mo s n).fails → moSev s n = .warn →
    Completes (.reacqWindowEnd n) s (raise (Ev.MOT_ROTOR_FAULT .warn) n n ((mo s n).fails + 1) (toWord (mo s n).speed).toNat
      (moFault n true (modMo n (fun x => { x with fails := (mo s n).fails + 1, zc := [] }) s)))) ∧
  (∀ (n : Fin 4) s, (mo s n).st = .coast → (mo s n).wantBrake = false →
    Completes (.coastTimeout n) s (moRelease n (setMo n .off (modMo n (fun x => { x.idle with speed := 0 }) s)))) ∧
  (∀ (n : Fin 4) s, (mo s n).st = .coast → (mo s n).wantBrake = true →
    Completes (.coastTimeout n) s (moBrakeAsk n (modMo n (fun x => { x with speed := 0 }) s))) ∧
  (∀ n s, 16 * moSafeRpm s n ≤ (mo s n).speed.natAbs → moBrakeAsk n s = moCoast n true s)

/-- The trips of a motor: all outputs low, FAULT, and the event; HALT for the transport and the carriage. A PWM period: the samples held to
±200 mV, the phase currents with the replacement of short on-times, the chopper of the short brake, the trip of a sample above itrip,
and the control of each state. What the observer and the modulation give is free (logs 5, 79). The outputs and the limits of a motor:
the drive condition of each state, dead time between the two switches of a phase, the low phase of six-step commutation, and iq within
iqmax, the integer root of irun squared less idref squared. The order of the driven phases is the model's (log 79). (12_motor_drive.md
R373, 12_motor_drive.md R374, 12_motor_drive.md R382, 12_motor_drive.md R377, 12_motor_drive.md R378, 12_motor_drive.md R385,
12_motor_drive.md R396) -/
def Obligations.MotorPeriods : Prop :=
  (∀ (n : Fin 4) s, moUsed s n = true → moSev s n = .warn →
    Completes (.motGateFault n) s (raise (Ev.MOT_GATE_FAULT .warn) n n (moCode s n) (toWord (mo s n).speed).toNat
      (moFault n false (setFlag (R.MOT_MCn_FLAG n) 2 s)))) ∧
  (∀ (n : Fin 4) (phase : Fin 3) ma s, moUsed s n = true → moSev s n = .warn → invarAgrees s (R.MOT_MCn_ILIM n) = true →
    fld s (R.MOT_MCn_ILIM n) 31 16 < (signed 32 ma.toNat).natAbs →
    Completes (.motOvercurrent n phase ma) s (raise (Ev.MOT_OVERCURRENT .warn) n n phase.val ma.toNat
      (moFault n false (setFlag (R.MOT_MCn_FLAG n) 1 s)))) ∧
  (∀ (n : Fin 4) (phase : Fin 3) ma s, moUsed s n = true → invarAgrees s (R.MOT_MCn_ILIM n) = true →
    (signed 32 ma.toNat).natAbs ≤ fld s (R.MOT_MCn_ILIM n) 31 16 → Completes (.motOvercurrent n phase ma) s s) ∧
  (∀ (n : Fin 4) s, (mo s n).st = .run ∨ (mo s n).st = .decel ∨ (mo s n).st = .startup → moSev s n = .warn →
    invarAgrees s (R.MOT_MCn_VBUS n) = true →
    Completes (.vbusLowTimeout n) s (raise (Ev.MOT_VBUS_LOW .warn) n n (mo s n).vbus (moCode s n)
      (moFault n false (setFlag (R.MOT_MCn_FLAG n) 3 s)))) ∧
  (∀ (n : Fin 4) (phase : Fin 3) ma s, moUsed s n = true → moSev s n = .halt → haltable s = true →
    invarAgrees s (R.MOT_MCn_ILIM n) = true → fld s (R.MOT_MCn_ILIM n) 31 16 < (signed 32 ma.toNat).natAbs →
    (∃ t, exec (.motGateFault n) s = .next t ∧ t.glb.state = .safeHold) ∧
    (∃ t, exec (.motOvercurrent n phase ma) s = .next t ∧ t.glb.state = .safeHold)) ∧
  (∀ (n : Nat) s, n < 4 → (mo (moFault n false s) n).st = .fault ∧ (mo (moFault n false s) n).demand = 0 ∧
    (mo (moFault n false s) n).wantBrake = false) ∧
  (∀ (n : Fin 4) uv on volts s, moUsed s n = false → Completes (.pwmPeriodUpdate n uv on volts) s s) ∧
  (∀ (n : Fin 4) (uv : Vector (BitVec 24) 3) (on : Vector (BitVec 16) 3) (volts : MotorVolts) s u r s1,
    moUsed s n = true →
    (∀ o, o ∈ [R.MOT_MCn_ILIM n, R.MOT_MCn_LOCK n, R.MOT_MCn_BRKFW n, R.MOT_MCn_VBUS n, R.MOT_MCn_SOFTMIN n, R.MOT_MCn_SOFTMAX n,
      R.MOT_MCn_LIMCFG n] → invarAgrees s o = true) →
    u = uv.toList.map (fun x => max (-200000) (min 200000 (signed 24 x.toNat))) → r = fld s (R.MOT_MCn_SHUNT n) 15 0 →
    s1 = modMo n (fun x => { x with
      cur := phaseCurrents r (fld s (R.MOT_MCn_SHUNT n) 23 16) u (on.toList.map BitVec.toNat) (mo s n).cur,
      vbus := busOf s n volts.bus.toNat,
      phv := if fld s (R.MOT_MCn_VSENSE n) 5 0 = 0x3F then x.phv
        else volts.ph.toList.map (fun p => p.toNat * fld s (R.MOT_MCn_VSENSE n) 31 16 / 256),
      per := (x.per + 1) % (4 * max 1 (moPwmKhz s n)),
      chop := (x.st = .revbrake || x.st = .brake || x.shorted) &&
        (phaseCurrents r (fld s (R.MOT_MCn_SHUNT n) 23 16) u (on.toList.map BitVec.toNat) (mo s n).cur).any
          (fun i => fld s (R.MOT_MCn_BRKFW n) 15 0 < i.natAbs) })
      (moSamples n u volts.bus.toNat (volts.ph.toList.map BitVec.toNat) s) →
    (∀ k < 3, (∀ j < k, (quotT (u.getD j 0) r).natAbs ≤ fld s (R.MOT_MCn_ILIM n) 31 16) →
      fld s (R.MOT_MCn_ILIM n) 31 16 < (quotT (u.getD k 0) r).natAbs → (mo s n).st ≠ .fault →
      Completes (.pwmPeriodUpdate n uv on volts) s (raise (Ev.MOT_OVERCURRENT (moSev s1 n)) n n k (toWord (quotT (u.getD k 0) r)).toNat
        (moFault n false (setFlag (R.MOT_MCn_FLAG n) 1 s1)))) ∧
    ((∀ k < 3, (quotT (u.getD k 0) r).natAbs ≤ fld s (R.MOT_MCn_ILIM n) 31 16) →
      ((mo s n).st = .run ∨ (mo s n).st = .decel → Completes (.pwmPeriodUpdate n uv on volts) s (moModulate n (focPeriod n s1))) ∧
      ((mo s n).st = .align → Completes (.pwmPeriodUpdate n uv on volts) s (moModulate n (alignPeriod n s1))) ∧
      ((mo s n).st = .startup → Completes (.pwmPeriodUpdate n uv on volts) s (moModulate n (startupPeriod n s1))) ∧
      ((mo s n).st = .revbrake → Completes (.pwmPeriodUpdate n uv on volts) s (moModulate n (revPeriod n s1))) ∧
      ((mo s n).st = .coast ∨ (mo s n).st = .brake → Completes (.pwmPeriodUpdate n uv on volts) s (moModulate n (restPeriod n s1))) ∧
      ((mo s n).st ∈ [MoSt.off, .sense, .reacq, .fault] → Completes (.pwmPeriodUpdate n uv on volts) s (moModulate n s1)))) ∧
  (∀ r tmin a b c x y z prev, tmin ≤ x → tmin ≤ y → tmin ≤ z →
    phaseCurrents r tmin [a, b, c] [x, y, z] prev = [quotT a r, quotT b r, quotT c r]) ∧
  (∀ r tmin a b c x y z prev, tmin ≤ x → tmin ≤ y → z < tmin →
    phaseCurrents r tmin [a, b, c] [x, y, z] prev = [quotT a r, quotT b r, -(quotT a r + quotT b r)]) ∧
  (∀ r tmin a b c x y z prev, x < tmin → z < tmin → phaseCurrents r tmin [a, b, c] [x, y, z] prev = prev) ∧
  (∀ d tgt acc dec, 0 ≤ acc → 0 ≤ dec → 0 ≤ d → d ≤ tgt → rampDemand d tgt acc dec = min (d + acc) tgt ∨ d = tgt) ∧
  (∀ x : Motor, x.st ∈ [MoSt.off, .sense, .reacq, .coast] → x.cond = .coast) ∧
  (∀ x : Motor, x.st = .revbrake ∨ x.st = .brake → x.cond = if x.chop then .coast else .short) ∧
  (∀ x : Motor, x.cond = .modulated ↔ x.st ∈ [MoSt.align, .startup, .run, .decel]) ∧
  (∀ t dt d, dt < min d (t - 2 * dt) → (Gates.pwm t dt d).hiOn < (Gates.pwm t dt d).hiOff ∧
    (Gates.pwm t dt d).hiOn = (Gates.pwm t dt d).loOff + dt ∧ (Gates.pwm t dt d).loOn = (Gates.pwm t dt d).hiOff + dt ∧
    (Gates.pwm t dt d).loOn ≤ t) ∧
  (∀ (n : Fin 4) s, (mo s n).cond = .coast → ∀ k < 3, vat (mo (moDrive n s) n).gates k = ⟨0, 0, 0, 0⟩) ∧
  (∀ s n (x : Motor), x.idref.natAbs ≤ fld s (R.MOT_MCn_ILIM n) 15 0 →
    iqMax s n x * iqMax s n x + x.idref.natAbs * x.idref.natAbs ≤ fld s (R.MOT_MCn_ILIM n) 15 0 * fld s (R.MOT_MCn_ILIM n) 15 0 ∧
    fld s (R.MOT_MCn_ILIM n) 15 0 * fld s (R.MOT_MCn_ILIM n) 15 0 < (iqMax s n x + 1) * (iqMax s n x + 1) + x.idref.natAbs * x.idref.natAbs) ∧
  (∀ s n (x : Motor), (iqDemand s n x).natAbs ≤ iqMax s n x) ∧
  (∀ s n (x : Motor), x.ramp = 0 → x.st ≠ .decel → x.iqReg.natAbs ≤ iqMax s n x → iqDemand s n x = x.iqReg) ∧
  (∀ s n (x : Motor), x.st = .decel → fld s (R.MOT_MCn_VBUS n) 15 0 ≤ x.vbus → 0 < x.speed → 0 ≤ iqDemand s n x) ∧
  (∀ (n : Fin 4) s, (mo s n).st = .startup →
    vat (mo (moModulate n s) n).gates (sectorPhases (mo s n).sector).2 = Gates.low (moPeriod s n)) ∧
  (∀ i < 6, (sectorPhases i).1 < 3 ∧ (sectorPhases i).2 < 3 ∧ (sectorPhases i).1 ≠ (sectorPhases i).2)

/-- The six commands of a channel where they act, by the table of states and commands. (12_motor_drive.md R399) -/
def Obligations.MotorCommands : Prop :=
  (∀ (n : Fin 4) s u, windowOpen s 0 (R.MOT_MCn_CMD n) true = true → u = hostAccess s →
    motOpen u n 1 = true → (mo u n).st = .off ∨ (mo u n).st = .coast ∨ (mo u n).st = .brake → moCfgBad u n = false →
    Completes (.motStart n) s (motResult n 1 1 (moCode u n) (moSense n false u))) ∧
  (∀ (n : Fin 4) s u, windowOpen s 0 (R.MOT_MCn_CMD n) true = true → u = hostAccess s →
    motOpen u n 1 = true → (mo u n).st = .off ∨ (mo u n).st = .coast ∨ (mo u n).st = .brake → moCfgBad u n = true →
    Completes (.motStart n) s (motResult n 1 4 (moCode u n) u)) ∧
  (∀ (n : Fin 4) s u, windowOpen s 0 (R.MOT_MCn_CMD n) true = true → u = hostAccess s →
    motOpen u n 2 = true → (mo u n).st = .run → Completes (.motStop n) s (motResult n 2 1 6 (moDecel n false u))) ∧
  (∀ (n : Fin 4) s u, windowOpen s 0 (R.MOT_MCn_CMD n) true = true → u = hostAccess s →
    motOpen u n 2 = true → (mo u n).st.starting = true ∨ (mo u n).st = .reacq →
    Completes (.motStop n) s (motResult n 2 1 (moCode u n) (moCoast n false u))) ∧
  (∀ (n : Fin 4) s u, windowOpen s 0 (R.MOT_MCn_CMD n) true = true → u = hostAccess s →
    motOpen u n 3 = true → (mo u n).st = .run ∨ (mo u n).st = .decel ∨ (mo u n).st = .brake →
    Completes (.motCoast n) s (motResult n 3 1 (moCode u n) (moCoast n false u))) ∧
  (∀ (n : Fin 4) s u, windowOpen s 0 (R.MOT_MCn_CMD n) true = true → u = hostAccess s →
    motOpen u n 4 = true → (mo u n).st = .run ∨ (mo u n).st = .decel →
    Completes (.motEstop n) s (motResult n 4 1 (moCode u n) (moDecel n true u))) ∧
  (∀ (n : Fin 4) s u, windowOpen s 0 (R.MOT_MCn_CMD n) true = true → u = hostAccess s →
    motOpen u n 5 = true → (mo u n).st = .run → moEncoder u n = true →
    useSoft 1 n u = u → moBadTarget u n (rd u (R.MOT_MCn_TGT n)).toNat = false →
    Completes (.motMove n) s (motResult n 5 1 6 (moPlan n (.pos (rd u (R.MOT_MCn_TGT n)).toNat) u))) ∧
  (∀ (n : Fin 4) s u, windowOpen s 0 (R.MOT_MCn_CMD n) true = true → u = hostAccess s →
    motOpen u n 5 = true → (mo u n).st = .run → moEncoder u n = false →
    Completes (.motMove n) s (motResult n 5 4 6 u)) ∧
  (∀ (n : Fin 4) (bus : BitVec 16) s u, windowOpen s 0 (R.MOT_MCn_CMD n) true = true → u = hostAccess s →
    motOpen u n 6 = true → (mo u n).st = .fault →
    invarAgrees u (R.MOT_MCn_VBUS n) = true → fld u (R.MOT_MCn_VBUS n) 31 16 ≤ busOf u n bus.toNat →
    Completes (.motClrfault n false bus) s (motResult n 6 1 11 (moCoast n false u)) ∧
    Completes (.motClrfault n true bus) s (motResult n 6 5 11 u)) ∧
  (∀ (n : Fin 4) (bus : BitVec 16) s u c cmd, windowOpen s 0 (R.MOT_MCn_CMD n) true = true → u = hostAccess s →
    u.glb.state ≠ .off → motOpen u n cmd = false →
    (c, cmd) ∈ [(Instr.motStart n, 1), (.motStop n, 2), (.motCoast n, 3), (.motEstop n, 4), (.motMove n, 5),
      (.motClrfault n false bus, 6), (.motClrfault n true bus, 6)] →
    Completes c s (motResult n cmd 2 (moCode u n) u))

/-- The steps of a seamless stop: drain, deceleration, backup, the refill gate, the acceleration, the return; each applies in its phase
only. At td the decision fixes v0, the pk and xb of its margin, and the phase is DRAIN; a chain's stop that STOPPING has met before td
is applied there, too, as the model reads R244 and R415 (log 47). (13_seamless_stop.md R406, 13_seamless_stop.md R407,
13_seamless_stop.md R408) -/
def Obligations.SeamlessSteps : Prop :=
  (∀ s, s.ss.phase = 1 → ssDraining s = false → Completes .ssDrainEnd s (ssMove s.ss.xrest 2 none (forEach (ssHeld s) ssRewind s))) ∧
  (∀ s, s.ss.phase = 2 → ssRested s = true →
    Completes .ssDecelDone s (ssMove s.ss.xb 3 (some (toUnits s (rd s R.DOT_SSBACKV).toNat).toNat) s)) ∧
  (∀ s, s.ss.phase = 3 → ssRested s = true →
    Completes .ssBackupDone s (ssPhase (if s.ss.park then 5 else 4) (forEach (ssGens s) ssOrigin s))) ∧
  (∀ s, s.ss.phase = 4 → s.glb.state = .print → (∀ d ∈ ssHeld s, ssFilled s d = true) → chained s = false →
    Completes .ssRefillGate s (ssAccel s)) ∧
  (∀ s, s.ss.phase = 6 → Completes .ssAccelDone s (ssReturn s)) ∧
  (∀ s, s.ss.td.isSome = true → s.glb.state = .print ∨ s.glb.state = .stopping →
    Completes .ssTdReached s (ssApply { s with cas := { s.cas with ready := 0 } })) ∧
  (∀ s, (s.ss.phase ≠ 1 → Completes .ssDrainEnd s s) ∧ (s.ss.phase ≠ 2 → Completes .ssDecelDone s s) ∧
    (s.ss.phase ≠ 3 → Completes .ssBackupDone s s) ∧ (s.ss.phase ≠ 4 → Completes .ssRefillGate s s) ∧
    (s.ss.phase ≠ 6 → Completes .ssAccelDone s s)) ∧
  (∀ s, s.ss.td = none → Completes .ssTdReached s s) ∧
  (∀ s, (ssApply s).ss.phase = 1 ∧ (ssApply s).ss.td = none ∧ (ssApply s).ss.v0 = ssV0 s ∧ (ssApply s).ss.pk = ssPk s ∧
    (ssApply s).ss.margin = s.ss.margin ∧ (ssApply s).ss.park = s.ss.park) ∧
  (∀ s, trKind s ≠ 0 → (ssApply s).ss.xb = ssXb s (ssV0 s) (ssPk s) s.ss.margin) ∧
  (∀ d s, s.ss.mover = true → trKind s = 2 → (ax s (trIndex s)).st = .moving → d = s.ss.back →
    (ssReturn s) = modProf (trIndex s) (fun x => { x with goal := d, vmax := s.ss.backV * unitVel }) s) ∧
  (∀ g s, ltSource s g < 8 →
    ssOrigin g s = modGen g (fun x => { x with hw := (pch s (ltSource s g)).pos, since := false }) s)

/-- SSTOP and ABANDON, and the decision: the first check that fails forbids a stop, records its reason and sets the flag; a cause that
comes during a sequence joins it. (13_seamless_stop.md R403, 13_seamless_stop.md R404) -/
def Obligations.SeamlessDecision : Prop :=
  (∀ s u, windowOpen s 0 R.DOT_SSCMD true = true → u = hostAccess s →
    u.glb.state = .print → scanning u = false → ssRuns u = false → ssDecides u = true →
    invarAgrees u R.DOT_SSMARGIN = true → invarAgrees u R.DOT_SSBACKMAX = true → useSoft (trKind u) (trIndex u) u = u →
    ssForbidden u = none →
    Completes .ssSstop s (ssResult 1 1 0 u.ss.phase (ssDecide .software u))) ∧
  (∀ s u r, windowOpen s 0 R.DOT_SSCMD true = true → u = hostAccess s →
    u.glb.state = .print → scanning u = false → ssRuns u = false → ssDecides u = true →
    (ssBarred u = none → invarAgrees u R.DOT_SSMARGIN = true ∧ invarAgrees u R.DOT_SSBACKMAX = true ∧
      useSoft (trKind u) (trIndex u) u = u) → ssForbidden u = some r →
    Completes .ssSstop s (ssResult 1 4 r u.ss.phase (setFlag R.DOT_SSFLAG 0 (setF R.DOT_SSSTAT 11 8 r u)))) ∧
  (∀ s u, windowOpen s 0 R.DOT_SSCMD true = true → u = hostAccess s →
    u.glb.state = .print → scanning u = false → ssRuns u = true →
    Completes .ssSstop s (ssResult 1 1 0 u.ss.phase (setF R.DOT_SSSTAT 5 5 1 u))) ∧
  (∀ s u, windowOpen s 0 R.DOT_SSCMD true = true → u = hostAccess s →
    u.glb.state ∉ [GState.off, .print, .stopping, .armed] → Completes .ssSstop s (ssResult 1 2 0 u.ss.phase u) ∧
    Completes .ssAbandon s (ssResult 2 2 0 u.ss.phase u)) ∧
  (∀ s u, windowOpen s 0 R.DOT_SSCMD true = true → u = hostAccess s →
    u.glb.state = .print ∨ u.glb.state = .stopping → u.ss.phase ≠ 0 →
    Completes .ssAbandon s (ssResult 2 1 0 u.ss.phase (ssAbandon u))) ∧
  (∀ s u, windowOpen s 0 R.DOT_SSCMD true = true → u = hostAccess s →
    u.glb.state = .print ∨ u.glb.state = .stopping → u.ss.phase = 0 → Completes .ssAbandon s (ssResult 2 2 0 0 u)) ∧
  (∀ s r, ssBarred s = some r → ssForbidden s = some r ∧ 1 ≤ r ∧ r ≤ 4) ∧
  (∀ s, fld s R.DOT_SSCFG 0 0 = 0 → ssForbidden s = some 1) ∧
  (∀ s, fld s R.DOT_SSCFG 0 0 = 1 → trKind s = 0 ∨ (trKind s = 1 ∧ moMode s (trIndex s) = 1) → ssForbidden s = some 2) ∧
  (∀ s, ssForbidden s = none → fld s R.DOT_SSCFG 0 0 ≠ 0 ∧ trKind s ≠ 0 ∧ bellMode s = false ∧ (pch s (trPc s)).valid = true ∧
    0 < (pch s (trPc s)).v ∧ s.glb.state = .print ∧
    diff48 (ssXrest s (ssV0 s) (ssTe s)) (ssXb s (ssV0 s) (ssPk s) (fld s R.DOT_SSMARGIN 23 0)) / 65536 ≤ (rd s R.DOT_SSBACKMAX).toNat)

/-- Training of the cascade ports, PROBEs and ECHOs, and link loss. That a TS2 leaves while each set arrives in CONFIG is the model's (log
48). Bell time of a member, by the sum of a group's four offsets in sixteenths: a mean within one does nothing, one up to 16 slews by
at most 2, beyond is lost time; a step moves it by the mean. That the slew takes the mean rounded down is the model's (log 48).
(14_cascade.md R426, 14_cascade.md R428, 14_cascade.md R429, 14_cascade.md R436) -/
def Obligations.CascadeLinks : Prop :=
  (∀ (port : Fin 2) ts2 (data : Vector Byte 14) s, casRole s ≠ 0 → crc8 (data.toList.take 13) ≠ data.toList.getD 13 0 →
    Completes (.casTsReceived port ts2 data) s (modCasPort port (fun x => { x with run := 0 }) s)) ∧
  (∀ (port : Fin 2) (data : Vector Byte 14) s, casRole s ≠ 0 → crc8 (data.toList.take 13) = data.toList.getD 13 0 →
    (casPort s port).st = .detect → 7 ≤ (casPort s port).run →
    Completes (.casTsReceived port false data) s (casTs port "TS1" true (modCasPort port (fun x => { x with st := .align, run := 0 }) s))) ∧
  (∀ (port : Fin 2) (data : Vector Byte 14) s, casRole s ≠ 0 → crc8 (data.toList.take 13) = data.toList.getD 13 0 →
    (casPort s port).st = .detect → (casPort s port).run < 7 →
    Completes (.casTsReceived port false data) s (modCasPort port (fun x => { x with run := (casPort s port).run + 1 }) s)) ∧
  (∀ (port : Fin 2) s, (casPort s port).st = .detect ∨ (casPort s port).st = .config ∨ (casPort s port).st = .timesync →
    Completes (.casTrainTimeout port) s (modCasPort port (fun x => { x with st := .down, run := 0, outs := 0 }) s)) ∧
  (∀ (port : Fin 2) s, (casPort s port).st = .align → (casPort s port).alignRaised = false →
    Completes (.casTrainTimeout port) s
      (modCasPort port (fun x => { x with st := .down, run := 0, outs := 0 })
        (discFail 5 s.cas.position (modCasPort port (fun x => { x with alignRaised := true }) s)))) ∧
  (∀ (port : Fin 2) s, (casPort s port).st = .down → casRole s ≠ 0 → 4 ≤ gnum s → discHeld s = false →
    Completes (.casTrainTimeout port) s (casAttempt port s)) ∧
  (∀ (port : Fin 2) (data : Vector Byte 14) s, casRole s ≠ 0 → crc8 (data.toList.take 13) = data.toList.getD 13 0 →
    (casPort s port).st = .config → (casPort s port).run < 7 ∨ (casPort s port).outs < 15 →
    Completes (.casTsReceived port true data) s (casTs port "TS2" true (modCasPort port (fun x => { x with
      run := (casPort s port).run + 1, outs := x.outs + 1 }) s))) ∧
  (∀ (data : Vector Byte 14) s s1, isMember s = true → crc8 (data.toList.take 13) = data.toList.getD 13 0 →
    s.cas.cu.st = .config → 7 ≤ s.cas.cu.run → 15 ≤ s.cas.cu.outs →
    s1 = casTs 0 "TS2" true (modCasPort 0 (fun x => { x with run := s.cas.cu.run + 1, outs := x.outs + 1 }) s) →
    Completes (.casTsReceived 0 true data) s (casAcquire (modCasPort 0 (fun x => { x with st := .timesync, run := 0, outs := 0 }) s1))) ∧
  (∀ port name b0 b1 s, casSwap s port = false → casEmitSet port name b0 b1 s =
    emit (.casSet port (.ctl "COM" :: .ctl name :: b0.map .dat) (.ctl "COM" :: .ctl name :: b1.map .dat)) s) ∧
  (∀ s, isMember s = true → cuUp s = true → s.cas.synced = true →
    Completes .casProbeTimer s (casProbe (casProbe (casProbe (casProbe (modCas (fun c => { c with group := [] }) s)))))) ∧
  (∀ s, isMember s = true → s.cas.cu.st = .timesync → s.cas.synced = false → s.cas.checking = false → s.cas.echoes.length < 16 →
    Completes .casAcqProbeTimer s (casProbe s)) ∧
  (∀ (t1 h2 h3 t4 : BitVec 52) s, isMember s = true → cuUp s = true → s.cas.synced = true → s.cas.group.length < 3 →
    Completes (.casTsyncEchoRx t1 h2 h3 t4) s
      (modCas (fun c => { c with group := shr ((h2 - t1).toInt + (h3 - t4).toInt) 1 :: c.group }) s)) ∧
  (∀ (port : Fin 2) s s1 cause c, (casPort s port).st = .active → firingState s = false →
    (cause, c) ∈ [(CasLoss.lock, 1), (.errors, 2)] → s1 = casAttempt port (modCasPort port (fun x => { x with lost := true }) s) →
    Completes (.casLinkLoss port cause) s (logEvent (Ev.CAS_LINK_DOWN .warn) port port c 5
      (if port = 0 then modCas (fun x => { x with synced := false, checking := false, echoes := [], group := [] }) s1 else s1))) ∧
  (∀ (port : Fin 2) s, (casPort s port).st = .active → firingState s = true →
    ∃ t, exec (.casLinkLoss port .errors) s = .next t ∧ t.glb.state = .safeHold) ∧
  (∀ sum s, iabs sum ≤ 4 → (casGroup sum s).now = s.now ∧ (casGroup sum s).cas.frac = s.cas.frac) ∧
  (∀ sum s, 4 < iabs sum → iabs sum ≤ 64 → 32 ≤ 16 * s.now + s.cas.frac → 16 * s.now + s.cas.frac + 32 < 2 ^ 68 → s.cas.frac < 16 →
    (16 * (casGroup sum s).now + (casGroup sum s).cas.frac : Int) = 16 * s.now + s.cas.frac + max (-2) (min 2 (sum / 4))) ∧
  (∀ sum s, 64 < iabs sum → firingState s = false → (casGroup sum s).cas.synced = false ∧ (casGroup sum s).now = s.now) ∧
  (∀ d s, s.cas.frac < 16 → 0 ≤ (16 * s.now + s.cas.frac : Int) + d → (16 * s.now + s.cas.frac : Int) + d < 2 ^ 68 →
    (16 * (bellMove d s).now + (bellMove d s).cas.frac : Int) = 16 * s.now + s.cas.frac + d ∧ (bellMove d s).cas.frac < 16) ∧
  (∀ s l, 4 < (l.map Prod.fst).foldl max ((l.map Prod.fst).headD 0) - (l.map Prod.fst).foldl min ((l.map Prod.fst).headD 0) →
    casSixteen l s = casAcquire s)

/-- Frames: acknowledged, refused by epoch or where the chain ends, forwarded, taken once; retransmitted at most twice; byte 2i on lane 0
and byte 2i + 1 on lane 1. (14_cascade.md R437, 14_cascade.md R438, 14_cascade.md R439) -/
def Obligations.CascadeFrames : Prop :=
  (∀ bs s, (cuUp s = false → casPut 0 bs s = s) ∧ (cdUp s = false → casPut 1 bs s = s) ∧
    (cuUp s = true → casSwap s 0 = false → casPut 0 bs s = emit (.casFrame 0 (laneSyms 0 bs) (laneSyms 1 bs)) s) ∧
    (cdUp s = true → casSwap s 1 = false → casPut 1 bs s = emit (.casFrame 1 (laneSyms 0 bs) (laneSyms 1 bs)) s)) ∧
  (∀ h seq s, frameMine h s → Completes (.casAckRx h seq) s
    (modCas (fun c => { c with sent := c.sent.filter (fun x => x.seq ≠ seq) }) s)) ∧
  (∀ h seq role epoch x s, frameMine h s → s.cas.sent.find? (fun x => x.seq = seq) = some x →
    Completes (.casNakRx h seq role epoch) s (logEvent Ev.CAS_MSG_NAK 0xFF x.dst role.toNat epoch.toNat (setFlag R.CAS_FLAG 1
      (incF R.CAS_CNT 15 8 (modCas (fun c => { c with sent := c.sent.filter (fun x => x.seq ≠ seq) }) s))))) ∧
  (∀ seq x s, s.cas.sent.find? (fun x => x.seq = seq) = some x → x.tries < 2 →
    Completes (.casAckTimeout seq) s (casPut (casToward s (casPos s x.dst))
      (casBytes x.type x.seq.toNat (myRole s) x.dst x.epoch x.body)
      (modCas (fun c => { c with sent := c.sent.map (fun y => if y.seq = seq then { y with tries := y.tries + 1 } else y) }) s))) ∧
  (∀ seq x s, s.cas.sent.find? (fun x => x.seq = seq) = some x → 2 ≤ x.tries →
    Completes (.casAckTimeout seq) s (modCas (fun c => { c with sent := c.sent.filter (fun y => y.seq ≠ seq) }) s)) ∧
  (∀ h type body take pass s, casRole s ≠ 0 → (casPort s h.port).st = .active → h.ok = false →
    casRecv h type body take pass s = casBad h.port s) ∧
  (∀ h type body take pass s, casRole s ≠ 0 → (casPort s h.port).st = .active → h.ok = true → h.dst ≠ 0xFF →
    isMine s h.dst.toNat = true → h.epoch.toNat ≠ s.cas.epoch → type = 0x10 ∨ type = 0x13 ∨ type = 0x14 →
    casRecv h type body take pass s = casNak h s) ∧
  (∀ h type body take pass s, casRole s ≠ 0 → (casPort s h.port).st = .active → h.ok = true → h.dst ≠ 0xFF →
    isMine s h.dst.toNat = false → (type ≠ 0x10 ∧ type ≠ 0x13 ∧ type ≠ 0x14) ∨ (casPort s (1 - h.port.val)).st = .active →
    casRecv h type body take pass s =
      pass (casPut (1 - h.port.val) (casBytes type h.seq.toNat h.src.toNat h.dst.toNat h.epoch.toNat body) s)) ∧
  (∀ h type body take pass s, casRole s ≠ 0 → (casPort s h.port).st = .active → h.ok = true → h.dst ≠ 0xFF →
    isMine s h.dst.toNat = false → type = 0x10 ∨ type = 0x13 ∨ type = 0x14 → (casPort s (1 - h.port.val)).st ≠ .active →
    casRecv h type body take pass s = casNak h s) ∧
  (∀ h type body take pass s, casRole s ≠ 0 → (casPort s h.port).st = .active → h.ok = true → h.dst = 0xFF →
    isMine s h.dst.toNat = false → s.cas.seen.contains (h.src.toNat, h.seq) = true → casRecv h type body take pass s =
      casPut (1 - h.port.val) (casBytes type h.seq.toNat h.src.toNat 0xFF h.epoch.toNat body) s)

/-- Discovery: the campanile's messages, a member's answer, the completion with the chain epoch, and the hold of a REDISC. (03_bring_up.md
R95, 03_bring_up.md R96, 03_bring_up.md R97, 14_cascade.md R432, 14_cascade.md R433) -/
def Obligations.Discovery : Prop :=
  (∀ s, isCampanile s = true → s.bru.cascade = .running → Completes .discTimer s (sendDisc s)) ∧
  (∀ s, s.bru.cascade = .running → s.bru.discWarned = false → casRole s ≠ 0 →
    Completes .cascadeWaitTimer s (logEvent Ev.BRU_CASCADE_WAIT 0xFF (1 + s.cas.dans.length) (casLength s) 0
      { s with bru := { s.bru with discWarned := true } })) ∧
  (∀ (h : CasHdr) hops proposed s, isCampanile s = true → h.port = 0 → s.cas.cu.st = .active → h.ok = true →
    discHeld s = false → Completes (.discRx h hops proposed) s (discFail 4 0 s)) ∧
  (∀ (h : CasHdr) (hops : Byte) (proposed : BitVec 16) s s3 dans, isMember s = true → h.port = 0 → s.cas.cu.st = .active → h.ok = true →
    discHeld s = false → dans = (if s.cas.proposed = proposed.toNat then s.cas.dans else []) →
    s3 = casPut 1 (casBytes 0x01 h.seq.toNat h.src.toNat h.dst.toNat h.epoch.toNat
        (leBytes 1 ((hops.toNat + 1) % 256) ++ leBytes 2 proposed.toNat))
      { s with cas := { s.cas with position := (hops.toNat + 1) % 256, disc := false, proposed := proposed.toNat, dans := dans },
               bru := { s.bru with cascade := if s.bru.cascade = .failed then .failed else .running,
                                   discWarned := s.bru.discWarned && s.cas.proposed = proposed.toNat } } →
    Completes (.discRx h hops proposed) s (casSendTo 0x02 0 proposed.toNat (dansBytes (ownDans s3)) s3)) ∧
  (∀ (h : CasHdr) d s s1, frameMine h s → isCampanile s = true → s.bru.cascade = .running →
    s1 = modCas (fun c => { c with dans := c.dans.filter (fun x => x.position ≠ d.position) ++ [d] }) (acked h s) →
    dansCheck s1 d s1.cas.dans = none → s1.cas.dans.length + 1 = casLength s →
    Completes (.dansRx h d) s (discDone s1)) ∧
  (∀ (h : CasHdr) d s s1 r, frameMine h s → isCampanile s = true → s.bru.cascade = .running →
    s1 = modCas (fun c => { c with dans := c.dans.filter (fun x => x.position ≠ d.position) ++ [d] }) (acked h s) →
    dansCheck s1 d s1.cas.dans = some r → Completes (.dansRx h d) s (discFail r d.position.toNat s1)) ∧
  (∀ (h : CasHdr) d s, frameMine h s → isCampanile s = true → s.bru.cascade = .done → d.position ≠ 0 →
    s.cas.dans.all (fun x => x.position ≠ d.position) = true →
    Completes (.dansRx h d) s (discFail 1 d.position.toNat
      (modCas (fun c => { c with dans := c.dans.filter (fun x => x.position ≠ d.position) ++ [d] }) (acked h s)))) ∧
  (∀ (h : CasHdr) (epoch : BitVec 16) (length transport : Byte) (hashes : Vector Word 8) s s1, frameAll h s → isMember s = true →
    s.cas.resid = 0 → discHeld s = false →
    s1 = relayed h 0x03 (leBytes 2 epoch.toNat ++ [length, transport] ++
      (hashes.toList.take length.toNat).flatMap (fun w => leBytes 4 w.toNat)) s →
    Completes (.doneRx h epoch length transport hashes) s (bruCheck { s1 with
      cas := { s1.cas with disc := true, epoch := epoch.toNat, length := length.toNat, transport := transport.toNat, resid := 0 },
      bru := { s.bru with cascade := .done } })) ∧
  (∀ (h : CasHdr) s, frameMine h s → isCampanile s = true → s.glb.state = .linkTrain ∨ s.glb.state = .idle →
    Completes (.rediscRx h) s (bruCheck (startDisc (acked h s)))) ∧
  (∀ s, discHeld s = true → startDisc s = s) ∧
  (∀ s, discHeld s = false → casPosition s ≠ 0 → casPosition s ≠ 0xFF →
    (startDisc s).bru.cascade = .failed ∧ (startDisc s).cas.proposed = (s.cas.epoch + 1) % 65536) ∧
  (∀ (h : CasHdr) s, frameMine h s → isCampanile s = true → s.glb.state ≠ .linkTrain → s.glb.state ≠ .idle →
    Completes (.rediscRx h) s (modCas (fun c => { c with redisc := true }) (acked h s)))

/-- Bells: sent ahead of their tick, forwarded and decoded, and acted on at the tick; a START enters PRINT at its tick. (14_cascade.md
R434, 14_cascade.md R435, 14_cascade.md R440) -/
def Obligations.Bells : Prop :=
  (∀ s t, isCampanile s = true → s.cas.disc = true → s.cas.tick = none → s.glb.state ≠ .print → s.glb.state ≠ .armed → cdUp s = true →
    t = (s.now + fld s R.CAS_BELLCFG 9 0 + tickPeriod s - 1) / tickPeriod s * tickPeriod s →
    Completes .bellSendTimer s (casEmitSet 1 "BEL" (bellBytes false t s.cas.epoch s.cas.tseq) (bellBytes false t s.cas.epoch s.cas.tseq)
      (modCas (fun c => { c with tick := some t, tseq := (c.tseq + 1) % 65536, bells := c.bells ++ [⟨t, false, c.tseq, s.now⟩] }) s))) ∧
  (∀ (data : Vector Byte 14) s, isMember s = true → cuUp s = true → cdUp s = true → crc8 (data.toList.take 13) ≠ data.toList.getD 13 0 →
    Completes (.bellSetRx data) s (casEmitSet 1 "BEL" data.toList data.toList s)) ∧
  (∀ (data : Vector Byte 14) s, isMember s = true → cuUp s = true → cdUp s = false → crc8 (data.toList.take 13) = data.toList.getD 13 0 →
    fieldAt data.toList 9 2 = s.cas.epoch → s.cas.disc = true →
    Completes (.bellSetRx data) s (modCas (fun c => { c with
      tseq := (fieldAt data.toList 11 2 + 1) % 65536,
      bells := c.bells ++ [⟨fieldAt data.toList 1 8, bitOf (fieldAt data.toList 0 1) 0, fieldAt data.toList 11 2, s.now⟩] }) s)) ∧
  (∀ (tick : BitVec 64) s, casRole s ≠ 0 → trKind s = 0 → bellMode s = true → s.glb.state = .print →
    s.cas.bells.any (fun b => b.tick = tick.toNat && b.fire) = true →
    (∀ g < 16, ltBound s g = true → ∃ b ∈ s.cas.bells, b.tick = tick.toNat ∧ b.fire = true ∧
      b.seenAt + fld s (R.FIR_LTn_LEAD g) 11 0 ≤ tick.toNat + 400) →
    Completes (.localBellTick tick) s (bellLaunch (those 16 (ltBound s)) tick.toNat
      (modCas (fun c => { c with bells := c.bells.filter (fun b => decide (tick.toNat < b.tick)) }) s))) ∧
  (∀ (tick : BitVec 64) s, casRole s ≠ 0 → trKind s = 0 → bellMode s = true → s.glb.state = .print →
    s.cas.bells.any (fun b => b.tick = tick.toNat && b.fire) = false →
    Completes (.localBellTick tick) s (bellMissed (those 16 (ltBound s)) tick.toNat
      (modCas (fun c => { c with bells := c.bells.filter (fun b => decide (tick.toNat < b.tick)) }) s))) ∧
  (∀ (tick : BitVec 64) s, trKind s = 0 → bellMode s = true → s.glb.state ≠ .print → Completes (.localBellTick tick) s
    (modCas (fun c => { c with bells := c.bells.filter (fun b => decide (tick.toNat < b.tick)) }) s)) ∧
  (∀ (port : Fin 2) mask s, casRole s ≠ 0 → (casPort s port).st = .active → (casPort s (1 - port.val)).st ≠ .active →
    (∀ k < 8, fld s (R.CAS_TRIG k) 15 15 = 0) → Completes (.trgSetRx port mask) s s) ∧
  (∀ (h : CasHdr) (ts : BitVec 64) s, frameAll h s → Completes (.msgStartRx h ts) s
    (modCas (fun c => { c with ts := some ts.toNat }) (relayed h 0x10 (leBytes 1 1 ++ leBytes 8 ts.toNat) s))) ∧
  (∀ s ts, s.cas.ts = some ts → s.glb.state = .armed →
    Completes .startTick s (enterPrint (modCas (fun c => { c with ts := none }) s))) ∧
  (∀ s ts, s.cas.ts = some ts → s.glb.state ≠ .armed →
    Completes .startTick s (raise Ev.CAS_START_MISS 0xFF (gnum s) (ts % 2 ^ 32) 0 (modCas (fun c => { c with ts := none }) s)))

/-- Chain messages that act on the receiver's global state and its seamless stop. Status and position across the chain, and the CAS
commands. (14_cascade.md R440, 14_cascade.md R441, 14_cascade.md R444, 14_cascade.md R445, 14_cascade.md R447) -/
def Obligations.ChainMessages : Prop :=
  (∀ (h : CasHdr) s, frameAll h s → s.glb.state = .print →
    Completes (.msgStopRx h) s (enterStopping 0 (relayed h 0x10 (leBytes 1 2 ++ []) s))) ∧
  (∀ (h : CasHdr) code s, frameAll h s → Completes (.peerStopRx h code) s
    (raise Ev.CAS_PEER_STOP 0xFF h.src.toNat code.toNat 0 (relayed h 0x10 (leBytes 1 3 ++ leBytes 2 code.toNat) s))) ∧
  (∀ (h : CasHdr) code s, frameAll h s → Completes (.peerHaltRx h code) s
    (raise Ev.CAS_PEER_HALT 0xFF h.src.toNat code.toNat 0 (relayed h 0x10 (leBytes 1 4 ++ leBytes 2 code.toNat) s))) ∧
  (∀ (h : CasHdr) code s, frameAll h s → haltable s = true →
    ∃ t, exec (.peerHaltRx h code) s = .next t ∧ t.glb.state = .safeHold) ∧
  (∀ (h : CasHdr) cause s, frameMine h s → Completes (.ssreqRx h cause) s (ssAsk .chain (acked h s)).1) ∧
  (∀ (h : CasHdr) (td : BitVec 64) s s1, frameAll h s → s1 = relayed h 0x10 (leBytes 1 0x11 ++ leBytes 8 td.toNat) s →
    s.glb.state = .print → s.now ≤ td.toNat →
    Completes (.ssdecRx h td) s { setF R.DOT_SSSTAT 7 3 8 s1 with ss := { s.ss with td := some td.toNat } }) ∧
  (∀ (h : CasHdr) (td : BitVec 64) s s1, frameAll h s → s1 = relayed h 0x10 (leBytes 1 0x11 ++ leBytes 8 td.toNat) s →
    td.toNat < s.now → Completes (.ssdecRx h td) s (casMsgTo 0x40 0x14 (leBytes 1 8) (ssForbid 8 s1))) ∧
  (∀ (h : CasHdr) (td : BitVec 64) s s1, frameAll h s → s1 = relayed h 0x10 (leBytes 1 0x11 ++ leBytes 8 td.toNat) s →
    s.glb.state ≠ .print → s.now ≤ td.toNat →
    Completes (.ssdecRx h td) s (casMsgTo 0x40 0x14 (leBytes 1 7) (ssForbid 7 s1))) ∧
  (∀ (h : CasHdr) s, frameMine h s → Completes (.ssreadyRx h) s (ssReady (h.src.toNat % 8) (acked h s))) ∧
  (∀ (h : CasHdr) s, frameAll h s → s.ss.phase = 4 →
    Completes (.ssgoRx h) s (ssAccel (relayed h 0x10 (leBytes 1 0x13 ++ []) s))) ∧
  (∀ (h : CasHdr) reason s, frameMine h s → Completes (.ssforbidRx h reason) s (ssAbandon (acked h s))) ∧
  (∀ (h : CasHdr) s, frameAll h s → Completes (.ssabandonRx h) s (ssAbandonLocal (relayed h 0x10 (leBytes 1 0x15 ++ []) s))) ∧
  (∀ (h : CasHdr) (data : Vector Byte 16) s s2, frameMine h s →
    s2 = wr R.CAS_RXSRC (BitVec.ofNat 32 (h.src.toNat + 256 * h.epoch.toNat)) (forEach (List.range 4)
      (fun k s => wr (R.CAS_RXMSG k) (BitVec.ofNat 32 (fieldAt data.toList (4 * k) 4)) s) (acked h s)) →
    Completes (.userMsgRx h data) s (logEvent Ev.CAS_MSG_RX 0xFF h.src.toNat h.epoch.toNat (fieldAt data.toList 0 4)
      (setFlag R.CAS_FLAG 0 s2))) ∧
  (∀ (h : CasHdr) st sev code die fill s, frameMine h s → isCampanile s = true →
    Completes (.statRx h st sev code die fill) s (wr (R.CAS_AGG_B (h.src.toNat % 8)) (BitVec.ofNat 32 (fill.toNat + 2 ^ 24 * die.toNat))
      (wr (R.CAS_AGG_A (h.src.toNat % 8)) (BitVec.ofNat 32 (st.toNat + 16 * sev.toNat + 64 + 65536 * code.toNat))
        (modCas (fun c => { c with memberHalt := c.memberHalt &&& ~~~(BitVec.ofNat 8 (2 ^ (h.src.toNat % 8))) }) (acked h s))))) ∧
  (∀ s, isMember s = true → Completes .statTimer s (casStat s)) ∧
  (∀ s, isMember s = true → cuUp s = true → s.cas.position ≠ 0 → casStat s = casSendTo 0x13 0 s.cas.epoch
    (leBytes 1 s.glb.state.code ++ leBytes 1 (statSeen s).1 ++ leBytes 2 (statSeen s).2.toNat ++ leBytes 1 (dieByte s) ++ leBytes 2 (lowestFill s))
    { s with cas := { s.cas with sev := 0, noted := s.hst.raised.length } }) ∧
  (∀ s, isMember s = false → isCampanile s = true → s.cas.length = 2 → Completes .statTimer s (incF (R.CAS_AGG_B 1) 23 16 s)) ∧
  (∀ (n : Fin 8) s, isCampanile s = true → n ≠ 0 → n.val < s.cas.length → firingState s = false →
    Completes (.memberLostTimeout n) s (logEvent (Ev.CAS_MEMBER_LOST .warn) n n (fld s (R.CAS_AGG_A n) 3 0) (fld s (R.CAS_AGG_B n) 23 16) s)) ∧
  (∀ (n : Fin 8) s, isCampanile s = true → n ≠ 0 → n.val < s.cas.length → firingState s = true →
    ∃ t, exec (.memberLostTimeout n) s = .next t ∧ t.glb.state = .safeHold) ∧
  (∀ (h : CasHdr) pi pf (tm : BitVec 64) sp (v d : Bool) s s1, frameAll h s →
    s1 = relayed h 0x14 (leBytes 4 pi.toNat ++ leBytes 4 pf.toNat ++ leBytes 8 tm.toNat ++ leBytes 4 sp.toNat ++
      leBytes 1 (b2n v + 2 * b2n d)) s →
    Completes (.posFrameRx h pi pf tm sp v d) s
      (posCheck (signed 32 sp.toNat) (wr R.CAS_RSPEED sp (wr R.CAS_RPOS_FRAC pf (wr R.CAS_RPOS_INT pi s1))))) ∧
  (∀ s u, windowOpen s 0 R.CAS_CMD true = true → u = hostAccess s →
    4 ≤ u.glb.state.code → u.glb.state ≠ .shutdown → chained u = true → u.cas.disc = true → userWaits u = false →
    Completes .casSend s (casResult 1 1 (casUser u))) ∧
  (∀ s u, windowOpen s 0 R.CAS_CMD true = true → u = hostAccess s →
    4 ≤ u.glb.state.code → u.glb.state ≠ .shutdown → chained u = true → u.cas.disc = true → userWaits u = true →
    Completes .casSend s (casResult 1 5 u)) ∧
  (∀ s u, windowOpen s 0 R.CAS_CMD true = true → u = hostAccess s →
    u.glb.state ≠ .off → u.glb.state.code < 4 ∨ u.glb.state = .shutdown ∨ chained u = false ∨ u.cas.disc = false →
    Completes .casSend s (casResult 1 2 u)) ∧
  (∀ s u, windowOpen s 0 R.CAS_CMD true = true → u = hostAccess s →
    isMember u = true → u.glb.state = .idle ∨ u.glb.state = .safeHold → cuUp u = true ∨ u.cas.cu.st = .timesync →
    Completes .casResync s (casResult 2 1 (casAcquire u))) ∧
  (∀ s u, windowOpen s 0 R.CAS_CMD true = true → u = hostAccess s →
    u.glb.state ≠ .off → isMember u = false ∨ (u.glb.state ≠ .idle ∧ u.glb.state ≠ .safeHold) →
    Completes .casResync s (casResult 2 2 u)) ∧
  (∀ s u, windowOpen s 0 R.CAS_CMD true = true → u = hostAccess s →
    4 ≤ u.glb.state.code → Completes .casClrcnt s (casResult 3 1 (wr R.CAS_CNT 0 u)))

/-- The descriptor, counter and branch instructions. (15_dma.md R452, 15_dma.md R453, 15_dma.md R454) -/
def Obligations.ProgramDescribes : Prop :=
  (∀ (ch : Fin 32) i s, fetched ch 0x00 i s → (dc s ch).pc < 255 → Completes (.dmaNop ch) s (pcOn ch (running ch i s))) ∧
  (∀ (ch : Fin 32) i s, fetched ch 0x01 i s → (dc s ch).pc < 255 → Completes (.dmaSrc ch) s
    (pcOn ch (markSet ch (modDma ch (fun x => { x with srcSet := true })
      (setBase (R.DMA_DCn_SBASE_LO ch) (R.DMA_DCn_SBASE_HI ch) (R.DMA_DCn_SPATR ch) (baseOf s ch i) (ib i 1 / 16) (running ch i s)))))) ∧
  (∀ (ch : Fin 32) i s, fetched ch 0x02 i s → (dc s ch).pc < 255 → Completes (.dmaDst ch) s
    (pcOn ch (markSet ch (modDma ch (fun x => { x with dstSet := true })
      (setBase (R.DMA_DCn_DBASE_LO ch) (R.DMA_DCn_DBASE_HI ch) (R.DMA_DCn_DPATR ch) (baseOf s ch i) (ib i 1 / 16) (running ch i s)))))) ∧
  (∀ (ch : Fin 32) i s, fetched ch 0x03 i s → (dc s ch).pc < 255 → Completes (.dmaSpat ch) s
    (pcOn ch (markSet ch (modDma ch (fun x => { x with spatSet := true })
      (setPattern (R.DMA_DCn_SPATR ch) (R.DMA_DCn_SROWS ch) (R.DMA_DCn_SSTRIDE ch) i (running ch i s)))))) ∧
  (∀ (ch : Fin 32) i s, fetched ch 0x04 i s → (dc s ch).pc < 255 → Completes (.dmaDpat ch) s
    (pcOn ch (markSet ch (modDma ch (fun x => { x with dpatSet := true })
      (setPattern (R.DMA_DCn_DPATR ch) (R.DMA_DCn_DROWS ch) (R.DMA_DCn_DSTRIDE ch) i (running ch i s)))))) ∧
  (∀ (ch : Fin 32) i s, bitOf (ib i 1) 3 = false → baseOf s ch i = fieldAt i 8 8)

/-- SETC loads a counter; LOOP does nothing when the counter is 0, else decrements it and goes on at its target while it is not 0. (R460) -/
def Obligations.LoopCounters : Prop :=
  (∀ (ch : Fin 32) i s, fetched ch 0x06 i s → (dc s ch).pc < 255 → Completes (.dmaSetc ch) s
    (pcOn ch (wr (R.DMA_DCn_C ch (ib i 1)) (BitVec.ofNat 32 (fieldAt i 4 4)) (running ch i s)))) ∧
  (∀ (ch : Fin 32) i s v, fetched ch 0x07 i s → (dc s ch).pc < 255 → v = (rd s (R.DMA_DCn_C ch (ib i 1))).toNat →
    (v = 0 → Completes (.dmaLoop ch) s (pcOn ch (running ch i s))) ∧
    (v = 1 → Completes (.dmaLoop ch) s (pcOn ch (wr (R.DMA_DCn_C ch (ib i 1)) 0 (running ch i s)))) ∧
    (2 ≤ v → Completes (.dmaLoop ch) s (modDma ch (fun x => { x with pc := ib i 2, inst := [] })
      (wr (R.DMA_DCn_C ch (ib i 1)) (BitVec.ofNat 32 (v - 1)) (running ch i s)))))

/-- A program's waits, signals, writes, records and ends: each acts once every earlier write of the program is complete. Fetches that reach
no memory, refused instructions, and the start of a transfer. (15_dma.md R451, 15_dma.md R455, 15_dma.md R458, 15_dma.md R461,
15_dma.md R462, 15_dma.md R471) -/
def Obligations.ProgramActs : Prop :=
  (∀ (ch : Fin 32) i s, fetched ch 0x08 i s → waitAstray (running ch i s) i = false → (∀ k, waitHolds (running ch i s) k i = false) →
    Completes (.dmaWait ch) s (modDma ch (fun x => { x with st := .wait, wtype := ib i 1 }) (running ch i s))) ∧
  (∀ (ch : Fin 32) i s, fetched ch 0x08 i s → waitAstray (running ch i s) i = true →
    Completes (.dmaWait ch) s (dmaFail ch 0x16 (running ch i s))) ∧
  (∀ (ch : Fin 32) i s, i = (dc s ch).inst → (dc s ch).st = .wait → (dc s ch).pc < 255 → waitAstray s i = false →
    ib i 1 = 0 → waitsAhead s ch < sigCount s (ib i 2) →
    Completes (.dmaWaitSatisfied ch) s (pcOn ch (modDma ch (fun x => { x with st := .run, wtype := 0 })
      (sigPut (ib i 2) (sigCount s (ib i 2) - 1) s)))) ∧
  (∀ (ch : Fin 32) i s, i = (dc s ch).inst → (dc s ch).st = .wait → (dc s ch).pc < 255 → waitAstray s i = false →
    ib i 1 ≠ 0 → waitHolds s (waitsAhead s ch) i = true →
    Completes (.dmaWaitSatisfied ch) s (pcOn ch (modDma ch (fun x => { x with st := .run, wtype := 0 }) s))) ∧
  (∀ (ch : Fin 32) i s, i = (dc s ch).inst → (dc s ch).st = .wait → ib i 3 ≠ 0 → waitHolds s (waitsAhead s ch) i = false →
    Completes (.dmaWaitTimeout ch) s (dmaFail ch 0x17 s)) ∧
  (∀ (ch : Fin 32) pins i s, fetched ch (ib i 0) i s → ¬ written ch s → ib i 0 ∈ [0x09, 0x0A, 0x0B, 0x0C, 0x0D] →
    exec (match ib i 0 with
      | 0x09 => .dmaSignal ch
      | 0x0A => .dmaWri ch pins
      | 0x0B => .dmaCpl ch
      | 0x0C => .dmaSwap ch
      | _ => .dmaEnd ch) s = finish (modDma ch (fun x => { x with held := true }) (running ch i s))) ∧
  (∀ (ch : Fin 32) i s, fetched ch 0x09 i s → written ch s → ib i 2 ≠ 0 → Completes (.dmaSignal ch) s
    (dmaNext ch (raiseSig (ib i 1) (ib i 2) (running ch i s)))) ∧
  (∀ (ch : Fin 32) pins i s, fetched ch 0x0A i s → written ch s → wriOk (fieldAt i 4 4) = true → Completes (.dmaWri ch pins) s
    (dmaNext ch (writeReg (fieldAt i 4 4) (BitVec.ofNat 32 (fieldAt i 8 4)) pins (running ch i s)))) ∧
  (∀ (ch : Fin 32) pins i s, fetched ch 0x0A i s → written ch s → wriOk (fieldAt i 4 4) = false → Completes (.dmaWri ch pins) s
    (dmaFail ch 0x15 (running ch i s))) ∧
  (∀ (ch : Fin 32) i s, fetched ch 0x0B i s → written ch s → Completes (.dmaCpl ch) s
    (dmaRec ch 0 0 (fieldAt i 4 4) (running ch i s))) ∧
  (∀ (ch : Fin 32) i s, fetched ch 0x0C i s → written ch s → bitOf (ib i 1) 0 = true → Completes (.dmaSwap ch) s
    (dmaRec ch 2 2 (fieldAt i 4 4) (running ch i s))) ∧
  (∀ (ch : Fin 32) i s, fetched ch 0x0D i s → written ch s → bitOf (ib i 1) 0 = false → (dc s ch).arm = false →
    (dc s ch).recs = [] →
    Completes (.dmaEnd ch) s (modDma ch (fun x => { dropXfer x with st := .idle, after := 0 }) (running ch i s))) ∧
  (∀ (ch : Fin 32) e s s0, s0 = (if (dc s ch).wpend && (dstSide s ch).space = 2 then eccErrors 0 (xmcUsable s) 1 e.errs s else s) →
    ((dc s0 ch).held = false → Completes (.dmaWriteComplete ch e) s (modDma ch (fun x => { x with wpend := false }) s0)) ∧
    ((dc s0 ch).held = true → (dc s0 ch).hpend = false → (dc s0 ch).st = .run → Completes (.dmaWriteComplete ch e) s
      (dmaAct ch (dc s0 ch).inst e.pins (modDma ch (fun x => { x with wpend := false }) s0)))) ∧
  (∀ (n op : Nat) act s, (dc s n).st = .run → (dc s n).xfer = false → (dc s n).held = false →
    sramOn s ((rd s (R.DMA_DCn_APTR n)).toNat + 16 * (dc s n).pc) 16 = false →
    dmaRun n op act s = dmaFail n 0x11 (errAddr n ((rd s (R.DMA_DCn_APTR n)).toNat + 16 * (dc s n).pc) s)) ∧
  (∀ (n op : Nat) act a s, (dc s n).st = .run → (dc s n).xfer = false → (dc s n).held = false →
    a = (rd s (R.DMA_DCn_APTR n)).toNat + 16 * (dc s n).pc → sramOn s a 16 = true → instValid (sramRead s a 16) = false →
    dmaRun n op act s = dmaFail n 0x10 (marchYield a 16 (fetchTurn n s))) ∧
  (∀ i : List Byte, 0x0E ≤ ib i 0 → instValid i = false) ∧
  (∀ (ch : Fin 32) i s, fetched ch 0x05 i s →
    ((dc s ch).srcSet && (dc s ch).spatSet && (dc s ch).dstSet && (dc s ch).dpatSet) = false →
    Completes (.dmaXfer ch) s (dmaFail ch 0x10 (running ch i s))) ∧
  (∀ (ch : Fin 32) i s, fetched ch 0x05 i s →
    ((dc s ch).srcSet && (dc s ch).spatSet && (dc s ch).dstSet && (dc s ch).dpatSet) = true →
    (srcSide s ch).total ≠ (dstSide s ch).total ∨ 2 ^ 32 ≤ (srcSide s ch).total →
    Completes (.dmaXfer ch) s (dmaFail ch 0x14 (running ch i s))) ∧
  (∀ (ch : Fin 32) i s, fetched ch 0x05 i s →
    ((dc s ch).srcSet && (dc s ch).spatSet && (dc s ch).dstSet && (dc s ch).dpatSet) = true →
    (srcSide s ch).total = (dstSide s ch).total → (srcSide s ch).total < 2 ^ 32 →
    Completes (.dmaXfer ch) s (dmaMove ch (wr (R.DMA_DCn_XOFF ch) 0
      (modDma ch (fun x => { x with xfer := true, iss := 0, hold := [], reads := [] }) (running ch i s)))))

/-- The reads of a transfer, each completing as the k-th outstanding one, their failures, the order in which a port serves its channels,
and the pause at a request's end. (15_dma.md R456, 15_dma.md R457, 15_dma.md R475) -/
def Obligations.TransferProceeds : Prop :=
  (∀ (n k : Fin 32) i d r s, outAt (dc s n).reads k = some i → (dc s n).reads[i]? = some r → r.data = none → (srcSide s n).space = 0 →
    Completes (.dmaReadCompletion n k (.ok d)) s
      (dmaMove n (modDma n (fun x => { x with reads := x.reads.set i { r with data := some (slice d 0 r.len) } }) s))) ∧
  (∀ (n k : Fin 32) i r s, outAt (dc s n).reads k = some i → (dc s n).reads[i]? = some r → r.data = none → (srcSide s n).space = 0 →
    (dc s n).fail = none →
    Completes (.hostReadTimeout n k) s (dmaMove n (modDma n (fun x => { x with fail := some 0x12 }) (errAddr n r.addr
      (modDma n (fun x => { x with reads := x.reads.set i { r with data := some [] } }) s))))) ∧
  (∀ (n k : Fin 32) i e r bs s, outAt (dc s n).reads k = some i → (dc s n).reads[i]? = some r → r.data = none → (srcSide s n).space = 1 →
    r.got = some bs → bs.length = r.len →
    Completes (.dmaReadCompletion n k e) s (dmaMove n (modDma n (fun x => { x with
      reads := x.reads.set i { r with data := some (slice bs 0 r.len) } }) s))) ∧
  (∀ (n k : Fin 32) i e r bs s, outAt (dc s n).reads k = some i → (dc s n).reads[i]? = some r → r.data = none → (srcSide s n).space = 1 →
    r.got = some bs → bs.length ≠ r.len → (dc s n).fail = none →
    Completes (.dmaReadCompletion n k e) s (dmaMove n (modDma n (fun x => { x with fail := some 0x11 }) (errAddr n r.addr
      (modDma n (fun x => { x with reads := x.reads.set i { r with data := some [] } }) s))))) ∧
  (∀ n j r s, (dc s n).unserved = some j → (dc s n).reads[j]? = some r → sramOn s r.addr r.len = true →
    serveRead 1 n s = tookTurn 1 n (modDma n (fun x => { x with
      reads := x.reads.set j { r with got := some (sramRead s r.addr r.len) } }) (marchYield r.addr r.len s))) ∧
  (∀ (r : DmaRead) rs k, (r.data = none → outAt (r :: rs) 0 = some 0 ∧ outAt (r :: rs) (k + 1) = (outAt rs k).map (· + 1)) ∧
    (r.data ≠ none → outAt (r :: rs) k = (outAt rs k).map (· + 1))) ∧
  (∀ s port ask n, portPick s port ask = some n → ask n = true ∧ (fld s (R.DMA_DCn_CFG n) 5 5 = 1 ∨
    ∀ m < 32, ask m = true → fld s (R.DMA_DCn_CFG m) 5 5 ≠ 1)) ∧
  (∀ s port ask m, m = (vat s.dmaTurn port + 1) % 32 → ask m = true → fld s (R.DMA_DCn_CFG m) 5 5 = 1 → portPick s port ask = some m) ∧
  (∀ (n : Fin 32) s, (dc s n).st = .pausing → (dc s n).outstanding = 0 → (dc s n).after = 0 → (dc s n).hold = [] → (dc s n).fail = none →
    Completes (.dmaPauseDone n) s (dmaPaused n (modDma n (fun x => { x with
      reads := [], hold := [], iss := (rd s (R.DMA_DCn_XOFF n)).toNat }) s))) ∧
  (∀ (n : Fin 32) s, (dc s n).st ≠ .pausing ∨ (dc s n).outstanding ≠ 0 → Completes (.dmaPauseDone n) s s) ∧
  (∀ (x : DmaSide) (i m b : Nat), 0 < x.acnt → 0 < b → x.len i m b ≤ m ∧ x.len i m b ≤ x.acnt - i % x.acnt ∧
    (0 < m → 0 < x.len i m b)) ∧
  (∀ (x : DmaSide) (i m b k : Nat), 0 < x.acnt → 0 < b → k < x.len i m b → x.addr i % b + k < b ∧ i % x.acnt + k < x.acnt)

/-- Completion queues and signals. The shadow set: written freely while not armed, and never while armed. (15_dma.md R463, 15_dma.md R465,
15_dma.md R467, 15_dma.md R468, 15_dma.md R470, 15_dma.md R473) -/
def Obligations.QueuesAndSignals : Prop :=
  (∀ (n : Fin 32) s, mayWrite s n = true → Completes (.cqfullRelease n) s (dmaPump 8 n s)) ∧
  (∀ (n : Fin 32) s, mayWrite s n = false → Completes (.cqfullRelease n) s s) ∧
  (∀ (q : Fin 32) s, fld s (R.DMA_CQn_CFG q) 2 2 = 1 → vat s.cqSince q ≠ 0 → Completes (.cqIrqTimer q) s (cqVector q s)) ∧
  (∀ (q : Fin 32) (head : BitVec 16) s, windowOpen s 0 (R.DMA_CQn_HEAD q) true = true →
    Completes (.cqHeadWrite q head) s (setF (R.DMA_CQn_HEAD q) 15 0 head.toNat (hostAccess s))) ∧
  (∀ (sg : Fin 64) (count : Byte) s, windowOpen s 0 R.DMA_SIGRAISE true = true →
    Completes (.sigraiseAdd sg count) s (raiseSig sg count.toNat (hostAccess s))) ∧
  (∀ (sg : Fin 64) (count : Byte) s, windowOpen s 0 R.DMA_SIGRAISE true = true →
    Completes (.sigraiseSet sg count) s (sigPut sg count.toNat (hostAccess s))) ∧
  (∀ (sg : Fin 64) (v : Nat) s, s.regsWf → v < 256 → sigCount (sigPut sg v s) sg = v ∧
    ∀ g : Fin 64, g ≠ sg → sigCount (sigPut sg v s) g = sigCount s g) ∧
  (∀ q s, cqRoom s q = true ↔ fld s (R.DMA_CQn_CFG q) 0 0 = 1 ∧
    (fld s (R.DMA_CQn_TAIL q) 15 0 + 1) % 2 ^ fld s (R.DMA_CQn_CFG q) 8 4 ≠ fld s (R.DMA_CQn_HEAD q) 15 0 ∧
    (fld s (R.DMA_CQn_CFG q) 1 1 = 1 → sramOn s (cqNext s q) 32 = true)) ∧
  (∀ (sg : Fin 64) n s, s.regsWf → sigCount (sigAdd sg n s) sg = min 255 (sigCount s sg + n)) ∧
  (∀ (n : Fin 32) (rel : BitVec 8) v s, isShadow rel.toNat = true → windowOpen s 0 (R.DMA_DCn_STAT n + rel.toNat) true = true →
    (dc s n).arm = false → Completes (.shadowRegisterWrite n rel v) s
      (wr (R.DMA_DCn_STAT n + rel.toNat) v (hostAccess s))) ∧
  (∀ (n : Fin 32) (rel : BitVec 8) v s, isShadow rel.toNat = true → windowOpen s 0 (R.DMA_DCn_STAT n + rel.toNat) true = true →
    (dc s n).arm = true → Completes (.shadowRegisterWrite n rel v) s
      (logEvent Ev.DMA_SHADOW_BUSY n n (R.DMA_DCn_STAT n + rel.toNat) 0 (setFlag (R.DMA_DCn_FLAG n) 1
        (wr (R.DMA_DCn_CMD_STATUS n) (BitVec.ofNat 32 (4 + 16 * (dc s n).st.code + 256 * 0xF))
          (hostAccess s)))))

/-- The channel's commands: accepted as R483 says, each with its effect; the others refused with their result. (15_dma.md R471, 15_dma.md
R475, 15_dma.md R477, 15_dma.md R478, 15_dma.md R483) -/
def Obligations.ChannelCommands : Prop :=
  (∀ (n : Fin 32) s u, windowOpen s 0 (R.DMA_DCn_CMD n) true = true → u = hostAccess s →
    dmaTable u n 1 = 1 → (dc u n).st = .idle → Completes (.dmaStart n) s (dmaStart n (dmaResult n 1 1 u))) ∧
  (∀ (n : Fin 32) s u, windowOpen s 0 (R.DMA_DCn_CMD n) true = true → u = hostAccess s →
    5 ≤ gnum u → (dc u n).st = .run → Completes (.dmaPause n) s
    (modDma n (fun x => { x with st := .pausing, was := .run, cause := 1, after := 0 }) (dmaResult n 2 1 u))) ∧
  (∀ (n : Fin 32) s u, windowOpen s 0 (R.DMA_DCn_CMD n) true = true → u = hostAccess s →
    5 ≤ gnum u → (dc u n).st = .run → Completes (.dmaDrain n) s
    (modDma n (fun x => { x with st := .pausing, was := .run, cause := 2, after := 1 }) (dmaResult n 3 1 u))) ∧
  (∀ (n : Fin 32) s u, windowOpen s 0 (R.DMA_DCn_CMD n) true = true → u = hostAccess s →
    dmaTable u n 4 = 1 → (dc u n).st = .paused → Completes (.dmaResume n) s (dmaResume n (dmaResult n 4 1 u))) ∧
  (∀ (n : Fin 32) s u, windowOpen s 0 (R.DMA_DCn_CMD n) true = true → u = hostAccess s →
    5 ≤ gnum u → (dc u n).st ∈ [DmaSt.run, .wait, .cqfull, .pausing, .paused] →
    Completes (.dmaAbort n) s (dmaAbort n (dmaResult n 5 1 u))) ∧
  (∀ (n : Fin 32) s u, windowOpen s 0 (R.DMA_DCn_CMD n) true = true → u = hostAccess s →
    5 ≤ gnum u → Completes (.dmaArm n) s (modDma n (fun x => { x with arm := true, swapped := false }) (dmaResult n 6 1 u))) ∧
  (∀ (n : Fin 32) s u, windowOpen s 0 (R.DMA_DCn_CMD n) true = true → u = hostAccess s →
    5 ≤ gnum u → Completes (.dmaDisarm n) s (modDma n (fun x => { x with arm := false }) (dmaResult n 7 1 u))) ∧
  (∀ (n : Fin 32) s u, windowOpen s 0 (R.DMA_DCn_CMD n) true = true → u = hostAccess s →
    5 ≤ gnum u → (dc u n).st = .error →
    Completes (.dmaClrerr n) s (modDma n (fun x => { x with st := .idle }) (dmaResult n 8 1 u))) ∧
  (∀ (n : Fin 32) s u, windowOpen s 0 (R.DMA_DCn_CMD n) true = true → u = hostAccess s →
    u.glb.state ≠ .off → gnum u < 5 → Completes (.dmaStart n) s (dmaResult n 1 2 u) ∧
    Completes (.dmaPause n) s (dmaResult n 2 2 u) ∧ Completes (.dmaDrain n) s (dmaResult n 3 2 u) ∧
    Completes (.dmaResume n) s (dmaResult n 4 2 u) ∧ Completes (.dmaAbort n) s (dmaResult n 5 2 u) ∧
    Completes (.dmaArm n) s (dmaResult n 6 2 u) ∧ Completes (.dmaDisarm n) s (dmaResult n 7 2 u) ∧
    Completes (.dmaClrerr n) s (dmaResult n 8 2 u)) ∧
  (∀ (n : Fin 32) s, 5 ≤ gnum s → s.glb.state ≠ .safeHold → s.glb.state ≠ .shutdown → (dc s n).st = .idle →
    dmaTable s n 1 = if (dc s n).arm then 1 else 5) ∧
  (∀ (n : Fin 32) s, 5 ≤ gnum s → s.glb.state = .safeHold ∨ s.glb.state = .shutdown →
    dmaTable s n 1 = 2 ∧ dmaTable s n 4 = 2)

/-- SRAM banks: the commands, the transition, and the destructive test. That a MARCH ends a test which runs, and that the faults of a test
that ends early come with a later command, is the model's (log 78). The background march: a window is borrowed only while it is free,
given back at its end or when another access meets it; the faults of one given back early come with a later command (log 78). Host
accesses to the SRAM and the page store through their windows, and accesses to a window that is closed. (03_bring_up.md R100,
16_memories.md R495, 16_memories.md R497, 16_memories.md R501, 16_memories.md R502, 16_memories.md R508, 16_memories.md R509) -/
def Obligations.Memories : Prop :=
  (∀ (b : Fin 8) s u, windowOpen s 0 R.MEM_CMD true = true → u = hostAccess s →
    memTable u 1 b = 1 → u.mem.test = none → Completes (.memSleep b) s (bankMove b 1 (memResult 1 b 1 u))) ∧
  (∀ (b : Fin 8) s u, windowOpen s 0 R.MEM_CMD true = true → u = hostAccess s →
    5 ≤ gnum u → u.glb.state ≠ .shutdown → bkState u b = 1 → bkBusy u b = false →
    Completes (.memWake b) s (bankMove b 0 (memResult 2 b 1 u))) ∧
  (∀ (b : Fin 8) s u, windowOpen s 0 R.MEM_CMD true = true → u = hostAccess s →
    u.glb.state = .idle → bankOn u b = true → bankInUse u b = false →
    Completes (.memMarch b) s (marchStart b (marchCut (memResult 3 b 1 u)))) ∧
  (∀ (b : Fin 8) s u, windowOpen s 0 R.MEM_CMD true = true → u = hostAccess s →
    u.glb.state = .idle → Completes (.memStopmarch b) s (marchCut (memResult 4 b 1 u))) ∧
  (∀ s, s.mem.test = none → marchCut s = s) ∧
  (∀ s t, s.mem.test = some t → (marchCut s).mem.test = none ∧ (marchCut s).mem.cut = some t.bank ∧
    fld (marchCut s) R.MEM_MARCHSTAT 3 3 = 0) ∧
  (∀ faults (b : Nat) s, s.mem.test = none → s.mem.cut = some b →
    Completes (.marchTestDone faults) s (testFaults b faults { s with mem := { s.mem with cut := none } })) ∧
  (∀ (b : Fin 8) s u, windowOpen s 0 R.MEM_CMD true = true → u = hostAccess s →
    5 ≤ gnum u → u.glb.state ≠ .shutdown → bankOn u b = true → bankInUse u b = true →
    Completes (.memSleep b) s (memResult 1 b 4 u)) ∧
  (∀ (b : Fin 8) s u, windowOpen s 0 R.MEM_CMD true = true → u = hostAccess s →
    u.glb.state ≠ .off → gnum u < 5 ∨ u.glb.state = .shutdown →
    Completes (.memSleep b) s (memResult 1 b 2 u) ∧ Completes (.memWake b) s (memResult 2 b 2 u) ∧
    Completes (.memMarch b) s (memResult 3 b 2 u) ∧ Completes (.memStopmarch b) s (memResult 4 b 2 u)) ∧
  (∀ (b : Fin 8) s s1, bkBusy s b = true → bkState s b = 0 → vat s.mem.target b = 1 →
    s1 = setF R.MEM_BKSTAT (16 + b) (16 + b) 0 (setF R.MEM_BKSTAT (2 * b + 1) (2 * b) 1 s) →
    Completes (.bankTransitionDone b) s (logEvent Ev.MEM_BANK_STATE b b 0 1
      { s1 with mem := { s.mem with powered := s.mem.powered &&& ~~~(BitVec.ofNat 8 (2 ^ b.val)),
                                    asleep := s.mem.asleep &&& ~~~(BitVec.ofNat 8 (2 ^ b.val)) } })) ∧
  (∀ (b : Fin 8) s, bkBusy s b = true → bkState s b = 2 → vat s.mem.target b = 1 → testWaits s b = true →
    bitOf s.mem.powered.toNat b = false → Completes (.bankTransitionDone b) s (bankPower b s)) ∧
  (∀ (b : Fin 8) s, bkBusy s b = false → Completes (.bankTransitionDone b) s s) ∧
  (∀ t s, s.mem.test = some t → Completes (.marchTestDone []) s
    (logEvent Ev.MEM_MARCH_DONE t.bank t.bank 0 ((s.now - t.from_) / 400) (marchEnd s))) ∧
  (∀ (b : Fin 8) s a, s.memWf → b * bankSize ≤ a → a < (b + 1) * bankSize → sramRead (marchStart b s) a 1 = [0]) ∧
  (∀ s i, fld s R.MEM_MARCHCFG 0 0 = 1 → s.mem.win = none → s.mem.test = none → s.glb.div = 0 → 3 ≤ gnum s → gnum s < 9 →
    nextWindow s s.mem.next = some i → Completes .marchWindowStart s
      (setF R.MEM_BKSTAT (24 + bankOf (4096 * i)) (24 + bankOf (4096 * i)) 1 (setF R.MEM_MARCHSTAT 2 0 (bankOf (4096 * i))
        { s with mem := { s.mem with win := some (4096 * i), next := i, late := none } }))) ∧
  (∀ s, fld s R.MEM_MARCHCFG 0 0 = 0 ∨ s.mem.win ≠ none → Completes .marchWindowStart s s) ∧
  (∀ s w, s.mem.win = some w → nextWindow (setF R.MEM_BKSTAT (24 + bankOf w) (24 + bankOf w) 0 s) (w / 4096 + 1) = none →
    Completes (.marchWindowDone []) s (incF R.MEM_MARCHSTAT 31 24
      { setF R.MEM_BKSTAT (24 + bankOf w) (24 + bankOf w) 0 s with mem := { s.mem with win := none, next := 0 } })) ∧
  (∀ s w, s.mem.win = none → s.mem.late = some w →
    Completes (.marchWindowDone []) s { s with mem := { s.mem with late := none } }) ∧
  (∀ s w f, s.mem.win = none → s.mem.late = some w →
    Completes (.marchWindowDone [f]) s (marchFault true (w + f.off.val) { s with mem := { s.mem with late := none } })) ∧
  (∀ s i j, nextWindow s i = some j → i ≤ j ∧ windowFree s j = true ∧ ∀ k, i ≤ k → k < j → windowFree s k = false) ∧
  (∀ s a n w, s.mem.win = some w → w < a + n → a < w + 4096 → (marchYield a n s).mem.win = none ∧
    (marchYield a n s).mem.late = some w) ∧
  (∀ s a n w, s.mem.win = some w → a + n ≤ w ∨ w + 4096 ≤ a → marchYield a n s = s) ∧
  (∀ (off : BitVec 27) n s s1, windowOpen s 2 off.toNat false = true → off.toNat + n ≤ sramSize → (∀ b : Fin 8, bankOn s b = true) →
    s1 = marchYield off.toNat n (hostAccess s) →
    Completes (.bar2Access off (.read n)) s (respond 2 off.toNat (sramRead s off.toNat n) s1)) ∧
  (∀ (off : BitVec 27) x s, windowOpen s 2 off.toNat true = true → off.toNat < sramSize → (∀ b : Fin 8, bankOn s b = true) →
    Completes (.bar2Access off (.write [some x])) s (sramWrite off.toNat [x] (marchYield off.toNat 1 (hostAccess s)))) ∧
  (∀ (off : BitVec 28) n s, windowOpen s 4 off.toNat false = true → fld s R.XMC_WINBASE 5 0 * 2 ^ 28 + off.toNat + n ≤ xmcUsable s →
    0 < n → Completes (.bar4Access off (.read n) []) s
      (respond 4 off.toNat (pageRead s (fld s R.XMC_WINBASE 5 0 * 2 ^ 28 + off.toNat) n) (hostAccess s))) ∧
  (∀ (off : BitVec 28) n (e : EccErr) s base, base = fld s R.XMC_WINBASE 5 0 * 2 ^ 28 + off.toNat →
    windowOpen s 4 off.toNat false = true → 0 < n → base + n ≤ xmcUsable s → xmcEcc s = true → 32 * (base / 32 + e.unit) < base + n →
    (e.hard = true → Completes (.bar4Access off (.read n) [e]) s
      (emit (.poison 4 off.toNat) (eccUncorr (32 * (base / 32 + e.unit)) 3 (hostAccess s)))) ∧
    (e.hard = false → Completes (.bar4Access off (.read n) [e]) s
      (respond 4 off.toNat (pageRead s base n) (eccCorrected (32 * (base / 32 + e.unit)) e.ch.val (hostAccess s))))) ∧
  (∀ (off : BitVec 28) n e s, windowOpen s 4 off.toNat false = true → xmcUsable s ≤ fld s R.XMC_WINBASE 5 0 * 2 ^ 28 + off.toNat →
    Completes (.bar4Access off (.read n) e) s (respond 4 off.toNat (List.replicate n 0) (hostAccess s))) ∧
  (∀ (off : BitVec 28) x s, windowOpen s 4 off.toNat true = true →
    fld s R.XMC_WINBASE 5 0 * 2 ^ 28 + off.toNat < xmcUsable s →
    Completes (.bar4Access off (.write [some x]) []) s
      (pageWrite (fld s R.XMC_WINBASE 5 0 * 2 ^ 28 + off.toNat) [x] (hostAccess s))) ∧
  (∀ (bar : Fin 8) off write s s1, windowOpen s bar off write = false → s.glb.state ≠ .off →
    s1 = (if write then hostAccess s else respond bar off [0, 0, 0, 0] (hostAccess s)) →
    (s.glb.earlySeen = true → Completes (.earlyAccess bar off write) s s1) ∧
    (s.glb.earlySeen = false → Completes (.earlyAccess bar off write) s
      (logEvent Ev.BRU_EARLY_ACCESS 0xFF bar off (if write then 2 else 1) { s1 with glb := { s.glb with earlySeen := true } }))) ∧
  (∀ (bar : Fin 8) off write s, s.glb.state = .off → Completes (.earlyAccess bar off write) s (hostAccess s)) ∧
  (∀ s (bar : Nat) off w, s.glb.state = .off → windowOpen s bar off w = false) ∧
  (∀ s off w, s.glb.state = .imageLoad → windowOpen s 0 off w = decide (off < 0x020000))

/-- Bus Master Enable: while it is 0, requests are held and the ring is suspended; setting it lets them continue in order. Accesses of a
bad form, logged errors of the link, L1, and MSI-X masking. The event ring and the occurrence counts as the host handles them.
(17_host_control.md R513, 17_host_control.md R514, 17_host_control.md R521, 17_host_control.md R523, 17_host_control.md R524,
17_host_control.md R527, 17_host_control.md R530) -/
def Obligations.HostLink : Prop :=
  (∀ s, s.hst.bme = true → Completes .bmeClear s
    (logEvent Ev.HST_BME_OFF 0xFF (gnum s) 0 0 (setFlag R.HST_FLAG 2 { s with hst := { s.hst with bme := false } }))) ∧
  (∀ s, s.hst.bme = false → Completes .bmeClear s s) ∧
  (∀ s s1, s.hst.bme = false → cfgReply s = .success → s1 = { s with hst := { s.hst with bme := true } } →
    Completes .bmeSet s (dmaUnhold (evDrain 128 (sendHeld s1)))) ∧
  (∀ s, cfgReply s ≠ .success → Completes .bmeSet s s) ∧
  (∀ s, s.glb.perst = false → s.glb.porst = false → s.glb.state ≠ .off →
    cfgReply s = if s.hst.cfgReady then .success else .retry) ∧
  (∀ s, s.hst.bme = true → Completes .bmeSet s s) ∧
  (∀ x s, s.hst.bme = false → toHost x s = { s with hst := { s.hst with held := s.hst.held ++ [x] } }) ∧
  (∀ x s, s.hst.bme = true → (toHost x s).out = x :: s.out) ∧
  (∀ s, (sendHeld s).out = s.hst.held.reverse ++ s.out ∧ (sendHeld s).hst.held = []) ∧
  (∀ s, s.hst.bme = false → evRunning s = false) ∧
  (∀ (off : BitVec 24) size s, windowOpen s 0 off.toNat true = true →
    Completes (.hstAccessBad off size true) s (logEvent Ev.HST_ACCESS_BAD 0xFF off.toNat size 2 (setFlag R.HST_FLAG 3 (hostAccess s)))) ∧
  (∀ (off : BitVec 24) size s, windowOpen s 0 off.toNat false = true →
    Completes (.hstAccessBad off size false) s (logEvent Ev.HST_ACCESS_BAD 0xFF off.toNat size 1 (setFlag R.HST_FLAG 3
      (respond 0 off.toNat (List.replicate size 0) (hostAccess s))))) ∧
  (∀ status header s, s.hst.lastAer = none → Completes (.aerError status header true) s
    (logEvent Ev.HST_PCIE_ERROR 0xFF status.toNat header.toNat 2 { s with hst := { s.hst with lastAer := some s.now } })) ∧
  (∀ status header u t s, s.hst.lastAer = some t → s.now < t + 2 ^ 20 → Completes (.aerError status header u) s s) ∧
  (∀ status header s t, s.hst.lastAer = some t → t + 2 ^ 20 ≤ s.now → Completes (.aerError status header false) s
    (logEvent Ev.HST_PCIE_ERROR 0xFF status.toNat header.toNat 1 { s with hst := { s.hst with lastAer := some s.now } })) ∧
  (∀ s, s.hst.linkSpeed ≠ 0 → linkQuiet s = true → Completes .l1Entry s { s with hst := { s.hst with l1 := true } }) ∧
  (∀ s, linkQuiet s = false → Completes .l1Entry s s) ∧
  (∀ (v : Fin 64) s, s.hst.msixMask = true → sendMsix v s = setF (R.MSIX_PBA (v / 32)) (v % 32) (v % 32) 1 s) ∧
  (∀ (v : Fin 64) s, s.hst.msixMask = false → fld s (R.MSIX_TABLE v 3) 0 0 = 0 → sendMsix v s = toHost (.msix v) s) ∧
  (∀ (v : Fin 64) s s1, windowOpen s 0 (R.MSIX_TABLE v 3) true = true → s1 = setF (R.MSIX_TABLE v 3) 0 0 0 (hostAccess s) →
    s.hst.msixMask = false →
    fld s1 (R.MSIX_PBA (v / 32)) (v % 32) (v % 32) = 1 → fld s1 (R.MSIX_TABLE v 3) 0 0 = 0 →
    Completes (.msixUnmask (some v)) s (toHost (.msix v) (setF (R.MSIX_PBA (v / 32)) (v % 32) (v % 32) 0 s1))) ∧
  (∀ s, Completes (.msixUnmask none) s (forEach (List.range 64) msixPump { s with hst := { s.hst with msixMask := false } })) ∧
  (∀ (head : BitVec 16) s, windowOpen s 0 R.HST_EVHEAD true = true →
    Completes (.evheadWrite head) s (evDrain 128 (setF R.HST_EVHEAD 15 0 head.toNat (hostAccess s)))) ∧
  (∀ v s s1, windowOpen s 0 R.HST_EVCFG true = true → fld s R.HST_EVCFG 0 0 = 0 → bits v 0 0 = 1 → 8 ≤ bits v 12 8 → bits v 12 8 ≤ 16 →
    bits v 1 1 = 0 ∨ sramOn s (evRing s).1 (32 * 2 ^ bits v 12 8) = true →
    s1 = setF R.HST_EVTAIL 15 0 0 (setF R.HST_EVHEAD 15 0 0 (wr R.HST_EVCFG (v &&& regStored R.HST_EVCFG) (hostAccess s))) →
    Completes (.evcfgWrite v) s (evDrain 128 { s1 with hst := { s1.hst with everEnabled := true, suspended := false, sinceVec := 0 } })) ∧
  (∀ v s, windowOpen s 0 R.HST_EVCFG true = true → fld s R.HST_EVCFG 0 0 = 0 → bits v 0 0 = 1 → 8 ≤ bits v 12 8 → bits v 12 8 ≤ 16 →
    bits v 1 1 = 1 → sramOn s (evRing s).1 (32 * 2 ^ bits v 12 8) = false →
    Completes (.evcfgWrite v) s (accessBad R.HST_EVCFG 4 2 (hostAccess s))) ∧
  (∀ v s, windowOpen s 0 R.HST_EVCFG true = true → fld s R.HST_EVCFG 0 0 = 0 → bits v 0 0 = 0 → 8 ≤ bits v 12 8 → bits v 12 8 ≤ 16 →
    Completes (.evcfgWrite v) s (wr R.HST_EVCFG (v &&& regStored R.HST_EVCFG) (hostAccess s))) ∧
  (∀ s, fld s R.HST_EVCFG 2 2 = 1 → s.hst.sinceVec ≠ 0 → Completes .evIrqTimer s
    (sendMsix ⟨fld s R.HST_EVCFG 18 13 % 64, Nat.mod_lt _ (by decide)⟩ { s with hst := { s.hst with sinceVec := 0 } })) ∧
  (∀ s, windowOpen s 0 R.HST_OCCCLR true = true →
    ∃ t, exec .occClearSelected s = .next t ∧ (s.hst.raised = [] → occ t (occSelOff s) (occSelBit s) = 0 ∧
      ∀ o b, occKey o b ≠ occKey (occSelOff s) (occSelBit s) → occ t o b = occ s o b)) ∧
  (∀ s, windowOpen s 0 R.HST_OCCCLR true = true →
    ∃ t, exec .occClearAll s = .next t ∧ (s.hst.raised = [] → ∀ o b, occ t o b = 0)) ∧
  (∀ s, windowOpen s 0 R.HST_INVCTL true = true → Completes .invarLock s (setF R.HST_INVCTL 0 0 1 (hostAccess s)))

/-- The Lantern summary: LANTERN, the end of its write, and the management view. (17_host_control.md R531, 17_host_control.md R532,
17_host_control.md R534) -/
def Obligations.LanternAndI2c : Prop :=
  (∀ s, s.glb.state ≠ .off → gnum s < 5 → Completes .glbLantern s (glbResult 7 2 (gnum s) s)) ∧
  (∀ s, 5 ≤ gnum s → s.hst.lanBusy ≠ none →
    Completes .glbLantern s (glbResult 7 1 (gnum s) { s with hst := { s.hst with lanPending := true } })) ∧
  (∀ s, 5 ≤ gnum s → s.hst.lanBusy = none → lanAstray s = false →
    Completes .glbLantern s (glbResult 7 1 (gnum s) { s with hst := { s.hst with
      lanCount := s.hst.lanCount + 1, lanLast := lanBytes s (s.hst.lanCount + 1).toNat,
      lanBusy := some (s.hst.lanCount + 1, lanBytes s (s.hst.lanCount + 1).toNat) } })) ∧
  (∀ s q b, s.hst.lanBusy = some (q, b) → fld s R.HST_LANCFG 0 0 = 0 → s.hst.bme = false → Completes .lanternWriteDone s s) ∧
  (∀ s q b s1, s.hst.lanBusy = some (q, b) → fld s R.HST_LANCFG 0 0 = 0 → s.hst.bme = true → fld s R.HST_LANCFG 1 1 = 0 →
    s.hst.lanPending = false → s1 = wr R.HST_LANSEQ q (hostWrite (lanBase s) b { s with hst := { s.hst with lanBusy := none } }) →
    Completes .lanternWriteDone s (logEvent Ev.HST_LANTERN_DONE 0xFF q.toNat (s.now % 2 ^ 32) 0 s1)) ∧
  (∀ s q b, s.hst.lanBusy = some (q, b) → lanAstray s = true → s.hst.lanPending = false →
    Completes .lanternWriteDone s (accessBad R.HST_LANBASE_LO 8192 2 { s with hst := { s.hst with lanBusy := none, lanPending := false } })) ∧
  (∀ (high mid low : Byte) s, s.glb.state ≠ .off → Completes (.i2cPointerWrite high mid low) s
    { s with hst := { s.hst with i2cPtr := 65536 * high.toNat + 256 * mid.toNat + low.toNat } }) ∧
  (∀ s, s.glb.state ≠ .off → Completes .i2cRead s (i2cRead s)) ∧
  (∀ s u, u = i2cUnit s s.hst.i2cPtr → s.hst.i2cPtr = u.1 →
    i2cRead s = respond 8 u.1 [u.2.getD 0 0] { s with hst := { s.hst with i2cPtr := (u.1 + 1) % 2 ^ 24, i2cLatch := u } }) ∧
  (∀ s, s.glb.state ≠ .off → Completes .i2cSnapshot s { s with hst := { s.hst with
    i2cPtr := 0xFF0000, lanLast := lanBytes { s with hst := { s.hst with i2cPtr := 0xFF0000 } } s.hst.lanCount.toNat } }) ∧
  (∀ s, s.glb.state = .off → Completes .i2cRead s s ∧ Completes .i2cSnapshot s s ∧ Completes .glbLantern s s) ∧
  (∀ s q, (lanBytes s q).length = 8192)

/-- Register writes by the host: what a plain register keeps and takes, flags, registers that do not exist, and Invar registers in a single
word. Invar writes: stored as a pair when whole, complementary and not locked, else refused with the first reason that applies. The
tables window, and background samples of the ADC. (00_scope.md R7, 17_host_control.md R515, 17_host_control.md R518, 18_register_map.md
R542, 18_register_map.md R545) -/
def Obligations.RegisterWrites : Prop :=
  (∀ o d v s, s.regsWf → regDesc o = some d → d.w1s = 0 → d.w1c = 0 → regStored o = ~~~(0 : Word) →
    rd (plainWrite o v s) o = (rd s o &&& ~~~d.rw) ||| (v &&& d.rw)) ∧
  (∀ o v s o', o' ≠ o → rd (plainWrite o v s) o' = rd s o') ∧
  (∀ (off : BitVec 24) v pins s, windowOpen s 0 off.toNat true = true → (regDesc off.toNat).isSome = true → off.toNat < 0x800000 →
    isInvar off.toNat = false → Completes (.registerWrite off v pins) s (writeReg off.toNat v pins (hostAccess s))) ∧
  (∀ (off : BitVec 24) v pins s, windowOpen s 0 off.toNat true = true → regDesc off.toNat = none →
    Completes (.registerWrite off v pins) s (accessBad off.toNat 4 2 (hostAccess s))) ∧
  (∀ (off : BitVec 24) v pins s, windowOpen s 0 off.toNat true = false →
    Completes (.registerWrite off v pins) s (earlyAccess 0 off.toNat true 0 (hostAccess s))) ∧
  (∀ (off : BitVec 24) v pins s, windowOpen s 0 off.toNat true = true → isInvar off.toNat = true → off.toNat < 0x800000 →
    Completes (.registerWrite off v pins) s (invarRefuse off.toNat 1 v (hostAccess s))) ∧
  (∀ (off : BitVec 24) v s, windowOpen s 0 off.toNat true = true → isInvar off.toNat = true → off.toNat % 8 = 0 →
    fld s R.HST_INVCTL 0 0 = 0 → Completes (.invarWrite off true v (~~~v)) s (invarChanged off.toNat (rd s off.toNat) (putInvar off.toNat v (hostAccess s)))) ∧
  (∀ (off : BitVec 24) v s, windowOpen s 0 off.toNat true = true → isInvar off.toNat = true → off.toNat % 8 = 0 →
    fld s R.HST_INVCTL 0 0 = 1 → Completes (.invarWrite off true v (~~~v)) s (invarRefuse off.toNat 3 v (hostAccess s))) ∧
  (∀ (off : BitVec 24) v c s, windowOpen s 0 off.toNat true = true → isInvar off.toNat = true → off.toNat % 8 = 0 → c ≠ ~~~v →
    Completes (.invarWrite off true v c) s (invarRefuse off.toNat 2 v (hostAccess s))) ∧
  (∀ (off : BitVec 24) v c s, windowOpen s 0 off.toNat true = true → isInvar off.toNat = true →
    Completes (.invarWrite off false v c) s (invarRefuse off.toNat 1 v (hostAccess s))) ∧
  (∀ o v s, s.regsWf → regStored (o + 4) = ~~~(0 : Word) →
    rd (putInvar o v s) (o + 4) = ~~~(rd (putInvar o v s) o)) ∧
  (∀ (off : BitVec 24) v s, windowOpen s 0 off.toNat true = true → R.TBL_SUBST ≤ off.toNat → off.toNat < R.TBL_USTEP →
    Completes (.tableEntryWrite off v none) s (accessBad off.toNat 4 2 (hostAccess s))) ∧
  (∀ (off : BitVec 24) v h s, windowOpen s 0 off.toNat true = true → R.TBL_THERMAL ≤ off.toNat → off.toNat < R.TBL_USTEP →
    Completes (.tableEntryWrite off v (some h)) s (accessBad off.toNat 8 2 (hostAccess s))) ∧
  (∀ (off : BitVec 24) v s, windowOpen s 0 off.toNat true = true → off.toNat % 4 = 0 → (regDesc off.toNat).isSome = true →
    R.TBL_USTEP ≤ off.toNat → off.toNat < R.TBL_WAVE ∨ 0x963800 ≤ off.toNat →
    Completes (.tableEntryWrite off v none) s (wr off.toNat (v &&& regStored off.toNat) (hostAccess s))) ∧
  (∀ (off : BitVec 24) v s, windowOpen s 0 off.toNat true = true → off.toNat % 4 = 0 → (regDesc off.toNat).isSome = true →
    R.TBL_WAVE ≤ off.toNat → off.toNat < 0x963800 →
    Completes (.tableEntryWrite off v none) s (bankChanged ((off.toNat - R.TBL_WAVE) / 128) (hostAccess s)
      (pulseCheck (wr off.toNat (v &&& regStored off.toNat) (hostAccess s))))) ∧
  (∀ (off : BitVec 24) v s, windowOpen s 0 off.toNat true = true → off.toNat % 4 = 0 → (regDesc off.toNat).isSome = true →
    R.TBL_HEALTH ≤ off.toNat → off.toNat < R.TBL_SUBST →
    Completes (.tableEntryWrite off v none) s (healthWrite ((off.toNat - R.TBL_HEALTH) / 4) v (hostAccess s))) ∧
  (∀ (off : BitVec 24) v h s, windowOpen s 0 off.toNat true = true → off.toNat % 8 = 0 → (regDesc off.toNat).isSome = true →
    R.TBL_SUBST ≤ off.toNat → off.toNat < R.TBL_THERMAL →
    Completes (.tableEntryWrite off v (some h)) s (substWrite off.toNat v h (hostAccess s))) ∧
  (∀ (input : Fin 56) (mv : BitVec 16) s, s.glb.state ≠ .off → s.glb.state ≠ .reset → fld s R.ADC_CTL 0 0 = 1 →
    input.val ∉ adcClaimed s → Completes (.adcBackgroundSample input mv) s (adcPut input (signed 16 mv.toNat) s)) ∧
  (∀ (input : Fin 56) (mv : BitVec 16) s, fld s R.ADC_CTL 0 0 = 0 ∨ input.val ∈ adcClaimed s →
    Completes (.adcBackgroundSample input mv) s s)

/-- A write of 1 clears a flag; where hardware sets the flag in the same cycle, the set wins and the flag stays set. (R8) -/
def Obligations.FlagSetWins : Prop :=
  (∀ (off : BitVec 24) (bit : Fin 32) s, windowOpen s 0 off.toNat true = true → isW1c off.toNat bit = true →
    Completes (.w1cFlagClear off bit false) s (clearFlags off.toNat (BitVec.ofNat 32 (2 ^ bit.val)) (hostAccess s))) ∧
  (∀ (off : BitVec 24) (bit : Fin 32) s, windowOpen s 0 off.toNat true = true → isW1c off.toNat bit = true →
    Completes (.w1cFlagClear off bit true) s (setFlag off.toNat bit (clearFlags off.toNat (BitVec.ofNat 32 (2 ^ bit.val)) (hostAccess s)))) ∧
  (∀ (off : BitVec 24) (bit : Fin 32) s, s.regsWf → isW1c off.toNat bit = true → bitOf (regStored off.toNat).toNat bit = true →
    fld (clearFlags off.toNat (BitVec.ofNat 32 (2 ^ bit.val)) s) off.toNat bit bit = 0 ∧
    (∀ k, k < 32 → k ≠ bit → bitOf (regStored off.toNat).toNat k = true →
      fld (clearFlags off.toNat (BitVec.ofNat 32 (2 ^ bit.val)) s) off.toNat k k = fld s off.toNat k k) ∧
    fld (setFlag off.toNat bit (clearFlags off.toNat (BitVec.ofNat 32 (2 ^ bit.val)) s)) off.toNat bit bit = 1)
end

