-- ==== Sys2Proof/Laws/Sparse.lean ====
section
/-!
SUPPORT. Laws of sparse maps, of register words and of byte memories.
-/
namespace Sys2Proof.Machine

variable {α : Type}

/-- A write leaves every other key alone. -/
theorem Sparse.get_set_of_ne [DecidableEq α] (d : Nat → α) (l : Sparse α) {k k' : Nat} (v : α) (h : k' ≠ k) :
    Sparse.get (d k') (Sparse.set (d k) l k v) k' = Sparse.get (d k') l k' := by
  induction l with
  | nil =>
    unfold Sparse.set
    split
    · rfl
    · simp [Sparse.get, h.symm]
  | cons p rest ih =>
    obtain ⟨a, b⟩ := p
    unfold Sparse.set
    split
    · split
      · rfl
      · simp [Sparse.get, h.symm]
    · split
      · rename_i _ e; subst e
        split <;> simp [Sparse.get, h.symm]
      · simp only [Sparse.get]
        split
        · rfl
        · exact ih

/-- A read after a write to the same key, on a map in canonical form. -/
theorem Sparse.get_set_self [DecidableEq α] (d : Nat → α) (l : Sparse α) (k : Nat) (v : α)
    (h : l.Pairwise (fun a b => a.1 < b.1)) : Sparse.get (d k) (Sparse.set (d k) l k v) k = v := by
  induction l with
  | nil =>
    unfold Sparse.set
    split
    · simp_all [Sparse.get]
    · simp [Sparse.get]
  | cons p rest ih =>
    obtain ⟨a, b⟩ := p
    rw [List.pairwise_cons] at h
    have none : (∀ q ∈ rest, k < q.1) → Sparse.get (d k) rest k = d k := by
      clear ih h
      intro hq
      induction rest with
      | nil => rfl
      | cons q r ih =>
        have := hq q (by simp)
        simp only [Sparse.get]
        rw [if_neg (by omega)]
        exact ih (fun x hx => hq x (by simp [hx]))
    unfold Sparse.set
    split
    · rename_i hlt
      split
      · rename_i hv
        simp only [Sparse.get]
        rw [if_neg (by omega), hv]
        exact none (fun q hq => Nat.lt_trans hlt (h.1 q hq))
      · simp [Sparse.get]
    · split
      · rename_i e; subst e
        split
        · rename_i hv; rw [hv]; exact none h.1
        · simp [Sparse.get]
      · rename_i h1 h2
        simp only [Sparse.get]
        rw [if_neg (fun e => h2 e.symm)]
        exact ih h.2

/-- The keys after a write: those of the map, and the key written. -/
theorem Sparse.mem_set [DecidableEq α] (d : α) (l : Sparse α) (k : Nat) (v : α) {p : Nat × α} (h : p ∈ Sparse.set d l k v) :
    p ∈ l ∨ (p = (k, v) ∧ v ≠ d) := by
  induction l with
  | nil =>
    unfold Sparse.set at h
    split at h
    · simp at h
    · simp_all
  | cons q rest ih =>
    obtain ⟨a, b⟩ := q
    unfold Sparse.set at h
    split at h
    · split at h
      · exact .inl h
      · rcases List.mem_cons.1 h with h | h
        · exact .inr ⟨h, ‹_›⟩
        · exact .inl h
    · split at h
      · split at h
        · exact .inl (List.mem_cons_of_mem _ h)
        · rcases List.mem_cons.1 h with h | h
          · exact .inr ⟨h, ‹_›⟩
          · exact .inl (List.mem_cons_of_mem _ h)
      · rcases List.mem_cons.1 h with h | h
        · exact .inl (h ▸ List.mem_cons_self)
        · exact (ih h).imp (List.mem_cons_of_mem _) id

/-- A write keeps the canonical form. -/
theorem Sparse.set_wf [DecidableEq α] {d : Nat → α} {l : Sparse α} (k : Nat) (v : α) (h : Sparse.wf d l) :
    Sparse.wf d (Sparse.set (d k) l k v) := by
  refine ⟨?_, fun p hp => ?_⟩
  · have h := h.1
    induction l with
    | nil => unfold Sparse.set; split <;> simp
    | cons q rest ih =>
      obtain ⟨a, b⟩ := q
      have hq := List.pairwise_cons.1 h
      unfold Sparse.set
      split
      · split
        · exact h
        · refine List.pairwise_cons.2 ⟨fun x hx => ?_, h⟩
          rcases List.mem_cons.1 hx with rfl | hx
          · assumption
          · exact Nat.lt_trans ‹_› (hq.1 x hx)
      · split
        · subst_vars
          split
          · exact hq.2
          · exact List.pairwise_cons.2 ⟨hq.1, hq.2⟩
        · refine List.pairwise_cons.2 ⟨fun x hx => ?_, ih ⟨hq.2, fun p hp => ?_⟩ hq.2⟩
          · rcases Sparse.mem_set _ _ _ _ hx with hx | ⟨rfl, -⟩
            · exact hq.1 x hx
            · simp only; omega
          · exact ‹Sparse.wf d _›.2 p (List.mem_cons_of_mem _ hp)
  · rcases Sparse.mem_set _ _ _ _ hp with hp | ⟨rfl, hv⟩
    · exact h.2 p hp
    · exact hv

/-- Leaving entries out keeps the canonical form. -/
theorem Sparse.filter_wf [DecidableEq α] {d : Nat → α} {l : Sparse α} (q : Nat × α → Bool) (h : Sparse.wf d l) :
    Sparse.wf d (l.filter q) :=
  ⟨h.1.filter _, fun p hp => h.2 p (List.mem_filter.1 hp).1⟩

/-- A write of bytes keeps the canonical form. -/
theorem memWrite_wf {d : Nat → Byte} {m : List Host.Cell} (a : Nat) (bs : List Byte) (h : Sparse.wf d m) :
    Sparse.wf d (memWrite d m a bs) := by
  induction bs generalizing m a with
  | nil => exact h
  | cons b bs ih => exact ih _ (Sparse.set_wf a b h)

/-- A byte outside the bytes written reads as before. -/
theorem memWrite_get_of_out (d : Nat → Byte) (m : List Host.Cell) (a : Nat) (bs : List Byte) (x : Nat)
    (h : x < a ∨ a + bs.length ≤ x) : Sparse.get (d x) (memWrite d m a bs) x = Sparse.get (d x) m x := by
  induction bs generalizing m a with
  | nil => rfl
  | cons b bs ih =>
    simp only [List.length_cons] at h
    rw [memWrite, ih _ _ (by omega), Sparse.get_set_of_ne d m b (by omega)]

/-- A register word reads as written, its reserved bits 0. -/
theorem rd_wr_self (s : State) (o : Nat) (v : Word) (h : s.regsWf) : rd (wr o v s) o = v &&& regStored o :=
  Sparse.get_set_self regReset _ _ _ h.1.1

/-- A register word other than the one written reads as before. -/
theorem rd_wr_of_ne (s : State) {o o' : Nat} (v : Word) (h : o' ≠ o) : rd (wr o v s) o' = rd s o' := by
  unfold rd wr
  exact Sparse.get_set_of_ne regReset _ _ h

end Sys2Proof.Machine
end

