-- ==== Sys2Proof/Laws/Bits.lean ====
section
/-!
SUPPORT. Bit fields: what a field reads after a field is written.
-/
namespace Sys2Proof.Machine

theorem putBits_split (w : Word) {hi lo : Nat} (v : Nat) (h : lo ≤ hi) (k : hi < 32) :
    (putBits w hi lo v).toNat =
      2 ^ (hi + 1) * (w.toNat / 2 ^ (hi + 1)) + (2 ^ lo * (v % 2 ^ (hi + 1 - lo)) + w.toNat % 2 ^ lo) := by
  have e1 : 2 ^ (hi + 1) = 2 ^ lo * 2 ^ (hi + 1 - lo) := by rw [← Nat.pow_add]; congr 1; omega
  have e2 : (2 : Nat) ^ 32 = 2 ^ (hi + 1) * 2 ^ (31 - hi) := by rw [← Nat.pow_add]; congr 1; omega
  have hw := w.isLt
  unfold putBits bits
  simp only [Nat.shiftRight_eq_div_pow, BitVec.toNat_ofNat]
  generalize w.toNat = n at *
  generalize hi + 1 - lo = m at *
  have p1 : 0 < 2 ^ lo := Nat.two_pow_pos lo
  have p2 : 0 < 2 ^ m := Nat.two_pow_pos m
  have d1 := Nat.div_add_mod n (2 ^ lo)
  have d2 := Nat.div_add_mod (n / 2 ^ lo) (2 ^ m)
  have d3 : n / 2 ^ (hi + 1) = n / 2 ^ lo / 2 ^ m := by rw [e1, Nat.div_div_eq_div_mul]
  have hv := Nat.mod_lt v p2
  have hc := Nat.mod_lt n p1
  have hb := Nat.mod_lt (n / 2 ^ lo) p2
  rw [d3, e1]
  have hA : n / 2 ^ lo / 2 ^ m < 2 ^ (31 - hi) := by
    rw [Nat.div_div_eq_div_mul, ← e1]
    exact Nat.div_lt_of_lt_mul (e2 ▸ hw)
  generalize n / 2 ^ lo / 2 ^ m = A at *
  generalize n / 2 ^ lo % 2 ^ m = b at *
  generalize n % 2 ^ lo = c at *
  generalize v % 2 ^ m = v' at *
  have hn : n = 2 ^ lo * 2 ^ m * A + 2 ^ lo * b + c := by
    rw [← d1, ← d2]; ring
  have hs : n - b * 2 ^ lo + v' * 2 ^ lo = 2 ^ lo * 2 ^ m * A + (2 ^ lo * v' + c) := by
    have e : b * 2 ^ lo = 2 ^ lo * b := Nat.mul_comm ..
    have e' : v' * 2 ^ lo = 2 ^ lo * v' := Nat.mul_comm ..
    rw [e, e', hn]; omega
  rw [hs]
  apply Nat.mod_eq_of_lt
  rw [e2, e1]
  have h1 : 2 ^ lo * v' + c < 2 ^ lo * 2 ^ m := by
    calc 2 ^ lo * v' + c < 2 ^ lo * v' + 2 ^ lo := by omega
      _ = 2 ^ lo * (v' + 1) := by ring
      _ ≤ _ := Nat.mul_le_mul_left _ hv
  calc _ < 2 ^ lo * 2 ^ m * A + 2 ^ lo * 2 ^ m := by omega
    _ = 2 ^ lo * 2 ^ m * (A + 1) := by ring
    _ ≤ _ := Nat.mul_le_mul_left _ hA

theorem putBits_testBit (w : Word) {hi lo : Nat} (v i : Nat) (h : lo ≤ hi) (k : hi < 32) :
    (putBits w hi lo v).toNat.testBit i = if lo ≤ i ∧ i ≤ hi then v.testBit (i - lo) else w.toNat.testBit i := by
  have e1 : 2 ^ (hi + 1) = 2 ^ lo * 2 ^ (hi + 1 - lo) := by rw [← Nat.pow_add]; congr 1; omega
  have hv := Nat.mod_lt v (Nat.two_pow_pos (hi + 1 - lo))
  have hc := Nat.mod_lt w.toNat (Nat.two_pow_pos lo)
  have h1 : 2 ^ lo * (v % 2 ^ (hi + 1 - lo)) + w.toNat % 2 ^ lo < 2 ^ (hi + 1) := by
    rw [e1]
    calc _ < 2 ^ lo * (v % 2 ^ (hi + 1 - lo)) + 2 ^ lo := by omega
      _ = 2 ^ lo * (v % 2 ^ (hi + 1 - lo) + 1) := by ring
      _ ≤ _ := Nat.mul_le_mul_left _ hv
  rw [putBits_split w v h k, Nat.testBit_two_pow_mul_add _ h1, Nat.testBit_two_pow_mul_add _ hc]
  by_cases a : i < hi + 1
  · by_cases b : i < lo
    · simp [a, b, Nat.testBit_mod_two_pow, show ¬lo ≤ i by omega]
    · simp [a, b, Nat.testBit_mod_two_pow, show lo ≤ i by omega, show i ≤ hi by omega, show i - lo < hi + 1 - lo by omega]
  · simp only [a, if_false, show ¬(lo ≤ i ∧ i ≤ hi) by omega]
    rw [Nat.testBit_div_two_pow]; congr 1; omega

/-- The field that is written reads what was written, within its width. -/
theorem bits_putBits (w : Word) {hi lo : Nat} (v : Nat) (h : lo ≤ hi) (k : hi < 32) :
    bits (putBits w hi lo v) hi lo = v % 2 ^ (hi + 1 - lo) := by
  apply Nat.eq_of_testBit_eq
  intro i
  unfold bits
  simp only [Nat.testBit_mod_two_pow, Nat.testBit_shiftRight, putBits_testBit w v _ h k]
  by_cases a : i < hi + 1 - lo
  · simp [a, show lo + i ≤ hi by omega]
  · simp [a]

/-- A field that shares no bit with the written one reads as before. -/
theorem bits_putBits_of_disjoint (w : Word) {hi lo hi' lo' : Nat} (v : Nat) (h : lo ≤ hi) (k : hi < 32)
    (d : hi' < lo ∨ hi < lo') : bits (putBits w hi lo v) hi' lo' = bits w hi' lo' := by
  apply Nat.eq_of_testBit_eq
  intro i
  unfold bits
  simp only [Nat.testBit_mod_two_pow, Nat.testBit_shiftRight, putBits_testBit w v _ h k]
  by_cases a : i < hi' + 1 - lo'
  · simp only [a, decide_true, Bool.true_and, show ¬(lo ≤ lo' + i ∧ lo' + i ≤ hi) by omega, if_false]
  · simp [a]

/-- Masking a register word leaves a field whose bits the mask holds. -/
theorem bits_and (w m : Word) (hi lo : Nat) (h : bits m hi lo = 2 ^ (hi + 1 - lo) - 1) : bits (w &&& m) hi lo = bits w hi lo := by
  apply Nat.eq_of_testBit_eq
  intro i
  have := congrArg (fun x => Nat.testBit x i) h
  unfold bits at *
  simp only [Nat.testBit_mod_two_pow, Nat.testBit_shiftRight, BitVec.toNat_and, Nat.testBit_and, Nat.testBit_two_pow_sub_one] at *
  by_cases a : i < hi + 1 - lo
  · simp_all
  · simp [a]

/-- A register field that is written reads what was written. -/
theorem fld_setF (s : State) (o : Nat) {hi lo : Nat} (v : Nat) (hs : s.regsWf) (h : lo ≤ hi) (k : hi < 32)
    (m : bits (regStored o) hi lo = 2 ^ (hi + 1 - lo) - 1) : fld (setF o hi lo v s) o hi lo = v % 2 ^ (hi + 1 - lo) := by
  unfold fld setF
  rw [rd_wr_self _ _ _ hs, bits_and _ _ _ _ m, bits_putBits _ _ h k]

/-- Another field of the same register reads as before. -/
theorem fld_setF_of_disjoint (s : State) (o : Nat) {hi lo hi' lo' : Nat} (v : Nat) (hs : s.regsWf) (h : lo ≤ hi) (k : hi < 32)
    (d : hi' < lo ∨ hi < lo') (m : bits (regStored o) hi' lo' = 2 ^ (hi' + 1 - lo') - 1) :
    fld (setF o hi lo v s) o hi' lo' = fld s o hi' lo' := by
  unfold fld setF
  rw [rd_wr_self _ _ _ hs, bits_and _ _ _ _ m, bits_putBits_of_disjoint _ _ h k d]

/-- A register that is not written reads as before. -/
theorem fld_setF_of_ne (s : State) {o o' : Nat} (hi lo v hi' lo' : Nat) (h : o' ≠ o) : fld (setF o hi lo v s) o' hi' lo' = fld s o' hi' lo' := by
  unfold fld setF
  rw [rd_wr_of_ne _ _ h]

end Sys2Proof.Machine
end

