-- ==== Sys2Proof/Laws/Frame.lean ====
section
/-!
SUPPORT. The relation that every unit's operation keeps (`Fr`), its laws, and the shared operations.
-/
namespace Sys2Proof.Machine

/-- A global state that an event's severity alone can lead to (R35, R38). -/
abbrev Falls (g h : GState) : Prop :=
  h = g ∨ (g = .print ∧ h = .stopping) ∨ (h = .safeHold ∧ g ∈ [GState.selftest, .linkTrain, .idle, .armed, .print, .stopping])

theorem Falls.trans {a b c : GState} (h : Falls a b) (k : Falls b c) : Falls a c := by
  rcases h with rfl | ⟨rfl, rfl⟩ | ⟨rfl, h⟩
  · exact k
  · rcases k with rfl | ⟨e, -⟩ | ⟨rfl, -⟩
    · exact .inr (.inl ⟨rfl, rfl⟩)
    · cases e
    · exact .inr (.inr ⟨rfl, by decide⟩)
  · rcases k with rfl | ⟨e, -⟩ | ⟨rfl, -⟩
    · exact .inr (.inr ⟨rfl, h⟩)
    · cases e
    · exact .inr (.inr ⟨rfl, h⟩)

/-- The global states that the automatic transitions lead to, one after another: bring-up, the fall of R35, the thermal paths (R35,
R256, R257). -/
def GState.onward : GState → List GState
  | .off => [.off]
  | .reset => [.reset]
  | .imageLoad => [.imageLoad, .selftest, .linkTrain, .idle, .stopping, .safeHold, .shutdown]
  | .selftest => [.selftest, .linkTrain, .idle, .stopping, .safeHold, .shutdown]
  | .linkTrain => [.linkTrain, .idle, .stopping, .safeHold, .shutdown]
  | .idle => [.idle, .stopping, .safeHold, .shutdown]
  | .armed => [.armed, .stopping, .safeHold, .shutdown]
  | .print => [.print, .stopping, .safeHold, .shutdown]
  | .stopping => [.stopping, .safeHold, .shutdown]
  | .safeHold => [.safeHold, .stopping, .shutdown]
  | .shutdown => [.shutdown]

/-- A global state that the automatic transitions can lead to. -/
abbrev Moves (g h : GState) : Prop := h ∈ g.onward

theorem Moves.trans {a b c : GState} (h : Moves a b) (k : Moves b c) : Moves a c := by
  unfold Moves at *
  have sub : b.onward ⊆ a.onward := by
    cases a <;> simp only [GState.onward, List.mem_cons, List.not_mem_nil, or_false] at h <;>
      rcases h with rfl | rfl | rfl | rfl | rfl | rfl | rfl <;> decide
  exact sub k

theorem Falls.moves {g h : GState} (k : Falls g h) : Moves g h := by
  rcases k with rfl | ⟨rfl, rfl⟩ | ⟨rfl, k⟩
  · cases h <;> decide
  · decide
  · simp only [List.mem_cons, List.not_mem_nil, or_false] at k
    rcases k with rfl | rfl | rfl | rfl | rfl | rfl <;> decide

/-- The invariant without the clause on events to deliver. -/
abbrev State.Wf (s : State) : Prop := s.memWf ∧ s.regsWf ∧ s.queuesWf

/-- What no operation undoes: the waiting commands, the invariant, the output record, the count of free values, the OTP array, whose
security version only rises. -/
structure Kp (s t : State) : Prop where
  pending : t.pending = s.pending
  wf : s.Wf → t.Wf
  out : s.out <:+ t.out
  free : s.freeCtr ≤ t.freeCtr
  otp : s.ldr.otpSvn ≤ t.ldr.otpSvn
  otpKey : t.ldr.otpKey = s.ldr.otpKey
  keyLock : t.ldr.keyLock = s.ldr.keyLock

/-- What an operation of a unit leaves alone besides: the image and the journal's records; the global state moves by `R`. -/
structure Fx (R : GState → GState → Prop) (s t : State) : Prop extends Kp s t where
  image : t.ldr.image = s.ldr.image
  recs : t.jrn.records = s.jrn.records
  falls : R s.glb.state t.glb.state

/-- An operation that leaves the global state alone. -/
abbrev Fq := Fx (fun g h => h = g)

/-- An operation after which the global state stands or has fallen by an event's severity. -/
abbrev Fr := Fx Falls

/-- An operation that may take the automatic transitions of bring-up and of the thermal paths. -/
abbrev Mv := Fx Moves

/-- An operation that changes neither the image nor the journal's records. -/
abbrev Fa := Fx (fun _ _ => True)

theorem Fq.fr {s t : State} (h : Fq s t) : Fr s t := { h with falls := .inl h.falls }
theorem Fr.mv {s t : State} (h : Fr s t) : Mv s t := { h with falls := h.falls.moves }
theorem Fq.mv {s t : State} (h : Fq s t) : Mv s t := h.fr.mv
theorem Mv.fa {s t : State} (h : Mv s t) : Fa s t := { h with falls := trivial }
theorem Fr.fa {s t : State} (h : Fr s t) : Fa s t := h.mv.fa
theorem Fq.fa {s t : State} (h : Fq s t) : Fa s t := h.mv.fa
theorem Fa.kp {s t : State} (h : Fa s t) : Kp s t := h.toKp
theorem Fq.kp {s t : State} (h : Fq s t) : Kp s t := h.toKp
theorem Fr.kp {s t : State} (h : Fr s t) : Kp s t := h.toKp
theorem Mv.kp {s t : State} (h : Mv s t) : Kp s t := h.toKp

theorem Kp.refl (s : State) : Kp s s := ⟨rfl, id, List.suffix_refl _, Nat.le_refl _, Nat.le_refl _, rfl, rfl⟩
theorem Fq.refl (s : State) : Fq s s := ⟨.refl s, rfl, rfl, rfl⟩
theorem Fr.refl (s : State) : Fr s s := (Fq.refl s).fr
theorem Mv.refl (s : State) : Mv s s := (Fr.refl s).mv
theorem Fa.refl (s : State) : Fa s s := (Mv.refl s).fa

theorem Kp.trans {s t u : State} (h : Kp s t) (k : Kp t u) : Kp s u :=
  ⟨k.pending.trans h.pending, k.wf ∘ h.wf, h.out.trans k.out, Nat.le_trans h.free k.free, Nat.le_trans h.otp k.otp,
    k.otpKey.trans h.otpKey, k.keyLock.trans h.keyLock⟩
theorem Fx.trans {R : GState → GState → Prop} {s t u : State} (tr : ∀ {a b c}, R a b → R b c → R a c) (h : Fx R s t) (k : Fx R t u) :
    Fx R s u :=
  ⟨h.toKp.trans k.toKp, k.image.trans h.image, k.recs.trans h.recs, tr h.falls k.falls⟩
theorem Fq.trans {s t u : State} (h : Fq s t) (k : Fq t u) : Fq s u := Fx.trans (fun h k => k.trans h) h k
theorem Fr.trans {s t u : State} (h : Fr s t) (k : Fr t u) : Fr s u := Fx.trans Falls.trans h k
theorem Mv.trans {s t u : State} (h : Mv s t) (k : Mv t u) : Mv s u := Fx.trans Moves.trans h k
theorem Fa.trans {s t u : State} (h : Fa s t) (k : Fa t u) : Fa s u := Fx.trans (fun _ _ => trivial) h k

/-- A record update of a unit's own state. -/
theorem Kp.of {t : State} (s : State) (h1 : t.pending = s.pending) (h3 : t.regs = s.regs) (h4 : t.sram = s.sram)
    (h5 : t.page = s.page) (h6 : t.mem.fill = s.mem.fill) (h7 : t.hst.queue = s.hst.queue) (h8 : t.hst.recent = s.hst.recent)
    (h9 : t.jrn.queue = s.jrn.queue) (h10 : t.out = s.out) (h11 : t.freeCtr = s.freeCtr) (h12 : t.ldr.otpSvn = s.ldr.otpSvn)
    (h13 : t.ldr.otpKey = s.ldr.otpKey) (h14 : t.ldr.keyLock = s.ldr.keyLock) : Kp s t := by
  refine ⟨h1, fun ⟨h, k, l⟩ => ⟨?_, ?_, ?_⟩, h10 ▸ List.suffix_refl _, Nat.le_of_eq h11.symm, Nat.le_of_eq h12.symm, h13, h14⟩
  · have : sramFill t = sramFill s := by funext a; simp only [sramFill, h6]
    exact ⟨by rw [h4, this]; exact h.1, by rw [h5]; exact h.2⟩
  · exact ⟨by rw [h3]; exact k.1, by rw [h3]; exact k.2⟩
  · exact ⟨by rw [h7]; exact l.1, by rw [h8]; exact l.2.1, by rw [h9]; exact l.2.2⟩

theorem Fq.of {t : State} (s : State) (h1 : t.pending = s.pending) (h3 : t.regs = s.regs) (h4 : t.sram = s.sram)
    (h5 : t.page = s.page) (h6 : t.mem.fill = s.mem.fill) (h7 : t.hst.queue = s.hst.queue) (h8 : t.hst.recent = s.hst.recent)
    (h9 : t.jrn.queue = s.jrn.queue) (h10 : t.out = s.out) (h11 : t.freeCtr = s.freeCtr) (h12 : t.ldr.otpSvn = s.ldr.otpSvn)
    (h13 : t.ldr.otpKey = s.ldr.otpKey) (h14 : t.ldr.keyLock = s.ldr.keyLock) (h15 : t.ldr.image = s.ldr.image)
    (h16 : t.jrn.records = s.jrn.records) (h17 : t.glb.state = s.glb.state) : Fq s t :=
  ⟨.of s h1 h3 h4 h5 h6 h7 h8 h9 h10 h11 h12 h13 h14, h15, h16, h17⟩

/-- The same, of a record update as Lean writes it. -/
theorem Kp.upd (m : State) {now glb ldr bru hst jrn dot gen gate hlp thm thmg nhl hra scn pc enc ee stp mot ss cas dma cq dt sig so mem}
    (h6 : mem.fill = m.mem.fill) (h7 : hst.queue = m.hst.queue) (h8 : hst.recent = m.hst.recent) (h9 : jrn.queue = m.jrn.queue)
    (h12 : ldr.otpSvn = m.ldr.otpSvn) (h13 : ldr.otpKey = m.ldr.otpKey) (h14 : ldr.keyLock = m.ldr.keyLock) :
    Kp m (State.mk m.pending now m.regs m.sram m.page glb ldr bru hst jrn dot gen gate hlp thm thmg nhl hra scn pc enc ee stp mot ss cas dma cq dt sig so
      mem m.out m.freeCtr) :=
  Kp.of m rfl rfl rfl rfl h6 h7 h8 h9 rfl rfl h12 h13 h14

theorem Fq.upd (m : State) {now glb ldr bru hst jrn dot gen gate hlp thm thmg nhl hra scn pc enc ee stp mot ss cas dma cq dt sig so mem}
    (h6 : mem.fill = m.mem.fill) (h7 : hst.queue = m.hst.queue) (h8 : hst.recent = m.hst.recent) (h9 : jrn.queue = m.jrn.queue)
    (h12 : ldr.otpSvn = m.ldr.otpSvn) (h13 : ldr.otpKey = m.ldr.otpKey) (h14 : ldr.keyLock = m.ldr.keyLock)
    (h15 : ldr.image = m.ldr.image) (h16 : jrn.records = m.jrn.records) (h17 : glb.state = m.glb.state) :
    Fq m (State.mk m.pending now m.regs m.sram m.page glb ldr bru hst jrn dot gen gate hlp thm thmg nhl hra scn pc enc ee stp mot ss cas dma cq dt sig so
      mem m.out m.freeCtr) :=
  Fq.of m rfl rfl rfl rfl h6 h7 h8 h9 rfl rfl h12 h13 h14 h15 h16 h17

theorem Fr.upd (m : State) {now glb ldr bru hst jrn dot gen gate hlp thm thmg nhl hra scn pc enc ee stp mot ss cas dma cq dt sig so mem}
    (h6 : mem.fill = m.mem.fill) (h7 : hst.queue = m.hst.queue) (h8 : hst.recent = m.hst.recent) (h9 : jrn.queue = m.jrn.queue)
    (h12 : ldr.otpSvn = m.ldr.otpSvn) (h13 : ldr.otpKey = m.ldr.otpKey) (h14 : ldr.keyLock = m.ldr.keyLock)
    (h15 : ldr.image = m.ldr.image) (h16 : jrn.records = m.jrn.records) (h17 : glb.state = m.glb.state) :
    Fr m (State.mk m.pending now m.regs m.sram m.page glb ldr bru hst jrn dot gen gate hlp thm thmg nhl hra scn pc enc ee stp mot ss cas dma cq dt sig so
      mem m.out m.freeCtr) :=
  (Fq.upd m h6 h7 h8 h9 h12 h13 h14 h15 h16 h17).fr

theorem Mv.upd (m : State) {now glb ldr bru hst jrn dot gen gate hlp thm thmg nhl hra scn pc enc ee stp mot ss cas dma cq dt sig so mem}
    (h6 : mem.fill = m.mem.fill) (h7 : hst.queue = m.hst.queue) (h8 : hst.recent = m.hst.recent) (h9 : jrn.queue = m.jrn.queue)
    (h12 : ldr.otpSvn = m.ldr.otpSvn) (h13 : ldr.otpKey = m.ldr.otpKey) (h14 : ldr.keyLock = m.ldr.keyLock)
    (h15 : ldr.image = m.ldr.image) (h16 : jrn.records = m.jrn.records) (h17 : glb.state = m.glb.state) :
    Mv m (State.mk m.pending now m.regs m.sram m.page glb ldr bru hst jrn dot gen gate hlp thm thmg nhl hra scn pc enc ee stp mot ss cas dma cq dt sig so
      mem m.out m.freeCtr) :=
  (Fq.upd m h6 h7 h8 h9 h12 h13 h14 h15 h16 h17).mv

theorem Fa.upd (m : State) {now glb ldr bru hst jrn dot gen gate hlp thm thmg nhl hra scn pc enc ee stp mot ss cas dma cq dt sig so mem}
    (h6 : mem.fill = m.mem.fill) (h7 : hst.queue = m.hst.queue) (h8 : hst.recent = m.hst.recent) (h9 : jrn.queue = m.jrn.queue)
    (h12 : ldr.otpSvn = m.ldr.otpSvn) (h13 : ldr.otpKey = m.ldr.otpKey) (h14 : ldr.keyLock = m.ldr.keyLock)
    (h15 : ldr.image = m.ldr.image) (h16 : jrn.records = m.jrn.records) :
    Fa m (State.mk m.pending now m.regs m.sram m.page glb ldr bru hst jrn dot gen gate hlp thm thmg nhl hra scn pc enc ee stp mot ss cas dma cq dt sig so
      mem m.out m.freeCtr) :=
  ⟨Kp.of m rfl rfl rfl rfl h6 h7 h8 h9 rfl rfl h12 h13 h14, h15, h16, trivial⟩

/-- A change of the queues within their bounds. -/
theorem Fq.queues {t : State} (s : State) (h1 : t.pending = s.pending) (h3 : t.regs = s.regs) (h4 : t.sram = s.sram)
    (h5 : t.page = s.page) (h6 : t.mem.fill = s.mem.fill) (h10 : t.out = s.out) (h11 : t.freeCtr = s.freeCtr)
    (h12 : t.ldr = s.ldr) (h16 : t.jrn.records = s.jrn.records) (h17 : t.glb = s.glb) (hq : s.queuesWf → t.queuesWf) : Fq s t := by
  refine ⟨⟨h1, fun ⟨h, k, l⟩ => ⟨?_, ?_, hq l⟩, h10 ▸ List.suffix_refl _, Nat.le_of_eq h11.symm, Nat.le_of_eq (h12 ▸ rfl), h12 ▸ rfl,
    h12 ▸ rfl⟩, h12 ▸ rfl, h16, h17 ▸ rfl⟩
  · have : sramFill t = sramFill s := by funext a; simp only [sramFill, h6]
    exact ⟨by rw [h4, this]; exact h.1, by rw [h5]; exact h.2⟩
  · exact ⟨by rw [h3]; exact k.1, by rw [h3]; exact k.2⟩

theorem Kp.after {s t u : State} (k : Kp t u) (h : Kp s t) : Kp s u := h.trans k
theorem Kp.of_fst {α : Type} {s t : State} {a : α} {x : State × α} (e : x = (t, a)) (h : Kp s x.1) : Kp s t := by subst e; exact h
theorem Kp.of_snd {α : Type} {s t : State} {a : α} {x : α × State} (e : x = (a, t)) (h : Kp s x.2) : Kp s t := by subst e; exact h
theorem Kp.of_thd {α β : Type} {s t : State} {a : α} {b : β} {x : α × β × State} (e : x = (a, b, t)) (h : Kp s x.2.2) : Kp s t := by
  subst e; exact h
theorem Kp.ite {s a b : State} {c : Prop} [Decidable c] (h : Kp s a) (k : Kp s b) : Kp s (if c then a else b) := by
  split <;> assumption
theorem kp_foldl {β : Type} (l : List β) (f : State → β → State) (h : ∀ i s, Kp s (f s i)) (s : State) : Kp s (l.foldl f s) := by
  induction l generalizing s with
  | nil => exact .refl s
  | cons a l ih => exact (h a s).trans (ih _)
theorem kp_forEach (l : List Nat) (f : Nat → State → State) (h : ∀ i s, Kp s (f i s)) (s : State) : Kp s (forEach l f s) :=
  kp_foldl l _ h s

theorem Fq.after {s t u : State} (k : Fq t u) (h : Fq s t) : Fq s u := h.trans k
theorem Fq.of_fst {α : Type} {s t : State} {a : α} {x : State × α} (e : x = (t, a)) (h : Fq s x.1) : Fq s t := by subst e; exact h
theorem Fq.of_snd {α : Type} {s t : State} {a : α} {x : α × State} (e : x = (a, t)) (h : Fq s x.2) : Fq s t := by subst e; exact h
theorem Fq.of_thd {α β : Type} {s t : State} {a : α} {b : β} {x : α × β × State} (e : x = (a, b, t)) (h : Fq s x.2.2) : Fq s t := by
  subst e; exact h
theorem Fq.ite {s a b : State} {c : Prop} [Decidable c] (h : Fq s a) (k : Fq s b) : Fq s (if c then a else b) := by
  split <;> assumption
theorem fq_foldl {β : Type} (l : List β) (f : State → β → State) (h : ∀ i s, Fq s (f s i)) (s : State) : Fq s (l.foldl f s) := by
  induction l generalizing s with
  | nil => exact .refl s
  | cons a l ih => exact (h a s).trans (ih _)
theorem fq_forEach (l : List Nat) (f : Nat → State → State) (h : ∀ i s, Fq s (f i s)) (s : State) : Fq s (forEach l f s) :=
  fq_foldl l _ h s

theorem Fr.after {s t u : State} (k : Fr t u) (h : Fr s t) : Fr s u := h.trans k
theorem Fr.of_fst {α : Type} {s t : State} {a : α} {x : State × α} (e : x = (t, a)) (h : Fr s x.1) : Fr s t := by subst e; exact h
theorem Fr.of_snd {α : Type} {s t : State} {a : α} {x : α × State} (e : x = (a, t)) (h : Fr s x.2) : Fr s t := by subst e; exact h
theorem Fr.of_thd {α β : Type} {s t : State} {a : α} {b : β} {x : α × β × State} (e : x = (a, b, t)) (h : Fr s x.2.2) : Fr s t := by
  subst e; exact h
theorem Fr.ite {s a b : State} {c : Prop} [Decidable c] (h : Fr s a) (k : Fr s b) : Fr s (if c then a else b) := by
  split <;> assumption
theorem fr_foldl {β : Type} (l : List β) (f : State → β → State) (h : ∀ i s, Fr s (f s i)) (s : State) : Fr s (l.foldl f s) := by
  induction l generalizing s with
  | nil => exact .refl s
  | cons a l ih => exact (h a s).trans (ih _)
theorem fr_forEach (l : List Nat) (f : Nat → State → State) (h : ∀ i s, Fr s (f i s)) (s : State) : Fr s (forEach l f s) :=
  fr_foldl l _ h s

theorem Mv.after {s t u : State} (k : Mv t u) (h : Mv s t) : Mv s u := h.trans k
theorem Mv.of_fst {α : Type} {s t : State} {a : α} {x : State × α} (e : x = (t, a)) (h : Mv s x.1) : Mv s t := by subst e; exact h
theorem Mv.of_snd {α : Type} {s t : State} {a : α} {x : α × State} (e : x = (a, t)) (h : Mv s x.2) : Mv s t := by subst e; exact h
theorem Mv.of_thd {α β : Type} {s t : State} {a : α} {b : β} {x : α × β × State} (e : x = (a, b, t)) (h : Mv s x.2.2) : Mv s t := by
  subst e; exact h
theorem Mv.ite {s a b : State} {c : Prop} [Decidable c] (h : Mv s a) (k : Mv s b) : Mv s (if c then a else b) := by
  split <;> assumption
theorem mv_foldl {β : Type} (l : List β) (f : State → β → State) (h : ∀ i s, Mv s (f s i)) (s : State) : Mv s (l.foldl f s) := by
  induction l generalizing s with
  | nil => exact .refl s
  | cons a l ih => exact (h a s).trans (ih _)
theorem mv_forEach (l : List Nat) (f : Nat → State → State) (h : ∀ i s, Mv s (f i s)) (s : State) : Mv s (forEach l f s) :=
  mv_foldl l _ h s

theorem Fa.after {s t u : State} (k : Fa t u) (h : Fa s t) : Fa s u := h.trans k
theorem Fa.of_fst {α : Type} {s t : State} {a : α} {x : State × α} (e : x = (t, a)) (h : Fa s x.1) : Fa s t := by subst e; exact h
theorem Fa.of_snd {α : Type} {s t : State} {a : α} {x : α × State} (e : x = (a, t)) (h : Fa s x.2) : Fa s t := by subst e; exact h
theorem Fa.of_thd {α β : Type} {s t : State} {a : α} {b : β} {x : α × β × State} (e : x = (a, b, t)) (h : Fa s x.2.2) : Fa s t := by
  subst e; exact h
theorem Fa.ite {s a b : State} {c : Prop} [Decidable c] (h : Fa s a) (k : Fa s b) : Fa s (if c then a else b) := by
  split <;> assumption
theorem fa_foldl {β : Type} (l : List β) (f : State → β → State) (h : ∀ i s, Fa s (f s i)) (s : State) : Fa s (l.foldl f s) := by
  induction l generalizing s with
  | nil => exact .refl s
  | cons a l ih => exact (h a s).trans (ih _)
theorem fa_forEach (l : List Nat) (f : Nat → State → State) (h : ∀ i s, Fa s (f i s)) (s : State) : Fa s (forEach l f s) :=
  fa_foldl l _ h s

/-! ## Shared operations -/

theorem fq_wr (o : Nat) (v : Word) (s : State) : Fq s (wr o v s) := by
  refine ⟨⟨rfl, fun ⟨h, k, l⟩ => ⟨h, ⟨Sparse.set_wf o _ k.1, fun p hp => ?_⟩, l⟩, List.suffix_refl _, Nat.le_refl _, Nat.le_refl _, rfl, rfl⟩, rfl, rfl, rfl⟩
  rcases Sparse.mem_set _ _ _ _ hp with hp | ⟨rfl, -⟩
  · exact k.2 p hp
  · simp only
    rw [BitVec.and_assoc, BitVec.and_not_self]; exact BitVec.and_zero

theorem fq_dropRegs (p : Nat → Bool) (s : State) : Fq s (dropRegs p s) :=
  ⟨⟨rfl, fun ⟨h, k, l⟩ => ⟨h, ⟨Sparse.filter_wf _ k.1, fun q hq => k.2 q (List.mem_filter.1 hq).1⟩, l⟩, List.suffix_refl _, Nat.le_refl _, Nat.le_refl _, rfl, rfl⟩,
    rfl, rfl, rfl⟩

theorem fq_sramWrite (a : Nat) (bs : List Byte) (s : State) : Fq s (sramWrite a bs s) := by
  refine ⟨⟨rfl, fun ⟨h, k, l⟩ => ⟨⟨?_, h.2⟩, k, l⟩, List.suffix_refl _, Nat.le_refl _, Nat.le_refl _, rfl, rfl⟩, rfl, rfl, rfl⟩
  have hw := memWrite_wf (d := sramFill s) a bs h.1
  change Sparse.wf (sramFill s) (sramWrite a bs s).sram
  unfold sramWrite
  simp only
  split
  · exact Sparse.filter_wf _ hw
  · exact hw

theorem fq_pageWrite (a : Nat) (bs : List Byte) (s : State) : Fq s (pageWrite a bs s) :=
  ⟨⟨rfl, fun ⟨h, k, l⟩ => ⟨⟨h.1, memWrite_wf a bs h.2⟩, k, l⟩, List.suffix_refl _, Nat.le_refl _, Nat.le_refl _, rfl, rfl⟩, rfl, rfl, rfl⟩

theorem fq_bankFill (b : Nat) (v : Byte) (s : State) : Fq s (bankFill b v s) := by
  refine ⟨⟨rfl, fun ⟨h, k, l⟩ => ⟨⟨?_, h.2⟩, k, l⟩, List.suffix_refl _, Nat.le_refl _, Nat.le_refl _, rfl, rfl⟩, rfl, rfl, rfl⟩
  refine ⟨h.1.1.filter _, fun p hp => ?_⟩
  obtain ⟨hp, hr⟩ := List.mem_filter.1 hp
  have hd := h.1.2 p hp
  have : sramFill (bankFill b v s) p.1 = sramFill s p.1 := by
    simp only [sramFill, bankFill]
    split
    · rename_i hlt
      have : (b % 8) ≠ bankOf p.1 % 8 := by
        simp only [sramSize, bankOf, bankSize, Bool.not_eq_true', Bool.and_eq_false_iff] at hlt hr ⊢
        rcases hr with hr | hr <;> have := of_decide_eq_false hr <;> omega
      simp [vat, vset, Vector.getElem_set_ne, this]
    · rfl
  rw [this]; exact hd

theorem fq_emit (x : Output) (s : State) : Fq s (emit x s) :=
  ⟨⟨rfl, id, List.suffix_cons .., Nat.le_refl _, Nat.le_refl _, rfl, rfl⟩, rfl, rfl, rfl⟩

theorem fq_drawFree (s : State) : Fq s (drawFree s).2 :=
  ⟨⟨rfl, id, List.suffix_refl _, Nat.le_succ _, Nat.le_refl _, rfl, rfl⟩, rfl, rfl, rfl⟩

/-! ## The lengths of the queues -/

theorem length_jInsert (q : List JRec) (r : JRec) : (jInsert q r).length = q.length + 1 := by
  unfold jInsert
  split
  · have := congrArg List.length (List.takeWhile_append_dropWhile (p := fun x : JRec => decide (x.rank = 4)) (l := q))
    simp only [List.length_append, List.length_cons] at this ⊢
    omega
  · simp

theorem length_jRemoveLast (q : List JRec) (k : Nat) {d : JRec} {l : List JRec} (h : jRemoveLast q k = some (d, l)) :
    l.length + 1 = q.length := by
  induction q generalizing l d with
  | nil => simp [jRemoveLast] at h
  | cons x xs ih =>
    unfold jRemoveLast at h
    split at h
    · rename_i e
      simp only [Option.some.injEq, Prod.mk.injEq] at h
      obtain ⟨rfl, rfl⟩ := h
      simp [ih e]
    · split at h
      · simp only [Option.some.injEq, Prod.mk.injEq] at h
        obtain ⟨rfl, rfl⟩ := h
        simp
      · simp at h

theorem length_dropOldestInfo (q : List Event) {d : Event} {l : List Event} (h : dropOldestInfo q = some (d, l)) :
    l.length + 1 = q.length := by
  induction q generalizing l d with
  | nil => simp [dropOldestInfo] at h
  | cons x xs ih =>
    unfold dropOldestInfo at h
    split at h
    · simp only [Option.some.injEq, Prod.mk.injEq] at h
      obtain ⟨rfl, rfl⟩ := h
      simp
    · split at h
      · rename_i e
        simp only [Option.some.injEq, Prod.mk.injEq] at h
        obtain ⟨rfl, rfl⟩ := h
        simp [ih e]
      · simp at h

end Sys2Proof.Machine
end

