-- ==== Sys2Proof/Laws/FrameBase.lean ====
section
/-!
SUPPORT. What the operations keep, one lemma for each operation (the shared operations, the host's side, the head ports, the position channels, the ledger, the axes and the motors): `Fq` the frame of an operation that leaves the global state
to the events, `Fr` and `Kp` the weaker ones (Laws/Frame.lean).
-/
set_option linter.unreachableTactic false
set_option linter.unusedTactic false
set_option linter.unusedVariables false

namespace Sys2Proof.Machine

/-! ### Ops -/

theorem fq_adcPut (a1) (a2) (s : State) : Fq s (adcPut a1 a2 s) := by
  unfold adcPut
  repeat' (first
    | (with_reducible first
        | exact Fq.refl _ | apply Fq.ite | (apply Fq.after; apply fq_wr))
    | split)

theorem fq_setF (a1) (a2) (a3) (a4) (s : State) : Fq s (setF a1 a2 a3 a4 s) := by
  unfold setF
  repeat' (with_reducible first
    | exact Fq.refl _ | (apply Fq.after; apply fq_wr))

theorem fq_addF (a1) (a2) (a3) (a4) (s : State) : Fq s (addF a1 a2 a3 a4 s) := by
  unfold addF
  repeat' (with_reducible first
    | exact Fq.refl _ | (apply Fq.after; apply fq_setF))

theorem fq_setFlag (o b : Nat) (s : State) : Fq s (setFlag o b s) :=
  (fq_setF ..).trans (Fq.upd _ rfl rfl rfl rfl rfl rfl rfl rfl rfl rfl)

theorem fq_incF (a1) (a2) (a3) (s : State) : Fq s (incF a1 a2 a3 s) := by
  unfold incF
  repeat' (with_reducible first
    | exact Fq.refl _ | (apply Fq.after; apply fq_setF))

theorem fq_evLose (e : Event) (s : State) : Fq s (evLose e s) := by
  unfold evLose
  extract_lets s1
  have h : Fq s s1 := fq_incF ..
  split
  · exact h.trans (Fq.upd _ rfl rfl rfl rfl rfl rfl rfl rfl rfl rfl)
  · refine Fq.trans ?_ (fq_setFlag ..)
    exact h.trans (Fq.upd _ rfl rfl rfl rfl rfl rfl rfl rfl rfl rfl)

theorem fq_evQueue (e : Event) (s : State) : Fq s (evQueue e s) := by
  unfold evQueue
  split
  · exact Fq.queues s rfl rfl rfl rfl rfl rfl rfl rfl rfl rfl fun q => ⟨by simp; omega, q.2.1, q.2.2⟩
  · split
    · rename_i h
      have := length_dropOldestInfo _ h
      refine Fq.trans ?_ (fq_evLose ..)
      exact Fq.queues s rfl rfl rfl rfl rfl rfl rfl rfl rfl rfl fun q => ⟨by have := q.1; simp only [List.length_append, List.length_singleton]; omega, q.2.1, q.2.2⟩
    · exact fq_evLose ..

theorem fq_toHost (x : Output) (s : State) : Fq s (toHost x s) := by
  unfold toHost
  split
  · refine Fq.trans ?_ (fq_emit ..)
    exact Fq.upd _ rfl rfl rfl rfl rfl rfl rfl rfl rfl rfl
  · exact Fq.upd _ rfl rfl rfl rfl rfl rfl rfl rfl rfl rfl

theorem fq_sendMsix (a1) (s : State) : Fq s (sendMsix a1 s) := by
  unfold sendMsix
  repeat' (first
    | (with_reducible first
        | exact Fq.refl _ | apply Fq.ite | (apply Fq.after; apply fq_toHost) | (apply Fq.after; apply fq_setF))
    | split)

theorem fq_hostWrite (a1) (a2) (s : State) : Fq s (hostWrite a1 a2 s) := by
  unfold hostWrite
  repeat' (with_reducible first
    | exact Fq.refl _ | (apply Fq.after; apply fq_toHost))

theorem fq_postWrite (sp a : Nat) (bs : List Byte) (s : State) : Fq s (postWrite sp a bs s) := by
  unfold postWrite
  split
  · exact fq_toHost ..
  · exact .ite (fq_sramWrite ..) (.refl s)

theorem fq_evWrite (e : Event) (s : State) : Fq s (evWrite e s) := by
  unfold evWrite
  extract_lets tail base s1 s2 n
  have h : Fq s s2 := (fq_postWrite ..).trans (fq_setF ..)
  split
  · refine Fq.trans ?_ (fq_sendMsix ..)
    exact h.trans (Fq.upd _ rfl rfl rfl rfl rfl rfl rfl rfl rfl rfl)
  · exact h.trans (Fq.upd _ rfl rfl rfl rfl rfl rfl rfl rfl rfl rfl)

theorem fq_evSend (a1) (s : State) : Fq s (evSend a1 s) := by
  unfold evSend
  repeat' (first
    | (with_reducible first
        | exact Fq.refl _ | apply Fq.ite | (apply Fq.after; apply fq_evQueue) | (apply Fq.after; apply fq_evWrite))
    | split)

theorem fq_jStart (s : State) : Fq s (jStart s) := by
  unfold jStart
  split
  · rename_i h
    exact Fq.queues s rfl rfl rfl rfl rfl rfl rfl rfl rfl rfl fun q => ⟨q.1, q.2.1, by have := q.2.2; rw [h] at this; simp at this; simp; omega⟩
  · exact .refl s

theorem fq_jQueue (r : JRec) (s : State) : Fq s (jQueue r s).1 := by
  unfold jQueue
  split
  · rename_i h
    refine Fq.trans ?_ (fq_jStart _)
    exact Fq.queues s rfl rfl rfl rfl rfl rfl rfl rfl rfl rfl fun q => ⟨q.1, q.2.1, by simp only [length_jInsert]; omega⟩
  · extract_lets k s1
    have h : Fq s s1 := fq_incF ..
    split
    · exact h
    · split
      · rename_i e
        have := length_jRemoveLast _ _ e
        exact h.trans (Fq.queues s1 rfl rfl rfl rfl rfl rfl rfl rfl rfl rfl fun q => ⟨q.1, q.2.1, by
          have := q.2.2; change s.jrn.queue.length ≤ 16 at this; simp only [length_jInsert]; omega⟩)
      · exact h

theorem fq_jAdd (r : JRec) (s : State) : Fq s (jAdd r s).1 := by
  have := fq_jQueue r s
  unfold jAdd
  split
  · simp_all
  · split <;> simp_all

theorem fq_noteRecent (e : Event) (s : State) : Fq s (noteRecent e s) := by
  unfold noteRecent
  split
  · exact .refl s
  · exact Fq.queues s rfl rfl rfl rfl rfl rfl rfl rfl rfl rfl fun q => ⟨q.1, by simp only [List.length_take]; omega, q.2.2⟩

theorem fq_evDeliver (e : Event) (s : State) : Fq s (evDeliver e s).1 := by
  unfold evDeliver
  extract_lets e1 u s1
  have h : Fq s s1 := ((fq_wr ..).trans (fq_noteRecent ..)).trans (fq_evSend ..)
  split
  · exact h.trans (fq_jAdd ..)
  · exact h

theorem fq_evDeliverAll (n : Nat) (l : List Event) (s : State) : Fq s (evDeliverAll n l s) := by
  induction n generalizing l s with
  | zero => exact Fq.refl s
  | succ n ih =>
    match l with
    | [] => exact Fq.refl s
    | e :: es =>
      have h := fq_evDeliver e s
      unfold evDeliverAll
      split
      · rename_i s1 heq; rw [heq] at h; exact h.trans (ih ..)
      · rename_i s1 d heq; rw [heq] at h; exact h.trans (ih ..)

theorem fq_jRecord (r : JRec) (s : State) : Fq s (jRecord r s) := by
  have h := fq_jAdd r s
  unfold jRecord
  split
  · rename_i e; rw [e] at h; exact h
  · rename_i e; rw [e] at h
    exact h.trans (Fq.upd _ rfl rfl rfl rfl rfl rfl rfl rfl rfl rfl)

theorem fq_lostRecord (a1) (s : State) : Fq s (lostRecord a1 s) := by
  unfold lostRecord
  repeat' (first
    | (with_reducible first
        | exact Fq.refl _ | apply Fq.ite | (apply Fq.after; apply fq_jRecord))
    | split)

theorem fq_evDrain (n : Nat) (s : State) : Fq s (evDrain n s) := by
  induction n generalizing s with
  | zero => exact Fq.refl s
  | succ n ih =>
    unfold evDrain
    split
    · split
      · refine Fq.trans ?_ (ih _)
        refine Fq.trans ?_ (fq_evWrite ..)
        refine Fq.trans ?_ (fq_lostRecord ..)
        refine Fq.trans ?_ (fq_noteRecent ..)
        refine Fq.trans ?_ (fq_wr ..)
        exact Fq.upd _ rfl rfl rfl rfl rfl rfl rfl rfl rfl rfl
      · rename_i h
        refine Fq.trans ?_ (ih _)
        refine Fq.trans ?_ (fq_evWrite ..)
        exact Fq.queues _ rfl rfl rfl rfl rfl rfl rfl rfl rfl rfl fun k => ⟨by
          have := k.1; rw [h] at this; simp only [List.length_cons] at this ⊢; omega, k.2.1, k.2.2⟩
      · exact .refl s
    · exact .refl s

theorem fq_flush (s : State) : Fq s (flush s) := by
  have h : Fq s (evDeliverAll (32 * (evSort s.hst.raised).length + 32) (evSort s.hst.raised)
      { s with hst := { s.hst with raised := [] }, cas := { s.cas with noted := 0 }, sigOver := [] }) :=
    Fq.after (fq_evDeliverAll ..) (Fq.upd _ rfl rfl rfl rfl rfl rfl rfl rfl rfl rfl)
  unfold flush
  dsimp only
  split
  · exact h
  · exact Fq.after (Fq.upd _ rfl rfl rfl rfl rfl rfl rfl rfl rfl rfl) h

theorem fq_logEvent (k : EvKind) (i a0 a1 a2 : Nat) (s : State) : Fq s (logEvent k i a0 a1 a2 s) :=
  Fq.upd s rfl rfl rfl rfl rfl rfl rfl rfl rfl rfl

/-! ### Flags -/

theorem fq_clearFlags (a1) (a2) (s : State) : Fq s (clearFlags a1 a2 s) := by
  unfold clearFlags
  try dsimp only
  repeat' (with_reducible first
    | exact Fq.refl _ | (apply Fq.after; apply fq_wr))

/-! ### Host -/

theorem fq_accessBad (a1) (a2) (a3) (s : State) : Fq s (accessBad a1 a2 a3 s) := by
  unfold accessBad
  repeat' (with_reducible first
    | exact Fq.refl _ | (apply Fq.after; apply fq_logEvent) | (apply Fq.after; apply fq_setFlag))

theorem fq_respond (a1) (a2) (a3) (s : State) : Fq s (respond a1 a2 a3 s) := by
  unfold respond
  repeat' (with_reducible first
    | exact Fq.refl _ | (apply Fq.after; apply fq_emit))

theorem fq_earlyAccess (a1) (a2) (a3) (a4) (s : State) : Fq s (earlyAccess a1 a2 a3 a4 s) := by
  unfold earlyAccess
  try dsimp only
  repeat' (first
    | (with_reducible first
        | exact Fq.refl _ | apply Fq.ite | (apply Fq.after; apply fq_logEvent) | (apply Fq.after; apply fq_respond)
        | fail_if_no_progress (apply Fq.after; (apply Fq.upd) <;> rfl))
    | split)

theorem fq_evCfgWrite (v : Word) (s : State) : Fq s (evCfgWrite v s) := by
  unfold evCfgWrite
  extract_lets k w keep s1 s2
  split
  · split
    · exact (fq_wr ..).trans (fq_accessBad ..)
    · exact fq_wr ..
  · split
    · refine Fq.trans ?_ (fq_evDrain _ _)
      refine Fq.trans (t := s2) ?_ (Fq.upd s2 rfl rfl rfl rfl rfl rfl rfl rfl rfl rfl)
      exact ((fq_wr ..).trans (fq_setF ..)).trans (fq_setF ..)
    · exact fq_wr ..

theorem fq_evHeadWrite (a1) (s : State) : Fq s (evHeadWrite a1 s) := by
  unfold evHeadWrite
  repeat' (with_reducible first
    | exact Fq.refl _ | (apply Fq.after; apply fq_evDrain) | (apply Fq.after; apply fq_setF))

theorem fq_hostAccess (s : State) : Fq s (hostAccess s) := by
  unfold hostAccess
  repeat' (with_reducible first
    | exact Fq.refl _ | fail_if_no_progress (apply Fq.after; (apply Fq.upd) <;> rfl))

theorem fq_viaBar0 (off : Nat) (f : State → State) (h : ∀ s, Fq s (f s)) (s : State) : Fq s (viaBar0 off f s) := by
  unfold viaBar0
  have k : Fq s (hostAccess s) := fq_hostAccess s
  split
  · exact k.trans (h _)
  · exact k.trans (fq_earlyAccess ..)
theorem fq_viaTable (off : Nat) (f : State → State) (h : ∀ s, Fq s (f s)) (s : State) : Fq s (viaTable off f s) := by
  unfold viaTable
  split
  · exact h s
  · exact fq_viaBar0 off f h s
theorem kp_viaBar0 (off : Nat) (f : State → State) (h : ∀ s, Kp s (f s)) (s : State) : Kp s (viaBar0 off f s) := by
  unfold viaBar0
  have k : Kp s (hostAccess s) := (fq_hostAccess s).kp
  split
  · exact k.trans (h _)
  · exact k.trans (fq_earlyAccess ..).kp
theorem fr_viaBar0 (off : Nat) (f : State → State) (h : ∀ s, Fr s (f s)) (s : State) : Fr s (viaBar0 off f s) := by
  unfold viaBar0
  have k : Fr s (hostAccess s) := (fq_hostAccess s).fr
  split
  · exact k.trans (h _)
  · exact k.trans (fq_earlyAccess ..).fr
theorem mv_viaBar0 (off : Nat) (f : State → State) (h : ∀ s, Mv s (f s)) (s : State) : Mv s (viaBar0 off f s) := by
  unfold viaBar0
  have k : Mv s (hostAccess s) := (fq_hostAccess s).mv
  split
  · exact k.trans (h _)
  · exact k.trans (fq_earlyAccess ..).mv
theorem fa_viaBar0 (off : Nat) (f : State → State) (h : ∀ s, Fa s (f s)) (s : State) : Fa s (viaBar0 off f s) := by
  unfold viaBar0
  have k : Fa s (hostAccess s) := (fq_hostAccess s).fa
  split
  · exact k.trans (h _)
  · exact k.trans (fq_earlyAccess ..).fa

theorem fq_msixPump (a1) (s : State) : Fq s (msixPump a1 s) := by
  unfold msixPump
  repeat' (first
    | (with_reducible first
        | exact Fq.refl _ | apply Fq.ite | (apply Fq.after; apply fq_toHost) | (apply Fq.after; apply fq_setF))
    | split)

theorem fq_occClearSelected (s : State) : Fq s (occClearSelected s) := by
  unfold occClearSelected
  repeat' (with_reducible first
    | exact Fq.refl _ | fail_if_no_progress (apply Fq.after; (apply Fq.upd) <;> rfl))

theorem fq_occClearAll (s : State) : Fq s (occClearAll s) := by
  unfold occClearAll
  repeat' (with_reducible first
    | exact Fq.refl _ | fail_if_no_progress (apply Fq.after; (apply Fq.upd) <;> rfl))

theorem fq_occClrWrite (a1) (s : State) : Fq s (occClrWrite a1 s) := by
  unfold occClrWrite
  repeat' (first
    | (with_reducible first
        | exact Fq.refl _ | apply Fq.ite | (apply Fq.after; apply fq_occClearSelected) | (apply Fq.after; apply fq_occClearAll))
    | split)

theorem kp_jFinish (s : State) : Kp s (jFinish s) := by
  unfold jFinish
  repeat' (first
    | (with_reducible first
        | exact Kp.refl _ | refine Kp.of_fst ‹_ = _› ?_ | refine Kp.of_snd ‹_ = _› ?_ | refine Kp.of_thd ‹_ = _› ?_
        | fail_if_no_progress (apply Kp.after; (apply Kp.upd) <;> rfl))
    | split)

theorem fq_sendHeld (s : State) : Fq s (sendHeld s) := by
  unfold sendHeld
  try dsimp only
  repeat' (with_reducible first
    | exact Fq.refl _ | intro i s | intro s | (apply Fq.after; apply fq_emit) | (apply Fq.after; apply fq_foldl)
    | fail_if_no_progress (apply Fq.after; (apply Fq.upd) <;> rfl))

/-! ### Ledger -/

theorem fq_ledgerAsk (a1) (a2) (a3) (s : State) : Fq s (ledgerAsk a1 a2 a3 s).1 := by
  unfold ledgerAsk
  repeat' (first
    | (with_reducible first
        | exact Fq.refl _ | apply Fq.ite | (apply Fq.after; apply fq_logEvent)
        | fail_if_no_progress (apply Fq.after; (apply Fq.upd) <;> rfl))
    | split)

theorem fq_ledgerRelease (a1) (a2) (s : State) : Fq s (ledgerRelease a1 a2 s) := by
  unfold ledgerRelease
  try dsimp only
  repeat' (with_reducible first
    | exact Fq.refl _ | fail_if_no_progress (apply Fq.after; (apply Fq.upd) <;> rfl))

/-! ### Head -/

theorem fq_modDot (a1) (a2) (s : State) : Fq s (modDot a1 a2 s) := by
  unfold modDot
  repeat' (with_reducible first
    | exact Fq.refl _ | fail_if_no_progress (apply Fq.after; (apply Fq.upd) <;> rfl))

theorem fq_nextBack (a1) (a2) (s : State) : Fq s (nextBack a1 a2 s) := by
  unfold nextBack
  try dsimp only
  repeat' (first
    | (with_reducible first
        | exact Fq.refl _ | apply Fq.ite | (apply Fq.after; apply fq_modDot)
        | fail_if_no_progress (apply Fq.after; (apply Fq.upd) <;> rfl))
    | split)

theorem fq_modGen (a1) (a2) (s : State) : Fq s (modGen a1 a2 s) := by
  unfold modGen
  repeat' (with_reducible first
    | exact Fq.refl _ | fail_if_no_progress (apply Fq.after; (apply Fq.upd) <;> rfl))

theorem fq_genBack (a1) (a2) (s : State) : Fq s (genBack a1 a2 s) := by
  unfold genBack
  try dsimp only
  repeat' (first
    | (with_reducible first
        | exact Fq.refl _ | apply Fq.ite | (apply Fq.after; apply fq_modGen)
        | fail_if_no_progress (apply Fq.after; (apply Fq.upd) <;> rfl))
    | split)

theorem fq_cancelLines (a1) (a2) (s : State) : Fq s (cancelLines a1 a2 s) := by
  unfold cancelLines
  try dsimp only
  repeat' (first
    | (with_reducible first
        | exact Fq.refl _ | intro i s | intro s | apply Fq.ite | (apply Fq.after; apply fq_nextBack)
        | (apply Fq.after; apply fq_genBack) | (apply Fq.after; apply fq_foldl))
    | split)

theorem fq_modHlp (a1) (a2) (s : State) : Fq s (modHlp a1 a2 s) := by
  unfold modHlp
  repeat' (with_reducible first
    | exact Fq.refl _ | fail_if_no_progress (apply Fq.after; (apply Fq.upd) <;> rfl))

theorem fq_modTx (a1) (a2) (s : State) : Fq s (modTx a1 a2 s) := by
  unfold modTx
  try dsimp only
  repeat' (with_reducible first
    | exact Fq.refl _ | (apply Fq.after; apply fq_modHlp) | fail_if_no_progress (apply Fq.after; (apply Fq.upd) <;> rfl))

theorem fq_startFrame (a1) (a2) (s : State) : Fq s (startFrame a1 a2 s) := by
  unfold startFrame
  try dsimp only
  repeat' (first
    | (with_reducible first
        | exact Fq.refl _ | apply Fq.ite | (apply Fq.after; apply fq_modHlp) | (apply Fq.after; apply fq_emit)
        | fail_if_no_progress (apply Fq.after; (apply Fq.upd) <;> rfl))
    | split)

theorem fq_suspendFor (a1) (a2) (a3) (s : State) : Fq s (suspendFor a1 a2 a3 s) := by
  unfold suspendFor
  try dsimp only
  repeat' (with_reducible first
    | exact Fq.refl _ | (apply Fq.after; apply fq_modTx) | (apply Fq.after; apply fq_emit) | (apply Fq.after; apply fq_startFrame)
    | fail_if_no_progress (apply Fq.after; (apply Fq.upd) <;> rfl))

theorem fq_startItem (a1) (a2) (a3) (s : State) : Fq s (startItem a1 a2 a3 s) := by
  unfold startItem
  try dsimp only
  repeat' (first
    | (with_reducible first
        | exact Fq.refl _ | apply Fq.ite | (apply Fq.after; apply fq_modTx) | (apply Fq.after; apply fq_emit)
        | (apply Fq.after; apply fq_startFrame) | fail_if_no_progress (apply Fq.after; (apply Fq.upd) <;> rfl))
    | split)

theorem fq_txGo (n p f : Nat) (s : State) : Fq s (txGo n p f s) := by
  induction n generalizing s with
  | zero => exact .refl s
  | succ n ih =>
    unfold txGo
    dsimp only
    split
    · split
      · exact .refl s
      · exact (fq_modTx ..).trans ((fq_startItem ..).trans (ih _))
    · split
      · exact .refl s
      · split
        · exact (fq_modTx ..).trans ((fq_suspendFor ..).trans (ih _))
        · exact .refl s

theorem fq_putItem (a1) (a2) (s : State) : Fq s (putItem a1 a2 s) := by
  unfold putItem
  try dsimp only
  repeat' (first
    | (with_reducible first
        | exact Fq.refl _ | apply Fq.ite | (apply Fq.after; apply fq_modTx) | (apply Fq.after; apply fq_txGo)
        | fail_if_no_progress (apply Fq.after; (apply Fq.upd) <;> rfl))
    | split)

theorem fq_sendFrame (a1) (a2) (a3) (a4) (a5) (a6) (s : State) : Fq s (sendFrame a1 a2 a3 a4 a5 a6 s) := by
  unfold sendFrame
  repeat' (with_reducible first
    | exact Fq.refl _ | (apply Fq.after; apply fq_putItem))

theorem fq_sendCtrl (a1) (a2) (a3) (a4) (s : State) : Fq s (sendCtrl a1 a2 a3 a4 s) := by
  unfold sendCtrl
  repeat' (with_reducible first
    | exact Fq.refl _ | (apply Fq.after; apply fq_sendFrame))

theorem fq_cancelSkipped (a1) (s : State) : Fq s (cancelSkipped a1 s) := by
  unfold cancelSkipped
  try dsimp only
  repeat' (first
    | (with_reducible first
        | exact Fq.refl _ | apply Fq.ite | (apply Fq.after; apply fq_modHlp) | (apply Fq.after; apply fq_sendCtrl)
        | fail_if_no_progress (apply Fq.after; (apply Fq.upd) <;> rfl))
    | split)

theorem fq_casEmitSet (a1) (a2) (a3) (a4) (s : State) : Fq s (casEmitSet a1 a2 a3 a4 s) := by
  unfold casEmitSet
  try dsimp only
  repeat' (first
    | (with_reducible first
        | exact Fq.refl _ | apply Fq.ite | (apply Fq.after; apply fq_emit))
    | split)

theorem fq_driveEn (a1) (a2) (s : State) : Fq s (driveEn a1 a2 s) := by
  unfold driveEn
  repeat' (first
    | (with_reducible first
        | exact Fq.refl _ | apply Fq.ite | (apply Fq.after; apply fq_emit)
        | fail_if_no_progress (apply Fq.after; (apply Fq.upd) <;> rfl))
    | split)

theorem fq_dropService (a1) (s : State) : Fq s (dropService a1 s) := by
  unfold dropService
  try dsimp only
  repeat' (first
    | (with_reducible first
        | exact Fq.refl _ | apply Fq.ite | fail_if_no_progress (apply Fq.after; (apply Fq.upd) <;> rfl))
    | split)

theorem fq_modNhl (a1) (a2) (s : State) : Fq s (modNhl a1 a2 s) := by
  unfold modNhl
  repeat' (with_reducible first
    | exact Fq.refl _ | fail_if_no_progress (apply Fq.after; (apply Fq.upd) <;> rfl))

theorem fq_svcSettle (a1) (s : State) : Fq s (svcSettle a1 s) := by
  unfold svcSettle
  try dsimp only
  repeat' (first
    | (with_reducible first
        | exact Fq.refl _ | apply Fq.ite | (apply Fq.after; apply fq_logEvent) | (apply Fq.after; apply fq_ledgerRelease)
        | (apply Fq.after; apply fq_modNhl) | fail_if_no_progress (apply Fq.after; (apply Fq.upd) <;> rfl))
    | split)

theorem fq_dropUnlaunched (a1) (s : State) : Fq s (dropUnlaunched a1 s) := by
  unfold dropUnlaunched
  try dsimp only
  repeat' (first
    | (with_reducible first
        | exact Fq.refl _ | (apply Fq.after; apply fq_cancelLines) | (apply Fq.after; apply fq_modHlp)
        | (apply Fq.after; apply fq_svcSettle) | refine Fq.of_fst ‹_ = _› ?_ | refine Fq.of_snd ‹_ = _› ?_ | refine Fq.of_thd ‹_ = _› ?_
        | fail_if_no_progress (apply Fq.after; (apply Fq.upd) <;> rfl))
    | split)

theorem fq_tearLine (a1) (a2) (s : State) : Fq s (tearLine a1 a2 s) := by
  unfold tearLine
  try dsimp only
  repeat' (first
    | (with_reducible first
        | exact Fq.refl _ | apply Fq.ite | (apply Fq.after; apply fq_logEvent) | (apply Fq.after; apply fq_nextBack)
        | (apply Fq.after; apply fq_setF) | (apply Fq.after; apply fq_wr) | (apply Fq.after; apply fq_incF)
        | refine Fq.of_fst ‹_ = _› ?_ | refine Fq.of_snd ‹_ = _› ?_ | refine Fq.of_thd ‹_ = _› ?_
        | fail_if_no_progress (apply Fq.after; (apply Fq.upd) <;> rfl))
    | split)

theorem fq_endLines (a1) (s : State) : Fq s (endLines a1 s) := by
  unfold endLines
  try dsimp only
  repeat' (first
    | (with_reducible first
        | exact Fq.refl _ | intro i s | intro s | (apply Fq.after; apply fq_tearLine) | (apply Fq.after; apply fq_cancelLines)
        | (apply Fq.after; apply fq_modHlp) | (apply Fq.after; apply fq_svcSettle) | (apply Fq.after; apply fq_foldl)
        | refine Fq.of_fst ‹_ = _› ?_ | refine Fq.of_snd ‹_ = _› ?_ | refine Fq.of_thd ‹_ = _› ?_
        | fail_if_no_progress (apply Fq.after; (apply Fq.upd) <;> rfl))
    | split)

theorem fq_killLanes (a1) (s : State) : Fq s (killLanes a1 s) := by
  unfold killLanes
  try dsimp only
  repeat' (first
    | (with_reducible first
        | exact Fq.refl _ | apply Fq.ite | (apply Fq.after; apply fq_modTx) | (apply Fq.after; apply fq_emit)
        | fail_if_no_progress (apply Fq.after; (apply Fq.upd) <;> rfl))
    | split)

theorem fq_sendKill (a1) (s : State) : Fq s (sendKill a1 s) := by
  unfold sendKill
  try dsimp only
  repeat' (first
    | (with_reducible first
        | exact Fq.refl _ | apply Fq.ite | (apply Fq.after; apply fq_endLines) | (apply Fq.after; apply fq_killLanes)
        | (apply Fq.after; apply fq_modHlp) | fail_if_no_progress (apply Fq.after; (apply Fq.upd) <;> rfl))
    | split)

theorem fq_hardGate (a1) (s : State) : Fq s (hardGate a1 s) := by
  unfold hardGate
  repeat' (with_reducible first
    | exact Fq.refl _ | (apply Fq.after; apply fq_driveEn) | (apply Fq.after; apply fq_sendKill))

theorem fq_setFallback (a1) (a2) (s : State) : Fq s (setFallback a1 a2 s) := by
  unfold setFallback
  try dsimp only
  repeat' (first
    | (with_reducible first
        | exact Fq.refl _ | apply Fq.ite | (apply Fq.after; apply fq_logEvent) | (apply Fq.after; apply fq_modGen)
        | fail_if_no_progress (apply Fq.after; (apply Fq.upd) <;> rfl))
    | split)

theorem fq_setGen (a1) (a2) (s : State) : Fq s (setGen a1 a2 s) := by
  unfold setGen
  try dsimp only
  repeat' (first
    | (with_reducible first
        | exact Fq.refl _ | apply Fq.ite | (apply Fq.after; apply fq_logEvent) | (apply Fq.after; apply fq_modGen)
        | fail_if_no_progress (apply Fq.after; (apply Fq.upd) <;> rfl))
    | split)

theorem fq_restGen (a1) (a2) (s : State) : Fq s (restGen a1 a2 s) := by
  unfold restGen
  try dsimp only
  repeat' (with_reducible first
    | exact Fq.refl _ | intro i s | intro s | (apply Fq.after; apply fq_modGen) | (apply Fq.after; apply fq_setFallback)
    | (apply Fq.after; apply fq_setGen) | fail_if_no_progress (apply Fq.after; (apply Fq.upd) <;> rfl))

theorem fq_setPipe (a1) (a2) (s : State) : Fq s (setPipe a1 a2 s) := by
  unfold setPipe
  try dsimp only
  repeat' (first
    | (with_reducible first
        | exact Fq.refl _ | apply Fq.ite | (apply Fq.after; apply fq_logEvent) | (apply Fq.after; apply fq_modDot)
        | fail_if_no_progress (apply Fq.after; (apply Fq.upd) <;> rfl))
    | split)

theorem fq_holdPipes (s : State) : Fq s (holdPipes s) := by
  unfold holdPipes
  try dsimp only
  repeat' (first
    | (with_reducible first
        | exact Fq.refl _ | intro i s | intro s | apply Fq.ite | (apply Fq.after; apply fq_restGen) | (apply Fq.after; apply fq_setPipe)
        | (apply Fq.after; apply fq_modDot) | (apply Fq.after; apply fq_forEach))
    | split)

theorem fq_sendCancel (a1) (s : State) : Fq s (sendCancel a1 s) := by
  unfold sendCancel
  repeat' (first
    | (with_reducible first
        | exact Fq.refl _ | apply Fq.ite | (apply Fq.after; apply fq_dropUnlaunched) | (apply Fq.after; apply fq_sendCtrl))
    | split)

theorem fq_holdPort (a1) (s : State) : Fq s (holdPort a1 s) := by
  unfold holdPort
  try dsimp only
  repeat' (first
    | (with_reducible first
        | exact Fq.refl _ | apply Fq.ite | (apply Fq.after; apply fq_sendCancel) | (apply Fq.after; apply fq_modHlp)
        | (apply Fq.after; apply fq_hardGate) | fail_if_no_progress (apply Fq.after; (apply Fq.upd) <;> rfl))
    | split)

theorem fq_holdPrint (s : State) : Fq s (holdPrint s) := by
  unfold holdPrint
  repeat' (with_reducible first
    | exact Fq.refl _ | intro i s | intro s | (apply Fq.after; apply fq_holdPipes) | (apply Fq.after; apply fq_holdPort)
    | (apply Fq.after; apply fq_forEach))

theorem fq_laneTick (a1) (s : State) : Fq s (laneTick a1 s) := by
  unfold laneTick
  try dsimp only
  repeat' (first
    | (with_reducible first
        | exact Fq.refl _ | apply Fq.ite | (apply Fq.after; apply fq_modTx) | (apply Fq.after; apply fq_txGo)
        | (apply Fq.after; apply fq_emit) | fail_if_no_progress (apply Fq.after; (apply Fq.upd) <;> rfl))
    | split)

theorem fq_putMem (a1) (a2) (s : State) : Fq s (putMem a1 a2 s) := by
  unfold putMem
  try dsimp only
  repeat' (first
    | (with_reducible first
        | exact Fq.refl _ | apply Fq.ite | (apply Fq.after; apply fq_sendFrame))
    | split)

theorem fq_memPump (n p : Nat) (s : State) : Fq s (memPump n p s) := by
  induction n generalizing s with
  | zero => exact .refl s
  | succ n ih =>
    unfold memPump
    dsimp only
    split
    · split
      · exact ((fq_modHlp ..).trans (fq_putMem ..)).trans (ih _)
      · exact .refl s
    · exact .refl s

theorem fq_memAsk (a1) (a2) (a3) (a4) (a5) (a6) (s : State) : Fq s (memAsk a1 a2 a3 a4 a5 a6 s) := by
  unfold memAsk
  try dsimp only
  repeat' (with_reducible first
    | exact Fq.refl _ | (apply Fq.after; apply fq_memPump) | (apply Fq.after; apply fq_modHlp)
    | fail_if_no_progress (apply Fq.after; (apply Fq.upd) <;> rfl))

theorem fq_sigPut (a1) (a2) (s : State) : Fq s (sigPut a1 a2 s) := by
  unfold sigPut
  try dsimp only
  repeat' (first
    | (with_reducible first
        | exact Fq.refl _ | apply Fq.ite | (apply Fq.after; apply fq_setF)
        | fail_if_no_progress (apply Fq.after; (apply Fq.upd) <;> rfl))
    | split)

theorem fq_sigSatCount (a1) (s : State) : Fq s (sigSatCount a1 s) := by
  unfold sigSatCount
  repeat' (first
    | (with_reducible first
        | exact Fq.refl _ | apply Fq.ite | (apply Fq.after; apply fq_incF)
        | fail_if_no_progress (apply Fq.after; (apply Fq.upd) <;> rfl))
    | split)

theorem fq_sigAdd (a1) (a2) (s : State) : Fq s (sigAdd a1 a2 s) := by
  unfold sigAdd
  try dsimp only
  repeat' (first
    | (with_reducible first
        | exact Fq.refl _ | apply Fq.ite | (apply Fq.after; apply fq_sigPut) | (apply Fq.after; apply fq_logEvent)
        | (apply Fq.after; apply fq_sigSatCount) | fail_if_no_progress (apply Fq.after; (apply Fq.upd) <;> rfl))
    | split)

theorem fq_sendTrg (a1) (s : State) : Fq s (sendTrg a1 s) := by
  unfold sendTrg
  try dsimp only
  repeat' (first
    | (with_reducible first
        | exact Fq.refl _ | apply Fq.ite | (apply Fq.after; apply fq_casEmitSet))
    | split)

theorem fq_raiseTrg (n a b c : Nat) (s : State) : Fq s (raiseTrg n a b c s) := by
  induction n generalizing a b c s with
  | zero => exact fq_sigAdd ..
  | succ n ih =>
    unfold raiseTrg
    dsimp only
    split
    · exact fq_sigAdd ..
    · exact ((fq_sigAdd ..).trans (fq_sendTrg ..)).trans (fq_forEach _ _ (fun _ _ => ih ..) _)

theorem fq_raiseSig (a1) (a2) (s : State) : Fq s (raiseSig a1 a2 s) := by
  unfold raiseSig
  repeat' (with_reducible first
    | exact Fq.refl _ | (apply Fq.after; apply fq_raiseTrg))

theorem fq_spaceCheck (a1) (a2 : State) (s : State) : Fq s (spaceCheck a1 a2 s) := by
  unfold spaceCheck
  try dsimp only
  repeat' (first
    | (with_reducible first
        | exact Fq.refl _ | apply Fq.ite | (apply Fq.after; apply fq_raiseSig))
    | split)

theorem fq_pipeOff (a1) (s : State) : Fq s (pipeOff a1 s) := by
  unfold pipeOff
  try dsimp only
  repeat' (with_reducible first
    | exact Fq.refl _ | intro i s | intro s | (apply Fq.after; apply fq_setPipe) | (apply Fq.after; apply fq_modDot)
    | (apply Fq.after; apply fq_spaceCheck) | fail_if_no_progress (apply Fq.after; (apply Fq.upd) <;> rfl))

theorem fq_sendProbe (a1) (s : State) : Fq s (sendProbe a1 s) := by
  unfold sendProbe
  repeat' (with_reducible first
    | exact Fq.refl _ | (apply Fq.after; apply fq_putItem))

theorem fq_sendSet (a1) (a2) (a3) (s : State) : Fq s (sendSet a1 a2 a3 s) := by
  unfold sendSet
  repeat' (with_reducible first
    | exact Fq.refl _ | (apply Fq.after; apply fq_putItem))

theorem fq_tick (s : State) : Fq s (tick s) := by
  unfold tick
  repeat' (with_reducible first
    | exact Fq.refl _ | intro i s | intro s | (apply Fq.after; apply fq_laneTick) | (apply Fq.after; apply fq_forEach)
    | fail_if_no_progress (apply Fq.after; (apply Fq.upd) <;> rfl))

theorem fq_updateEn (a1) (s : State) : Fq s (updateEn a1 s) := by
  unfold updateEn
  repeat' (with_reducible first
    | exact Fq.refl _ | (apply Fq.after; apply fq_driveEn))

/-! ### Position -/

theorem fq_capture (a1) (a2) (a3) (a4) (s : State) : Fq s (capture a1 a2 a3 a4 s) := by
  unfold capture
  try dsimp only
  repeat' (first
    | (with_reducible first
        | exact Fq.refl _ | apply Fq.ite | (apply Fq.after; apply fq_setFlag) | (apply Fq.after; apply fq_raiseSig)
        | (apply Fq.after; apply fq_wr))
    | split)

theorem fq_cmpDisarm (a1) (a2) (s : State) : Fq s (cmpDisarm a1 a2 s) := by
  unfold cmpDisarm
  repeat' (with_reducible first
    | exact Fq.refl _ | (apply Fq.after; apply fq_setF))

theorem fq_cmpPut (a1) (a2) (a3) (s : State) : Fq s (cmpPut a1 a2 a3 s) := by
  unfold cmpPut
  repeat' (with_reducible first
    | exact Fq.refl _ | (apply Fq.after; apply fq_setF) | (apply Fq.after; apply fq_wr))

theorem fq_cmpAfter (a1) (a2) (a3) (ha3 : ∀ s, Fq s (a3 s)) (s : State) : Fq s (cmpAfter a1 a2 a3 s) := by
  unfold cmpAfter
  try dsimp only
  repeat' (first
    | (with_reducible first
        | exact Fq.refl _ | intro i s | intro s | apply Fq.ite | (apply Fq.after; apply ha3) | (apply Fq.after; apply fq_cmpDisarm)
        | (apply Fq.after; apply fq_cmpPut))
    | split)

theorem fq_modPc (a1) (a2) (s : State) : Fq s (modPc a1 a2 s) := by
  unfold modPc
  repeat' (with_reducible first
    | exact Fq.refl _ | fail_if_no_progress (apply Fq.after; (apply Fq.upd) <;> rfl))

theorem fq_modCmp (a1) (a2) (a3) (s : State) : Fq s (modCmp a1 a2 a3 s) := by
  unfold modCmp
  try dsimp only
  repeat' (with_reducible first
    | exact Fq.refl _ | (apply Fq.after; apply fq_modPc) | fail_if_no_progress (apply Fq.after; (apply Fq.upd) <;> rfl))

theorem fq_cmpLatch (a1) (a2) (s : State) : Fq s (cmpLatch a1 a2 s) := by
  unfold cmpLatch
  try dsimp only
  repeat' (first
    | (with_reducible first
        | exact Fq.refl _ | apply Fq.ite | (apply Fq.after; apply fq_logEvent) | (apply Fq.after; apply fq_setFlag)
        | (apply Fq.after; apply fq_modCmp) | (apply Fq.after; apply fq_raiseSig) | (apply Fq.after; apply fq_setF)
        | (apply Fq.after; apply fq_wr) | (apply Fq.after; apply fq_incF) | fail_if_no_progress (apply Fq.after; (apply Fq.upd) <;> rfl))
    | split)

theorem fq_cmpMissed (a1) (a2) (s : State) : Fq s (cmpMissed a1 a2 s) := by
  unfold cmpMissed
  repeat' (with_reducible first
    | exact Fq.refl _ | (apply Fq.after; apply fq_logEvent) | (apply Fq.after; apply fq_setFlag) | (apply Fq.after; apply fq_cmpDisarm))

theorem fq_cmpSkip (a1) (a2) (s : State) : Fq s (cmpSkip a1 a2 s) := by
  unfold cmpSkip
  try dsimp only
  repeat' (first
    | (with_reducible first
        | exact Fq.refl _ | apply Fq.ite | (apply Fq.after; apply fq_logEvent) | (apply Fq.after; apply fq_modCmp)
        | (apply Fq.after; apply fq_addF) | (apply Fq.after; apply fq_cmpPut) | (apply Fq.after; apply fq_cmpMissed)
        | fail_if_no_progress (apply Fq.after; (apply Fq.upd) <;> rfl))
    | split)

theorem fq_cmpLate (a1) (a2) (s : State) : Fq s (cmpLate a1 a2 s) := by
  unfold cmpLate
  try dsimp only
  repeat' (with_reducible first
    | exact Fq.refl _ | intro i s | intro s | (apply Fq.after; apply fq_logEvent) | (apply Fq.after; apply fq_setFlag)
    | (apply Fq.after; apply fq_cmpLatch) | (apply Fq.after; apply fq_cmpAfter) | (apply Fq.after; apply fq_cmpSkip))

theorem fq_cmpBehind (a1) (a2) (s : State) : Fq s (cmpBehind a1 a2 s) := by
  unfold cmpBehind
  repeat' (first
    | (with_reducible first
        | exact Fq.refl _ | (apply Fq.after; apply fq_cmpLate) | (apply Fq.after; apply fq_cmpMissed)
        | (apply Fq.after; apply fq_cmpSkip) | refine Fq.of_fst ‹_ = _› ?_ | refine Fq.of_snd ‹_ = _› ?_ | refine Fq.of_thd ‹_ = _› ?_
        | fail_if_no_progress (apply Fq.after; (apply Fq.upd) <;> rfl))
    | split)

theorem fq_cmpArm (a1) (a2) (s : State) : Fq s (cmpArm a1 a2 s) := by
  unfold cmpArm
  try dsimp only
  repeat' (first
    | (with_reducible first
        | exact Fq.refl _ | apply Fq.ite | (apply Fq.after; apply fq_cmpBehind) | (apply Fq.after; apply fq_modCmp)
        | (apply Fq.after; apply fq_wr))
    | split)

theorem fq_posResult (a1) (a2) (a3) (a4) (s : State) : Fq s (posResult a1 a2 a3 a4 s) := by
  unfold posResult
  try dsimp only
  repeat' (first
    | (with_reducible first
        | exact Fq.refl _ | apply Fq.ite | (apply Fq.after; apply fq_logEvent) | (apply Fq.after; apply fq_wr))
    | split)

theorem fq_cmpCmd (a1) (a2) (a3) (s : State) : Fq s (cmpCmd a1 a2 a3 s) := by
  unfold cmpCmd
  try dsimp only
  repeat' (first
    | (with_reducible first
        | exact Fq.refl _ | apply Fq.ite | (apply Fq.after; apply fq_cmpArm) | (apply Fq.after; apply fq_cmpDisarm)
        | (apply Fq.after; apply fq_posResult))
    | split)

theorem fq_cmpHit (a1) (a2) (s : State) : Fq s (cmpHit a1 a2 s) := by
  unfold cmpHit
  repeat' (with_reducible first
    | exact Fq.refl _ | intro i s | intro s | (apply Fq.after; apply fq_cmpBehind) | (apply Fq.after; apply fq_cmpLatch)
    | (apply Fq.after; apply fq_cmpAfter))

theorem fq_cmpEval (a1) (a2) (a3) (s : State) : Fq s (cmpEval a1 a2 a3 s) := by
  unfold cmpEval
  try dsimp only
  repeat' (first
    | (with_reducible first
        | exact Fq.refl _ | apply Fq.ite | (apply Fq.after; apply fq_modCmp) | (apply Fq.after; apply fq_cmpHit)
        | fail_if_no_progress (apply Fq.after; (apply Fq.upd) <;> rfl))
    | split)

theorem fq_dirChanged (a1) (s : State) : Fq s (dirChanged a1 s) := by
  unfold dirChanged
  try dsimp only
  repeat' (first
    | (with_reducible first
        | exact Fq.refl _ | apply Fq.ite | (apply Fq.after; apply fq_logEvent) | (apply Fq.after; apply fq_setFlag))
    | split)

theorem fq_eePin (a1) (a2) (a3) (a4) (s : State) : Fq s (eePin a1 a2 a3 a4 s) := by
  unfold eePin
  repeat' (first
    | (with_reducible first
        | exact Fq.refl _ | apply Fq.ite | (apply Fq.after; apply fq_emit))
    | split)

theorem fq_modEe (a1) (a2) (s : State) : Fq s (modEe a1 a2 s) := by
  unfold modEe
  repeat' (with_reducible first
    | exact Fq.refl _ | fail_if_no_progress (apply Fq.after; (apply Fq.upd) <;> rfl))

theorem fq_eeRef (a1) (s : State) : Fq s (eeRef a1 s) := by
  unfold eeRef
  try dsimp only
  repeat' (first
    | (with_reducible first
        | exact Fq.refl _ | apply Fq.ite | (apply Fq.after; apply fq_modEe) | (apply Fq.after; apply fq_setF)
        | fail_if_no_progress (apply Fq.after; (apply Fq.upd) <;> rfl))
    | split)

theorem fq_eeCommit (a1) (s : State) : Fq s (eeCommit a1 s) := by
  unfold eeCommit
  try dsimp only
  repeat' (with_reducible first
    | exact Fq.refl _ | (apply Fq.after; apply fq_eePin) | (apply Fq.after; apply fq_modEe) | (apply Fq.after; apply fq_eeRef))

theorem fq_eeLag (a1) (s : State) : Fq s (eeLag a1 s) := by
  unfold eeLag
  try dsimp only
  repeat' (first
    | (with_reducible first
        | exact Fq.refl _ | apply Fq.ite | (apply Fq.after; apply fq_logEvent) | (apply Fq.after; apply fq_setFlag)
        | (apply Fq.after; apply fq_modEe) | (apply Fq.after; apply fq_setF)
        | fail_if_no_progress (apply Fq.after; (apply Fq.upd) <;> rfl))
    | split)

theorem fq_eeResume (s : State) : Fq s (eeResume s) := by
  unfold eeResume
  try dsimp only
  repeat' (with_reducible first
    | exact Fq.refl _ | intro i s | intro s | (apply Fq.after; apply fq_setFlag) | (apply Fq.after; apply fq_eeRef)
    | (apply Fq.after; apply fq_forEach))

theorem fq_eeStep (a1) (s : State) : Fq s (eeStep a1 s) := by
  unfold eeStep
  try dsimp only
  repeat' (first
    | (with_reducible first
        | exact Fq.refl _ | apply Fq.ite | (apply Fq.after; apply fq_eeLag) | (apply Fq.after; apply fq_eePin)
        | (apply Fq.after; apply fq_modEe) | (apply Fq.after; apply fq_wr)
        | fail_if_no_progress (apply Fq.after; (apply Fq.upd) <;> rfl))
    | split)

theorem fq_eeTrack (a1) (s : State) : Fq s (eeTrack a1 s) := by
  unfold eeTrack
  try dsimp only
  repeat' (first
    | (with_reducible first
        | exact Fq.refl _ | intro i s | intro s | apply Fq.ite | (apply Fq.after; apply fq_eeLag) | (apply Fq.after; apply fq_forEach))
    | split)

theorem fq_eeZ (a1) (s : State) : Fq s (eeZ a1 s) := by
  unfold eeZ
  try dsimp only
  repeat' (first
    | (with_reducible first
        | exact Fq.refl _ | intro i s | intro s | apply Fq.ite | (apply Fq.after; apply fq_emit) | (apply Fq.after; apply fq_forEach))
    | split)

theorem fq_inputFault (a1) (a2) (s : State) : Fq s (inputFault a1 a2 s) := by
  unfold inputFault
  try dsimp only
  repeat' (first
    | (with_reducible first
        | exact Fq.refl _ | apply Fq.ite | (apply Fq.after; apply fq_logEvent) | (apply Fq.after; apply fq_setFlag)
        | (apply Fq.after; apply fq_modPc) | (apply Fq.after; apply fq_incF) | refine Fq.of_fst ‹_ = _› ?_ | refine Fq.of_snd ‹_ = _› ?_
        | refine Fq.of_thd ‹_ = _› ?_ | fail_if_no_progress (apply Fq.after; (apply Fq.upd) <;> rfl))
    | split)

theorem fq_preset (a1) (s : State) : Fq s (preset a1 s) := by
  unfold preset
  try dsimp only
  repeat' (with_reducible first
    | exact Fq.refl _ | intro i s | intro s | (apply Fq.after; apply fq_modGen) | (apply Fq.after; apply fq_modPc)
    | (apply Fq.after; apply fq_eeRef) | (apply Fq.after; apply fq_forEach)
    | fail_if_no_progress (apply Fq.after; (apply Fq.upd) <;> rfl))

theorem fq_posCmd (a1) (a2) (s : State) : Fq s (posCmd a1 a2 s) := by
  unfold posCmd
  try dsimp only
  repeat' (first
    | (with_reducible first
        | exact Fq.refl _ | apply Fq.ite | (apply Fq.after; apply fq_posResult) | (apply Fq.after; apply fq_wr)
        | (apply Fq.after; apply fq_preset))
    | split)

theorem fq_posSnap (a1) (s : State) : Fq s (posSnap a1 s) := by
  unfold posSnap
  try dsimp only
  repeat' (with_reducible first
    | exact Fq.refl _ | (apply Fq.after; apply fq_modPc) | fail_if_no_progress (apply Fq.after; (apply Fq.upd) <;> rfl))

theorem fq_genMarks (a1) (s : State) : Fq s (genMarks a1 s) := by
  unfold genMarks
  try dsimp only
  repeat' (with_reducible first
    | exact Fq.refl _ | intro i s | intro s | (apply Fq.after; apply fq_modGen) | (apply Fq.after; apply fq_forEach)
    | fail_if_no_progress (apply Fq.after; (apply Fq.upd) <;> rfl))

theorem fq_pcCommit (s : State) : Fq s (pcCommit s) := by
  unfold pcCommit
  try dsimp only
  repeat' (with_reducible first
    | exact Fq.refl _ | intro i s | intro s | (apply Fq.after; apply fq_modGen) | (apply Fq.after; apply fq_eeCommit)
    | (apply Fq.after; apply fq_forEach) | fail_if_no_progress (apply Fq.after; (apply Fq.upd) <;> rfl))

theorem fq_pcCount (a1) (a2) (s : State) : Fq s (pcCount a1 a2 s) := by
  unfold pcCount
  try dsimp only
  repeat' (first
    | (with_reducible first
        | exact Fq.refl _ | apply Fq.ite | (apply Fq.after; apply fq_modPc)
        | fail_if_no_progress (apply Fq.after; (apply Fq.upd) <;> rfl))
    | split)

theorem fq_pcMoved (a1) (a2) (a3) (s : State) : Fq s (pcMoved a1 a2 a3 s) := by
  unfold pcMoved
  try dsimp only
  repeat' (first
    | (with_reducible first
        | exact Fq.refl _ | intro i s | intro s | apply Fq.ite | (apply Fq.after; apply fq_cmpEval) | (apply Fq.after; apply fq_eeTrack)
        | (apply Fq.after; apply fq_genMarks) | (apply Fq.after; apply fq_modPc) | (apply Fq.after; apply fq_dirChanged)
        | (apply Fq.after; apply fq_forEach))
    | split)

theorem fq_quadEdge (a1) (a2) (s : State) : Fq s (quadEdge a1 a2 s) := by
  unfold quadEdge
  try dsimp only
  repeat' (first
    | (with_reducible first
        | exact Fq.refl _ | apply Fq.ite | (apply Fq.after; apply fq_pcMoved) | (apply Fq.after; apply fq_inputFault)
        | (apply Fq.after; apply fq_modPc) | (apply Fq.after; apply fq_pcCount)
        | fail_if_no_progress (apply Fq.after; (apply Fq.upd) <;> rfl))
    | split)

/-! ### Axis -/

theorem fq_modAx (a1) (a2) (s : State) : Fq s (modAx a1 a2 s) := by
  unfold modAx
  repeat' (with_reducible first
    | exact Fq.refl _ | fail_if_no_progress (apply Fq.after; (apply Fq.upd) <;> rfl))

theorem fq_axRelease (a1) (s : State) : Fq s (axRelease a1 s) := by
  unfold axRelease
  repeat' (first
    | (with_reducible first
        | exact Fq.refl _ | (apply Fq.after; apply fq_ledgerRelease) | refine Fq.of_fst ‹_ = _› ?_ | refine Fq.of_snd ‹_ = _› ?_
        | refine Fq.of_thd ‹_ = _› ?_ | fail_if_no_progress (apply Fq.after; (apply Fq.upd) <;> rfl))
    | split)

theorem fq_setAx (a1) (a2) (s : State) : Fq s (setAx a1 a2 s) := by
  unfold setAx
  try dsimp only
  repeat' (first
    | (with_reducible first
        | exact Fq.refl _ | apply Fq.ite | (apply Fq.after; apply fq_logEvent) | (apply Fq.after; apply fq_modAx)
        | fail_if_no_progress (apply Fq.after; (apply Fq.upd) <;> rfl))
    | split)

theorem fq_axOff (a1) (s : State) : Fq s (axOff a1 s) := by
  unfold axOff
  try dsimp only
  repeat' (with_reducible first
    | exact Fq.refl _ | (apply Fq.after; apply fq_modAx) | (apply Fq.after; apply fq_axRelease) | (apply Fq.after; apply fq_setAx)
    | fail_if_no_progress (apply Fq.after; (apply Fq.upd) <;> rfl))

theorem fq_axAllOff (s : State) : Fq s (axAllOff s) := by
  unfold axAllOff
  try dsimp only
  repeat' (first
    | (with_reducible first
        | exact Fq.refl _ | intro i s | intro s | apply Fq.ite | (apply Fq.after; apply fq_axOff) | (apply Fq.after; apply fq_forEach))
    | split)

theorem fq_axRamp (a1) (a2) (a3) (s : State) : Fq s (axRamp a1 a2 a3 s) := by
  unfold axRamp
  try dsimp only
  repeat' (with_reducible first
    | exact Fq.refl _ | (apply Fq.after; apply fq_modAx) | (apply Fq.after; apply fq_setAx)
    | fail_if_no_progress (apply Fq.after; (apply Fq.upd) <;> rfl))

theorem fq_axHold (s : State) : Fq s (axHold s) := by
  unfold axHold
  try dsimp only
  repeat' (first
    | (with_reducible first
        | exact Fq.refl _ | intro i s | intro s | apply Fq.ite | (apply Fq.after; apply fq_axOff) | (apply Fq.after; apply fq_modAx)
        | (apply Fq.after; apply fq_axRamp) | (apply Fq.after; apply fq_axRelease) | (apply Fq.after; apply fq_setAx)
        | (apply Fq.after; apply fq_forEach) | fail_if_no_progress (apply Fq.after; (apply Fq.upd) <;> rfl))
    | split)

theorem fq_axPlan (a1) (a2) (s : State) : Fq s (axPlan a1 a2 s) := by
  unfold axPlan
  try dsimp only
  repeat' (with_reducible first
    | exact Fq.refl _ | (apply Fq.after; apply fq_modAx) | (apply Fq.after; apply fq_setAx)
    | fail_if_no_progress (apply Fq.after; (apply Fq.upd) <;> rfl))

theorem fq_axMove (a1) (a2) (s : State) : Fq s (axMove a1 a2 s).2 := by
  unfold axMove
  try dsimp only
  repeat' (first
    | (with_reducible first
        | exact Fq.refl _ | apply Fq.ite | (apply Fq.after; apply fq_axPlan))
    | split)

theorem fq_modProf (a1) (a2) (s : State) : Fq s (modProf a1 a2 s) := by
  unfold modProf
  try dsimp only
  repeat' (with_reducible first
    | exact Fq.refl _ | (apply Fq.after; apply fq_modAx) | fail_if_no_progress (apply Fq.after; (apply Fq.upd) <;> rfl))

theorem fq_axStop (a1) (s : State) : Fq s (axStop a1 s) := by
  unfold axStop
  try dsimp only
  repeat' (first
    | (with_reducible first
        | exact Fq.refl _ | apply Fq.ite | (apply Fq.after; apply fq_modProf) | (apply Fq.after; apply fq_modAx)
        | (apply Fq.after; apply fq_setAx) | fail_if_no_progress (apply Fq.after; (apply Fq.upd) <;> rfl))
    | split)

theorem fq_axReload (s : State) : Fq s (axReload s) := by
  unfold axReload
  try dsimp only
  repeat' (first
    | (with_reducible first
        | exact Fq.refl _ | intro i s | intro s | apply Fq.ite | (apply Fq.after; apply fq_axOff) | (apply Fq.after; apply fq_modAx)
        | (apply Fq.after; apply fq_axStop) | (apply Fq.after; apply fq_forEach)
        | fail_if_no_progress (apply Fq.after; (apply Fq.upd) <;> rfl))
    | split)

/-! ### MotorBase -/

theorem fq_moRelease (a1) (s : State) : Fq s (moRelease a1 s) := by
  unfold moRelease
  repeat' (with_reducible first
    | exact Fq.refl _ | (apply Fq.after; apply fq_ledgerRelease))

theorem fq_modMo (a1) (a2) (s : State) : Fq s (modMo a1 a2 s) := by
  unfold modMo
  repeat' (with_reducible first
    | exact Fq.refl _ | fail_if_no_progress (apply Fq.after; (apply Fq.upd) <;> rfl))

theorem fq_putGates (a1) (a2) (s : State) : Fq s (putGates a1 a2 s) := by
  unfold putGates
  try dsimp only
  repeat' (first
    | (with_reducible first
        | exact Fq.refl _ | apply Fq.ite | (apply Fq.after; apply fq_modMo) | (apply Fq.after; apply fq_emit)
        | fail_if_no_progress (apply Fq.after; (apply Fq.upd) <;> rfl))
    | split)

theorem fq_moDrive (a1) (s : State) : Fq s (moDrive a1 s) := by
  unfold moDrive
  repeat' (first
    | (with_reducible first
        | exact Fq.refl _ | (apply Fq.after; apply fq_putGates) | refine Fq.of_fst ‹_ = _› ?_ | refine Fq.of_snd ‹_ = _› ?_
        | refine Fq.of_thd ‹_ = _› ?_ | fail_if_no_progress (apply Fq.after; (apply Fq.upd) <;> rfl))
    | split)

theorem fq_setMo (a1) (a2) (s : State) : Fq s (setMo a1 a2 s) := by
  unfold setMo
  try dsimp only
  repeat' (first
    | (with_reducible first
        | exact Fq.refl _ | apply Fq.ite | (apply Fq.after; apply fq_logEvent) | (apply Fq.after; apply fq_modMo)
        | (apply Fq.after; apply fq_moDrive) | fail_if_no_progress (apply Fq.after; (apply Fq.upd) <;> rfl))
    | split)

theorem fq_moCoast (a1) (a2) (s : State) : Fq s (moCoast a1 a2 s) := by
  unfold moCoast
  try dsimp only
  repeat' (with_reducible first
    | exact Fq.refl _ | (apply Fq.after; apply fq_moRelease) | (apply Fq.after; apply fq_setMo) | (apply Fq.after; apply fq_modMo)
    | fail_if_no_progress (apply Fq.after; (apply Fq.upd) <;> rfl))

theorem fq_moDecel (a1) (a2) (s : State) : Fq s (moDecel a1 a2 s) := by
  unfold moDecel
  try dsimp only
  repeat' (with_reducible first
    | exact Fq.refl _ | (apply Fq.after; apply fq_setMo) | (apply Fq.after; apply fq_modMo)
    | fail_if_no_progress (apply Fq.after; (apply Fq.upd) <;> rfl))

theorem fq_moHold (s : State) : Fq s (moHold s) := by
  unfold moHold
  try dsimp only
  repeat' (first
    | (with_reducible first
        | exact Fq.refl _ | intro i s | intro s | apply Fq.ite | (apply Fq.after; apply fq_moCoast) | (apply Fq.after; apply fq_forEach))
    | split)

theorem fq_moPlan (a1) (a2) (s : State) : Fq s (moPlan a1 a2 s) := by
  unfold moPlan
  try dsimp only
  repeat' (with_reducible first
    | exact Fq.refl _ | (apply Fq.after; apply fq_modMo) | fail_if_no_progress (apply Fq.after; (apply Fq.upd) <;> rfl))

theorem fq_moSense (a1) (a2) (s : State) : Fq s (moSense a1 a2 s) := by
  unfold moSense
  try dsimp only
  repeat' (first
    | (with_reducible first
        | exact Fq.refl _ | apply Fq.ite | (apply Fq.after; apply fq_setMo) | (apply Fq.after; apply fq_modMo)
        | fail_if_no_progress (apply Fq.after; (apply Fq.upd) <;> rfl))
    | split)

theorem fq_moMove (a1) (a2) (s : State) : Fq s (moMove a1 a2 s).2 := by
  unfold moMove
  repeat' (first
    | (with_reducible first
        | exact Fq.refl _ | apply Fq.ite | (apply Fq.after; apply fq_moPlan) | (apply Fq.after; apply fq_moSense)
        | (apply Fq.after; apply fq_setMo) | refine Fq.of_fst ‹_ = _› ?_ | refine Fq.of_snd ‹_ = _› ?_ | refine Fq.of_thd ‹_ = _› ?_
        | fail_if_no_progress (apply Fq.after; (apply Fq.upd) <;> rfl))
    | split)

theorem fq_moReload (s : State) : Fq s (moReload s) := by
  unfold moReload
  try dsimp only
  repeat' (first
    | (with_reducible first
        | exact Fq.refl _ | intro i s | intro s | apply Fq.ite | (apply Fq.after; apply fq_modMo) | (apply Fq.after; apply fq_moCoast)
        | (apply Fq.after; apply fq_moDecel) | (apply Fq.after; apply fq_forEach) | refine Fq.of_fst ‹_ = _› ?_
        | refine Fq.of_snd ‹_ = _› ?_ | refine Fq.of_thd ‹_ = _› ?_ | fail_if_no_progress (apply Fq.after; (apply Fq.upd) <;> rfl))
    | split)

end Sys2Proof.Machine
end

