-- ==== Sys2Proof/Laws/FrameUnits.lean ====
section
/-!
SUPPORT. What the operations keep, one lemma for each operation (the chain's messages, the transport, the hooks, the holds, the thermal model, the nozzles' health and the SRAM banks): `Fq` the frame of an operation that leaves the global state
to the events, `Fr` and `Kp` the weaker ones (Laws/Frame.lean).
-/
set_option linter.unreachableTactic false
set_option linter.unusedTactic false
set_option linter.unusedVariables false

namespace Sys2Proof.Machine

/-! ### CasSend -/

theorem fq_bruErr (a1) (a2) (a3) (s : State) : Fq s (bruErr a1 a2 a3 s) := by
  unfold bruErr
  repeat' (first
    | (with_reducible first
        | exact Fq.refl _ | apply Fq.ite | (apply Fq.after; apply fq_wr))
    | split)

theorem fq_casPut (a1) (a2) (s : State) : Fq s (casPut a1 a2 s) := by
  unfold casPut
  repeat' (first
    | (with_reducible first
        | exact Fq.refl _ | apply Fq.ite | (apply Fq.after; apply fq_emit))
    | split)

theorem fq_casBroadcast (a1) (a2) (s : State) : Fq s (casBroadcast a1 a2 s) := by
  unfold casBroadcast
  try dsimp only
  repeat' (with_reducible first
    | exact Fq.refl _ | intro i s | intro s | (apply Fq.after; apply fq_casPut) | (apply Fq.after; apply fq_foldl)
    | fail_if_no_progress (apply Fq.after; (apply Fq.upd) <;> rfl))

theorem fq_casMsg (a1) (a2) (s : State) : Fq s (casMsg a1 a2 s) := by
  unfold casMsg
  repeat' (with_reducible first
    | exact Fq.refl _ | (apply Fq.after; apply fq_casBroadcast))

theorem fq_casSendTo (a1) (a2) (a3) (a4) (s : State) : Fq s (casSendTo a1 a2 a3 a4 s) := by
  unfold casSendTo
  try dsimp only
  repeat' (with_reducible first
    | exact Fq.refl _ | (apply Fq.after; apply fq_casPut) | fail_if_no_progress (apply Fq.after; (apply Fq.upd) <;> rfl))

theorem fq_casMsgTo (a1) (a2) (a3) (s : State) : Fq s (casMsgTo a1 a2 a3 s) := by
  unfold casMsgTo
  repeat' (with_reducible first
    | exact Fq.refl _ | (apply Fq.after; apply fq_casSendTo))

theorem fq_casPeer (a1) (s : State) : Fq s (casPeer a1 s) := by
  unfold casPeer
  repeat' (first
    | (with_reducible first
        | exact Fq.refl _ | apply Fq.ite | (apply Fq.after; apply fq_casMsg) | refine Fq.of_fst ‹_ = _› ?_ | refine Fq.of_snd ‹_ = _› ?_
        | refine Fq.of_thd ‹_ = _› ?_ | fail_if_no_progress (apply Fq.after; (apply Fq.upd) <;> rfl))
    | split)

theorem fq_casStat (s : State) : Fq s (casStat s) := by
  unfold casStat
  try dsimp only
  repeat' (first
    | (with_reducible first
        | exact Fq.refl _ | apply Fq.ite | (apply Fq.after; apply fq_casSendTo)
        | fail_if_no_progress (apply Fq.after; (apply Fq.upd) <;> rfl))
    | split)

theorem fq_discFail (a1) (a2) (s : State) : Fq s (discFail a1 a2 s) := by
  unfold discFail
  repeat' (with_reducible first
    | exact Fq.refl _ | (apply Fq.after; apply fq_logEvent) | (apply Fq.after; apply fq_bruErr)
    | fail_if_no_progress (apply Fq.after; (apply Fq.upd) <;> rfl))

theorem fq_sendDisc (s : State) : Fq s (sendDisc s) := by
  unfold sendDisc
  try dsimp only
  repeat' (with_reducible first
    | exact Fq.refl _ | (apply Fq.after; apply fq_casPut) | fail_if_no_progress (apply Fq.after; (apply Fq.upd) <;> rfl))

theorem fq_startDisc (s : State) : Fq s (startDisc s) := by
  unfold startDisc
  try dsimp only
  repeat' (first
    | (with_reducible first
        | exact Fq.refl _ | apply Fq.ite | (apply Fq.after; apply fq_logEvent) | (apply Fq.after; apply fq_sendDisc)
        | (apply Fq.after; apply fq_discFail) | fail_if_no_progress (apply Fq.after; (apply Fq.upd) <;> rfl))
    | split)

theorem fq_heldRedisc (s : State) : Fq s (heldRedisc s) := by
  unfold heldRedisc
  repeat' (first
    | (with_reducible first
        | exact Fq.refl _ | apply Fq.ite | (apply Fq.after; apply fq_startDisc))
    | split)

theorem fq_logPeer (a1) (a2) (a3) (a4) (a5) (s : State) : Fq s (logPeer a1 a2 a3 a4 a5 s) := by
  unfold logPeer
  repeat' (with_reducible first
    | exact Fq.refl _ | (apply Fq.after; apply fq_casPeer) | (apply Fq.after; apply fq_logEvent))

/-! ### Transport -/

theorem fq_unitMove (a1) (a2) (a3) (s : State) : Fq s (unitMove a1 a2 a3 s).2 := by
  unfold unitMove
  repeat' (first
    | (with_reducible first
        | exact Fq.refl _ | apply Fq.ite | (apply Fq.after; apply fq_axMove) | (apply Fq.after; apply fq_moMove))
    | split)

theorem fq_unitStop (a1) (a2) (s : State) : Fq s (unitStop a1 a2 s) := by
  unfold unitStop
  repeat' (first
    | (with_reducible first
        | exact Fq.refl _ | apply Fq.ite | (apply Fq.after; apply fq_axStop) | (apply Fq.after; apply fq_moDecel))
    | split)

theorem fq_unitVmax (a1) (a2) (a3) (s : State) : Fq s (unitVmax a1 a2 a3 s) := by
  unfold unitVmax
  try dsimp only
  repeat' (first
    | (with_reducible first
        | exact Fq.refl _ | apply Fq.ite | (apply Fq.after; apply fq_modMo) | (apply Fq.after; apply fq_modProf)
        | fail_if_no_progress (apply Fq.after; (apply Fq.upd) <;> rfl))
    | split)

/-! ### Seamless -/

theorem fq_ssPhase (a1) (s : State) : Fq s (ssPhase a1 s) := by
  unfold ssPhase
  repeat' (with_reducible first
    | exact Fq.refl _ | (apply Fq.after; apply fq_setF) | fail_if_no_progress (apply Fq.after; (apply Fq.upd) <;> rfl))

theorem fq_ssAbandonLocal (s : State) : Fq s (ssAbandonLocal s) := by
  unfold ssAbandonLocal
  try dsimp only
  repeat' (first
    | (with_reducible first
        | exact Fq.refl _ | intro i s | intro s | apply Fq.ite | (apply Fq.after; apply fq_setFlag)
        | (apply Fq.after; apply fq_unitStop) | (apply Fq.after; apply fq_setPipe) | (apply Fq.after; apply fq_ssPhase)
        | (apply Fq.after; apply fq_setGen) | (apply Fq.after; apply fq_modDot) | (apply Fq.after; apply fq_forEach)
        | fail_if_no_progress (apply Fq.after; (apply Fq.upd) <;> rfl))
    | split)

theorem fq_ssAbandon (s : State) : Fq s (ssAbandon s) := by
  unfold ssAbandon
  try dsimp only
  repeat' (first
    | (with_reducible first
        | exact Fq.refl _ | apply Fq.ite | (apply Fq.after; apply fq_casMsg) | (apply Fq.after; apply fq_ssAbandonLocal))
    | split)

theorem fq_ssApply (s : State) : Fq s (ssApply s) := by
  unfold ssApply
  try dsimp only
  repeat' (first
    | (with_reducible first
        | exact Fq.refl _ | intro i s | intro s | apply Fq.ite | (apply Fq.after; apply fq_modGen) | (apply Fq.after; apply fq_setPipe)
        | (apply Fq.after; apply fq_ssPhase) | (apply Fq.after; apply fq_setGen) | (apply Fq.after; apply fq_setF)
        | (apply Fq.after; apply fq_modDot) | (apply Fq.after; apply fq_wr) | (apply Fq.after; apply fq_incF)
        | (apply Fq.after; apply fq_forEach) | fail_if_no_progress (apply Fq.after; (apply Fq.upd) <;> rfl))
    | split)

theorem fq_ssBack (a1) (s : State) : Fq s (ssBack a1 s) := by
  unfold ssBack
  try dsimp only
  repeat' (with_reducible first
    | exact Fq.refl _ | (apply Fq.after; apply fq_sendCancel) | (apply Fq.after; apply fq_modDot)
    | fail_if_no_progress (apply Fq.after; (apply Fq.upd) <;> rfl))

theorem fq_ssCauseBit (a1) (s : State) : Fq s (ssCauseBit a1 s) := by
  unfold ssCauseBit
  repeat' (with_reducible first
    | exact Fq.refl _ | (apply Fq.after; apply fq_setF))

theorem fq_ssDecide (a1) (s : State) : Fq s (ssDecide a1 s) := by
  unfold ssDecide
  try dsimp only
  repeat' (first
    | (with_reducible first
        | exact Fq.refl _ | apply Fq.ite | (apply Fq.after; apply fq_ssApply) | (apply Fq.after; apply fq_casMsg)
        | (apply Fq.after; apply fq_setF) | fail_if_no_progress (apply Fq.after; (apply Fq.upd) <;> rfl))
    | split)

theorem fq_ssReturn (s : State) : Fq s (ssReturn s) := by
  unfold ssReturn
  try dsimp only
  repeat' (first
    | (with_reducible first
        | exact Fq.refl _ | apply Fq.ite | (apply Fq.after; apply fq_modMo) | (apply Fq.after; apply fq_modProf)
        | fail_if_no_progress (apply Fq.after; (apply Fq.upd) <;> rfl))
    | split)

theorem fq_ssFinish (s : State) : Fq s (ssFinish s) := by
  unfold ssFinish
  try dsimp only
  repeat' (with_reducible first
    | exact Fq.refl _ | (apply Fq.after; apply fq_ssReturn) | (apply Fq.after; apply fq_ssPhase)
    | fail_if_no_progress (apply Fq.after; (apply Fq.upd) <;> rfl))

theorem fq_ssForbid (a1) (s : State) : Fq s (ssForbid a1 s) := by
  unfold ssForbid
  repeat' (with_reducible first
    | exact Fq.refl _ | (apply Fq.after; apply fq_setFlag) | (apply Fq.after; apply fq_setF))

theorem fq_ssStopping (s : State) : Fq s (ssStopping s) := by
  unfold ssStopping
  try dsimp only
  repeat' (first
    | (with_reducible first
        | exact Fq.refl _ | intro i s | intro s | apply Fq.ite | (apply Fq.after; apply fq_ssPhase) | (apply Fq.after; apply fq_ssBack)
        | (apply Fq.after; apply fq_unitMove) | (apply Fq.after; apply fq_wr) | (apply Fq.after; apply fq_ssCauseBit)
        | (apply Fq.after; apply fq_ssAbandon) | (apply Fq.after; apply fq_forEach) | refine Fq.of_fst ‹_ = _› ?_
        | refine Fq.of_snd ‹_ = _› ?_ | refine Fq.of_thd ‹_ = _› ?_ | fail_if_no_progress (apply Fq.after; (apply Fq.upd) <;> rfl))
    | split)

theorem fq_ssTry (a1) (s : State) : Fq s (ssTry a1 s).1 := by
  unfold ssTry
  repeat' (first
    | (with_reducible first
        | exact Fq.refl _ | apply Fq.ite | (apply Fq.after; apply fq_ssDecide) | (apply Fq.after; apply fq_ssForbid)
        | (apply Fq.after; apply fq_casMsgTo) | (apply Fq.after; apply fq_ssCauseBit) | refine Fq.of_fst ‹_ = _› ?_
        | refine Fq.of_snd ‹_ = _› ?_ | refine Fq.of_thd ‹_ = _› ?_ | fail_if_no_progress (apply Fq.after; (apply Fq.upd) <;> rfl))
    | split)

/-! ### Hooks -/

theorem fq_accruePrint (s : State) : Fq s (accruePrint s) := by
  unfold accruePrint
  try dsimp only
  repeat' (with_reducible first
    | exact Fq.refl _ | fail_if_no_progress (apply Fq.after; (apply Fq.upd) <;> rfl))

theorem fq_modDma (a1) (a2) (s : State) : Fq s (modDma a1 a2 s) := by
  unfold modDma
  repeat' (with_reducible first
    | exact Fq.refl _ | fail_if_no_progress (apply Fq.after; (apply Fq.upd) <;> rfl))

theorem fq_dmaPaused (a1) (s : State) : Fq s (dmaPaused a1 s) := by
  unfold dmaPaused
  try dsimp only
  repeat' (with_reducible first
    | exact Fq.refl _ | (apply Fq.after; apply fq_logEvent) | (apply Fq.after; apply fq_modDma)
    | fail_if_no_progress (apply Fq.after; (apply Fq.upd) <;> rfl))

theorem fq_dmaPause (a1) (a2) (a3) (s : State) : Fq s (dmaPause a1 a2 a3 s) := by
  unfold dmaPause
  try dsimp only
  repeat' (first
    | (with_reducible first
        | exact Fq.refl _ | apply Fq.ite | (apply Fq.after; apply fq_dmaPaused) | (apply Fq.after; apply fq_modDma)
        | fail_if_no_progress (apply Fq.after; (apply Fq.upd) <;> rfl))
    | split)

theorem fq_dmaPauseAll (a1) (s : State) : Fq s (dmaPauseAll a1 s) := by
  unfold dmaPauseAll
  repeat' (with_reducible first
    | exact Fq.refl _ | intro i s | intro s | (apply Fq.after; apply fq_dmaPause) | (apply Fq.after; apply fq_forEach))

theorem fq_hotPause (s : State) : Fq s (hotPause s) := by
  unfold hotPause
  try dsimp only
  repeat' (first
    | (with_reducible first
        | exact Fq.refl _ | apply Fq.ite | fail_if_no_progress (apply Fq.after; (apply Fq.upd) <;> rfl))
    | split)

theorem fq_scnHeld (s : State) : Fq s (scnHeld s) := by
  unfold scnHeld
  try dsimp only
  repeat' (first
    | (with_reducible first
        | exact Fq.refl _ | apply Fq.ite | (apply Fq.after; apply fq_wr) | refine Fq.of_fst ‹_ = _› ?_ | refine Fq.of_snd ‹_ = _› ?_
        | refine Fq.of_thd ‹_ = _› ?_ | fail_if_no_progress (apply Fq.after; (apply Fq.upd) <;> rfl))
    | split)

theorem fq_svcAbort (a1) (a2) (s : State) : Fq s (svcAbort a1 a2 s) := by
  unfold svcAbort
  try dsimp only
  repeat' (first
    | (with_reducible first
        | exact Fq.refl _ | apply Fq.ite | (apply Fq.after; apply fq_modNhl) | (apply Fq.after; apply fq_svcSettle)
        | (apply Fq.after; apply fq_dropService) | fail_if_no_progress (apply Fq.after; (apply Fq.upd) <;> rfl))
    | split)

theorem fq_svcLeave (a1) (a2) (s : State) : Fq s (svcLeave a1 a2 s) := by
  unfold svcLeave
  try dsimp only
  repeat' (first
    | (with_reducible first
        | exact Fq.refl _ | intro i s | intro s | apply Fq.ite | (apply Fq.after; apply fq_svcAbort)
        | (apply Fq.after; apply fq_scnHeld) | (apply Fq.after; apply fq_modNhl) | (apply Fq.after; apply fq_accruePrint)
        | (apply Fq.after; apply fq_hotPause) | (apply Fq.after; apply fq_forEach))
    | split)

/-! ### Hold -/

theorem fq_holdUnits (s : State) : Fq s (holdUnits s) := by
  unfold holdUnits
  repeat' (with_reducible first
    | exact Fq.refl _ | (apply Fq.after; apply fq_axHold) | (apply Fq.after; apply fq_moHold) | (apply Fq.after; apply fq_ssPhase)
    | (apply Fq.after; apply fq_dmaPauseAll) | (apply Fq.after; apply fq_holdPrint)
    | fail_if_no_progress (apply Fq.after; (apply Fq.upd) <;> rfl))

theorem goto_after (g : GState) (c : Nat) (s : State) :
    Fq { s with glb := { s.glb with state := g, prev := some s.glb.state, cause := BitVec.ofNat 16 c, earlySeen := false } }
      (goto g c s) := by
  unfold goto
  dsimp only
  refine Fq.trans ?_ (fq_heldRedisc ..)
  refine Fq.trans ?_ (fq_casStat ..)
  refine Fq.trans ?_ (fq_svcLeave ..)
  split
  · exact Fq.upd _ rfl rfl rfl rfl rfl rfl rfl rfl rfl rfl
  · exact Fq.upd _ rfl rfl rfl rfl rfl rfl rfl rfl rfl rfl

theorem goto_state (g : GState) (c : Nat) (s : State) : (goto g c s).glb.state = g := (goto_after g c s).falls

theorem kp_goto (g : GState) (c : Nat) (s : State) : Kp s (goto g c s) :=
  Kp.trans (Kp.upd _ rfl rfl rfl rfl rfl rfl rfl) (goto_after g c s).kp

theorem fx_goto {R : GState → GState → Prop} (g : GState) (c : Nat) (s : State) (h : R s.glb.state g) : Fx R s (goto g c s) :=
  let k := goto_after g c s
  ⟨kp_goto g c s, k.image, k.recs, by rw [goto_state]; exact h⟩

theorem fa_goto (g : GState) (c : Nat) (s : State) : Fa s (goto g c s) := fx_goto g c s trivial

theorem fr_goto (g : GState) (c : Nat) (s : State) (h : Falls s.glb.state g) : Fr s (goto g c s) := fx_goto g c s h

theorem fq_holdBru (s : State) : Fq s (holdBru s) := by
  unfold holdBru
  repeat' (with_reducible first
    | exact Fq.refl _ | fail_if_no_progress (apply Fq.after; (apply Fq.upd) <;> rfl))

theorem fr_enterSafeHold (c : Nat) (s : State) (h : haltable s = true) : Fr s (enterSafeHold c s) := by
  have hf : Falls s.glb.state .safeHold := by
    unfold haltable at h
    split at h <;> simp_all [Falls]
  unfold enterSafeHold
  dsimp only
  refine Fr.trans ?_ (fq_holdUnits _).fr
  split
  · refine Fr.after (fq_holdBru _).fr ?_
    exact Fr.after (Fr.upd _ rfl rfl rfl rfl rfl rfl rfl rfl rfl rfl) (fr_goto .safeHold c _ hf)
  · exact fr_goto _ _ _ hf

theorem mv_enterShutdown (c : Nat) (s : State) (h : Moves s.glb.state .shutdown) : Mv s (enterShutdown c s) := by
  unfold enterShutdown
  dsimp only
  refine Mv.trans ?_ (fq_holdUnits _).mv
  refine Mv.trans ?_ (fq_holdBru _).mv
  exact Mv.after (Mv.upd _ rfl rfl rfl rfl rfl rfl rfl rfl rfl rfl) (fx_goto _ _ _ h)

theorem fr_raiseHalt (k : EvKind) (i a0 a1 a2 : Nat) (s : State) : Fr s (raiseHalt k i a0 a1 a2 s) := by
  unfold raiseHalt
  have h : Fq s (logPeer k i a0 a1 a2 s) := fq_logPeer ..
  dsimp only
  split
  · rename_i e
    refine h.fr.trans (fr_enterSafeHold _ _ ?_)
    unfold haltable at e ⊢
    rw [h.falls]; exact e
  · exact h.fr

theorem fr_useInvar (a1) (s : State) : Fr s (useInvar a1 s) := by
  unfold useInvar
  try dsimp only
  repeat' (first
    | (with_reducible first
        | exact Fr.refl _ | intro i s | intro s | apply Fr.ite | (apply Fr.after; apply fr_raiseHalt) | (apply Fr.after; apply fr_foldl)
        | refine Fr.of_fst ‹_ = _› ?_ | refine Fr.of_snd ‹_ = _› ?_ | refine Fr.of_thd ‹_ = _› ?_
        | fail_if_no_progress (apply Fr.after; (apply Fr.upd) <;> rfl))
    | split)

theorem fr_useSoft (a1) (a2) (s : State) : Fr s (useSoft a1 a2 s) := by
  unfold useSoft
  repeat' (first
    | (with_reducible first
        | exact Fr.refl _ | apply Fr.ite | (apply Fr.after; apply fr_useInvar))
    | split)

theorem falls_not_hold {g h : GState} (k : Falls g h) (e : h ≠ .safeHold) : h = g ∨ h = .stopping := by
  rcases k with k | k | k
  · exact .inl k
  · exact .inr k.2
  · exact (e k.1).elim
theorem fx_enterStopping {R : GState → GState → Prop} (c : Nat) (s : State) (fr : ∀ {t : State}, Fr s t → Fx R s t)
    (tr : ∀ {a b c}, R a b → R b c → R a c) (rf : ∀ g, R g g) (h : R s.glb.state .stopping) : Fx R s (enterStopping c s) := by
  unfold enterStopping
  extract_lets s1 s2
  have k : Fr s s1 := Fr.ite (fr_useSoft ..) (.refl s)
  split
  · exact fr k
  · rename_i e
    have m : R s1.glb.state .stopping := by
      rcases falls_not_hold k.falls e with e | e <;> rw [e]
      · exact h
      · exact rf _
    have q : Fq (goto .stopping c s1) s2 := fq_ssStopping _
    have u : Fx R s1 s2 := Fx.trans tr (fx_goto _ _ _ m) { q with falls := q.falls ▸ rf _ }
    refine Fx.trans tr (fr k) ?_
    split
    · have v : Fq s2 (unitStop (trKind s2) (trIndex s2) s2) := fq_unitStop ..
      exact Fx.trans tr u { v with falls := v.falls ▸ rf _ }
    · exact u
theorem mv_enterStopping (c : Nat) (s : State) (h : Moves s.glb.state .stopping) : Mv s (enterStopping c s) :=
  fx_enterStopping c s Fr.mv Moves.trans (fun g => by cases g <;> decide) h
theorem fr_enterStopping (c : Nat) (s : State) (h : Falls s.glb.state .stopping) : Fr s (enterStopping c s) :=
  fx_enterStopping c s id Falls.trans (fun _ => .inl rfl) h

theorem fq_putInvar (a1) (a2) (s : State) : Fq s (putInvar a1 a2 s) := by
  unfold putInvar
  try dsimp only
  repeat' (with_reducible first
    | exact Fq.refl _ | (apply Fq.after; apply fq_wr) | refine Fq.of_fst ‹_ = _› ?_ | refine Fq.of_snd ‹_ = _› ?_
    | refine Fq.of_thd ‹_ = _› ?_ | fail_if_no_progress (apply Fq.after; (apply Fq.upd) <;> rfl))

theorem fr_raise (k : EvKind) (i a0 a1 a2 : Nat) (s : State) : Fr s (raise k i a0 a1 a2 s) := by
  unfold raise
  have h : Fq s (logPeer k i a0 a1 a2 s) := fq_logPeer ..
  dsimp only
  split
  · split
    · rename_i e
      exact h.fr.trans (fr_enterStopping _ _ (by rw [h.falls, e]; exact .inr (.inl ⟨rfl, rfl⟩)))
    · exact h.fr
  · exact fr_raiseHalt ..
  · exact h.fr

theorem fr_ssAsk (a1) (s : State) : Fr s (ssAsk a1 s).1 := by
  unfold ssAsk
  repeat' (first
    | (with_reducible first
        | exact Fr.refl _ | apply Fr.ite | (apply Fr.after; apply fr_useInvar) | (apply Fr.after; apply fr_useSoft)
        | (apply Fr.after; apply Fq.fr; apply fq_ssTry))
    | split)

/-! ### Thermal -/

theorem fr_ledgerInvar (s : State) : Fr s (ledgerInvar s) := by
  unfold ledgerInvar
  repeat' (with_reducible first
    | exact Fr.refl _ | (apply Fr.after; apply fr_useInvar))

theorem fr_ledgerRequest (a1) (a2) (a3) (s : State) : Fr s (ledgerRequest a1 a2 a3 s).1 := by
  unfold ledgerRequest
  repeat' (with_reducible first
    | exact Fr.refl _ | (apply Fr.after; apply Fq.fr; apply fq_ledgerAsk) | (apply Fr.after; apply fr_ledgerInvar))

theorem fr_askWarm (a1) (s : State) : Fr s (askWarm a1 s) := by
  unfold askWarm
  try dsimp only
  repeat' (first
    | (with_reducible first
        | exact Fr.refl _ | apply Fr.ite | (apply Fr.after; apply fr_ledgerRequest))
    | split)

theorem fq_modThm (a1) (a2) (s : State) : Fq s (modThm a1 a2 s) := by
  unfold modThm
  repeat' (with_reducible first
    | exact Fq.refl _ | fail_if_no_progress (apply Fq.after; (apply Fq.upd) <;> rfl))

theorem fq_checkZone (a1) (a2) (s : State) : Fq s (checkZone a1 a2 s) := by
  unfold checkZone
  try dsimp only
  repeat' (first
    | (with_reducible first
        | exact Fq.refl _ | apply Fq.ite | (apply Fq.after; apply fq_logEvent) | (apply Fq.after; apply fq_modThm)
        | refine Fq.of_fst ‹_ = _› ?_ | refine Fq.of_snd ‹_ = _› ?_ | refine Fq.of_thd ‹_ = _› ?_
        | fail_if_no_progress (apply Fq.after; (apply Fq.upd) <;> rfl))
    | split)

theorem fq_decideTrims (a1) (s : State) : Fq s (decideTrims a1 s) := by
  unfold decideTrims
  try dsimp only
  repeat' (with_reducible first
    | exact Fq.refl _ | (apply Fq.after; apply fq_modThm) | fail_if_no_progress (apply Fq.after; (apply Fq.upd) <;> rfl))

theorem fr_decideLine (a1) (a2) (s : State) : Fr s (decideLine a1 a2 s).1 := by
  unfold decideLine
  try dsimp only
  repeat' (first
    | (with_reducible first
        | exact Fr.refl _ | apply Fr.ite | (apply Fr.after; apply Fq.fr; apply fq_decideTrims)
        | (apply Fr.after; apply Fq.fr; apply fq_logEvent) | (apply Fr.after; apply fr_useInvar)
        | (apply Fr.after; apply Fq.fr; apply fq_modThm) | refine Fr.of_fst ‹_ = _› ?_ | refine Fr.of_snd ‹_ = _› ?_
        | refine Fr.of_thd ‹_ = _› ?_ | fail_if_no_progress (apply Fr.after; (apply Fr.upd) <;> rfl))
    | split)

theorem fq_pathRecords (a1) (a2) (s : State) : Fq s (pathRecords a1 a2 s) := by
  unfold pathRecords
  try dsimp only
  repeat' (with_reducible first
    | exact Fq.refl _ | intro i s | intro s | (apply Fq.after; apply fq_jRecord) | (apply Fq.after; apply fq_foldl))

theorem pathMoves_moves {x : Path} {s : State} (h : pathMoves x s = true) :
    Moves s.glb.state .stopping ∧ Moves s.glb.state (if x.die then .shutdown else .safeHold) := by
  revert h
  unfold pathMoves haltable
  cases s.glb.state <;> cases x.die <;> simp <;> decide
theorem mv_pathEnd (xs : List Path) (s : State) : Mv s (pathEnd xs s) := by
  unfold pathEnd
  split
  · rename_i x _ e
    have h := List.find?_some e
    simp only [Bool.and_eq_true] at h
    exact mv_enterShutdown _ _ (by have := (pathMoves_moves h.2).2; rwa [if_pos h.1] at this)
  · rename_i x n e
    have h := List.find?_some e
    have d : x.die = false := by
      have := List.find?_eq_none.1 n x (List.mem_of_find?_eq_some e)
      simpa [h] using this
    refine (fr_enterSafeHold _ _ ?_).mv
    simpa [pathMoves, d] using h
  · exact .refl s

theorem mv_mainPath (a1) (s : State) : Mv s (mainPath a1 s) := by
  unfold mainPath
  try dsimp only
  repeat' (with_reducible first
    | exact Mv.refl _ | intro i s | intro s | (apply Mv.after; apply Fq.mv; apply fq_logEvent)
    | (apply Mv.after; apply Fq.mv; apply fq_pathRecords) | (apply Mv.after; apply mv_pathEnd) | (apply Mv.after; apply mv_foldl)
    | fail_if_no_progress (apply Mv.after; (apply Mv.upd) <;> rfl))

theorem mv_fallPath (x : Path) (s : State) : Mv s (fallPath x s) := by
  unfold fallPath
  extract_lets g s1
  have h : Fq s s1 := Fq.after (fq_logEvent ..) (Fq.upd _ rfl rfl rfl rfl rfl rfl rfl rfl rfl rfl)
  split
  · exact h.mv
  · rename_i e
    have m : pathMoves x s = true := by simpa using (not_or.1 e).2
    have k := (pathMoves_moves m).1
    rw [← h.falls] at k
    exact h.mv.trans (mv_enterStopping _ _ k)

theorem mv_takePath (a1) (a2) (s : State) : Mv s (takePath a1 a2 s) := by
  unfold takePath
  repeat' (first
    | (with_reducible first
        | exact Mv.refl _ | apply Mv.ite | (apply Mv.after; apply mv_mainPath) | (apply Mv.after; apply mv_fallPath))
    | split)

theorem fq_haltEvent (a1) (a2) (a3) (a4) (a5) (a6) (s : State) : Fq s (haltEvent a1 a2 a3 a4 a5 a6 s).1 := by
  unfold haltEvent
  repeat' (with_reducible first
    | exact Fq.refl _ | (apply Fq.after; apply fq_logPeer) | fail_if_no_progress (apply Fq.after; (apply Fq.upd) <;> rfl))

theorem mv_dieHalt (a1) (s : State) : Mv s (dieHalt a1 s) := by
  unfold dieHalt
  try dsimp only
  repeat' (first
    | (with_reducible first
        | exact Mv.refl _ | apply Mv.ite | (apply Mv.after; apply mv_takePath) | (apply Mv.after; apply Fq.mv; apply fq_haltEvent))
    | split)

theorem fq_limitReturn (a1) (a2) (a3) (a4) (a5) (s : State) : Fq s (limitReturn a1 a2 a3 a4 a5 s) := by
  unfold limitReturn
  repeat' (first
    | (with_reducible first
        | exact Fq.refl _ | apply Fq.ite | (apply Fq.after; apply fq_logEvent))
    | split)

theorem mv_pathsClose (s : State) : Mv s (pathsClose s) := by
  unfold pathsClose
  repeat' (first
    | (with_reducible first
        | exact Mv.refl _ | apply Mv.ite | (apply Mv.after; apply mv_pathEnd)
        | fail_if_no_progress (apply Mv.after; (apply Mv.upd) <;> rfl))
    | split)

theorem fq_modelUpdate (a1) (a2) (s : State) : Fq s (modelUpdate a1 a2 s) := by
  unfold modelUpdate
  try dsimp only
  repeat' (with_reducible first
    | exact Fq.refl _ | intro i s | intro s | (apply Fq.after; apply fq_modThm) | (apply Fq.after; apply fq_foldl)
    | fail_if_no_progress (apply Fq.after; (apply Fq.upd) <;> rfl))

theorem fq_retireLines (a1) (s : State) : Fq s (retireLines a1 s) := by
  unfold retireLines
  try dsimp only
  repeat' (with_reducible first
    | exact Fq.refl _ | (apply Fq.after; apply fq_modHlp) | fail_if_no_progress (apply Fq.after; (apply Fq.upd) <;> rfl))

theorem fq_peakCheck (a1) (a2) (s : State) : Fq s (peakCheck a1 a2 s) := by
  unfold peakCheck
  try dsimp only
  repeat' (first
    | (with_reducible first
        | exact Fq.refl _ | apply Fq.ite | (apply Fq.after; apply fq_logEvent) | (apply Fq.after; apply fq_modThm)
        | refine Fq.of_fst ‹_ = _› ?_ | refine Fq.of_snd ‹_ = _› ?_ | refine Fq.of_thd ‹_ = _› ?_
        | fail_if_no_progress (apply Fq.after; (apply Fq.upd) <;> rfl))
    | split)

theorem mv_headHalt (a1) (a2) (a3) (a4) (a5) (a6) (a7) (a8) (s : State) : Mv s (headHalt a1 a2 a3 a4 a5 a6 a7 a8 s) := by
  unfold headHalt
  try dsimp only
  repeat' (first
    | (with_reducible first
        | exact Mv.refl _ | apply Mv.ite | (apply Mv.after; apply Fq.mv; apply fq_modHlp) | (apply Mv.after; apply mv_takePath)
        | (apply Mv.after; apply Fq.mv; apply fq_haltEvent) | fail_if_no_progress (apply Mv.after; (apply Mv.upd) <;> rfl))
    | split)

theorem mv_headLimits (a1) (a2) (s : State) : Mv s (headLimits a1 a2 s) := by
  unfold headLimits
  try dsimp only
  repeat' (first
    | (with_reducible first
        | exact Mv.refl _ | apply Mv.ite | (apply Mv.after; apply Fq.mv; apply fq_logEvent)
        | (apply Mv.after; apply Fr.mv; apply fr_useInvar) | (apply Mv.after; apply Fq.mv; apply fq_modThm)
        | (apply Mv.after; apply Fq.mv; apply fq_limitReturn) | (apply Mv.after; apply mv_headHalt)
        | (apply Mv.after; apply Fr.mv; apply fr_ssAsk) | (apply Mv.after; apply Fr.mv; apply fr_raise)
        | (apply Mv.after; apply Fq.mv; apply fq_logPeer) | fail_if_no_progress (apply Mv.after; (apply Mv.upd) <;> rfl))
    | split)

theorem mv_zoneSample (a1) (a2) (s : State) : Mv s (zoneSample a1 a2 s) := by
  unfold zoneSample
  try dsimp only
  repeat' (first
    | (with_reducible first
        | exact Mv.refl _ | intro i s | intro s | apply Mv.ite | (apply Mv.after; apply Fr.mv; apply fr_useInvar)
        | (apply Mv.after; apply Fq.mv; apply fq_checkZone) | (apply Mv.after; apply Fq.mv; apply fq_modThm)
        | (apply Mv.after; apply mv_headHalt) | (apply Mv.after; apply mv_headLimits) | (apply Mv.after; apply Fq.mv; apply fq_setF)
        | (apply Mv.after; apply mv_forEach) | fail_if_no_progress (apply Mv.after; (apply Mv.upd) <;> rfl))
    | split)

theorem fq_seedModel (a1) (s : State) : Fq s (seedModel a1 s) := by
  unfold seedModel
  try dsimp only
  repeat' (with_reducible first
    | exact Fq.refl _ | (apply Fq.after; apply fq_modThm) | fail_if_no_progress (apply Fq.after; (apply Fq.upd) <;> rfl))

theorem fq_thmTable (a1) (a2) (s : State) : Fq s (thmTable a1 a2 s).2 := by
  unfold thmTable
  try dsimp only
  repeat' (first
    | (with_reducible first
        | exact Fq.refl _ | apply Fq.ite | (apply Fq.after; apply fq_seedModel) | (apply Fq.after; apply fq_modThm)
        | fail_if_no_progress (apply Fq.after; (apply Fq.upd) <;> rfl))
    | split)

theorem fq_thmResult (a1) (a2) (a3) (s : State) : Fq s (thmResult a1 a2 a3 s) := by
  unfold thmResult
  try dsimp only
  repeat' (first
    | (with_reducible first
        | exact Fq.refl _ | apply Fq.ite | (apply Fq.after; apply fq_logEvent) | (apply Fq.after; apply fq_wr))
    | split)

theorem fq_thmCmd (a1) (a2) (a3) (s : State) : Fq s (thmCmd a1 a2 a3 s) := by
  unfold thmCmd
  try dsimp only
  repeat' (first
    | (with_reducible first
        | exact Fq.refl _ | apply Fq.ite | (apply Fq.after; apply fq_thmTable) | (apply Fq.after; apply fq_thmResult))
    | split)

theorem fq_killsActed (s : State) : Fq s (killsActed s) := by
  unfold killsActed
  try dsimp only
  repeat' (with_reducible first
    | exact Fq.refl _ | intro i s | intro s | (apply Fq.after; apply fq_sendKill) | (apply Fq.after; apply fq_forEach))

theorem fr_ledgerRevoke {s t : State} (h : ledgerRevoke s = some t) : Fr s t := by
  unfold ledgerRevoke at h
  split at h
  · cases h
  · cases h
    exact Fr.after (fr_askWarm ..) (Fr.upd _ rfl rfl rfl rfl rfl rfl rfl rfl rfl rfl)

theorem fr_ledgerEval (n : Nat) (s : State) : Fr s (ledgerEval n s) := by
  induction n generalizing s with
  | zero => exact .refl s
  | succ n ih =>
    unfold ledgerEval
    extract_lets o s1
    split
    · rename_i e
      split at e
      · exact (fr_ledgerRevoke e).trans (ih _)
      · cases e
    · split
      · split
        · exact .refl s
        · exact Fr.after (fq_logEvent ..).fr (Fr.upd _ rfl rfl rfl rfl rfl rfl rfl rfl rfl rfl)
      · split <;> exact Fr.upd s rfl rfl rfl rfl rfl rfl rfl rfl rfl rfl

/-! ### Health -/

theorem fq_putSub (a1) (a2) (s : State) : Fq s (putSub a1 a2 s) := by
  unfold putSub
  try dsimp only
  repeat' (with_reducible first
    | exact Fq.refl _ | (apply Fq.after; apply fq_wr))

theorem fq_buildSub (a1) (a2) (a3) (s : State) : Fq s (buildSub a1 a2 a3 s) := by
  unfold buildSub
  try dsimp only
  repeat' (first
    | (with_reducible first
        | exact Fq.refl _ | apply Fq.ite | (apply Fq.after; apply fq_putSub) | (apply Fq.after; apply fq_logEvent)
        | (apply Fq.after; apply fq_modNhl) | (apply Fq.after; apply fq_setF) | refine Fq.of_fst ‹_ = _› ?_
        | refine Fq.of_snd ‹_ = _› ?_ | refine Fq.of_thd ‹_ = _› ?_ | fail_if_no_progress (apply Fq.after; (apply Fq.upd) <;> rfl))
    | split)

theorem fq_freeSub (a1) (a2) (a3) (s : State) : Fq s (freeSub a1 a2 a3 s) := by
  unfold freeSub
  try dsimp only
  repeat' (first
    | (with_reducible first
        | exact Fq.refl _ | apply Fq.ite | (apply Fq.after; apply fq_modNhl) | (apply Fq.after; apply fq_setF)
        | fail_if_no_progress (apply Fq.after; (apply Fq.upd) <;> rfl))
    | split)

theorem fq_outChanged (a1) (a2) (a3) (a4) (s : State) : Fq s (outChanged a1 a2 a3 a4 s) := by
  unfold outChanged
  try dsimp only
  repeat' (first
    | (with_reducible first
        | exact Fq.refl _ | apply Fq.ite | (apply Fq.after; apply fq_buildSub) | (apply Fq.after; apply fq_freeSub))
    | split)

theorem fq_transition (a1) (a2) (a3) (a4) (s : State) : Fq s (transition a1 a2 a3 a4 s) := by
  unfold transition
  try dsimp only
  repeat' (first
    | (with_reducible first
        | exact Fq.refl _ | apply Fq.ite | (apply Fq.after; apply fq_logEvent) | (apply Fq.after; apply fq_modNhl)
        | fail_if_no_progress (apply Fq.after; (apply Fq.upd) <;> rfl))
    | split)

theorem fq_applyResult (a1) (a2) (a3) (a4) (a5) (a6) (s : State) : Fq s (applyResult a1 a2 a3 a4 a5 a6 s) := by
  unfold applyResult
  try dsimp only
  repeat' (first
    | (with_reducible first
        | exact Fq.refl _ | intro i s | intro s | apply Fq.ite | (apply Fq.after; apply fq_wr) | (apply Fq.after; apply fq_outChanged)
        | (apply Fq.after; apply fq_transition) | (apply Fq.after; apply fq_foldl))
    | split)

theorem fq_serviceCheck (a1) (s : State) : Fq s (serviceCheck a1 s) := by
  unfold serviceCheck
  try dsimp only
  repeat' (first
    | (with_reducible first
        | exact Fq.refl _ | apply Fq.ite | (apply Fq.after; apply fq_logEvent) | (apply Fq.after; apply fq_modNhl)
        | fail_if_no_progress (apply Fq.after; (apply Fq.upd) <;> rfl))
    | split)

theorem fq_healthClear (a1) (s : State) : Fq s (healthClear a1 s) := by
  unfold healthClear
  try dsimp only
  repeat' (with_reducible first
    | exact Fq.refl _ | intro i s | intro s | (apply Fq.after; apply fq_modNhl) | (apply Fq.after; apply fq_setF)
    | (apply Fq.after; apply fq_dropRegs) | (apply Fq.after; apply fq_serviceCheck) | (apply Fq.after; apply fq_forEach)
    | fail_if_no_progress (apply Fq.after; (apply Fq.upd) <;> rfl))

theorem fq_latchScan (a1) (s : State) : Fq s (latchScan a1 s) := by
  unfold latchScan
  try dsimp only
  repeat' (with_reducible first
    | exact Fq.refl _ | (apply Fq.after; apply fq_modNhl) | fail_if_no_progress (apply Fq.after; (apply Fq.upd) <;> rfl))

theorem fq_latchSpit (a1) (s : State) : Fq s (latchSpit a1 s) := by
  unfold latchSpit
  try dsimp only
  repeat' (with_reducible first
    | exact Fq.refl _ | (apply Fq.after; apply fq_modNhl) | fail_if_no_progress (apply Fq.after; (apply Fq.upd) <;> rfl))

theorem fq_scanAdvance (a1) (s : State) : Fq s (scanAdvance a1 s) := by
  unfold scanAdvance
  try dsimp only
  repeat' (first
    | (with_reducible first
        | exact Fq.refl _ | apply Fq.ite | (apply Fq.after; apply fq_modNhl) | refine Fq.of_fst ‹_ = _› ?_ | refine Fq.of_snd ‹_ = _› ?_
        | refine Fq.of_thd ‹_ = _› ?_ | fail_if_no_progress (apply Fq.after; (apply Fq.upd) <;> rfl))
    | split)

theorem fq_scanRow (a1) (s : State) : Fq s (scanRow a1 s) := by
  unfold scanRow
  try dsimp only
  repeat' (first
    | (with_reducible first
        | exact Fq.refl _ | apply Fq.ite | (apply Fq.after; apply fq_modNhl) | refine Fq.of_fst ‹_ = _› ?_ | refine Fq.of_snd ‹_ = _› ?_
        | refine Fq.of_thd ‹_ = _› ?_ | fail_if_no_progress (apply Fq.after; (apply Fq.upd) <;> rfl))
    | split)

theorem fq_sendDdscan (a1) (s : State) : Fq s (sendDdscan a1 s) := by
  unfold sendDdscan
  try dsimp only
  repeat' (with_reducible first
    | exact Fq.refl _ | (apply Fq.after; apply fq_modNhl) | (apply Fq.after; apply fq_latchScan) | (apply Fq.after; apply fq_sendCtrl)
    | fail_if_no_progress (apply Fq.after; (apply Fq.upd) <;> rfl))

/-! ### Banks -/

theorem fq_eccCorrected (a1) (a2) (s : State) : Fq s (eccCorrected a1 a2 s) := by
  unfold eccCorrected
  try dsimp only
  repeat' (first
    | (with_reducible first
        | exact Fq.refl _ | apply Fq.ite | (apply Fq.after; apply fq_logEvent) | (apply Fq.after; apply fq_incF)
        | refine Fq.of_fst ‹_ = _› ?_ | refine Fq.of_snd ‹_ = _› ?_ | refine Fq.of_thd ‹_ = _› ?_
        | fail_if_no_progress (apply Fq.after; (apply Fq.upd) <;> rfl))
    | split)

theorem fq_eccUncorr (a1) (a2) (s : State) : Fq s (eccUncorr a1 a2 s) := by
  unfold eccUncorr
  try dsimp only
  repeat' (with_reducible first
    | exact Fq.refl _ | (apply Fq.after; apply fq_logEvent) | (apply Fq.after; apply fq_setF) | (apply Fq.after; apply fq_wr)
    | (apply Fq.after; apply fq_incF))

theorem fq_eccErrors (a1) (a2) (a3) (a4) (s : State) : Fq s (eccErrors a1 a2 a3 a4 s) := by
  unfold eccErrors
  try dsimp only
  repeat' (first
    | (with_reducible first
        | exact Fq.refl _ | intro i s | intro s | apply Fq.ite | (apply Fq.after; apply fq_eccCorrected)
        | (apply Fq.after; apply fq_eccUncorr) | (apply Fq.after; apply fq_foldl))
    | split)

theorem fq_marchYield (a1) (a2) (s : State) : Fq s (marchYield a1 a2 s) := by
  unfold marchYield
  repeat' (first
    | (with_reducible first
        | exact Fq.refl _ | apply Fq.ite | (apply Fq.after; apply fq_setF) | (apply Fq.after; apply fq_incF)
        | refine Fq.of_fst ‹_ = _› ?_ | refine Fq.of_snd ‹_ = _› ?_ | refine Fq.of_thd ‹_ = _› ?_
        | fail_if_no_progress (apply Fq.after; (apply Fq.upd) <;> rfl))
    | split)

end Sys2Proof.Machine
end

