-- ==== Sys2Proof/Laws/FramePrint.lean ====
section
/-!
SUPPORT. What the operations keep, one lemma for each operation (the dot path, firing, bring-up's parts, the head link and the scanning unit): `Fq` the frame of an operation that leaves the global state
to the events, `Fr` and `Kp` the weaker ones (Laws/Frame.lean).
-/
set_option linter.unreachableTactic false
set_option linter.unusedTactic false
set_option linter.unusedVariables false

namespace Sys2Proof.Machine

/-! ### Dot -/

theorem fq_gapStart (a1) (a2) (a3) (s : State) : Fq s (gapStart a1 a2 a3 s) := by
  unfold gapStart
  try dsimp only
  repeat' (first
    | (with_reducible first
        | exact Fq.refl _ | apply Fq.ite | (apply Fq.after; apply fq_latchSpit) | (apply Fq.after; apply fq_modNhl)
        | (apply Fq.after; apply fq_latchScan) | (apply Fq.after; apply fq_scanRow) | (apply Fq.after; apply fq_sendDdscan)
        | refine Fq.of_fst ‹_ = _› ?_ | refine Fq.of_snd ‹_ = _› ?_ | refine Fq.of_thd ‹_ = _› ?_
        | fail_if_no_progress (apply Fq.after; (apply Fq.upd) <;> rfl))
    | split)

theorem fq_gapSettle (a1) (a2) (a3) (s : State) : Fq s (gapSettle a1 a2 a3 s) := by
  unfold gapSettle
  try dsimp only
  repeat' (first
    | (with_reducible first
        | exact Fq.refl _ | apply Fq.ite | (apply Fq.after; apply fq_modNhl))
    | split)

theorem fr_assemble (a1) (a2) (s : State) : Fr s (assemble a1 a2 s).1 := by
  unfold assemble
  try dsimp only
  repeat' (first
    | (with_reducible first
        | exact Fr.refl _ | intro i s | intro s | apply Fr.ite | (apply Fr.after; apply Fq.fr; apply fq_logEvent)
        | (apply Fr.after; apply Fq.fr; apply fq_gapStart) | (apply Fr.after; apply Fq.fr; apply fq_gapSettle)
        | (apply Fr.after; apply Fq.fr; apply fq_addF) | (apply Fr.after; apply fr_decideLine) | (apply Fr.after; apply fr_foldl)
        | refine Fr.of_fst ‹_ = _› ?_ | refine Fr.of_snd ‹_ = _› ?_ | refine Fr.of_thd ‹_ = _› ?_
        | fail_if_no_progress (apply Fr.after; (apply Fr.upd) <;> rfl))
    | split)

theorem fq_loadBank (a1) (a2) (a3) (a4) (a5) (s : State) : Fq s (loadBank a1 a2 a3 a4 a5 s) := by
  unfold loadBank
  try dsimp only
  repeat' (with_reducible first
    | exact Fq.refl _ | (apply Fq.after; apply fq_modHlp) | (apply Fq.after; apply fq_sendCtrl)
    | fail_if_no_progress (apply Fq.after; (apply Fq.upd) <;> rfl))

theorem fq_bankChange (a1) (s : State) : Fq s (bankChange a1 s) := by
  unfold bankChange
  try dsimp only
  repeat' (first
    | (with_reducible first
        | exact Fq.refl _ | apply Fq.ite | (apply Fq.after; apply fq_modHlp) | (apply Fq.after; apply fq_loadBank)
        | refine Fq.of_fst ‹_ = _› ?_ | refine Fq.of_snd ‹_ = _› ?_ | refine Fq.of_thd ‹_ = _› ?_
        | fail_if_no_progress (apply Fq.after; (apply Fq.upd) <;> rfl))
    | split)

theorem fq_bankChanged (a1) (a2 : State) (s : State) : Fq s (bankChanged a1 a2 s) := by
  unfold bankChanged
  repeat' (first
    | (with_reducible first
        | exact Fq.refl _ | apply Fq.ite | (apply Fq.after; apply fq_bankChange))
    | split)

theorem fq_bankFor (p : Nat) (l : FLine) (s : State) {b : Nat} {t : State} (h : bankFor p l s = some (b, t)) : Fq s t := by
  unfold bankFor at h
  dsimp only at h
  split at h
  · cases h; exact .refl s
  · split at h
    · cases h; exact fq_modHlp ..
    · split at h
      · cases h; exact (fq_loadBank ..).trans (fq_modHlp ..)
      · cases h

theorem fq_bankRetry (a1) (s : State) : Fq s (bankRetry a1 s) := by
  unfold bankRetry
  repeat' (first
    | (with_reducible first
        | exact Fq.refl _ | apply Fq.ite | (apply Fq.after; apply fq_bankChange))
    | split)

theorem fr_pumpPipe (a1) (s : State) : Fr s (pumpPipe a1 s) := by
  unfold pumpPipe
  try dsimp only
  repeat' (first
    | (with_reducible first
        | exact Fr.refl _ | apply Fr.ite | (apply Fr.after; apply Fq.fr; apply fq_modDot) | (apply Fr.after; apply fr_assemble)
        | (apply Fr.after; apply Fq.fr; apply fq_spaceCheck) | fail_if_no_progress (apply Fr.after; (apply Fr.upd) <;> rfl))
    | split)

theorem fr_commitTo (a1) (a2) (a3) (s : State) : Fr s (commitTo a1 a2 a3 s) := by
  unfold commitTo
  try dsimp only
  repeat' (first
    | (with_reducible first
        | exact Fr.refl _ | apply Fr.ite | (apply Fr.after; apply Fq.fr; apply fq_logEvent) | (apply Fr.after; apply fr_pumpPipe)
        | (apply Fr.after; apply Fq.fr; apply fq_modDot) | fail_if_no_progress (apply Fr.after; (apply Fr.upd) <;> rfl))
    | split)

theorem fq_pipeSweep (a1) (a2) (s : State) : Fq s (pipeSweep a1 a2 s) := by
  unfold pipeSweep
  try dsimp only
  repeat' (first
    | (with_reducible first
        | exact Fq.refl _ | apply Fq.ite | (apply Fq.after; apply fq_modNhl) | (apply Fq.after; apply fq_modDot)
        | (apply Fq.after; apply fq_spaceCheck) | fail_if_no_progress (apply Fq.after; (apply Fq.upd) <;> rfl))
    | split)

theorem fr_pumpReady (a1) (s : State) : Fr s (pumpReady a1 s) := by
  unfold pumpReady
  try dsimp only
  repeat' (first
    | (with_reducible first
        | exact Fr.refl _ | apply Fr.ite | (apply Fr.after; apply Fq.fr; apply fq_pipeSweep) | (apply Fr.after; apply fr_pumpPipe))
    | split)

theorem fr_pipeUp (a1) (s : State) : Fr s (pipeUp a1 s) := by
  unfold pipeUp
  repeat' (first
    | (with_reducible first
        | exact Fr.refl _ | intro i s | intro s | apply Fr.ite | (apply Fr.after; apply Fq.fr; apply fq_setPipe)
        | (apply Fr.after; apply fr_pumpReady))
    | split)

theorem fr_pipeEnable (a1) (s : State) : Fr s (pipeEnable a1 s) := by
  unfold pipeEnable
  try dsimp only
  repeat' (with_reducible first
    | exact Fr.refl _ | (apply Fr.after; apply fr_pipeUp) | (apply Fr.after; apply Fq.fr; apply fq_setF)
    | (apply Fr.after; apply Fq.fr; apply fq_modDot) | (apply Fr.after; apply Fq.fr; apply fq_wr)
    | fail_if_no_progress (apply Fr.after; (apply Fr.upd) <;> rfl))

theorem fq_ringEmpty (a1) (a2) (a3) (s : State) : Fq s (ringEmpty a1 a2 a3 s) := by
  unfold ringEmpty
  try dsimp only
  repeat' (with_reducible first
    | exact Fq.refl _ | (apply Fq.after; apply fq_modDot) | (apply Fq.after; apply fq_spaceCheck)
    | fail_if_no_progress (apply Fq.after; (apply Fq.upd) <;> rfl))

theorem fr_pipeTable (a1) (a2) (s : State) : Fr s (pipeTable a1 a2 s).2.2 := by
  unfold pipeTable
  try dsimp only
  repeat' (first
    | (with_reducible first
        | exact Fr.refl _ | apply Fr.ite | (apply Fr.after; apply fr_pipeUp) | (apply Fr.after; apply Fq.fr; apply fq_pipeOff)
        | (apply Fr.after; apply fr_pipeEnable) | (apply Fr.after; apply Fq.fr; apply fq_ringEmpty) | refine Fr.of_fst ‹_ = _› ?_
        | refine Fr.of_snd ‹_ = _› ?_ | refine Fr.of_thd ‹_ = _› ?_ | fail_if_no_progress (apply Fr.after; (apply Fr.upd) <;> rfl))
    | split)

theorem fq_dotResult (a1) (a2) (a3) (a4) (a5) (s : State) : Fq s (dotResult a1 a2 a3 a4 a5 s) := by
  unfold dotResult
  try dsimp only
  repeat' (first
    | (with_reducible first
        | exact Fq.refl _ | apply Fq.ite | (apply Fq.after; apply fq_logEvent) | (apply Fq.after; apply fq_wr))
    | split)

theorem fr_dotCmd (a1) (a2) (a3) (s : State) : Fr s (dotCmd a1 a2 a3 s) := by
  unfold dotCmd
  try dsimp only
  repeat' (first
    | (with_reducible first
        | exact Fr.refl _ | apply Fr.ite | (apply Fr.after; apply fr_pipeTable) | (apply Fr.after; apply Fq.fr; apply fq_dotResult))
    | split)

theorem fr_waddWrite (a1) (a2) (s : State) : Fr s (waddWrite a1 a2 s) := by
  unfold waddWrite
  repeat' (with_reducible first
    | exact Fr.refl _ | (apply Fr.after; apply fr_commitTo))

theorem fr_wlineWrite (a1) (a2) (s : State) : Fr s (wlineWrite a1 a2 s) := by
  unfold wlineWrite
  repeat' (with_reducible first
    | exact Fr.refl _ | (apply Fr.after; apply fr_commitTo))

theorem fq_modLine (a1) (a2) (a3) (s : State) : Fq s (modLine a1 a2 a3 s) := by
  unfold modLine
  try dsimp only
  repeat' (first
    | (with_reducible first
        | exact Fq.refl _ | apply Fq.ite | (apply Fq.after; apply fq_modHlp)
        | fail_if_no_progress (apply Fq.after; (apply Fq.upd) <;> rfl))
    | split)

theorem fq_portPump (n p : Nat) (s : State) : Fq s (portPump n p s) := by
  induction n generalizing s with
  | zero => exact .refl s
  | succ n ih =>
    unfold portPump
    refine Fq.trans (fq_bankRetry p s) ?_
    generalize bankRetry p s = s
    dsimp only
    split
    · exact .refl s
    · refine Fq.ite (.refl s) (Fq.ite (Fq.ite ((fq_cancelSkipped ..).trans (ih _)) (.refl s)) ?_)
      split
      · exact .refl s
      · rename_i e
        refine Fq.after (ih _) ?_
        refine Fq.after (fq_sendFrame ..) ?_
        refine Fq.after (fq_sendFrame ..) ?_
        exact (fq_bankFor _ _ _ e).trans (fq_modLine ..)

theorem fq_lowCheck (a1) (a2) (s : State) : Fq s (lowCheck a1 a2 s) := by
  unfold lowCheck
  try dsimp only
  repeat' (first
    | (with_reducible first
        | exact Fq.refl _ | apply Fq.ite | (apply Fq.after; apply fq_logEvent) | (apply Fq.after; apply fq_modDot)
        | fail_if_no_progress (apply Fq.after; (apply Fq.upd) <;> rfl))
    | split)

theorem fr_predict (a1) (s : State) : Fr s (predict a1 s) := by
  unfold predict
  try dsimp only
  repeat' (first
    | (with_reducible first
        | exact Fr.refl _ | apply Fr.ite | (apply Fr.after; apply Fq.fr; apply fq_logEvent) | (apply Fr.after; apply fr_useInvar)
        | (apply Fr.after; apply Fq.fr; apply fq_setF) | (apply Fr.after; apply Fq.fr; apply fq_modDot)
        | (apply Fr.after; apply fr_ssAsk) | (apply Fr.after; apply Fq.fr; apply fq_lowCheck))
    | split)

theorem fq_gapRedo (a1) (s : State) : Fq s (gapRedo a1 s) := by
  unfold gapRedo
  try dsimp only
  repeat' (first
    | (with_reducible first
        | exact Fq.refl _ | apply Fq.ite | (apply Fq.after; apply fq_modNhl))
    | split)

theorem fq_loadBanks (a1) (s : State) : Fq s (loadBanks a1 s) := by
  unfold loadBanks
  try dsimp only
  repeat' (with_reducible first
    | exact Fq.refl _ | intro i s | intro s | (apply Fq.after; apply fq_modHlp) | (apply Fq.after; apply fq_loadBank)
    | (apply Fq.after; apply fq_forEach) | fail_if_no_progress (apply Fq.after; (apply Fq.upd) <;> rfl))

theorem fq_pipeAnew (a1) (s : State) : Fq s (pipeAnew a1 s) := by
  unfold pipeAnew
  try dsimp only
  repeat' (first
    | (with_reducible first
        | exact Fq.refl _ | apply Fq.ite | (apply Fq.after; apply fq_modHlp) | (apply Fq.after; apply fq_modDot)
        | fail_if_no_progress (apply Fq.after; (apply Fq.upd) <;> rfl))
    | split)

theorem fq_stopPipe (a1) (a2) (s : State) : Fq s (stopPipe a1 a2 s) := by
  unfold stopPipe
  try dsimp only
  repeat' (first
    | (with_reducible first
        | exact Fq.refl _ | intro i s | intro s | apply Fq.ite | (apply Fq.after; apply fq_sendCancel)
        | (apply Fq.after; apply fq_modHlp) | (apply Fq.after; apply fq_setPipe) | (apply Fq.after; apply fq_modDot)
        | (apply Fq.after; apply fq_wr) | (apply Fq.after; apply fq_foldl) | refine Fq.of_fst ‹_ = _› ?_ | refine Fq.of_snd ‹_ = _› ?_
        | refine Fq.of_thd ‹_ = _› ?_ | fail_if_no_progress (apply Fq.after; (apply Fq.upd) <;> rfl))
    | split)

theorem fq_stopAllPipes (a1) (s : State) : Fq s (stopAllPipes a1 s) := by
  unfold stopAllPipes
  try dsimp only
  repeat' (with_reducible first
    | exact Fq.refl _ | intro i s | intro s | (apply Fq.after; apply fq_stopPipe) | (apply Fq.after; apply fq_forEach))

theorem fr_underrun (a1) (a2) (a3) (s : State) : Fr s (underrun a1 a2 a3 s) := by
  unfold underrun
  repeat' (first
    | (with_reducible first
        | exact Fr.refl _ | apply Fr.ite | (apply Fr.after; apply Fq.fr; apply fq_stopAllPipes) | (apply Fr.after; apply fr_raise))
    | split)

/-! ### Sweep -/

theorem fr_caMove (a1) (s : State) : Fr s (caMove a1 s) := by
  unfold caMove
  try dsimp only
  repeat' (first
    | (with_reducible first
        | exact Fr.refl _ | apply Fr.ite | (apply Fr.after; apply Fq.fr; apply fq_unitVmax) | (apply Fr.after; apply fr_useSoft)
        | (apply Fr.after; apply Fq.fr; apply fq_unitMove))
    | split)

theorem fq_modScn (a1) (s : State) : Fq s (modScn a1 s) := by
  unfold modScn
  repeat' (with_reducible first
    | exact Fq.refl _ | fail_if_no_progress (apply Fq.after; (apply Fq.upd) <;> rfl))

theorem fq_sweepBreak (s : State) : Fq s (sweepBreak s) := by
  unfold sweepBreak
  try dsimp only
  repeat' (first
    | (with_reducible first
        | exact Fq.refl _ | intro i s | intro s | apply Fq.ite | (apply Fq.after; apply fq_modScn) | (apply Fq.after; apply fq_modGen)
        | (apply Fq.after; apply fq_setPipe) | (apply Fq.after; apply fq_setGen) | (apply Fq.after; apply fq_modDot)
        | (apply Fq.after; apply fq_wr) | (apply Fq.after; apply fq_forEach) | refine Fq.of_fst ‹_ = _› ?_ | refine Fq.of_snd ‹_ = _› ?_
        | refine Fq.of_thd ‹_ = _› ?_ | fail_if_no_progress (apply Fq.after; (apply Fq.upd) <;> rfl))
    | split)

theorem fq_sweepLaunched (s : State) : Fq s (sweepLaunched s) := by
  unfold sweepLaunched
  try dsimp only
  repeat' (first
    | (with_reducible first
        | exact Fq.refl _ | apply Fq.ite | (apply Fq.after; apply fq_raiseSig))
    | split)

theorem fr_sweepSetup (s : State) : Fr s (sweepSetup s) := by
  unfold sweepSetup
  try dsimp only
  repeat' (first
    | (with_reducible first
        | exact Fr.refl _ | apply Fr.ite | (apply Fr.after; apply Fq.fr; apply fq_modScn)
        | (apply Fr.after; apply Fq.fr; apply fq_logEvent) | (apply Fr.after; apply fr_caMove) | refine Fr.of_fst ‹_ = _› ?_
        | refine Fr.of_snd ‹_ = _› ?_ | refine Fr.of_thd ‹_ = _› ?_ | fail_if_no_progress (apply Fr.after; (apply Fr.upd) <;> rfl))
    | split)

/-! ### Firing -/

theorem fq_cancelWhenDue (a1) (s : State) : Fq s (cancelWhenDue a1 s) := by
  unfold cancelWhenDue
  try dsimp only
  repeat' (first
    | (with_reducible first
        | exact Fq.refl _ | apply Fq.ite | (apply Fq.after; apply fq_sendCancel))
    | split)

theorem fq_countLate (a1) (a2) (a3) (s : State) : Fq s (countLate a1 a2 a3 s) := by
  unfold countLate
  try dsimp only
  repeat' (first
    | (with_reducible first
        | exact Fq.refl _ | apply Fq.ite | (apply Fq.after; apply fq_logEvent) | (apply Fq.after; apply fq_modGen)
        | (apply Fq.after; apply fq_incF) | refine Fq.of_fst ‹_ = _› ?_ | refine Fq.of_snd ‹_ = _› ?_ | refine Fq.of_thd ‹_ = _› ?_
        | fail_if_no_progress (apply Fq.after; (apply Fq.upd) <;> rfl))
    | split)

theorem fq_resumeGen (a1) (s : State) : Fq s (resumeGen a1 s) := by
  unfold resumeGen
  try dsimp only
  repeat' (first
    | (with_reducible first
        | exact Fq.refl _ | intro i s | intro s | apply Fq.ite | (apply Fq.after; apply fq_ssFinish)
        | (apply Fq.after; apply fq_setPipe) | (apply Fq.after; apply fq_setGen) | (apply Fq.after; apply fq_forEach))
    | split)

theorem fq_lineOffsets (a1) (a2) (a3) (s : State) : Fq s (lineOffsets a1 a2 a3 s).1 := by
  unfold lineOffsets
  try dsimp only
  repeat' (first
    | (with_reducible first
        | exact Fq.refl _ | intro i s | intro s | apply Fq.ite | (apply Fq.after; apply fq_logEvent) | (apply Fq.after; apply fq_modGen)
        | (apply Fq.after; apply fq_incF) | (apply Fq.after; apply fq_drawFree) | (apply Fq.after; apply fq_forEach)
        | refine Fq.of_fst ‹_ = _› ?_ | refine Fq.of_snd ‹_ = _› ?_ | refine Fq.of_thd ‹_ = _› ?_
        | fail_if_no_progress (apply Fq.after; (apply Fq.upd) <;> rfl))
    | split)

theorem fr_lostLine (a1) (a2) (a3) (a4) (a5) (s : State) : Fr s (lostLine a1 a2 a3 a4 a5 s) := by
  unfold lostLine
  repeat' (first
    | (with_reducible first
        | exact Fr.refl _ | apply Fr.ite | (apply Fr.after; apply Fq.fr; apply fq_stopAllPipes) | (apply Fr.after; apply fr_raise))
    | split)

theorem fr_fireLine (a1) (a2) (a3) (a4) (a5) (s : State) : Fr s (fireLine a1 a2 a3 a4 a5 s) := by
  unfold fireLine
  try dsimp only
  repeat' (first
    | (with_reducible first
        | exact Fr.refl _ | apply Fr.ite | (apply Fr.after; apply Fq.fr; apply fq_modLine)
        | (apply Fr.after; apply Fq.fr; apply fq_lineOffsets) | (apply Fr.after; apply Fq.fr; apply fq_sendFrame)
        | (apply Fr.after; apply fr_lostLine) | (apply Fr.after; apply fr_underrun) | refine Fr.of_fst ‹_ = _› ?_
        | refine Fr.of_snd ‹_ = _› ?_ | refine Fr.of_thd ‹_ = _› ?_ | fail_if_no_progress (apply Fr.after; (apply Fr.upd) <;> rfl))
    | split)

theorem fr_commitGen (a1) (a2) (a3) (s : State) : Fr s (commitGen a1 a2 a3 s) := by
  unfold commitGen
  try dsimp only
  repeat' (first
    | (with_reducible first
        | exact Fr.refl _ | intro i s | intro s | apply Fr.ite | (apply Fr.after; apply Fq.fr; apply fq_resumeGen)
        | (apply Fr.after; apply fr_fireLine) | (apply Fr.after; apply fr_sweepSetup) | (apply Fr.after; apply Fq.fr; apply fq_modGen)
        | (apply Fr.after; apply Fq.fr; apply fq_wr) | (apply Fr.after; apply fr_forEach)
        | fail_if_no_progress (apply Fr.after; (apply Fr.upd) <;> rfl))
    | split)

theorem fr_commitAt (a1) (a2) (a3) (s : State) : Fr s (commitAt a1 a2 a3 s) := by
  unfold commitAt
  try dsimp only
  repeat' (first
    | (with_reducible first
        | exact Fr.refl _ | apply Fr.ite | (apply Fr.after; apply Fq.fr; apply fq_countLate) | (apply Fr.after; apply fr_commitGen))
    | split)

theorem fq_countUse (a1) (a2) (s : State) : Fq s (countUse a1 a2 s) := by
  unfold countUse
  try dsimp only
  repeat' (first
    | (with_reducible first
        | exact Fq.refl _ | apply Fq.ite | (apply Fq.after; apply fq_modHlp)
        | fail_if_no_progress (apply Fq.after; (apply Fq.upd) <;> rfl))
    | split)

theorem fq_firResult (a1) (a2) (a3) (a4) (s : State) : Fq s (firResult a1 a2 a3 a4 s) := by
  unfold firResult
  try dsimp only
  repeat' (first
    | (with_reducible first
        | exact Fq.refl _ | apply Fq.ite | (apply Fq.after; apply fq_logEvent) | (apply Fq.after; apply fq_wr))
    | split)

theorem fq_loadOrigin (a1) (a2) (s : State) : Fq s (loadOrigin a1 a2 s) := by
  unfold loadOrigin
  try dsimp only
  repeat' (with_reducible first
    | exact Fq.refl _ | (apply Fq.after; apply fq_modGen) | (apply Fq.after; apply fq_wr)
    | fail_if_no_progress (apply Fq.after; (apply Fq.upd) <;> rfl))

theorem fq_firCmd (a1) (a2) (s : State) : Fq s (firCmd a1 a2 s) := by
  unfold firCmd
  try dsimp only
  repeat' (first
    | (with_reducible first
        | exact Fq.refl _ | apply Fq.ite | (apply Fq.after; apply fq_firResult) | (apply Fq.after; apply fq_loadOrigin))
    | split)

theorem fq_refreshEn (a1) (s : State) : Fq s (refreshEn a1 s) := by
  unfold refreshEn
  repeat' (first
    | (with_reducible first
        | exact Fq.refl _ | apply Fq.ite | (apply Fq.after; apply fq_updateEn))
    | split)

theorem fr_refreshAll (s : State) : Fr s (refreshAll s) := by
  unfold refreshAll
  repeat' (first
    | (with_reducible first
        | exact Fr.refl _ | intro i s | intro s | apply Fr.ite | (apply Fr.after; apply fr_useInvar)
        | (apply Fr.after; apply Fq.fr; apply fq_refreshEn) | (apply Fr.after; apply fr_forEach))
    | split)

theorem fq_modGate (a1) (s : State) : Fq s (modGate a1 s) := by
  unfold modGate
  repeat' (with_reducible first
    | exact Fq.refl _ | fail_if_no_progress (apply Fq.after; (apply Fq.upd) <;> rfl))

theorem fr_gatePorts (a1) (a2) (a3) (s : State) : Fr s (gatePorts a1 a2 a3 s) := by
  unfold gatePorts
  repeat' (with_reducible first
    | exact Fr.refl _ | intro i s | intro s | (apply Fr.after; apply Fq.fr; apply fq_hardGate) | (apply Fr.after; apply fr_raise)
    | (apply Fr.after; apply fr_forEach))

theorem fr_killAct (s : State) : Fr s (killAct s) := by
  unfold killAct
  repeat' (with_reducible first
    | exact Fr.refl _ | (apply Fr.after; apply fr_gatePorts) | (apply Fr.after; apply Fq.fr; apply fq_setFlag))

theorem fr_hopenAct (a1) (a2) (s : State) : Fr s (hopenAct a1 a2 s) := by
  unfold hopenAct
  repeat' (first
    | (with_reducible first
        | exact Fr.refl _ | apply Fr.ite | (apply Fr.after; apply fr_gatePorts) | (apply Fr.after; apply Fq.fr; apply fq_setFlag))
    | split)

theorem fr_jamAct (a1) (s : State) : Fr s (jamAct a1 s) := by
  unfold jamAct
  repeat' (first
    | (with_reducible first
        | exact Fr.refl _ | apply Fr.ite | (apply Fr.after; apply Fq.fr; apply fq_setFlag) | (apply Fr.after; apply fr_raise))
    | split)

theorem fq_launchMonitor (a1) (s : State) : Fq s (launchMonitor a1 s) := by
  unfold launchMonitor
  try dsimp only
  repeat' (first
    | (with_reducible first
        | exact Fq.refl _ | apply Fq.ite | (apply Fq.after; apply fq_emit))
    | split)

theorem fr_lateCheck (a1) (a2) (s : State) : Fr s (lateCheck a1 a2 s) := by
  unfold lateCheck
  repeat' (first
    | (with_reducible first
        | exact Fr.refl _ | apply Fr.ite | (apply Fr.after; apply fr_underrun))
    | split)

theorem fq_launchHeld (a1) (a2) (s : State) : Fq s (launchHeld a1 a2 s) := by
  unfold launchHeld
  try dsimp only
  repeat' (with_reducible first
    | exact Fq.refl _ | (apply Fq.after; apply fq_modLine) | (apply Fq.after; apply fq_countUse)
    | (apply Fq.after; apply fq_modelUpdate) | fail_if_no_progress (apply Fq.after; (apply Fq.upd) <;> rfl))

theorem fr_throttleLine (a1) (s : State) : Fr s (throttleLine a1 s) := by
  unfold throttleLine
  try dsimp only
  repeat' (first
    | (with_reducible first
        | exact Fr.refl _ | apply Fr.ite | (apply Fr.after; apply fr_useInvar) | (apply Fr.after; apply Fq.fr; apply fq_modThm)
        | fail_if_no_progress (apply Fr.after; (apply Fr.upd) <;> rfl))
    | split)

theorem fr_launchPipe (a1) (a2) (s : State) : Fr s (launchPipe a1 a2 s) := by
  unfold launchPipe
  try dsimp only
  repeat' (first
    | (with_reducible first
        | exact Fr.refl _ | apply Fr.ite | (apply Fr.after; apply Fq.fr; apply fq_cancelWhenDue) | (apply Fr.after; apply fr_lateCheck)
        | (apply Fr.after; apply fr_pumpPipe) | (apply Fr.after; apply Fq.fr; apply fq_launchHeld)
        | (apply Fr.after; apply Fq.fr; apply fq_modDot) | (apply Fr.after; apply fr_throttleLine) | (apply Fr.after; apply fr_predict)
        | refine Fr.of_fst ‹_ = _› ?_ | refine Fr.of_snd ‹_ = _› ?_ | refine Fr.of_thd ‹_ = _› ?_
        | fail_if_no_progress (apply Fr.after; (apply Fr.upd) <;> rfl))
    | split)

theorem fr_superviseCheck (a1) (s : State) : Fr s (superviseCheck a1 s) := by
  unfold superviseCheck
  try dsimp only
  repeat' (first
    | (with_reducible first
        | exact Fr.refl _ | apply Fr.ite | (apply Fr.after; apply fr_useInvar) | (apply Fr.after; apply Fq.fr; apply fq_modGen)
        | (apply Fr.after; apply fr_raise) | refine Fr.of_fst ‹_ = _› ?_ | refine Fr.of_snd ‹_ = _› ?_ | refine Fr.of_thd ‹_ = _› ?_
        | fail_if_no_progress (apply Fr.after; (apply Fr.upd) <;> rfl))
    | split)

theorem fq_genLaunched (a1) (a2) (s : State) : Fq s (genLaunched a1 a2 s) := by
  unfold genLaunched
  try dsimp only
  repeat' (first
    | (with_reducible first
        | exact Fq.refl _ | apply Fq.ite | (apply Fq.after; apply fq_modGen) | refine Fq.of_fst ‹_ = _› ?_ | refine Fq.of_snd ‹_ = _› ?_
        | refine Fq.of_thd ‹_ = _› ?_ | fail_if_no_progress (apply Fq.after; (apply Fq.upd) <;> rfl))
    | split)

theorem fq_lineFired (a1) (a2) (s : State) : Fq s (lineFired a1 a2 s) := by
  unfold lineFired
  try dsimp only
  repeat' (first
    | (with_reducible first
        | exact Fq.refl _ | apply Fq.ite | (apply Fq.after; apply fq_modNhl)
        | fail_if_no_progress (apply Fq.after; (apply Fq.upd) <;> rfl))
    | split)

theorem fr_mediaAct (s : State) : Fr s (mediaAct s) := by
  unfold mediaAct
  try dsimp only
  repeat' (first
    | (with_reducible first
        | exact Fr.refl _ | apply Fr.ite | (apply Fr.after; apply Fq.fr; apply fq_setFlag) | (apply Fr.after; apply fr_raise)
        | refine Fr.of_fst ‹_ = _› ?_ | refine Fr.of_snd ‹_ = _› ?_ | refine Fr.of_thd ‹_ = _› ?_
        | fail_if_no_progress (apply Fr.after; (apply Fr.upd) <;> rfl))
    | split)

theorem fq_retireBefore (a1) (a2) (s : State) : Fq s (retireBefore a1 a2 s) := by
  unfold retireBefore
  try dsimp only
  repeat' (first
    | (with_reducible first
        | exact Fq.refl _ | apply Fq.ite | (apply Fq.after; apply fq_modHlp) | (apply Fq.after; apply fq_modDot)
        | (apply Fq.after; apply fq_spaceCheck) | fail_if_no_progress (apply Fq.after; (apply Fq.upd) <;> rfl))
    | split)

theorem fr_skipLine (a1) (a2) (s : State) : Fr s (skipLine a1 a2 s) := by
  unfold skipLine
  try dsimp only
  repeat' (first
    | (with_reducible first
        | exact Fr.refl _ | intro i s | intro s | apply Fr.ite | (apply Fr.after; apply Fq.fr; apply fq_logEvent)
        | (apply Fr.after; apply fr_pumpPipe) | (apply Fr.after; apply Fq.fr; apply fq_modGen)
        | (apply Fr.after; apply Fq.fr; apply fq_retireBefore) | (apply Fr.after; apply fr_forEach)
        | fail_if_no_progress (apply Fr.after; (apply Fr.upd) <;> rfl))
    | split)

theorem fq_predictAt (a1) (a2) (s : State) : Fq s (predictAt s a1 a2).2 := by
  unfold predictAt
  try dsimp only
  repeat' (first
    | (with_reducible first
        | exact Fq.refl _ | apply Fq.ite | (apply Fq.after; apply fq_drawFree) | refine Fq.of_fst ‹_ = _› ?_
        | refine Fq.of_snd ‹_ = _› ?_ | refine Fq.of_thd ‹_ = _› ?_ | fail_if_no_progress (apply Fq.after; (apply Fq.upd) <;> rfl))
    | split)

theorem fq_genSee (a1) (s : State) : Fq s (genSee a1 s) := by
  unfold genSee
  try dsimp only
  repeat' (first
    | (with_reducible first
        | exact Fq.refl _ | apply Fq.ite | (apply Fq.after; apply fq_modGen)
        | fail_if_no_progress (apply Fq.after; (apply Fq.upd) <;> rfl))
    | split)

theorem fq_noteDelayed (n g : Nat) (s : State) : Fq s (noteDelayed n g s) := by
  induction n generalizing s with
  | zero => exact .refl s
  | succ n ih => exact Fq.ite ((fq_modGen ..).trans (ih _)) (.refl s)

theorem fr_reactiveRule (n g : Nat) (s : State) : Fr s (reactiveRule n g s) := by
  induction n generalizing s with
  | zero => exact .refl s
  | succ n ih =>
    unfold reactiveRule
    dsimp only
    refine Fr.ite (.refl s) (Fr.ite ((fq_sweepBreak _).fr) (Fr.ite (fq_noteDelayed ..).fr (Fr.ite ((fr_skipLine ..).trans (ih _)) ?_)))
    refine Fr.after (fr_commitGen ..) ?_
    refine Fr.after (fq_genSee ..).fr ?_
    split
    · refine Fr.after (fq_incF ..).fr ?_
      split
      · exact (fq_countLate ..).fr
      · exact .refl s
    · split
      · exact (fq_countLate ..).fr
      · exact .refl s

theorem fr_predictSample (a1) (s : State) : Fr s (predictSample a1 s) := by
  unfold predictSample
  try dsimp only
  repeat' (first
    | (with_reducible first
        | exact Fr.refl _ | apply Fr.ite | (apply Fr.after; apply fr_skipLine) | (apply Fr.after; apply Fq.fr; apply fq_countLate)
        | (apply Fr.after; apply Fq.fr; apply fq_sweepBreak) | (apply Fr.after; apply fr_commitGen)
        | (apply Fr.after; apply Fq.fr; apply fq_modGen) | (apply Fr.after; apply Fq.fr; apply fq_setFallback)
        | (apply Fr.after; apply Fq.fr; apply fq_predictAt) | (apply Fr.after; apply fr_reactiveRule)
        | (apply Fr.after; apply Fq.fr; apply fq_genSee) | refine Fr.of_fst ‹_ = _› ?_ | refine Fr.of_snd ‹_ = _› ?_
        | refine Fr.of_thd ‹_ = _› ?_ | fail_if_no_progress (apply Fr.after; (apply Fr.upd) <;> rfl))
    | split)

theorem fq_pulseCheck (s : State) : Fq s (pulseCheck s) := by
  unfold pulseCheck
  try dsimp only
  repeat' (first
    | (with_reducible first
        | exact Fq.refl _ | intro i s | intro s | apply Fq.ite | (apply Fq.after; apply fq_logEvent)
        | (apply Fq.after; apply fq_forEach))
    | split)

theorem fq_waveWrite (a1) (a2) (s : State) : Fq s (waveWrite a1 a2 s) := by
  unfold waveWrite
  repeat' (with_reducible first
    | exact Fq.refl _ | (apply Fq.after; apply fq_bankChanged) | (apply Fq.after; apply fq_wr) | (apply Fq.after; apply fq_pulseCheck))

theorem fr_gatesAct (s : State) : Fr s (gatesAct s) := by
  unfold gatesAct
  try dsimp only
  repeat' (first
    | (with_reducible first
        | exact Fr.refl _ | intro i s | intro s | apply Fr.ite | (apply Fr.after; apply fr_useInvar)
        | (apply Fr.after; apply fr_mediaAct) | (apply Fr.after; apply fr_jamAct) | (apply Fr.after; apply fr_killAct)
        | (apply Fr.after; apply fr_hopenAct) | (apply Fr.after; apply fr_forEach))
    | split)

theorem fr_invarChanged (a1) (a2) (s : State) : Fr s (invarChanged a1 a2 s) := by
  unfold invarChanged
  try dsimp only
  repeat' (first
    | (with_reducible first
        | exact Fr.refl _ | intro i s | intro s | apply Fr.ite | (apply Fr.after; apply fr_refreshAll)
        | (apply Fr.after; apply fr_mediaAct) | (apply Fr.after; apply fr_jamAct) | (apply Fr.after; apply fr_hopenAct)
        | (apply Fr.after; apply fr_forEach))
    | split)

theorem fr_reactiveGens (a1) (s : State) : Fr s (reactiveGens a1 s) := by
  unfold reactiveGens
  try dsimp only
  repeat' (first
    | (with_reducible first
        | exact Fr.refl _ | intro i s | intro s | apply Fr.ite | (apply Fr.after; apply fr_reactiveRule)
        | (apply Fr.after; apply fr_forEach))
    | split)

/-! ### BruBase -/

theorem mv_bruCheck (s : State) : Mv s (bruCheck s) := by
  unfold bruCheck
  dsimp only
  split
  · rename_i h
    exact Mv.after (fq_logEvent ..).mv (fx_goto _ _ _ (by rw [h.1]; decide))
  · exact .refl s

theorem fq_bumpGen (a1) (s : State) : Fq s (bumpGen a1 s) := by
  unfold bumpGen
  try dsimp only
  repeat' (first
    | (with_reducible first
        | exact Fq.refl _ | apply Fq.ite | (apply Fq.after; apply fq_logEvent) | (apply Fq.after; apply fq_modHlp)
        | fail_if_no_progress (apply Fq.after; (apply Fq.upd) <;> rfl))
    | split)

theorem mv_resolvePort (a1) (a2) (a3) (s : State) : Mv s (resolvePort a1 a2 a3 s) := by
  unfold resolvePort
  try dsimp only
  repeat' (first
    | (with_reducible first
        | exact Mv.refl _ | apply Mv.ite | (apply Mv.after; apply Fq.mv; apply fq_logEvent)
        | (apply Mv.after; apply Fq.mv; apply fq_bumpGen) | (apply Mv.after; apply Fq.mv; apply fq_modHlp)
        | (apply Mv.after; apply mv_bruCheck) | (apply Mv.after; apply Fq.mv; apply fq_bruErr)
        | fail_if_no_progress (apply Mv.after; (apply Mv.upd) <;> rfl))
    | split)

/-! ### Link -/

theorem fq_memReads (n p : Nat) (o : MemOwner) (a k : Nat) (s : State) : Fq s (memReads n p o a k s) := by
  induction n generalizing a k s with
  | zero => exact .refl s
  | succ n ih =>
    unfold memReads
    dsimp only
    split
    · exact .refl s
    · exact (fq_memAsk ..).trans (ih ..)

theorem fq_acqDone (a1) (s : State) : Fq s (acqDone a1 s) := by
  unfold acqDone
  try dsimp only
  repeat' (first
    | (with_reducible first
        | exact Fq.refl _ | apply Fq.ite | (apply Fq.after; apply fq_modHlp) | (apply Fq.after; apply fq_memReads)
        | fail_if_no_progress (apply Fq.after; (apply Fq.upd) <;> rfl))
    | split)

theorem fq_acqRestart (a1) (s : State) : Fq s (acqRestart a1 s) := by
  unfold acqRestart
  try dsimp only
  repeat' (with_reducible first
    | exact Fq.refl _ | (apply Fq.after; apply fq_modHlp) | (apply Fq.after; apply fq_sendProbe)
    | fail_if_no_progress (apply Fq.after; (apply Fq.upd) <;> rfl))

theorem fq_acqSixteen (a1) (a2) (s : State) : Fq s (acqSixteen a1 a2 s) := by
  unfold acqSixteen
  try dsimp only
  repeat' (first
    | (with_reducible first
        | exact Fq.refl _ | intro i s | intro s | apply Fq.ite | (apply Fq.after; apply fq_logEvent)
        | (apply Fq.after; apply fq_sendSet) | (apply Fq.after; apply fq_modHlp) | (apply Fq.after; apply fq_sendProbe)
        | (apply Fq.after; apply fq_acqRestart) | (apply Fq.after; apply fq_foldl)
        | fail_if_no_progress (apply Fq.after; (apply Fq.upd) <;> rfl))
    | split)

theorem fq_readZones (a1) (a2) (s : State) : Fq s (readZones a1 a2 s) := by
  unfold readZones
  repeat' (first
    | (with_reducible first
        | exact Fq.refl _ | apply Fq.ite | (apply Fq.after; apply fq_memAsk))
    | split)

theorem fq_loadThermal (a1) (s : State) : Fq s (loadThermal a1 s) := by
  unfold loadThermal
  try dsimp only
  repeat' (first
    | (with_reducible first
        | exact Fq.refl _ | apply Fq.ite | (apply Fq.after; apply fq_logEvent) | (apply Fq.after; apply fq_modThm)
        | (apply Fq.after; apply fq_setF) | fail_if_no_progress (apply Fq.after; (apply Fq.upd) <;> rfl))
    | split)

theorem mv_activate (a1) (s : State) : Mv s (activate a1 s) := by
  unfold activate
  try dsimp only
  repeat' (first
    | (with_reducible first
        | exact Mv.refl _ | apply Mv.ite | (apply Mv.after; apply Fq.mv; apply fq_readZones)
        | (apply Mv.after; apply Fq.mv; apply fq_logEvent) | (apply Mv.after; apply Fq.mv; apply fq_loadBanks)
        | (apply Mv.after; apply Fq.mv; apply fq_bumpGen) | (apply Mv.after; apply Fq.mv; apply fq_loadThermal)
        | (apply Mv.after; apply Fq.mv; apply fq_seedModel) | (apply Mv.after; apply Fq.mv; apply fq_modThm)
        | (apply Mv.after; apply Fq.mv; apply fq_modHlp) | (apply Mv.after; apply Fq.mv; apply fq_modNhl)
        | (apply Mv.after; apply Fq.mv; apply fq_setF) | (apply Mv.after; apply mv_bruCheck)
        | (apply Mv.after; apply Fq.mv; apply fq_healthClear) | (apply Mv.after; apply Fq.mv; apply fq_updateEn)
        | refine Mv.of_fst ‹_ = _› ?_ | refine Mv.of_snd ‹_ = _› ?_ | refine Mv.of_thd ‹_ = _› ?_
        | fail_if_no_progress (apply Mv.after; (apply Mv.upd) <;> rfl))
    | split)

theorem fq_sendTs (a1) (a2) (a3) (s : State) : Fq s (sendTs a1 a2 a3 s) := by
  unfold sendTs
  try dsimp only
  repeat' (with_reducible first
    | exact Fq.refl _ | (apply Fq.after; apply fq_emit) | fail_if_no_progress (apply Fq.after; (apply Fq.upd) <;> rfl))

theorem fq_configSet (a1) (a2) (a3) (s : State) : Fq s (configSet a1 a2 a3 s) := by
  unfold configSet
  try dsimp only
  repeat' (first
    | (with_reducible first
        | exact Fq.refl _ | apply Fq.ite | (apply Fq.after; apply fq_sendTs) | (apply Fq.after; apply fq_modHlp)
        | fail_if_no_progress (apply Fq.after; (apply Fq.upd) <;> rfl))
    | split)

theorem fq_startAttempt (a1) (s : State) : Fq s (startAttempt a1 s) := by
  unfold startAttempt
  try dsimp only
  repeat' (first
    | (with_reducible first
        | exact Fq.refl _ | apply Fq.ite | (apply Fq.after; apply fq_sendTs) | (apply Fq.after; apply fq_modHlp)
        | fail_if_no_progress (apply Fq.after; (apply Fq.upd) <;> rfl))
    | split)

theorem fq_startSeries (a1) (s : State) : Fq s (startSeries a1 s) := by
  unfold startSeries
  try dsimp only
  repeat' (first
    | (with_reducible first
        | exact Fq.refl _ | apply Fq.ite | (apply Fq.after; apply fq_modHlp) | (apply Fq.after; apply fq_startAttempt)
        | fail_if_no_progress (apply Fq.after; (apply Fq.upd) <;> rfl))
    | split)

theorem fq_portDown (a1) (s : State) : Fq s (portDown a1 s) := by
  unfold portDown
  try dsimp only
  repeat' (first
    | (with_reducible first
        | exact Fq.refl _ | apply Fq.ite | (apply Fq.after; apply fq_modHlp) | (apply Fq.after; apply fq_hardGate)
        | (apply Fq.after; apply fq_setF) | fail_if_no_progress (apply Fq.after; (apply Fq.upd) <;> rfl))
    | split)

theorem fr_linkLoss (a1) (a2) (s : State) : Fr s (linkLoss a1 a2 s) := by
  unfold linkLoss
  try dsimp only
  repeat' (first
    | (with_reducible first
        | exact Fr.refl _ | apply Fr.ite | (apply Fr.after; apply Fq.fr; apply fq_logEvent)
        | (apply Fr.after; apply Fq.fr; apply fq_startSeries) | (apply Fr.after; apply Fq.fr; apply fq_svcAbort)
        | (apply Fr.after; apply Fq.fr; apply fq_bumpGen) | (apply Fr.after; apply Fq.fr; apply fq_modHlp)
        | (apply Fr.after; apply Fq.fr; apply fq_portDown) | (apply Fr.after; apply Fq.fr; apply fq_pipeOff)
        | (apply Fr.after; apply Fq.fr; apply fq_incF) | (apply Fr.after; apply fr_raise) | refine Fr.of_fst ‹_ = _› ?_
        | refine Fr.of_snd ‹_ = _› ?_ | refine Fr.of_thd ‹_ = _› ?_ | fail_if_no_progress (apply Fr.after; (apply Fr.upd) <;> rfl))
    | split)

theorem fr_discardFrame (a1) (s : State) : Fr s (discardFrame a1 s) := by
  unfold discardFrame
  try dsimp only
  repeat' (first
    | (with_reducible first
        | exact Fr.refl _ | apply Fr.ite | (apply Fr.after; apply Fq.fr; apply fq_modHlp) | (apply Fr.after; apply fr_linkLoss)
        | fail_if_no_progress (apply Fr.after; (apply Fr.upd) <;> rfl))
    | split)

theorem fr_driftCheck (a1) (a2) (s : State) : Fr s (driftCheck a1 a2 s) := by
  unfold driftCheck
  try dsimp only
  repeat' (first
    | (with_reducible first
        | exact Fr.refl _ | apply Fr.ite | (apply Fr.after; apply Fq.fr; apply fq_logEvent)
        | (apply Fr.after; apply Fq.fr; apply fq_sendSet) | (apply Fr.after; apply Fq.fr; apply fq_modHlp)
        | (apply Fr.after; apply fr_linkLoss) | fail_if_no_progress (apply Fr.after; (apply Fr.upd) <;> rfl))
    | split)

theorem fr_echo (a1) (a2) (a3) (s : State) : Fr s (echo a1 a2 a3 s) := by
  unfold echo
  try dsimp only
  repeat' (first
    | (with_reducible first
        | exact Fr.refl _ | apply Fr.ite | (apply Fr.after; apply Fq.fr; apply fq_acqDone)
        | (apply Fr.after; apply Fq.fr; apply fq_modHlp) | (apply Fr.after; apply Fq.fr; apply fq_acqSixteen)
        | (apply Fr.after; apply fr_driftCheck) | (apply Fr.after; apply Fq.fr; apply fq_acqRestart)
        | fail_if_no_progress (apply Fr.after; (apply Fr.upd) <;> rfl))
    | split)

theorem fq_hotEnd (a1) (s : State) : Fq s (hotEnd a1 s) := by
  unfold hotEnd
  try dsimp only
  repeat' (with_reducible first
    | exact Fq.refl _ | (apply Fq.after; apply fq_modHlp) | fail_if_no_progress (apply Fq.after; (apply Fq.upd) <;> rfl))

theorem fq_trainSet (a1) (a2) (a3) (s : State) : Fq s (trainSet a1 a2 a3 s) := by
  unfold trainSet
  try dsimp only
  repeat' (first
    | (with_reducible first
        | exact Fq.refl _ | apply Fq.ite | (apply Fq.after; apply fq_sendTs) | (apply Fq.after; apply fq_configSet)
        | (apply Fq.after; apply fq_modHlp) | (apply Fq.after; apply fq_hotEnd) | (apply Fq.after; apply fq_sendProbe)
        | refine Fq.of_fst ‹_ = _› ?_ | refine Fq.of_snd ‹_ = _› ?_ | refine Fq.of_thd ‹_ = _› ?_
        | fail_if_no_progress (apply Fq.after; (apply Fq.upd) <;> rfl))
    | split)

theorem fq_failAttempt (a1) (a2) (s : State) : Fq s (failAttempt a1 a2 s) := by
  unfold failAttempt
  try dsimp only
  repeat' (with_reducible first
    | exact Fq.refl _ | (apply Fq.after; apply fq_logEvent) | (apply Fq.after; apply fq_modHlp)
    | fail_if_no_progress (apply Fq.after; (apply Fq.upd) <;> rfl))

theorem mv_identEnd (a1) (s : State) : Mv s (identEnd a1 s) := by
  unfold identEnd
  try dsimp only
  repeat' (first
    | (with_reducible first
        | exact Mv.refl _ | apply Mv.ite | (apply Mv.after; apply Fq.mv; apply fq_logEvent) | (apply Mv.after; apply mv_activate)
        | (apply Mv.after; apply mv_resolvePort) | (apply Mv.after; apply Fq.mv; apply fq_modHlp)
        | (apply Mv.after; apply Fq.mv; apply fq_hotEnd) | refine Mv.of_fst ‹_ = _› ?_ | refine Mv.of_snd ‹_ = _› ?_
        | refine Mv.of_thd ‹_ = _› ?_ | fail_if_no_progress (apply Mv.after; (apply Mv.upd) <;> rfl))
    | split)

theorem fq_portsReacquire (s : State) : Fq s (portsReacquire s) := by
  unfold portsReacquire
  repeat' (with_reducible first
    | exact Fq.refl _ | intro i s | intro s | (apply Fq.after; apply fq_acqRestart) | (apply Fq.after; apply fq_forEach))

/-! ### LinkFrames -/

theorem fq_detectorFault (a1) (a2) (a3) (s : State) : Fq s (detectorFault a1 a2 a3 s) := by
  unfold detectorFault
  try dsimp only
  repeat' (first
    | (with_reducible first
        | exact Fq.refl _ | apply Fq.ite | (apply Fq.after; apply fq_logEvent) | (apply Fq.after; apply fq_modNhl)
        | fail_if_no_progress (apply Fq.after; (apply Fq.upd) <;> rfl))
    | split)

theorem fq_dropSent (a1) (a2) (s : State) : Fq s (dropSent a1 a2 s) := by
  unfold dropSent
  try dsimp only
  repeat' (with_reducible first
    | exact Fq.refl _ | (apply Fq.after; apply fq_modHlp) | fail_if_no_progress (apply Fq.after; (apply Fq.upd) <;> rfl))

theorem fq_resend (a1) (a2) (s : State) : Fq s (resend a1 a2 s) := by
  unfold resend
  try dsimp only
  repeat' (with_reducible first
    | exact Fq.refl _ | (apply Fq.after; apply fq_modHlp) | (apply Fq.after; apply fq_sendFrame) | (apply Fq.after; apply fq_incF)
    | fail_if_no_progress (apply Fq.after; (apply Fq.upd) <;> rfl))

theorem fr_fireLost (a1) (a2) (a3) (s : State) : Fr s (fireLost a1 a2 a3 s) := by
  unfold fireLost
  try dsimp only
  repeat' (first
    | (with_reducible first
        | exact Fr.refl _ | apply Fr.ite | (apply Fr.after; apply Fq.fr; apply fq_modHlp)
        | (apply Fr.after; apply Fq.fr; apply fq_modDot) | (apply Fr.after; apply Fq.fr; apply fq_svcSettle)
        | (apply Fr.after; apply fr_lostLine) | refine Fr.of_fst ‹_ = _› ?_ | refine Fr.of_snd ‹_ = _› ?_ | refine Fr.of_thd ‹_ = _› ?_
        | fail_if_no_progress (apply Fr.after; (apply Fr.upd) <;> rfl))
    | split)

theorem fq_softAsk (a1) (a2) (a3) (a4) (s : State) : Fq s (softAsk a1 a2 a3 a4 s) := by
  unfold softAsk
  try dsimp only
  repeat' (first
    | (with_reducible first
        | exact Fq.refl _ | apply Fq.ite | (apply Fq.after; apply fq_setF) | (apply Fq.after; apply fq_memAsk))
    | split)

theorem fq_hlpTable (a1) (a2) (s : State) : Fq s (hlpTable a1 a2 s).2 := by
  unfold hlpTable
  try dsimp only
  repeat' (first
    | (with_reducible first
        | exact Fq.refl _ | apply Fq.ite | (apply Fq.after; apply fq_startSeries) | (apply Fq.after; apply fq_softAsk)
        | (apply Fq.after; apply fq_portDown))
    | split)

theorem fq_hlpResult (a1) (a2) (a3) (a4) (s : State) : Fq s (hlpResult a1 a2 a3 a4 s) := by
  unfold hlpResult
  try dsimp only
  repeat' (first
    | (with_reducible first
        | exact Fq.refl _ | apply Fq.ite | (apply Fq.after; apply fq_logEvent) | (apply Fq.after; apply fq_setF))
    | split)

theorem fq_hlpCmd (a1) (a2) (a3) (s : State) : Fq s (hlpCmd a1 a2 a3 s) := by
  unfold hlpCmd
  try dsimp only
  repeat' (first
    | (with_reducible first
        | exact Fq.refl _ | apply Fq.ite | (apply Fq.after; apply fq_hlpTable) | (apply Fq.after; apply fq_hlpResult))
    | split)

theorem fq_frameAccepted (a1) (a2) (s : State) : Fq s (frameAccepted a1 a2 s) := by
  unfold frameAccepted
  try dsimp only
  repeat' (first
    | (with_reducible first
        | exact Fq.refl _ | apply Fq.ite | (apply Fq.after; apply fq_modHlp)
        | fail_if_no_progress (apply Fq.after; (apply Fq.upd) <;> rfl))
    | split)

theorem fq_fireAt (a1) (a2) (a3) (s : State) : Fq s (fireAt a1 a2 a3 s) := by
  unfold fireAt
  try dsimp only
  repeat' (first
    | (with_reducible first
        | exact Fq.refl _ | apply Fq.ite | (apply Fq.after; apply fq_modLine) | (apply Fq.after; apply fq_sendFrame)
        | fail_if_no_progress (apply Fq.after; (apply Fq.upd) <;> rfl))
    | split)

theorem fq_fireService (a1) (s : State) : Fq s (fireService a1 s) := by
  unfold fireService
  try dsimp only
  repeat' (first
    | (with_reducible first
        | exact Fq.refl _ | apply Fq.ite | (apply Fq.after; apply fq_fireAt) | (apply Fq.after; apply fq_modNhl)
        | refine Fq.of_fst ‹_ = _› ?_ | refine Fq.of_snd ‹_ = _› ?_ | refine Fq.of_thd ‹_ = _› ?_
        | fail_if_no_progress (apply Fq.after; (apply Fq.upd) <;> rfl))
    | split)

theorem fq_fireWarm (a1) (s : State) : Fq s (fireWarm a1 s) := by
  unfold fireWarm
  try dsimp only
  repeat' (first
    | (with_reducible first
        | exact Fq.refl _ | apply Fq.ite | (apply Fq.after; apply fq_fireAt) | (apply Fq.after; apply fq_modHlp)
        | refine Fq.of_fst ‹_ = _› ?_ | refine Fq.of_snd ‹_ = _› ?_ | refine Fq.of_thd ‹_ = _› ?_
        | fail_if_no_progress (apply Fq.after; (apply Fq.upd) <;> rfl))
    | split)

theorem fr_lack (a1) (a2) (a3) (s : State) : Fr s (lack a1 a2 a3 s) := by
  unfold lack
  try dsimp only
  repeat' (first
    | (with_reducible first
        | exact Fr.refl _ | apply Fr.ite | (apply Fr.after; apply fr_discardFrame)
        | (apply Fr.after; apply Fq.fr; apply fq_frameAccepted) | (apply Fr.after; apply Fq.fr; apply fq_fireService)
        | (apply Fr.after; apply Fq.fr; apply fq_resend) | (apply Fr.after; apply fr_fireLost)
        | (apply Fr.after; apply Fq.fr; apply fq_dropSent) | (apply Fr.after; apply Fq.fr; apply fq_fireWarm))
    | split)

theorem fq_usageBegin (a1) (s : State) : Fq s (usageBegin a1 s) := by
  unfold usageBegin
  try dsimp only
  repeat' (with_reducible first
    | exact Fq.refl _ | (apply Fq.after; apply fq_modHlp) | (apply Fq.after; apply fq_memReads)
    | fail_if_no_progress (apply Fq.after; (apply Fq.upd) <;> rfl))

theorem fq_usageNext (a1) (s : State) : Fq s (usageNext a1 s) := by
  unfold usageNext
  try dsimp only
  repeat' (first
    | (with_reducible first
        | exact Fq.refl _ | apply Fq.ite | (apply Fq.after; apply fq_modHlp) | (apply Fq.after; apply fq_usageBegin)
        | fail_if_no_progress (apply Fq.after; (apply Fq.upd) <;> rfl))
    | split)

theorem fq_softMem (a1) (a2) (a3) (a4) (s : State) : Fq s (softMem a1 a2 a3 a4 s) := by
  unfold softMem
  try dsimp only
  repeat' (first
    | (with_reducible first
        | exact Fq.refl _ | intro i s | intro s | apply Fq.ite | (apply Fq.after; apply fq_setF) | (apply Fq.after; apply fq_forEach))
    | split)

theorem fq_sumEnd (a1) (s : State) : Fq s (sumEnd a1 s) := by
  unfold sumEnd
  try dsimp only
  repeat' (first
    | (with_reducible first
        | exact Fq.refl _ | intro i s | intro s | apply Fq.ite | (apply Fq.after; apply fq_modHlp) | (apply Fq.after; apply fq_memAsk)
        | (apply Fq.after; apply fq_drawFree) | (apply Fq.after; apply fq_forEach) | refine Fq.of_fst ‹_ = _› ?_
        | refine Fq.of_snd ‹_ = _› ?_ | refine Fq.of_thd ‹_ = _› ?_ | fail_if_no_progress (apply Fq.after; (apply Fq.upd) <;> rfl))
    | split)

theorem fq_sumChunk (a1) (a2) (a3) (a4) (s : State) : Fq s (sumChunk a1 a2 a3 a4 s) := by
  unfold sumChunk
  try dsimp only
  repeat' (first
    | (with_reducible first
        | exact Fq.refl _ | apply Fq.ite | (apply Fq.after; apply fq_modHlp) | (apply Fq.after; apply fq_sumEnd)
        | refine Fq.of_fst ‹_ = _› ?_ | refine Fq.of_snd ‹_ = _› ?_ | refine Fq.of_thd ‹_ = _› ?_
        | fail_if_no_progress (apply Fq.after; (apply Fq.upd) <;> rfl))
    | split)

theorem mv_firstReadings (a1) (a2) (s : State) : Mv s (firstReadings a1 a2 s) := by
  unfold firstReadings
  try dsimp only
  repeat' (first
    | (with_reducible first
        | exact Mv.refl _ | apply Mv.ite | (apply Mv.after; apply Fq.mv; apply fq_seedModel)
        | (apply Mv.after; apply Fq.mv; apply fq_modThm) | (apply Mv.after; apply mv_zoneSample)
        | fail_if_no_progress (apply Mv.after; (apply Mv.upd) <;> rfl))
    | split)

theorem fq_usageChunk (a1) (a2) (a3) (s : State) : Fq s (usageChunk a1 a2 a3 s) := by
  unfold usageChunk
  try dsimp only
  repeat' (first
    | (with_reducible first
        | exact Fq.refl _ | apply Fq.ite | (apply Fq.after; apply fq_modHlp) | (apply Fq.after; apply fq_memAsk)
        | fail_if_no_progress (apply Fq.after; (apply Fq.upd) <;> rfl))
    | split)

theorem mv_memDone (a1) (a2) (a3) (a4) (s : State) : Mv s (memDone a1 a2 a3 a4 s) := by
  unfold memDone
  try dsimp only
  repeat' (first
    | (with_reducible first
        | exact Mv.refl _ | apply Mv.ite | (apply Mv.after; apply Fq.mv; apply fq_softMem)
        | (apply Mv.after; apply Fq.mv; apply fq_sumChunk) | (apply Mv.after; apply Fq.mv; apply fq_modHlp)
        | (apply Mv.after; apply mv_identEnd) | (apply Mv.after; apply mv_zoneSample) | (apply Mv.after; apply Fq.mv; apply fq_memAsk)
        | (apply Mv.after; apply mv_firstReadings) | (apply Mv.after; apply Fq.mv; apply fq_usageChunk) | refine Mv.of_fst ‹_ = _› ?_
        | refine Mv.of_snd ‹_ = _› ?_ | refine Mv.of_thd ‹_ = _› ?_ | fail_if_no_progress (apply Mv.after; (apply Mv.upd) <;> rfl))
    | split)

theorem fq_usageStart (a1) (s : State) : Fq s (usageStart a1 s) := by
  unfold usageStart
  try dsimp only
  repeat' (first
    | (with_reducible first
        | exact Fq.refl _ | apply Fq.ite | (apply Fq.after; apply fq_modHlp) | (apply Fq.after; apply fq_usageBegin)
        | fail_if_no_progress (apply Fq.after; (apply Fq.upd) <;> rfl))
    | split)

theorem fq_usageAll (s : State) : Fq s (usageAll s) := by
  unfold usageAll
  repeat' (with_reducible first
    | exact Fq.refl _ | intro i s | intro s | (apply Fq.after; apply fq_usageStart) | (apply Fq.after; apply fq_forEach))

/-! ### Nozzle -/

theorem fr_svcStart (a1) (a2) (s : State) : Fr s (svcStart a1 a2 s) := by
  unfold svcStart
  try dsimp only
  repeat' (first
    | (with_reducible first
        | exact Fr.refl _ | apply Fr.ite | (apply Fr.after; apply fr_ledgerRequest) | (apply Fr.after; apply Fq.fr; apply fq_logEvent)
        | (apply Fr.after; apply Fq.fr; apply fq_ledgerRelease) | (apply Fr.after; apply Fq.fr; apply fq_modNhl)
        | fail_if_no_progress (apply Fr.after; (apply Fr.upd) <;> rfl))
    | split)

theorem fr_svcPending (a1) (s : State) : Fr s (svcPending a1 s) := by
  unfold svcPending
  try dsimp only
  repeat' (first
    | (with_reducible first
        | exact Fr.refl _ | apply Fr.ite | (apply Fr.after; apply Fq.fr; apply fq_modNhl) | (apply Fr.after; apply fr_svcStart)
        | fail_if_no_progress (apply Fr.after; (apply Fr.upd) <;> rfl))
    | split)

theorem fr_svcEnd (a1) (s : State) : Fr s (svcEnd a1 s) := by
  unfold svcEnd
  try dsimp only
  repeat' (with_reducible first
    | exact Fr.refl _ | (apply Fr.after; apply Fq.fr; apply fq_logEvent) | (apply Fr.after; apply fr_svcPending)
    | (apply Fr.after; apply Fq.fr; apply fq_portPump) | (apply Fr.after; apply Fq.fr; apply fq_ledgerRelease)
    | (apply Fr.after; apply Fq.fr; apply fq_modNhl) | fail_if_no_progress (apply Fr.after; (apply Fr.upd) <;> rfl))

theorem fr_blockDone (a1) (s : State) : Fr s (blockDone a1 s) := by
  unfold blockDone
  try dsimp only
  repeat' (first
    | (with_reducible first
        | exact Fr.refl _ | apply Fr.ite | (apply Fr.after; apply fr_svcEnd) | (apply Fr.after; apply Fq.fr; apply fq_modNhl)
        | (apply Fr.after; apply Fq.fr; apply fq_sendDdscan) | (apply Fr.after; apply Fq.fr; apply fq_scanAdvance)
        | fail_if_no_progress (apply Fr.after; (apply Fr.upd) <;> rfl))
    | split)

theorem fq_svcGranted (a1) (s : State) : Fq s (svcGranted a1 s) := by
  unfold svcGranted
  try dsimp only
  repeat' (first
    | (with_reducible first
        | exact Fq.refl _ | apply Fq.ite | (apply Fq.after; apply fq_latchSpit) | (apply Fq.after; apply fq_modNhl)
        | (apply Fq.after; apply fq_scanRow) | (apply Fq.after; apply fq_sendDdscan) | refine Fq.of_fst ‹_ = _› ?_
        | refine Fq.of_snd ‹_ = _› ?_ | refine Fq.of_thd ‹_ = _› ?_ | fail_if_no_progress (apply Fq.after; (apply Fq.upd) <;> rfl))
    | split)

theorem fq_svcAbortCmd (a1) (s : State) : Fq s (svcAbortCmd a1 s) := by
  unfold svcAbortCmd
  try dsimp only
  repeat' (with_reducible first
    | exact Fq.refl _ | (apply Fq.after; apply fq_portPump) | (apply Fq.after; apply fq_svcAbort) | (apply Fq.after; apply fq_modNhl)
    | fail_if_no_progress (apply Fq.after; (apply Fq.upd) <;> rfl))

theorem fq_rebuildSubs (a1) (s : State) : Fq s (rebuildSubs a1 s) := by
  unfold rebuildSubs
  try dsimp only
  repeat' (first
    | (with_reducible first
        | exact Fq.refl _ | intro i s | intro s | apply Fq.ite | (apply Fq.after; apply fq_modNhl) | (apply Fq.after; apply fq_buildSub)
        | (apply Fq.after; apply fq_setF) | (apply Fq.after; apply fq_forEach) | (apply Fq.after; apply fq_foldl)
        | fail_if_no_progress (apply Fq.after; (apply Fq.upd) <;> rfl))
    | split)

theorem fr_nhlTable (a1) (a2) (s : State) : Fr s (nhlTable a1 a2 s).2 := by
  unfold nhlTable
  try dsimp only
  repeat' (first
    | (with_reducible first
        | exact Fr.refl _ | apply Fr.ite | (apply Fr.after; apply Fq.fr; apply fq_modNhl) | (apply Fr.after; apply fr_svcStart)
        | (apply Fr.after; apply Fq.fr; apply fq_svcAbortCmd) | (apply Fr.after; apply Fq.fr; apply fq_healthClear)
        | (apply Fr.after; apply Fq.fr; apply fq_rebuildSubs) | refine Fr.of_fst ‹_ = _› ?_ | refine Fr.of_snd ‹_ = _› ?_
        | refine Fr.of_thd ‹_ = _› ?_ | fail_if_no_progress (apply Fr.after; (apply Fr.upd) <;> rfl))
    | split)

theorem fr_nhlCmd (a1) (a2) (a3) (s : State) : Fr s (nhlCmd a1 a2 a3 s) := by
  unfold nhlCmd
  try dsimp only
  repeat' (first
    | (with_reducible first
        | exact Fr.refl _ | apply Fr.ite | (apply Fr.after; apply Fq.fr; apply fq_logEvent) | (apply Fr.after; apply Fq.fr; apply fq_wr)
        | (apply Fr.after; apply fr_nhlTable))
    | split)

theorem fq_gapWrite (a1) (a2) (s : State) : Fq s (gapWrite a1 a2 s) := by
  unfold gapWrite
  try dsimp only
  repeat' (first
    | (with_reducible first
        | exact Fq.refl _ | apply Fq.ite | (apply Fq.after; apply fq_modNhl) | (apply Fq.after; apply fq_setF)
        | refine Fq.of_fst ‹_ = _› ?_ | refine Fq.of_snd ‹_ = _› ?_ | refine Fq.of_thd ‹_ = _› ?_
        | fail_if_no_progress (apply Fq.after; (apply Fq.upd) <;> rfl))
    | split)

theorem fq_resultBad (s : State) : Fq s (resultBad s) := by
  unfold resultBad
  repeat' (with_reducible first
    | exact Fq.refl _ | (apply Fq.after; apply fq_incF))

theorem fq_hostResult (a1) (s : State) : Fq s (hostResult a1 s) := by
  unfold hostResult
  try dsimp only
  repeat' (first
    | (with_reducible first
        | exact Fq.refl _ | apply Fq.ite | (apply Fq.after; apply fq_logEvent) | (apply Fq.after; apply fq_resultBad)
        | (apply Fq.after; apply fq_applyResult) | (apply Fq.after; apply fq_incF) | (apply Fq.after; apply fq_serviceCheck)
        | fail_if_no_progress (apply Fq.after; (apply Fq.upd) <;> rfl))
    | split)

theorem fr_svcLine (a1) (s : State) : Fr s (svcLine a1 s) := by
  unfold svcLine
  try dsimp only
  repeat' (first
    | (with_reducible first
        | exact Fr.refl _ | apply Fr.ite | (apply Fr.after; apply Fq.fr; apply fq_portPump)
        | (apply Fr.after; apply Fq.fr; apply fq_modHlp) | (apply Fr.after; apply Fq.fr; apply fq_modNhl)
        | (apply Fr.after; apply fr_decideLine) | refine Fr.of_fst ‹_ = _› ?_ | refine Fr.of_snd ‹_ = _› ?_
        | refine Fr.of_thd ‹_ = _› ?_ | fail_if_no_progress (apply Fr.after; (apply Fr.upd) <;> rfl))
    | split)

theorem fq_headResult (a1) (a2) (s : State) : Fq s (headResult a1 a2 s) := by
  unfold headResult
  try dsimp only
  repeat' (first
    | (with_reducible first
        | exact Fq.refl _ | apply Fq.ite | (apply Fq.after; apply fq_resultBad) | (apply Fq.after; apply fq_applyResult)
        | (apply Fq.after; apply fq_detectorFault))
    | split)

theorem fq_healthWrite (a1) (a2) (s : State) : Fq s (healthWrite a1 a2 s) := by
  unfold healthWrite
  try dsimp only
  repeat' (first
    | (with_reducible first
        | exact Fq.refl _ | apply Fq.ite | (apply Fq.after; apply fq_modNhl) | (apply Fq.after; apply fq_buildSub)
        | (apply Fq.after; apply fq_setF) | (apply Fq.after; apply fq_wr) | (apply Fq.after; apply fq_serviceCheck)
        | fail_if_no_progress (apply Fq.after; (apply Fq.upd) <;> rfl))
    | split)

theorem fq_nhlCfgWrite (a1) (s : State) : Fq s (nhlCfgWrite a1 s) := by
  unfold nhlCfgWrite
  try dsimp only
  repeat' (first
    | (with_reducible first
        | exact Fq.refl _ | intro i s | intro s | apply Fq.ite | (apply Fq.after; apply fq_wr) | (apply Fq.after; apply fq_outChanged)
        | (apply Fq.after; apply fq_serviceCheck) | (apply Fq.after; apply fq_forEach) | (apply Fq.after; apply fq_foldl))
    | split)

/-! ### Scanning -/

theorem fr_turnRest (s : State) : Fr s (turnRest s) := by
  unfold turnRest
  try dsimp only
  repeat' (first
    | (with_reducible first
        | exact Fr.refl _ | apply Fr.ite | (apply Fr.after; apply Fq.fr; apply fq_modScn) | (apply Fr.after; apply fr_caMove)
        | fail_if_no_progress (apply Fr.after; (apply Fr.upd) <;> rfl))
    | split)

theorem fq_jobEnd (s : State) : Fq s (jobEnd s) := by
  unfold jobEnd
  try dsimp only
  repeat' (first
    | (with_reducible first
        | exact Fq.refl _ | apply Fq.ite | (apply Fq.after; apply fq_modScn)
        | fail_if_no_progress (apply Fq.after; (apply Fq.upd) <;> rfl))
    | split)

theorem fq_pendSweep (a1) (s : State) : Fq s (pendSweep a1 s) := by
  unfold pendSweep
  try dsimp only
  repeat' (first
    | (with_reducible first
        | exact Fq.refl _ | (apply Fq.after; apply fq_modScn) | (apply Fq.after; apply fq_wr) | refine Fq.of_fst ‹_ = _› ?_
        | refine Fq.of_snd ‹_ = _› ?_ | refine Fq.of_thd ‹_ = _› ?_ | fail_if_no_progress (apply Fq.after; (apply Fq.upd) <;> rfl))
    | split)

theorem fr_turnAdvance (s : State) : Fr s (turnAdvance s) := by
  unfold turnAdvance
  try dsimp only
  repeat' (first
    | (with_reducible first
        | exact Fr.refl _ | apply Fr.ite | (apply Fr.after; apply Fq.fr; apply fq_modScn) | (apply Fr.after; apply fr_turnRest)
        | (apply Fr.after; apply fr_sweepSetup) | (apply Fr.after; apply Fq.fr; apply fq_jobEnd)
        | (apply Fr.after; apply Fq.fr; apply fq_incF) | (apply Fr.after; apply Fq.fr; apply fq_pendSweep) | refine Fr.of_fst ‹_ = _› ?_
        | refine Fr.of_snd ‹_ = _› ?_ | refine Fr.of_thd ‹_ = _› ?_ | fail_if_no_progress (apply Fr.after; (apply Fr.upd) <;> rfl))
    | split)

theorem fr_turnEval (s : State) : Fr s (turnEval s) := by
  unfold turnEval
  try dsimp only
  repeat' (first
    | (with_reducible first
        | exact Fr.refl _ | apply Fr.ite | (apply Fr.after; apply Fq.fr; apply fq_modScn) | (apply Fr.after; apply fr_useInvar)
        | (apply Fr.after; apply Fq.fr; apply fq_incF) | refine Fr.of_fst ‹_ = _› ?_ | refine Fr.of_snd ‹_ = _› ?_
        | refine Fr.of_thd ‹_ = _› ?_ | fail_if_no_progress (apply Fr.after; (apply Fr.upd) <;> rfl))
    | split)

theorem fr_loadJob (s : State) : Fr s (loadJob s) := by
  unfold loadJob
  try dsimp only
  repeat' (first
    | (with_reducible first
        | exact Fr.refl _ | intro i s | intro s | apply Fr.ite | (apply Fr.after; apply Fq.fr; apply fq_pipeAnew)
        | (apply Fr.after; apply Fq.fr; apply fq_setF) | (apply Fr.after; apply Fq.fr; apply fq_pendSweep)
        | (apply Fr.after; apply fr_pumpReady) | (apply Fr.after; apply fr_forEach)
        | fail_if_no_progress (apply Fr.after; (apply Fr.upd) <;> rfl))
    | split)

theorem fr_scnTable (a1) (s : State) : Fr s (scnTable a1 s).2.2.2 := by
  unfold scnTable
  try dsimp only
  repeat' (first
    | (with_reducible first
        | exact Fr.refl _ | apply Fr.ite | (apply Fr.after; apply Fq.fr; apply fq_modScn) | (apply Fr.after; apply fr_loadJob)
        | refine Fr.of_fst ‹_ = _› ?_ | refine Fr.of_snd ‹_ = _› ?_ | refine Fr.of_thd ‹_ = _› ?_
        | fail_if_no_progress (apply Fr.after; (apply Fr.upd) <;> rfl))
    | split)

theorem fr_scnCmd (a1) (s : State) : Fr s (scnCmd a1 s) := by
  unfold scnCmd
  try dsimp only
  repeat' (first
    | (with_reducible first
        | exact Fr.refl _ | apply Fr.ite | (apply Fr.after; apply Fq.fr; apply fq_logEvent) | (apply Fr.after; apply fr_scnTable)
        | (apply Fr.after; apply Fq.fr; apply fq_wr))
    | split)

theorem fr_feedMove (s : State) : Fr s (feedMove s) := by
  unfold feedMove
  try dsimp only
  repeat' (first
    | (with_reducible first
        | exact Fr.refl _ | apply Fr.ite | (apply Fr.after; apply Fq.fr; apply fq_modScn) | (apply Fr.after; apply fr_useSoft)
        | (apply Fr.after; apply Fq.fr; apply fq_unitMove) | fail_if_no_progress (apply Fr.after; (apply Fr.upd) <;> rfl))
    | split)

theorem fr_feedAdd (s : State) : Fr s (feedAdd s) := by
  unfold feedAdd
  try dsimp only
  repeat' (with_reducible first
    | exact Fr.refl _ | (apply Fr.after; apply Fq.fr; apply fq_modScn) | (apply Fr.after; apply fr_feedMove)
    | fail_if_no_progress (apply Fr.after; (apply Fr.upd) <;> rfl))

theorem fq_pipeRestart (a1) (s : State) : Fq s (pipeRestart a1 s) := by
  unfold pipeRestart
  repeat' (first
    | (with_reducible first
        | exact Fq.refl _ | apply Fq.ite | (apply Fq.after; apply fq_sendCancel) | (apply Fq.after; apply fq_modDot)
        | (apply Fq.after; apply fq_gapRedo))
    | split)

theorem fq_loadSweep (s : State) : Fq s (loadSweep s) := by
  unfold loadSweep
  try dsimp only
  repeat' (first
    | (with_reducible first
        | exact Fq.refl _ | intro i s | intro s | apply Fq.ite | (apply Fq.after; apply fq_pipeSweep)
        | (apply Fq.after; apply fq_modGen) | (apply Fq.after; apply fq_pipeRestart) | (apply Fq.after; apply fq_forEach)
        | fail_if_no_progress (apply Fq.after; (apply Fq.upd) <;> rfl))
    | split)

theorem fr_sweepGo (s : State) : Fr s (sweepGo s) := by
  unfold sweepGo
  try dsimp only
  repeat' (first
    | (with_reducible first
        | exact Fr.refl _ | intro i s | intro s | apply Fr.ite | (apply Fr.after; apply Fq.fr; apply fq_modScn)
        | (apply Fr.after; apply fr_turnAdvance) | (apply Fr.after; apply fr_caMove) | (apply Fr.after; apply fr_pumpPipe)
        | (apply Fr.after; apply Fq.fr; apply fq_loadSweep) | (apply Fr.after; apply fr_feedAdd)
        | (apply Fr.after; apply Fq.fr; apply fq_incF) | (apply Fr.after; apply fr_turnEval) | (apply Fr.after; apply fr_forEach)
        | fail_if_no_progress (apply Fr.after; (apply Fr.upd) <;> rfl))
    | split)

theorem fr_scnPrint (s : State) : Fr s (scnPrint s) := by
  unfold scnPrint
  try dsimp only
  repeat' (first
    | (with_reducible first
        | exact Fr.refl _ | apply Fr.ite | (apply Fr.after; apply Fq.fr; apply fq_modScn) | (apply Fr.after; apply fr_turnAdvance)
        | (apply Fr.after; apply fr_turnRest) | (apply Fr.after; apply fr_feedMove) | (apply Fr.after; apply fr_feedAdd)
        | (apply Fr.after; apply Fq.fr; apply fq_jobEnd) | (apply Fr.after; apply Fq.fr; apply fq_wr) | refine Fr.of_fst ‹_ = _› ?_
        | refine Fr.of_snd ‹_ = _› ?_ | refine Fr.of_thd ‹_ = _› ?_ | fail_if_no_progress (apply Fr.after; (apply Fr.upd) <;> rfl))
    | split)

end Sys2Proof.Machine
end

