-- ==== Sys2Proof/Laws/FrameMotion.lean ====
section
/-!
SUPPORT. What the operations keep, one lemma for each operation (the encoders, the seamless stop, the global unit, the cascade, the DMA channels, the memories, axes and motors in motion): `Fq` the frame of an operation that leaves the global state
to the events, `Fr` and `Kp` the weaker ones (Laws/Frame.lean).
-/
set_option linter.unreachableTactic false
set_option linter.unusedTactic false
set_option linter.unusedVariables false

namespace Sys2Proof.Machine

/-! ### Encoder -/

theorem fr_quadSample (a1) (a2) (a3) (s : State) : Fr s (quadSample a1 a2 a3 s) := by
  unfold quadSample
  try dsimp only
  repeat' (first
    | (with_reducible first
        | exact Fr.refl _ | apply Fr.ite | (apply Fr.after; apply Fq.fr; apply fq_quadEdge) | (apply Fr.after; apply fr_reactiveGens)
        | (apply Fr.after; apply Fq.fr; apply fq_inputFault) | refine Fr.of_fst ‹_ = _› ?_ | refine Fr.of_snd ‹_ = _› ?_
        | refine Fr.of_thd ‹_ = _› ?_ | fail_if_no_progress (apply Fr.after; (apply Fr.upd) <;> rfl))
    | split)

theorem fr_scInvalid (a1) (a2) (a3) (s : State) : Fr s (scInvalid a1 a2 a3 s) := by
  unfold scInvalid
  try dsimp only
  repeat' (first
    | (with_reducible first
        | exact Fr.refl _ | apply Fr.ite | (apply Fr.after; apply Fq.fr; apply fq_logEvent)
        | (apply Fr.after; apply Fq.fr; apply fq_setFlag) | (apply Fr.after; apply Fq.fr; apply fq_modPc)
        | (apply Fr.after; apply fr_raise) | fail_if_no_progress (apply Fr.after; (apply Fr.upd) <;> rfl))
    | split)

theorem fr_scValid (a1) (a2) (a3) (s : State) : Fr s (scValid a1 a2 a3 s) := by
  unfold scValid
  try dsimp only
  repeat' (first
    | (with_reducible first
        | exact Fr.refl _ | apply Fr.ite | (apply Fr.after; apply fr_reactiveGens) | (apply Fr.after; apply Fq.fr; apply fq_pcMoved)
        | (apply Fr.after; apply Fq.fr; apply fq_modPc) | (apply Fr.after; apply Fq.fr; apply fq_pcCount)
        | fail_if_no_progress (apply Fr.after; (apply Fr.upd) <;> rfl))
    | split)

/-! ### SeamlessRun -/

theorem fq_ssResult (a1) (a2) (a3) (a4) (s : State) : Fq s (ssResult a1 a2 a3 a4 s) := by
  unfold ssResult
  try dsimp only
  repeat' (first
    | (with_reducible first
        | exact Fq.refl _ | apply Fq.ite | (apply Fq.after; apply fq_logEvent) | (apply Fq.after; apply fq_wr))
    | split)

theorem fr_ssStopCmd (s : State) : Fr s (ssStopCmd s) := by
  unfold ssStopCmd
  try dsimp only
  repeat' (first
    | (with_reducible first
        | exact Fr.refl _ | (apply Fr.after; apply Fq.fr; apply fq_ssResult) | (apply Fr.after; apply fr_ssAsk)
        | refine Fr.of_fst ‹_ = _› ?_ | refine Fr.of_snd ‹_ = _› ?_ | refine Fr.of_thd ‹_ = _› ?_
        | fail_if_no_progress (apply Fr.after; (apply Fr.upd) <;> rfl))
    | split)

theorem fr_ssCmd (a1) (s : State) : Fr s (ssCmd a1 s) := by
  unfold ssCmd
  try dsimp only
  repeat' (first
    | (with_reducible first
        | exact Fr.refl _ | apply Fr.ite | (apply Fr.after; apply fr_ssStopCmd) | (apply Fr.after; apply Fq.fr; apply fq_ssResult)
        | (apply Fr.after; apply Fq.fr; apply fq_ssAbandon) | refine Fr.of_fst ‹_ = _› ?_ | refine Fr.of_snd ‹_ = _› ?_
        | refine Fr.of_thd ‹_ = _› ?_ | fail_if_no_progress (apply Fr.after; (apply Fr.upd) <;> rfl))
    | split)

theorem fq_ssOrigin (a1) (s : State) : Fq s (ssOrigin a1 s) := by
  unfold ssOrigin
  try dsimp only
  repeat' (first
    | (with_reducible first
        | exact Fq.refl _ | apply Fq.ite | (apply Fq.after; apply fq_modGen)
        | fail_if_no_progress (apply Fq.after; (apply Fq.upd) <;> rfl))
    | split)

theorem fr_ssMove (a1) (a2) (a3) (s : State) : Fr s (ssMove a1 a2 a3 s) := by
  unfold ssMove
  try dsimp only
  repeat' (first
    | (with_reducible first
        | exact Fr.refl _ | apply Fr.ite | (apply Fr.after; apply Fq.fr; apply fq_unitVmax) | (apply Fr.after; apply fr_useSoft)
        | (apply Fr.after; apply Fq.fr; apply fq_ssPhase) | (apply Fr.after; apply Fq.fr; apply fq_unitMove)
        | (apply Fr.after; apply Fq.fr; apply fq_ssAbandon) | refine Fr.of_fst ‹_ = _› ?_ | refine Fr.of_snd ‹_ = _› ?_
        | refine Fr.of_thd ‹_ = _› ?_ | fail_if_no_progress (apply Fr.after; (apply Fr.upd) <;> rfl))
    | split)

theorem fq_ssRewind (a1) (s : State) : Fq s (ssRewind a1 s) := by
  unfold ssRewind
  repeat' (with_reducible first
    | exact Fq.refl _ | (apply Fq.after; apply fq_ssBack) | (apply Fq.after; apply fq_gapRedo))

theorem fr_ssAccel (s : State) : Fr s (ssAccel s) := by
  unfold ssAccel
  try dsimp only
  repeat' (first
    | (with_reducible first
        | exact Fr.refl _ | intro i s | intro s | apply Fr.ite | (apply Fr.after; apply Fq.fr; apply fq_moPlan)
        | (apply Fr.after; apply Fq.fr; apply fq_unitVmax) | (apply Fr.after; apply fr_pumpPipe)
        | (apply Fr.after; apply Fq.fr; apply fq_ssPhase) | (apply Fr.after; apply Fq.fr; apply fq_axPlan)
        | (apply Fr.after; apply fr_forEach))
    | split)

theorem fr_ssReady (a1) (s : State) : Fr s (ssReady a1 s) := by
  unfold ssReady
  try dsimp only
  repeat' (first
    | (with_reducible first
        | exact Fr.refl _ | apply Fr.ite | (apply Fr.after; apply Fq.fr; apply fq_casMsg) | (apply Fr.after; apply fr_ssAccel)
        | fail_if_no_progress (apply Fr.after; (apply Fr.upd) <;> rfl))
    | split)

/-! ### Global -/

theorem fr_armPipes (s : State) : Fr s (armPipes s) := by
  unfold armPipes
  try dsimp only
  repeat' (first
    | (with_reducible first
        | exact Fr.refl _ | intro i s | intro s | apply Fr.ite | (apply Fr.after; apply Fq.fr; apply fq_restGen)
        | (apply Fr.after; apply Fq.fr; apply fq_sendCancel) | (apply Fr.after; apply Fq.fr; apply fq_setPipe)
        | (apply Fr.after; apply Fq.fr; apply fq_modDot) | (apply Fr.after; apply fr_pumpReady) | (apply Fr.after; apply fr_forEach)
        | refine Fr.of_fst ‹_ = _› ?_ | refine Fr.of_snd ‹_ = _› ?_ | refine Fr.of_thd ‹_ = _› ?_
        | fail_if_no_progress (apply Fr.after; (apply Fr.upd) <;> rfl))
    | split)

theorem fr_askWarming (s : State) : Fr s (askWarming s) := by
  unfold askWarming
  repeat' (with_reducible first
    | exact Fr.refl _ | intro i s | intro s | (apply Fr.after; apply fr_askWarm) | (apply Fr.after; apply fr_forEach))

theorem fa_disarm (s : State) : Fa s (disarm s) := by
  unfold disarm
  try dsimp only
  repeat' (first
    | (with_reducible first
        | exact Fa.refl _ | intro i s | intro s | apply Fa.ite | (apply Fa.after; apply Fr.fa; apply fr_refreshAll)
        | (apply Fa.after; apply Fq.fa; apply fq_sendKill) | (apply Fa.after; apply Fq.fa; apply fq_restGen)
        | (apply Fa.after; apply fa_goto) | (apply Fa.after; apply Fq.fa; apply fq_setPipe)
        | (apply Fa.after; apply Fq.fa; apply fq_usageAll) | (apply Fa.after; apply Fq.fa; apply fq_modDot)
        | (apply Fa.after; apply Fq.fa; apply fq_ssAbandon) | (apply Fa.after; apply fa_forEach))
    | split)

theorem fr_unkillAll (s : State) : Fr s (unkillAll s) := by
  unfold unkillAll
  try dsimp only
  repeat' (with_reducible first
    | exact Fr.refl _ | intro i s | intro s | (apply Fr.after; apply fr_refreshAll) | (apply Fr.after; apply Fq.fr; apply fq_sendCtrl)
    | (apply Fr.after; apply fr_forEach))

theorem fa_enterArmed (s : State) : Fa s (enterArmed s) := by
  unfold enterArmed
  try dsimp only
  repeat' (first
    | (with_reducible first
        | exact Fa.refl _ | intro i s | intro s | apply Fa.ite | (apply Fa.after; apply Fr.fa; apply fr_svcPending)
        | (apply Fa.after; apply Fq.fa; apply fq_loadBanks) | (apply Fa.after; apply Fr.fa; apply fr_unkillAll)
        | (apply Fa.after; apply Fr.fa; apply fr_armPipes) | (apply Fa.after; apply fa_goto)
        | (apply Fa.after; apply Fq.fa; apply fq_usageAll) | (apply Fa.after; apply Fr.fa; apply fr_askWarming)
        | (apply Fa.after; apply fa_forEach))
    | split)

theorem fr_mediaGate (s : State) : Fr s (mediaGate s) := by
  unfold mediaGate
  repeat' (first
    | (with_reducible first
        | exact Fr.refl _ | apply Fr.ite | (apply Fr.after; apply fr_useInvar) | (apply Fr.after; apply fr_mediaAct))
    | split)

theorem fq_retireTo (a1) (a2) (s : State) : Fq s (retireTo a1 a2 s) := by
  unfold retireTo
  try dsimp only
  repeat' (first
    | (with_reducible first
        | exact Fq.refl _ | apply Fq.ite | (apply Fq.after; apply fq_logEvent) | (apply Fq.after; apply fq_retireBefore))
    | split)

theorem fq_printGen (a1) (s : State) : Fq s (printGen a1 s) := by
  unfold printGen
  try dsimp only
  repeat' (first
    | (with_reducible first
        | exact Fq.refl _ | intro i s | intro s | apply Fq.ite | (apply Fq.after; apply fq_restGen) | (apply Fq.after; apply fq_modGen)
        | (apply Fq.after; apply fq_retireTo) | (apply Fq.after; apply fq_forEach) | refine Fq.of_fst ‹_ = _› ?_
        | refine Fq.of_snd ‹_ = _› ?_ | refine Fq.of_thd ‹_ = _› ?_ | fail_if_no_progress (apply Fq.after; (apply Fq.upd) <;> rfl))
    | split)

theorem fq_printPipes (s : State) : Fq s (printPipes s) := by
  unfold printPipes
  try dsimp only
  repeat' (first
    | (with_reducible first
        | exact Fq.refl _ | intro i s | intro s | apply Fq.ite | (apply Fq.after; apply fq_setPipe) | (apply Fq.after; apply fq_ssPhase)
        | (apply Fq.after; apply fq_printGen) | (apply Fq.after; apply fq_forEach)
        | fail_if_no_progress (apply Fq.after; (apply Fq.upd) <;> rfl))
    | split)

theorem fa_enterPrint (s : State) : Fa s (enterPrint s) := by
  unfold enterPrint
  try dsimp only
  repeat' (with_reducible first
    | exact Fa.refl _ | intro i s | intro s | (apply Fa.after; apply Fr.fa; apply fr_mediaGate)
    | (apply Fa.after; apply Fq.fa; apply fq_portPump) | (apply Fa.after; apply Fq.fa; apply fq_printPipes)
    | (apply Fa.after; apply Fr.fa; apply fr_pumpPipe) | (apply Fa.after; apply fa_goto)
    | (apply Fa.after; apply Fr.fa; apply fr_scnPrint) | (apply Fa.after; apply fa_forEach)
    | fail_if_no_progress (apply Fa.after; (apply Fa.upd) <;> rfl))

theorem fq_glbResult (a1) (a2) (a3) (s : State) : Fq s (glbResult a1 a2 a3 s) := by
  unfold glbResult
  try dsimp only
  repeat' (first
    | (with_reducible first
        | exact Fq.refl _ | apply Fq.ite | (apply Fq.after; apply fq_logEvent) | (apply Fq.after; apply fq_wr))
    | split)

theorem kp_glbRun (c : Nat) (f : State → Nat × State) (h : ∀ s, Kp s (f s).2) (s : State) : Kp s (glbRun c f s) := by
  unfold glbRun
  split
  · exact .refl s
  · exact (h s).trans (fq_glbResult ..).kp
theorem fq_glbRun (c : Nat) (f : State → Nat × State) (h : ∀ s, Fq s (f s).2) (s : State) : Fq s (glbRun c f s) := by
  unfold glbRun
  split
  · exact .refl s
  · exact (h s).trans (fq_glbResult ..)
theorem fr_glbRun (c : Nat) (f : State → Nat × State) (h : ∀ s, Fr s (f s).2) (s : State) : Fr s (glbRun c f s) := by
  unfold glbRun
  split
  · exact .refl s
  · exact (h s).trans (fq_glbResult ..).fr
theorem fa_glbRun (c : Nat) (f : State → Nat × State) (h : ∀ s, Fa s (f s).2) (s : State) : Fa s (glbRun c f s) := by
  unfold glbRun
  split
  · exact .refl s
  · exact (h s).trans (fq_glbResult ..).fa
theorem mv_glbRun (c : Nat) (f : State → Nat × State) (h : ∀ s, Mv s (f s).2) (s : State) : Mv s (glbRun c f s) := by
  unfold glbRun
  split
  · exact .refl s
  · exact (h s).trans (fq_glbResult ..).mv

theorem fr_useMaps (s : State) : Fr s (useMaps s) := by
  unfold useMaps
  repeat' (with_reducible first
    | exact Fr.refl _ | (apply Fr.after; apply fr_useInvar))

theorem fa_glbArm (s : State) : Fa s (glbArm s).2 := by
  unfold glbArm
  try dsimp only
  repeat' (first
    | (with_reducible first
        | exact Fa.refl _ | apply Fa.ite | (apply Fa.after; apply fa_enterArmed) | (apply Fa.after; apply Fq.fa; apply fq_pulseCheck)
        | (apply Fa.after; apply Fr.fa; apply fr_useMaps) | refine Fa.of_fst ‹_ = _› ?_ | refine Fa.of_snd ‹_ = _› ?_
        | refine Fa.of_thd ‹_ = _› ?_ | fail_if_no_progress (apply Fa.after; (apply Fa.upd) <;> rfl))
    | split)

theorem fa_glbDisarm (s : State) : Fa s (glbDisarm s).2 := by
  unfold glbDisarm
  repeat' (first
    | (with_reducible first
        | exact Fa.refl _ | (apply Fa.after; apply fa_disarm) | refine Fa.of_fst ‹_ = _› ?_ | refine Fa.of_snd ‹_ = _› ?_
        | refine Fa.of_thd ‹_ = _› ?_ | fail_if_no_progress (apply Fa.after; (apply Fa.upd) <;> rfl))
    | split)

theorem fa_recover (s : State) : Fa s (recover s) := by
  unfold recover
  try dsimp only
  repeat' (first
    | (with_reducible first
        | exact Fa.refl _ | intro i s | intro s | apply Fa.ite | (apply Fa.after; apply Fq.fa; apply fq_eeResume)
        | (apply Fa.after; apply fa_goto) | (apply Fa.after; apply Fq.fa; apply fq_portDown) | (apply Fa.after; apply fa_forEach)
        | fail_if_no_progress (apply Fa.after; (apply Fa.upd) <;> rfl))
    | split)

theorem fa_glbRecover (s : State) : Fa s (glbRecover s).2 := by
  unfold glbRecover
  try dsimp only
  repeat' (first
    | (with_reducible first
        | exact Fa.refl _ | apply Fa.ite | (apply Fa.after; apply Fr.fa; apply fr_useInvar) | (apply Fa.after; apply fa_recover)
        | refine Fa.of_fst ‹_ = _› ?_ | refine Fa.of_snd ‹_ = _› ?_ | refine Fa.of_thd ‹_ = _› ?_
        | fail_if_no_progress (apply Fa.after; (apply Fa.upd) <;> rfl))
    | split)

theorem mv_glbShutdown (s : State) : Mv s (glbShutdown s).2 := by
  unfold glbShutdown
  generalize shutdownRecord s = r
  have h : Moves s.glb.state .shutdown → Mv s (enterShutdown 0 (jRecord r s)) := fun k =>
    (fq_jRecord ..).mv.trans (mv_enterShutdown _ _ (by rw [(fq_jRecord ..).falls]; exact k))
  generalize enterShutdown 0 (jRecord r s) = t at h
  dsimp only
  split
  · rename_i e; exact h (by rw [e]; decide)
  · rename_i e; exact h (by rw [e]; decide)
  · rename_i e; exact h (by rw [e]; decide)
  · exact .refl s
  · exact .refl s

theorem fq_startChain (s : State) : Fq s (startChain s) := by
  unfold startChain
  try dsimp only
  repeat' (with_reducible first
    | exact Fq.refl _ | (apply Fq.after; apply fq_casMsg) | fail_if_no_progress (apply Fq.after; (apply Fq.upd) <;> rfl))

theorem fa_glbStart (s : State) : Fa s (glbStart s).2 := by
  unfold glbStart
  repeat' (first
    | (with_reducible first
        | exact Fa.refl _ | apply Fa.ite | (apply Fa.after; apply fa_enterPrint) | (apply Fa.after; apply Fq.fa; apply fq_startChain)
        | refine Fa.of_fst ‹_ = _› ?_ | refine Fa.of_snd ‹_ = _› ?_ | refine Fa.of_thd ‹_ = _› ?_
        | fail_if_no_progress (apply Fa.after; (apply Fa.upd) <;> rfl))
    | split)

theorem fq_stopChain (s : State) : Fq s (stopChain s) := by
  unfold stopChain
  repeat' (first
    | (with_reducible first
        | exact Fq.refl _ | apply Fq.ite | (apply Fq.after; apply fq_casMsg))
    | split)

theorem fr_glbStop (s : State) : Fr s (glbStop s).2 := by
  unfold glbStop
  split
  · exact .refl s
  · split
    · exact (fq_stopChain s).fr
    · rename_i e
      exact (fq_stopChain s).fr.trans (fr_enterStopping _ _ (by rw [(fq_stopChain s).falls, e]; exact .inr (.inl ⟨rfl, rfl⟩)))
    · exact (fq_stopChain s).fr
    · exact .refl s

/-! ### Cascade -/

theorem fr_bellLate (a1) (a2) (s : State) : Fr s (bellLate a1 a2 s) := by
  unfold bellLate
  try dsimp only
  repeat' (with_reducible first
    | exact Fr.refl _ | intro i s | intro s | (apply Fr.after; apply fr_underrun) | (apply Fr.after; apply fr_forEach))

theorem fr_bellLaunch (a1) (a2) (s : State) : Fr s (bellLaunch a1 a2 s) := by
  unfold bellLaunch
  try dsimp only
  repeat' (first
    | (with_reducible first
        | exact Fr.refl _ | intro i s | intro s | apply Fr.ite | (apply Fr.after; apply fr_bellLate)
        | (apply Fr.after; apply fr_commitAt) | (apply Fr.after; apply fr_forEach))
    | split)

theorem fr_bellMissed (a1) (a2) (s : State) : Fr s (bellMissed a1 a2 s) := by
  unfold bellMissed
  try dsimp only
  repeat' (with_reducible first
    | exact Fr.refl _ | intro i s | intro s | (apply Fr.after; apply Fq.fr; apply fq_setFlag) | (apply Fr.after; apply fr_bellLate)
    | (apply Fr.after; apply Fq.fr; apply fq_incF) | (apply Fr.after; apply fr_raise) | (apply Fr.after; apply fr_forEach))

theorem fq_modCas (a1) (s : State) : Fq s (modCas a1 s) := by
  unfold modCas
  repeat' (with_reducible first
    | exact Fq.refl _ | fail_if_no_progress (apply Fq.after; (apply Fq.upd) <;> rfl))

theorem fq_bellMove (d : Int) (s : State) : Fq s (bellMove d s) := by
  unfold bellMove
  dsimp only
  refine Fq.after (fq_modCas ..) ?_
  exact Fq.of _ rfl rfl rfl rfl rfl rfl rfl rfl rfl rfl rfl rfl rfl rfl rfl rfl

theorem fq_bellStep (a1) (s : State) : Fq s (bellStep a1 s) := by
  unfold bellStep
  try dsimp only
  repeat' (with_reducible first
    | exact Fq.refl _ | (apply Fq.after; apply fq_portsReacquire) | (apply Fq.after; apply fq_bellMove)
    | (apply Fq.after; apply fq_incF) | fail_if_no_progress (apply Fq.after; (apply Fq.upd) <;> rfl))

theorem fq_casProbe (s : State) : Fq s (casProbe s) := by
  unfold casProbe
  try dsimp only
  repeat' (with_reducible first
    | exact Fq.refl _ | (apply Fq.after; apply fq_casEmitSet) | fail_if_no_progress (apply Fq.after; (apply Fq.upd) <;> rfl))

theorem fq_casAcquire (s : State) : Fq s (casAcquire s) := by
  unfold casAcquire
  try dsimp only
  repeat' (with_reducible first
    | exact Fq.refl _ | (apply Fq.after; apply fq_modCas) | (apply Fq.after; apply fq_casProbe)
    | fail_if_no_progress (apply Fq.after; (apply Fq.upd) <;> rfl))

theorem fq_casAnswer (a1) (a2) (a3) (s : State) : Fq s (casAnswer a1 a2 a3 s) := by
  unfold casAnswer
  try dsimp only
  repeat' (with_reducible first
    | exact Fq.refl _ | (apply Fq.after; apply fq_modCas) | (apply Fq.after; apply fq_casPut)
    | fail_if_no_progress (apply Fq.after; (apply Fq.upd) <;> rfl))

theorem fq_casTs (a1) (a2) (a3) (s : State) : Fq s (casTs a1 a2 a3 s) := by
  unfold casTs
  try dsimp only
  repeat' (first
    | (with_reducible first
        | exact Fq.refl _ | apply Fq.ite | (apply Fq.after; apply fq_casEmitSet)
        | fail_if_no_progress (apply Fq.after; (apply Fq.upd) <;> rfl))
    | split)

theorem fq_modCasPort (a1) (a2) (s : State) : Fq s (modCasPort a1 a2 s) := by
  unfold modCasPort
  try dsimp only
  repeat' (first
    | (with_reducible first
        | exact Fq.refl _ | apply Fq.ite | (apply Fq.after; apply fq_modCas)
        | fail_if_no_progress (apply Fq.after; (apply Fq.upd) <;> rfl))
    | split)

theorem fq_casAttempt (a1) (s : State) : Fq s (casAttempt a1 s) := by
  unfold casAttempt
  try dsimp only
  repeat' (with_reducible first
    | exact Fq.refl _ | (apply Fq.after; apply fq_casTs) | (apply Fq.after; apply fq_modCasPort)
    | fail_if_no_progress (apply Fq.after; (apply Fq.upd) <;> rfl))

theorem fr_casLoss (a1) (a2) (s : State) : Fr s (casLoss a1 a2 s) := by
  unfold casLoss
  try dsimp only
  repeat' (first
    | (with_reducible first
        | exact Fr.refl _ | apply Fr.ite | (apply Fr.after; apply Fq.fr; apply fq_modCas)
        | (apply Fr.after; apply Fq.fr; apply fq_logEvent) | (apply Fr.after; apply Fq.fr; apply fq_casAttempt)
        | (apply Fr.after; apply fr_raise) | (apply Fr.after; apply Fq.fr; apply fq_modCasPort)
        | fail_if_no_progress (apply Fr.after; (apply Fr.upd) <;> rfl))
    | split)

theorem fr_casBad (a1) (s : State) : Fr s (casBad a1 s) := by
  unfold casBad
  try dsimp only
  repeat' (first
    | (with_reducible first
        | exact Fr.refl _ | apply Fr.ite | (apply Fr.after; apply fr_casLoss) | (apply Fr.after; apply Fq.fr; apply fq_incF)
        | (apply Fr.after; apply Fq.fr; apply fq_modCasPort) | fail_if_no_progress (apply Fr.after; (apply Fr.upd) <;> rfl))
    | split)

theorem fq_casUser (s : State) : Fq s (casUser s) := by
  unfold casUser
  try dsimp only
  repeat' (first
    | (with_reducible first
        | exact Fq.refl _ | apply Fq.ite | (apply Fq.after; apply fq_casSendTo) | (apply Fq.after; apply fq_casBroadcast))
    | split)

theorem fq_casResult (a1) (a2) (s : State) : Fq s (casResult a1 a2 s) := by
  unfold casResult
  try dsimp only
  repeat' (first
    | (with_reducible first
        | exact Fq.refl _ | apply Fq.ite | (apply Fq.after; apply fq_logEvent) | (apply Fq.after; apply fq_wr))
    | split)

theorem fq_casCmd (a1) (s : State) : Fq s (casCmd a1 s) := by
  unfold casCmd
  try dsimp only
  repeat' (first
    | (with_reducible first
        | exact Fq.refl _ | apply Fq.ite | (apply Fq.after; apply fq_casUser) | (apply Fq.after; apply fq_wr)
        | (apply Fq.after; apply fq_casResult) | (apply Fq.after; apply fq_casAcquire) | refine Fq.of_fst ‹_ = _› ?_
        | refine Fq.of_snd ‹_ = _› ?_ | refine Fq.of_thd ‹_ = _› ?_ | fail_if_no_progress (apply Fq.after; (apply Fq.upd) <;> rfl))
    | split)

theorem fq_casSixteen (a1) (s : State) : Fq s (casSixteen a1 s) := by
  unfold casSixteen
  try dsimp only
  repeat' (first
    | (with_reducible first
        | exact Fq.refl _ | intro i s | intro s | apply Fq.ite | (apply Fq.after; apply fq_modCas) | (apply Fq.after; apply fq_casProbe)
        | (apply Fq.after; apply fq_bellStep) | (apply Fq.after; apply fq_setF) | (apply Fq.after; apply fq_casAcquire)
        | (apply Fq.after; apply fq_foldl) | fail_if_no_progress (apply Fq.after; (apply Fq.upd) <;> rfl))
    | split)

theorem fr_casGroup (a1) (s : State) : Fr s (casGroup a1 s) := by
  unfold casGroup
  try dsimp only
  repeat' (first
    | (with_reducible first
        | exact Fr.refl _ | apply Fr.ite | (apply Fr.after; apply Fq.fr; apply fq_modCas)
        | (apply Fr.after; apply Fq.fr; apply fq_logEvent) | (apply Fr.after; apply Fq.fr; apply fq_setF)
        | (apply Fr.after; apply Fq.fr; apply fq_bellMove) | (apply Fr.after; apply Fq.fr; apply fq_incF)
        | (apply Fr.after; apply fr_raise) | (apply Fr.after; apply Fq.fr; apply fq_casAcquire)
        | fail_if_no_progress (apply Fr.after; (apply Fr.upd) <;> rfl))
    | split)

theorem mv_casUp (a1) (s : State) : Mv s (casUp a1 s) := by
  unfold casUp
  try dsimp only
  repeat' (first
    | (with_reducible first
        | exact Mv.refl _ | apply Mv.ite | (apply Mv.after; apply Fq.mv; apply fq_logEvent)
        | (apply Mv.after; apply Fq.mv; apply fq_startDisc) | (apply Mv.after; apply Fq.mv; apply fq_casSendTo)
        | (apply Mv.after; apply mv_bruCheck) | (apply Mv.after; apply Fq.mv; apply fq_modCasPort)
        | fail_if_no_progress (apply Mv.after; (apply Mv.upd) <;> rfl))
    | split)

theorem mv_casEcho (a1) (a2) (s : State) : Mv s (casEcho a1 a2 s) := by
  unfold casEcho
  try dsimp only
  repeat' (first
    | (with_reducible first
        | exact Mv.refl _ | intro i s | intro s | apply Mv.ite | (apply Mv.after; apply Fq.mv; apply fq_modCas)
        | (apply Mv.after; apply Fq.mv; apply fq_casSixteen) | (apply Mv.after; apply Fr.mv; apply fr_casGroup)
        | (apply Mv.after; apply mv_casUp) | (apply Mv.after; apply Fq.mv; apply fq_casAcquire) | (apply Mv.after; apply mv_foldl)
        | fail_if_no_progress (apply Mv.after; (apply Mv.upd) <;> rfl))
    | split)

theorem fq_casEcho2 (a1) (s : State) : Fq s (casEcho2 a1 s) := by
  unfold casEcho2
  try dsimp only
  repeat' (first
    | (with_reducible first
        | exact Fq.refl _ | apply Fq.ite | (apply Fq.after; apply fq_casEmitSet)
        | fail_if_no_progress (apply Fq.after; (apply Fq.upd) <;> rfl))
    | split)

theorem fq_casNak (a1) (s : State) : Fq s (casNak a1 s) := by
  unfold casNak
  repeat' (with_reducible first
    | exact Fq.refl _ | (apply Fq.after; apply fq_casAnswer) | (apply Fq.after; apply fq_incF))

theorem fr_casRecv (a1) (a2) (a3) (a4) (ha4 : ∀ s, Fr s (a4 s)) (a5) (ha5 : ∀ s, Fr s (a5 s)) (s : State) : Fr s (casRecv a1 a2 a3 a4 a5 s) := by
  unfold casRecv
  try dsimp only
  repeat' (first
    | with_reducible exact Fr.refl _
    | intro i s
    | intro s
    | with_reducible apply Fr.ite
    | (with_reducible apply Fr.after; with_reducible apply ha4)
    | (with_reducible apply Fr.after; with_reducible apply ha5)
    | (with_reducible apply Fr.after; with_reducible apply Fq.fr; with_reducible apply fq_casPut)
    | (with_reducible apply Fr.after; with_reducible apply Fq.fr; with_reducible apply fq_modCas)
    | (with_reducible apply Fr.after; with_reducible apply Fq.fr; with_reducible apply fq_casNak)
    | (with_reducible apply Fr.after; with_reducible apply Fq.fr; with_reducible apply fq_casAnswer)
    | (with_reducible apply Fr.after; with_reducible apply fr_casBad)
    | (with_reducible apply Fr.after; with_reducible apply fr_forEach)
    | (with_reducible apply Fr.after; with_reducible apply fr_foldl)
    | with_reducible refine Fr.of_fst ‹_ = _› ?_
    | with_reducible refine Fr.of_snd ‹_ = _› ?_
    | with_reducible refine Fr.of_thd ‹_ = _› ?_
    | fail_if_no_progress (with_reducible apply Fr.after; (with_reducible apply Fr.upd) <;> with_reducible rfl)
    | split
    )
theorem mv_casRecv (a1) (a2) (a3) (a4) (ha4 : ∀ s, Mv s (a4 s)) (a5) (ha5 : ∀ s, Mv s (a5 s)) (s : State) : Mv s (casRecv a1 a2 a3 a4 a5 s) := by
  unfold casRecv
  try dsimp only
  repeat' (first
    | with_reducible exact Mv.refl _
    | intro i s
    | intro s
    | with_reducible apply Mv.ite
    | (with_reducible apply Mv.after; with_reducible apply ha4)
    | (with_reducible apply Mv.after; with_reducible apply ha5)
    | (with_reducible apply Mv.after; with_reducible apply Fq.mv; with_reducible apply fq_casPut)
    | (with_reducible apply Mv.after; with_reducible apply Fq.mv; with_reducible apply fq_modCas)
    | (with_reducible apply Mv.after; with_reducible apply Fq.mv; with_reducible apply fq_casNak)
    | (with_reducible apply Mv.after; with_reducible apply Fq.mv; with_reducible apply fq_casAnswer)
    | (with_reducible apply Mv.after; with_reducible apply Fr.mv; with_reducible apply fr_casBad)
    | (with_reducible apply Mv.after; with_reducible apply mv_forEach)
    | (with_reducible apply Mv.after; with_reducible apply mv_foldl)
    | with_reducible refine Mv.of_fst ‹_ = _› ?_
    | with_reducible refine Mv.of_snd ‹_ = _› ?_
    | with_reducible refine Mv.of_thd ‹_ = _› ?_
    | fail_if_no_progress (with_reducible apply Mv.after; (with_reducible apply Mv.upd) <;> with_reducible rfl)
    | split
    )

theorem fr_casMsgRecv (h : CasHdr) (kind : Nat) (body : List Byte) (take : State → State) (k : ∀ s, Fr s (take s)) (s : State) :
    Fr s (casMsgRecv h kind body take s) := by
  unfold casMsgRecv
  exact fr_casRecv _ _ _ _ k _ (fun s => .refl s) s

theorem fq_casStart (s : State) : Fq s (casStart s) := by
  unfold casStart
  try dsimp only
  repeat' (first
    | (with_reducible first
        | exact Fq.refl _ | apply Fq.ite | (apply Fq.after; apply fq_startDisc) | (apply Fq.after; apply fq_casSendTo)
        | (apply Fq.after; apply fq_casAttempt) | fail_if_no_progress (apply Fq.after; (apply Fq.upd) <;> rfl))
    | split)

theorem mv_casTrain (a1) (a2) (a3) (s : State) : Mv s (casTrain a1 a2 a3 s) := by
  unfold casTrain
  try dsimp only
  repeat' (first
    | (with_reducible first
        | exact Mv.refl _ | apply Mv.ite | (apply Mv.after; apply Fq.mv; apply fq_casTs) | (apply Mv.after; apply mv_casUp)
        | (apply Mv.after; apply Fq.mv; apply fq_casAcquire) | (apply Mv.after; apply Fq.mv; apply fq_modCasPort)
        | refine Mv.of_fst ‹_ = _› ?_ | refine Mv.of_snd ‹_ = _› ?_ | refine Mv.of_thd ‹_ = _› ?_
        | fail_if_no_progress (apply Mv.after; (apply Mv.upd) <;> rfl))
    | split)

theorem mv_discDone (s : State) : Mv s (discDone s) := by
  unfold discDone
  try dsimp only
  repeat' (first
    | (with_reducible first
        | exact Mv.refl _ | intro i s | intro s | apply Mv.ite | (apply Mv.after; apply Fq.mv; apply fq_modCas)
        | (apply Mv.after; apply Fq.mv; apply fq_logEvent) | (apply Mv.after; apply mv_bruCheck)
        | (apply Mv.after; apply Fq.mv; apply fq_wr) | (apply Mv.after; apply Fq.mv; apply fq_casBroadcast)
        | (apply Mv.after; apply mv_forEach) | refine Mv.of_fst ‹_ = _› ?_ | refine Mv.of_snd ‹_ = _› ?_ | refine Mv.of_thd ‹_ = _› ?_
        | fail_if_no_progress (apply Mv.after; (apply Mv.upd) <;> rfl))
    | split)

theorem fq_sendPos (s : State) : Fq s (sendPos s) := by
  unfold sendPos
  try dsimp only
  repeat' (with_reducible first
    | exact Fq.refl _ | (apply Fq.after; apply fq_casBroadcast))

theorem fr_posCheck (a1) (s : State) : Fr s (posCheck a1 s) := by
  unfold posCheck
  try dsimp only
  repeat' (first
    | (with_reducible first
        | exact Fr.refl _ | apply Fr.ite | (apply Fr.after; apply Fq.fr; apply fq_modCas) | (apply Fr.after; apply fr_useInvar)
        | (apply Fr.after; apply fr_raise) | fail_if_no_progress (apply Fr.after; (apply Fr.upd) <;> rfl))
    | split)

/-! ### Dma -/

theorem fq_pcNext (a1) (s : State) : Fq s (pcNext a1 s).1 := by
  unfold pcNext
  try dsimp only
  repeat' (first
    | (with_reducible first
        | exact Fq.refl _ | apply Fq.ite | (apply Fq.after; apply fq_modDma)
        | fail_if_no_progress (apply Fq.after; (apply Fq.upd) <;> rfl))
    | split)

theorem fq_dmaAddRec (a1) (a2) (a3) (a4) (s : State) : Fq s (dmaAddRec a1 a2 a3 a4 s) := by
  unfold dmaAddRec
  try dsimp only
  repeat' (with_reducible first
    | exact Fq.refl _ | (apply Fq.after; apply fq_modDma) | fail_if_no_progress (apply Fq.after; (apply Fq.upd) <;> rfl))

theorem fq_dmaDrained (a1) (s : State) : Fq s (dmaDrained a1 s) := by
  unfold dmaDrained
  try dsimp only
  repeat' (first
    | (with_reducible first
        | exact Fq.refl _ | apply Fq.ite | (apply Fq.after; apply fq_dmaPaused) | (apply Fq.after; apply fq_dmaAddRec)
        | (apply Fq.after; apply fq_modDma) | fail_if_no_progress (apply Fq.after; (apply Fq.upd) <;> rfl))
    | split)

theorem fq_dmaGoOn (a1) (s : State) : Fq s (dmaGoOn a1 s) := by
  unfold dmaGoOn
  try dsimp only
  repeat' (first
    | (with_reducible first
        | exact Fq.refl _ | apply Fq.ite | (apply Fq.after; apply fq_dmaDrained) | (apply Fq.after; apply fq_modDma)
        | fail_if_no_progress (apply Fq.after; (apply Fq.upd) <;> rfl))
    | split)

theorem fq_failRec (a1) (a2) (s : State) : Fq s (failRec a1 a2 s) := by
  unfold failRec
  try dsimp only
  repeat' (with_reducible first
    | exact Fq.refl _ | (apply Fq.after; apply fq_dmaAddRec) | (apply Fq.after; apply fq_modDma)
    | fail_if_no_progress (apply Fq.after; (apply Fq.upd) <;> rfl))

theorem fq_dmaTake (a1) (s : State) : Fq s (dmaTake a1 s) := by
  unfold dmaTake
  try dsimp only
  repeat' (with_reducible first
    | exact Fq.refl _ | intro i s | intro s | (apply Fq.after; apply fq_wr) | (apply Fq.after; apply fq_modDma)
    | (apply Fq.after; apply fq_forEach) | fail_if_no_progress (apply Fq.after; (apply Fq.upd) <;> rfl))

theorem fq_handOver (a1) (a2) (s : State) : Fq s (handOver a1 a2 s) := by
  unfold handOver
  try dsimp only
  repeat' (first
    | (with_reducible first
        | exact Fq.refl _ | apply Fq.ite | (apply Fq.after; apply fq_logEvent) | (apply Fq.after; apply fq_dmaGoOn)
        | (apply Fq.after; apply fq_failRec) | (apply Fq.after; apply fq_dmaTake))
    | split)

theorem fq_dmaDiscard (a1) (s : State) : Fq s (dmaDiscard a1 s) := by
  unfold dmaDiscard
  try dsimp only
  repeat' (with_reducible first
    | exact Fq.refl _ | intro i s | intro s | (apply Fq.after; apply fq_wr) | (apply Fq.after; apply fq_modDma)
    | (apply Fq.after; apply fq_forEach) | fail_if_no_progress (apply Fq.after; (apply Fq.upd) <;> rfl))

theorem fq_dmaError (a1) (a2) (s : State) : Fq s (dmaError a1 a2 s) := by
  unfold dmaError
  try dsimp only
  repeat' (first
    | (with_reducible first
        | exact Fq.refl _ | apply Fq.ite | (apply Fq.after; apply fq_logEvent) | (apply Fq.after; apply fq_setFlag)
        | (apply Fq.after; apply fq_modDma) | fail_if_no_progress (apply Fq.after; (apply Fq.upd) <;> rfl))
    | split)

theorem fq_afterRec (a1) (a2) (a3) (s : State) : Fq s (afterRec a1 a2 a3 s) := by
  unfold afterRec
  try dsimp only
  repeat' (first
    | (with_reducible first
        | exact Fq.refl _ | apply Fq.ite | (apply Fq.after; apply fq_pcNext) | (apply Fq.after; apply fq_handOver)
        | (apply Fq.after; apply fq_dmaDiscard) | (apply Fq.after; apply fq_dmaError) | (apply Fq.after; apply fq_dmaGoOn)
        | (apply Fq.after; apply fq_failRec) | (apply Fq.after; apply fq_modDma) | refine Fq.of_fst ‹_ = _› ?_
        | refine Fq.of_snd ‹_ = _› ?_ | refine Fq.of_thd ‹_ = _› ?_ | fail_if_no_progress (apply Fq.after; (apply Fq.upd) <;> rfl))
    | split)

theorem fq_cqVector (a1) (s : State) : Fq s (cqVector a1 s) := by
  unfold cqVector
  repeat' (with_reducible first
    | exact Fq.refl _ | (apply Fq.after; apply fq_sendMsix) | fail_if_no_progress (apply Fq.after; (apply Fq.upd) <;> rfl))

theorem fq_cqWrite (a1) (a2) (s : State) : Fq s (cqWrite a1 a2 s) := by
  unfold cqWrite
  try dsimp only
  repeat' (first
    | (with_reducible first
        | exact Fq.refl _ | apply Fq.ite | (apply Fq.after; apply fq_raiseSig) | (apply Fq.after; apply fq_setF)
        | (apply Fq.after; apply fq_postWrite) | (apply Fq.after; apply fq_cqVector)
        | fail_if_no_progress (apply Fq.after; (apply Fq.upd) <;> rfl))
    | split)

theorem fq_dmaFull (a1) (s : State) : Fq s (dmaFull a1 s) := by
  unfold dmaFull
  try dsimp only
  repeat' (with_reducible first
    | exact Fq.refl _ | (apply Fq.after; apply fq_logEvent) | (apply Fq.after; apply fq_setFlag) | (apply Fq.after; apply fq_modDma)
    | fail_if_no_progress (apply Fq.after; (apply Fq.upd) <;> rfl))

theorem fq_dmaPump (n c : Nat) (s : State) : Fq s (dmaPump n c s) := by
  induction n generalizing s with
  | zero => exact .refl s
  | succ n ih =>
    unfold dmaPump
    dsimp only
    split
    · exact .refl s
    · refine Fq.ite ?_ (Fq.ite (.refl s) (fq_dmaFull ..))
      refine Fq.after (ih _) ?_
      refine Fq.after (fq_afterRec ..) ?_
      exact (fq_cqWrite ..).trans (fq_modDma ..)

theorem fq_dmaRec (a1) (a2) (a3) (a4) (s : State) : Fq s (dmaRec a1 a2 a3 a4 s) := by
  unfold dmaRec
  repeat' (with_reducible first
    | exact Fq.refl _ | (apply Fq.after; apply fq_dmaPump) | (apply Fq.after; apply fq_dmaAddRec))

theorem fq_dmaAbort (a1) (s : State) : Fq s (dmaAbort a1 s) := by
  unfold dmaAbort
  try dsimp only
  repeat' (first
    | (with_reducible first
        | exact Fq.refl _ | (apply Fq.after; apply fq_dmaRec) | (apply Fq.after; apply fq_dmaPause) | (apply Fq.after; apply fq_modDma)
        | refine Fq.of_fst ‹_ = _› ?_ | refine Fq.of_snd ‹_ = _› ?_ | refine Fq.of_thd ‹_ = _› ?_
        | fail_if_no_progress (apply Fq.after; (apply Fq.upd) <;> rfl))
    | split)

theorem fq_dmaClose (a1) (a2) (a3) (a4) (a5) (s : State) : Fq s (dmaClose a1 a2 a3 a4 a5 s) := by
  unfold dmaClose
  repeat' (first
    | (with_reducible first
        | exact Fq.refl _ | apply Fq.ite | (apply Fq.after; apply fq_dmaRec) | (apply Fq.after; apply fq_afterRec)
        | (apply Fq.after; apply fq_dmaPump))
    | split)

theorem fq_dmaStart (a1) (s : State) : Fq s (dmaStart a1 s) := by
  unfold dmaStart
  try dsimp only
  repeat' (with_reducible first
    | exact Fq.refl _ | (apply Fq.after; apply fq_handOver) | (apply Fq.after; apply fq_dmaPump) | (apply Fq.after; apply fq_modDma)
    | fail_if_no_progress (apply Fq.after; (apply Fq.upd) <;> rfl))

theorem fq_dmaResult (a1) (a2) (a3) (s : State) : Fq s (dmaResult a1 a2 a3 s) := by
  unfold dmaResult
  try dsimp only
  repeat' (first
    | (with_reducible first
        | exact Fq.refl _ | apply Fq.ite | (apply Fq.after; apply fq_logEvent) | (apply Fq.after; apply fq_wr))
    | split)

theorem fq_dmaFail (a1) (a2) (s : State) : Fq s (dmaFail a1 a2 s) := by
  unfold dmaFail
  repeat' (with_reducible first
    | exact Fq.refl _ | (apply Fq.after; apply fq_dmaPump) | (apply Fq.after; apply fq_failRec))

theorem fq_errAddr (a1) (a2) (s : State) : Fq s (errAddr a1 a2 s) := by
  unfold errAddr
  repeat' (with_reducible first
    | exact Fq.refl _ | (apply Fq.after; apply fq_wr))

theorem fq_dmaCount (a1) (a2) (s : State) : Fq s (dmaCount a1 a2 s) := by
  unfold dmaCount
  try dsimp only
  repeat' (with_reducible first
    | exact Fq.refl _ | (apply Fq.after; apply fq_wr))

theorem fq_dmaPut (a1) (a2) (a3) (a4) (s : State) : Fq s (dmaPut a1 a2 a3 a4 s) := by
  unfold dmaPut
  try dsimp only
  repeat' (first
    | (with_reducible first
        | exact Fq.refl _ | apply Fq.ite | (apply Fq.after; apply fq_sramWrite) | (apply Fq.after; apply fq_pageWrite)
        | (apply Fq.after; apply fq_toHost) | (apply Fq.after; apply fq_marchYield) | (apply Fq.after; apply fq_modDma)
        | fail_if_no_progress (apply Fq.after; (apply Fq.upd) <;> rfl))
    | split)

theorem fq_dmaStore (all : Bool) (n c : Nat) (s : State) : Fq s (dmaStore all n c s) := by
  induction n generalizing s with
  | zero => exact .refl s
  | succ n ih =>
    unfold dmaStore
    dsimp only
    refine Fq.ite (.refl s) (Fq.ite ?_ ((fq_errAddr ..).trans (fq_modDma ..)))
    refine Fq.after (ih _) ?_
    exact ((fq_modDma ..).trans (fq_dmaPut ..)).trans (fq_dmaCount ..)

theorem fq_dmaNext (a1) (s : State) : Fq s (dmaNext a1 s) := by
  unfold dmaNext
  repeat' (first
    | (with_reducible first
        | exact Fq.refl _ | (apply Fq.after; apply fq_pcNext) | (apply Fq.after; apply fq_dmaFail) | refine Fq.of_fst ‹_ = _› ?_
        | refine Fq.of_snd ‹_ = _› ?_ | refine Fq.of_thd ‹_ = _› ?_ | fail_if_no_progress (apply Fq.after; (apply Fq.upd) <;> rfl))
    | split)

theorem fq_dmaXferDone (a1) (s : State) : Fq s (dmaXferDone a1 s) := by
  unfold dmaXferDone
  try dsimp only
  repeat' (with_reducible first
    | exact Fq.refl _ | (apply Fq.after; apply fq_dmaNext) | (apply Fq.after; apply fq_wr) | (apply Fq.after; apply fq_modDma)
    | fail_if_no_progress (apply Fq.after; (apply Fq.upd) <;> rfl))

theorem fq_tookTurn (a1) (a2) (s : State) : Fq s (tookTurn a1 a2 s) := by
  unfold tookTurn
  repeat' (with_reducible first
    | exact Fq.refl _ | fail_if_no_progress (apply Fq.after; (apply Fq.upd) <;> rfl))

theorem fq_issueRead (a1) (s : State) : Fq s (issueRead a1 s) := by
  unfold issueRead
  try dsimp only
  repeat' (first
    | (with_reducible first
        | exact Fq.refl _ | apply Fq.ite | (apply Fq.after; apply fq_errAddr) | (apply Fq.after; apply fq_tookTurn)
        | (apply Fq.after; apply fq_toHost) | (apply Fq.after; apply fq_modDma)
        | fail_if_no_progress (apply Fq.after; (apply Fq.upd) <;> rfl))
    | split)

theorem fq_dmaServe (cs : List Nat) (n : Nat) (s : State) : Fq s (dmaServe cs n s) := by
  induction n generalizing s with
  | zero => exact .refl s
  | succ n ih =>
    unfold dmaServe
    split
    · exact (fq_issueRead ..).trans (ih _)
    · exact .refl s

theorem fq_dmaIssue (a1) (s : State) : Fq s (dmaIssue a1 s) := by
  unfold dmaIssue
  try dsimp only
  repeat' (with_reducible first
    | exact Fq.refl _ | intro i s | intro s | (apply Fq.after; apply fq_dmaFail) | (apply Fq.after; apply fq_dmaServe)
    | (apply Fq.after; apply fq_forEach))

theorem fq_dmaMove (a1) (s : State) : Fq s (dmaMove a1 s) := by
  unfold dmaMove
  try dsimp only
  repeat' (first
    | (with_reducible first
        | exact Fq.refl _ | apply Fq.ite | (apply Fq.after; apply fq_dmaFail) | (apply Fq.after; apply fq_dmaStore)
        | (apply Fq.after; apply fq_dmaXferDone) | (apply Fq.after; apply fq_dmaIssue) | (apply Fq.after; apply fq_modDma)
        | refine Fq.of_fst ‹_ = _› ?_ | refine Fq.of_snd ‹_ = _› ?_ | refine Fq.of_thd ‹_ = _› ?_
        | fail_if_no_progress (apply Fq.after; (apply Fq.upd) <;> rfl))
    | split)

theorem fq_dmaResume (a1) (s : State) : Fq s (dmaResume a1 s) := by
  unfold dmaResume
  try dsimp only
  repeat' (first
    | (with_reducible first
        | exact Fq.refl _ | apply Fq.ite | (apply Fq.after; apply fq_dmaMove) | (apply Fq.after; apply fq_dmaPump)
        | (apply Fq.after; apply fq_modDma) | fail_if_no_progress (apply Fq.after; (apply Fq.upd) <;> rfl))
    | split)

theorem fq_dmaDrain (a1) (s : State) : Fq s (dmaDrain a1 s) := by
  unfold dmaDrain
  try dsimp only
  repeat' (first
    | (with_reducible first
        | exact Fq.refl _ | apply Fq.ite | (apply Fq.after; apply fq_dmaPump) | (apply Fq.after; apply fq_dmaDrained)
        | (apply Fq.after; apply fq_modDma) | fail_if_no_progress (apply Fq.after; (apply Fq.upd) <;> rfl))
    | split)

theorem fq_dmaCmd (a1) (a2) (s : State) : Fq s (dmaCmd a1 a2 s) := by
  unfold dmaCmd
  try dsimp only
  repeat' (first
    | (with_reducible first
        | exact Fq.refl _ | apply Fq.ite | (apply Fq.after; apply fq_dmaAbort) | (apply Fq.after; apply fq_dmaStart)
        | (apply Fq.after; apply fq_dmaResult) | (apply Fq.after; apply fq_dmaResume) | (apply Fq.after; apply fq_dmaPause)
        | (apply Fq.after; apply fq_dmaDrain) | (apply Fq.after; apply fq_modDma)
        | fail_if_no_progress (apply Fq.after; (apply Fq.upd) <;> rfl))
    | split)

theorem fq_dmaUnhold (s : State) : Fq s (dmaUnhold s) := by
  unfold dmaUnhold
  repeat' (with_reducible first
    | exact Fq.refl _ | (apply Fq.after; apply fq_dmaIssue))

theorem fq_pauseDone (a1) (s : State) : Fq s (pauseDone a1 s) := by
  unfold pauseDone
  try dsimp only
  repeat' (first
    | (with_reducible first
        | exact Fq.refl _ | apply Fq.ite | (apply Fq.after; apply fq_dmaRec) | (apply Fq.after; apply fq_dmaFail)
        | (apply Fq.after; apply fq_dmaStore) | (apply Fq.after; apply fq_dmaPaused) | (apply Fq.after; apply fq_dmaPump)
        | (apply Fq.after; apply fq_dmaDrained) | (apply Fq.after; apply fq_modDma) | refine Fq.of_fst ‹_ = _› ?_
        | refine Fq.of_snd ‹_ = _› ?_ | refine Fq.of_thd ‹_ = _› ?_ | fail_if_no_progress (apply Fq.after; (apply Fq.upd) <;> rfl))
    | split)

theorem fq_readDone (a1) (a2) (a3) (s : State) : Fq s (readDone a1 a2 a3 s) := by
  unfold readDone
  try dsimp only
  repeat' (first
    | (with_reducible first
        | exact Fq.refl _ | apply Fq.ite | (apply Fq.after; apply fq_errAddr) | (apply Fq.after; apply fq_dmaMove)
        | (apply Fq.after; apply fq_modDma) | refine Fq.of_fst ‹_ = _› ?_ | refine Fq.of_snd ‹_ = _› ?_ | refine Fq.of_thd ‹_ = _› ?_
        | fail_if_no_progress (apply Fq.after; (apply Fq.upd) <;> rfl))
    | split)

theorem fq_serveRead (a1) (a2) (s : State) : Fq s (serveRead a1 a2 s) := by
  unfold serveRead
  try dsimp only
  repeat' (first
    | (with_reducible first
        | exact Fq.refl _ | apply Fq.ite | (apply Fq.after; apply fq_tookTurn) | (apply Fq.after; apply fq_marchYield)
        | (apply Fq.after; apply fq_modDma) | refine Fq.of_fst ‹_ = _› ?_ | refine Fq.of_snd ‹_ = _› ?_ | refine Fq.of_thd ‹_ = _› ?_
        | fail_if_no_progress (apply Fq.after; (apply Fq.upd) <;> rfl))
    | split)

theorem fq_portTurn (port : Nat) (stop : State → Bool) (n : Nat) (s : State) : Fq s (portTurn port stop n s) := by
  induction n generalizing s with
  | zero => exact .refl s
  | succ n ih =>
    unfold portTurn
    split
    · exact .refl s
    · split
      · exact (fq_serveRead ..).trans (ih _)
      · exact .refl s

theorem fq_ownEnd (a1) (a2) (a3) (a4) (s : State) : Fq s (ownEnd a1 a2 a3 a4 s) := by
  unfold ownEnd
  try dsimp only
  repeat' (first
    | (with_reducible first
        | exact Fq.refl _ | intro i s | intro s | apply Fq.ite | (apply Fq.after; apply fq_portTurn)
        | (apply Fq.after; apply fq_readDone) | (apply Fq.after; apply fq_eccErrors) | refine Fq.of_fst ‹_ = _› ?_
        | refine Fq.of_snd ‹_ = _› ?_ | refine Fq.of_thd ‹_ = _› ?_ | fail_if_no_progress (apply Fq.after; (apply Fq.upd) <;> rfl))
    | split)

theorem fq_readEnd (a1) (a2) (a3) (s : State) : Fq s (readEnd a1 a2 a3 s) := by
  unfold readEnd
  try dsimp only
  repeat' (first
    | (with_reducible first
        | exact Fq.refl _ | apply Fq.ite | (apply Fq.after; apply fq_readDone) | (apply Fq.after; apply fq_ownEnd)
        | refine Fq.of_fst ‹_ = _› ?_ | refine Fq.of_snd ‹_ = _› ?_ | refine Fq.of_thd ‹_ = _› ?_
        | fail_if_no_progress (apply Fq.after; (apply Fq.upd) <;> rfl))
    | split)

theorem fq_shadowWrite (a1) (a2) (a3) (s : State) : Fq s (shadowWrite a1 a2 a3 s) := by
  unfold shadowWrite
  try dsimp only
  repeat' (first
    | (with_reducible first
        | exact Fq.refl _ | apply Fq.ite | (apply Fq.after; apply fq_logEvent) | (apply Fq.after; apply fq_setFlag)
        | (apply Fq.after; apply fq_wr))
    | split)

theorem fq_sigRaiseWrite (a1) (s : State) : Fq s (sigRaiseWrite a1 s) := by
  unfold sigRaiseWrite
  repeat' (first
    | (with_reducible first
        | exact Fq.refl _ | apply Fq.ite | (apply Fq.after; apply fq_sigPut) | (apply Fq.after; apply fq_raiseSig))
    | split)

theorem fq_fetchTurn (a1) (s : State) : Fq s (fetchTurn a1 s) := by
  unfold fetchTurn
  try dsimp only
  repeat' (with_reducible first
    | exact Fq.refl _ | intro i s | intro s | (apply Fq.after; apply fq_portTurn) | (apply Fq.after; apply fq_tookTurn))

/-! ### Memories -/

theorem fq_asleepHit (a1) (a2) (a3) (s : State) : Fq s (asleepHit a1 a2 a3 s) := by
  unfold asleepHit
  try dsimp only
  repeat' (first
    | (with_reducible first
        | exact Fq.refl _ | apply Fq.ite | (apply Fq.after; apply fq_logEvent) | (apply Fq.after; apply fq_setFlag)
        | fail_if_no_progress (apply Fq.after; (apply Fq.upd) <;> rfl))
    | split)

theorem fq_bankMove (a1) (a2) (s : State) : Fq s (bankMove a1 a2 s) := by
  unfold bankMove
  try dsimp only
  repeat' (first
    | (with_reducible first
        | exact Fq.refl _ | apply Fq.ite | (apply Fq.after; apply fq_setF) | refine Fq.of_fst ‹_ = _› ?_ | refine Fq.of_snd ‹_ = _› ?_
        | refine Fq.of_thd ‹_ = _› ?_ | fail_if_no_progress (apply Fq.after; (apply Fq.upd) <;> rfl))
    | split)

theorem fq_bankPower (a1) (s : State) : Fq s (bankPower a1 s) := by
  unfold bankPower
  repeat' (with_reducible first
    | exact Fq.refl _ | (apply Fq.after; apply fq_bankFill) | fail_if_no_progress (apply Fq.after; (apply Fq.upd) <;> rfl))

theorem fq_putBytes (put : Nat → List Byte → State → State) (h : ∀ a b s, Fq s (put a b s)) (a : Nat) (l : List (Option Byte)) (s : State) :
    Fq s (putBytes put a l s) := by
  induction l generalizing a s with
  | nil => exact .refl s
  | cons b bs ih =>
    cases b with
    | none => exact ih ..
    | some b => exact (h ..).trans (ih ..)

theorem fq_bar2 (a1) (a2) (s : State) : Fq s (bar2 a1 a2 s) := by
  unfold bar2
  try dsimp only
  repeat' (first
    | (with_reducible first
        | exact Fq.refl _ | intro i s | intro s | apply Fq.ite | (apply Fq.after; apply fq_sramWrite)
        | (apply Fq.after; apply fq_putBytes) | (apply Fq.after; apply fq_respond) | (apply Fq.after; apply fq_marchYield)
        | (apply Fq.after; apply fq_asleepHit) | (apply Fq.after; apply fq_foldl) | refine Fq.of_fst ‹_ = _› ?_
        | refine Fq.of_snd ‹_ = _› ?_ | refine Fq.of_thd ‹_ = _› ?_ | fail_if_no_progress (apply Fq.after; (apply Fq.upd) <;> rfl))
    | split)

theorem fq_bar4 (a1) (a2) (a3) (s : State) : Fq s (bar4 a1 a2 a3 s) := by
  unfold bar4
  try dsimp only
  repeat' (first
    | (with_reducible first
        | exact Fq.refl _ | intro i s | intro s | apply Fq.ite | (apply Fq.after; apply fq_putBytes)
        | (apply Fq.after; apply fq_pageWrite) | (apply Fq.after; apply fq_eccErrors) | (apply Fq.after; apply fq_respond)
        | (apply Fq.after; apply fq_emit) | refine Fq.of_fst ‹_ = _› ?_ | refine Fq.of_snd ‹_ = _› ?_ | refine Fq.of_thd ‹_ = _› ?_
        | fail_if_no_progress (apply Fq.after; (apply Fq.upd) <;> rfl))
    | split)

theorem fq_marchEnd (s : State) : Fq s (marchEnd s) := by
  unfold marchEnd
  repeat' (first
    | (with_reducible first
        | exact Fq.refl _ | (apply Fq.after; apply fq_bankFill) | (apply Fq.after; apply fq_setF) | refine Fq.of_fst ‹_ = _› ?_
        | refine Fq.of_snd ‹_ = _› ?_ | refine Fq.of_thd ‹_ = _› ?_ | fail_if_no_progress (apply Fq.after; (apply Fq.upd) <;> rfl))
    | split)

theorem fq_wayFails (a1) (a2) (s : State) : Fq s (wayFails a1 a2 s) := by
  unfold wayFails
  repeat' (first
    | (with_reducible first
        | exact Fq.refl _ | apply Fq.ite | (apply Fq.after; apply fq_setF))
    | split)

theorem fq_repairLow (a1) (s : State) : Fq s (repairLow a1 s) := by
  unfold repairLow
  try dsimp only
  repeat' (first
    | (with_reducible first
        | exact Fq.refl _ | intro i s | intro s | apply Fq.ite | (apply Fq.after; apply fq_logEvent)
        | (apply Fq.after; apply fq_setFlag) | (apply Fq.after; apply fq_setF) | (apply Fq.after; apply fq_foldl)
        | refine Fq.of_fst ‹_ = _› ?_ | refine Fq.of_snd ‹_ = _› ?_ | refine Fq.of_thd ‹_ = _› ?_
        | fail_if_no_progress (apply Fq.after; (apply Fq.upd) <;> rfl))
    | split)

theorem fq_marchFault (a1) (a2) (s : State) : Fq s (marchFault a1 a2 s) := by
  unfold marchFault
  try dsimp only
  repeat' (first
    | (with_reducible first
        | exact Fq.refl _ | apply Fq.ite | (apply Fq.after; apply fq_logEvent) | (apply Fq.after; apply fq_setFlag)
        | (apply Fq.after; apply fq_wayFails) | (apply Fq.after; apply fq_repairLow) | (apply Fq.after; apply fq_wr)
        | (apply Fq.after; apply fq_incF) | fail_if_no_progress (apply Fq.after; (apply Fq.upd) <;> rfl))
    | split)

theorem fq_testFaults (a1) (a2) (s : State) : Fq s (testFaults a1 a2 s) := by
  unfold testFaults
  try dsimp only
  repeat' (with_reducible first
    | exact Fq.refl _ | intro i s | intro s | (apply Fq.after; apply fq_marchFault) | (apply Fq.after; apply fq_foldl))

theorem fq_memResult (a1) (a2) (a3) (s : State) : Fq s (memResult a1 a2 a3 s) := by
  unfold memResult
  try dsimp only
  repeat' (first
    | (with_reducible first
        | exact Fq.refl _ | apply Fq.ite | (apply Fq.after; apply fq_logEvent) | (apply Fq.after; apply fq_wr))
    | split)

theorem fq_marchCut (s : State) : Fq s (marchCut s) := by
  unfold marchCut
  repeat' (first
    | (with_reducible first
        | exact Fq.refl _ | (apply Fq.after; apply fq_marchEnd) | refine Fq.of_fst ‹_ = _› ?_ | refine Fq.of_snd ‹_ = _› ?_
        | refine Fq.of_thd ‹_ = _› ?_ | fail_if_no_progress (apply Fq.after; (apply Fq.upd) <;> rfl))
    | split)

theorem fq_marchStart (a1) (s : State) : Fq s (marchStart a1 s) := by
  unfold marchStart
  try dsimp only
  repeat' (with_reducible first
    | exact Fq.refl _ | (apply Fq.after; apply fq_bankFill) | (apply Fq.after; apply fq_setF)
    | fail_if_no_progress (apply Fq.after; (apply Fq.upd) <;> rfl))

theorem fq_memCmd (a1) (a2) (s : State) : Fq s (memCmd a1 a2 s) := by
  unfold memCmd
  try dsimp only
  repeat' (first
    | (with_reducible first
        | exact Fq.refl _ | apply Fq.ite | (apply Fq.after; apply fq_bankMove) | (apply Fq.after; apply fq_memResult)
        | (apply Fq.after; apply fq_marchCut) | (apply Fq.after; apply fq_marchStart))
    | split)

/-! ### Stepper -/

theorem fq_trLost (a1) (a2) (s : State) : Fq s (trLost s a1 a2) := by
  unfold trLost
  repeat' (first
    | (with_reducible first
        | exact Fq.refl _ | apply Fq.ite | (apply Fq.after; apply fq_ssAbandon))
    | split)

theorem fq_homePhase (a1) (a2) (a3) (a4) (s : State) : Fq s (homePhase a1 a2 a3 a4 s) := by
  unfold homePhase
  try dsimp only
  repeat' (with_reducible first
    | exact Fq.refl _ | (apply Fq.after; apply fq_modAx) | fail_if_no_progress (apply Fq.after; (apply Fq.upd) <;> rfl))

theorem fq_axRefs (a1) (s : State) : Fq s (axRefs a1 s) := by
  unfold axRefs
  try dsimp only
  repeat' (first
    | (with_reducible first
        | exact Fq.refl _ | apply Fq.ite | (apply Fq.after; apply fq_modAx)
        | fail_if_no_progress (apply Fq.after; (apply Fq.upd) <;> rfl))
    | split)

theorem fq_homeRest (a1) (s : State) : Fq s (homeRest a1 s) := by
  unfold homeRest
  try dsimp only
  repeat' (first
    | (with_reducible first
        | exact Fq.refl _ | (apply Fq.after; apply fq_logEvent) | (apply Fq.after; apply fq_homePhase)
        | (apply Fq.after; apply fq_modAx) | (apply Fq.after; apply fq_axRefs) | (apply Fq.after; apply fq_setAx)
        | refine Fq.of_fst ‹_ = _› ?_ | refine Fq.of_snd ‹_ = _› ?_ | refine Fq.of_thd ‹_ = _› ?_
        | fail_if_no_progress (apply Fq.after; (apply Fq.upd) <;> rfl))
    | split)

theorem fq_axArrive (a1) (s : State) : Fq s (axArrive a1 s) := by
  unfold axArrive
  try dsimp only
  repeat' (first
    | (with_reducible first
        | exact Fq.refl _ | apply Fq.ite | (apply Fq.after; apply fq_homeRest) | (apply Fq.after; apply fq_axOff)
        | (apply Fq.after; apply fq_modAx) | (apply Fq.after; apply fq_setAx) | refine Fq.of_fst ‹_ = _› ?_
        | refine Fq.of_snd ‹_ = _› ?_ | refine Fq.of_thd ‹_ = _› ?_ | fail_if_no_progress (apply Fq.after; (apply Fq.upd) <;> rfl))
    | split)

theorem fr_axAdvance (a1) (s : State) : Fr s (axAdvance a1 s) := by
  unfold axAdvance
  try dsimp only
  repeat' (first
    | (with_reducible first
        | exact Fr.refl _ | apply Fr.ite | (apply Fr.after; apply fr_ledgerRequest) | (apply Fr.after; apply Fq.fr; apply fq_logEvent)
        | (apply Fr.after; apply Fq.fr; apply fq_trLost) | (apply Fr.after; apply Fq.fr; apply fq_modProf)
        | (apply Fr.after; apply Fq.fr; apply fq_axRelease) | (apply Fr.after; apply Fq.fr; apply fq_axArrive)
        | refine Fr.of_fst ‹_ = _› ?_ | refine Fr.of_snd ‹_ = _› ?_ | refine Fr.of_thd ‹_ = _› ?_
        | fail_if_no_progress (apply Fr.after; (apply Fr.upd) <;> rfl))
    | split)

theorem fq_axDevShow (a1) (s : State) : Fq s (axDevShow a1 s) := by
  unfold axDevShow
  repeat' (first
    | (with_reducible first
        | exact Fq.refl _ | apply Fq.ite | (apply Fq.after; apply fq_wr))
    | split)

theorem fq_axJog (a1) (s : State) : Fq s (axJog a1 s) := by
  unfold axJog
  try dsimp only
  repeat' (first
    | (with_reducible first
        | exact Fq.refl _ | apply Fq.ite | (apply Fq.after; apply fq_modProf) | refine Fq.of_fst ‹_ = _› ?_
        | refine Fq.of_snd ‹_ = _› ?_ | refine Fq.of_thd ‹_ = _› ?_ | fail_if_no_progress (apply Fq.after; (apply Fq.upd) <;> rfl))
    | split)

theorem fq_axModeCheck (a1) (a2) (s : State) : Fq s (axModeCheck a1 a2 s) := by
  unfold axModeCheck
  try dsimp only
  repeat' (first
    | (with_reducible first
        | exact Fq.refl _ | apply Fq.ite | (apply Fq.after; apply fq_logEvent) | (apply Fq.after; apply fq_modAx)
        | refine Fq.of_fst ‹_ = _› ?_ | refine Fq.of_snd ‹_ = _› ?_ | refine Fq.of_thd ‹_ = _› ?_
        | fail_if_no_progress (apply Fq.after; (apply Fq.upd) <;> rfl))
    | split)

theorem fq_axSoftCheck (a1) (s : State) : Fq s (axSoftCheck a1 s) := by
  unfold axSoftCheck
  try dsimp only
  repeat' (first
    | (with_reducible first
        | exact Fq.refl _ | apply Fq.ite | (apply Fq.after; apply fq_logEvent) | (apply Fq.after; apply fq_setFlag)
        | (apply Fq.after; apply fq_trLost) | (apply Fq.after; apply fq_axRamp) | refine Fq.of_fst ‹_ = _› ?_
        | refine Fq.of_snd ‹_ = _› ?_ | refine Fq.of_thd ‹_ = _› ?_ | fail_if_no_progress (apply Fq.after; (apply Fq.upd) <;> rfl))
    | split)

theorem fr_axStall (a1) (s : State) : Fr s (axStall a1 s) := by
  unfold axStall
  try dsimp only
  repeat' (first
    | (with_reducible first
        | exact Fr.refl _ | apply Fr.ite | (apply Fr.after; apply Fq.fr; apply fq_axDevShow)
        | (apply Fr.after; apply Fq.fr; apply fq_setFlag) | (apply Fr.after; apply Fq.fr; apply fq_modAx)
        | (apply Fr.after; apply Fq.fr; apply fq_axRelease) | (apply Fr.after; apply fr_raise)
        | (apply Fr.after; apply Fq.fr; apply fq_setAx) | fail_if_no_progress (apply Fr.after; (apply Fr.upd) <;> rfl))
    | split)

theorem fq_homeFail (a1) (a2) (s : State) : Fq s (homeFail a1 a2 s) := by
  unfold homeFail
  try dsimp only
  repeat' (first
    | (with_reducible first
        | exact Fq.refl _ | apply Fq.ite | (apply Fq.after; apply fq_setFlag) | (apply Fq.after; apply fq_modAx)
        | (apply Fq.after; apply fq_axRamp) | (apply Fq.after; apply fq_axStop)
        | fail_if_no_progress (apply Fq.after; (apply Fq.upd) <;> rfl))
    | split)

theorem fq_homeLatch (a1) (a2) (s : State) : Fq s (homeLatch a1 a2 s) := by
  unfold homeLatch
  try dsimp only
  repeat' (with_reducible first
    | exact Fq.refl _ | (apply Fq.after; apply fq_modAx) | (apply Fq.after; apply fq_wr)
    | fail_if_no_progress (apply Fq.after; (apply Fq.upd) <;> rfl))

theorem fq_homeBack (a1) (s : State) : Fq s (homeBack a1 s) := by
  unfold homeBack
  repeat' (with_reducible first
    | exact Fq.refl _ | (apply Fq.after; apply fq_homePhase))

theorem fq_homeEdge (a1) (a2) (a3) (a4) (s : State) : Fq s (homeEdge a1 a2 a3 a4 s) := by
  unfold homeEdge
  try dsimp only
  repeat' (first
    | (with_reducible first
        | exact Fq.refl _ | apply Fq.ite | (apply Fq.after; apply fq_modProf) | (apply Fq.after; apply fq_homeLatch)
        | (apply Fq.after; apply fq_modAx) | (apply Fq.after; apply fq_homeBack)
        | fail_if_no_progress (apply Fq.after; (apply Fq.upd) <;> rfl))
    | split)

theorem fq_homeFar (a1) (s : State) : Fq s (homeFar a1 s) := by
  unfold homeFar
  try dsimp only
  repeat' (first
    | (with_reducible first
        | exact Fq.refl _ | apply Fq.ite | (apply Fq.after; apply fq_modAx) | refine Fq.of_fst ‹_ = _› ?_ | refine Fq.of_snd ‹_ = _› ?_
        | refine Fq.of_thd ‹_ = _› ?_ | fail_if_no_progress (apply Fq.after; (apply Fq.upd) <;> rfl))
    | split)

theorem fq_stpResult (a1) (a2) (a3) (a4) (s : State) : Fq s (stpResult a1 a2 a3 a4 s) := by
  unfold stpResult
  try dsimp only
  repeat' (first
    | (with_reducible first
        | exact Fq.refl _ | apply Fq.ite | (apply Fq.after; apply fq_logEvent) | (apply Fq.after; apply fq_wr))
    | split)

theorem fq_stpEnable (a1) (s : State) : Fq s (stpEnable a1 s) := by
  unfold stpEnable
  try dsimp only
  repeat' (first
    | (with_reducible first
        | exact Fq.refl _ | (apply Fq.after; apply fq_logEvent) | (apply Fq.after; apply fq_modAx) | (apply Fq.after; apply fq_axRefs)
        | (apply Fq.after; apply fq_setAx) | refine Fq.of_fst ‹_ = _› ?_ | refine Fq.of_snd ‹_ = _› ?_ | refine Fq.of_thd ‹_ = _› ?_
        | fail_if_no_progress (apply Fq.after; (apply Fq.upd) <;> rfl))
    | split)

theorem fq_homeStart (a1) (s : State) : Fq s (homeStart a1 s) := by
  unfold homeStart
  try dsimp only
  repeat' (first
    | (with_reducible first
        | exact Fq.refl _ | apply Fq.ite | (apply Fq.after; apply fq_homePhase) | (apply Fq.after; apply fq_modAx)
        | (apply Fq.after; apply fq_homeBack) | (apply Fq.after; apply fq_setAx)
        | fail_if_no_progress (apply Fq.after; (apply Fq.upd) <;> rfl))
    | split)

theorem fr_stpTable (a1) (a2) (a3) (a4) (s : State) : Fr s (stpTable a1 a2 a3 a4 s).2 := by
  unfold stpTable
  try dsimp only
  repeat' (first
    | (with_reducible first
        | exact Fr.refl _ | apply Fr.ite | (apply Fr.after; apply Fq.fr; apply fq_stpEnable)
        | (apply Fr.after; apply Fq.fr; apply fq_modProf) | (apply Fr.after; apply Fq.fr; apply fq_axMove)
        | (apply Fr.after; apply Fq.fr; apply fq_axOff) | (apply Fr.after; apply fr_useSoft)
        | (apply Fr.after; apply Fq.fr; apply fq_axRamp) | (apply Fr.after; apply Fq.fr; apply fq_axStop)
        | (apply Fr.after; apply Fq.fr; apply fq_homeStart) | (apply Fr.after; apply Fq.fr; apply fq_axPlan)
        | (apply Fr.after; apply Fq.fr; apply fq_axRefs) | refine Fr.of_fst ‹_ = _› ?_ | refine Fr.of_snd ‹_ = _› ?_
        | refine Fr.of_thd ‹_ = _› ?_ | fail_if_no_progress (apply Fr.after; (apply Fr.upd) <;> rfl))
    | split)

theorem fr_stpCmd (a1) (a2) (a3) (a4) (s : State) : Fr s (stpCmd a1 a2 a3 a4 s) := by
  unfold stpCmd
  try dsimp only
  repeat' (first
    | (with_reducible first
        | exact Fr.refl _ | apply Fr.ite | (apply Fr.after; apply Fq.fr; apply fq_stpResult) | (apply Fr.after; apply fr_stpTable))
    | split)

/-! ### Motor -/

theorem fq_alignPeriod (a1) (s : State) : Fq s (alignPeriod a1 s) := by
  unfold alignPeriod
  try dsimp only
  repeat' (with_reducible first
    | exact Fq.refl _ | (apply Fq.after; apply fq_modMo) | fail_if_no_progress (apply Fq.after; (apply Fq.upd) <;> rfl))

theorem fq_busHigh (a1) (s : State) : Fq s (busHigh a1 s) := by
  unfold busHigh
  try dsimp only
  repeat' (first
    | (with_reducible first
        | exact Fq.refl _ | apply Fq.ite | (apply Fq.after; apply fq_logEvent) | (apply Fq.after; apply fq_setFlag)
        | (apply Fq.after; apply fq_modMo) | fail_if_no_progress (apply Fq.after; (apply Fq.upd) <;> rfl))
    | split)

theorem fq_moRun (a1) (a2) (s : State) : Fq s (moRun a1 a2 s) := by
  unfold moRun
  try dsimp only
  repeat' (first
    | (with_reducible first
        | exact Fq.refl _ | apply Fq.ite | (apply Fq.after; apply fq_setMo) | (apply Fq.after; apply fq_modMo)
        | fail_if_no_progress (apply Fq.after; (apply Fq.upd) <;> rfl))
    | split)

theorem fq_moStartup (a1) (a2) (a3) (s : State) : Fq s (moStartup a1 a2 a3 s) := by
  unfold moStartup
  try dsimp only
  repeat' (first
    | (with_reducible first
        | exact Fq.refl _ | apply Fq.ite | (apply Fq.after; apply fq_setMo) | (apply Fq.after; apply fq_modMo)
        | refine Fq.of_fst ‹_ = _› ?_ | refine Fq.of_snd ‹_ = _› ?_ | refine Fq.of_thd ‹_ = _› ?_
        | fail_if_no_progress (apply Fq.after; (apply Fq.upd) <;> rfl))
    | split)

theorem fq_moBrakeAsk (a1) (s : State) : Fq s (moBrakeAsk a1 s) := by
  unfold moBrakeAsk
  try dsimp only
  repeat' (first
    | (with_reducible first
        | exact Fq.refl _ | apply Fq.ite | (apply Fq.after; apply fq_moRelease) | (apply Fq.after; apply fq_setMo)
        | (apply Fq.after; apply fq_modMo) | (apply Fq.after; apply fq_moCoast)
        | fail_if_no_progress (apply Fq.after; (apply Fq.upd) <;> rfl))
    | split)

theorem fr_motTable (a1) (a2) (a3) (a4) (s : State) : Fr s (motTable a1 a2 a3 a4 s).2 := by
  unfold motTable
  try dsimp only
  repeat' (first
    | (with_reducible first
        | exact Fr.refl _ | apply Fr.ite | (apply Fr.after; apply Fq.fr; apply fq_moSense)
        | (apply Fr.after; apply Fq.fr; apply fq_setMo) | (apply Fr.after; apply fr_useInvar)
        | (apply Fr.after; apply Fq.fr; apply fq_modMo) | (apply Fr.after; apply fr_useSoft)
        | (apply Fr.after; apply Fq.fr; apply fq_moCoast) | (apply Fr.after; apply Fq.fr; apply fq_moMove)
        | (apply Fr.after; apply Fq.fr; apply fq_moDecel) | refine Fr.of_fst ‹_ = _› ?_ | refine Fr.of_snd ‹_ = _› ?_
        | refine Fr.of_thd ‹_ = _› ?_ | fail_if_no_progress (apply Fr.after; (apply Fr.upd) <;> rfl))
    | split)

theorem fq_motResult (a1) (a2) (a3) (a4) (s : State) : Fq s (motResult a1 a2 a3 a4 s) := by
  unfold motResult
  try dsimp only
  repeat' (first
    | (with_reducible first
        | exact Fq.refl _ | apply Fq.ite | (apply Fq.after; apply fq_logEvent) | (apply Fq.after; apply fq_wr))
    | split)

theorem fr_motCmd (a1) (a2) (a3) (a4) (s : State) : Fr s (motCmd a1 a2 a3 a4 s) := by
  unfold motCmd
  try dsimp only
  repeat' (first
    | (with_reducible first
        | exact Fr.refl _ | apply Fr.ite | (apply Fr.after; apply fr_motTable) | (apply Fr.after; apply Fq.fr; apply fq_motResult))
    | split)

theorem fq_moFault (a1) (a2) (s : State) : Fq s (moFault a1 a2 s) := by
  unfold moFault
  try dsimp only
  repeat' (with_reducible first
    | exact Fq.refl _ | (apply Fq.after; apply fq_moRelease) | (apply Fq.after; apply fq_setMo) | (apply Fq.after; apply fq_modMo)
    | (apply Fq.after; apply fq_moDrive) | fail_if_no_progress (apply Fq.after; (apply Fq.upd) <;> rfl))

theorem fr_moTrip (a1) (a2) (a3) (s : State) : Fr s (moTrip a1 a2 a3 s) := by
  unfold moTrip
  repeat' (with_reducible first
    | exact Fr.refl _ | (apply Fr.after; apply Fq.fr; apply fq_setFlag) | (apply Fr.after; apply Fq.fr; apply fq_moFault)
    | (apply Fr.after; apply fr_raise))

theorem fq_moModulate (a1) (s : State) : Fq s (moModulate a1 s) := by
  unfold moModulate
  try dsimp only
  repeat' (first
    | (with_reducible first
        | exact Fq.refl _ | apply Fq.ite | (apply Fq.after; apply fq_putGates) | (apply Fq.after; apply fq_moDrive))
    | split)

theorem fq_startupPeriod (a1) (s : State) : Fq s (startupPeriod a1 s) := by
  unfold startupPeriod
  try dsimp only
  repeat' (first
    | (with_reducible first
        | exact Fq.refl _ | apply Fq.ite | (apply Fq.after; apply fq_logEvent) | (apply Fq.after; apply fq_modMo)
        | (apply Fq.after; apply fq_moCoast) | (apply Fq.after; apply fq_moRun) | (apply Fq.after; apply fq_drawFree)
        | refine Fq.of_fst ‹_ = _› ?_ | refine Fq.of_snd ‹_ = _› ?_ | refine Fq.of_thd ‹_ = _› ?_
        | fail_if_no_progress (apply Fq.after; (apply Fq.upd) <;> rfl))
    | split)

theorem fq_revPeriod (a1) (s : State) : Fq s (revPeriod a1 s) := by
  unfold revPeriod
  try dsimp only
  repeat' (first
    | (with_reducible first
        | exact Fq.refl _ | apply Fq.ite | (apply Fq.after; apply fq_modMo) | refine Fq.of_fst ‹_ = _› ?_ | refine Fq.of_snd ‹_ = _› ?_
        | refine Fq.of_thd ‹_ = _› ?_ | fail_if_no_progress (apply Fq.after; (apply Fq.upd) <;> rfl))
    | split)

theorem fq_moGoOn (a1) (a2) (s : State) : Fq s (moGoOn a1 a2 s) := by
  unfold moGoOn
  try dsimp only
  repeat' (first
    | (with_reducible first
        | exact Fq.refl _ | apply Fq.ite | (apply Fq.after; apply fq_moSense) | (apply Fq.after; apply fq_modMo)
        | fail_if_no_progress (apply Fq.after; (apply Fq.upd) <;> rfl))
    | split)

theorem fq_moStopped (a1) (s : State) : Fq s (moStopped a1 s) := by
  unfold moStopped
  try dsimp only
  repeat' (first
    | (with_reducible first
        | exact Fq.refl _ | apply Fq.ite | (apply Fq.after; apply fq_moBrakeAsk) | (apply Fq.after; apply fq_setMo)
        | (apply Fq.after; apply fq_modMo) | (apply Fq.after; apply fq_moCoast) | (apply Fq.after; apply fq_moGoOn)
        | refine Fq.of_fst ‹_ = _› ?_ | refine Fq.of_snd ‹_ = _› ?_ | refine Fq.of_thd ‹_ = _› ?_
        | fail_if_no_progress (apply Fq.after; (apply Fq.upd) <;> rfl))
    | split)

theorem fr_moLeave (a1) (s : State) : Fr s (moLeave a1 s).2 := by
  unfold moLeave
  try dsimp only
  repeat' (first
    | (with_reducible first
        | exact Fr.refl _ | apply Fr.ite | (apply Fr.after; apply fr_ledgerRequest) | (apply Fr.after; apply Fq.fr; apply fq_logEvent)
        | (apply Fr.after; apply Fq.fr; apply fq_modMo) | (apply Fr.after; apply Fq.fr; apply fq_ssAbandon)
        | refine Fr.of_fst ‹_ = _› ?_ | refine Fr.of_snd ‹_ = _› ?_ | refine Fr.of_thd ‹_ = _› ?_
        | fail_if_no_progress (apply Fr.after; (apply Fr.upd) <;> rfl))
    | split)

theorem fr_speedLoop (a1) (s : State) : Fr s (speedLoop a1 s) := by
  unfold speedLoop
  try dsimp only
  repeat' (first
    | (with_reducible first
        | exact Fr.refl _ | apply Fr.ite | (apply Fr.after; apply Fq.fr; apply fq_moRelease)
        | (apply Fr.after; apply Fq.fr; apply fq_modMo) | (apply Fr.after; apply fr_moLeave) | refine Fr.of_fst ‹_ = _› ?_
        | refine Fr.of_snd ‹_ = _› ?_ | refine Fr.of_thd ‹_ = _› ?_ | fail_if_no_progress (apply Fr.after; (apply Fr.upd) <;> rfl))
    | split)

theorem fq_rotorPipes (s : State) : Fq s (rotorPipes s) := by
  unfold rotorPipes
  try dsimp only
  repeat' (with_reducible first
    | exact Fq.refl _ | intro i s | intro s | (apply Fq.after; apply fq_sendCancel) | (apply Fq.after; apply fq_setPipe)
    | (apply Fq.after; apply fq_modDot) | (apply Fq.after; apply fq_wr) | (apply Fq.after; apply fq_forEach))

theorem fr_loseLock (a1) (a2) (s : State) : Fr s (loseLock a1 a2 s) := by
  unfold loseLock
  try dsimp only
  repeat' (first
    | (with_reducible first
        | exact Fr.refl _ | apply Fr.ite | (apply Fr.after; apply Fq.fr; apply fq_setFlag)
        | (apply Fr.after; apply Fq.fr; apply fq_moRelease) | (apply Fr.after; apply Fq.fr; apply fq_setMo)
        | (apply Fr.after; apply Fq.fr; apply fq_modMo) | (apply Fr.after; apply fr_raise)
        | (apply Fr.after; apply Fq.fr; apply fq_ssAbandon) | (apply Fr.after; apply Fq.fr; apply fq_rotorPipes)
        | refine Fr.of_fst ‹_ = _› ?_ | refine Fr.of_snd ‹_ = _› ?_ | refine Fr.of_thd ‹_ = _› ?_
        | fail_if_no_progress (apply Fr.after; (apply Fr.upd) <;> rfl))
    | split)

theorem fr_posUpdate (a1) (s : State) : Fr s (posUpdate a1 s) := by
  unfold posUpdate
  try dsimp only
  repeat' (first
    | (with_reducible first
        | exact Fr.refl _ | apply Fr.ite | (apply Fr.after; apply Fq.fr; apply fq_moRelease)
        | (apply Fr.after; apply Fq.fr; apply fq_modMo) | (apply Fr.after; apply fr_moLeave) | refine Fr.of_fst ‹_ = _› ?_
        | refine Fr.of_snd ‹_ = _› ?_ | refine Fr.of_thd ‹_ = _› ?_ | fail_if_no_progress (apply Fr.after; (apply Fr.upd) <;> rfl))
    | split)

theorem fq_moSoftCheck (a1) (s : State) : Fq s (moSoftCheck a1 s) := by
  unfold moSoftCheck
  try dsimp only
  repeat' (first
    | (with_reducible first
        | exact Fq.refl _ | apply Fq.ite | (apply Fq.after; apply fq_logEvent) | (apply Fq.after; apply fq_setFlag)
        | (apply Fq.after; apply fq_modMo) | (apply Fq.after; apply fq_ssAbandon) | (apply Fq.after; apply fq_moDecel)
        | refine Fq.of_fst ‹_ = _› ?_ | refine Fq.of_snd ‹_ = _› ?_ | refine Fq.of_thd ‹_ = _› ?_
        | fail_if_no_progress (apply Fq.after; (apply Fq.upd) <;> rfl))
    | split)

theorem fr_posLoop (a1) (s : State) : Fr s (posLoop a1 s) := by
  unfold posLoop
  try dsimp only
  repeat' (with_reducible first
    | exact Fr.refl _ | intro i s | intro s | (apply Fr.after; apply fr_posUpdate) | (apply Fr.after; apply Fq.fr; apply fq_moSoftCheck)
    | (apply Fr.after; apply Fq.fr; apply fq_modMo) | (apply Fr.after; apply fr_foldl)
    | fail_if_no_progress (apply Fr.after; (apply Fr.upd) <;> rfl))

theorem fr_focPeriod (a1) (s : State) : Fr s (focPeriod a1 s) := by
  unfold focPeriod
  try dsimp only
  repeat' (first
    | (with_reducible first
        | exact Fr.refl _ | apply Fr.ite | (apply Fr.after; apply Fq.fr; apply fq_moStopped)
        | (apply Fr.after; apply Fq.fr; apply fq_modMo) | (apply Fr.after; apply Fq.fr; apply fq_busHigh)
        | (apply Fr.after; apply fr_speedLoop) | (apply Fr.after; apply fr_loseLock) | (apply Fr.after; apply fr_posLoop)
        | (apply Fr.after; apply Fq.fr; apply fq_drawFree) | refine Fr.of_fst ‹_ = _› ?_ | refine Fr.of_snd ‹_ = _› ?_
        | refine Fr.of_thd ‹_ = _› ?_ | fail_if_no_progress (apply Fr.after; (apply Fr.upd) <;> rfl))
    | split)

theorem fq_moSlow (a1) (s : State) : Fq s (moSlow a1 s) := by
  unfold moSlow
  try dsimp only
  repeat' (first
    | (with_reducible first
        | exact Fq.refl _ | apply Fq.ite | (apply Fq.after; apply fq_moBrakeAsk) | (apply Fq.after; apply fq_modMo)
        | (apply Fq.after; apply fq_moDrive) | fail_if_no_progress (apply Fq.after; (apply Fq.upd) <;> rfl))
    | split)

theorem fq_restPeriod (a1) (s : State) : Fq s (restPeriod a1 s) := by
  unfold restPeriod
  try dsimp only
  repeat' (first
    | (with_reducible first
        | exact Fq.refl _ | apply Fq.ite | (apply Fq.after; apply fq_moSlow) | (apply Fq.after; apply fq_modMo)
        | fail_if_no_progress (apply Fq.after; (apply Fq.upd) <;> rfl))
    | split)

theorem fr_moControl (a1) (s : State) : Fr s (moControl a1 s) := by
  unfold moControl
  repeat' (first
    | (with_reducible first
        | exact Fr.refl _ | (apply Fr.after; apply Fq.fr; apply fq_moModulate) | (apply Fr.after; apply Fq.fr; apply fq_startupPeriod)
        | (apply Fr.after; apply Fq.fr; apply fq_revPeriod) | (apply Fr.after; apply fr_focPeriod)
        | (apply Fr.after; apply Fq.fr; apply fq_restPeriod) | (apply Fr.after; apply Fq.fr; apply fq_alignPeriod)
        | refine Fr.of_fst ‹_ = _› ?_ | refine Fr.of_snd ‹_ = _› ?_ | refine Fr.of_thd ‹_ = _› ?_
        | fail_if_no_progress (apply Fr.after; (apply Fr.upd) <;> rfl))
    | split)

theorem fq_moSamples (a1) (a2) (a3) (a4) (s : State) : Fq s (moSamples a1 a2 a3 a4 s) := by
  unfold moSamples
  try dsimp only
  repeat' (first
    | (with_reducible first
        | exact Fq.refl _ | intro i s | intro s | apply Fq.ite | (apply Fq.after; apply fq_adcPut) | (apply Fq.after; apply fq_forEach))
    | split)

theorem fq_moMeasure (a1) (a2) (a3) (a4) (a5) (s : State) : Fq s (moMeasure a1 a2 a3 a4 a5 s) := by
  unfold moMeasure
  try dsimp only
  repeat' (first
    | (with_reducible first
        | exact Fq.refl _ | apply Fq.ite | (apply Fq.after; apply fq_modMo) | (apply Fq.after; apply fq_moSamples)
        | fail_if_no_progress (apply Fq.after; (apply Fq.upd) <;> rfl))
    | split)

theorem fr_reacqFail (a1) (s : State) : Fr s (reacqFail a1 s) := by
  unfold reacqFail
  try dsimp only
  repeat' (first
    | (with_reducible first
        | exact Fr.refl _ | apply Fr.ite | (apply Fr.after; apply Fq.fr; apply fq_modMo)
        | (apply Fr.after; apply Fq.fr; apply fq_moFault) | (apply Fr.after; apply fr_raise)
        | fail_if_no_progress (apply Fr.after; (apply Fr.upd) <;> rfl))
    | split)

theorem fq_moAlign (a1) (s : State) : Fq s (moAlign a1 s) := by
  unfold moAlign
  try dsimp only
  repeat' (first
    | (with_reducible first
        | exact Fq.refl _ | apply Fq.ite | (apply Fq.after; apply fq_setMo) | (apply Fq.after; apply fq_modMo)
        | (apply Fq.after; apply fq_moRun) | fail_if_no_progress (apply Fq.after; (apply Fq.upd) <;> rfl))
    | split)

theorem fr_reacqTry (a1) (s : State) : Fr s (reacqTry a1 s) := by
  unfold reacqTry
  try dsimp only
  repeat' (first
    | (with_reducible first
        | exact Fr.refl _ | apply Fr.ite | (apply Fr.after; apply Fq.fr; apply fq_logEvent) | (apply Fr.after; apply fr_useInvar)
        | (apply Fr.after; apply Fq.fr; apply fq_modMo) | (apply Fr.after; apply fr_reacqFail)
        | (apply Fr.after; apply Fq.fr; apply fq_moRun) | fail_if_no_progress (apply Fr.after; (apply Fr.upd) <;> rfl))
    | split)

theorem fq_startupZc (a1) (a2) (s : State) : Fq s (startupZc a1 a2 s) := by
  unfold startupZc
  try dsimp only
  repeat' (first
    | (with_reducible first
        | exact Fq.refl _ | apply Fq.ite | (apply Fq.after; apply fq_modMo) | refine Fq.of_fst ‹_ = _› ?_ | refine Fq.of_snd ‹_ = _› ?_
        | refine Fq.of_thd ‹_ = _› ?_ | fail_if_no_progress (apply Fq.after; (apply Fq.upd) <;> rfl))
    | split)

end Sys2Proof.Machine
end

