-- ==== Sys2Proof/Laws/FrameLoad.lean ====
section
/-!
SUPPORT. What the operations keep, one lemma for each operation (bring-up, the checks of an image, the loader, the resets, the Lantern summary, register writes and DMA programs): `Fq` the frame of an operation that leaves the global state
to the events, `Fr` and `Kp` the weaker ones (Laws/Frame.lean).
-/
set_option linter.unreachableTactic false
set_option linter.unusedTactic false
set_option linter.unusedVariables false

namespace Sys2Proof.Machine

/-! ### Bringup -/

theorem fq_bankFuses (a1) (a2) (s : State) : Fq s (bankFuses a1 a2 s) := by
  unfold bankFuses
  try dsimp only
  repeat' (with_reducible first
    | exact Fq.refl _ | intro i s | intro s | (apply Fq.after; apply fq_wr) | (apply Fq.after; apply fq_foldl)
    | fail_if_no_progress (apply Fq.after; (apply Fq.upd) <;> rfl))

theorem fq_bankRepair (a1) (a2) (s : State) : Fq s (bankRepair a1 a2 s) := by
  unfold bankRepair
  try dsimp only
  repeat' (with_reducible first
    | exact Fq.refl _ | intro i s | intro s | (apply Fq.after; apply fq_repairLow) | (apply Fq.after; apply fq_setF)
    | (apply Fq.after; apply fq_forEach) | (apply Fq.after; apply fq_foldl)
    | fail_if_no_progress (apply Fq.after; (apply Fq.upd) <;> rfl))

theorem fq_bankTested (a1) (s : State) : Fq s (bankTested a1 s) := by
  unfold bankTested
  repeat' (with_reducible first
    | exact Fq.refl _ | (apply Fq.after; apply fq_bankFill))

theorem fq_startSelftest (s : State) : Fq s (startSelftest s) := by
  unfold startSelftest
  try dsimp only
  repeat' (first
    | (with_reducible first
        | exact Fq.refl _ | apply Fq.ite | fail_if_no_progress (apply Fq.after; (apply Fq.upd) <;> rfl))
    | split)

theorem fq_xmcRetry (s : State) : Fq s (xmcRetry s) := by
  unfold xmcRetry
  try dsimp only
  repeat' (first
    | (with_reducible first
        | exact Fq.refl _ | intro i s | intro s | apply Fq.ite | (apply Fq.after; apply fq_foldl)
        | fail_if_no_progress (apply Fq.after; (apply Fq.upd) <;> rfl))
    | split)

theorem mv_retry (s : State) : Mv s (retry s).2.2 := by
  unfold retry
  try dsimp only
  repeat' (first
    | (with_reducible first
        | exact Mv.refl _ | intro i s | intro s | apply Mv.ite | (apply Mv.after; apply Fq.mv; apply fq_startSelftest)
        | (apply Mv.after; apply Fq.mv; apply fq_startSeries) | (apply Mv.after; apply Fq.mv; apply fq_xmcRetry)
        | (apply Mv.after; apply mv_bruCheck) | (apply Mv.after; apply Fq.mv; apply fq_casStart) | (apply Mv.after; apply mv_forEach)
        | refine Mv.of_fst ‹_ = _› ?_ | refine Mv.of_snd ‹_ = _› ?_ | refine Mv.of_thd ‹_ = _› ?_
        | fail_if_no_progress (apply Mv.after; (apply Mv.upd) <;> rfl))
    | split)

theorem mv_bruCmd (a1) (s : State) : Mv s (bruCmd a1 s) := by
  unfold bruCmd
  try dsimp only
  repeat' (first
    | (with_reducible first
        | exact Mv.refl _ | apply Mv.ite | (apply Mv.after; apply Fq.mv; apply fq_logEvent)
        | (apply Mv.after; apply Fq.mv; apply fq_setF) | (apply Mv.after; apply mv_retry) | (apply Mv.after; apply Fq.mv; apply fq_wr))
    | split)

theorem fq_driveAvs (a1) (s : State) : Fq s (driveAvs a1 s) := by
  unfold driveAvs
  repeat' (first
    | (with_reducible first
        | exact Fq.refl _ | apply Fq.ite | (apply Fq.after; apply fq_emit)
        | fail_if_no_progress (apply Fq.after; (apply Fq.upd) <;> rfl))
    | split)

theorem fq_xmcReport (s : State) : Fq s (xmcReport s) := by
  unfold xmcReport
  try dsimp only
  repeat' (first
    | (with_reducible first
        | exact Fq.refl _ | apply Fq.ite | (apply Fq.after; apply fq_wr))
    | split)

theorem fq_xmcStart (s : State) : Fq s (xmcStart s) := by
  unfold xmcStart
  repeat' (first
    | (with_reducible first
        | exact Fq.refl _ | apply Fq.ite | (apply Fq.after; apply fq_xmcReport)
        | fail_if_no_progress (apply Fq.after; (apply Fq.upd) <;> rfl))
    | split)

theorem linkTrain_tail (s : State) : Mv (goto .linkTrain Ev.BRU_SELFTEST_DONE.code.toNat s) (enterLinkTrain s) := by
  unfold enterLinkTrain
  extract_lets s1 s2 s3
  have h : Fq s1 s3 := Fq.after (fq_forEach _ _ (fun _ _ => fq_startSeries ..) _) (Fq.ite (fq_xmcStart _) (.refl _))
  refine Mv.after (mv_bruCheck _) ?_
  exact h.mv.trans (Mv.ite (fq_casStart _).mv (.refl _))
theorem mv_enterLinkTrain (s : State) (h : Moves s.glb.state .linkTrain) : Mv s (enterLinkTrain s) :=
  Mv.trans (fx_goto _ _ _ h) (linkTrain_tail s)

theorem mv_enterSelftest (s : State) (h : Moves s.glb.state .selftest) : Mv s (enterSelftest s) :=
  Mv.after (fq_startSelftest _).mv (Mv.after (fq_axAllOff _).mv (fx_goto _ _ _ h))
theorem fa_enterSelftest (s : State) : Fa s (enterSelftest s) :=
  Fa.trans (fa_goto ..) ((fq_axAllOff _).trans (fq_startSelftest _)).fa

theorem mv_selftestEnd (s : State) : Mv s (selftestEnd s) := by
  unfold selftestEnd
  split
  · rename_i h
    have k : Fq s (logEvent Ev.BRU_SELFTEST_DONE 0xFF (((s.now : Int) - s.bru.stFrom) / 400).toNat s.bru.tested.toNat s.bru.repairs s) := fq_logEvent ..
    exact k.mv.trans (mv_enterLinkTrain _ (by rw [k.falls, h.1]; decide))
  · exact .refl s

theorem fq_selftestFail (a1) (a2) (a3) (s : State) : Fq s (selftestFail a1 a2 a3 s) := by
  unfold selftestFail
  repeat' (with_reducible first
    | exact Fq.refl _ | (apply Fq.after; apply fq_logEvent) | (apply Fq.after; apply fq_bruErr))

theorem fq_loadFuses (a1) (s : State) : Fq s (loadFuses a1 s) := by
  unfold loadFuses
  try dsimp only
  repeat' (first
    | (with_reducible first
        | exact Fq.refl _ | intro i s | intro s | apply Fq.ite | (apply Fq.after; apply fq_repairLow)
        | (apply Fq.after; apply fq_bankFuses) | (apply Fq.after; apply fq_forEach)
        | fail_if_no_progress (apply Fq.after; (apply Fq.upd) <;> rfl))
    | split)

theorem mv_memoryDone (a1) (a2) (a3) (s : State) : Mv s (memoryDone a1 a2 a3 s) := by
  unfold memoryDone
  try dsimp only
  repeat' (first
    | (with_reducible first
        | exact Mv.refl _ | intro i s | intro s | apply Mv.ite | (apply Mv.after; apply Fq.mv; apply fq_bankRepair)
        | (apply Mv.after; apply mv_selftestEnd) | (apply Mv.after; apply Fq.mv; apply fq_bankTested)
        | (apply Mv.after; apply Fq.mv; apply fq_selftestFail) | (apply Mv.after; apply Fq.mv; apply fq_loadFuses)
        | (apply Mv.after; apply mv_forEach) | (apply Mv.after; apply mv_foldl) | refine Mv.of_fst ‹_ = _› ?_
        | refine Mv.of_snd ‹_ = _› ?_ | refine Mv.of_thd ‹_ = _› ?_ | fail_if_no_progress (apply Mv.after; (apply Mv.upd) <;> rfl))
    | split)

theorem fq_journalScan (s : State) : Fq s (journalScan s) := by
  unfold journalScan
  try dsimp only
  repeat' (first
    | (with_reducible first
        | exact Fq.refl _ | intro i s | intro s | apply Fq.ite | (apply Fq.after; apply fq_logEvent)
        | (apply Fq.after; apply fq_jRecord) | (apply Fq.after; apply fq_wr) | (apply Fq.after; apply fq_foldl)
        | fail_if_no_progress (apply Fq.after; (apply Fq.upd) <;> rfl))
    | split)

/-! ### ImageCheck -/

theorem fq_loadBegins (s : State) : Fq s (loadBegins s) := by
  unfold loadBegins
  repeat' (first
    | (with_reducible first
        | exact Fq.refl _ | apply Fq.ite | (apply Fq.after; apply fq_logEvent))
    | split)

/-! ### Loader -/

theorem fq_ringsOff (a1) (s : State) : Fq s (ringsOff a1 s) := by
  unfold ringsOff
  try dsimp only
  repeat' (first
    | (with_reducible first
        | exact Fq.refl _ | intro i s | intro s | apply Fq.ite | (apply Fq.after; apply fq_setF) | (apply Fq.after; apply fq_forEach))
    | split)

theorem fq_Commit.banks (a1) (s : State) : Fq s (Commit.banks a1 s) := by
  unfold Commit.banks
  try dsimp only
  repeat' (first
    | (with_reducible first
        | exact Fq.refl _ | intro i s | intro s | apply Fq.ite | (apply Fq.after; apply fq_bankMove)
        | (apply Fq.after; apply fq_ringsOff) | (apply Fq.after; apply fq_forEach)
        | fail_if_no_progress (apply Fq.after; (apply Fq.upd) <;> rfl))
    | split)

theorem fq_Commit.invar (a1) (s : State) : Fq s (Commit.invar a1 s) := by
  unfold Commit.invar
  try dsimp only
  repeat' (first
    | (with_reducible first
        | exact Fq.refl _ | intro i s | intro s | (apply Fq.after; apply fq_putInvar) | (apply Fq.after; apply fq_foldl)
        | refine Fq.of_fst ‹_ = _› ?_ | refine Fq.of_snd ‹_ = _› ?_ | refine Fq.of_thd ‹_ = _› ?_
        | fail_if_no_progress (apply Fq.after; (apply Fq.upd) <;> rfl))
    | split)

theorem fq_Commit.link (a1) (a2) (s : State) : Fq s (Commit.link a1 a2 s) := by
  unfold Commit.link
  try dsimp only
  repeat' (first
    | (with_reducible first
        | exact Fq.refl _ | apply Fq.ite | (apply Fq.after; apply fq_modHlp) | (apply Fq.after; apply fq_portDown)
        | fail_if_no_progress (apply Fq.after; (apply Fq.upd) <;> rfl))
    | split)

theorem fq_Commit.pins (a1) (s : State) : Fq s (Commit.pins a1 s) := by
  unfold Commit.pins
  try dsimp only
  repeat' (first
    | (with_reducible first
        | exact Fq.refl _ | intro i s | intro s | apply Fq.ite | (apply Fq.after; apply fq_emit) | (apply Fq.after; apply fq_forEach))
    | split)

theorem fq_Commit.units (a1) (s : State) : Fq s (Commit.units a1 s) := by
  unfold Commit.units
  try dsimp only
  repeat' (first
    | (with_reducible first
        | exact Fq.refl _ | intro i s | intro s | apply Fq.ite | (apply Fq.after; apply fq_putGates)
        | (apply Fq.after; apply fq_forEach) | fail_if_no_progress (apply Fq.after; (apply Fq.upd) <;> rfl))
    | split)

theorem fq_bindingEvents (a1 : State) (s : State) : Fq s (bindingEvents a1 s) := by
  unfold bindingEvents
  try dsimp only
  repeat' (first
    | (with_reducible first
        | exact Fq.refl _ | intro i s | intro s | apply Fq.ite | (apply Fq.after; apply fq_logEvent)
        | (apply Fq.after; apply fq_forEach))
    | split)

theorem fq_slotsChanged (a1 : State) (s : State) : Fq s (slotsChanged a1 s) := by
  unfold slotsChanged
  try dsimp only
  repeat' (first
    | (with_reducible first
        | exact Fq.refl _ | apply Fq.ite | (apply Fq.after; apply fq_pulseCheck))
    | split)

theorem resetWords_regsWf (p : Nat → Bool) (m : Nat → Word) (s : State)
    (hm : ∀ o, m o = 0 ∨ regReset o &&& ~~~(regStored o) = 0) (h : s.regsWf) : (resetWords p m s).regsWf := by
  have key : ∀ q ∈ (resetWords p m s).regs, ∃ v, (q.1, v) ∈ s.regs ∧ q.2 ≠ regReset q.1 ∧ q.2 &&& ~~~(regStored q.1) = 0 := by
    intro q hq
    obtain ⟨r, hr, e⟩ := List.mem_filterMap.1 hq
    have hv := h.2 r hr
    split at e
    · dsimp only at e
      split at e
      · cases e
      · rename_i hw
        cases e
        refine ⟨_, hr, hw, ?_⟩
        rcases hm r.1 with z | z
        · rw [z] at hw
          exact (hw (by
            have : ~~~(0 : Word) = BitVec.allOnes 32 := by decide
            rw [this, BitVec.and_allOnes]; simp)).elim
        · rw [BitVec.and_or_distrib_right, BitVec.and_assoc, BitVec.and_comm (~~~ m r.1), ← BitVec.and_assoc, z]
          rw [BitVec.and_assoc, BitVec.and_comm (m r.1), ← BitVec.and_assoc, hv]
          simp
    · cases e
      exact ⟨_, hr, h.1.2 _ hr, hv⟩
  refine ⟨⟨?_, fun q hq => (key q hq).elim fun _ k => k.2.1⟩, fun q hq => (key q hq).elim fun _ k => k.2.2⟩
  have h1 := h.1.1
  refine List.Pairwise.filterMap _ ?_ h1
  intro a b hab c hc d hd
  have e1 : c.1 = a.1 := by
    split at hc
    · dsimp only at hc
      split at hc <;> cases hc
      rfl
    · cases hc; rfl
  have e2 : d.1 = b.1 := by
    split at hd
    · dsimp only at hd
      split at hd <;> cases hd
      rfl
    · cases hd; rfl
  rw [e1, e2]; exact hab
theorem fq_resetWords (p : Nat → Bool) (m : Nat → Word) (s : State) (hm : ∀ o, m o = 0 ∨ regReset o &&& ~~~(regStored o) = 0) :
    Fq s (resetWords p m s) :=
  ⟨⟨rfl, fun ⟨h, k, l⟩ => ⟨h, resetWords_regsWf p m s hm k, l⟩, List.suffix_refl _, Nat.le_refl _, Nat.le_refl _, rfl, rfl⟩, rfl, rfl, rfl⟩

theorem fq_putHash (a1) (s : State) : Fq s (putHash a1 s) := by
  unfold putHash
  try dsimp only
  repeat' (with_reducible first
    | exact Fq.refl _ | intro i s | intro s | (apply Fq.after; apply fq_wr) | (apply Fq.after; apply fq_forEach))

theorem fr_gatesChanged (a1 : State) (s : State) : Fr s (gatesChanged a1 s) := by
  unfold gatesChanged
  try dsimp only
  repeat' (with_reducible first
    | exact Fr.refl _ | intro i s | intro s | (apply Fr.after; apply fr_invarChanged) | (apply Fr.after; apply fr_foldl))

theorem sincePorst_ok (o : Nat) : sincePorst o = 0 ∨ regReset o &&& ~~~(regStored o) = 0 := by
  unfold sincePorst
  split
  · subst_vars; exact .inr (by decide)
  · split
    · subst_vars; exact .inr (by decide)
    · split
      · subst_vars; exact .inr (by decide)
      · split
        · subst_vars; exact .inr (by decide)
        · split
          · subst_vars; exact .inr (by decide)
          · exact .inl rfl
theorem kp_commit (c : Commit) (s : State) : Kp s (commit c s) := by
  unfold commit
  dsimp only
  refine Kp.after (fr_gatesChanged ..).kp ?_
  refine Kp.after (fa_enterSelftest _).kp ?_
  refine Kp.after (fq_slotsChanged ..).kp ?_
  refine Kp.after (Kp.upd _ rfl rfl rfl rfl rfl rfl rfl) ?_
  refine Kp.after (fq_bindingEvents ..).kp ?_
  refine Kp.after (fq_logEvent ..).kp ?_
  have fin : ∀ t, Kp s t → Kp s (if c.carries 7 = true then pcCommit t else t) := fun t h => Kp.ite (Kp.after (fq_pcCommit _).kp h) h
  refine fin _ ?_
  refine Kp.after (fq_Commit.pins ..).kp ?_
  refine Kp.after (fq_putHash ..).kp ?_
  refine Kp.after (Kp.upd _ rfl rfl rfl rfl rfl rfl rfl) ?_
  refine Kp.after (fq_Commit.banks ..).kp ?_
  refine Kp.after (fq_Commit.invar ..).kp ?_
  refine Kp.after (fq_Commit.units ..).kp ?_
  refine Kp.after (kp_forEach _ _ (fun i s => (fq_Commit.link ..).kp) _) ?_
  refine Kp.after (fq_resetWords _ _ _ sincePorst_ok).kp ?_
  exact kp_forEach _ _ (fun i s => Kp.ite (fq_bumpGen ..).kp (.refl s)) s

theorem fq_nextSource (a1) (s : State) : Fq s (nextSource a1 s) := by
  unfold nextSource
  try dsimp only
  repeat' (first
    | (with_reducible first
        | exact Fq.refl _ | apply Fq.ite | (apply Fq.after; apply fq_logEvent) | refine Fq.of_fst ‹_ = _› ?_
        | refine Fq.of_snd ‹_ = _› ?_ | refine Fq.of_thd ‹_ = _› ?_ | fail_if_no_progress (apply Fq.after; (apply Fq.upd) <;> rfl))
    | split)

theorem fq_imgError (a1) (s : State) : Fq s (imgError a1 s) := by
  unfold imgError
  try dsimp only
  repeat' (first
    | (with_reducible first
        | exact Fq.refl _ | apply Fq.ite | (apply Fq.after; apply fq_logEvent) | (apply Fq.after; apply fq_wr))
    | split)

theorem kp_checkAndCommit (a1) (a2) (a3) (s : State) : Kp s (checkAndCommit a1 a2 a3 s) := by
  unfold checkAndCommit
  repeat' (first
    | (with_reducible first
        | exact Kp.refl _ | (apply Kp.after; apply kp_commit) | (apply Kp.after; apply Fq.kp; apply fq_nextSource)
        | (apply Kp.after; apply Fq.kp; apply fq_imgError) | refine Kp.of_fst ‹_ = _› ?_ | refine Kp.of_snd ‹_ = _› ?_
        | refine Kp.of_thd ‹_ = _› ?_ | fail_if_no_progress (apply Kp.after; (apply Kp.upd) <;> rfl))
    | split)

theorem fq_sourceFail (a1) (a2) (s : State) : Fq s (sourceFail a1 a2 s) := by
  unfold sourceFail
  repeat' (with_reducible first
    | exact Fq.refl _ | (apply Fq.after; apply fq_nextSource) | (apply Fq.after; apply fq_imgError))

theorem fq_readFlash (s : State) : Fq s (readFlash s) := by
  unfold readFlash
  repeat' (first
    | (with_reducible first
        | exact Fq.refl _ | apply Fq.ite | (apply Fq.after; apply fq_loadBegins)
        | fail_if_no_progress (apply Fq.after; (apply Fq.upd) <;> rfl))
    | split)

theorem fa_reload (s : State) : Fa s (reload s) := by
  unfold reload
  try dsimp only
  repeat' (first
    | (with_reducible first
        | exact Fa.refl _ | intro i s | intro s | apply Fa.ite | (apply Fa.after; apply Fq.fa; apply fq_moReload)
        | (apply Fa.after; apply Fq.fa; apply fq_axReload) | (apply Fa.after; apply fa_goto)
        | (apply Fa.after; apply Fq.fa; apply fq_dmaPauseAll) | (apply Fa.after; apply Fq.fa; apply fq_readFlash)
        | fail_if_no_progress (apply Fa.after; (apply Fa.upd) <;> rfl))
    | split)

theorem fa_glbReload (s : State) : Fa s (glbReload s).2 := by
  unfold glbReload
  repeat' (first
    | (with_reducible first
        | exact Fa.refl _ | apply Fa.ite | (apply Fa.after; apply fa_reload))
    | split)

theorem fq_imgData (a1) (s : State) : Fq s (imgData a1 s) := by
  unfold imgData
  repeat' (first
    | (with_reducible first
        | exact Fq.refl _ | apply Fq.ite | (apply Fq.after; apply fq_setF) | (apply Fq.after; apply fq_incF)
        | fail_if_no_progress (apply Fq.after; (apply Fq.upd) <;> rfl))
    | split)

theorem fa_revert (s : State) : Fa s (revert s) := by
  unfold revert
  repeat' (with_reducible first
    | exact Fa.refl _ | intro i s | intro s | (apply Fa.after; apply Fq.fa; apply fq_logEvent) | (apply Fa.after; apply fa_goto)
    | fail_if_no_progress (apply Fa.after; (apply Fa.upd) <;> rfl))

theorem kp_svnCommit (s : State) : Kp s (svnCommit s) := by
  unfold svnCommit
  dsimp only
  refine Kp.after (fq_logEvent ..).kp ?_
  generalize (match s.ldr.image with
    | some i => i.svn
    | none => 0) = n
  exact ⟨rfl, id, List.suffix_refl _, Nat.le_refl _, Nat.le_max_left .., rfl, rfl⟩

theorem fq_imgResult (a1) (a2) (a3) (a4) (s : State) : Fq s (imgResult a1 a2 a3 a4 s) := by
  unfold imgResult
  try dsimp only
  repeat' (first
    | (with_reducible first
        | exact Fq.refl _ | apply Fq.ite | (apply Fq.after; apply fq_logEvent) | (apply Fq.after; apply fq_wr))
    | split)

theorem kp_pushEnd (s : State) : Kp s (pushEnd s) := by
  unfold pushEnd
  repeat' (first
    | (with_reducible first
        | exact Kp.refl _ | apply Kp.ite | (apply Kp.after; apply kp_checkAndCommit)
        | fail_if_no_progress (apply Kp.after; (apply Kp.upd) <;> rfl))
    | split)

theorem fq_pushBegin (s : State) : Fq s (pushBegin s) := by
  unfold pushBegin
  repeat' (with_reducible first
    | exact Fq.refl _ | (apply Fq.after; apply fq_loadBegins) | (apply Fq.after; apply fq_wr)
    | fail_if_no_progress (apply Fq.after; (apply Fq.upd) <;> rfl))

theorem kp_imgCtl (a1) (a2) (s : State) : Kp s (imgCtl a1 a2 s) := by
  unfold imgCtl
  try dsimp only
  repeat' (first
    | (with_reducible first
        | exact Kp.refl _ | apply Kp.ite | (apply Kp.after; apply Fa.kp; apply fa_revert) | (apply Kp.after; apply kp_svnCommit)
        | (apply Kp.after; apply Fq.kp; apply fq_imgResult) | (apply Kp.after; apply kp_pushEnd)
        | (apply Kp.after; apply Fq.kp; apply fq_setF) | (apply Kp.after; apply Fq.kp; apply fq_readFlash)
        | (apply Kp.after; apply Fq.kp; apply fq_pushBegin))
    | split)

/-! ### Resets -/

theorem fq_startLoad (s : State) : Fq s (startLoad s) := by
  unfold startLoad
  try dsimp only
  repeat' (first
    | (with_reducible first
        | exact Fq.refl _ | apply Fq.ite | (apply Fq.after; apply fq_loadBegins)
        | fail_if_no_progress (apply Fq.after; (apply Fq.upd) <;> rfl))
    | split)

theorem fa_leaveReset (s : State) : Fa s (leaveReset s) := by
  unfold leaveReset
  try dsimp only
  repeat' (first
    | (with_reducible first
        | exact Fa.refl _ | intro i s | intro s | apply Fa.ite | (apply Fa.after; apply Fr.fa; apply fr_refreshAll)
        | (apply Fa.after; apply Fr.fa; apply fr_gatesAct) | (apply Fa.after; apply fa_goto)
        | (apply Fa.after; apply Fq.fa; apply fq_setF) | (apply Fa.after; apply Fq.fa; apply fq_startLoad)
        | fail_if_no_progress (apply Fa.after; (apply Fa.upd) <;> rfl))
    | split)

theorem fq_restartLoader (s : State) : Fq s (restartLoader s) := by
  unfold restartLoader
  try dsimp only
  repeat' (first
    | (with_reducible first
        | exact Fq.refl _ | apply Fq.ite | fail_if_no_progress (apply Fq.after; (apply Fq.upd) <;> rfl))
    | split)

theorem fq_stopLoader (s : State) : Fq s (stopLoader s) := by
  unfold stopLoader
  repeat' (with_reducible first
    | exact Fq.refl _ | fail_if_no_progress (apply Fq.after; (apply Fq.upd) <;> rfl))

theorem fq_pinsOff (s : State) : Fq s (pinsOff s) := by
  unfold pinsOff
  try dsimp only
  repeat' (with_reducible first
    | exact Fq.refl _ | intro i s | intro s | (apply Fq.after; apply fq_driveEn) | (apply Fq.after; apply fq_putGates)
    | (apply Fq.after; apply fq_eePin) | (apply Fq.after; apply fq_forEach))

theorem draws_kp (l : List Nat) (b : List Byte) (s : State) :
    Kp s (l.foldl (fun (acc : List Byte × State) _ => let d := drawFree acc.2; (acc.1 ++ leBytes 8 d.1.toNat, d.2)) (b, s)).2 := by
  induction l generalizing b s with
  | nil => exact .refl s
  | cons a l ih => exact (fq_drawFree s).kp.trans (ih _ _)
theorem kp_jTear (s : State) : Kp s (jTear s) := by
  unfold jTear
  split
  · exact Kp.after (Kp.upd _ rfl rfl rfl rfl rfl rfl rfl) (draws_kp ..)
  · exact .refl s

theorem kp_porst (s : State) : Kp s (porst s) := by
  have h : Kp s (pinsOff (jTear (driveAvs 36 s))) := ((fq_driveAvs ..).kp.trans (kp_jTear _)).trans (fq_pinsOff _).kp
  unfold porst
  dsimp only
  generalize pinsOff (jTear (driveAvs 36 s)) = s1 at h ⊢
  refine h.trans ⟨rfl, fun _ => ?_, List.suffix_refl _, Nat.le_refl _, Nat.le_refl _, rfl, rfl⟩
  refine ⟨⟨⟨List.Pairwise.nil, fun p hp => ?_⟩, ⟨List.Pairwise.nil, fun p hp => ?_⟩⟩, ⟨⟨List.Pairwise.nil, fun p hp => ?_⟩, fun p hp => ?_⟩,
    Nat.zero_le _, Nat.zero_le _, Nat.zero_le _⟩ <;> exact absurd hp (List.not_mem_nil)

theorem kp_warmrst (s : State) : Kp s (warmrst s) := by
  have h : Kp s (resetWords warmScope sincePorst (pinsOff (jFinish s))) :=
    Kp.trans (Kp.trans (kp_jFinish s) (fq_pinsOff _).kp) (fq_resetWords _ _ _ sincePorst_ok).kp
  unfold warmrst
  generalize resetWords warmScope sincePorst (pinsOff (jFinish s)) = s1 at h
  dsimp only
  have h2 : Kp s (wr R.GLB_RSTCAUSE (warmCause s1) s1) := Kp.trans h (fq_wr ..).kp
  generalize wr R.GLB_RSTCAUSE (warmCause s1) s1 = s2 at h2
  have h3 : Kp s (if evInSram s2 = true then setF R.HST_EVCFG 0 0 0 s2 else s2) := Kp.ite (Kp.trans h2 (fq_setF ..).kp) h2
  generalize (if evInSram s2 = true then setF R.HST_EVCFG 0 0 0 s2 else s2) = u at h3
  refine h3.trans ⟨rfl, fun k => ?_, List.suffix_refl _, Nat.le_refl _, Nat.le_refl _, rfl, rfl⟩
  refine ⟨⟨⟨List.Pairwise.nil, fun p hp => ?_⟩, ⟨List.Pairwise.nil, fun p hp => ?_⟩⟩, k.2.1, k.2.2.1, k.2.2.2.1, Nat.zero_le _⟩ <;>
    exact absurd hp (List.not_mem_nil)

/-! ### Lantern -/

theorem fq_lanCopy (s : State) : Fq s (lanCopy s) := by
  unfold lanCopy
  repeat' (with_reducible first
    | exact Fq.refl _ | fail_if_no_progress (apply Fq.after; (apply Fq.upd) <;> rfl))

theorem fq_lanCapture (s : State) : Fq s (lanCapture s) := by
  unfold lanCapture
  try dsimp only
  repeat' (first
    | (with_reducible first
        | exact Fq.refl _ | apply Fq.ite | (apply Fq.after; apply fq_accessBad) | (apply Fq.after; apply fq_lanCopy)
        | fail_if_no_progress (apply Fq.after; (apply Fq.upd) <;> rfl))
    | split)

theorem fq_glbLantern (s : State) : Fq s (glbLantern s).2 := by
  unfold glbLantern
  repeat' (first
    | (with_reducible first
        | exact Fq.refl _ | apply Fq.ite | (apply Fq.after; apply fq_lanCapture)
        | fail_if_no_progress (apply Fq.after; (apply Fq.upd) <;> rfl))
    | split)

theorem fq_i2cRead (s : State) : Fq s (i2cRead s) := by
  unfold i2cRead
  try dsimp only
  repeat' (first
    | (with_reducible first
        | exact Fq.refl _ | apply Fq.ite | (apply Fq.after; apply fq_respond)
        | fail_if_no_progress (apply Fq.after; (apply Fq.upd) <;> rfl))
    | split)

theorem fq_lanDone (s : State) : Fq s (lanDone s) := by
  unfold lanDone
  try dsimp only
  repeat' (first
    | (with_reducible first
        | exact Fq.refl _ | apply Fq.ite | (apply Fq.after; apply fq_accessBad) | (apply Fq.after; apply fq_sendMsix)
        | (apply Fq.after; apply fq_logEvent) | (apply Fq.after; apply fq_lanCapture) | (apply Fq.after; apply fq_wr)
        | (apply Fq.after; apply fq_postWrite) | refine Fq.of_fst ‹_ = _› ?_ | refine Fq.of_snd ‹_ = _› ?_ | refine Fq.of_thd ‹_ = _› ?_
        | fail_if_no_progress (apply Fq.after; (apply Fq.upd) <;> rfl))
    | split)

/-! ### RegWrite -/

theorem fq_lockedWrite (a1) (a2) (a3) (a4) (s : State) : Fq s (lockedWrite a1 a2 a3 a4 s) := by
  unfold lockedWrite
  repeat' (with_reducible first
    | exact Fq.refl _ | (apply Fq.after; apply fq_logEvent))

theorem fq_plainWrite (a1) (a2) (s : State) : Fq s (plainWrite a1 a2 s) := by
  unfold plainWrite
  try dsimp only
  repeat' (first
    | (with_reducible first
        | exact Fq.refl _ | (apply Fq.after; apply fq_wr) | refine Fq.of_fst ‹_ = _› ?_ | refine Fq.of_snd ‹_ = _› ?_
        | refine Fq.of_thd ‹_ = _› ?_ | fail_if_no_progress (apply Fq.after; (apply Fq.upd) <;> rfl))
    | split)

theorem fq_cqCfgWrite (a1) (a2) (s : State) : Fq s (cqCfgWrite a1 a2 s) := by
  unfold cqCfgWrite
  try dsimp only
  repeat' (first
    | (with_reducible first
        | exact Fq.refl _ | apply Fq.ite | (apply Fq.after; apply fq_lockedWrite) | (apply Fq.after; apply fq_wr)
        | (apply Fq.after; apply fq_plainWrite) | fail_if_no_progress (apply Fq.after; (apply Fq.upd) <;> rfl))
    | split)

theorem fq_invarRefuse (a1) (a2) (a3) (s : State) : Fq s (invarRefuse a1 a2 a3 s) := by
  unfold invarRefuse
  try dsimp only
  repeat' (with_reducible first
    | exact Fq.refl _ | (apply Fq.after; apply fq_logEvent) | (apply Fq.after; apply fq_setFlag) | (apply Fq.after; apply fq_wr))

theorem fq_writeCmp (a1) (a2) (a3) (a4) (s : State) : Fq s (writeCmp a1 a2 a3 a4 s) := by
  unfold writeCmp
  try dsimp only
  repeat' (first
    | (with_reducible first
        | exact Fq.refl _ | apply Fq.ite | (apply Fq.after; apply fq_cmpCmd) | (apply Fq.after; apply fq_lockedWrite)
        | (apply Fq.after; apply fq_plainWrite))
    | split)

theorem fq_writePos (a1) (a2) (s : State) : Fq s (writePos a1 a2 s) := by
  unfold writePos
  try dsimp only
  repeat' (first
    | (with_reducible first
        | exact Fq.refl _ | apply Fq.ite | (apply Fq.after; apply fq_writeCmp) | (apply Fq.after; apply fq_plainWrite)
        | (apply Fq.after; apply fq_posCmd))
    | split)

theorem fq_writeCq (a1) (a2) (a3) (s : State) : Fq s (writeCq a1 a2 a3 s) := by
  unfold writeCq
  try dsimp only
  repeat' (first
    | (with_reducible first
        | exact Fq.refl _ | apply Fq.ite | (apply Fq.after; apply fq_cqCfgWrite) | (apply Fq.after; apply fq_lockedWrite)
        | (apply Fq.after; apply fq_plainWrite))
    | split)

theorem fq_writeDma (a1) (a2) (s : State) : Fq s (writeDma a1 a2 s) := by
  unfold writeDma
  try dsimp only
  repeat' (first
    | (with_reducible first
        | exact Fq.refl _ | apply Fq.ite | (apply Fq.after; apply fq_dmaCmd) | (apply Fq.after; apply fq_lockedWrite)
        | (apply Fq.after; apply fq_sigRaiseWrite) | (apply Fq.after; apply fq_writeCq) | (apply Fq.after; apply fq_plainWrite)
        | (apply Fq.after; apply fq_shadowWrite))
    | split)

theorem fq_writeMem (a1) (a2) (s : State) : Fq s (writeMem a1 a2 s) := by
  unfold writeMem
  repeat' (first
    | (with_reducible first
        | exact Fq.refl _ | apply Fq.ite | (apply Fq.after; apply fq_hlpCmd) | (apply Fq.after; apply fq_casCmd)
        | (apply Fq.after; apply fq_memCmd) | (apply Fq.after; apply fq_plainWrite))
    | split)

theorem fr_writePipe (a1) (a2) (a3) (s : State) : Fr s (writePipe a1 a2 a3 s) := by
  unfold writePipe
  try dsimp only
  repeat' (first
    | (with_reducible first
        | exact Fr.refl _ | apply Fr.ite | (apply Fr.after; apply fr_dotCmd) | (apply Fr.after; apply Fq.fr; apply fq_lockedWrite)
        | (apply Fr.after; apply fr_waddWrite) | (apply Fr.after; apply fr_wlineWrite)
        | (apply Fr.after; apply Fq.fr; apply fq_spaceCheck) | (apply Fr.after; apply Fq.fr; apply fq_plainWrite))
    | split)

theorem fr_writeDot (a1) (a2) (s : State) : Fr s (writeDot a1 a2 s) := by
  unfold writeDot
  repeat' (first
    | (with_reducible first
        | exact Fr.refl _ | apply Fr.ite | (apply Fr.after; apply fr_ssCmd) | (apply Fr.after; apply Fq.fr; apply fq_lockedWrite)
        | (apply Fr.after; apply fr_writePipe) | (apply Fr.after; apply Fq.fr; apply fq_plainWrite))
    | split)

theorem fa_glbCmd (c : Nat) (s : State) : Fa s (glbCmd c s) := by
  unfold glbCmd
  split
  · exact fa_glbRun _ _ fa_glbArm s
  · exact fa_glbRun _ _ fa_glbStart s
  · exact fa_glbRun _ _ (fun s => (fr_glbStop s).fa) s
  · exact fa_glbRun _ _ fa_glbDisarm s
  · exact fa_glbRun _ _ fa_glbRecover s
  · exact fa_glbRun _ _ fa_glbReload s
  · exact fa_glbRun _ _ (fun s => (fq_glbLantern s).fa) s
  · exact fa_glbRun _ _ (fun s => (mv_glbShutdown s).fa) s
  · exact fa_glbRun _ _ .refl s

theorem kp_writeGlb (a1) (a2) (s : State) : Kp s (writeGlb a1 a2 s) := by
  unfold writeGlb
  repeat' (first
    | (with_reducible first
        | exact Kp.refl _ | apply Kp.ite | (apply Kp.after; apply Fq.kp; apply fq_imgData)
        | (apply Kp.after; apply Fa.kp; apply fa_glbCmd) | (apply Kp.after; apply Fq.kp; apply fq_plainWrite)
        | (apply Kp.after; apply kp_imgCtl) | (apply Kp.after; apply Mv.kp; apply mv_bruCmd))
    | split)

theorem fr_writeMot (a1) (a2) (a3) (s : State) : Fr s (writeMot a1 a2 a3 s) := by
  unfold writeMot
  try dsimp only
  repeat' (first
    | (with_reducible first
        | exact Fr.refl _ | apply Fr.ite | (apply Fr.after; apply Fq.fr; apply fq_modMo)
        | (apply Fr.after; apply Fq.fr; apply fq_lockedWrite) | (apply Fr.after; apply Fq.fr; apply fq_plainWrite)
        | (apply Fr.after; apply fr_motCmd) | fail_if_no_progress (apply Fr.after; (apply Fr.upd) <;> rfl))
    | split)

theorem fr_writeStp (a1) (a2) (a3) (s : State) : Fr s (writeStp a1 a2 a3 s) := by
  unfold writeStp
  try dsimp only
  repeat' (first
    | (with_reducible first
        | exact Fr.refl _ | apply Fr.ite | (apply Fr.after; apply fr_stpCmd) | (apply Fr.after; apply Fq.fr; apply fq_lockedWrite)
        | (apply Fr.after; apply Fq.fr; apply fq_plainWrite))
    | split)

theorem fr_writeScn (a1) (a2) (s : State) : Fr s (writeScn a1 a2 s) := by
  unfold writeScn
  repeat' (first
    | (with_reducible first
        | exact Fr.refl _ | apply Fr.ite | (apply Fr.after; apply fr_scnCmd) | (apply Fr.after; apply Fq.fr; apply fq_lockedWrite)
        | (apply Fr.after; apply Fq.fr; apply fq_plainWrite))
    | split)

theorem fr_writeHeat (a1) (a2) (s : State) : Fr s (writeHeat a1 a2 s) := by
  unfold writeHeat
  try dsimp only
  repeat' (first
    | (with_reducible first
        | exact Fr.refl _ | apply Fr.ite | (apply Fr.after; apply Fq.fr; apply fq_thmCmd)
        | (apply Fr.after; apply Fq.fr; apply fq_gapWrite) | (apply Fr.after; apply Fq.fr; apply fq_nhlCfgWrite)
        | (apply Fr.after; apply Fq.fr; apply fq_plainWrite) | (apply Fr.after; apply Fq.fr; apply fq_hostResult)
        | (apply Fr.after; apply fr_nhlCmd))
    | split)

theorem fq_writeLt (a1) (a2) (a3) (s : State) : Fq s (writeLt a1 a2 a3 s) := by
  unfold writeLt
  try dsimp only
  repeat' (first
    | (with_reducible first
        | exact Fq.refl _ | apply Fq.ite | (apply Fq.after; apply fq_firCmd) | (apply Fq.after; apply fq_lockedWrite)
        | (apply Fq.after; apply fq_plainWrite))
    | split)

theorem fq_writeFirPort (a1) (a2) (a3) (s : State) : Fq s (writeFirPort a1 a2 a3 s) := by
  unfold writeFirPort
  try dsimp only
  repeat' (first
    | (with_reducible first
        | exact Fq.refl _ | apply Fq.ite | (apply Fq.after; apply fq_bankChanged) | (apply Fq.after; apply fq_lockedWrite)
        | (apply Fq.after; apply fq_pulseCheck) | (apply Fq.after; apply fq_plainWrite))
    | split)

theorem fq_writeFir (a1) (a2) (s : State) : Fq s (writeFir a1 a2 s) := by
  unfold writeFir
  repeat' (first
    | (with_reducible first
        | exact Fq.refl _ | apply Fq.ite | (apply Fq.after; apply fq_writeLt) | (apply Fq.after; apply fq_plainWrite)
        | (apply Fq.after; apply fq_writeFirPort))
    | split)

theorem fq_evCfgChecked (a1) (s : State) : Fq s (evCfgChecked a1 s) := by
  unfold evCfgChecked
  try dsimp only
  repeat' (first
    | (with_reducible first
        | exact Fq.refl _ | apply Fq.ite | (apply Fq.after; apply fq_accessBad) | (apply Fq.after; apply fq_evCfgWrite))
    | split)

theorem fq_msixWrite (a1) (a2) (s : State) : Fq s (msixWrite a1 a2 s) := by
  unfold msixWrite
  repeat' (with_reducible first
    | exact Fq.refl _ | (apply Fq.after; apply fq_msixPump) | (apply Fq.after; apply fq_plainWrite))

theorem fq_writeHst (a1) (a2) (s : State) : Fq s (writeHst a1 a2 s) := by
  unfold writeHst
  repeat' (first
    | (with_reducible first
        | exact Fq.refl _ | apply Fq.ite | (apply Fq.after; apply fq_accessBad) | (apply Fq.after; apply fq_occClrWrite)
        | (apply Fq.after; apply fq_evCfgChecked) | (apply Fq.after; apply fq_msixWrite) | (apply Fq.after; apply fq_evHeadWrite)
        | (apply Fq.after; apply fq_plainWrite))
    | split)

theorem kp_writeReg (a1) (a2) (a3) (s : State) : Kp s (writeReg a1 a2 a3 s) := by
  unfold writeReg
  repeat' (first
    | (with_reducible first
        | exact Kp.refl _ | apply Kp.ite | (apply Kp.after; apply Fq.kp; apply fq_writePos)
        | (apply Kp.after; apply Fq.kp; apply fq_writeDma) | (apply Kp.after; apply Fq.kp; apply fq_writeMem)
        | (apply Kp.after; apply Fr.kp; apply fr_writeDot) | (apply Kp.after; apply kp_writeGlb)
        | (apply Kp.after; apply Fr.kp; apply fr_writeMot) | (apply Kp.after; apply Fr.kp; apply fr_writeStp)
        | (apply Kp.after; apply Fr.kp; apply fr_writeScn) | (apply Kp.after; apply Fr.kp; apply fr_writeHeat)
        | (apply Kp.after; apply Fq.kp; apply fq_writeFir) | (apply Kp.after; apply Fq.kp; apply fq_plainWrite)
        | (apply Kp.after; apply Fq.kp; apply fq_writeHst))
    | split)

theorem kp_dwWrite (a1) (a2) (a3) (s : State) : Kp s (dwWrite a1 a2 a3 s) := by
  unfold dwWrite
  repeat' (first
    | (with_reducible first
        | exact Kp.refl _ | apply Kp.ite | (apply Kp.after; apply Fq.kp; apply fq_accessBad)
        | (apply Kp.after; apply Fq.kp; apply fq_invarRefuse) | (apply Kp.after; apply kp_writeReg))
    | split)

theorem fr_invarWrite (a1) (a2) (a3) (a4) (s : State) : Fr s (invarWrite a1 a2 a3 a4 s) := by
  unfold invarWrite
  repeat' (first
    | (with_reducible first
        | exact Fr.refl _ | apply Fr.ite | (apply Fr.after; apply Fq.fr; apply fq_invarRefuse) | (apply Fr.after; apply fr_invarChanged)
        | (apply Fr.after; apply Fq.fr; apply fq_putInvar))
    | split)

theorem fq_tableAfter (a1) (a2 : State) (s : State) : Fq s (tableAfter a1 a2 s) := by
  unfold tableAfter
  repeat' (first
    | (with_reducible first
        | exact Fq.refl _ | apply Fq.ite | (apply Fq.after; apply fq_bankChanged) | (apply Fq.after; apply fq_pulseCheck))
    | split)

theorem fq_substWrite (a1) (a2) (a3) (s : State) : Fq s (substWrite a1 a2 a3 s) := by
  unfold substWrite
  try dsimp only
  repeat' (first
    | (with_reducible first
        | exact Fq.refl _ | apply Fq.ite | (apply Fq.after; apply fq_modNhl) | (apply Fq.after; apply fq_wr)
        | fail_if_no_progress (apply Fq.after; (apply Fq.upd) <;> rfl))
    | split)

theorem fq_tableDw (a1) (a2) (s : State) : Fq s (tableDw a1 a2 s) := by
  unfold tableDw
  repeat' (first
    | (with_reducible first
        | exact Fq.refl _ | apply Fq.ite | (apply Fq.after; apply fq_healthWrite) | (apply Fq.after; apply fq_wr))
    | split)

theorem fq_tableWrite (a1) (a2) (a3) (s : State) : Fq s (tableWrite a1 a2 a3 s) := by
  unfold tableWrite
  try dsimp only
  repeat' (first
    | (with_reducible first
        | exact Fq.refl _ | apply Fq.ite | (apply Fq.after; apply fq_accessBad) | (apply Fq.after; apply fq_tableAfter)
        | (apply Fq.after; apply fq_substWrite) | (apply Fq.after; apply fq_tableDw) | refine Fq.of_fst ‹_ = _› ?_
        | refine Fq.of_snd ‹_ = _› ?_ | refine Fq.of_thd ‹_ = _› ?_ | fail_if_no_progress (apply Fq.after; (apply Fq.upd) <;> rfl))
    | split)

/-! ### DmaRun -/

theorem writeReg_fr (o : Nat) (v : Word) (pins : Pins) (s : State) (h : 0x020000 ≤ o) : Fr s (writeReg o v pins s) := by
  unfold writeReg
  rw [if_neg (by omega)]
  exact .ite (fq_writeHst ..).fr (.ite (fq_writeMem ..).fr (.ite (fr_writeDot ..) (.ite (fq_writeFir ..).fr (.ite (fr_writeHeat ..)
    (.ite (fr_writeScn ..) (.ite (fq_writePos ..).fr (.ite (fr_writeStp ..) (.ite (fr_writeMot ..)
      (.ite (fq_plainWrite ..).fr (fq_writeDma ..).fr)))))))))
theorem fr_dmaAct (n : Nat) (i : List Byte) (pins : Pins) (s : State) : Fr s (dmaAct n i pins s) := by
  unfold dmaAct
  refine Fr.trans (t := modDma n (fun x => { x with held := false }) s) (fq_modDma ..).fr ?_
  dsimp only
  generalize modDma n (fun x => { x with held := false }) s = s1
  split
  · exact ((fq_raiseSig ..).trans (fq_dmaNext ..)).fr
  · split
    · rename_i h
      refine .after (fq_dmaNext ..).fr (writeReg_fr _ _ _ _ ?_)
      unfold wriOk within at h
      simp only [Bool.and_eq_true, Bool.or_eq_true, decide_eq_true_eq] at h
      omega
    · exact (fq_dmaFail ..).fr
  · exact (fq_dmaClose ..).fr
  · exact (fq_dmaClose ..).fr
  · exact (fq_dmaClose ..).fr
  · exact .refl _

theorem fr_dmaOrdered (a1) (a2) (a3) (s : State) : Fr s (dmaOrdered a1 a2 a3 s) := by
  unfold dmaOrdered
  try dsimp only
  repeat' (first
    | (with_reducible first
        | exact Fr.refl _ | apply Fr.ite | (apply Fr.after; apply fr_dmaAct) | (apply Fr.after; apply Fq.fr; apply fq_modDma)
        | fail_if_no_progress (apply Fr.after; (apply Fr.upd) <;> rfl))
    | split)

theorem fq_dmaRun (a1) (a2) (a3) (ha3 : ∀ i s, Fq s (a3 i s)) (s : State) : Fq s (dmaRun a1 a2 a3 s) := by
  unfold dmaRun
  try dsimp only
  repeat' (first
    | with_reducible exact Fq.refl _
    | intro i s
    | intro s
    | with_reducible apply Fq.ite
    | (with_reducible apply Fq.after; with_reducible apply ha3)
    | (with_reducible apply Fq.after; with_reducible apply fq_marchYield)
    | (with_reducible apply Fq.after; with_reducible apply fq_fetchTurn)
    | (with_reducible apply Fq.after; with_reducible apply fq_modDma)
    | (with_reducible apply Fq.after; with_reducible apply fq_errAddr)
    | (with_reducible apply Fq.after; with_reducible apply fq_dmaFail)
    | (with_reducible apply Fq.after; with_reducible apply fq_forEach)
    | (with_reducible apply Fq.after; with_reducible apply fq_foldl)
    | with_reducible refine Fq.of_fst ‹_ = _› ?_
    | with_reducible refine Fq.of_snd ‹_ = _› ?_
    | with_reducible refine Fq.of_thd ‹_ = _› ?_
    | fail_if_no_progress (with_reducible apply Fq.after; (with_reducible apply Fq.upd) <;> with_reducible rfl)
    | split
    )
theorem fr_dmaRun (a1) (a2) (a3) (ha3 : ∀ i s, Fr s (a3 i s)) (s : State) : Fr s (dmaRun a1 a2 a3 s) := by
  unfold dmaRun
  try dsimp only
  repeat' (first
    | with_reducible exact Fr.refl _
    | intro i s
    | intro s
    | with_reducible apply Fr.ite
    | (with_reducible apply Fr.after; with_reducible apply ha3)
    | (with_reducible apply Fr.after; with_reducible apply Fq.fr; with_reducible apply fq_marchYield)
    | (with_reducible apply Fr.after; with_reducible apply Fq.fr; with_reducible apply fq_fetchTurn)
    | (with_reducible apply Fr.after; with_reducible apply Fq.fr; with_reducible apply fq_modDma)
    | (with_reducible apply Fr.after; with_reducible apply Fq.fr; with_reducible apply fq_errAddr)
    | (with_reducible apply Fr.after; with_reducible apply Fq.fr; with_reducible apply fq_dmaFail)
    | (with_reducible apply Fr.after; with_reducible apply fr_forEach)
    | (with_reducible apply Fr.after; with_reducible apply fr_foldl)
    | with_reducible refine Fr.of_fst ‹_ = _› ?_
    | with_reducible refine Fr.of_snd ‹_ = _› ?_
    | with_reducible refine Fr.of_thd ‹_ = _› ?_
    | fail_if_no_progress (with_reducible apply Fr.after; (with_reducible apply Fr.upd) <;> with_reducible rfl)
    | split
    )

theorem fq_markSet (a1) (s : State) : Fq s (markSet a1 s) := by
  unfold markSet
  try dsimp only
  repeat' (first
    | (with_reducible first
        | exact Fq.refl _ | apply Fq.ite | (apply Fq.after; apply fq_setF))
    | split)

theorem fq_setPattern (a1) (a2) (a3) (a4) (s : State) : Fq s (setPattern a1 a2 a3 a4 s) := by
  unfold setPattern
  repeat' (with_reducible first
    | exact Fq.refl _ | (apply Fq.after; apply fq_setF) | (apply Fq.after; apply fq_wr))

theorem fq_setBase (a1) (a2) (a3) (a4) (a5) (s : State) : Fq s (setBase a1 a2 a3 a4 a5 s) := by
  unfold setBase
  repeat' (with_reducible first
    | exact Fq.refl _ | (apply Fq.after; apply fq_setF) | (apply Fq.after; apply fq_wr))

theorem fq_loopStep (a1) (a2) (a3) (s : State) : Fq s (loopStep a1 a2 a3 s) := by
  unfold loopStep
  try dsimp only
  repeat' (first
    | (with_reducible first
        | exact Fq.refl _ | apply Fq.ite | (apply Fq.after; apply fq_dmaNext) | (apply Fq.after; apply fq_wr)
        | (apply Fq.after; apply fq_modDma) | fail_if_no_progress (apply Fq.after; (apply Fq.upd) <;> rfl))
    | split)

theorem fq_waitOver (a1) (a2) (s : State) : Fq s (waitOver a1 a2 s) := by
  unfold waitOver
  try dsimp only
  repeat' (first
    | (with_reducible first
        | exact Fq.refl _ | apply Fq.ite | (apply Fq.after; apply fq_sigPut) | (apply Fq.after; apply fq_dmaNext)
        | (apply Fq.after; apply fq_modDma) | fail_if_no_progress (apply Fq.after; (apply Fq.upd) <;> rfl))
    | split)

theorem fq_waitStart (a1) (a2) (s : State) : Fq s (waitStart a1 a2 s) := by
  unfold waitStart
  try dsimp only
  repeat' (first
    | (with_reducible first
        | exact Fq.refl _ | apply Fq.ite | (apply Fq.after; apply fq_dmaFail) | (apply Fq.after; apply fq_waitOver)
        | (apply Fq.after; apply fq_modDma) | fail_if_no_progress (apply Fq.after; (apply Fq.upd) <;> rfl))
    | split)

theorem fq_xferStart (a1) (s : State) : Fq s (xferStart a1 s) := by
  unfold xferStart
  try dsimp only
  repeat' (first
    | (with_reducible first
        | exact Fq.refl _ | apply Fq.ite | (apply Fq.after; apply fq_dmaFail) | (apply Fq.after; apply fq_dmaMove)
        | (apply Fq.after; apply fq_wr) | (apply Fq.after; apply fq_modDma)
        | fail_if_no_progress (apply Fq.after; (apply Fq.upd) <;> rfl))
    | split)

end Sys2Proof.Machine
end

