-- ==== Sys2Proof/Laws/FrameExec.lean ====
section
/-!
SUPPORT. What the operations keep, one lemma for each operation (the meanings of the commands): `Fq` the frame of an operation that leaves the global state
to the events, `Fr` and `Kp` the weaker ones (Laws/Frame.lean).
-/
set_option linter.unreachableTactic false
set_option linter.unusedTactic false
set_option linter.unusedVariables false

namespace Sys2Proof.Machine

/-! ### Exec -/

theorem x_execAerError (a1) (a2) (a3) (s : State) : ∃ t, execAerError a1 a2 a3 s = .next t ∧ Fq s t := by
  unfold execAerError finish
  refine ⟨_, rfl, .after (fq_flush _) ?_⟩
  try dsimp only
  repeat' (first
    | (with_reducible first
        | exact Fq.refl _ | apply Fq.ite | (apply Fq.after; apply fq_logEvent) | refine Fq.of_fst ‹_ = _› ?_
        | refine Fq.of_snd ‹_ = _› ?_ | refine Fq.of_thd ‹_ = _› ?_ | fail_if_no_progress (apply Fq.after; (apply Fq.upd) <;> rfl))
    | split)

theorem x_execBmeClear (s : State) : ∃ t, execBmeClear s = .next t ∧ Fq s t := by
  unfold execBmeClear finish
  refine ⟨_, rfl, .after (fq_flush _) ?_⟩
  repeat' (first
    | (with_reducible first
        | exact Fq.refl _ | apply Fq.ite | (apply Fq.after; apply fq_logEvent) | (apply Fq.after; apply fq_setFlag)
        | fail_if_no_progress (apply Fq.after; (apply Fq.upd) <;> rfl))
    | split)

theorem x_execEarlyAccess (a1) (a2) (a3) (s : State) : ∃ t, execEarlyAccess a1 a2 a3 s = .next t ∧ Fq s t := by
  unfold execEarlyAccess finish
  refine ⟨_, rfl, .after (fq_flush _) ?_⟩
  repeat' (first
    | (with_reducible first
        | exact Fq.refl _ | apply Fq.ite | (apply Fq.after; apply fq_earlyAccess) | (apply Fq.after; apply fq_hostAccess))
    | split)

theorem x_execEvIrqTimer (s : State) : ∃ t, execEvIrqTimer s = .next t ∧ Fq s t := by
  unfold execEvIrqTimer finish
  refine ⟨_, rfl, .after (fq_flush _) ?_⟩
  repeat' (first
    | (with_reducible first
        | exact Fq.refl _ | apply Fq.ite | (apply Fq.after; apply fq_sendMsix)
        | fail_if_no_progress (apply Fq.after; (apply Fq.upd) <;> rfl))
    | split)

theorem x_execEvheadWrite (a1) (s : State) : ∃ t, execEvheadWrite a1 s = .next t ∧ Fq s t := by
  unfold execEvheadWrite finish
  refine ⟨_, rfl, .after (fq_flush _) ?_⟩
  repeat' (with_reducible first
    | exact Fq.refl _ | intro i s | intro s | (apply Fq.after; apply fq_viaBar0) | (apply Fq.after; apply fq_evHeadWrite))

theorem x_execHstAccessBad (a1) (a2) (a3) (s : State) : ∃ t, execHstAccessBad a1 a2 a3 s = .next t ∧ Fq s t := by
  unfold execHstAccessBad finish
  refine ⟨_, rfl, .after (fq_flush _) ?_⟩
  repeat' (first
    | (with_reducible first
        | exact Fq.refl _ | apply Fq.ite | (apply Fq.after; apply fq_accessBad) | (apply Fq.after; apply fq_respond)
        | (apply Fq.after; apply fq_earlyAccess) | (apply Fq.after; apply fq_hostAccess))
    | split)

theorem x_execInvarLock (s : State) : ∃ t, execInvarLock s = .next t ∧ Fq s t := by
  unfold execInvarLock finish
  refine ⟨_, rfl, .after (fq_flush _) ?_⟩
  repeat' (with_reducible first
    | exact Fq.refl _ | intro i s | intro s | (apply Fq.after; apply fq_viaBar0) | (apply Fq.after; apply fq_setF))

theorem x_execMsixUnmask (a1) (s : State) : ∃ t, execMsixUnmask a1 s = .next t ∧ Fq s t := by
  unfold execMsixUnmask finish
  refine ⟨_, rfl, .after (fq_flush _) ?_⟩
  try dsimp only
  repeat' (first
    | (with_reducible first
        | exact Fq.refl _ | intro i s | intro s | (apply Fq.after; apply fq_viaBar0) | (apply Fq.after; apply fq_setF)
        | (apply Fq.after; apply fq_msixPump) | (apply Fq.after; apply fq_forEach) | refine Fq.of_fst ‹_ = _› ?_
        | refine Fq.of_snd ‹_ = _› ?_ | refine Fq.of_thd ‹_ = _› ?_ | fail_if_no_progress (apply Fq.after; (apply Fq.upd) <;> rfl))
    | split)

theorem x_execOccClearAll (s : State) : ∃ t, execOccClearAll s = .next t ∧ Fq s t := by
  unfold execOccClearAll finish
  refine ⟨_, rfl, .after (fq_flush _) ?_⟩
  repeat' (with_reducible first
    | exact Fq.refl _ | intro i s | intro s | (apply Fq.after; apply fq_occClrWrite) | (apply Fq.after; apply fq_viaBar0))

theorem x_execOccClearSelected (s : State) : ∃ t, execOccClearSelected s = .next t ∧ Fq s t := by
  unfold execOccClearSelected finish
  refine ⟨_, rfl, .after (fq_flush _) ?_⟩
  repeat' (with_reducible first
    | exact Fq.refl _ | intro i s | intro s | (apply Fq.after; apply fq_occClrWrite) | (apply Fq.after; apply fq_viaBar0))

theorem x_execPcieLinkUp (a1) (a2) (s : State) : ∃ t, execPcieLinkUp a1 a2 s = .next t ∧ Fq s t := by
  unfold execPcieLinkUp finish
  refine ⟨_, rfl, .after (fq_flush _) ?_⟩
  repeat' (first
    | (with_reducible first
        | exact Fq.refl _ | apply Fq.ite | fail_if_no_progress (apply Fq.after; (apply Fq.upd) <;> rfl))
    | split)

theorem x_execPciePerstRelease (s : State) : ∃ t, execPciePerstRelease s = .next t ∧ Fq s t := by
  unfold execPciePerstRelease finish
  refine ⟨_, rfl, .after (fq_flush _) ?_⟩
  repeat' (with_reducible first
    | exact Fq.refl _ | fail_if_no_progress (apply Fq.after; (apply Fq.upd) <;> rfl))

theorem x_execCmpArm (a1) (a2) (s : State) : ∃ t, execCmpArm a1 a2 s = .next t ∧ Fq s t := by
  unfold execCmpArm finish
  refine ⟨_, rfl, .after (fq_flush _) ?_⟩
  repeat' (with_reducible first
    | exact Fq.refl _ | intro i s | intro s | (apply Fq.after; apply fq_cmpCmd) | (apply Fq.after; apply fq_viaTable))

theorem x_execCmpDisarm (a1) (a2) (s : State) : ∃ t, execCmpDisarm a1 a2 s = .next t ∧ Fq s t := by
  unfold execCmpDisarm finish
  refine ⟨_, rfl, .after (fq_flush _) ?_⟩
  repeat' (with_reducible first
    | exact Fq.refl _ | intro i s | intro s | (apply Fq.after; apply fq_cmpCmd) | (apply Fq.after; apply fq_viaTable))

theorem x_execEeOutputStep (a1) (s : State) : ∃ t, execEeOutputStep a1 s = .next t ∧ Fq s t := by
  unfold execEeOutputStep finish
  refine ⟨_, rfl, .after (fq_flush _) ?_⟩
  repeat' (with_reducible first
    | exact Fq.refl _ | (apply Fq.after; apply fq_eeStep))

theorem x_execIndexEdge (a1) (s : State) : ∃ t, execIndexEdge a1 s = .next t ∧ Fq s t := by
  unfold execIndexEdge finish
  refine ⟨_, rfl, .after (fq_flush _) ?_⟩
  try dsimp only
  repeat' (first
    | (with_reducible first
        | exact Fq.refl _ | apply Fq.ite | (apply Fq.after; apply fq_eeZ) | (apply Fq.after; apply fq_inputFault)
        | (apply Fq.after; apply fq_modPc) | (apply Fq.after; apply fq_capture)
        | fail_if_no_progress (apply Fq.after; (apply Fq.upd) <;> rfl))
    | split)

theorem x_execPosClrcnt (a1) (s : State) : ∃ t, execPosClrcnt a1 s = .next t ∧ Fq s t := by
  unfold execPosClrcnt finish
  refine ⟨_, rfl, .after (fq_flush _) ?_⟩
  repeat' (with_reducible first
    | exact Fq.refl _ | intro i s | intro s | (apply Fq.after; apply fq_viaTable) | (apply Fq.after; apply fq_posCmd))

theorem x_execPosIntRead (a1) (s : State) : ∃ t, execPosIntRead a1 s = .next t ∧ Fq s t := by
  unfold execPosIntRead finish
  refine ⟨_, rfl, .after (fq_flush _) ?_⟩
  try dsimp only
  repeat' (first
    | (with_reducible first
        | exact Fq.refl _ | apply Fq.ite | (apply Fq.after; apply fq_respond) | (apply Fq.after; apply fq_earlyAccess)
        | (apply Fq.after; apply fq_hostAccess) | (apply Fq.after; apply fq_posSnap))
    | split)

theorem x_execPosPreset (a1) (s : State) : ∃ t, execPosPreset a1 s = .next t ∧ Fq s t := by
  unfold execPosPreset finish
  refine ⟨_, rfl, .after (fq_flush _) ?_⟩
  repeat' (with_reducible first
    | exact Fq.refl _ | intro i s | intro s | (apply Fq.after; apply fq_viaTable) | (apply Fq.after; apply fq_posCmd))

theorem x_execSincosSpeedTick (a1) (s : State) : ∃ t, execSincosSpeedTick a1 s = .next t ∧ Fq s t := by
  unfold execSincosSpeedTick finish
  refine ⟨_, rfl, .after (fq_flush _) ?_⟩
  try dsimp only
  repeat' (first
    | (with_reducible first
        | exact Fq.refl _ | apply Fq.ite | (apply Fq.after; apply fq_modPc) | refine Fq.of_fst ‹_ = _› ?_ | refine Fq.of_snd ‹_ = _› ?_
        | refine Fq.of_thd ‹_ = _› ?_ | fail_if_no_progress (apply Fq.after; (apply Fq.upd) <;> rfl))
    | split)

theorem x_execSpeedSampleTick (a1) (s : State) : ∃ t, execSpeedSampleTick a1 s = .next t ∧ Fq s t := by
  unfold execSpeedSampleTick finish
  refine ⟨_, rfl, .after (fq_flush _) ?_⟩
  try dsimp only
  repeat' (first
    | (with_reducible first
        | exact Fq.refl _ | intro i s | intro s | apply Fq.ite | (apply Fq.after; apply fq_modGen) | (apply Fq.after; apply fq_modPc)
        | (apply Fq.after; apply fq_forEach) | fail_if_no_progress (apply Fq.after; (apply Fq.upd) <;> rfl))
    | split)

theorem x_execSpeedStandstillTimeout (a1) (s : State) : ∃ t, execSpeedStandstillTimeout a1 s = .next t ∧ Fq s t := by
  unfold execSpeedStandstillTimeout finish
  refine ⟨_, rfl, .after (fq_flush _) ?_⟩
  try dsimp only
  repeat' (first
    | (with_reducible first
        | exact Fq.refl _ | apply Fq.ite | (apply Fq.after; apply fq_modPc))
    | split)

theorem x_execDieSensorSample (a1) (s : State) : ∃ t, execDieSensorSample a1 s = .next t ∧ Mv s t := by
  unfold execDieSensorSample finish
  refine ⟨_, rfl, .after (fq_flush _).mv ?_⟩
  try dsimp only
  repeat' (first
    | (with_reducible first
        | exact Mv.refl _ | apply Mv.ite | (apply Mv.after; apply Fr.mv; apply fr_useInvar)
        | (apply Mv.after; apply Fq.mv; apply fq_limitReturn) | (apply Mv.after; apply mv_dieHalt)
        | (apply Mv.after; apply Fr.mv; apply fr_raise) | (apply Mv.after; apply Fq.mv; apply fq_logPeer)
        | fail_if_no_progress (apply Mv.after; (apply Mv.upd) <;> rfl))
    | split)

theorem x_execFallbackComplete (s : State) : ∃ t, execFallbackComplete s = .next t ∧ Mv s t := by
  unfold execFallbackComplete finish
  refine ⟨_, rfl, .after (fq_flush _).mv ?_⟩
  try dsimp only
  repeat' (first
    | (with_reducible first
        | exact Mv.refl _ | apply Mv.ite | (apply Mv.after; apply mv_pathsClose) | (apply Mv.after; apply Fq.mv; apply fq_pathRecords)
        | fail_if_no_progress (apply Mv.after; (apply Mv.upd) <;> rfl))
    | split)

theorem x_execFallbackTtlExpiry (s : State) : ∃ t, execFallbackTtlExpiry s = .next t ∧ Mv s t := by
  unfold execFallbackTtlExpiry finish
  refine ⟨_, rfl, .after (fq_flush _).mv ?_⟩
  repeat' (first
    | (with_reducible first
        | exact Mv.refl _ | apply Mv.ite | (apply Mv.after; apply mv_mainPath))
    | split)

theorem x_execJournalProgramDone (s : State) : ∃ t, execJournalProgramDone s = .next t ∧ Kp s t := by
  unfold execJournalProgramDone finish
  refine ⟨_, rfl, .after (fq_flush _).kp ?_⟩
  repeat' (with_reducible first
    | exact Kp.refl _ | (apply Kp.after; apply Mv.kp; apply mv_pathsClose) | (apply Kp.after; apply Fq.kp; apply fq_jStart)
    | (apply Kp.after; apply kp_jFinish))

theorem x_execLedgerWaitTimeout (a1) (a2) (s : State) : ∃ t, execLedgerWaitTimeout a1 a2 s = .next t ∧ Fq s t := by
  unfold execLedgerWaitTimeout finish
  refine ⟨_, rfl, .after (fq_flush _) ?_⟩
  try dsimp only
  repeat' (first
    | (with_reducible first
        | exact Fq.refl _ | apply Fq.ite | (apply Fq.after; apply fq_logEvent) | refine Fq.of_fst ‹_ = _› ?_
        | refine Fq.of_snd ‹_ = _› ?_ | refine Fq.of_thd ‹_ = _› ?_ | fail_if_no_progress (apply Fq.after; (apply Fq.upd) <;> rfl))
    | split)

theorem x_execModelIdleUpdate (a1) (s : State) : ∃ t, execModelIdleUpdate a1 s = .next t ∧ Fq s t := by
  unfold execModelIdleUpdate finish
  refine ⟨_, rfl, .after (fq_flush _) ?_⟩
  try dsimp only
  repeat' (first
    | (with_reducible first
        | exact Fq.refl _ | apply Fq.ite | (apply Fq.after; apply fq_modelUpdate))
    | split)

theorem x_execTeleKind0Rx (a1) (a2) (a3) (a4) (a5) (a6) (a7) (s : State) : ∃ t, execTeleKind0Rx a1 a2 a3 a4 a5 a6 a7 s = .next t ∧ Mv s t := by
  unfold execTeleKind0Rx finish
  refine ⟨_, rfl, .after (fq_flush _).mv ?_⟩
  try dsimp only
  repeat' (first
    | (with_reducible first
        | exact Mv.refl _ | intro i s | intro s | apply Mv.ite | (apply Mv.after; apply Fr.mv; apply fr_useInvar)
        | (apply Mv.after; apply Fq.mv; apply fq_modThm) | (apply Mv.after; apply Fq.mv; apply fq_retireLines)
        | (apply Mv.after; apply Fq.mv; apply fq_modHlp) | (apply Mv.after; apply Fq.mv; apply fq_peakCheck)
        | (apply Mv.after; apply mv_zoneSample) | (apply Mv.after; apply Fq.mv; apply fq_setF) | (apply Mv.after; apply mv_foldl)
        | refine Mv.of_fst ‹_ = _› ?_ | refine Mv.of_snd ‹_ = _› ?_ | refine Mv.of_thd ‹_ = _› ?_
        | fail_if_no_progress (apply Mv.after; (apply Mv.upd) <;> rfl))
    | split)

theorem x_execTeleMissingTimeout (a1) (s : State) : ∃ t, execTeleMissingTimeout a1 s = .next t ∧ Fr s t := by
  unfold execTeleMissingTimeout finish
  refine ⟨_, rfl, .after (fq_flush _).fr ?_⟩
  try dsimp only
  repeat' (first
    | (with_reducible first
        | exact Fr.refl _ | apply Fr.ite | (apply Fr.after; apply Fq.fr; apply fq_logEvent)
        | (apply Fr.after; apply Fq.fr; apply fq_modThm) | (apply Fr.after; apply Fq.fr; apply fq_retireLines)
        | (apply Fr.after; apply Fq.fr; apply fq_modHlp) | (apply Fr.after; apply Fq.fr; apply fq_incF)
        | (apply Fr.after; apply fr_raise) | refine Fr.of_fst ‹_ = _› ?_ | refine Fr.of_snd ‹_ = _› ?_ | refine Fr.of_thd ‹_ = _› ?_
        | fail_if_no_progress (apply Fr.after; (apply Fr.upd) <;> rfl))
    | split)

theorem x_execThmClrmax (a1) (a2) (s : State) : ∃ t, execThmClrmax a1 a2 s = .next t ∧ Fq s t := by
  unfold execThmClrmax finish
  refine ⟨_, rfl, .after (fq_flush _) ?_⟩
  repeat' (with_reducible first
    | exact Fq.refl _ | intro i s | intro s | (apply Fq.after; apply fq_thmCmd) | (apply Fq.after; apply fq_viaTable))

theorem x_execThmReseed (a1) (a2) (s : State) : ∃ t, execThmReseed a1 a2 s = .next t ∧ Fq s t := by
  unfold execThmReseed finish
  refine ⟨_, rfl, .after (fq_flush _) ?_⟩
  repeat' (with_reducible first
    | exact Fq.refl _ | intro i s | intro s | (apply Fq.after; apply fq_thmCmd) | (apply Fq.after; apply fq_viaTable))

theorem x_execZonePollTimer (a1) (s : State) : ∃ t, execZonePollTimer a1 s = .next t ∧ Fq s t := by
  unfold execZonePollTimer finish
  refine ⟨_, rfl, .after (fq_flush _) ?_⟩
  repeat' (first
    | (with_reducible first
        | exact Fq.refl _ | apply Fq.ite | (apply Fq.after; apply fq_memAsk))
    | split)

theorem x_execDotClear (a1) (a2) (s : State) : ∃ t, execDotClear a1 a2 s = .next t ∧ Fr s t := by
  unfold execDotClear finish
  refine ⟨_, rfl, .after (fq_flush _).fr ?_⟩
  repeat' (with_reducible first
    | exact Fr.refl _ | intro i s | intro s | (apply Fr.after; apply fr_dotCmd) | (apply Fr.after; apply fr_viaBar0))

theorem x_execDotDisable (a1) (a2) (s : State) : ∃ t, execDotDisable a1 a2 s = .next t ∧ Fr s t := by
  unfold execDotDisable finish
  refine ⟨_, rfl, .after (fq_flush _).fr ?_⟩
  repeat' (with_reducible first
    | exact Fr.refl _ | intro i s | intro s | (apply Fr.after; apply fr_dotCmd) | (apply Fr.after; apply fr_viaBar0))

theorem x_execDotEnable (a1) (a2) (s : State) : ∃ t, execDotEnable a1 a2 s = .next t ∧ Fr s t := by
  unfold execDotEnable finish
  refine ⟨_, rfl, .after (fq_flush _).fr ?_⟩
  repeat' (with_reducible first
    | exact Fr.refl _ | intro i s | intro s | (apply Fr.after; apply fr_dotCmd) | (apply Fr.after; apply fr_viaBar0))

theorem x_execDotRelease (a1) (a2) (s : State) : ∃ t, execDotRelease a1 a2 s = .next t ∧ Fr s t := by
  unfold execDotRelease finish
  refine ⟨_, rfl, .after (fq_flush _).fr ?_⟩
  repeat' (with_reducible first
    | exact Fr.refl _ | intro i s | intro s | (apply Fr.after; apply fr_dotCmd) | (apply Fr.after; apply fr_viaBar0))

theorem x_execDotSetline (a1) (a2) (s : State) : ∃ t, execDotSetline a1 a2 s = .next t ∧ Fr s t := by
  unfold execDotSetline finish
  refine ⟨_, rfl, .after (fq_flush _).fr ?_⟩
  repeat' (with_reducible first
    | exact Fr.refl _ | intro i s | intro s | (apply Fr.after; apply fr_dotCmd) | (apply Fr.after; apply fr_viaBar0))

theorem x_execDotWaddWrite (a1) (a2) (s : State) : ∃ t, execDotWaddWrite a1 a2 s = .next t ∧ Fr s t := by
  unfold execDotWaddWrite finish
  refine ⟨_, rfl, .after (fq_flush _).fr ?_⟩
  repeat' (with_reducible first
    | exact Fr.refl _ | intro i s | intro s | (apply Fr.after; apply fr_viaBar0) | (apply Fr.after; apply fr_waddWrite))

theorem x_execDotWlineWrite (a1) (a2) (s : State) : ∃ t, execDotWlineWrite a1 a2 s = .next t ∧ Fr s t := by
  unfold execDotWlineWrite finish
  refine ⟨_, rfl, .after (fq_flush _).fr ?_⟩
  repeat' (with_reducible first
    | exact Fr.refl _ | intro i s | intro s | (apply Fr.after; apply fr_viaBar0) | (apply Fr.after; apply fr_wlineWrite))

theorem x_execLineAssemblyDone (a1) (s : State) : ∃ t, execLineAssemblyDone a1 s = .next t ∧ Fr s t := by
  unfold execLineAssemblyDone finish
  refine ⟨_, rfl, .after (fq_flush _).fr ?_⟩
  try dsimp only
  repeat' (first
    | (with_reducible first
        | exact Fr.refl _ | (apply Fr.after; apply Fq.fr; apply fq_portPump) | (apply Fr.after; apply fr_pumpPipe)
        | (apply Fr.after; apply Fq.fr; apply fq_modHlp) | (apply Fr.after; apply Fq.fr; apply fq_modDot) | refine Fr.of_fst ‹_ = _› ?_
        | refine Fr.of_snd ‹_ = _› ?_ | refine Fr.of_thd ‹_ = _› ?_ | fail_if_no_progress (apply Fr.after; (apply Fr.upd) <;> rfl))
    | split)

theorem x_execPrefetchDone (a1) (a2) (a3) (s : State) : ∃ t, execPrefetchDone a1 a2 a3 s = .next t ∧ Fr s t := by
  unfold execPrefetchDone finish
  refine ⟨_, rfl, .after (fq_flush _).fr ?_⟩
  try dsimp only
  repeat' (first
    | (with_reducible first
        | exact Fr.refl _ | apply Fr.ite | (apply Fr.after; apply fr_pumpPipe) | (apply Fr.after; apply Fq.fr; apply fq_eccErrors)
        | (apply Fr.after; apply Fq.fr; apply fq_modDot) | refine Fr.of_fst ‹_ = _› ?_ | refine Fr.of_snd ‹_ = _› ?_
        | refine Fr.of_thd ‹_ = _› ?_ | fail_if_no_progress (apply Fr.after; (apply Fr.upd) <;> rfl))
    | split)

theorem x_execUnderrunPredictTimer (a1) (s : State) : ∃ t, execUnderrunPredictTimer a1 s = .next t ∧ Fr s t := by
  unfold execUnderrunPredictTimer finish
  refine ⟨_, rfl, .after (fq_flush _).fr ?_⟩
  repeat' (first
    | (with_reducible first
        | exact Fr.refl _ | apply Fr.ite | (apply Fr.after; apply fr_predict))
    | split)

theorem x_execFirCaporg (a1) (s : State) : ∃ t, execFirCaporg a1 s = .next t ∧ Fq s t := by
  unfold execFirCaporg finish
  refine ⟨_, rfl, .after (fq_flush _) ?_⟩
  repeat' (with_reducible first
    | exact Fq.refl _ | intro i s | intro s | (apply Fq.after; apply fq_firCmd) | (apply Fq.after; apply fq_viaBar0))

theorem x_execFirSetorg (a1) (s : State) : ∃ t, execFirSetorg a1 s = .next t ∧ Fq s t := by
  unfold execFirSetorg finish
  refine ⟨_, rfl, .after (fq_flush _) ?_⟩
  repeat' (with_reducible first
    | exact Fq.refl _ | intro i s | intro s | (apply Fq.after; apply fq_firCmd) | (apply Fq.after; apply fq_viaBar0))

theorem x_execFireSlotStart (a1) (a2) (s : State) : ∃ t, execFireSlotStart a1 a2 s = .next t ∧ Fq s t := by
  unfold execFireSlotStart finish
  refine ⟨_, rfl, .after (fq_flush _) ?_⟩
  try dsimp only
  repeat' (first
    | (with_reducible first
        | exact Fq.refl _ | apply Fq.ite | (apply Fq.after; apply fq_modLine) | refine Fq.of_fst ‹_ = _› ?_
        | refine Fq.of_snd ‹_ = _› ?_ | refine Fq.of_thd ‹_ = _› ?_ | fail_if_no_progress (apply Fq.after; (apply Fq.upd) <;> rfl))
    | split)

theorem x_execFixedClockCommit (a1) (s : State) : ∃ t, execFixedClockCommit a1 s = .next t ∧ Fr s t := by
  unfold execFixedClockCommit finish
  refine ⟨_, rfl, .after (fq_flush _).fr ?_⟩
  try dsimp only
  repeat' (first
    | (with_reducible first
        | exact Fr.refl _ | apply Fr.ite | (apply Fr.after; apply fr_commitAt))
    | split)

theorem x_execGateSourceDeassert (a1) (s : State) : ∃ t, execGateSourceDeassert a1 s = .next t ∧ Fr s t := by
  unfold execGateSourceDeassert finish
  refine ⟨_, rfl, .after (fq_flush _).fr ?_⟩
  try dsimp only
  repeat' (first
    | (with_reducible first
        | exact Fr.refl _ | (apply Fr.after; apply fr_refreshAll) | (apply Fr.after; apply Fq.fr; apply fq_modGate)
        | refine Fr.of_fst ‹_ = _› ?_ | refine Fr.of_snd ‹_ = _› ?_ | refine Fr.of_thd ‹_ = _› ?_
        | fail_if_no_progress (apply Fr.after; (apply Fr.upd) <;> rfl))
    | split)

theorem x_execHeadKillAssert (s : State) : ∃ t, execHeadKillAssert s = .next t ∧ Fr s t := by
  unfold execHeadKillAssert finish
  refine ⟨_, rfl, .after (fq_flush _).fr ?_⟩
  try dsimp only
  repeat' (first
    | (with_reducible first
        | exact Fr.refl _ | apply Fr.ite | (apply Fr.after; apply fr_killAct) | (apply Fr.after; apply Fq.fr; apply fq_modGate)
        | fail_if_no_progress (apply Fr.after; (apply Fr.upd) <;> rfl))
    | split)

theorem x_execHopenAssert (a1) (s : State) : ∃ t, execHopenAssert a1 s = .next t ∧ Fr s t := by
  unfold execHopenAssert finish
  refine ⟨_, rfl, .after (fq_flush _).fr ?_⟩
  try dsimp only
  repeat' (first
    | (with_reducible first
        | exact Fr.refl _ | apply Fr.ite | (apply Fr.after; apply fr_useInvar) | (apply Fr.after; apply fr_hopenAct)
        | (apply Fr.after; apply Fq.fr; apply fq_modGate) | fail_if_no_progress (apply Fr.after; (apply Fr.upd) <;> rfl))
    | split)

theorem x_execHpnEnExternalLow (a1) (s : State) : ∃ t, execHpnEnExternalLow a1 s = .next t ∧ Fr s t := by
  unfold execHpnEnExternalLow finish
  refine ⟨_, rfl, .after (fq_flush _).fr ?_⟩
  try dsimp only
  repeat' (first
    | (with_reducible first
        | exact Fr.refl _ | apply Fr.ite | (apply Fr.after; apply fr_gatePorts) | (apply Fr.after; apply Fq.fr; apply fq_setFlag)
        | (apply Fr.after; apply Fq.fr; apply fq_modGate) | fail_if_no_progress (apply Fr.after; (apply Fr.upd) <;> rfl))
    | split)

theorem x_execJamQualified (a1) (s : State) : ∃ t, execJamQualified a1 s = .next t ∧ Fr s t := by
  unfold execJamQualified finish
  refine ⟨_, rfl, .after (fq_flush _).fr ?_⟩
  try dsimp only
  repeat' (first
    | (with_reducible first
        | exact Fr.refl _ | apply Fr.ite | (apply Fr.after; apply fr_useInvar) | (apply Fr.after; apply fr_jamAct)
        | (apply Fr.after; apply Fq.fr; apply fq_modGate) | fail_if_no_progress (apply Fr.after; (apply Fr.upd) <;> rfl))
    | split)

theorem x_execLineLaunch (a1) (s : State) : ∃ t, execLineLaunch a1 s = .next t ∧ Fr s t := by
  unfold execLineLaunch finish
  refine ⟨_, rfl, .after (fq_flush _).fr ?_⟩
  try dsimp only
  repeat' (first
    | (with_reducible first
        | exact Fr.refl _ | intro i s | intro s | apply Fr.ite | (apply Fr.after; apply Fq.fr; apply fq_launchMonitor)
        | (apply Fr.after; apply Fq.fr; apply fq_sweepLaunched) | (apply Fr.after; apply Fq.fr; apply fq_cancelWhenDue)
        | (apply Fr.after; apply fr_launchPipe) | (apply Fr.after; apply Fq.fr; apply fq_launchHeld)
        | (apply Fr.after; apply fr_superviseCheck) | (apply Fr.after; apply Fq.fr; apply fq_genLaunched)
        | (apply Fr.after; apply fr_forEach) | refine Fr.of_fst ‹_ = _› ?_ | refine Fr.of_snd ‹_ = _› ?_ | refine Fr.of_thd ‹_ = _› ?_
        | fail_if_no_progress (apply Fr.after; (apply Fr.upd) <;> rfl))
    | split)

theorem x_execLineWindowEnd (a1) (a2) (s : State) : ∃ t, execLineWindowEnd a1 a2 s = .next t ∧ Fq s t := by
  unfold execLineWindowEnd finish
  refine ⟨_, rfl, .after (fq_flush _) ?_⟩
  try dsimp only
  repeat' (first
    | (with_reducible first
        | exact Fq.refl _ | apply Fq.ite | (apply Fq.after; apply fq_modLine) | (apply Fq.after; apply fq_portPump)
        | (apply Fq.after; apply fq_lineFired) | (apply Fq.after; apply fq_retireLines) | (apply Fq.after; apply fq_svcSettle)
        | refine Fq.of_fst ‹_ = _› ?_ | refine Fq.of_snd ‹_ = _› ?_ | refine Fq.of_thd ‹_ = _› ?_
        | fail_if_no_progress (apply Fq.after; (apply Fq.upd) <;> rfl))
    | split)

theorem x_execMediaOutQualified (s : State) : ∃ t, execMediaOutQualified s = .next t ∧ Fr s t := by
  unfold execMediaOutQualified finish
  refine ⟨_, rfl, .after (fq_flush _).fr ?_⟩
  try dsimp only
  repeat' (first
    | (with_reducible first
        | exact Fr.refl _ | apply Fr.ite | (apply Fr.after; apply fr_useInvar) | (apply Fr.after; apply fr_mediaAct)
        | (apply Fr.after; apply Fq.fr; apply fq_modGate) | fail_if_no_progress (apply Fr.after; (apply Fr.upd) <;> rfl))
    | split)

theorem x_execPredictSample (a1) (s : State) : ∃ t, execPredictSample a1 s = .next t ∧ Fr s t := by
  unfold execPredictSample finish
  refine ⟨_, rfl, .after (fq_flush _).fr ?_⟩
  repeat' (first
    | (with_reducible first
        | exact Fr.refl _ | apply Fr.ite | (apply Fr.after; apply fr_predictSample))
    | split)

theorem x_execReactiveDelayedCommit (a1) (s : State) : ∃ t, execReactiveDelayedCommit a1 s = .next t ∧ Fr s t := by
  unfold execReactiveDelayedCommit finish
  refine ⟨_, rfl, .after (fq_flush _).fr ?_⟩
  repeat' (first
    | (with_reducible first
        | exact Fr.refl _ | apply Fr.ite | (apply Fr.after; apply fr_reactiveRule))
    | split)

theorem x_execSafeHoldKill (a1) (s : State) : ∃ t, execSafeHoldKill a1 s = .next t ∧ Fq s t := by
  unfold execSafeHoldKill finish
  refine ⟨_, rfl, .after (fq_flush _) ?_⟩
  repeat' (first
    | (with_reducible first
        | exact Fq.refl _ | apply Fq.ite | (apply Fq.after; apply fq_hardGate))
    | split)

theorem x_execWarmCycleTimer (p : Fin 16) (s : State) : ∃ t, execWarmCycleTimer p s = .next t ∧ Fr s t := by
  refine ⟨_, rfl, .after (fq_flush _).fr (.ite (.refl s) ?_)⟩
  dsimp only
  split
  · exact fr_decideLine ..
  · rename_i e
    refine .after (fq_sendFrame ..).fr (.after (fq_modHlp ..).fr ?_)
    exact (fr_decideLine ..).trans (fq_bankFor _ _ _ e).fr

theorem x_execWaveformEntryWrite (a1) (a2) (s : State) : ∃ t, execWaveformEntryWrite a1 a2 s = .next t ∧ Fq s t := by
  unfold execWaveformEntryWrite finish
  refine ⟨_, rfl, .after (fq_flush _) ?_⟩
  repeat' (with_reducible first
    | exact Fq.refl _ | intro i s | intro s | (apply Fq.after; apply fq_waveWrite) | (apply Fq.after; apply fq_viaBar0))

theorem x_execHotswapAttemptTimer (a1) (s : State) : ∃ t, execHotswapAttemptTimer a1 s = .next t ∧ Fq s t := by
  unfold execHotswapAttemptTimer finish
  refine ⟨_, rfl, .after (fq_flush _) ?_⟩
  try dsimp only
  repeat' (first
    | (with_reducible first
        | exact Fq.refl _ | apply Fq.ite | (apply Fq.after; apply fq_modHlp) | (apply Fq.after; apply fq_startAttempt)
        | fail_if_no_progress (apply Fq.after; (apply Fq.upd) <;> rfl))
    | split)

theorem x_execPortAttemptEnd (a1) (s : State) : ∃ t, execPortAttemptEnd a1 s = .next t ∧ Mv s t := by
  unfold execPortAttemptEnd finish
  refine ⟨_, rfl, .after (fq_flush _).mv ?_⟩
  try dsimp only
  repeat' (first
    | (with_reducible first
        | exact Mv.refl _ | apply Mv.ite | (apply Mv.after; apply mv_resolvePort) | (apply Mv.after; apply Fq.mv; apply fq_hotEnd))
    | split)

theorem x_execPortAttemptStart (a1) (s : State) : ∃ t, execPortAttemptStart a1 s = .next t ∧ Fq s t := by
  unfold execPortAttemptStart finish
  refine ⟨_, rfl, .after (fq_flush _) ?_⟩
  try dsimp only
  repeat' (first
    | (with_reducible first
        | exact Fq.refl _ | apply Fq.ite | (apply Fq.after; apply fq_startAttempt))
    | split)

theorem x_execSymbolLockLoss (a1) (s : State) : ∃ t, execSymbolLockLoss a1 s = .next t ∧ Fr s t := by
  unfold execSymbolLockLoss finish
  refine ⟨_, rfl, .after (fq_flush _).fr ?_⟩
  try dsimp only
  repeat' (first
    | (with_reducible first
        | exact Fr.refl _ | apply Fr.ite | (apply Fr.after; apply Fq.fr; apply fq_modHlp) | (apply Fr.after; apply fr_linkLoss)
        | fail_if_no_progress (apply Fr.after; (apply Fr.upd) <;> rfl))
    | split)

theorem x_execTrainSetReceived (a1) (a2) (a3) (s : State) : ∃ t, execTrainSetReceived a1 a2 a3 s = .next t ∧ Fq s t := by
  unfold execTrainSetReceived finish
  refine ⟨_, rfl, .after (fq_flush _) ?_⟩
  try dsimp only
  repeat' (first
    | (with_reducible first
        | exact Fq.refl _ | apply Fq.ite | (apply Fq.after; apply fq_trainSet) | (apply Fq.after; apply fq_configSet)
        | (apply Fq.after; apply fq_modHlp) | fail_if_no_progress (apply Fq.after; (apply Fq.upd) <;> rfl))
    | split)

theorem x_execTrainStateTimeout (a1) (s : State) : ∃ t, execTrainStateTimeout a1 s = .next t ∧ Fq s t := by
  unfold execTrainStateTimeout finish
  refine ⟨_, rfl, .after (fq_flush _) ?_⟩
  try dsimp only
  repeat' (first
    | (with_reducible first
        | exact Fq.refl _ | apply Fq.ite | (apply Fq.after; apply fq_failAttempt))
    | split)

theorem x_execTsyncAcqProbeTimer (a1) (s : State) : ∃ t, execTsyncAcqProbeTimer a1 s = .next t ∧ Fq s t := by
  unfold execTsyncAcqProbeTimer finish
  refine ⟨_, rfl, .after (fq_flush _) ?_⟩
  try dsimp only
  repeat' (first
    | (with_reducible first
        | exact Fq.refl _ | apply Fq.ite | (apply Fq.after; apply fq_sendProbe))
    | split)

theorem x_execTsyncEchoRx (a1) (a2) (a3) (a4) (a5) (s : State) : ∃ t, execTsyncEchoRx a1 a2 a3 a4 a5 s = .next t ∧ Fr s t := by
  unfold execTsyncEchoRx finish
  refine ⟨_, rfl, .after (fq_flush _).fr ?_⟩
  try dsimp only
  repeat' (first
    | (with_reducible first
        | exact Fr.refl _ | apply Fr.ite | (apply Fr.after; apply fr_echo))
    | split)

theorem x_execTsyncProbeTimer (a1) (s : State) : ∃ t, execTsyncProbeTimer a1 s = .next t ∧ Fq s t := by
  unfold execTsyncProbeTimer finish
  refine ⟨_, rfl, .after (fq_flush _) ?_⟩
  repeat' (first
    | (with_reducible first
        | exact Fq.refl _ | apply Fq.ite | (apply Fq.after; apply fq_sendProbe))
    | split)

theorem x_execUpstreamFrameBad (a1) (a2) (s : State) : ∃ t, execUpstreamFrameBad a1 a2 s = .next t ∧ Fr s t := by
  unfold execUpstreamFrameBad finish
  refine ⟨_, rfl, .after (fq_flush _).fr ?_⟩
  try dsimp only
  repeat' (first
    | (with_reducible first
        | exact Fr.refl _ | apply Fr.ite | (apply Fr.after; apply Fq.fr; apply fq_logEvent) | (apply Fr.after; apply fr_discardFrame)
        | (apply Fr.after; apply Fq.fr; apply fq_modHlp) | (apply Fr.after; apply Fq.fr; apply fq_incF)
        | fail_if_no_progress (apply Fr.after; (apply Fr.upd) <;> rfl))
    | split)

theorem x_execFireLackTimeout (a1) (a2) (s : State) : ∃ t, execFireLackTimeout a1 a2 s = .next t ∧ Fr s t := by
  unfold execFireLackTimeout finish
  refine ⟨_, rfl, .after (fq_flush _).fr ?_⟩
  try dsimp only
  repeat' (first
    | (with_reducible first
        | exact Fr.refl _ | apply Fr.ite | (apply Fr.after; apply fr_discardFrame) | (apply Fr.after; apply Fq.fr; apply fq_resend)
        | (apply Fr.after; apply fr_fireLost) | (apply Fr.after; apply Fq.fr; apply fq_dropSent) | refine Fr.of_fst ‹_ = _› ?_
        | refine Fr.of_snd ‹_ = _› ?_ | refine Fr.of_thd ‹_ = _› ?_ | fail_if_no_progress (apply Fr.after; (apply Fr.upd) <;> rfl))
    | split)

theorem x_execHevtRx (a1) (a2) (a3) (a4) (s : State) : ∃ t, execHevtRx a1 a2 a3 a4 s = .next t ∧ Fr s t := by
  unfold execHevtRx finish
  refine ⟨_, rfl, .after (fq_flush _).fr ?_⟩
  try dsimp only
  repeat' (first
    | (with_reducible first
        | exact Fr.refl _ | apply Fr.ite | (apply Fr.after; apply Fq.fr; apply fq_logEvent) | (apply Fr.after; apply fr_raise)
        | (apply Fr.after; apply Fq.fr; apply fq_detectorFault))
    | split)

theorem x_execHlpMemrd (a1) (a2) (s : State) : ∃ t, execHlpMemrd a1 a2 s = .next t ∧ Fq s t := by
  unfold execHlpMemrd finish
  refine ⟨_, rfl, .after (fq_flush _) ?_⟩
  repeat' (with_reducible first
    | exact Fq.refl _ | intro i s | intro s | (apply Fq.after; apply fq_hlpCmd) | (apply Fq.after; apply fq_viaBar0))

theorem x_execHlpMemwr (a1) (a2) (s : State) : ∃ t, execHlpMemwr a1 a2 s = .next t ∧ Fq s t := by
  unfold execHlpMemwr finish
  refine ⟨_, rfl, .after (fq_flush _) ?_⟩
  repeat' (with_reducible first
    | exact Fq.refl _ | intro i s | intro s | (apply Fq.after; apply fq_hlpCmd) | (apply Fq.after; apply fq_viaBar0))

theorem x_execHlpRetrain (a1) (a2) (s : State) : ∃ t, execHlpRetrain a1 a2 s = .next t ∧ Fq s t := by
  unfold execHlpRetrain finish
  refine ⟨_, rfl, .after (fq_flush _) ?_⟩
  repeat' (with_reducible first
    | exact Fq.refl _ | intro i s | intro s | (apply Fq.after; apply fq_hlpCmd) | (apply Fq.after; apply fq_viaBar0))

theorem x_execLackRx (a1) (a2) (a3) (s : State) : ∃ t, execLackRx a1 a2 a3 s = .next t ∧ Fr s t := by
  unfold execLackRx finish
  refine ⟨_, rfl, .after (fq_flush _).fr ?_⟩
  try dsimp only
  repeat' (first
    | (with_reducible first
        | exact Fr.refl _ | apply Fr.ite | (apply Fr.after; apply fr_lack) | refine Fr.of_fst ‹_ = _› ?_ | refine Fr.of_snd ‹_ = _› ?_
        | refine Fr.of_thd ‹_ = _› ?_ | fail_if_no_progress (apply Fr.after; (apply Fr.upd) <;> rfl))
    | split)

theorem x_execLackTimeout (a1) (a2) (s : State) : ∃ t, execLackTimeout a1 a2 s = .next t ∧ Fr s t := by
  unfold execLackTimeout finish
  refine ⟨_, rfl, .after (fq_flush _).fr ?_⟩
  try dsimp only
  repeat' (first
    | (with_reducible first
        | exact Fr.refl _ | apply Fr.ite | (apply Fr.after; apply fr_discardFrame) | (apply Fr.after; apply Fq.fr; apply fq_resend)
        | (apply Fr.after; apply fr_linkLoss) | refine Fr.of_fst ‹_ = _› ?_ | refine Fr.of_snd ‹_ = _› ?_ | refine Fr.of_thd ‹_ = _› ?_
        | fail_if_no_progress (apply Fr.after; (apply Fr.upd) <;> rfl))
    | split)

theorem x_execMemResponseRx (a1) (a2) (a3) (a4) (s : State) : ∃ t, execMemResponseRx a1 a2 a3 a4 s = .next t ∧ Mv s t := by
  unfold execMemResponseRx finish
  refine ⟨_, rfl, .after (fq_flush _).mv ?_⟩
  try dsimp only
  repeat' (first
    | (with_reducible first
        | exact Mv.refl _ | apply Mv.ite | (apply Mv.after; apply Fq.mv; apply fq_memPump)
        | (apply Mv.after; apply Fq.mv; apply fq_modHlp) | (apply Mv.after; apply Fq.mv; apply fq_incF)
        | (apply Mv.after; apply Fq.mv; apply fq_usageNext) | (apply Mv.after; apply mv_memDone) | refine Mv.of_fst ‹_ = _› ?_
        | refine Mv.of_snd ‹_ = _› ?_ | refine Mv.of_thd ‹_ = _› ?_ | fail_if_no_progress (apply Mv.after; (apply Mv.upd) <;> rfl))
    | split)

theorem x_execMemResponseTimeout (a1) (a2) (s : State) : ∃ t, execMemResponseTimeout a1 a2 s = .next t ∧ Fq s t := by
  unfold execMemResponseTimeout finish
  refine ⟨_, rfl, .after (fq_flush _) ?_⟩
  try dsimp only
  repeat' (first
    | (with_reducible first
        | exact Fq.refl _ | apply Fq.ite | (apply Fq.after; apply fq_memPump) | (apply Fq.after; apply fq_logEvent)
        | (apply Fq.after; apply fq_putMem) | (apply Fq.after; apply fq_modHlp) | (apply Fq.after; apply fq_setF)
        | (apply Fq.after; apply fq_incF) | (apply Fq.after; apply fq_memAsk) | (apply Fq.after; apply fq_usageNext)
        | refine Fq.of_fst ‹_ = _› ?_ | refine Fq.of_snd ‹_ = _› ?_ | refine Fq.of_thd ‹_ = _› ?_
        | fail_if_no_progress (apply Fq.after; (apply Fq.upd) <;> rfl))
    | split)

theorem x_execUsageSummaryTimer (s : State) : ∃ t, execUsageSummaryTimer s = .next t ∧ Fq s t := by
  unfold execUsageSummaryTimer finish
  refine ⟨_, rfl, .after (fq_flush _) ?_⟩
  repeat' (first
    | (with_reducible first
        | exact Fq.refl _ | apply Fq.ite | (apply Fq.after; apply fq_accruePrint) | (apply Fq.after; apply fq_usageAll))
    | split)

theorem x_execAutoSpitTimer (a1) (s : State) : ∃ t, execAutoSpitTimer a1 s = .next t ∧ Fr s t := by
  unfold execAutoSpitTimer finish
  refine ⟨_, rfl, .after (fq_flush _).fr ?_⟩
  try dsimp only
  repeat' (first
    | (with_reducible first
        | exact Fr.refl _ | apply Fr.ite | (apply Fr.after; apply Fq.fr; apply fq_logEvent) | (apply Fr.after; apply fr_svcPending)
        | (apply Fr.after; apply Fq.fr; apply fq_modNhl) | (apply Fr.after; apply Fq.fr; apply fq_drawFree)
        | refine Fr.of_fst ‹_ = _› ?_ | refine Fr.of_snd ‹_ = _› ?_ | refine Fr.of_thd ‹_ = _› ?_
        | fail_if_no_progress (apply Fr.after; (apply Fr.upd) <;> rfl))
    | split)

theorem x_execLedgerGrant (s : State) : ∃ t, execLedgerGrant s = .next t ∧ Fr s t := by
  unfold execLedgerGrant finish
  refine ⟨_, rfl, .after (fq_flush _).fr ?_⟩
  repeat' (with_reducible first
    | exact Fr.refl _ | intro i s | intro s | (apply Fr.after; apply fr_ledgerEval) | (apply Fr.after; apply fr_ledgerInvar)
    | (apply Fr.after; apply Fq.fr; apply fq_svcGranted) | (apply Fr.after; apply fr_forEach))

theorem x_execNhlAbort (a1) (a2) (s : State) : ∃ t, execNhlAbort a1 a2 s = .next t ∧ Fr s t := by
  unfold execNhlAbort finish
  refine ⟨_, rfl, .after (fq_flush _).fr ?_⟩
  repeat' (with_reducible first
    | exact Fr.refl _ | intro i s | intro s | (apply Fr.after; apply fr_viaBar0) | (apply Fr.after; apply fr_nhlCmd))

theorem x_execNhlClear (a1) (a2) (s : State) : ∃ t, execNhlClear a1 a2 s = .next t ∧ Fr s t := by
  unfold execNhlClear finish
  refine ⟨_, rfl, .after (fq_flush _).fr ?_⟩
  repeat' (with_reducible first
    | exact Fr.refl _ | intro i s | intro s | (apply Fr.after; apply fr_viaBar0) | (apply Fr.after; apply fr_nhlCmd))

theorem x_execNhlGapDeclare (a1) (a2) (s : State) : ∃ t, execNhlGapDeclare a1 a2 s = .next t ∧ Fq s t := by
  unfold execNhlGapDeclare finish
  refine ⟨_, rfl, .after (fq_flush _) ?_⟩
  repeat' (with_reducible first
    | exact Fq.refl _ | intro i s | intro s | (apply Fq.after; apply fq_gapWrite) | (apply Fq.after; apply fq_viaBar0))

theorem x_execNhlHostresWrite (a1) (s : State) : ∃ t, execNhlHostresWrite a1 s = .next t ∧ Fq s t := by
  unfold execNhlHostresWrite finish
  refine ⟨_, rfl, .after (fq_flush _) ?_⟩
  repeat' (with_reducible first
    | exact Fq.refl _ | intro i s | intro s | (apply Fq.after; apply fq_viaBar0) | (apply Fq.after; apply fq_hostResult))

theorem x_execNhlRebuild (a1) (a2) (s : State) : ∃ t, execNhlRebuild a1 a2 s = .next t ∧ Fr s t := by
  unfold execNhlRebuild finish
  refine ⟨_, rfl, .after (fq_flush _).fr ?_⟩
  repeat' (with_reducible first
    | exact Fr.refl _ | intro i s | intro s | (apply Fr.after; apply fr_viaBar0) | (apply Fr.after; apply fr_nhlCmd))

theorem x_execNhlScan (a1) (a2) (s : State) : ∃ t, execNhlScan a1 a2 s = .next t ∧ Fr s t := by
  unfold execNhlScan finish
  refine ⟨_, rfl, .after (fq_flush _).fr ?_⟩
  repeat' (with_reducible first
    | exact Fr.refl _ | intro i s | intro s | (apply Fr.after; apply fr_viaBar0) | (apply Fr.after; apply fr_nhlCmd))

theorem x_execNhlSpit (a1) (a2) (s : State) : ∃ t, execNhlSpit a1 a2 s = .next t ∧ Fr s t := by
  unfold execNhlSpit finish
  refine ⟨_, rfl, .after (fq_flush _).fr ?_⟩
  repeat' (with_reducible first
    | exact Fr.refl _ | intro i s | intro s | (apply Fr.after; apply fr_viaBar0) | (apply Fr.after; apply fr_nhlCmd))

theorem x_execScanBlockTimeout (a1) (s : State) : ∃ t, execScanBlockTimeout a1 s = .next t ∧ Fr s t := by
  unfold execScanBlockTimeout finish
  refine ⟨_, rfl, .after (fq_flush _).fr ?_⟩
  repeat' (first
    | (with_reducible first
        | exact Fr.refl _ | apply Fr.ite | (apply Fr.after; apply fr_blockDone) | (apply Fr.after; apply Fq.fr; apply fq_modNhl))
    | split)

theorem x_execServiceLineTimer (a1) (s : State) : ∃ t, execServiceLineTimer a1 s = .next t ∧ Fr s t := by
  unfold execServiceLineTimer finish
  refine ⟨_, rfl, .after (fq_flush _).fr ?_⟩
  try dsimp only
  repeat' (first
    | (with_reducible first
        | exact Fr.refl _ | apply Fr.ite | (apply Fr.after; apply fr_svcEnd) | (apply Fr.after; apply Fq.fr; apply fq_fireService)
        | (apply Fr.after; apply fr_svcLine))
    | split)

theorem x_execTeleKind1Rx (a1) (a2) (s : State) : ∃ t, execTeleKind1Rx a1 a2 s = .next t ∧ Fr s t := by
  unfold execTeleKind1Rx finish
  refine ⟨_, rfl, .after (fq_flush _).fr ?_⟩
  try dsimp only
  repeat' (first
    | (with_reducible first
        | exact Fr.refl _ | intro i s | intro s | apply Fr.ite | (apply Fr.after; apply fr_blockDone)
        | (apply Fr.after; apply Fq.fr; apply fq_headResult) | (apply Fr.after; apply Fq.fr; apply fq_modNhl)
        | (apply Fr.after; apply Fq.fr; apply fq_serviceCheck) | (apply Fr.after; apply fr_foldl)
        | fail_if_no_progress (apply Fr.after; (apply Fr.upd) <;> rfl))
    | split)

theorem x_execCarriageAtRest (s : State) : ∃ t, execCarriageAtRest s = .next t ∧ Fr s t := by
  unfold execCarriageAtRest finish
  refine ⟨_, rfl, .after (fq_flush _).fr ?_⟩
  try dsimp only
  repeat' (first
    | (with_reducible first
        | exact Fr.refl _ | apply Fr.ite | (apply Fr.after; apply Fq.fr; apply fq_modScn) | (apply Fr.after; apply fr_turnAdvance)
        | (apply Fr.after; apply Fq.fr; apply fq_raiseSig) | (apply Fr.after; apply fr_turnRest) | (apply Fr.after; apply fr_turnEval)
        | refine Fr.of_fst ‹_ = _› ?_ | refine Fr.of_snd ‹_ = _› ?_ | refine Fr.of_thd ‹_ = _› ?_
        | fail_if_no_progress (apply Fr.after; (apply Fr.upd) <;> rfl))
    | split)

theorem x_execDwellTimer (s : State) : ∃ t, execDwellTimer s = .next t ∧ Fr s t := by
  unfold execDwellTimer finish
  refine ⟨_, rfl, .after (fq_flush _).fr ?_⟩
  repeat' (with_reducible first
    | exact Fr.refl _ | (apply Fr.after; apply fr_turnEval))

theorem x_execFeedComplete (s : State) : ∃ t, execFeedComplete s = .next t ∧ Fr s t := by
  unfold execFeedComplete finish
  refine ⟨_, rfl, .after (fq_flush _).fr ?_⟩
  try dsimp only
  repeat' (first
    | (with_reducible first
        | exact Fr.refl _ | apply Fr.ite | (apply Fr.after; apply Fq.fr; apply fq_modScn) | (apply Fr.after; apply fr_turnEval)
        | fail_if_no_progress (apply Fr.after; (apply Fr.upd) <;> rfl))
    | split)

theorem x_execScnEndjob (s : State) : ∃ t, execScnEndjob s = .next t ∧ Fr s t := by
  unfold execScnEndjob finish
  refine ⟨_, rfl, .after (fq_flush _).fr ?_⟩
  repeat' (with_reducible first
    | exact Fr.refl _ | intro i s | intro s | (apply Fr.after; apply fr_scnCmd) | (apply Fr.after; apply fr_viaBar0))

theorem x_execScnSetjob (s : State) : ∃ t, execScnSetjob s = .next t ∧ Fr s t := by
  unfold execScnSetjob finish
  refine ⟨_, rfl, .after (fq_flush _).fr ?_⟩
  repeat' (with_reducible first
    | exact Fr.refl _ | intro i s | intro s | (apply Fr.after; apply fr_scnCmd) | (apply Fr.after; apply fr_viaBar0))

theorem x_execSweepLastSlotEnd (s : State) : ∃ t, execSweepLastSlotEnd s = .next t ∧ Fr s t := by
  unfold execSweepLastSlotEnd finish
  refine ⟨_, rfl, .after (fq_flush _).fr ?_⟩
  try dsimp only
  repeat' (first
    | (with_reducible first
        | exact Fr.refl _ | apply Fr.ite | (apply Fr.after; apply Fq.fr; apply fq_modScn) | (apply Fr.after; apply fr_turnAdvance)
        | (apply Fr.after; apply fr_feedAdd) | refine Fr.of_fst ‹_ = _› ?_ | refine Fr.of_snd ‹_ = _› ?_ | refine Fr.of_thd ‹_ = _› ?_
        | fail_if_no_progress (apply Fr.after; (apply Fr.upd) <;> rfl))
    | split)

theorem x_execTurnaroundGo (s : State) : ∃ t, execTurnaroundGo s = .next t ∧ Fr s t := by
  unfold execTurnaroundGo finish
  refine ⟨_, rfl, .after (fq_flush _).fr ?_⟩
  try dsimp only
  repeat' (first
    | (with_reducible first
        | exact Fr.refl _ | apply Fr.ite | (apply Fr.after; apply fr_sweepGo) | (apply Fr.after; apply fr_turnEval))
    | split)

theorem x_execEncoderEdge (a1) (a2) (a3) (s : State) : ∃ t, execEncoderEdge a1 a2 a3 s = .next t ∧ Fr s t := by
  unfold execEncoderEdge finish
  refine ⟨_, rfl, .after (fq_flush _).fr ?_⟩
  repeat' (with_reducible first
    | exact Fr.refl _ | (apply Fr.after; apply fr_quadSample))

theorem x_execSignalOk (a1) (s : State) : ∃ t, execSignalOk a1 s = .next t ∧ Fq s t := by
  unfold execSignalOk finish
  refine ⟨_, rfl, .after (fq_flush _) ?_⟩
  try dsimp only
  repeat' (first
    | (with_reducible first
        | exact Fq.refl _ | apply Fq.ite | (apply Fq.after; apply fq_logEvent) | (apply Fq.after; apply fq_modPc)
        | fail_if_no_progress (apply Fq.after; (apply Fq.upd) <;> rfl))
    | split)

theorem x_execSincosSample (a1) (a2) (a3) (s : State) : ∃ t, execSincosSample a1 a2 a3 s = .next t ∧ Fr s t := by
  unfold execSincosSample finish
  refine ⟨_, rfl, .after (fq_flush _).fr ?_⟩
  try dsimp only
  repeat' (first
    | (with_reducible first
        | exact Fr.refl _ | apply Fr.ite | (apply Fr.after; apply fr_scInvalid) | (apply Fr.after; apply fr_scValid)
        | (apply Fr.after; apply fr_useInvar) | (apply Fr.after; apply Fq.fr; apply fq_setF))
    | split)

theorem x_execSsAbandon (s : State) : ∃ t, execSsAbandon s = .next t ∧ Fr s t := by
  unfold execSsAbandon finish
  refine ⟨_, rfl, .after (fq_flush _).fr ?_⟩
  repeat' (with_reducible first
    | exact Fr.refl _ | intro i s | intro s | (apply Fr.after; apply fr_ssCmd) | (apply Fr.after; apply fr_viaBar0))

theorem x_execSsAccelDone (s : State) : ∃ t, execSsAccelDone s = .next t ∧ Fq s t := by
  unfold execSsAccelDone finish
  refine ⟨_, rfl, .after (fq_flush _) ?_⟩
  repeat' (first
    | (with_reducible first
        | exact Fq.refl _ | apply Fq.ite | (apply Fq.after; apply fq_ssReturn))
    | split)

theorem x_execSsBackupDone (s : State) : ∃ t, execSsBackupDone s = .next t ∧ Fq s t := by
  unfold execSsBackupDone finish
  refine ⟨_, rfl, .after (fq_flush _) ?_⟩
  repeat' (first
    | (with_reducible first
        | exact Fq.refl _ | intro i s | intro s | apply Fq.ite | (apply Fq.after; apply fq_ssPhase)
        | (apply Fq.after; apply fq_ssOrigin) | (apply Fq.after; apply fq_forEach))
    | split)

theorem x_execSsDecelDone (s : State) : ∃ t, execSsDecelDone s = .next t ∧ Fr s t := by
  unfold execSsDecelDone finish
  refine ⟨_, rfl, .after (fq_flush _).fr ?_⟩
  repeat' (first
    | (with_reducible first
        | exact Fr.refl _ | apply Fr.ite | (apply Fr.after; apply fr_ssMove))
    | split)

theorem x_execSsDrainEnd (s : State) : ∃ t, execSsDrainEnd s = .next t ∧ Fr s t := by
  unfold execSsDrainEnd finish
  refine ⟨_, rfl, .after (fq_flush _).fr ?_⟩
  repeat' (first
    | (with_reducible first
        | exact Fr.refl _ | intro i s | intro s | apply Fr.ite | (apply Fr.after; apply Fq.fr; apply fq_ssRewind)
        | (apply Fr.after; apply fr_ssMove) | (apply Fr.after; apply fr_forEach))
    | split)

theorem x_execSsRefillGate (s : State) : ∃ t, execSsRefillGate s = .next t ∧ Fr s t := by
  unfold execSsRefillGate finish
  refine ⟨_, rfl, .after (fq_flush _).fr ?_⟩
  try dsimp only
  repeat' (first
    | (with_reducible first
        | exact Fr.refl _ | apply Fr.ite | (apply Fr.after; apply fr_ssReady) | (apply Fr.after; apply Fq.fr; apply fq_casMsgTo)
        | (apply Fr.after; apply fr_ssAccel) | fail_if_no_progress (apply Fr.after; (apply Fr.upd) <;> rfl))
    | split)

theorem x_execSsSstop (s : State) : ∃ t, execSsSstop s = .next t ∧ Fr s t := by
  unfold execSsSstop finish
  refine ⟨_, rfl, .after (fq_flush _).fr ?_⟩
  repeat' (with_reducible first
    | exact Fr.refl _ | intro i s | intro s | (apply Fr.after; apply fr_ssCmd) | (apply Fr.after; apply fr_viaBar0))

theorem x_execSsTdReached (s : State) : ∃ t, execSsTdReached s = .next t ∧ Fq s t := by
  unfold execSsTdReached finish
  refine ⟨_, rfl, .after (fq_flush _) ?_⟩
  repeat' (first
    | (with_reducible first
        | exact Fq.refl _ | apply Fq.ite | (apply Fq.after; apply fq_ssApply)
        | fail_if_no_progress (apply Fq.after; (apply Fq.upd) <;> rfl))
    | split)

theorem x_execGlbArm (s : State) : ∃ t, execGlbArm s = .next t ∧ Fa s t := by
  unfold execGlbArm finish
  refine ⟨_, rfl, .after (fq_flush _).fa ?_⟩
  repeat' (with_reducible first
    | exact Fa.refl _ | intro i s | intro s | (apply Fa.after; apply fa_glbRun) | (apply Fa.after; apply fa_glbArm))

theorem x_execGlbDisarm (s : State) : ∃ t, execGlbDisarm s = .next t ∧ Fa s t := by
  unfold execGlbDisarm finish
  refine ⟨_, rfl, .after (fq_flush _).fa ?_⟩
  repeat' (with_reducible first
    | exact Fa.refl _ | intro i s | intro s | (apply Fa.after; apply fa_glbDisarm) | (apply Fa.after; apply fa_glbRun))

theorem x_execGlbRecover (s : State) : ∃ t, execGlbRecover s = .next t ∧ Fa s t := by
  unfold execGlbRecover finish
  refine ⟨_, rfl, .after (fq_flush _).fa ?_⟩
  repeat' (with_reducible first
    | exact Fa.refl _ | intro i s | intro s | (apply Fa.after; apply fa_glbRecover) | (apply Fa.after; apply fa_glbRun))

theorem x_execGlbShutdown (s : State) : ∃ t, execGlbShutdown s = .next t ∧ Mv s t := by
  unfold execGlbShutdown finish
  refine ⟨_, rfl, .after (fq_flush _).mv ?_⟩
  repeat' (with_reducible first
    | exact Mv.refl _ | intro i s | intro s | (apply Mv.after; apply mv_glbShutdown) | (apply Mv.after; apply mv_glbRun))

theorem x_execGlbStart (s : State) : ∃ t, execGlbStart s = .next t ∧ Fa s t := by
  unfold execGlbStart finish
  refine ⟨_, rfl, .after (fq_flush _).fa ?_⟩
  repeat' (with_reducible first
    | exact Fa.refl _ | intro i s | intro s | (apply Fa.after; apply fa_glbRun) | (apply Fa.after; apply fa_glbStart))

theorem x_execGlbStop (s : State) : ∃ t, execGlbStop s = .next t ∧ Fr s t := by
  unfold execGlbStop finish
  refine ⟨_, rfl, .after (fq_flush _).fr ?_⟩
  repeat' (with_reducible first
    | exact Fr.refl _ | intro i s | intro s | (apply Fr.after; apply fr_glbStop) | (apply Fr.after; apply fr_glbRun))

theorem x_execStoppingComplete (s : State) : ∃ t, execStoppingComplete s = .next t ∧ Fa s t := by
  unfold execStoppingComplete finish
  refine ⟨_, rfl, .after (fq_flush _).fa ?_⟩
  try dsimp only
  repeat' (first
    | (with_reducible first
        | exact Fa.refl _ | apply Fa.ite | (apply Fa.after; apply fa_enterArmed) | (apply Fa.after; apply Fr.fa; apply fr_useMaps))
    | split)

theorem x_execBellSendTimer (s : State) : ∃ t, execBellSendTimer s = .next t ∧ Fq s t := by
  unfold execBellSendTimer finish
  refine ⟨_, rfl, .after (fq_flush _) ?_⟩
  try dsimp only
  repeat' (first
    | (with_reducible first
        | exact Fq.refl _ | apply Fq.ite | (apply Fq.after; apply fq_modCas) | (apply Fq.after; apply fq_casEmitSet)
        | refine Fq.of_fst ‹_ = _› ?_ | refine Fq.of_snd ‹_ = _› ?_ | refine Fq.of_thd ‹_ = _› ?_
        | fail_if_no_progress (apply Fq.after; (apply Fq.upd) <;> rfl))
    | split)

theorem x_execBellSetRx (a1) (s : State) : ∃ t, execBellSetRx a1 s = .next t ∧ Fq s t := by
  unfold execBellSetRx finish
  refine ⟨_, rfl, .after (fq_flush _) ?_⟩
  try dsimp only
  repeat' (first
    | (with_reducible first
        | exact Fq.refl _ | apply Fq.ite | (apply Fq.after; apply fq_modCas) | (apply Fq.after; apply fq_casEmitSet)
        | fail_if_no_progress (apply Fq.after; (apply Fq.upd) <;> rfl))
    | split)

theorem x_execCasAckRx (h : CasHdr) (seq : Byte) (s : State) : ∃ t, execCasAckRx h seq s = .next t ∧ Fr s t :=
  ⟨_, rfl, .after (fq_flush _).fr (fr_casRecv _ _ _ _ (fun _ => (fq_modCas ..).fr) _ .refl s)⟩

theorem x_execCasAckTimeout (a1) (s : State) : ∃ t, execCasAckTimeout a1 s = .next t ∧ Fq s t := by
  unfold execCasAckTimeout finish
  refine ⟨_, rfl, .after (fq_flush _) ?_⟩
  try dsimp only
  repeat' (first
    | (with_reducible first
        | exact Fq.refl _ | apply Fq.ite | (apply Fq.after; apply fq_modCas) | (apply Fq.after; apply fq_casPut)
        | refine Fq.of_fst ‹_ = _› ?_ | refine Fq.of_snd ‹_ = _› ?_ | refine Fq.of_thd ‹_ = _› ?_
        | fail_if_no_progress (apply Fq.after; (apply Fq.upd) <;> rfl))
    | split)

theorem x_execCasAcqProbeTimer (s : State) : ∃ t, execCasAcqProbeTimer s = .next t ∧ Fq s t := by
  unfold execCasAcqProbeTimer finish
  refine ⟨_, rfl, .after (fq_flush _) ?_⟩
  repeat' (first
    | (with_reducible first
        | exact Fq.refl _ | apply Fq.ite | (apply Fq.after; apply fq_casProbe))
    | split)

theorem x_execCasClrcnt (s : State) : ∃ t, execCasClrcnt s = .next t ∧ Fq s t := by
  unfold execCasClrcnt finish
  refine ⟨_, rfl, .after (fq_flush _) ?_⟩
  repeat' (with_reducible first
    | exact Fq.refl _ | intro i s | intro s | (apply Fq.after; apply fq_casCmd) | (apply Fq.after; apply fq_viaTable))

theorem x_execCasLinkLoss (a1) (a2) (s : State) : ∃ t, execCasLinkLoss a1 a2 s = .next t ∧ Fr s t := by
  unfold execCasLinkLoss finish
  refine ⟨_, rfl, .after (fq_flush _).fr ?_⟩
  try dsimp only
  repeat' (first
    | (with_reducible first
        | exact Fr.refl _ | apply Fr.ite | (apply Fr.after; apply fr_casLoss) | (apply Fr.after; apply Fq.fr; apply fq_modCasPort)
        | refine Fr.of_fst ‹_ = _› ?_ | refine Fr.of_snd ‹_ = _› ?_ | refine Fr.of_thd ‹_ = _› ?_
        | fail_if_no_progress (apply Fr.after; (apply Fr.upd) <;> rfl))
    | split)

theorem x_execCasNakRx (h : CasHdr) (seq role : Byte) (epoch : BitVec 16) (s : State) :
    ∃ t, execCasNakRx h seq role epoch s = .next t ∧ Fr s t :=
  ⟨_, rfl, .after (fq_flush _).fr (fr_casRecv _ _ _ _ (fun _ => (((fq_modCas ..).trans (fq_incF ..)).trans (fq_setFlag ..)).fr.trans (fq_logEvent ..).fr) _ .refl s)⟩

theorem x_execCasProbeTimer (s : State) : ∃ t, execCasProbeTimer s = .next t ∧ Fq s t := by
  unfold execCasProbeTimer finish
  refine ⟨_, rfl, .after (fq_flush _) ?_⟩
  try dsimp only
  repeat' (first
    | (with_reducible first
        | exact Fq.refl _ | intro i s | intro s | apply Fq.ite | (apply Fq.after; apply fq_modCas) | (apply Fq.after; apply fq_casProbe)
        | (apply Fq.after; apply fq_foldl) | fail_if_no_progress (apply Fq.after; (apply Fq.upd) <;> rfl))
    | split)

theorem x_execCasResync (s : State) : ∃ t, execCasResync s = .next t ∧ Fq s t := by
  unfold execCasResync finish
  refine ⟨_, rfl, .after (fq_flush _) ?_⟩
  repeat' (with_reducible first
    | exact Fq.refl _ | intro i s | intro s | (apply Fq.after; apply fq_casCmd) | (apply Fq.after; apply fq_viaTable))

theorem x_execCasSend (s : State) : ∃ t, execCasSend s = .next t ∧ Fq s t := by
  unfold execCasSend finish
  refine ⟨_, rfl, .after (fq_flush _) ?_⟩
  repeat' (with_reducible first
    | exact Fq.refl _ | intro i s | intro s | (apply Fq.after; apply fq_casCmd) | (apply Fq.after; apply fq_viaTable))

theorem x_execCasTrainTimeout (a1) (s : State) : ∃ t, execCasTrainTimeout a1 s = .next t ∧ Fq s t := by
  unfold execCasTrainTimeout finish
  refine ⟨_, rfl, .after (fq_flush _) ?_⟩
  try dsimp only
  repeat' (first
    | (with_reducible first
        | exact Fq.refl _ | apply Fq.ite | (apply Fq.after; apply fq_discFail) | (apply Fq.after; apply fq_casAttempt)
        | (apply Fq.after; apply fq_modCasPort) | fail_if_no_progress (apply Fq.after; (apply Fq.upd) <;> rfl))
    | split)

theorem x_execCasTsReceived (a1) (a2) (a3) (s : State) : ∃ t, execCasTsReceived a1 a2 a3 s = .next t ∧ Mv s t := by
  unfold execCasTsReceived finish
  refine ⟨_, rfl, .after (fq_flush _).mv ?_⟩
  try dsimp only
  repeat' (first
    | (with_reducible first
        | exact Mv.refl _ | apply Mv.ite | (apply Mv.after; apply mv_casTrain) | (apply Mv.after; apply Fq.mv; apply fq_modCasPort)
        | fail_if_no_progress (apply Mv.after; (apply Mv.upd) <;> rfl))
    | split)

theorem x_execCasTsyncEchoRx (a1) (a2) (a3) (a4) (s : State) : ∃ t, execCasTsyncEchoRx a1 a2 a3 a4 s = .next t ∧ Mv s t := by
  unfold execCasTsyncEchoRx finish
  refine ⟨_, rfl, .after (fq_flush _).mv ?_⟩
  try dsimp only
  repeat' (first
    | (with_reducible first
        | exact Mv.refl _ | apply Mv.ite | (apply Mv.after; apply mv_casEcho))
    | split)

theorem x_execCascadeWaitTimer (s : State) : ∃ t, execCascadeWaitTimer s = .next t ∧ Fq s t := by
  unfold execCascadeWaitTimer finish
  refine ⟨_, rfl, .after (fq_flush _) ?_⟩
  repeat' (first
    | (with_reducible first
        | exact Fq.refl _ | apply Fq.ite | (apply Fq.after; apply fq_logEvent)
        | fail_if_no_progress (apply Fq.after; (apply Fq.upd) <;> rfl))
    | split)

theorem x_execDansRx (h : CasHdr) (d : Dans) (s : State) : ∃ t, execDansRx h d s = .next t ∧ Mv s t := by
  refine ⟨_, rfl, .after (fq_flush _).mv (mv_casRecv _ _ _ _ (fun s => ?_) _ (fun s => (fq_modCas ..).mv) s)⟩
  dsimp only
  refine .ite (.refl s) (.ite (.ite (Mv.trans (fq_modCas ..).mv (fq_discFail ..).mv) (.refl s)) ?_)
  split
  · exact Mv.trans (fq_modCas ..).mv (fq_discFail ..).mv
  · exact .ite (Mv.trans (fq_modCas ..).mv (mv_discDone ..)) (fq_modCas ..).mv

theorem x_execDiscRx (a1) (a2) (a3) (s : State) : ∃ t, execDiscRx a1 a2 a3 s = .next t ∧ Fr s t := by
  unfold execDiscRx finish
  refine ⟨_, rfl, .after (fq_flush _).fr ?_⟩
  try dsimp only
  repeat' (first
    | (with_reducible first
        | exact Fr.refl _ | apply Fr.ite | (apply Fr.after; apply Fq.fr; apply fq_modCas)
        | (apply Fr.after; apply Fq.fr; apply fq_casSendTo) | (apply Fr.after; apply fr_casBad)
        | (apply Fr.after; apply Fq.fr; apply fq_casPut) | (apply Fr.after; apply Fq.fr; apply fq_discFail)
        | fail_if_no_progress (apply Fr.after; (apply Fr.upd) <;> rfl))
    | split)

theorem x_execDiscTimer (s : State) : ∃ t, execDiscTimer s = .next t ∧ Fq s t := by
  unfold execDiscTimer finish
  refine ⟨_, rfl, .after (fq_flush _) ?_⟩
  repeat' (first
    | (with_reducible first
        | exact Fq.refl _ | apply Fq.ite | (apply Fq.after; apply fq_sendDisc))
    | split)

theorem x_execDoneRx (h : CasHdr) (epoch : BitVec 16) (length transport : Byte) (hashes : Vector Word 8) (s : State) :
    ∃ t, execDoneRx h epoch length transport hashes s = .next t ∧ Mv s t := by
  refine ⟨_, rfl, .after (fq_flush _).mv (mv_casRecv _ _ _ _ (fun s => ?_) _ .refl s)⟩
  dsimp only
  refine .ite (.refl s) (.after (mv_bruCheck _) ?_)
  refine .ite (.after (Mv.upd _ rfl rfl rfl rfl rfl rfl rfl rfl rfl rfl) (fq_modCas ..).mv)
    (.after (fq_bellStep ..).mv (.after (Mv.upd _ rfl rfl rfl rfl rfl rfl rfl rfl rfl rfl) (fq_modCas ..).mv))

theorem x_execLocalBellTick (a1) (s : State) : ∃ t, execLocalBellTick a1 s = .next t ∧ Fr s t := by
  unfold execLocalBellTick finish
  refine ⟨_, rfl, .after (fq_flush _).fr ?_⟩
  try dsimp only
  repeat' (first
    | (with_reducible first
        | exact Fr.refl _ | apply Fr.ite | (apply Fr.after; apply Fq.fr; apply fq_modCas) | (apply Fr.after; apply fr_bellMissed)
        | (apply Fr.after; apply Fq.fr; apply fq_sendPos) | (apply Fr.after; apply fr_bellLaunch)
        | (apply Fr.after; apply Fq.fr; apply fq_incF) | fail_if_no_progress (apply Fr.after; (apply Fr.upd) <;> rfl))
    | split)

theorem x_execMemberLostTimeout (a1) (s : State) : ∃ t, execMemberLostTimeout a1 s = .next t ∧ Fr s t := by
  unfold execMemberLostTimeout finish
  refine ⟨_, rfl, .after (fq_flush _).fr ?_⟩
  try dsimp only
  repeat' (first
    | (with_reducible first
        | exact Fr.refl _ | apply Fr.ite | (apply Fr.after; apply Fq.fr; apply fq_modCas)
        | (apply Fr.after; apply Fq.fr; apply fq_logEvent) | (apply Fr.after; apply fr_raise)
        | fail_if_no_progress (apply Fr.after; (apply Fr.upd) <;> rfl))
    | split)

theorem x_execMsgStartRx (a1) (a2) (s : State) : ∃ t, execMsgStartRx a1 a2 s = .next t ∧ Fr s t := by
  unfold execMsgStartRx finish
  refine ⟨_, rfl, .after (fq_flush _).fr ?_⟩
  try dsimp only
  repeat' (with_reducible first
    | exact Fr.refl _ | intro i s | intro s | (apply Fr.after; apply Fq.fr; apply fq_modCas) | (apply Fr.after; apply fr_casMsgRecv)
    | fail_if_no_progress (apply Fr.after; (apply Fr.upd) <;> rfl))

theorem x_execMsgStopRx (h : CasHdr) (s : State) : ∃ t, execMsgStopRx h s = .next t ∧ Fr s t := by
  refine ⟨_, rfl, .after (fq_flush _).fr (fr_casMsgRecv _ _ _ _ (fun s => ?_) s)⟩
  split
  · rename_i e; exact fr_enterStopping _ _ (by rw [e]; exact .inr (.inl ⟨rfl, rfl⟩))
  · exact .refl s

theorem x_execPeerHaltRx (a1) (a2) (s : State) : ∃ t, execPeerHaltRx a1 a2 s = .next t ∧ Fr s t := by
  unfold execPeerHaltRx finish
  refine ⟨_, rfl, .after (fq_flush _).fr ?_⟩
  repeat' (with_reducible first
    | exact Fr.refl _ | intro i s | intro s | (apply Fr.after; apply fr_casMsgRecv) | (apply Fr.after; apply fr_raise))

theorem x_execPeerStopRx (a1) (a2) (s : State) : ∃ t, execPeerStopRx a1 a2 s = .next t ∧ Fr s t := by
  unfold execPeerStopRx finish
  refine ⟨_, rfl, .after (fq_flush _).fr ?_⟩
  repeat' (with_reducible first
    | exact Fr.refl _ | intro i s | intro s | (apply Fr.after; apply fr_casMsgRecv) | (apply Fr.after; apply fr_raise))

theorem x_execPosFrameRx (h : CasHdr) (posInt posFrac : Word) (time : BitVec 64) (speed : Word) (valid dir : Bool) (s : State) :
    ∃ t, execPosFrameRx h posInt posFrac time speed valid dir s = .next t ∧ Fr s t := by
  refine ⟨_, rfl, .after (fq_flush _).fr (fr_casRecv _ _ _ _ (fun s => ?_) _ .refl s)⟩
  exact .after (fr_posCheck ..) (((fq_wr ..).trans (fq_wr ..)).trans (fq_wr ..)).fr

theorem x_execRediscRx (h : CasHdr) (s : State) : ∃ t, execRediscRx h s = .next t ∧ Mv s t :=
  ⟨_, rfl, .after (fq_flush _).mv (mv_casRecv _ _ _ _ (fun _ => .ite (.refl _) (.ite (.after (mv_bruCheck _) (fq_startDisc ..).mv)
    (fq_modCas ..).mv)) _ .refl s)⟩

theorem x_execSsabandonRx (a1) (s : State) : ∃ t, execSsabandonRx a1 s = .next t ∧ Fr s t := by
  unfold execSsabandonRx finish
  refine ⟨_, rfl, .after (fq_flush _).fr ?_⟩
  repeat' (with_reducible first
    | exact Fr.refl _ | intro i s | intro s | (apply Fr.after; apply fr_casMsgRecv)
    | (apply Fr.after; apply Fq.fr; apply fq_ssAbandonLocal))

theorem x_execSsdecRx (a1) (a2) (s : State) : ∃ t, execSsdecRx a1 a2 s = .next t ∧ Fr s t := by
  unfold execSsdecRx finish
  refine ⟨_, rfl, .after (fq_flush _).fr ?_⟩
  try dsimp only
  repeat' (first
    | (with_reducible first
        | exact Fr.refl _ | intro i s | intro s | apply Fr.ite | (apply Fr.after; apply fr_casMsgRecv)
        | (apply Fr.after; apply Fq.fr; apply fq_ssForbid) | (apply Fr.after; apply Fq.fr; apply fq_setF)
        | (apply Fr.after; apply Fq.fr; apply fq_casMsgTo) | fail_if_no_progress (apply Fr.after; (apply Fr.upd) <;> rfl))
    | split)

theorem x_execSsforbidRx (a1) (a2) (s : State) : ∃ t, execSsforbidRx a1 a2 s = .next t ∧ Fr s t := by
  unfold execSsforbidRx finish
  refine ⟨_, rfl, .after (fq_flush _).fr ?_⟩
  repeat' (with_reducible first
    | exact Fr.refl _ | intro i s | intro s | (apply Fr.after; apply fr_casMsgRecv) | (apply Fr.after; apply Fq.fr; apply fq_ssAbandon))

theorem x_execSsgoRx (a1) (s : State) : ∃ t, execSsgoRx a1 s = .next t ∧ Fr s t := by
  unfold execSsgoRx finish
  refine ⟨_, rfl, .after (fq_flush _).fr ?_⟩
  try dsimp only
  repeat' (first
    | (with_reducible first
        | exact Fr.refl _ | intro i s | intro s | apply Fr.ite | (apply Fr.after; apply fr_casMsgRecv)
        | (apply Fr.after; apply fr_ssAccel))
    | split)

theorem x_execSsreadyRx (a1) (s : State) : ∃ t, execSsreadyRx a1 s = .next t ∧ Fr s t := by
  unfold execSsreadyRx finish
  refine ⟨_, rfl, .after (fq_flush _).fr ?_⟩
  repeat' (with_reducible first
    | exact Fr.refl _ | intro i s | intro s | (apply Fr.after; apply fr_casMsgRecv) | (apply Fr.after; apply fr_ssReady))

theorem x_execSsreqRx (a1) (a2) (s : State) : ∃ t, execSsreqRx a1 a2 s = .next t ∧ Fr s t := by
  unfold execSsreqRx finish
  refine ⟨_, rfl, .after (fq_flush _).fr ?_⟩
  try dsimp only
  repeat' (with_reducible first
    | exact Fr.refl _ | intro i s | intro s | (apply Fr.after; apply fr_casMsgRecv) | (apply Fr.after; apply fr_ssAsk))

theorem x_execStartTick (s : State) : ∃ t, execStartTick s = .next t ∧ Fa s t := by
  unfold execStartTick finish
  refine ⟨_, rfl, .after (fq_flush _).fa ?_⟩
  try dsimp only
  repeat' (first
    | (with_reducible first
        | exact Fa.refl _ | apply Fa.ite | (apply Fa.after; apply Fq.fa; apply fq_modCas) | (apply Fa.after; apply fa_enterPrint)
        | (apply Fa.after; apply Fr.fa; apply fr_raise) | refine Fa.of_fst ‹_ = _› ?_ | refine Fa.of_snd ‹_ = _› ?_
        | refine Fa.of_thd ‹_ = _› ?_ | fail_if_no_progress (apply Fa.after; (apply Fa.upd) <;> rfl))
    | split)

theorem x_execStatRx (h : CasHdr) (state : BitVec 4) (sev : BitVec 2) (code : BitVec 16) (die : Byte) (fill : BitVec 16) (s : State) :
    ∃ t, execStatRx h state sev code die fill s = .next t ∧ Fr s t := by
  refine ⟨_, rfl, .after (fq_flush _).fr (fr_casRecv _ _ _ _ (fun s => ?_) _ .refl s)⟩
  exact .ite (.refl s) (((fq_modCas ..).trans (fq_wr ..)).trans (fq_wr ..)).fr

theorem x_execStatTimer (s : State) : ∃ t, execStatTimer s = .next t ∧ Fq s t := by
  unfold execStatTimer finish
  refine ⟨_, rfl, .after (fq_flush _) ?_⟩
  try dsimp only
  repeat' (first
    | (with_reducible first
        | exact Fq.refl _ | intro i s | intro s | apply Fq.ite | (apply Fq.after; apply fq_casStat) | (apply Fq.after; apply fq_incF)
        | (apply Fq.after; apply fq_forEach))
    | split)

theorem x_execTrgSetRx (a1) (a2) (s : State) : ∃ t, execTrgSetRx a1 a2 s = .next t ∧ Fq s t := by
  unfold execTrgSetRx finish
  refine ⟨_, rfl, .after (fq_flush _) ?_⟩
  try dsimp only
  repeat' (first
    | (with_reducible first
        | exact Fq.refl _ | intro i s | intro s | apply Fq.ite | (apply Fq.after; apply fq_raiseSig)
        | (apply Fq.after; apply fq_casEmitSet) | (apply Fq.after; apply fq_forEach))
    | split)

theorem x_execUserMsgRx (a1) (a2) (s : State) : ∃ t, execUserMsgRx a1 a2 s = .next t ∧ Fr s t := by
  unfold execUserMsgRx finish
  refine ⟨_, rfl, .after (fq_flush _).fr ?_⟩
  try dsimp only
  repeat' (with_reducible first
    | exact Fr.refl _ | intro i s | intro s | (apply Fr.after; apply Fq.fr; apply fq_logEvent)
    | (apply Fr.after; apply Fq.fr; apply fq_setFlag) | (apply Fr.after; apply fr_casMsgRecv)
    | (apply Fr.after; apply Fq.fr; apply fq_wr) | (apply Fr.after; apply fr_forEach))

theorem x_execBmeSet (s : State) : ∃ t, execBmeSet s = .next t ∧ Fq s t := by
  unfold execBmeSet finish
  refine ⟨_, rfl, .after (fq_flush _) ?_⟩
  try dsimp only
  repeat' (first
    | (with_reducible first
        | exact Fq.refl _ | apply Fq.ite | (apply Fq.after; apply fq_evDrain) | (apply Fq.after; apply fq_sendHeld)
        | (apply Fq.after; apply fq_dmaUnhold) | fail_if_no_progress (apply Fq.after; (apply Fq.upd) <;> rfl))
    | split)

theorem x_execCqHeadWrite (a1) (a2) (s : State) : ∃ t, execCqHeadWrite a1 a2 s = .next t ∧ Fq s t := by
  unfold execCqHeadWrite finish
  refine ⟨_, rfl, .after (fq_flush _) ?_⟩
  repeat' (with_reducible first
    | exact Fq.refl _ | intro i s | intro s | (apply Fq.after; apply fq_viaBar0) | (apply Fq.after; apply fq_setF))

theorem x_execCqIrqTimer (a1) (s : State) : ∃ t, execCqIrqTimer a1 s = .next t ∧ Fq s t := by
  unfold execCqIrqTimer finish
  refine ⟨_, rfl, .after (fq_flush _) ?_⟩
  repeat' (first
    | (with_reducible first
        | exact Fq.refl _ | apply Fq.ite | (apply Fq.after; apply fq_cqVector))
    | split)

theorem x_execCqfullRelease (a1) (s : State) : ∃ t, execCqfullRelease a1 s = .next t ∧ Fq s t := by
  unfold execCqfullRelease finish
  refine ⟨_, rfl, .after (fq_flush _) ?_⟩
  repeat' (first
    | (with_reducible first
        | exact Fq.refl _ | apply Fq.ite | (apply Fq.after; apply fq_dmaPump))
    | split)

theorem x_execDmaAbort (a1) (s : State) : ∃ t, execDmaAbort a1 s = .next t ∧ Fq s t := by
  unfold execDmaAbort finish
  refine ⟨_, rfl, .after (fq_flush _) ?_⟩
  repeat' (with_reducible first
    | exact Fq.refl _ | intro i s | intro s | (apply Fq.after; apply fq_dmaCmd) | (apply Fq.after; apply fq_viaBar0))

theorem x_execDmaArm (a1) (s : State) : ∃ t, execDmaArm a1 s = .next t ∧ Fq s t := by
  unfold execDmaArm finish
  refine ⟨_, rfl, .after (fq_flush _) ?_⟩
  repeat' (with_reducible first
    | exact Fq.refl _ | intro i s | intro s | (apply Fq.after; apply fq_dmaCmd) | (apply Fq.after; apply fq_viaBar0))

theorem x_execDmaClrerr (a1) (s : State) : ∃ t, execDmaClrerr a1 s = .next t ∧ Fq s t := by
  unfold execDmaClrerr finish
  refine ⟨_, rfl, .after (fq_flush _) ?_⟩
  repeat' (with_reducible first
    | exact Fq.refl _ | intro i s | intro s | (apply Fq.after; apply fq_dmaCmd) | (apply Fq.after; apply fq_viaBar0))

theorem x_execDmaDisarm (a1) (s : State) : ∃ t, execDmaDisarm a1 s = .next t ∧ Fq s t := by
  unfold execDmaDisarm finish
  refine ⟨_, rfl, .after (fq_flush _) ?_⟩
  repeat' (with_reducible first
    | exact Fq.refl _ | intro i s | intro s | (apply Fq.after; apply fq_dmaCmd) | (apply Fq.after; apply fq_viaBar0))

theorem x_execDmaDrain (a1) (s : State) : ∃ t, execDmaDrain a1 s = .next t ∧ Fq s t := by
  unfold execDmaDrain finish
  refine ⟨_, rfl, .after (fq_flush _) ?_⟩
  repeat' (with_reducible first
    | exact Fq.refl _ | intro i s | intro s | (apply Fq.after; apply fq_dmaCmd) | (apply Fq.after; apply fq_viaBar0))

theorem x_execDmaPause (a1) (s : State) : ∃ t, execDmaPause a1 s = .next t ∧ Fq s t := by
  unfold execDmaPause finish
  refine ⟨_, rfl, .after (fq_flush _) ?_⟩
  repeat' (with_reducible first
    | exact Fq.refl _ | intro i s | intro s | (apply Fq.after; apply fq_dmaCmd) | (apply Fq.after; apply fq_viaBar0))

theorem x_execDmaPauseDone (a1) (s : State) : ∃ t, execDmaPauseDone a1 s = .next t ∧ Fq s t := by
  unfold execDmaPauseDone finish
  refine ⟨_, rfl, .after (fq_flush _) ?_⟩
  repeat' (with_reducible first
    | exact Fq.refl _ | (apply Fq.after; apply fq_pauseDone))

theorem x_execDmaReadCompletion (a1) (a2) (a3) (s : State) : ∃ t, execDmaReadCompletion a1 a2 a3 s = .next t ∧ Fq s t := by
  unfold execDmaReadCompletion finish
  refine ⟨_, rfl, .after (fq_flush _) ?_⟩
  repeat' (first
    | (with_reducible first
        | exact Fq.refl _ | (apply Fq.after; apply fq_readEnd) | refine Fq.of_fst ‹_ = _› ?_ | refine Fq.of_snd ‹_ = _› ?_
        | refine Fq.of_thd ‹_ = _› ?_ | fail_if_no_progress (apply Fq.after; (apply Fq.upd) <;> rfl))
    | split)

theorem x_execDmaResume (a1) (s : State) : ∃ t, execDmaResume a1 s = .next t ∧ Fq s t := by
  unfold execDmaResume finish
  refine ⟨_, rfl, .after (fq_flush _) ?_⟩
  repeat' (with_reducible first
    | exact Fq.refl _ | intro i s | intro s | (apply Fq.after; apply fq_dmaCmd) | (apply Fq.after; apply fq_viaBar0))

theorem x_execDmaStart (a1) (s : State) : ∃ t, execDmaStart a1 s = .next t ∧ Fq s t := by
  unfold execDmaStart finish
  refine ⟨_, rfl, .after (fq_flush _) ?_⟩
  repeat' (with_reducible first
    | exact Fq.refl _ | intro i s | intro s | (apply Fq.after; apply fq_dmaCmd) | (apply Fq.after; apply fq_viaBar0))

theorem x_execHostReadTimeout (a1) (a2) (s : State) : ∃ t, execHostReadTimeout a1 a2 s = .next t ∧ Fq s t := by
  unfold execHostReadTimeout finish
  refine ⟨_, rfl, .after (fq_flush _) ?_⟩
  repeat' (first
    | (with_reducible first
        | exact Fq.refl _ | apply Fq.ite | (apply Fq.after; apply fq_readDone) | refine Fq.of_fst ‹_ = _› ?_
        | refine Fq.of_snd ‹_ = _› ?_ | refine Fq.of_thd ‹_ = _› ?_ | fail_if_no_progress (apply Fq.after; (apply Fq.upd) <;> rfl))
    | split)

theorem x_execShadowRegisterWrite (a1) (a2) (a3) (s : State) : ∃ t, execShadowRegisterWrite a1 a2 a3 s = .next t ∧ Fq s t := by
  unfold execShadowRegisterWrite finish
  refine ⟨_, rfl, .after (fq_flush _) ?_⟩
  repeat' (first
    | (with_reducible first
        | exact Fq.refl _ | intro i s | intro s | apply Fq.ite | (apply Fq.after; apply fq_viaBar0)
        | (apply Fq.after; apply fq_shadowWrite))
    | split)

theorem x_execSigraiseAdd (a1) (a2) (s : State) : ∃ t, execSigraiseAdd a1 a2 s = .next t ∧ Fq s t := by
  unfold execSigraiseAdd finish
  refine ⟨_, rfl, .after (fq_flush _) ?_⟩
  repeat' (with_reducible first
    | exact Fq.refl _ | intro i s | intro s | (apply Fq.after; apply fq_viaBar0) | (apply Fq.after; apply fq_sigRaiseWrite))

theorem x_execSigraiseSet (a1) (a2) (s : State) : ∃ t, execSigraiseSet a1 a2 s = .next t ∧ Fq s t := by
  unfold execSigraiseSet finish
  refine ⟨_, rfl, .after (fq_flush _) ?_⟩
  repeat' (with_reducible first
    | exact Fq.refl _ | intro i s | intro s | (apply Fq.after; apply fq_viaBar0) | (apply Fq.after; apply fq_sigRaiseWrite))

theorem x_execBankTransitionDone (a1) (s : State) : ∃ t, execBankTransitionDone a1 s = .next t ∧ Fq s t := by
  unfold execBankTransitionDone finish
  refine ⟨_, rfl, .after (fq_flush _) ?_⟩
  try dsimp only
  repeat' (first
    | (with_reducible first
        | exact Fq.refl _ | apply Fq.ite | (apply Fq.after; apply fq_bankFill) | (apply Fq.after; apply fq_logEvent)
        | (apply Fq.after; apply fq_setF) | (apply Fq.after; apply fq_bankPower)
        | fail_if_no_progress (apply Fq.after; (apply Fq.upd) <;> rfl))
    | split)

theorem x_execBar2Access (a1) (a2) (s : State) : ∃ t, execBar2Access a1 a2 s = .next t ∧ Fq s t := by
  unfold execBar2Access finish
  refine ⟨_, rfl, .after (fq_flush _) ?_⟩
  repeat' (first
    | (with_reducible first
        | exact Fq.refl _ | apply Fq.ite | (apply Fq.after; apply fq_bar2) | (apply Fq.after; apply fq_earlyAccess)
        | (apply Fq.after; apply fq_hostAccess))
    | split)

theorem x_execBar4Access (a1) (a2) (a3) (s : State) : ∃ t, execBar4Access a1 a2 a3 s = .next t ∧ Fq s t := by
  unfold execBar4Access finish
  refine ⟨_, rfl, .after (fq_flush _) ?_⟩
  repeat' (first
    | (with_reducible first
        | exact Fq.refl _ | apply Fq.ite | (apply Fq.after; apply fq_earlyAccess) | (apply Fq.after; apply fq_hostAccess)
        | (apply Fq.after; apply fq_bar4))
    | split)

theorem x_execMarchTestDone (a1) (s : State) : ∃ t, execMarchTestDone a1 s = .next t ∧ Fq s t := by
  unfold execMarchTestDone finish
  refine ⟨_, rfl, .after (fq_flush _) ?_⟩
  repeat' (first
    | (with_reducible first
        | exact Fq.refl _ | (apply Fq.after; apply fq_logEvent) | (apply Fq.after; apply fq_marchEnd)
        | (apply Fq.after; apply fq_testFaults) | refine Fq.of_fst ‹_ = _› ?_ | refine Fq.of_snd ‹_ = _› ?_
        | refine Fq.of_thd ‹_ = _› ?_ | fail_if_no_progress (apply Fq.after; (apply Fq.upd) <;> rfl))
    | split)

theorem x_execMarchWindowDone (a1) (s : State) : ∃ t, execMarchWindowDone a1 s = .next t ∧ Fq s t := by
  unfold execMarchWindowDone finish
  refine ⟨_, rfl, .after (fq_flush _) ?_⟩
  try dsimp only
  repeat' (first
    | (with_reducible first
        | exact Fq.refl _ | intro i s | intro s | (apply Fq.after; apply fq_sramWrite) | (apply Fq.after; apply fq_setF)
        | (apply Fq.after; apply fq_incF) | (apply Fq.after; apply fq_marchFault) | (apply Fq.after; apply fq_foldl)
        | refine Fq.of_fst ‹_ = _› ?_ | refine Fq.of_snd ‹_ = _› ?_ | refine Fq.of_thd ‹_ = _› ?_
        | fail_if_no_progress (apply Fq.after; (apply Fq.upd) <;> rfl))
    | split)

theorem x_execMarchWindowStart (s : State) : ∃ t, execMarchWindowStart s = .next t ∧ Fq s t := by
  unfold execMarchWindowStart finish
  refine ⟨_, rfl, .after (fq_flush _) ?_⟩
  try dsimp only
  repeat' (first
    | (with_reducible first
        | exact Fq.refl _ | apply Fq.ite | (apply Fq.after; apply fq_setF) | refine Fq.of_fst ‹_ = _› ?_ | refine Fq.of_snd ‹_ = _› ?_
        | refine Fq.of_thd ‹_ = _› ?_ | fail_if_no_progress (apply Fq.after; (apply Fq.upd) <;> rfl))
    | split)

theorem x_execMemMarch (a1) (s : State) : ∃ t, execMemMarch a1 s = .next t ∧ Fq s t := by
  unfold execMemMarch finish
  refine ⟨_, rfl, .after (fq_flush _) ?_⟩
  repeat' (with_reducible first
    | exact Fq.refl _ | intro i s | intro s | (apply Fq.after; apply fq_viaBar0) | (apply Fq.after; apply fq_memCmd))

theorem x_execMemSleep (a1) (s : State) : ∃ t, execMemSleep a1 s = .next t ∧ Fq s t := by
  unfold execMemSleep finish
  refine ⟨_, rfl, .after (fq_flush _) ?_⟩
  repeat' (with_reducible first
    | exact Fq.refl _ | intro i s | intro s | (apply Fq.after; apply fq_viaBar0) | (apply Fq.after; apply fq_memCmd))

theorem x_execMemStopmarch (a1) (s : State) : ∃ t, execMemStopmarch a1 s = .next t ∧ Fq s t := by
  unfold execMemStopmarch finish
  refine ⟨_, rfl, .after (fq_flush _) ?_⟩
  repeat' (with_reducible first
    | exact Fq.refl _ | intro i s | intro s | (apply Fq.after; apply fq_viaBar0) | (apply Fq.after; apply fq_memCmd))

theorem x_execMemWake (a1) (s : State) : ∃ t, execMemWake a1 s = .next t ∧ Fq s t := by
  unfold execMemWake finish
  refine ⟨_, rfl, .after (fq_flush _) ?_⟩
  repeat' (with_reducible first
    | exact Fq.refl _ | intro i s | intro s | (apply Fq.after; apply fq_viaBar0) | (apply Fq.after; apply fq_memCmd))

theorem x_execHoldDelayExpiry (a1) (s : State) : ∃ t, execHoldDelayExpiry a1 s = .next t ∧ Fq s t := by
  unfold execHoldDelayExpiry finish
  refine ⟨_, rfl, .after (fq_flush _) ?_⟩
  try dsimp only
  repeat' (first
    | (with_reducible first
        | exact Fq.refl _ | apply Fq.ite | (apply Fq.after; apply fq_modAx)
        | fail_if_no_progress (apply Fq.after; (apply Fq.upd) <;> rfl))
    | split)

theorem x_execHomeChatterTimeout (a1) (s : State) : ∃ t, execHomeChatterTimeout a1 s = .next t ∧ Fq s t := by
  unfold execHomeChatterTimeout finish
  refine ⟨_, rfl, .after (fq_flush _) ?_⟩
  repeat' (first
    | (with_reducible first
        | exact Fq.refl _ | apply Fq.ite | (apply Fq.after; apply fq_logEvent) | (apply Fq.after; apply fq_homeFail))
    | split)

theorem x_execHomeEdgeQualified (a1) (a2) (a3) (a4) (s : State) : ∃ t, execHomeEdgeQualified a1 a2 a3 a4 s = .next t ∧ Fq s t := by
  unfold execHomeEdgeQualified finish
  refine ⟨_, rfl, .after (fq_flush _) ?_⟩
  try dsimp only
  repeat' (first
    | (with_reducible first
        | exact Fq.refl _ | intro i s | intro s | apply Fq.ite | (apply Fq.after; apply fq_modAx) | (apply Fq.after; apply fq_capture)
        | (apply Fq.after; apply fq_homeEdge) | (apply Fq.after; apply fq_forEach)
        | fail_if_no_progress (apply Fq.after; (apply Fq.upd) <;> rfl))
    | split)

theorem x_execLimitQualified (a1) (a2) (a3) (s : State) : ∃ t, execLimitQualified a1 a2 a3 s = .next t ∧ Fq s t := by
  unfold execLimitQualified finish
  refine ⟨_, rfl, .after (fq_flush _) ?_⟩
  try dsimp only
  repeat' (first
    | (with_reducible first
        | exact Fq.refl _ | apply Fq.ite | (apply Fq.after; apply fq_logEvent) | (apply Fq.after; apply fq_setFlag)
        | (apply Fq.after; apply fq_trLost) | (apply Fq.after; apply fq_modAx) | (apply Fq.after; apply fq_axRamp)
        | (apply Fq.after; apply fq_homeFail) | fail_if_no_progress (apply Fq.after; (apply Fq.upd) <;> rfl))
    | split)

theorem x_execProfileUpdate (a1) (s : State) : ∃ t, execProfileUpdate a1 s = .next t ∧ Fr s t := by
  unfold execProfileUpdate finish
  refine ⟨_, rfl, .after (fq_flush _).fr ?_⟩
  try dsimp only
  repeat' (first
    | (with_reducible first
        | exact Fr.refl _ | apply Fr.ite | (apply Fr.after; apply Fq.fr; apply fq_axDevShow)
        | (apply Fr.after; apply Fq.fr; apply fq_homeFar) | (apply Fr.after; apply fr_axStall) | (apply Fr.after; apply fr_useInvar)
        | (apply Fr.after; apply Fq.fr; apply fq_axSoftCheck) | (apply Fr.after; apply Fq.fr; apply fq_axJog)
        | (apply Fr.after; apply fr_axAdvance) | (apply Fr.after; apply Fq.fr; apply fq_axModeCheck))
    | split)

theorem x_execStepperPwmPeriod (a1) (a2) (a3) (s : State) : ∃ t, execStepperPwmPeriod a1 a2 a3 s = .next t ∧ Fr s t := by
  unfold execStepperPwmPeriod finish
  refine ⟨_, rfl, .after (fq_flush _).fr ?_⟩
  try dsimp only
  repeat' (first
    | (with_reducible first
        | exact Fr.refl _ | apply Fr.ite | (apply Fr.after; apply fr_useInvar) | (apply Fr.after; apply Fq.fr; apply fq_modAx)
        | (apply Fr.after; apply Fq.fr; apply fq_adcPut) | fail_if_no_progress (apply Fr.after; (apply Fr.upd) <;> rfl))
    | split)

theorem x_execStpBridgeFault (a1) (s : State) : ∃ t, execStpBridgeFault a1 s = .next t ∧ Fr s t := by
  unfold execStpBridgeFault finish
  refine ⟨_, rfl, .after (fq_flush _).fr ?_⟩
  try dsimp only
  repeat' (first
    | (with_reducible first
        | exact Fr.refl _ | apply Fr.ite | (apply Fr.after; apply Fq.fr; apply fq_setFlag)
        | (apply Fr.after; apply Fq.fr; apply fq_modAx) | (apply Fr.after; apply Fq.fr; apply fq_axRelease)
        | (apply Fr.after; apply fr_raise) | (apply Fr.after; apply Fq.fr; apply fq_setAx)
        | fail_if_no_progress (apply Fr.after; (apply Fr.upd) <;> rfl))
    | split)

theorem x_execStpClrfault (a1) (a2) (s : State) : ∃ t, execStpClrfault a1 a2 s = .next t ∧ Fr s t := by
  unfold execStpClrfault finish
  refine ⟨_, rfl, .after (fq_flush _).fr ?_⟩
  repeat' (with_reducible first
    | exact Fr.refl _ | intro i s | intro s | (apply Fr.after; apply fr_stpCmd) | (apply Fr.after; apply fr_viaBar0))

theorem x_execStpDisable (a1) (s : State) : ∃ t, execStpDisable a1 s = .next t ∧ Fr s t := by
  unfold execStpDisable finish
  refine ⟨_, rfl, .after (fq_flush _).fr ?_⟩
  repeat' (with_reducible first
    | exact Fr.refl _ | intro i s | intro s | (apply Fr.after; apply fr_stpCmd) | (apply Fr.after; apply fr_viaBar0))

theorem x_execStpEnable (a1) (s : State) : ∃ t, execStpEnable a1 s = .next t ∧ Fr s t := by
  unfold execStpEnable finish
  refine ⟨_, rfl, .after (fq_flush _).fr ?_⟩
  repeat' (with_reducible first
    | exact Fr.refl _ | intro i s | intro s | (apply Fr.after; apply fr_stpCmd) | (apply Fr.after; apply fr_viaBar0))

theorem x_execStpEstop (a1) (s : State) : ∃ t, execStpEstop a1 s = .next t ∧ Fr s t := by
  unfold execStpEstop finish
  refine ⟨_, rfl, .after (fq_flush _).fr ?_⟩
  repeat' (with_reducible first
    | exact Fr.refl _ | intro i s | intro s | (apply Fr.after; apply fr_stpCmd) | (apply Fr.after; apply fr_viaBar0))

theorem x_execStpHome (a1) (s : State) : ∃ t, execStpHome a1 s = .next t ∧ Fr s t := by
  unfold execStpHome finish
  refine ⟨_, rfl, .after (fq_flush _).fr ?_⟩
  repeat' (with_reducible first
    | exact Fr.refl _ | intro i s | intro s | (apply Fr.after; apply fr_stpCmd) | (apply Fr.after; apply fr_viaBar0))

theorem x_execStpJog (a1) (a2) (s : State) : ∃ t, execStpJog a1 a2 s = .next t ∧ Fr s t := by
  unfold execStpJog finish
  refine ⟨_, rfl, .after (fq_flush _).fr ?_⟩
  repeat' (with_reducible first
    | exact Fr.refl _ | intro i s | intro s | (apply Fr.after; apply fr_stpCmd) | (apply Fr.after; apply fr_viaBar0))

theorem x_execStpMove (a1) (s : State) : ∃ t, execStpMove a1 s = .next t ∧ Fr s t := by
  unfold execStpMove finish
  refine ⟨_, rfl, .after (fq_flush _).fr ?_⟩
  repeat' (with_reducible first
    | exact Fr.refl _ | intro i s | intro s | (apply Fr.after; apply fr_stpCmd) | (apply Fr.after; apply fr_viaBar0))

theorem x_execStpSetpos (a1) (s : State) : ∃ t, execStpSetpos a1 s = .next t ∧ Fr s t := by
  unfold execStpSetpos finish
  refine ⟨_, rfl, .after (fq_flush _).fr ?_⟩
  repeat' (with_reducible first
    | exact Fr.refl _ | intro i s | intro s | (apply Fr.after; apply fr_stpCmd) | (apply Fr.after; apply fr_viaBar0))

theorem x_execStpStop (a1) (s : State) : ∃ t, execStpStop a1 s = .next t ∧ Fr s t := by
  unfold execStpStop finish
  refine ⟨_, rfl, .after (fq_flush _).fr ?_⟩
  repeat' (with_reducible first
    | exact Fr.refl _ | intro i s | intro s | (apply Fr.after; apply fr_stpCmd) | (apply Fr.after; apply fr_viaBar0))

theorem x_execAlignEnd (a1) (s : State) : ∃ t, execAlignEnd a1 s = .next t ∧ Fq s t := by
  unfold execAlignEnd finish
  refine ⟨_, rfl, .after (fq_flush _) ?_⟩
  try dsimp only
  repeat' (first
    | (with_reducible first
        | exact Fq.refl _ | apply Fq.ite | (apply Fq.after; apply fq_wr) | (apply Fq.after; apply fq_moRun)
        | (apply Fq.after; apply fq_moStartup))
    | split)

theorem x_execCoastTimeout (a1) (s : State) : ∃ t, execCoastTimeout a1 s = .next t ∧ Fq s t := by
  unfold execCoastTimeout finish
  refine ⟨_, rfl, .after (fq_flush _) ?_⟩
  try dsimp only
  repeat' (first
    | (with_reducible first
        | exact Fq.refl _ | apply Fq.ite | (apply Fq.after; apply fq_moRelease) | (apply Fq.after; apply fq_moBrakeAsk)
        | (apply Fq.after; apply fq_setMo) | (apply Fq.after; apply fq_modMo)
        | fail_if_no_progress (apply Fq.after; (apply Fq.upd) <;> rfl))
    | split)

theorem x_execMotClrfault (a1) (a2) (a3) (s : State) : ∃ t, execMotClrfault a1 a2 a3 s = .next t ∧ Fr s t := by
  unfold execMotClrfault finish
  refine ⟨_, rfl, .after (fq_flush _).fr ?_⟩
  repeat' (with_reducible first
    | exact Fr.refl _ | intro i s | intro s | (apply Fr.after; apply fr_viaBar0) | (apply Fr.after; apply fr_motCmd))

theorem x_execMotCoast (a1) (s : State) : ∃ t, execMotCoast a1 s = .next t ∧ Fr s t := by
  unfold execMotCoast finish
  refine ⟨_, rfl, .after (fq_flush _).fr ?_⟩
  repeat' (with_reducible first
    | exact Fr.refl _ | intro i s | intro s | (apply Fr.after; apply fr_viaBar0) | (apply Fr.after; apply fr_motCmd))

theorem x_execMotEstop (a1) (s : State) : ∃ t, execMotEstop a1 s = .next t ∧ Fr s t := by
  unfold execMotEstop finish
  refine ⟨_, rfl, .after (fq_flush _).fr ?_⟩
  repeat' (with_reducible first
    | exact Fr.refl _ | intro i s | intro s | (apply Fr.after; apply fr_viaBar0) | (apply Fr.after; apply fr_motCmd))

theorem x_execMotGateFault (a1) (s : State) : ∃ t, execMotGateFault a1 s = .next t ∧ Fr s t := by
  unfold execMotGateFault finish
  refine ⟨_, rfl, .after (fq_flush _).fr ?_⟩
  try dsimp only
  repeat' (first
    | (with_reducible first
        | exact Fr.refl _ | apply Fr.ite | (apply Fr.after; apply Fq.fr; apply fq_setFlag)
        | (apply Fr.after; apply Fq.fr; apply fq_moFault) | (apply Fr.after; apply fr_raise))
    | split)

theorem x_execMotMove (a1) (s : State) : ∃ t, execMotMove a1 s = .next t ∧ Fr s t := by
  unfold execMotMove finish
  refine ⟨_, rfl, .after (fq_flush _).fr ?_⟩
  repeat' (with_reducible first
    | exact Fr.refl _ | intro i s | intro s | (apply Fr.after; apply fr_viaBar0) | (apply Fr.after; apply fr_motCmd))

theorem x_execMotOvercurrent (a1) (a2) (a3) (s : State) : ∃ t, execMotOvercurrent a1 a2 a3 s = .next t ∧ Fr s t := by
  unfold execMotOvercurrent finish
  refine ⟨_, rfl, .after (fq_flush _).fr ?_⟩
  try dsimp only
  repeat' (first
    | (with_reducible first
        | exact Fr.refl _ | apply Fr.ite | (apply Fr.after; apply fr_useInvar) | (apply Fr.after; apply fr_moTrip))
    | split)

theorem x_execMotStart (a1) (s : State) : ∃ t, execMotStart a1 s = .next t ∧ Fr s t := by
  unfold execMotStart finish
  refine ⟨_, rfl, .after (fq_flush _).fr ?_⟩
  repeat' (with_reducible first
    | exact Fr.refl _ | intro i s | intro s | (apply Fr.after; apply fr_viaBar0) | (apply Fr.after; apply fr_motCmd))

theorem x_execMotStop (a1) (s : State) : ∃ t, execMotStop a1 s = .next t ∧ Fr s t := by
  unfold execMotStop finish
  refine ⟨_, rfl, .after (fq_flush _).fr ?_⟩
  repeat' (with_reducible first
    | exact Fr.refl _ | intro i s | intro s | (apply Fr.after; apply fr_viaBar0) | (apply Fr.after; apply fr_motCmd))

theorem x_execPwmPeriodUpdate (a1) (a2) (a3) (a4) (s : State) : ∃ t, execPwmPeriodUpdate a1 a2 a3 a4 s = .next t ∧ Fr s t := by
  unfold execPwmPeriodUpdate finish
  refine ⟨_, rfl, .after (fq_flush _).fr ?_⟩
  try dsimp only
  repeat' (first
    | (with_reducible first
        | exact Fr.refl _ | apply Fr.ite | (apply Fr.after; apply fr_useInvar) | (apply Fr.after; apply fr_moControl)
        | (apply Fr.after; apply fr_moTrip) | (apply Fr.after; apply Fq.fr; apply fq_moMeasure) | refine Fr.of_fst ‹_ = _› ?_
        | refine Fr.of_snd ‹_ = _› ?_ | refine Fr.of_thd ‹_ = _› ?_ | fail_if_no_progress (apply Fr.after; (apply Fr.upd) <;> rfl))
    | split)

theorem x_execReacqWindowEnd (a1) (s : State) : ∃ t, execReacqWindowEnd a1 s = .next t ∧ Fr s t := by
  unfold execReacqWindowEnd finish
  refine ⟨_, rfl, .after (fq_flush _).fr ?_⟩
  repeat' (first
    | (with_reducible first
        | exact Fr.refl _ | apply Fr.ite | (apply Fr.after; apply fr_reacqFail))
    | split)

theorem x_execRevbrakeHoldEnd (a1) (s : State) : ∃ t, execRevbrakeHoldEnd a1 s = .next t ∧ Fq s t := by
  unfold execRevbrakeHoldEnd finish
  refine ⟨_, rfl, .after (fq_flush _) ?_⟩
  repeat' (first
    | (with_reducible first
        | exact Fq.refl _ | apply Fq.ite | (apply Fq.after; apply fq_moAlign))
    | split)

theorem x_execReverseTimeout (a1) (s : State) : ∃ t, execReverseTimeout a1 s = .next t ∧ Fq s t := by
  unfold execReverseTimeout finish
  refine ⟨_, rfl, .after (fq_flush _) ?_⟩
  try dsimp only
  repeat' (first
    | (with_reducible first
        | exact Fq.refl _ | apply Fq.ite | (apply Fq.after; apply fq_logEvent) | (apply Fq.after; apply fq_setFlag)
        | (apply Fq.after; apply fq_moRelease) | (apply Fq.after; apply fq_setMo) | (apply Fq.after; apply fq_modMo))
    | split)

theorem x_execSenseWindowEnd (a1) (s : State) : ∃ t, execSenseWindowEnd a1 s = .next t ∧ Fq s t := by
  unfold execSenseWindowEnd finish
  refine ⟨_, rfl, .after (fq_flush _) ?_⟩
  try dsimp only
  repeat' (first
    | (with_reducible first
        | exact Fq.refl _ | apply Fq.ite | (apply Fq.after; apply fq_logEvent) | (apply Fq.after; apply fq_setMo)
        | (apply Fq.after; apply fq_modMo) | (apply Fq.after; apply fq_moAlign) | (apply Fq.after; apply fq_moRun)
        | (apply Fq.after; apply fq_moStartup) | fail_if_no_progress (apply Fq.after; (apply Fq.upd) <;> rfl))
    | split)

theorem x_execVbusLowTimeout (a1) (s : State) : ∃ t, execVbusLowTimeout a1 s = .next t ∧ Fr s t := by
  unfold execVbusLowTimeout finish
  refine ⟨_, rfl, .after (fq_flush _).fr ?_⟩
  try dsimp only
  repeat' (first
    | (with_reducible first
        | exact Fr.refl _ | apply Fr.ite | (apply Fr.after; apply Fq.fr; apply fq_setFlag) | (apply Fr.after; apply fr_useInvar)
        | (apply Fr.after; apply Fq.fr; apply fq_moFault) | (apply Fr.after; apply fr_raise))
    | split)

theorem x_execZeroCrossing (a1) (a2) (a3) (s : State) : ∃ t, execZeroCrossing a1 a2 a3 s = .next t ∧ Fr s t := by
  unfold execZeroCrossing finish
  refine ⟨_, rfl, .after (fq_flush _).fr ?_⟩
  try dsimp only
  repeat' (first
    | (with_reducible first
        | exact Fr.refl _ | apply Fr.ite | (apply Fr.after; apply Fq.fr; apply fq_moSlow)
        | (apply Fr.after; apply Fq.fr; apply fq_modMo) | (apply Fr.after; apply fr_reacqTry)
        | (apply Fr.after; apply Fq.fr; apply fq_startupZc) | refine Fr.of_fst ‹_ = _› ?_ | refine Fr.of_snd ‹_ = _› ?_
        | refine Fr.of_thd ‹_ = _› ?_ | fail_if_no_progress (apply Fr.after; (apply Fr.upd) <;> rfl))
    | split)

theorem x_execAvsCodeStep (a1) (s : State) : ∃ t, execAvsCodeStep a1 s = .next t ∧ Fq s t := by
  unfold execAvsCodeStep finish
  refine ⟨_, rfl, .after (fq_flush _) ?_⟩
  try dsimp only
  repeat' (first
    | (with_reducible first
        | exact Fq.refl _ | apply Fq.ite | (apply Fq.after; apply fq_driveAvs))
    | split)

theorem x_execBruRetry (s : State) : ∃ t, execBruRetry s = .next t ∧ Mv s t := by
  unfold execBruRetry finish
  refine ⟨_, rfl, .after (fq_flush _).mv ?_⟩
  repeat' (with_reducible first
    | exact Mv.refl _ | (apply Mv.after; apply mv_bruCmd))

theorem x_execSelftestActivityDone (a1) (s : State) : ∃ t, execSelftestActivityDone a1 s = .next t ∧ Mv s t := by
  unfold execSelftestActivityDone finish
  refine ⟨_, rfl, .after (fq_flush _).mv ?_⟩
  try dsimp only
  repeat' (first
    | (with_reducible first
        | exact Mv.refl _ | apply Mv.ite | (apply Mv.after; apply mv_memoryDone) | (apply Mv.after; apply mv_selftestEnd)
        | (apply Mv.after; apply Fq.mv; apply fq_journalScan) | (apply Mv.after; apply Fq.mv; apply fq_selftestFail)
        | refine Mv.of_fst ‹_ = _› ?_ | refine Mv.of_snd ‹_ = _› ?_ | refine Mv.of_thd ‹_ = _› ?_
        | fail_if_no_progress (apply Mv.after; (apply Mv.upd) <;> rfl))
    | split)

theorem x_execThrottleApply (s : State) : ∃ t, execThrottleApply s = .next t ∧ Fq s t := by
  unfold execThrottleApply finish
  refine ⟨_, rfl, .after (fq_flush _) ?_⟩
  try dsimp only
  repeat' (first
    | (with_reducible first
        | exact Fq.refl _ | apply Fq.ite | (apply Fq.after; apply fq_logEvent)
        | fail_if_no_progress (apply Fq.after; (apply Fq.upd) <;> rfl))
    | split)

theorem x_execXmcEccInitDone (s : State) : ∃ t, execXmcEccInitDone s = .next t ∧ Mv s t := by
  refine ⟨_, rfl, .after (fq_flush _).mv (.ite (.after (mv_bruCheck _) (.after (fq_xmcReport _).mv ?_)) (.refl s))⟩
  exact ⟨⟨rfl, fun ⟨h, k, l⟩ => ⟨⟨h.1, ⟨List.Pairwise.nil, fun p hp => absurd hp List.not_mem_nil⟩⟩, k, l⟩, List.suffix_refl _, Nat.le_refl _,
    Nat.le_refl _, rfl, rfl⟩, rfl, rfl, (Mv.refl s).falls⟩

theorem x_execXmcTrainDone (a1) (a2) (a3) (s : State) : ∃ t, execXmcTrainDone a1 a2 a3 s = .next t ∧ Mv s t := by
  unfold execXmcTrainDone finish
  refine ⟨_, rfl, .after (fq_flush _).mv ?_⟩
  try dsimp only
  repeat' (first
    | (with_reducible first
        | exact Mv.refl _ | apply Mv.ite | (apply Mv.after; apply Fq.mv; apply fq_logEvent) | (apply Mv.after; apply mv_bruCheck)
        | (apply Mv.after; apply Fq.mv; apply fq_xmcReport) | (apply Mv.after; apply Fq.mv; apply fq_bruErr)
        | fail_if_no_progress (apply Mv.after; (apply Mv.upd) <;> rfl))
    | split)

theorem x_execFlashReadDone (a1) (s : State) : ∃ t, execFlashReadDone a1 s = .next t ∧ Kp s t := by
  unfold execFlashReadDone finish
  refine ⟨_, rfl, .after (fq_flush _).kp ?_⟩
  repeat' (first
    | (with_reducible first
        | exact Kp.refl _ | apply Kp.ite | (apply Kp.after; apply kp_checkAndCommit))
    | split)

theorem x_execFlashStrobeTimeout (a1) (s : State) : ∃ t, execFlashStrobeTimeout a1 s = .next t ∧ Fq s t := by
  unfold execFlashStrobeTimeout finish
  refine ⟨_, rfl, .after (fq_flush _) ?_⟩
  repeat' (first
    | (with_reducible first
        | exact Fq.refl _ | apply Fq.ite | (apply Fq.after; apply fq_sourceFail))
    | split)

theorem x_execGlbReload (s : State) : ∃ t, execGlbReload s = .next t ∧ Fa s t := by
  unfold execGlbReload finish
  refine ⟨_, rfl, .after (fq_flush _).fa ?_⟩
  repeat' (with_reducible first
    | exact Fa.refl _ | intro i s | intro s | (apply Fa.after; apply fa_glbRun) | (apply Fa.after; apply fa_glbReload))

theorem x_execImgDataWrite (a1) (s : State) : ∃ t, execImgDataWrite a1 s = .next t ∧ Fq s t := by
  unfold execImgDataWrite finish
  refine ⟨_, rfl, .after (fq_flush _) ?_⟩
  repeat' (with_reducible first
    | exact Fq.refl _ | intro i s | intro s | (apply Fq.after; apply fq_viaBar0) | (apply Fq.after; apply fq_imgData))

theorem x_execImgSrcWrite (a1) (s : State) : ∃ t, execImgSrcWrite a1 s = .next t ∧ Kp s t := by
  unfold execImgSrcWrite finish
  refine ⟨_, rfl, .after (fq_flush _).kp ?_⟩
  repeat' (with_reducible first
    | exact Kp.refl _ | intro i s | intro s | (apply Kp.after; apply kp_viaBar0) | (apply Kp.after; apply kp_imgCtl))

theorem x_execPushBegin (a1) (s : State) : ∃ t, execPushBegin a1 s = .next t ∧ Kp s t := by
  unfold execPushBegin finish
  refine ⟨_, rfl, .after (fq_flush _).kp ?_⟩
  repeat' (with_reducible first
    | exact Kp.refl _ | (apply Kp.after; apply kp_imgCtl))

theorem x_execPushEnd (a1) (s : State) : ∃ t, execPushEnd a1 s = .next t ∧ Kp s t := by
  unfold execPushEnd finish
  refine ⟨_, rfl, .after (fq_flush _).kp ?_⟩
  repeat' (with_reducible first
    | exact Kp.refl _ | (apply Kp.after; apply kp_imgCtl))

theorem x_execRetryFlash (a1) (s : State) : ∃ t, execRetryFlash a1 s = .next t ∧ Kp s t := by
  unfold execRetryFlash finish
  refine ⟨_, rfl, .after (fq_flush _).kp ?_⟩
  repeat' (with_reducible first
    | exact Kp.refl _ | (apply Kp.after; apply kp_imgCtl))

theorem x_execRevert (a1) (s : State) : ∃ t, execRevert a1 s = .next t ∧ Kp s t := by
  unfold execRevert finish
  refine ⟨_, rfl, .after (fq_flush _).kp ?_⟩
  repeat' (with_reducible first
    | exact Kp.refl _ | (apply Kp.after; apply kp_imgCtl))

theorem x_execSfdpTimeout (s : State) : ∃ t, execSfdpTimeout s = .next t ∧ Fq s t := by
  unfold execSfdpTimeout finish
  refine ⟨_, rfl, .after (fq_flush _) ?_⟩
  repeat' (first
    | (with_reducible first
        | exact Fq.refl _ | apply Fq.ite | (apply Fq.after; apply fq_sourceFail))
    | split)

theorem x_execSvnCommit (a1) (s : State) : ∃ t, execSvnCommit a1 s = .next t ∧ Kp s t := by
  unfold execSvnCommit finish
  refine ⟨_, rfl, .after (fq_flush _).kp ?_⟩
  repeat' (with_reducible first
    | exact Kp.refl _ | (apply Kp.after; apply kp_imgCtl))

theorem x_execClockRelock (a1) (s : State) : ∃ t, execClockRelock a1 s = .next t ∧ Fa s t := by
  unfold execClockRelock finish
  refine ⟨_, rfl, .after (fq_flush _).fa ?_⟩
  try dsimp only
  repeat' (first
    | (with_reducible first
        | exact Fa.refl _ | apply Fa.ite | (apply Fa.after; apply Fq.fa; apply fq_logEvent) | (apply Fa.after; apply fa_leaveReset)
        | (apply Fa.after; apply Fq.fa; apply fq_restartLoader) | fail_if_no_progress (apply Fa.after; (apply Fa.upd) <;> rfl))
    | split)

theorem x_execClockUnlock (a1) (s : State) : ∃ t, execClockUnlock a1 s = .next t ∧ Fr s t := by
  unfold execClockUnlock finish
  refine ⟨_, rfl, .after (fq_flush _).fr ?_⟩
  try dsimp only
  repeat' (first
    | (with_reducible first
        | exact Fr.refl _ | intro i s | intro s | apply Fr.ite | (apply Fr.after; apply Fq.fr; apply fq_holdPort)
        | (apply Fr.after; apply Fq.fr; apply fq_stopLoader) | (apply Fr.after; apply fr_raise) | (apply Fr.after; apply fr_forEach)
        | fail_if_no_progress (apply Fr.after; (apply Fr.upd) <;> rfl))
    | split)

theorem x_execPciePerstAssert (s : State) : ∃ t, execPciePerstAssert s = .next t ∧ Fq s t := by
  refine ⟨_, rfl, .after (fq_flush _) ?_⟩
  have h := fq_resetWords perstScope (fun _ => 0) s (fun _ => .inl rfl)
  refine .ite (Fq.upd _ rfl rfl rfl rfl rfl rfl rfl rfl rfl rfl) ?_
  dsimp only
  generalize resetWords perstScope (fun _ => 0) s = s1 at h
  refine .ite ?_ (.after (fq_logEvent ..) (.after (fq_dmaPauseAll ..) ?_)) <;>
    exact .after (fq_setF ..) (.after (Fq.upd _ rfl rfl rfl rfl rfl rfl rfl rfl rfl rfl) h)

theorem x_execPorstAssert (a1) (s : State) : ∃ t, execPorstAssert a1 s = .next t ∧ Kp s t := by
  unfold execPorstAssert finish
  refine ⟨_, rfl, .after (fq_flush _).kp ?_⟩
  repeat' (first
    | (with_reducible first
        | exact Kp.refl _ | apply Kp.ite | (apply Kp.after; apply kp_porst)
        | fail_if_no_progress (apply Kp.after; (apply Kp.upd) <;> rfl))
    | split)

theorem x_execPorstRelease (a1) (a2) (a3) (s : State) : ∃ t, execPorstRelease a1 a2 a3 s = .next t ∧ Fa s t := by
  unfold execPorstRelease finish
  refine ⟨_, rfl, .after (fq_flush _).fa ?_⟩
  repeat' (first
    | (with_reducible first
        | exact Fa.refl _ | apply Fa.ite | (apply Fa.after; apply fa_leaveReset) | (apply Fa.after; apply Fq.fa; apply fq_setF)
        | fail_if_no_progress (apply Fa.after; (apply Fa.upd) <;> rfl))
    | split)

theorem x_execPowerLoss (s : State) : ∃ t, execPowerLoss s = .next t ∧ Kp s t := by
  unfold execPowerLoss finish
  refine ⟨_, rfl, .after (fq_flush _).kp ?_⟩
  try dsimp only
  repeat' (first
    | (with_reducible first
        | exact Kp.refl _ | apply Kp.ite | (apply Kp.after; apply kp_porst)
        | fail_if_no_progress (apply Kp.after; (apply Kp.upd) <;> rfl))
    | split)

theorem x_execPowerOn (s : State) : ∃ t, execPowerOn s = .next t ∧ Fa s t :=
  ⟨_, rfl, .after (fq_flush _).fa (.ite (Fa.upd _ rfl rfl rfl rfl rfl rfl rfl rfl rfl) (.refl s))⟩

theorem x_execRootVcoLock (s : State) : ∃ t, execRootVcoLock s = .next t ∧ Fa s t := by
  unfold execRootVcoLock finish
  refine ⟨_, rfl, .after (fq_flush _).fa ?_⟩
  repeat' (first
    | (with_reducible first
        | exact Fa.refl _ | apply Fa.ite | (apply Fa.after; apply fa_leaveReset)
        | fail_if_no_progress (apply Fa.after; (apply Fa.upd) <;> rfl))
    | split)

theorem x_execWarmrstAssert (a1) (s : State) : ∃ t, execWarmrstAssert a1 s = .next t ∧ Kp s t := by
  unfold execWarmrstAssert finish
  refine ⟨_, rfl, .after (fq_flush _).kp ?_⟩
  repeat' (first
    | (with_reducible first
        | exact Kp.refl _ | apply Kp.ite | (apply Kp.after; apply kp_warmrst)
        | fail_if_no_progress (apply Kp.after; (apply Kp.upd) <;> rfl))
    | split)

theorem x_execWarmrstRelease (s : State) : ∃ t, execWarmrstRelease s = .next t ∧ Fa s t := by
  unfold execWarmrstRelease finish
  refine ⟨_, rfl, .after (fq_flush _).fa ?_⟩
  repeat' (first
    | (with_reducible first
        | exact Fa.refl _ | apply Fa.ite | (apply Fa.after; apply fa_leaveReset)
        | fail_if_no_progress (apply Fa.after; (apply Fa.upd) <;> rfl))
    | split)

theorem x_execGlbLantern (s : State) : ∃ t, execGlbLantern s = .next t ∧ Fq s t := by
  unfold execGlbLantern finish
  refine ⟨_, rfl, .after (fq_flush _) ?_⟩
  repeat' (with_reducible first
    | exact Fq.refl _ | intro i s | intro s | (apply Fq.after; apply fq_glbLantern) | (apply Fq.after; apply fq_glbRun))

theorem x_execI2cPointerWrite (a1) (a2) (a3) (s : State) : ∃ t, execI2cPointerWrite a1 a2 a3 s = .next t ∧ Fq s t := by
  unfold execI2cPointerWrite finish
  refine ⟨_, rfl, .after (fq_flush _) ?_⟩
  repeat' (first
    | (with_reducible first
        | exact Fq.refl _ | apply Fq.ite | fail_if_no_progress (apply Fq.after; (apply Fq.upd) <;> rfl))
    | split)

theorem x_execI2cRead (s : State) : ∃ t, execI2cRead s = .next t ∧ Fq s t := by
  unfold execI2cRead finish
  refine ⟨_, rfl, .after (fq_flush _) ?_⟩
  repeat' (first
    | (with_reducible first
        | exact Fq.refl _ | apply Fq.ite | (apply Fq.after; apply fq_i2cRead))
    | split)

theorem x_execI2cSnapshot (s : State) : ∃ t, execI2cSnapshot s = .next t ∧ Fq s t := by
  unfold execI2cSnapshot finish
  refine ⟨_, rfl, .after (fq_flush _) ?_⟩
  repeat' (first
    | (with_reducible first
        | exact Fq.refl _ | apply Fq.ite | (apply Fq.after; apply fq_lanCopy)
        | fail_if_no_progress (apply Fq.after; (apply Fq.upd) <;> rfl))
    | split)

theorem x_execLanternWriteDone (s : State) : ∃ t, execLanternWriteDone s = .next t ∧ Fq s t := by
  unfold execLanternWriteDone finish
  refine ⟨_, rfl, .after (fq_flush _) ?_⟩
  repeat' (with_reducible first
    | exact Fq.refl _ | (apply Fq.after; apply fq_lanDone))

theorem x_execAdcBackgroundSample (a1) (a2) (s : State) : ∃ t, execAdcBackgroundSample a1 a2 s = .next t ∧ Fq s t := by
  unfold execAdcBackgroundSample finish
  refine ⟨_, rfl, .after (fq_flush _) ?_⟩
  repeat' (first
    | (with_reducible first
        | exact Fq.refl _ | apply Fq.ite | (apply Fq.after; apply fq_adcPut))
    | split)

theorem x_execEvcfgWrite (a1) (s : State) : ∃ t, execEvcfgWrite a1 s = .next t ∧ Fq s t := by
  unfold execEvcfgWrite finish
  refine ⟨_, rfl, .after (fq_flush _) ?_⟩
  repeat' (with_reducible first
    | exact Fq.refl _ | intro i s | intro s | (apply Fq.after; apply fq_evCfgChecked) | (apply Fq.after; apply fq_viaBar0))

theorem x_execInvarWrite (a1) (a2) (a3) (a4) (s : State) : ∃ t, execInvarWrite a1 a2 a3 a4 s = .next t ∧ Fr s t := by
  unfold execInvarWrite finish
  refine ⟨_, rfl, .after (fq_flush _).fr ?_⟩
  try dsimp only
  repeat' (first
    | (with_reducible first
        | exact Fr.refl _ | intro i s | intro s | apply Fr.ite | (apply Fr.after; apply Fq.fr; apply fq_accessBad)
        | (apply Fr.after; apply fr_invarWrite) | (apply Fr.after; apply fr_viaBar0))
    | split)

theorem x_execL1Entry (s : State) : ∃ t, execL1Entry s = .next t ∧ Fq s t := by
  unfold execL1Entry finish
  refine ⟨_, rfl, .after (fq_flush _) ?_⟩
  repeat' (first
    | (with_reducible first
        | exact Fq.refl _ | apply Fq.ite | fail_if_no_progress (apply Fq.after; (apply Fq.upd) <;> rfl))
    | split)

theorem x_execRegisterWrite (a1) (a2) (a3) (s : State) : ∃ t, execRegisterWrite a1 a2 a3 s = .next t ∧ Kp s t := by
  unfold execRegisterWrite finish
  refine ⟨_, rfl, .after (fq_flush _).kp ?_⟩
  repeat' (with_reducible first
    | exact Kp.refl _ | intro i s | intro s | (apply Kp.after; apply kp_viaBar0) | (apply Kp.after; apply kp_dwWrite))

theorem x_execTableEntryWrite (a1) (a2) (a3) (s : State) : ∃ t, execTableEntryWrite a1 a2 a3 s = .next t ∧ Fq s t := by
  unfold execTableEntryWrite finish
  refine ⟨_, rfl, .after (fq_flush _) ?_⟩
  repeat' (with_reducible first
    | exact Fq.refl _ | intro i s | intro s | (apply Fq.after; apply fq_viaBar0) | (apply Fq.after; apply fq_tableWrite))

theorem x_execW1cFlagClear (a1) (a2) (a3) (s : State) : ∃ t, execW1cFlagClear a1 a2 a3 s = .next t ∧ Fq s t := by
  unfold execW1cFlagClear finish
  refine ⟨_, rfl, .after (fq_flush _) ?_⟩
  try dsimp only
  repeat' (first
    | (with_reducible first
        | exact Fq.refl _ | intro i s | intro s | apply Fq.ite | (apply Fq.after; apply fq_setFlag) | (apply Fq.after; apply fq_viaBar0)
        | (apply Fq.after; apply fq_clearFlags))
    | split)

theorem x_execDmaCpl (a1) (s : State) : ∃ t, execDmaCpl a1 s = .next t ∧ Fr s t := by
  unfold execDmaCpl finish
  refine ⟨_, rfl, .after (fq_flush _).fr ?_⟩
  repeat' (with_reducible first
    | exact Fr.refl _ | intro i s | intro s | (apply Fr.after; apply fr_dmaOrdered) | (apply Fr.after; apply fr_dmaRun))

theorem x_execDmaDpat (a1) (s : State) : ∃ t, execDmaDpat a1 s = .next t ∧ Fq s t := by
  unfold execDmaDpat finish
  refine ⟨_, rfl, .after (fq_flush _) ?_⟩
  try dsimp only
  repeat' (with_reducible first
    | exact Fq.refl _ | intro i s | intro s | (apply Fq.after; apply fq_markSet) | (apply Fq.after; apply fq_dmaNext)
    | (apply Fq.after; apply fq_setPattern) | (apply Fq.after; apply fq_dmaRun) | (apply Fq.after; apply fq_modDma)
    | fail_if_no_progress (apply Fq.after; (apply Fq.upd) <;> rfl))

theorem x_execDmaDst (a1) (s : State) : ∃ t, execDmaDst a1 s = .next t ∧ Fq s t := by
  unfold execDmaDst finish
  refine ⟨_, rfl, .after (fq_flush _) ?_⟩
  try dsimp only
  repeat' (with_reducible first
    | exact Fq.refl _ | intro i s | intro s | (apply Fq.after; apply fq_markSet) | (apply Fq.after; apply fq_dmaNext)
    | (apply Fq.after; apply fq_dmaRun) | (apply Fq.after; apply fq_setBase) | (apply Fq.after; apply fq_modDma)
    | fail_if_no_progress (apply Fq.after; (apply Fq.upd) <;> rfl))

theorem x_execDmaEnd (a1) (s : State) : ∃ t, execDmaEnd a1 s = .next t ∧ Fr s t := by
  unfold execDmaEnd finish
  refine ⟨_, rfl, .after (fq_flush _).fr ?_⟩
  repeat' (with_reducible first
    | exact Fr.refl _ | intro i s | intro s | (apply Fr.after; apply fr_dmaOrdered) | (apply Fr.after; apply fr_dmaRun))

theorem x_execDmaLoop (a1) (s : State) : ∃ t, execDmaLoop a1 s = .next t ∧ Fq s t := by
  unfold execDmaLoop finish
  refine ⟨_, rfl, .after (fq_flush _) ?_⟩
  try dsimp only
  repeat' (with_reducible first
    | exact Fq.refl _ | intro i s | intro s | (apply Fq.after; apply fq_loopStep) | (apply Fq.after; apply fq_dmaRun))

theorem x_execDmaNop (a1) (s : State) : ∃ t, execDmaNop a1 s = .next t ∧ Fq s t := by
  unfold execDmaNop finish
  refine ⟨_, rfl, .after (fq_flush _) ?_⟩
  try dsimp only
  repeat' (with_reducible first
    | exact Fq.refl _ | intro i s | intro s | (apply Fq.after; apply fq_dmaNext) | (apply Fq.after; apply fq_dmaRun))

theorem x_execDmaSetc (a1) (s : State) : ∃ t, execDmaSetc a1 s = .next t ∧ Fq s t := by
  unfold execDmaSetc finish
  refine ⟨_, rfl, .after (fq_flush _) ?_⟩
  try dsimp only
  repeat' (with_reducible first
    | exact Fq.refl _ | intro i s | intro s | (apply Fq.after; apply fq_dmaNext) | (apply Fq.after; apply fq_dmaRun)
    | (apply Fq.after; apply fq_wr))

theorem x_execDmaSignal (a1) (s : State) : ∃ t, execDmaSignal a1 s = .next t ∧ Fr s t := by
  unfold execDmaSignal finish
  refine ⟨_, rfl, .after (fq_flush _).fr ?_⟩
  repeat' (with_reducible first
    | exact Fr.refl _ | intro i s | intro s | (apply Fr.after; apply fr_dmaOrdered) | (apply Fr.after; apply fr_dmaRun))

theorem x_execDmaSpat (a1) (s : State) : ∃ t, execDmaSpat a1 s = .next t ∧ Fq s t := by
  unfold execDmaSpat finish
  refine ⟨_, rfl, .after (fq_flush _) ?_⟩
  try dsimp only
  repeat' (with_reducible first
    | exact Fq.refl _ | intro i s | intro s | (apply Fq.after; apply fq_markSet) | (apply Fq.after; apply fq_dmaNext)
    | (apply Fq.after; apply fq_setPattern) | (apply Fq.after; apply fq_dmaRun) | (apply Fq.after; apply fq_modDma)
    | fail_if_no_progress (apply Fq.after; (apply Fq.upd) <;> rfl))

theorem x_execDmaSrc (a1) (s : State) : ∃ t, execDmaSrc a1 s = .next t ∧ Fq s t := by
  unfold execDmaSrc finish
  refine ⟨_, rfl, .after (fq_flush _) ?_⟩
  try dsimp only
  repeat' (with_reducible first
    | exact Fq.refl _ | intro i s | intro s | (apply Fq.after; apply fq_markSet) | (apply Fq.after; apply fq_dmaNext)
    | (apply Fq.after; apply fq_dmaRun) | (apply Fq.after; apply fq_setBase) | (apply Fq.after; apply fq_modDma)
    | fail_if_no_progress (apply Fq.after; (apply Fq.upd) <;> rfl))

theorem x_execDmaSwap (a1) (s : State) : ∃ t, execDmaSwap a1 s = .next t ∧ Fr s t := by
  unfold execDmaSwap finish
  refine ⟨_, rfl, .after (fq_flush _).fr ?_⟩
  repeat' (with_reducible first
    | exact Fr.refl _ | intro i s | intro s | (apply Fr.after; apply fr_dmaOrdered) | (apply Fr.after; apply fr_dmaRun))

theorem x_execDmaWait (a1) (s : State) : ∃ t, execDmaWait a1 s = .next t ∧ Fq s t := by
  unfold execDmaWait finish
  refine ⟨_, rfl, .after (fq_flush _) ?_⟩
  repeat' (with_reducible first
    | exact Fq.refl _ | intro i s | intro s | (apply Fq.after; apply fq_dmaRun) | (apply Fq.after; apply fq_waitStart))

theorem x_execDmaWaitSatisfied (a1) (s : State) : ∃ t, execDmaWaitSatisfied a1 s = .next t ∧ Fq s t := by
  unfold execDmaWaitSatisfied finish
  refine ⟨_, rfl, .after (fq_flush _) ?_⟩
  try dsimp only
  repeat' (first
    | (with_reducible first
        | exact Fq.refl _ | apply Fq.ite | (apply Fq.after; apply fq_dmaFail) | (apply Fq.after; apply fq_waitOver))
    | split)

theorem x_execDmaWaitTimeout (a1) (s : State) : ∃ t, execDmaWaitTimeout a1 s = .next t ∧ Fq s t := by
  unfold execDmaWaitTimeout finish
  refine ⟨_, rfl, .after (fq_flush _) ?_⟩
  try dsimp only
  repeat' (first
    | (with_reducible first
        | exact Fq.refl _ | apply Fq.ite | (apply Fq.after; apply fq_dmaFail))
    | split)

theorem x_execDmaWri (a1) (a2) (s : State) : ∃ t, execDmaWri a1 a2 s = .next t ∧ Fr s t := by
  unfold execDmaWri finish
  refine ⟨_, rfl, .after (fq_flush _).fr ?_⟩
  repeat' (with_reducible first
    | exact Fr.refl _ | intro i s | intro s | (apply Fr.after; apply fr_dmaOrdered) | (apply Fr.after; apply fr_dmaRun))

theorem x_execDmaWriteComplete (a1) (a2) (s : State) : ∃ t, execDmaWriteComplete a1 a2 s = .next t ∧ Fr s t := by
  unfold execDmaWriteComplete finish
  refine ⟨_, rfl, .after (fq_flush _).fr ?_⟩
  try dsimp only
  repeat' (first
    | (with_reducible first
        | exact Fr.refl _ | apply Fr.ite | (apply Fr.after; apply Fq.fr; apply fq_eccErrors) | (apply Fr.after; apply fr_dmaAct)
        | (apply Fr.after; apply Fq.fr; apply fq_modDma) | fail_if_no_progress (apply Fr.after; (apply Fr.upd) <;> rfl))
    | split)

theorem x_execDmaXfer (a1) (s : State) : ∃ t, execDmaXfer a1 s = .next t ∧ Fq s t := by
  unfold execDmaXfer finish
  refine ⟨_, rfl, .after (fq_flush _) ?_⟩
  try dsimp only
  repeat' (with_reducible first
    | exact Fq.refl _ | intro i s | intro s | (apply Fq.after; apply fq_xferStart) | (apply Fq.after; apply fq_dmaRun))

end Sys2Proof.Machine
end

