-- ==== Sys2Proof/Laws/FrameAll.lean ====
section
/-!
SUPPORT. The frames of the meanings, collected over the constructors of `Instr`.
-/
namespace Sys2Proof.Machine

/-- The commands that may change the image in force, a fuse or the journal's records. -/
def changesStore : Instr → Bool
  | .porstAssert _ => true
  | .warmrstAssert _ => true
  | .pushBegin _ => true
  | .pushEnd _ => true
  | .retryFlash _ => true
  | .revert _ => true
  | .svnCommit _ => true
  | .imgSrcWrite _ => true
  | .flashReadDone _ => true
  | .journalProgramDone => true
  | .registerWrite _ _ _ => true
  | .powerLoss => true
  | _ => false

/-- The commands that lead from one global state to another by their own rule. -/
def changesState : Instr → Bool
  | .porstRelease _ _ _ => true
  | .warmrstRelease => true
  | .rootVcoLock => true
  | .clockRelock _ => true
  | .glbArm => true
  | .glbStart => true
  | .glbDisarm => true
  | .glbRecover => true
  | .glbReload => true
  | .stoppingComplete => true
  | .startTick => true
  | .powerOn => true
  | _ => false

/-- Every command answers a next state, which keeps what no operation undoes. -/
theorem exec_kp (c : Instr) (s : State) : ∃ t, exec c s = .next t ∧ Kp s t := by
  cases c with
  | porstAssert a0 => exact x_execPorstAssert a0 s
  | warmrstAssert a0 => exact x_execWarmrstAssert a0 s
  | porstRelease a0 a1 a2 => exact (x_execPorstRelease a0 a1 a2 s).imp fun _ h => ⟨h.1, h.2.kp⟩
  | warmrstRelease => exact (x_execWarmrstRelease s).imp fun _ h => ⟨h.1, h.2.kp⟩
  | rootVcoLock => exact (x_execRootVcoLock s).imp fun _ h => ⟨h.1, h.2.kp⟩
  | clockUnlock a0 => exact (x_execClockUnlock a0 s).imp fun _ h => ⟨h.1, h.2.kp⟩
  | clockRelock a0 => exact (x_execClockRelock a0 s).imp fun _ h => ⟨h.1, h.2.kp⟩
  | throttleApply => exact (x_execThrottleApply s).imp fun _ h => ⟨h.1, h.2.kp⟩
  | glbArm => exact (x_execGlbArm s).imp fun _ h => ⟨h.1, h.2.kp⟩
  | glbStart => exact (x_execGlbStart s).imp fun _ h => ⟨h.1, h.2.kp⟩
  | glbStop => exact (x_execGlbStop s).imp fun _ h => ⟨h.1, h.2.kp⟩
  | glbDisarm => exact (x_execGlbDisarm s).imp fun _ h => ⟨h.1, h.2.kp⟩
  | glbRecover => exact (x_execGlbRecover s).imp fun _ h => ⟨h.1, h.2.kp⟩
  | glbReload => exact (x_execGlbReload s).imp fun _ h => ⟨h.1, h.2.kp⟩
  | glbLantern => exact (x_execGlbLantern s).imp fun _ h => ⟨h.1, h.2.kp⟩
  | glbShutdown => exact (x_execGlbShutdown s).imp fun _ h => ⟨h.1, h.2.kp⟩
  | stoppingComplete => exact (x_execStoppingComplete s).imp fun _ h => ⟨h.1, h.2.kp⟩
  | earlyAccess a0 a1 a2 => exact (x_execEarlyAccess a0 a1 a2 s).imp fun _ h => ⟨h.1, h.2.kp⟩
  | pciePerstAssert => exact (x_execPciePerstAssert s).imp fun _ h => ⟨h.1, h.2.kp⟩
  | pushBegin a0 => exact x_execPushBegin a0 s
  | pushEnd a0 => exact x_execPushEnd a0 s
  | retryFlash a0 => exact x_execRetryFlash a0 s
  | revert a0 => exact x_execRevert a0 s
  | svnCommit a0 => exact x_execSvnCommit a0 s
  | imgSrcWrite a0 => exact x_execImgSrcWrite a0 s
  | imgDataWrite a0 => exact (x_execImgDataWrite a0 s).imp fun _ h => ⟨h.1, h.2.kp⟩
  | flashReadDone a0 => exact x_execFlashReadDone a0 s
  | sfdpTimeout => exact (x_execSfdpTimeout s).imp fun _ h => ⟨h.1, h.2.kp⟩
  | flashStrobeTimeout a0 => exact (x_execFlashStrobeTimeout a0 s).imp fun _ h => ⟨h.1, h.2.kp⟩
  | selftestActivityDone a0 => exact (x_execSelftestActivityDone a0 s).imp fun _ h => ⟨h.1, h.2.kp⟩
  | xmcTrainDone a0 a1 a2 => exact (x_execXmcTrainDone a0 a1 a2 s).imp fun _ h => ⟨h.1, h.2.kp⟩
  | xmcEccInitDone => exact (x_execXmcEccInitDone s).imp fun _ h => ⟨h.1, h.2.kp⟩
  | portAttemptStart a0 => exact (x_execPortAttemptStart a0 s).imp fun _ h => ⟨h.1, h.2.kp⟩
  | portAttemptEnd a0 => exact (x_execPortAttemptEnd a0 s).imp fun _ h => ⟨h.1, h.2.kp⟩
  | bruRetry => exact (x_execBruRetry s).imp fun _ h => ⟨h.1, h.2.kp⟩
  | discTimer => exact (x_execDiscTimer s).imp fun _ h => ⟨h.1, h.2.kp⟩
  | cascadeWaitTimer => exact (x_execCascadeWaitTimer s).imp fun _ h => ⟨h.1, h.2.kp⟩
  | dotWlineWrite a0 a1 => exact (x_execDotWlineWrite a0 a1 s).imp fun _ h => ⟨h.1, h.2.kp⟩
  | dotWaddWrite a0 a1 => exact (x_execDotWaddWrite a0 a1 s).imp fun _ h => ⟨h.1, h.2.kp⟩
  | dotEnable a0 a1 => exact (x_execDotEnable a0 a1 s).imp fun _ h => ⟨h.1, h.2.kp⟩
  | dotDisable a0 a1 => exact (x_execDotDisable a0 a1 s).imp fun _ h => ⟨h.1, h.2.kp⟩
  | dotClear a0 a1 => exact (x_execDotClear a0 a1 s).imp fun _ h => ⟨h.1, h.2.kp⟩
  | dotSetline a0 a1 => exact (x_execDotSetline a0 a1 s).imp fun _ h => ⟨h.1, h.2.kp⟩
  | dotRelease a0 a1 => exact (x_execDotRelease a0 a1 s).imp fun _ h => ⟨h.1, h.2.kp⟩
  | lineAssemblyDone a0 => exact (x_execLineAssemblyDone a0 s).imp fun _ h => ⟨h.1, h.2.kp⟩
  | prefetchDone a0 a1 a2 => exact (x_execPrefetchDone a0 a1 a2 s).imp fun _ h => ⟨h.1, h.2.kp⟩
  | underrunPredictTimer a0 => exact (x_execUnderrunPredictTimer a0 s).imp fun _ h => ⟨h.1, h.2.kp⟩
  | predictSample a0 => exact (x_execPredictSample a0 s).imp fun _ h => ⟨h.1, h.2.kp⟩
  | fixedClockCommit a0 => exact (x_execFixedClockCommit a0 s).imp fun _ h => ⟨h.1, h.2.kp⟩
  | lineLaunch a0 => exact (x_execLineLaunch a0 s).imp fun _ h => ⟨h.1, h.2.kp⟩
  | fireSlotStart a0 a1 => exact (x_execFireSlotStart a0 a1 s).imp fun _ h => ⟨h.1, h.2.kp⟩
  | lineWindowEnd a0 a1 => exact (x_execLineWindowEnd a0 a1 s).imp fun _ h => ⟨h.1, h.2.kp⟩
  | warmCycleTimer a0 => exact (x_execWarmCycleTimer a0 s).imp fun _ h => ⟨h.1, h.2.kp⟩
  | waveformEntryWrite a0 a1 => exact (x_execWaveformEntryWrite a0 a1 s).imp fun _ h => ⟨h.1, h.2.kp⟩
  | headKillAssert => exact (x_execHeadKillAssert s).imp fun _ h => ⟨h.1, h.2.kp⟩
  | hopenAssert a0 => exact (x_execHopenAssert a0 s).imp fun _ h => ⟨h.1, h.2.kp⟩
  | hpnEnExternalLow a0 => exact (x_execHpnEnExternalLow a0 s).imp fun _ h => ⟨h.1, h.2.kp⟩
  | jamQualified a0 => exact (x_execJamQualified a0 s).imp fun _ h => ⟨h.1, h.2.kp⟩
  | mediaOutQualified => exact (x_execMediaOutQualified s).imp fun _ h => ⟨h.1, h.2.kp⟩
  | gateSourceDeassert a0 => exact (x_execGateSourceDeassert a0 s).imp fun _ h => ⟨h.1, h.2.kp⟩
  | safeHoldKill a0 => exact (x_execSafeHoldKill a0 s).imp fun _ h => ⟨h.1, h.2.kp⟩
  | firSetorg a0 => exact (x_execFirSetorg a0 s).imp fun _ h => ⟨h.1, h.2.kp⟩
  | firCaporg a0 => exact (x_execFirCaporg a0 s).imp fun _ h => ⟨h.1, h.2.kp⟩
  | trainSetReceived a0 a1 a2 => exact (x_execTrainSetReceived a0 a1 a2 s).imp fun _ h => ⟨h.1, h.2.kp⟩
  | trainStateTimeout a0 => exact (x_execTrainStateTimeout a0 s).imp fun _ h => ⟨h.1, h.2.kp⟩
  | tsyncEchoRx a0 a1 a2 a3 a4 => exact (x_execTsyncEchoRx a0 a1 a2 a3 a4 s).imp fun _ h => ⟨h.1, h.2.kp⟩
  | tsyncProbeTimer a0 => exact (x_execTsyncProbeTimer a0 s).imp fun _ h => ⟨h.1, h.2.kp⟩
  | lackRx a0 a1 a2 => exact (x_execLackRx a0 a1 a2 s).imp fun _ h => ⟨h.1, h.2.kp⟩
  | lackTimeout a0 a1 => exact (x_execLackTimeout a0 a1 s).imp fun _ h => ⟨h.1, h.2.kp⟩
  | fireLackTimeout a0 a1 => exact (x_execFireLackTimeout a0 a1 s).imp fun _ h => ⟨h.1, h.2.kp⟩
  | memResponseRx a0 a1 a2 a3 => exact (x_execMemResponseRx a0 a1 a2 a3 s).imp fun _ h => ⟨h.1, h.2.kp⟩
  | memResponseTimeout a0 a1 => exact (x_execMemResponseTimeout a0 a1 s).imp fun _ h => ⟨h.1, h.2.kp⟩
  | teleKind0Rx a0 a1 a2 a3 a4 a5 a6 => exact (x_execTeleKind0Rx a0 a1 a2 a3 a4 a5 a6 s).imp fun _ h => ⟨h.1, h.2.kp⟩
  | teleKind1Rx a0 a1 => exact (x_execTeleKind1Rx a0 a1 s).imp fun _ h => ⟨h.1, h.2.kp⟩
  | hevtRx a0 a1 a2 a3 => exact (x_execHevtRx a0 a1 a2 a3 s).imp fun _ h => ⟨h.1, h.2.kp⟩
  | upstreamFrameBad a0 a1 => exact (x_execUpstreamFrameBad a0 a1 s).imp fun _ h => ⟨h.1, h.2.kp⟩
  | symbolLockLoss a0 => exact (x_execSymbolLockLoss a0 s).imp fun _ h => ⟨h.1, h.2.kp⟩
  | hotswapAttemptTimer a0 => exact (x_execHotswapAttemptTimer a0 s).imp fun _ h => ⟨h.1, h.2.kp⟩
  | hlpRetrain a0 a1 => exact (x_execHlpRetrain a0 a1 s).imp fun _ h => ⟨h.1, h.2.kp⟩
  | hlpMemrd a0 a1 => exact (x_execHlpMemrd a0 a1 s).imp fun _ h => ⟨h.1, h.2.kp⟩
  | hlpMemwr a0 a1 => exact (x_execHlpMemwr a0 a1 s).imp fun _ h => ⟨h.1, h.2.kp⟩
  | teleMissingTimeout a0 => exact (x_execTeleMissingTimeout a0 s).imp fun _ h => ⟨h.1, h.2.kp⟩
  | modelIdleUpdate a0 => exact (x_execModelIdleUpdate a0 s).imp fun _ h => ⟨h.1, h.2.kp⟩
  | zonePollTimer a0 => exact (x_execZonePollTimer a0 s).imp fun _ h => ⟨h.1, h.2.kp⟩
  | dieSensorSample a0 => exact (x_execDieSensorSample a0 s).imp fun _ h => ⟨h.1, h.2.kp⟩
  | fallbackComplete => exact (x_execFallbackComplete s).imp fun _ h => ⟨h.1, h.2.kp⟩
  | fallbackTtlExpiry => exact (x_execFallbackTtlExpiry s).imp fun _ h => ⟨h.1, h.2.kp⟩
  | ledgerGrant => exact (x_execLedgerGrant s).imp fun _ h => ⟨h.1, h.2.kp⟩
  | ledgerWaitTimeout a0 a1 => exact (x_execLedgerWaitTimeout a0 a1 s).imp fun _ h => ⟨h.1, h.2.kp⟩
  | journalProgramDone => exact x_execJournalProgramDone s
  | thmReseed a0 a1 => exact (x_execThmReseed a0 a1 s).imp fun _ h => ⟨h.1, h.2.kp⟩
  | thmClrmax a0 a1 => exact (x_execThmClrmax a0 a1 s).imp fun _ h => ⟨h.1, h.2.kp⟩
  | nhlHostresWrite a0 => exact (x_execNhlHostresWrite a0 s).imp fun _ h => ⟨h.1, h.2.kp⟩
  | tableEntryWrite a0 a1 a2 => exact (x_execTableEntryWrite a0 a1 a2 s).imp fun _ h => ⟨h.1, h.2.kp⟩
  | scanBlockTimeout a0 => exact (x_execScanBlockTimeout a0 s).imp fun _ h => ⟨h.1, h.2.kp⟩
  | nhlGapDeclare a0 a1 => exact (x_execNhlGapDeclare a0 a1 s).imp fun _ h => ⟨h.1, h.2.kp⟩
  | serviceLineTimer a0 => exact (x_execServiceLineTimer a0 s).imp fun _ h => ⟨h.1, h.2.kp⟩
  | autoSpitTimer a0 => exact (x_execAutoSpitTimer a0 s).imp fun _ h => ⟨h.1, h.2.kp⟩
  | nhlScan a0 a1 => exact (x_execNhlScan a0 a1 s).imp fun _ h => ⟨h.1, h.2.kp⟩
  | nhlSpit a0 a1 => exact (x_execNhlSpit a0 a1 s).imp fun _ h => ⟨h.1, h.2.kp⟩
  | nhlAbort a0 a1 => exact (x_execNhlAbort a0 a1 s).imp fun _ h => ⟨h.1, h.2.kp⟩
  | nhlRebuild a0 a1 => exact (x_execNhlRebuild a0 a1 s).imp fun _ h => ⟨h.1, h.2.kp⟩
  | nhlClear a0 a1 => exact (x_execNhlClear a0 a1 s).imp fun _ h => ⟨h.1, h.2.kp⟩
  | scnSetjob => exact (x_execScnSetjob s).imp fun _ h => ⟨h.1, h.2.kp⟩
  | scnEndjob => exact (x_execScnEndjob s).imp fun _ h => ⟨h.1, h.2.kp⟩
  | sweepLastSlotEnd => exact (x_execSweepLastSlotEnd s).imp fun _ h => ⟨h.1, h.2.kp⟩
  | carriageAtRest => exact (x_execCarriageAtRest s).imp fun _ h => ⟨h.1, h.2.kp⟩
  | feedComplete => exact (x_execFeedComplete s).imp fun _ h => ⟨h.1, h.2.kp⟩
  | dwellTimer => exact (x_execDwellTimer s).imp fun _ h => ⟨h.1, h.2.kp⟩
  | turnaroundGo => exact (x_execTurnaroundGo s).imp fun _ h => ⟨h.1, h.2.kp⟩
  | encoderEdge a0 a1 a2 => exact (x_execEncoderEdge a0 a1 a2 s).imp fun _ h => ⟨h.1, h.2.kp⟩
  | indexEdge a0 => exact (x_execIndexEdge a0 s).imp fun _ h => ⟨h.1, h.2.kp⟩
  | sincosSample a0 a1 a2 => exact (x_execSincosSample a0 a1 a2 s).imp fun _ h => ⟨h.1, h.2.kp⟩
  | signalOk a0 => exact (x_execSignalOk a0 s).imp fun _ h => ⟨h.1, h.2.kp⟩
  | sincosSpeedTick a0 => exact (x_execSincosSpeedTick a0 s).imp fun _ h => ⟨h.1, h.2.kp⟩
  | speedStandstillTimeout a0 => exact (x_execSpeedStandstillTimeout a0 s).imp fun _ h => ⟨h.1, h.2.kp⟩
  | posIntRead a0 => exact (x_execPosIntRead a0 s).imp fun _ h => ⟨h.1, h.2.kp⟩
  | posPreset a0 => exact (x_execPosPreset a0 s).imp fun _ h => ⟨h.1, h.2.kp⟩
  | posClrcnt a0 => exact (x_execPosClrcnt a0 s).imp fun _ h => ⟨h.1, h.2.kp⟩
  | cmpArm a0 a1 => exact (x_execCmpArm a0 a1 s).imp fun _ h => ⟨h.1, h.2.kp⟩
  | cmpDisarm a0 a1 => exact (x_execCmpDisarm a0 a1 s).imp fun _ h => ⟨h.1, h.2.kp⟩
  | eeOutputStep a0 => exact (x_execEeOutputStep a0 s).imp fun _ h => ⟨h.1, h.2.kp⟩
  | stpEnable a0 => exact (x_execStpEnable a0 s).imp fun _ h => ⟨h.1, h.2.kp⟩
  | stpDisable a0 => exact (x_execStpDisable a0 s).imp fun _ h => ⟨h.1, h.2.kp⟩
  | stpMove a0 => exact (x_execStpMove a0 s).imp fun _ h => ⟨h.1, h.2.kp⟩
  | stpJog a0 a1 => exact (x_execStpJog a0 a1 s).imp fun _ h => ⟨h.1, h.2.kp⟩
  | stpStop a0 => exact (x_execStpStop a0 s).imp fun _ h => ⟨h.1, h.2.kp⟩
  | stpEstop a0 => exact (x_execStpEstop a0 s).imp fun _ h => ⟨h.1, h.2.kp⟩
  | stpHome a0 => exact (x_execStpHome a0 s).imp fun _ h => ⟨h.1, h.2.kp⟩
  | stpSetpos a0 => exact (x_execStpSetpos a0 s).imp fun _ h => ⟨h.1, h.2.kp⟩
  | stpClrfault a0 a1 => exact (x_execStpClrfault a0 a1 s).imp fun _ h => ⟨h.1, h.2.kp⟩
  | profileUpdate a0 => exact (x_execProfileUpdate a0 s).imp fun _ h => ⟨h.1, h.2.kp⟩
  | stpBridgeFault a0 => exact (x_execStpBridgeFault a0 s).imp fun _ h => ⟨h.1, h.2.kp⟩
  | limitQualified a0 a1 a2 => exact (x_execLimitQualified a0 a1 a2 s).imp fun _ h => ⟨h.1, h.2.kp⟩
  | homeEdgeQualified a0 a1 a2 a3 => exact (x_execHomeEdgeQualified a0 a1 a2 a3 s).imp fun _ h => ⟨h.1, h.2.kp⟩
  | homeChatterTimeout a0 => exact (x_execHomeChatterTimeout a0 s).imp fun _ h => ⟨h.1, h.2.kp⟩
  | holdDelayExpiry a0 => exact (x_execHoldDelayExpiry a0 s).imp fun _ h => ⟨h.1, h.2.kp⟩
  | motStart a0 => exact (x_execMotStart a0 s).imp fun _ h => ⟨h.1, h.2.kp⟩
  | motStop a0 => exact (x_execMotStop a0 s).imp fun _ h => ⟨h.1, h.2.kp⟩
  | motCoast a0 => exact (x_execMotCoast a0 s).imp fun _ h => ⟨h.1, h.2.kp⟩
  | motEstop a0 => exact (x_execMotEstop a0 s).imp fun _ h => ⟨h.1, h.2.kp⟩
  | motMove a0 => exact (x_execMotMove a0 s).imp fun _ h => ⟨h.1, h.2.kp⟩
  | motClrfault a0 a1 a2 => exact (x_execMotClrfault a0 a1 a2 s).imp fun _ h => ⟨h.1, h.2.kp⟩
  | motGateFault a0 => exact (x_execMotGateFault a0 s).imp fun _ h => ⟨h.1, h.2.kp⟩
  | motOvercurrent a0 a1 a2 => exact (x_execMotOvercurrent a0 a1 a2 s).imp fun _ h => ⟨h.1, h.2.kp⟩
  | pwmPeriodUpdate a0 a1 a2 a3 => exact (x_execPwmPeriodUpdate a0 a1 a2 a3 s).imp fun _ h => ⟨h.1, h.2.kp⟩
  | senseWindowEnd a0 => exact (x_execSenseWindowEnd a0 s).imp fun _ h => ⟨h.1, h.2.kp⟩
  | zeroCrossing a0 a1 a2 => exact (x_execZeroCrossing a0 a1 a2 s).imp fun _ h => ⟨h.1, h.2.kp⟩
  | alignEnd a0 => exact (x_execAlignEnd a0 s).imp fun _ h => ⟨h.1, h.2.kp⟩
  | reverseTimeout a0 => exact (x_execReverseTimeout a0 s).imp fun _ h => ⟨h.1, h.2.kp⟩
  | revbrakeHoldEnd a0 => exact (x_execRevbrakeHoldEnd a0 s).imp fun _ h => ⟨h.1, h.2.kp⟩
  | reacqWindowEnd a0 => exact (x_execReacqWindowEnd a0 s).imp fun _ h => ⟨h.1, h.2.kp⟩
  | vbusLowTimeout a0 => exact (x_execVbusLowTimeout a0 s).imp fun _ h => ⟨h.1, h.2.kp⟩
  | coastTimeout a0 => exact (x_execCoastTimeout a0 s).imp fun _ h => ⟨h.1, h.2.kp⟩
  | ssSstop => exact (x_execSsSstop s).imp fun _ h => ⟨h.1, h.2.kp⟩
  | ssAbandon => exact (x_execSsAbandon s).imp fun _ h => ⟨h.1, h.2.kp⟩
  | ssDrainEnd => exact (x_execSsDrainEnd s).imp fun _ h => ⟨h.1, h.2.kp⟩
  | ssDecelDone => exact (x_execSsDecelDone s).imp fun _ h => ⟨h.1, h.2.kp⟩
  | ssBackupDone => exact (x_execSsBackupDone s).imp fun _ h => ⟨h.1, h.2.kp⟩
  | ssRefillGate => exact (x_execSsRefillGate s).imp fun _ h => ⟨h.1, h.2.kp⟩
  | ssAccelDone => exact (x_execSsAccelDone s).imp fun _ h => ⟨h.1, h.2.kp⟩
  | casTsReceived a0 a1 a2 => exact (x_execCasTsReceived a0 a1 a2 s).imp fun _ h => ⟨h.1, h.2.kp⟩
  | casTrainTimeout a0 => exact (x_execCasTrainTimeout a0 s).imp fun _ h => ⟨h.1, h.2.kp⟩
  | casTsyncEchoRx a0 a1 a2 a3 => exact (x_execCasTsyncEchoRx a0 a1 a2 a3 s).imp fun _ h => ⟨h.1, h.2.kp⟩
  | casProbeTimer => exact (x_execCasProbeTimer s).imp fun _ h => ⟨h.1, h.2.kp⟩
  | bellSendTimer => exact (x_execBellSendTimer s).imp fun _ h => ⟨h.1, h.2.kp⟩
  | bellSetRx a0 => exact (x_execBellSetRx a0 s).imp fun _ h => ⟨h.1, h.2.kp⟩
  | localBellTick a0 => exact (x_execLocalBellTick a0 s).imp fun _ h => ⟨h.1, h.2.kp⟩
  | trgSetRx a0 a1 => exact (x_execTrgSetRx a0 a1 s).imp fun _ h => ⟨h.1, h.2.kp⟩
  | discRx a0 a1 a2 => exact (x_execDiscRx a0 a1 a2 s).imp fun _ h => ⟨h.1, h.2.kp⟩
  | dansRx a0 a1 => exact (x_execDansRx a0 a1 s).imp fun _ h => ⟨h.1, h.2.kp⟩
  | doneRx a0 a1 a2 a3 a4 => exact (x_execDoneRx a0 a1 a2 a3 a4 s).imp fun _ h => ⟨h.1, h.2.kp⟩
  | rediscRx a0 => exact (x_execRediscRx a0 s).imp fun _ h => ⟨h.1, h.2.kp⟩
  | msgStartRx a0 a1 => exact (x_execMsgStartRx a0 a1 s).imp fun _ h => ⟨h.1, h.2.kp⟩
  | startTick => exact (x_execStartTick s).imp fun _ h => ⟨h.1, h.2.kp⟩
  | msgStopRx a0 => exact (x_execMsgStopRx a0 s).imp fun _ h => ⟨h.1, h.2.kp⟩
  | peerStopRx a0 a1 => exact (x_execPeerStopRx a0 a1 s).imp fun _ h => ⟨h.1, h.2.kp⟩
  | peerHaltRx a0 a1 => exact (x_execPeerHaltRx a0 a1 s).imp fun _ h => ⟨h.1, h.2.kp⟩
  | ssreqRx a0 a1 => exact (x_execSsreqRx a0 a1 s).imp fun _ h => ⟨h.1, h.2.kp⟩
  | ssdecRx a0 a1 => exact (x_execSsdecRx a0 a1 s).imp fun _ h => ⟨h.1, h.2.kp⟩
  | ssreadyRx a0 => exact (x_execSsreadyRx a0 s).imp fun _ h => ⟨h.1, h.2.kp⟩
  | ssgoRx a0 => exact (x_execSsgoRx a0 s).imp fun _ h => ⟨h.1, h.2.kp⟩
  | ssforbidRx a0 a1 => exact (x_execSsforbidRx a0 a1 s).imp fun _ h => ⟨h.1, h.2.kp⟩
  | ssabandonRx a0 => exact (x_execSsabandonRx a0 s).imp fun _ h => ⟨h.1, h.2.kp⟩
  | userMsgRx a0 a1 => exact (x_execUserMsgRx a0 a1 s).imp fun _ h => ⟨h.1, h.2.kp⟩
  | casAckRx a0 a1 => exact (x_execCasAckRx a0 a1 s).imp fun _ h => ⟨h.1, h.2.kp⟩
  | casNakRx a0 a1 a2 a3 => exact (x_execCasNakRx a0 a1 a2 a3 s).imp fun _ h => ⟨h.1, h.2.kp⟩
  | casAckTimeout a0 => exact (x_execCasAckTimeout a0 s).imp fun _ h => ⟨h.1, h.2.kp⟩
  | statRx a0 a1 a2 a3 a4 a5 => exact (x_execStatRx a0 a1 a2 a3 a4 a5 s).imp fun _ h => ⟨h.1, h.2.kp⟩
  | statTimer => exact (x_execStatTimer s).imp fun _ h => ⟨h.1, h.2.kp⟩
  | memberLostTimeout a0 => exact (x_execMemberLostTimeout a0 s).imp fun _ h => ⟨h.1, h.2.kp⟩
  | posFrameRx a0 a1 a2 a3 a4 a5 a6 => exact (x_execPosFrameRx a0 a1 a2 a3 a4 a5 a6 s).imp fun _ h => ⟨h.1, h.2.kp⟩
  | casLinkLoss a0 a1 => exact (x_execCasLinkLoss a0 a1 s).imp fun _ h => ⟨h.1, h.2.kp⟩
  | casSend => exact (x_execCasSend s).imp fun _ h => ⟨h.1, h.2.kp⟩
  | casResync => exact (x_execCasResync s).imp fun _ h => ⟨h.1, h.2.kp⟩
  | casClrcnt => exact (x_execCasClrcnt s).imp fun _ h => ⟨h.1, h.2.kp⟩
  | dmaStart a0 => exact (x_execDmaStart a0 s).imp fun _ h => ⟨h.1, h.2.kp⟩
  | dmaPause a0 => exact (x_execDmaPause a0 s).imp fun _ h => ⟨h.1, h.2.kp⟩
  | dmaDrain a0 => exact (x_execDmaDrain a0 s).imp fun _ h => ⟨h.1, h.2.kp⟩
  | dmaResume a0 => exact (x_execDmaResume a0 s).imp fun _ h => ⟨h.1, h.2.kp⟩
  | dmaAbort a0 => exact (x_execDmaAbort a0 s).imp fun _ h => ⟨h.1, h.2.kp⟩
  | dmaArm a0 => exact (x_execDmaArm a0 s).imp fun _ h => ⟨h.1, h.2.kp⟩
  | dmaDisarm a0 => exact (x_execDmaDisarm a0 s).imp fun _ h => ⟨h.1, h.2.kp⟩
  | dmaClrerr a0 => exact (x_execDmaClrerr a0 s).imp fun _ h => ⟨h.1, h.2.kp⟩
  | dmaNop a0 => exact (x_execDmaNop a0 s).imp fun _ h => ⟨h.1, h.2.kp⟩
  | dmaSrc a0 => exact (x_execDmaSrc a0 s).imp fun _ h => ⟨h.1, h.2.kp⟩
  | dmaDst a0 => exact (x_execDmaDst a0 s).imp fun _ h => ⟨h.1, h.2.kp⟩
  | dmaSpat a0 => exact (x_execDmaSpat a0 s).imp fun _ h => ⟨h.1, h.2.kp⟩
  | dmaDpat a0 => exact (x_execDmaDpat a0 s).imp fun _ h => ⟨h.1, h.2.kp⟩
  | dmaXfer a0 => exact (x_execDmaXfer a0 s).imp fun _ h => ⟨h.1, h.2.kp⟩
  | dmaSetc a0 => exact (x_execDmaSetc a0 s).imp fun _ h => ⟨h.1, h.2.kp⟩
  | dmaLoop a0 => exact (x_execDmaLoop a0 s).imp fun _ h => ⟨h.1, h.2.kp⟩
  | dmaWait a0 => exact (x_execDmaWait a0 s).imp fun _ h => ⟨h.1, h.2.kp⟩
  | dmaSignal a0 => exact (x_execDmaSignal a0 s).imp fun _ h => ⟨h.1, h.2.kp⟩
  | dmaWri a0 a1 => exact (x_execDmaWri a0 a1 s).imp fun _ h => ⟨h.1, h.2.kp⟩
  | dmaCpl a0 => exact (x_execDmaCpl a0 s).imp fun _ h => ⟨h.1, h.2.kp⟩
  | dmaSwap a0 => exact (x_execDmaSwap a0 s).imp fun _ h => ⟨h.1, h.2.kp⟩
  | dmaEnd a0 => exact (x_execDmaEnd a0 s).imp fun _ h => ⟨h.1, h.2.kp⟩
  | dmaReadCompletion a0 a1 a2 => exact (x_execDmaReadCompletion a0 a1 a2 s).imp fun _ h => ⟨h.1, h.2.kp⟩
  | dmaWriteComplete a0 a1 => exact (x_execDmaWriteComplete a0 a1 s).imp fun _ h => ⟨h.1, h.2.kp⟩
  | dmaPauseDone a0 => exact (x_execDmaPauseDone a0 s).imp fun _ h => ⟨h.1, h.2.kp⟩
  | dmaWaitSatisfied a0 => exact (x_execDmaWaitSatisfied a0 s).imp fun _ h => ⟨h.1, h.2.kp⟩
  | dmaWaitTimeout a0 => exact (x_execDmaWaitTimeout a0 s).imp fun _ h => ⟨h.1, h.2.kp⟩
  | cqfullRelease a0 => exact (x_execCqfullRelease a0 s).imp fun _ h => ⟨h.1, h.2.kp⟩
  | cqIrqTimer a0 => exact (x_execCqIrqTimer a0 s).imp fun _ h => ⟨h.1, h.2.kp⟩
  | cqHeadWrite a0 a1 => exact (x_execCqHeadWrite a0 a1 s).imp fun _ h => ⟨h.1, h.2.kp⟩
  | sigraiseAdd a0 a1 => exact (x_execSigraiseAdd a0 a1 s).imp fun _ h => ⟨h.1, h.2.kp⟩
  | sigraiseSet a0 a1 => exact (x_execSigraiseSet a0 a1 s).imp fun _ h => ⟨h.1, h.2.kp⟩
  | shadowRegisterWrite a0 a1 a2 => exact (x_execShadowRegisterWrite a0 a1 a2 s).imp fun _ h => ⟨h.1, h.2.kp⟩
  | memSleep a0 => exact (x_execMemSleep a0 s).imp fun _ h => ⟨h.1, h.2.kp⟩
  | memWake a0 => exact (x_execMemWake a0 s).imp fun _ h => ⟨h.1, h.2.kp⟩
  | memMarch a0 => exact (x_execMemMarch a0 s).imp fun _ h => ⟨h.1, h.2.kp⟩
  | memStopmarch a0 => exact (x_execMemStopmarch a0 s).imp fun _ h => ⟨h.1, h.2.kp⟩
  | bankTransitionDone a0 => exact (x_execBankTransitionDone a0 s).imp fun _ h => ⟨h.1, h.2.kp⟩
  | marchWindowStart => exact (x_execMarchWindowStart s).imp fun _ h => ⟨h.1, h.2.kp⟩
  | marchWindowDone a0 => exact (x_execMarchWindowDone a0 s).imp fun _ h => ⟨h.1, h.2.kp⟩
  | marchTestDone a0 => exact (x_execMarchTestDone a0 s).imp fun _ h => ⟨h.1, h.2.kp⟩
  | bar2Access a0 a1 => exact (x_execBar2Access a0 a1 s).imp fun _ h => ⟨h.1, h.2.kp⟩
  | bar4Access a0 a1 a2 => exact (x_execBar4Access a0 a1 a2 s).imp fun _ h => ⟨h.1, h.2.kp⟩
  | hstAccessBad a0 a1 a2 => exact (x_execHstAccessBad a0 a1 a2 s).imp fun _ h => ⟨h.1, h.2.kp⟩
  | invarWrite a0 a1 a2 a3 => exact (x_execInvarWrite a0 a1 a2 a3 s).imp fun _ h => ⟨h.1, h.2.kp⟩
  | invarLock => exact (x_execInvarLock s).imp fun _ h => ⟨h.1, h.2.kp⟩
  | w1cFlagClear a0 a1 a2 => exact (x_execW1cFlagClear a0 a1 a2 s).imp fun _ h => ⟨h.1, h.2.kp⟩
  | occClearSelected => exact (x_execOccClearSelected s).imp fun _ h => ⟨h.1, h.2.kp⟩
  | occClearAll => exact (x_execOccClearAll s).imp fun _ h => ⟨h.1, h.2.kp⟩
  | bmeClear => exact (x_execBmeClear s).imp fun _ h => ⟨h.1, h.2.kp⟩
  | bmeSet => exact (x_execBmeSet s).imp fun _ h => ⟨h.1, h.2.kp⟩
  | aerError a0 a1 a2 => exact (x_execAerError a0 a1 a2 s).imp fun _ h => ⟨h.1, h.2.kp⟩
  | l1Entry => exact (x_execL1Entry s).imp fun _ h => ⟨h.1, h.2.kp⟩
  | msixUnmask a0 => exact (x_execMsixUnmask a0 s).imp fun _ h => ⟨h.1, h.2.kp⟩
  | evheadWrite a0 => exact (x_execEvheadWrite a0 s).imp fun _ h => ⟨h.1, h.2.kp⟩
  | evcfgWrite a0 => exact (x_execEvcfgWrite a0 s).imp fun _ h => ⟨h.1, h.2.kp⟩
  | evIrqTimer => exact (x_execEvIrqTimer s).imp fun _ h => ⟨h.1, h.2.kp⟩
  | lanternWriteDone => exact (x_execLanternWriteDone s).imp fun _ h => ⟨h.1, h.2.kp⟩
  | i2cPointerWrite a0 a1 a2 => exact (x_execI2cPointerWrite a0 a1 a2 s).imp fun _ h => ⟨h.1, h.2.kp⟩
  | i2cRead => exact (x_execI2cRead s).imp fun _ h => ⟨h.1, h.2.kp⟩
  | i2cSnapshot => exact (x_execI2cSnapshot s).imp fun _ h => ⟨h.1, h.2.kp⟩
  | registerWrite a0 a1 a2 => exact x_execRegisterWrite a0 a1 a2 s
  | adcBackgroundSample a0 a1 => exact (x_execAdcBackgroundSample a0 a1 s).imp fun _ h => ⟨h.1, h.2.kp⟩
  | avsCodeStep a0 => exact (x_execAvsCodeStep a0 s).imp fun _ h => ⟨h.1, h.2.kp⟩
  | powerOn => exact (x_execPowerOn s).imp fun _ h => ⟨h.1, h.2.kp⟩
  | powerLoss => exact x_execPowerLoss s
  | pciePerstRelease => exact (x_execPciePerstRelease s).imp fun _ h => ⟨h.1, h.2.kp⟩
  | pcieLinkUp a0 a1 => exact (x_execPcieLinkUp a0 a1 s).imp fun _ h => ⟨h.1, h.2.kp⟩
  | tsyncAcqProbeTimer a0 => exact (x_execTsyncAcqProbeTimer a0 s).imp fun _ h => ⟨h.1, h.2.kp⟩
  | casAcqProbeTimer => exact (x_execCasAcqProbeTimer s).imp fun _ h => ⟨h.1, h.2.kp⟩
  | ssTdReached => exact (x_execSsTdReached s).imp fun _ h => ⟨h.1, h.2.kp⟩
  | usageSummaryTimer => exact (x_execUsageSummaryTimer s).imp fun _ h => ⟨h.1, h.2.kp⟩
  | reactiveDelayedCommit a0 => exact (x_execReactiveDelayedCommit a0 s).imp fun _ h => ⟨h.1, h.2.kp⟩
  | speedSampleTick a0 => exact (x_execSpeedSampleTick a0 s).imp fun _ h => ⟨h.1, h.2.kp⟩
  | stepperPwmPeriod a0 a1 a2 => exact (x_execStepperPwmPeriod a0 a1 a2 s).imp fun _ h => ⟨h.1, h.2.kp⟩
  | hostReadTimeout a0 a1 => exact (x_execHostReadTimeout a0 a1 s).imp fun _ h => ⟨h.1, h.2.kp⟩

/-- A command outside the loader and the resets leaves the image and the journal's records. -/
theorem exec_fa (c : Instr) (s : State) (h : changesStore c = false) : ∃ t, exec c s = .next t ∧ Fa s t := by
  cases c with
  | porstAssert a0 => cases h
  | warmrstAssert a0 => cases h
  | porstRelease a0 a1 a2 => exact x_execPorstRelease a0 a1 a2 s
  | warmrstRelease => exact x_execWarmrstRelease s
  | rootVcoLock => exact x_execRootVcoLock s
  | clockUnlock a0 => exact (x_execClockUnlock a0 s).imp fun _ h => ⟨h.1, h.2.fa⟩
  | clockRelock a0 => exact x_execClockRelock a0 s
  | throttleApply => exact (x_execThrottleApply s).imp fun _ h => ⟨h.1, h.2.fa⟩
  | glbArm => exact x_execGlbArm s
  | glbStart => exact x_execGlbStart s
  | glbStop => exact (x_execGlbStop s).imp fun _ h => ⟨h.1, h.2.fa⟩
  | glbDisarm => exact x_execGlbDisarm s
  | glbRecover => exact x_execGlbRecover s
  | glbReload => exact x_execGlbReload s
  | glbLantern => exact (x_execGlbLantern s).imp fun _ h => ⟨h.1, h.2.fa⟩
  | glbShutdown => exact (x_execGlbShutdown s).imp fun _ h => ⟨h.1, h.2.fa⟩
  | stoppingComplete => exact x_execStoppingComplete s
  | earlyAccess a0 a1 a2 => exact (x_execEarlyAccess a0 a1 a2 s).imp fun _ h => ⟨h.1, h.2.fa⟩
  | pciePerstAssert => exact (x_execPciePerstAssert s).imp fun _ h => ⟨h.1, h.2.fa⟩
  | pushBegin a0 => cases h
  | pushEnd a0 => cases h
  | retryFlash a0 => cases h
  | revert a0 => cases h
  | svnCommit a0 => cases h
  | imgSrcWrite a0 => cases h
  | imgDataWrite a0 => exact (x_execImgDataWrite a0 s).imp fun _ h => ⟨h.1, h.2.fa⟩
  | flashReadDone a0 => cases h
  | sfdpTimeout => exact (x_execSfdpTimeout s).imp fun _ h => ⟨h.1, h.2.fa⟩
  | flashStrobeTimeout a0 => exact (x_execFlashStrobeTimeout a0 s).imp fun _ h => ⟨h.1, h.2.fa⟩
  | selftestActivityDone a0 => exact (x_execSelftestActivityDone a0 s).imp fun _ h => ⟨h.1, h.2.fa⟩
  | xmcTrainDone a0 a1 a2 => exact (x_execXmcTrainDone a0 a1 a2 s).imp fun _ h => ⟨h.1, h.2.fa⟩
  | xmcEccInitDone => exact (x_execXmcEccInitDone s).imp fun _ h => ⟨h.1, h.2.fa⟩
  | portAttemptStart a0 => exact (x_execPortAttemptStart a0 s).imp fun _ h => ⟨h.1, h.2.fa⟩
  | portAttemptEnd a0 => exact (x_execPortAttemptEnd a0 s).imp fun _ h => ⟨h.1, h.2.fa⟩
  | bruRetry => exact (x_execBruRetry s).imp fun _ h => ⟨h.1, h.2.fa⟩
  | discTimer => exact (x_execDiscTimer s).imp fun _ h => ⟨h.1, h.2.fa⟩
  | cascadeWaitTimer => exact (x_execCascadeWaitTimer s).imp fun _ h => ⟨h.1, h.2.fa⟩
  | dotWlineWrite a0 a1 => exact (x_execDotWlineWrite a0 a1 s).imp fun _ h => ⟨h.1, h.2.fa⟩
  | dotWaddWrite a0 a1 => exact (x_execDotWaddWrite a0 a1 s).imp fun _ h => ⟨h.1, h.2.fa⟩
  | dotEnable a0 a1 => exact (x_execDotEnable a0 a1 s).imp fun _ h => ⟨h.1, h.2.fa⟩
  | dotDisable a0 a1 => exact (x_execDotDisable a0 a1 s).imp fun _ h => ⟨h.1, h.2.fa⟩
  | dotClear a0 a1 => exact (x_execDotClear a0 a1 s).imp fun _ h => ⟨h.1, h.2.fa⟩
  | dotSetline a0 a1 => exact (x_execDotSetline a0 a1 s).imp fun _ h => ⟨h.1, h.2.fa⟩
  | dotRelease a0 a1 => exact (x_execDotRelease a0 a1 s).imp fun _ h => ⟨h.1, h.2.fa⟩
  | lineAssemblyDone a0 => exact (x_execLineAssemblyDone a0 s).imp fun _ h => ⟨h.1, h.2.fa⟩
  | prefetchDone a0 a1 a2 => exact (x_execPrefetchDone a0 a1 a2 s).imp fun _ h => ⟨h.1, h.2.fa⟩
  | underrunPredictTimer a0 => exact (x_execUnderrunPredictTimer a0 s).imp fun _ h => ⟨h.1, h.2.fa⟩
  | predictSample a0 => exact (x_execPredictSample a0 s).imp fun _ h => ⟨h.1, h.2.fa⟩
  | fixedClockCommit a0 => exact (x_execFixedClockCommit a0 s).imp fun _ h => ⟨h.1, h.2.fa⟩
  | lineLaunch a0 => exact (x_execLineLaunch a0 s).imp fun _ h => ⟨h.1, h.2.fa⟩
  | fireSlotStart a0 a1 => exact (x_execFireSlotStart a0 a1 s).imp fun _ h => ⟨h.1, h.2.fa⟩
  | lineWindowEnd a0 a1 => exact (x_execLineWindowEnd a0 a1 s).imp fun _ h => ⟨h.1, h.2.fa⟩
  | warmCycleTimer a0 => exact (x_execWarmCycleTimer a0 s).imp fun _ h => ⟨h.1, h.2.fa⟩
  | waveformEntryWrite a0 a1 => exact (x_execWaveformEntryWrite a0 a1 s).imp fun _ h => ⟨h.1, h.2.fa⟩
  | headKillAssert => exact (x_execHeadKillAssert s).imp fun _ h => ⟨h.1, h.2.fa⟩
  | hopenAssert a0 => exact (x_execHopenAssert a0 s).imp fun _ h => ⟨h.1, h.2.fa⟩
  | hpnEnExternalLow a0 => exact (x_execHpnEnExternalLow a0 s).imp fun _ h => ⟨h.1, h.2.fa⟩
  | jamQualified a0 => exact (x_execJamQualified a0 s).imp fun _ h => ⟨h.1, h.2.fa⟩
  | mediaOutQualified => exact (x_execMediaOutQualified s).imp fun _ h => ⟨h.1, h.2.fa⟩
  | gateSourceDeassert a0 => exact (x_execGateSourceDeassert a0 s).imp fun _ h => ⟨h.1, h.2.fa⟩
  | safeHoldKill a0 => exact (x_execSafeHoldKill a0 s).imp fun _ h => ⟨h.1, h.2.fa⟩
  | firSetorg a0 => exact (x_execFirSetorg a0 s).imp fun _ h => ⟨h.1, h.2.fa⟩
  | firCaporg a0 => exact (x_execFirCaporg a0 s).imp fun _ h => ⟨h.1, h.2.fa⟩
  | trainSetReceived a0 a1 a2 => exact (x_execTrainSetReceived a0 a1 a2 s).imp fun _ h => ⟨h.1, h.2.fa⟩
  | trainStateTimeout a0 => exact (x_execTrainStateTimeout a0 s).imp fun _ h => ⟨h.1, h.2.fa⟩
  | tsyncEchoRx a0 a1 a2 a3 a4 => exact (x_execTsyncEchoRx a0 a1 a2 a3 a4 s).imp fun _ h => ⟨h.1, h.2.fa⟩
  | tsyncProbeTimer a0 => exact (x_execTsyncProbeTimer a0 s).imp fun _ h => ⟨h.1, h.2.fa⟩
  | lackRx a0 a1 a2 => exact (x_execLackRx a0 a1 a2 s).imp fun _ h => ⟨h.1, h.2.fa⟩
  | lackTimeout a0 a1 => exact (x_execLackTimeout a0 a1 s).imp fun _ h => ⟨h.1, h.2.fa⟩
  | fireLackTimeout a0 a1 => exact (x_execFireLackTimeout a0 a1 s).imp fun _ h => ⟨h.1, h.2.fa⟩
  | memResponseRx a0 a1 a2 a3 => exact (x_execMemResponseRx a0 a1 a2 a3 s).imp fun _ h => ⟨h.1, h.2.fa⟩
  | memResponseTimeout a0 a1 => exact (x_execMemResponseTimeout a0 a1 s).imp fun _ h => ⟨h.1, h.2.fa⟩
  | teleKind0Rx a0 a1 a2 a3 a4 a5 a6 => exact (x_execTeleKind0Rx a0 a1 a2 a3 a4 a5 a6 s).imp fun _ h => ⟨h.1, h.2.fa⟩
  | teleKind1Rx a0 a1 => exact (x_execTeleKind1Rx a0 a1 s).imp fun _ h => ⟨h.1, h.2.fa⟩
  | hevtRx a0 a1 a2 a3 => exact (x_execHevtRx a0 a1 a2 a3 s).imp fun _ h => ⟨h.1, h.2.fa⟩
  | upstreamFrameBad a0 a1 => exact (x_execUpstreamFrameBad a0 a1 s).imp fun _ h => ⟨h.1, h.2.fa⟩
  | symbolLockLoss a0 => exact (x_execSymbolLockLoss a0 s).imp fun _ h => ⟨h.1, h.2.fa⟩
  | hotswapAttemptTimer a0 => exact (x_execHotswapAttemptTimer a0 s).imp fun _ h => ⟨h.1, h.2.fa⟩
  | hlpRetrain a0 a1 => exact (x_execHlpRetrain a0 a1 s).imp fun _ h => ⟨h.1, h.2.fa⟩
  | hlpMemrd a0 a1 => exact (x_execHlpMemrd a0 a1 s).imp fun _ h => ⟨h.1, h.2.fa⟩
  | hlpMemwr a0 a1 => exact (x_execHlpMemwr a0 a1 s).imp fun _ h => ⟨h.1, h.2.fa⟩
  | teleMissingTimeout a0 => exact (x_execTeleMissingTimeout a0 s).imp fun _ h => ⟨h.1, h.2.fa⟩
  | modelIdleUpdate a0 => exact (x_execModelIdleUpdate a0 s).imp fun _ h => ⟨h.1, h.2.fa⟩
  | zonePollTimer a0 => exact (x_execZonePollTimer a0 s).imp fun _ h => ⟨h.1, h.2.fa⟩
  | dieSensorSample a0 => exact (x_execDieSensorSample a0 s).imp fun _ h => ⟨h.1, h.2.fa⟩
  | fallbackComplete => exact (x_execFallbackComplete s).imp fun _ h => ⟨h.1, h.2.fa⟩
  | fallbackTtlExpiry => exact (x_execFallbackTtlExpiry s).imp fun _ h => ⟨h.1, h.2.fa⟩
  | ledgerGrant => exact (x_execLedgerGrant s).imp fun _ h => ⟨h.1, h.2.fa⟩
  | ledgerWaitTimeout a0 a1 => exact (x_execLedgerWaitTimeout a0 a1 s).imp fun _ h => ⟨h.1, h.2.fa⟩
  | journalProgramDone => cases h
  | thmReseed a0 a1 => exact (x_execThmReseed a0 a1 s).imp fun _ h => ⟨h.1, h.2.fa⟩
  | thmClrmax a0 a1 => exact (x_execThmClrmax a0 a1 s).imp fun _ h => ⟨h.1, h.2.fa⟩
  | nhlHostresWrite a0 => exact (x_execNhlHostresWrite a0 s).imp fun _ h => ⟨h.1, h.2.fa⟩
  | tableEntryWrite a0 a1 a2 => exact (x_execTableEntryWrite a0 a1 a2 s).imp fun _ h => ⟨h.1, h.2.fa⟩
  | scanBlockTimeout a0 => exact (x_execScanBlockTimeout a0 s).imp fun _ h => ⟨h.1, h.2.fa⟩
  | nhlGapDeclare a0 a1 => exact (x_execNhlGapDeclare a0 a1 s).imp fun _ h => ⟨h.1, h.2.fa⟩
  | serviceLineTimer a0 => exact (x_execServiceLineTimer a0 s).imp fun _ h => ⟨h.1, h.2.fa⟩
  | autoSpitTimer a0 => exact (x_execAutoSpitTimer a0 s).imp fun _ h => ⟨h.1, h.2.fa⟩
  | nhlScan a0 a1 => exact (x_execNhlScan a0 a1 s).imp fun _ h => ⟨h.1, h.2.fa⟩
  | nhlSpit a0 a1 => exact (x_execNhlSpit a0 a1 s).imp fun _ h => ⟨h.1, h.2.fa⟩
  | nhlAbort a0 a1 => exact (x_execNhlAbort a0 a1 s).imp fun _ h => ⟨h.1, h.2.fa⟩
  | nhlRebuild a0 a1 => exact (x_execNhlRebuild a0 a1 s).imp fun _ h => ⟨h.1, h.2.fa⟩
  | nhlClear a0 a1 => exact (x_execNhlClear a0 a1 s).imp fun _ h => ⟨h.1, h.2.fa⟩
  | scnSetjob => exact (x_execScnSetjob s).imp fun _ h => ⟨h.1, h.2.fa⟩
  | scnEndjob => exact (x_execScnEndjob s).imp fun _ h => ⟨h.1, h.2.fa⟩
  | sweepLastSlotEnd => exact (x_execSweepLastSlotEnd s).imp fun _ h => ⟨h.1, h.2.fa⟩
  | carriageAtRest => exact (x_execCarriageAtRest s).imp fun _ h => ⟨h.1, h.2.fa⟩
  | feedComplete => exact (x_execFeedComplete s).imp fun _ h => ⟨h.1, h.2.fa⟩
  | dwellTimer => exact (x_execDwellTimer s).imp fun _ h => ⟨h.1, h.2.fa⟩
  | turnaroundGo => exact (x_execTurnaroundGo s).imp fun _ h => ⟨h.1, h.2.fa⟩
  | encoderEdge a0 a1 a2 => exact (x_execEncoderEdge a0 a1 a2 s).imp fun _ h => ⟨h.1, h.2.fa⟩
  | indexEdge a0 => exact (x_execIndexEdge a0 s).imp fun _ h => ⟨h.1, h.2.fa⟩
  | sincosSample a0 a1 a2 => exact (x_execSincosSample a0 a1 a2 s).imp fun _ h => ⟨h.1, h.2.fa⟩
  | signalOk a0 => exact (x_execSignalOk a0 s).imp fun _ h => ⟨h.1, h.2.fa⟩
  | sincosSpeedTick a0 => exact (x_execSincosSpeedTick a0 s).imp fun _ h => ⟨h.1, h.2.fa⟩
  | speedStandstillTimeout a0 => exact (x_execSpeedStandstillTimeout a0 s).imp fun _ h => ⟨h.1, h.2.fa⟩
  | posIntRead a0 => exact (x_execPosIntRead a0 s).imp fun _ h => ⟨h.1, h.2.fa⟩
  | posPreset a0 => exact (x_execPosPreset a0 s).imp fun _ h => ⟨h.1, h.2.fa⟩
  | posClrcnt a0 => exact (x_execPosClrcnt a0 s).imp fun _ h => ⟨h.1, h.2.fa⟩
  | cmpArm a0 a1 => exact (x_execCmpArm a0 a1 s).imp fun _ h => ⟨h.1, h.2.fa⟩
  | cmpDisarm a0 a1 => exact (x_execCmpDisarm a0 a1 s).imp fun _ h => ⟨h.1, h.2.fa⟩
  | eeOutputStep a0 => exact (x_execEeOutputStep a0 s).imp fun _ h => ⟨h.1, h.2.fa⟩
  | stpEnable a0 => exact (x_execStpEnable a0 s).imp fun _ h => ⟨h.1, h.2.fa⟩
  | stpDisable a0 => exact (x_execStpDisable a0 s).imp fun _ h => ⟨h.1, h.2.fa⟩
  | stpMove a0 => exact (x_execStpMove a0 s).imp fun _ h => ⟨h.1, h.2.fa⟩
  | stpJog a0 a1 => exact (x_execStpJog a0 a1 s).imp fun _ h => ⟨h.1, h.2.fa⟩
  | stpStop a0 => exact (x_execStpStop a0 s).imp fun _ h => ⟨h.1, h.2.fa⟩
  | stpEstop a0 => exact (x_execStpEstop a0 s).imp fun _ h => ⟨h.1, h.2.fa⟩
  | stpHome a0 => exact (x_execStpHome a0 s).imp fun _ h => ⟨h.1, h.2.fa⟩
  | stpSetpos a0 => exact (x_execStpSetpos a0 s).imp fun _ h => ⟨h.1, h.2.fa⟩
  | stpClrfault a0 a1 => exact (x_execStpClrfault a0 a1 s).imp fun _ h => ⟨h.1, h.2.fa⟩
  | profileUpdate a0 => exact (x_execProfileUpdate a0 s).imp fun _ h => ⟨h.1, h.2.fa⟩
  | stpBridgeFault a0 => exact (x_execStpBridgeFault a0 s).imp fun _ h => ⟨h.1, h.2.fa⟩
  | limitQualified a0 a1 a2 => exact (x_execLimitQualified a0 a1 a2 s).imp fun _ h => ⟨h.1, h.2.fa⟩
  | homeEdgeQualified a0 a1 a2 a3 => exact (x_execHomeEdgeQualified a0 a1 a2 a3 s).imp fun _ h => ⟨h.1, h.2.fa⟩
  | homeChatterTimeout a0 => exact (x_execHomeChatterTimeout a0 s).imp fun _ h => ⟨h.1, h.2.fa⟩
  | holdDelayExpiry a0 => exact (x_execHoldDelayExpiry a0 s).imp fun _ h => ⟨h.1, h.2.fa⟩
  | motStart a0 => exact (x_execMotStart a0 s).imp fun _ h => ⟨h.1, h.2.fa⟩
  | motStop a0 => exact (x_execMotStop a0 s).imp fun _ h => ⟨h.1, h.2.fa⟩
  | motCoast a0 => exact (x_execMotCoast a0 s).imp fun _ h => ⟨h.1, h.2.fa⟩
  | motEstop a0 => exact (x_execMotEstop a0 s).imp fun _ h => ⟨h.1, h.2.fa⟩
  | motMove a0 => exact (x_execMotMove a0 s).imp fun _ h => ⟨h.1, h.2.fa⟩
  | motClrfault a0 a1 a2 => exact (x_execMotClrfault a0 a1 a2 s).imp fun _ h => ⟨h.1, h.2.fa⟩
  | motGateFault a0 => exact (x_execMotGateFault a0 s).imp fun _ h => ⟨h.1, h.2.fa⟩
  | motOvercurrent a0 a1 a2 => exact (x_execMotOvercurrent a0 a1 a2 s).imp fun _ h => ⟨h.1, h.2.fa⟩
  | pwmPeriodUpdate a0 a1 a2 a3 => exact (x_execPwmPeriodUpdate a0 a1 a2 a3 s).imp fun _ h => ⟨h.1, h.2.fa⟩
  | senseWindowEnd a0 => exact (x_execSenseWindowEnd a0 s).imp fun _ h => ⟨h.1, h.2.fa⟩
  | zeroCrossing a0 a1 a2 => exact (x_execZeroCrossing a0 a1 a2 s).imp fun _ h => ⟨h.1, h.2.fa⟩
  | alignEnd a0 => exact (x_execAlignEnd a0 s).imp fun _ h => ⟨h.1, h.2.fa⟩
  | reverseTimeout a0 => exact (x_execReverseTimeout a0 s).imp fun _ h => ⟨h.1, h.2.fa⟩
  | revbrakeHoldEnd a0 => exact (x_execRevbrakeHoldEnd a0 s).imp fun _ h => ⟨h.1, h.2.fa⟩
  | reacqWindowEnd a0 => exact (x_execReacqWindowEnd a0 s).imp fun _ h => ⟨h.1, h.2.fa⟩
  | vbusLowTimeout a0 => exact (x_execVbusLowTimeout a0 s).imp fun _ h => ⟨h.1, h.2.fa⟩
  | coastTimeout a0 => exact (x_execCoastTimeout a0 s).imp fun _ h => ⟨h.1, h.2.fa⟩
  | ssSstop => exact (x_execSsSstop s).imp fun _ h => ⟨h.1, h.2.fa⟩
  | ssAbandon => exact (x_execSsAbandon s).imp fun _ h => ⟨h.1, h.2.fa⟩
  | ssDrainEnd => exact (x_execSsDrainEnd s).imp fun _ h => ⟨h.1, h.2.fa⟩
  | ssDecelDone => exact (x_execSsDecelDone s).imp fun _ h => ⟨h.1, h.2.fa⟩
  | ssBackupDone => exact (x_execSsBackupDone s).imp fun _ h => ⟨h.1, h.2.fa⟩
  | ssRefillGate => exact (x_execSsRefillGate s).imp fun _ h => ⟨h.1, h.2.fa⟩
  | ssAccelDone => exact (x_execSsAccelDone s).imp fun _ h => ⟨h.1, h.2.fa⟩
  | casTsReceived a0 a1 a2 => exact (x_execCasTsReceived a0 a1 a2 s).imp fun _ h => ⟨h.1, h.2.fa⟩
  | casTrainTimeout a0 => exact (x_execCasTrainTimeout a0 s).imp fun _ h => ⟨h.1, h.2.fa⟩
  | casTsyncEchoRx a0 a1 a2 a3 => exact (x_execCasTsyncEchoRx a0 a1 a2 a3 s).imp fun _ h => ⟨h.1, h.2.fa⟩
  | casProbeTimer => exact (x_execCasProbeTimer s).imp fun _ h => ⟨h.1, h.2.fa⟩
  | bellSendTimer => exact (x_execBellSendTimer s).imp fun _ h => ⟨h.1, h.2.fa⟩
  | bellSetRx a0 => exact (x_execBellSetRx a0 s).imp fun _ h => ⟨h.1, h.2.fa⟩
  | localBellTick a0 => exact (x_execLocalBellTick a0 s).imp fun _ h => ⟨h.1, h.2.fa⟩
  | trgSetRx a0 a1 => exact (x_execTrgSetRx a0 a1 s).imp fun _ h => ⟨h.1, h.2.fa⟩
  | discRx a0 a1 a2 => exact (x_execDiscRx a0 a1 a2 s).imp fun _ h => ⟨h.1, h.2.fa⟩
  | dansRx a0 a1 => exact (x_execDansRx a0 a1 s).imp fun _ h => ⟨h.1, h.2.fa⟩
  | doneRx a0 a1 a2 a3 a4 => exact (x_execDoneRx a0 a1 a2 a3 a4 s).imp fun _ h => ⟨h.1, h.2.fa⟩
  | rediscRx a0 => exact (x_execRediscRx a0 s).imp fun _ h => ⟨h.1, h.2.fa⟩
  | msgStartRx a0 a1 => exact (x_execMsgStartRx a0 a1 s).imp fun _ h => ⟨h.1, h.2.fa⟩
  | startTick => exact x_execStartTick s
  | msgStopRx a0 => exact (x_execMsgStopRx a0 s).imp fun _ h => ⟨h.1, h.2.fa⟩
  | peerStopRx a0 a1 => exact (x_execPeerStopRx a0 a1 s).imp fun _ h => ⟨h.1, h.2.fa⟩
  | peerHaltRx a0 a1 => exact (x_execPeerHaltRx a0 a1 s).imp fun _ h => ⟨h.1, h.2.fa⟩
  | ssreqRx a0 a1 => exact (x_execSsreqRx a0 a1 s).imp fun _ h => ⟨h.1, h.2.fa⟩
  | ssdecRx a0 a1 => exact (x_execSsdecRx a0 a1 s).imp fun _ h => ⟨h.1, h.2.fa⟩
  | ssreadyRx a0 => exact (x_execSsreadyRx a0 s).imp fun _ h => ⟨h.1, h.2.fa⟩
  | ssgoRx a0 => exact (x_execSsgoRx a0 s).imp fun _ h => ⟨h.1, h.2.fa⟩
  | ssforbidRx a0 a1 => exact (x_execSsforbidRx a0 a1 s).imp fun _ h => ⟨h.1, h.2.fa⟩
  | ssabandonRx a0 => exact (x_execSsabandonRx a0 s).imp fun _ h => ⟨h.1, h.2.fa⟩
  | userMsgRx a0 a1 => exact (x_execUserMsgRx a0 a1 s).imp fun _ h => ⟨h.1, h.2.fa⟩
  | casAckRx a0 a1 => exact (x_execCasAckRx a0 a1 s).imp fun _ h => ⟨h.1, h.2.fa⟩
  | casNakRx a0 a1 a2 a3 => exact (x_execCasNakRx a0 a1 a2 a3 s).imp fun _ h => ⟨h.1, h.2.fa⟩
  | casAckTimeout a0 => exact (x_execCasAckTimeout a0 s).imp fun _ h => ⟨h.1, h.2.fa⟩
  | statRx a0 a1 a2 a3 a4 a5 => exact (x_execStatRx a0 a1 a2 a3 a4 a5 s).imp fun _ h => ⟨h.1, h.2.fa⟩
  | statTimer => exact (x_execStatTimer s).imp fun _ h => ⟨h.1, h.2.fa⟩
  | memberLostTimeout a0 => exact (x_execMemberLostTimeout a0 s).imp fun _ h => ⟨h.1, h.2.fa⟩
  | posFrameRx a0 a1 a2 a3 a4 a5 a6 => exact (x_execPosFrameRx a0 a1 a2 a3 a4 a5 a6 s).imp fun _ h => ⟨h.1, h.2.fa⟩
  | casLinkLoss a0 a1 => exact (x_execCasLinkLoss a0 a1 s).imp fun _ h => ⟨h.1, h.2.fa⟩
  | casSend => exact (x_execCasSend s).imp fun _ h => ⟨h.1, h.2.fa⟩
  | casResync => exact (x_execCasResync s).imp fun _ h => ⟨h.1, h.2.fa⟩
  | casClrcnt => exact (x_execCasClrcnt s).imp fun _ h => ⟨h.1, h.2.fa⟩
  | dmaStart a0 => exact (x_execDmaStart a0 s).imp fun _ h => ⟨h.1, h.2.fa⟩
  | dmaPause a0 => exact (x_execDmaPause a0 s).imp fun _ h => ⟨h.1, h.2.fa⟩
  | dmaDrain a0 => exact (x_execDmaDrain a0 s).imp fun _ h => ⟨h.1, h.2.fa⟩
  | dmaResume a0 => exact (x_execDmaResume a0 s).imp fun _ h => ⟨h.1, h.2.fa⟩
  | dmaAbort a0 => exact (x_execDmaAbort a0 s).imp fun _ h => ⟨h.1, h.2.fa⟩
  | dmaArm a0 => exact (x_execDmaArm a0 s).imp fun _ h => ⟨h.1, h.2.fa⟩
  | dmaDisarm a0 => exact (x_execDmaDisarm a0 s).imp fun _ h => ⟨h.1, h.2.fa⟩
  | dmaClrerr a0 => exact (x_execDmaClrerr a0 s).imp fun _ h => ⟨h.1, h.2.fa⟩
  | dmaNop a0 => exact (x_execDmaNop a0 s).imp fun _ h => ⟨h.1, h.2.fa⟩
  | dmaSrc a0 => exact (x_execDmaSrc a0 s).imp fun _ h => ⟨h.1, h.2.fa⟩
  | dmaDst a0 => exact (x_execDmaDst a0 s).imp fun _ h => ⟨h.1, h.2.fa⟩
  | dmaSpat a0 => exact (x_execDmaSpat a0 s).imp fun _ h => ⟨h.1, h.2.fa⟩
  | dmaDpat a0 => exact (x_execDmaDpat a0 s).imp fun _ h => ⟨h.1, h.2.fa⟩
  | dmaXfer a0 => exact (x_execDmaXfer a0 s).imp fun _ h => ⟨h.1, h.2.fa⟩
  | dmaSetc a0 => exact (x_execDmaSetc a0 s).imp fun _ h => ⟨h.1, h.2.fa⟩
  | dmaLoop a0 => exact (x_execDmaLoop a0 s).imp fun _ h => ⟨h.1, h.2.fa⟩
  | dmaWait a0 => exact (x_execDmaWait a0 s).imp fun _ h => ⟨h.1, h.2.fa⟩
  | dmaSignal a0 => exact (x_execDmaSignal a0 s).imp fun _ h => ⟨h.1, h.2.fa⟩
  | dmaWri a0 a1 => exact (x_execDmaWri a0 a1 s).imp fun _ h => ⟨h.1, h.2.fa⟩
  | dmaCpl a0 => exact (x_execDmaCpl a0 s).imp fun _ h => ⟨h.1, h.2.fa⟩
  | dmaSwap a0 => exact (x_execDmaSwap a0 s).imp fun _ h => ⟨h.1, h.2.fa⟩
  | dmaEnd a0 => exact (x_execDmaEnd a0 s).imp fun _ h => ⟨h.1, h.2.fa⟩
  | dmaReadCompletion a0 a1 a2 => exact (x_execDmaReadCompletion a0 a1 a2 s).imp fun _ h => ⟨h.1, h.2.fa⟩
  | dmaWriteComplete a0 a1 => exact (x_execDmaWriteComplete a0 a1 s).imp fun _ h => ⟨h.1, h.2.fa⟩
  | dmaPauseDone a0 => exact (x_execDmaPauseDone a0 s).imp fun _ h => ⟨h.1, h.2.fa⟩
  | dmaWaitSatisfied a0 => exact (x_execDmaWaitSatisfied a0 s).imp fun _ h => ⟨h.1, h.2.fa⟩
  | dmaWaitTimeout a0 => exact (x_execDmaWaitTimeout a0 s).imp fun _ h => ⟨h.1, h.2.fa⟩
  | cqfullRelease a0 => exact (x_execCqfullRelease a0 s).imp fun _ h => ⟨h.1, h.2.fa⟩
  | cqIrqTimer a0 => exact (x_execCqIrqTimer a0 s).imp fun _ h => ⟨h.1, h.2.fa⟩
  | cqHeadWrite a0 a1 => exact (x_execCqHeadWrite a0 a1 s).imp fun _ h => ⟨h.1, h.2.fa⟩
  | sigraiseAdd a0 a1 => exact (x_execSigraiseAdd a0 a1 s).imp fun _ h => ⟨h.1, h.2.fa⟩
  | sigraiseSet a0 a1 => exact (x_execSigraiseSet a0 a1 s).imp fun _ h => ⟨h.1, h.2.fa⟩
  | shadowRegisterWrite a0 a1 a2 => exact (x_execShadowRegisterWrite a0 a1 a2 s).imp fun _ h => ⟨h.1, h.2.fa⟩
  | memSleep a0 => exact (x_execMemSleep a0 s).imp fun _ h => ⟨h.1, h.2.fa⟩
  | memWake a0 => exact (x_execMemWake a0 s).imp fun _ h => ⟨h.1, h.2.fa⟩
  | memMarch a0 => exact (x_execMemMarch a0 s).imp fun _ h => ⟨h.1, h.2.fa⟩
  | memStopmarch a0 => exact (x_execMemStopmarch a0 s).imp fun _ h => ⟨h.1, h.2.fa⟩
  | bankTransitionDone a0 => exact (x_execBankTransitionDone a0 s).imp fun _ h => ⟨h.1, h.2.fa⟩
  | marchWindowStart => exact (x_execMarchWindowStart s).imp fun _ h => ⟨h.1, h.2.fa⟩
  | marchWindowDone a0 => exact (x_execMarchWindowDone a0 s).imp fun _ h => ⟨h.1, h.2.fa⟩
  | marchTestDone a0 => exact (x_execMarchTestDone a0 s).imp fun _ h => ⟨h.1, h.2.fa⟩
  | bar2Access a0 a1 => exact (x_execBar2Access a0 a1 s).imp fun _ h => ⟨h.1, h.2.fa⟩
  | bar4Access a0 a1 a2 => exact (x_execBar4Access a0 a1 a2 s).imp fun _ h => ⟨h.1, h.2.fa⟩
  | hstAccessBad a0 a1 a2 => exact (x_execHstAccessBad a0 a1 a2 s).imp fun _ h => ⟨h.1, h.2.fa⟩
  | invarWrite a0 a1 a2 a3 => exact (x_execInvarWrite a0 a1 a2 a3 s).imp fun _ h => ⟨h.1, h.2.fa⟩
  | invarLock => exact (x_execInvarLock s).imp fun _ h => ⟨h.1, h.2.fa⟩
  | w1cFlagClear a0 a1 a2 => exact (x_execW1cFlagClear a0 a1 a2 s).imp fun _ h => ⟨h.1, h.2.fa⟩
  | occClearSelected => exact (x_execOccClearSelected s).imp fun _ h => ⟨h.1, h.2.fa⟩
  | occClearAll => exact (x_execOccClearAll s).imp fun _ h => ⟨h.1, h.2.fa⟩
  | bmeClear => exact (x_execBmeClear s).imp fun _ h => ⟨h.1, h.2.fa⟩
  | bmeSet => exact (x_execBmeSet s).imp fun _ h => ⟨h.1, h.2.fa⟩
  | aerError a0 a1 a2 => exact (x_execAerError a0 a1 a2 s).imp fun _ h => ⟨h.1, h.2.fa⟩
  | l1Entry => exact (x_execL1Entry s).imp fun _ h => ⟨h.1, h.2.fa⟩
  | msixUnmask a0 => exact (x_execMsixUnmask a0 s).imp fun _ h => ⟨h.1, h.2.fa⟩
  | evheadWrite a0 => exact (x_execEvheadWrite a0 s).imp fun _ h => ⟨h.1, h.2.fa⟩
  | evcfgWrite a0 => exact (x_execEvcfgWrite a0 s).imp fun _ h => ⟨h.1, h.2.fa⟩
  | evIrqTimer => exact (x_execEvIrqTimer s).imp fun _ h => ⟨h.1, h.2.fa⟩
  | lanternWriteDone => exact (x_execLanternWriteDone s).imp fun _ h => ⟨h.1, h.2.fa⟩
  | i2cPointerWrite a0 a1 a2 => exact (x_execI2cPointerWrite a0 a1 a2 s).imp fun _ h => ⟨h.1, h.2.fa⟩
  | i2cRead => exact (x_execI2cRead s).imp fun _ h => ⟨h.1, h.2.fa⟩
  | i2cSnapshot => exact (x_execI2cSnapshot s).imp fun _ h => ⟨h.1, h.2.fa⟩
  | registerWrite a0 a1 a2 => cases h
  | adcBackgroundSample a0 a1 => exact (x_execAdcBackgroundSample a0 a1 s).imp fun _ h => ⟨h.1, h.2.fa⟩
  | avsCodeStep a0 => exact (x_execAvsCodeStep a0 s).imp fun _ h => ⟨h.1, h.2.fa⟩
  | powerOn => exact x_execPowerOn s
  | powerLoss => cases h
  | pciePerstRelease => exact (x_execPciePerstRelease s).imp fun _ h => ⟨h.1, h.2.fa⟩
  | pcieLinkUp a0 a1 => exact (x_execPcieLinkUp a0 a1 s).imp fun _ h => ⟨h.1, h.2.fa⟩
  | tsyncAcqProbeTimer a0 => exact (x_execTsyncAcqProbeTimer a0 s).imp fun _ h => ⟨h.1, h.2.fa⟩
  | casAcqProbeTimer => exact (x_execCasAcqProbeTimer s).imp fun _ h => ⟨h.1, h.2.fa⟩
  | ssTdReached => exact (x_execSsTdReached s).imp fun _ h => ⟨h.1, h.2.fa⟩
  | usageSummaryTimer => exact (x_execUsageSummaryTimer s).imp fun _ h => ⟨h.1, h.2.fa⟩
  | reactiveDelayedCommit a0 => exact (x_execReactiveDelayedCommit a0 s).imp fun _ h => ⟨h.1, h.2.fa⟩
  | speedSampleTick a0 => exact (x_execSpeedSampleTick a0 s).imp fun _ h => ⟨h.1, h.2.fa⟩
  | stepperPwmPeriod a0 a1 a2 => exact (x_execStepperPwmPeriod a0 a1 a2 s).imp fun _ h => ⟨h.1, h.2.fa⟩
  | hostReadTimeout a0 a1 => exact (x_execHostReadTimeout a0 a1 s).imp fun _ h => ⟨h.1, h.2.fa⟩

/-- Any other command moves the global state by the automatic transitions alone. -/
theorem exec_mv (c : Instr) (s : State) (h : (changesStore c || changesState c) = false) : ∃ t, exec c s = .next t ∧ Mv s t := by
  cases c with
  | porstAssert a0 => cases h
  | warmrstAssert a0 => cases h
  | porstRelease a0 a1 a2 => cases h
  | warmrstRelease => cases h
  | rootVcoLock => cases h
  | clockUnlock a0 => exact (x_execClockUnlock a0 s).imp fun _ h => ⟨h.1, h.2.mv⟩
  | clockRelock a0 => cases h
  | throttleApply => exact (x_execThrottleApply s).imp fun _ h => ⟨h.1, h.2.mv⟩
  | glbArm => cases h
  | glbStart => cases h
  | glbStop => exact (x_execGlbStop s).imp fun _ h => ⟨h.1, h.2.mv⟩
  | glbDisarm => cases h
  | glbRecover => cases h
  | glbReload => cases h
  | glbLantern => exact (x_execGlbLantern s).imp fun _ h => ⟨h.1, h.2.mv⟩
  | glbShutdown => exact x_execGlbShutdown s
  | stoppingComplete => cases h
  | earlyAccess a0 a1 a2 => exact (x_execEarlyAccess a0 a1 a2 s).imp fun _ h => ⟨h.1, h.2.mv⟩
  | pciePerstAssert => exact (x_execPciePerstAssert s).imp fun _ h => ⟨h.1, h.2.mv⟩
  | pushBegin a0 => cases h
  | pushEnd a0 => cases h
  | retryFlash a0 => cases h
  | revert a0 => cases h
  | svnCommit a0 => cases h
  | imgSrcWrite a0 => cases h
  | imgDataWrite a0 => exact (x_execImgDataWrite a0 s).imp fun _ h => ⟨h.1, h.2.mv⟩
  | flashReadDone a0 => cases h
  | sfdpTimeout => exact (x_execSfdpTimeout s).imp fun _ h => ⟨h.1, h.2.mv⟩
  | flashStrobeTimeout a0 => exact (x_execFlashStrobeTimeout a0 s).imp fun _ h => ⟨h.1, h.2.mv⟩
  | selftestActivityDone a0 => exact x_execSelftestActivityDone a0 s
  | xmcTrainDone a0 a1 a2 => exact x_execXmcTrainDone a0 a1 a2 s
  | xmcEccInitDone => exact x_execXmcEccInitDone s
  | portAttemptStart a0 => exact (x_execPortAttemptStart a0 s).imp fun _ h => ⟨h.1, h.2.mv⟩
  | portAttemptEnd a0 => exact x_execPortAttemptEnd a0 s
  | bruRetry => exact x_execBruRetry s
  | discTimer => exact (x_execDiscTimer s).imp fun _ h => ⟨h.1, h.2.mv⟩
  | cascadeWaitTimer => exact (x_execCascadeWaitTimer s).imp fun _ h => ⟨h.1, h.2.mv⟩
  | dotWlineWrite a0 a1 => exact (x_execDotWlineWrite a0 a1 s).imp fun _ h => ⟨h.1, h.2.mv⟩
  | dotWaddWrite a0 a1 => exact (x_execDotWaddWrite a0 a1 s).imp fun _ h => ⟨h.1, h.2.mv⟩
  | dotEnable a0 a1 => exact (x_execDotEnable a0 a1 s).imp fun _ h => ⟨h.1, h.2.mv⟩
  | dotDisable a0 a1 => exact (x_execDotDisable a0 a1 s).imp fun _ h => ⟨h.1, h.2.mv⟩
  | dotClear a0 a1 => exact (x_execDotClear a0 a1 s).imp fun _ h => ⟨h.1, h.2.mv⟩
  | dotSetline a0 a1 => exact (x_execDotSetline a0 a1 s).imp fun _ h => ⟨h.1, h.2.mv⟩
  | dotRelease a0 a1 => exact (x_execDotRelease a0 a1 s).imp fun _ h => ⟨h.1, h.2.mv⟩
  | lineAssemblyDone a0 => exact (x_execLineAssemblyDone a0 s).imp fun _ h => ⟨h.1, h.2.mv⟩
  | prefetchDone a0 a1 a2 => exact (x_execPrefetchDone a0 a1 a2 s).imp fun _ h => ⟨h.1, h.2.mv⟩
  | underrunPredictTimer a0 => exact (x_execUnderrunPredictTimer a0 s).imp fun _ h => ⟨h.1, h.2.mv⟩
  | predictSample a0 => exact (x_execPredictSample a0 s).imp fun _ h => ⟨h.1, h.2.mv⟩
  | fixedClockCommit a0 => exact (x_execFixedClockCommit a0 s).imp fun _ h => ⟨h.1, h.2.mv⟩
  | lineLaunch a0 => exact (x_execLineLaunch a0 s).imp fun _ h => ⟨h.1, h.2.mv⟩
  | fireSlotStart a0 a1 => exact (x_execFireSlotStart a0 a1 s).imp fun _ h => ⟨h.1, h.2.mv⟩
  | lineWindowEnd a0 a1 => exact (x_execLineWindowEnd a0 a1 s).imp fun _ h => ⟨h.1, h.2.mv⟩
  | warmCycleTimer a0 => exact (x_execWarmCycleTimer a0 s).imp fun _ h => ⟨h.1, h.2.mv⟩
  | waveformEntryWrite a0 a1 => exact (x_execWaveformEntryWrite a0 a1 s).imp fun _ h => ⟨h.1, h.2.mv⟩
  | headKillAssert => exact (x_execHeadKillAssert s).imp fun _ h => ⟨h.1, h.2.mv⟩
  | hopenAssert a0 => exact (x_execHopenAssert a0 s).imp fun _ h => ⟨h.1, h.2.mv⟩
  | hpnEnExternalLow a0 => exact (x_execHpnEnExternalLow a0 s).imp fun _ h => ⟨h.1, h.2.mv⟩
  | jamQualified a0 => exact (x_execJamQualified a0 s).imp fun _ h => ⟨h.1, h.2.mv⟩
  | mediaOutQualified => exact (x_execMediaOutQualified s).imp fun _ h => ⟨h.1, h.2.mv⟩
  | gateSourceDeassert a0 => exact (x_execGateSourceDeassert a0 s).imp fun _ h => ⟨h.1, h.2.mv⟩
  | safeHoldKill a0 => exact (x_execSafeHoldKill a0 s).imp fun _ h => ⟨h.1, h.2.mv⟩
  | firSetorg a0 => exact (x_execFirSetorg a0 s).imp fun _ h => ⟨h.1, h.2.mv⟩
  | firCaporg a0 => exact (x_execFirCaporg a0 s).imp fun _ h => ⟨h.1, h.2.mv⟩
  | trainSetReceived a0 a1 a2 => exact (x_execTrainSetReceived a0 a1 a2 s).imp fun _ h => ⟨h.1, h.2.mv⟩
  | trainStateTimeout a0 => exact (x_execTrainStateTimeout a0 s).imp fun _ h => ⟨h.1, h.2.mv⟩
  | tsyncEchoRx a0 a1 a2 a3 a4 => exact (x_execTsyncEchoRx a0 a1 a2 a3 a4 s).imp fun _ h => ⟨h.1, h.2.mv⟩
  | tsyncProbeTimer a0 => exact (x_execTsyncProbeTimer a0 s).imp fun _ h => ⟨h.1, h.2.mv⟩
  | lackRx a0 a1 a2 => exact (x_execLackRx a0 a1 a2 s).imp fun _ h => ⟨h.1, h.2.mv⟩
  | lackTimeout a0 a1 => exact (x_execLackTimeout a0 a1 s).imp fun _ h => ⟨h.1, h.2.mv⟩
  | fireLackTimeout a0 a1 => exact (x_execFireLackTimeout a0 a1 s).imp fun _ h => ⟨h.1, h.2.mv⟩
  | memResponseRx a0 a1 a2 a3 => exact x_execMemResponseRx a0 a1 a2 a3 s
  | memResponseTimeout a0 a1 => exact (x_execMemResponseTimeout a0 a1 s).imp fun _ h => ⟨h.1, h.2.mv⟩
  | teleKind0Rx a0 a1 a2 a3 a4 a5 a6 => exact x_execTeleKind0Rx a0 a1 a2 a3 a4 a5 a6 s
  | teleKind1Rx a0 a1 => exact (x_execTeleKind1Rx a0 a1 s).imp fun _ h => ⟨h.1, h.2.mv⟩
  | hevtRx a0 a1 a2 a3 => exact (x_execHevtRx a0 a1 a2 a3 s).imp fun _ h => ⟨h.1, h.2.mv⟩
  | upstreamFrameBad a0 a1 => exact (x_execUpstreamFrameBad a0 a1 s).imp fun _ h => ⟨h.1, h.2.mv⟩
  | symbolLockLoss a0 => exact (x_execSymbolLockLoss a0 s).imp fun _ h => ⟨h.1, h.2.mv⟩
  | hotswapAttemptTimer a0 => exact (x_execHotswapAttemptTimer a0 s).imp fun _ h => ⟨h.1, h.2.mv⟩
  | hlpRetrain a0 a1 => exact (x_execHlpRetrain a0 a1 s).imp fun _ h => ⟨h.1, h.2.mv⟩
  | hlpMemrd a0 a1 => exact (x_execHlpMemrd a0 a1 s).imp fun _ h => ⟨h.1, h.2.mv⟩
  | hlpMemwr a0 a1 => exact (x_execHlpMemwr a0 a1 s).imp fun _ h => ⟨h.1, h.2.mv⟩
  | teleMissingTimeout a0 => exact (x_execTeleMissingTimeout a0 s).imp fun _ h => ⟨h.1, h.2.mv⟩
  | modelIdleUpdate a0 => exact (x_execModelIdleUpdate a0 s).imp fun _ h => ⟨h.1, h.2.mv⟩
  | zonePollTimer a0 => exact (x_execZonePollTimer a0 s).imp fun _ h => ⟨h.1, h.2.mv⟩
  | dieSensorSample a0 => exact x_execDieSensorSample a0 s
  | fallbackComplete => exact x_execFallbackComplete s
  | fallbackTtlExpiry => exact x_execFallbackTtlExpiry s
  | ledgerGrant => exact (x_execLedgerGrant s).imp fun _ h => ⟨h.1, h.2.mv⟩
  | ledgerWaitTimeout a0 a1 => exact (x_execLedgerWaitTimeout a0 a1 s).imp fun _ h => ⟨h.1, h.2.mv⟩
  | journalProgramDone => cases h
  | thmReseed a0 a1 => exact (x_execThmReseed a0 a1 s).imp fun _ h => ⟨h.1, h.2.mv⟩
  | thmClrmax a0 a1 => exact (x_execThmClrmax a0 a1 s).imp fun _ h => ⟨h.1, h.2.mv⟩
  | nhlHostresWrite a0 => exact (x_execNhlHostresWrite a0 s).imp fun _ h => ⟨h.1, h.2.mv⟩
  | tableEntryWrite a0 a1 a2 => exact (x_execTableEntryWrite a0 a1 a2 s).imp fun _ h => ⟨h.1, h.2.mv⟩
  | scanBlockTimeout a0 => exact (x_execScanBlockTimeout a0 s).imp fun _ h => ⟨h.1, h.2.mv⟩
  | nhlGapDeclare a0 a1 => exact (x_execNhlGapDeclare a0 a1 s).imp fun _ h => ⟨h.1, h.2.mv⟩
  | serviceLineTimer a0 => exact (x_execServiceLineTimer a0 s).imp fun _ h => ⟨h.1, h.2.mv⟩
  | autoSpitTimer a0 => exact (x_execAutoSpitTimer a0 s).imp fun _ h => ⟨h.1, h.2.mv⟩
  | nhlScan a0 a1 => exact (x_execNhlScan a0 a1 s).imp fun _ h => ⟨h.1, h.2.mv⟩
  | nhlSpit a0 a1 => exact (x_execNhlSpit a0 a1 s).imp fun _ h => ⟨h.1, h.2.mv⟩
  | nhlAbort a0 a1 => exact (x_execNhlAbort a0 a1 s).imp fun _ h => ⟨h.1, h.2.mv⟩
  | nhlRebuild a0 a1 => exact (x_execNhlRebuild a0 a1 s).imp fun _ h => ⟨h.1, h.2.mv⟩
  | nhlClear a0 a1 => exact (x_execNhlClear a0 a1 s).imp fun _ h => ⟨h.1, h.2.mv⟩
  | scnSetjob => exact (x_execScnSetjob s).imp fun _ h => ⟨h.1, h.2.mv⟩
  | scnEndjob => exact (x_execScnEndjob s).imp fun _ h => ⟨h.1, h.2.mv⟩
  | sweepLastSlotEnd => exact (x_execSweepLastSlotEnd s).imp fun _ h => ⟨h.1, h.2.mv⟩
  | carriageAtRest => exact (x_execCarriageAtRest s).imp fun _ h => ⟨h.1, h.2.mv⟩
  | feedComplete => exact (x_execFeedComplete s).imp fun _ h => ⟨h.1, h.2.mv⟩
  | dwellTimer => exact (x_execDwellTimer s).imp fun _ h => ⟨h.1, h.2.mv⟩
  | turnaroundGo => exact (x_execTurnaroundGo s).imp fun _ h => ⟨h.1, h.2.mv⟩
  | encoderEdge a0 a1 a2 => exact (x_execEncoderEdge a0 a1 a2 s).imp fun _ h => ⟨h.1, h.2.mv⟩
  | indexEdge a0 => exact (x_execIndexEdge a0 s).imp fun _ h => ⟨h.1, h.2.mv⟩
  | sincosSample a0 a1 a2 => exact (x_execSincosSample a0 a1 a2 s).imp fun _ h => ⟨h.1, h.2.mv⟩
  | signalOk a0 => exact (x_execSignalOk a0 s).imp fun _ h => ⟨h.1, h.2.mv⟩
  | sincosSpeedTick a0 => exact (x_execSincosSpeedTick a0 s).imp fun _ h => ⟨h.1, h.2.mv⟩
  | speedStandstillTimeout a0 => exact (x_execSpeedStandstillTimeout a0 s).imp fun _ h => ⟨h.1, h.2.mv⟩
  | posIntRead a0 => exact (x_execPosIntRead a0 s).imp fun _ h => ⟨h.1, h.2.mv⟩
  | posPreset a0 => exact (x_execPosPreset a0 s).imp fun _ h => ⟨h.1, h.2.mv⟩
  | posClrcnt a0 => exact (x_execPosClrcnt a0 s).imp fun _ h => ⟨h.1, h.2.mv⟩
  | cmpArm a0 a1 => exact (x_execCmpArm a0 a1 s).imp fun _ h => ⟨h.1, h.2.mv⟩
  | cmpDisarm a0 a1 => exact (x_execCmpDisarm a0 a1 s).imp fun _ h => ⟨h.1, h.2.mv⟩
  | eeOutputStep a0 => exact (x_execEeOutputStep a0 s).imp fun _ h => ⟨h.1, h.2.mv⟩
  | stpEnable a0 => exact (x_execStpEnable a0 s).imp fun _ h => ⟨h.1, h.2.mv⟩
  | stpDisable a0 => exact (x_execStpDisable a0 s).imp fun _ h => ⟨h.1, h.2.mv⟩
  | stpMove a0 => exact (x_execStpMove a0 s).imp fun _ h => ⟨h.1, h.2.mv⟩
  | stpJog a0 a1 => exact (x_execStpJog a0 a1 s).imp fun _ h => ⟨h.1, h.2.mv⟩
  | stpStop a0 => exact (x_execStpStop a0 s).imp fun _ h => ⟨h.1, h.2.mv⟩
  | stpEstop a0 => exact (x_execStpEstop a0 s).imp fun _ h => ⟨h.1, h.2.mv⟩
  | stpHome a0 => exact (x_execStpHome a0 s).imp fun _ h => ⟨h.1, h.2.mv⟩
  | stpSetpos a0 => exact (x_execStpSetpos a0 s).imp fun _ h => ⟨h.1, h.2.mv⟩
  | stpClrfault a0 a1 => exact (x_execStpClrfault a0 a1 s).imp fun _ h => ⟨h.1, h.2.mv⟩
  | profileUpdate a0 => exact (x_execProfileUpdate a0 s).imp fun _ h => ⟨h.1, h.2.mv⟩
  | stpBridgeFault a0 => exact (x_execStpBridgeFault a0 s).imp fun _ h => ⟨h.1, h.2.mv⟩
  | limitQualified a0 a1 a2 => exact (x_execLimitQualified a0 a1 a2 s).imp fun _ h => ⟨h.1, h.2.mv⟩
  | homeEdgeQualified a0 a1 a2 a3 => exact (x_execHomeEdgeQualified a0 a1 a2 a3 s).imp fun _ h => ⟨h.1, h.2.mv⟩
  | homeChatterTimeout a0 => exact (x_execHomeChatterTimeout a0 s).imp fun _ h => ⟨h.1, h.2.mv⟩
  | holdDelayExpiry a0 => exact (x_execHoldDelayExpiry a0 s).imp fun _ h => ⟨h.1, h.2.mv⟩
  | motStart a0 => exact (x_execMotStart a0 s).imp fun _ h => ⟨h.1, h.2.mv⟩
  | motStop a0 => exact (x_execMotStop a0 s).imp fun _ h => ⟨h.1, h.2.mv⟩
  | motCoast a0 => exact (x_execMotCoast a0 s).imp fun _ h => ⟨h.1, h.2.mv⟩
  | motEstop a0 => exact (x_execMotEstop a0 s).imp fun _ h => ⟨h.1, h.2.mv⟩
  | motMove a0 => exact (x_execMotMove a0 s).imp fun _ h => ⟨h.1, h.2.mv⟩
  | motClrfault a0 a1 a2 => exact (x_execMotClrfault a0 a1 a2 s).imp fun _ h => ⟨h.1, h.2.mv⟩
  | motGateFault a0 => exact (x_execMotGateFault a0 s).imp fun _ h => ⟨h.1, h.2.mv⟩
  | motOvercurrent a0 a1 a2 => exact (x_execMotOvercurrent a0 a1 a2 s).imp fun _ h => ⟨h.1, h.2.mv⟩
  | pwmPeriodUpdate a0 a1 a2 a3 => exact (x_execPwmPeriodUpdate a0 a1 a2 a3 s).imp fun _ h => ⟨h.1, h.2.mv⟩
  | senseWindowEnd a0 => exact (x_execSenseWindowEnd a0 s).imp fun _ h => ⟨h.1, h.2.mv⟩
  | zeroCrossing a0 a1 a2 => exact (x_execZeroCrossing a0 a1 a2 s).imp fun _ h => ⟨h.1, h.2.mv⟩
  | alignEnd a0 => exact (x_execAlignEnd a0 s).imp fun _ h => ⟨h.1, h.2.mv⟩
  | reverseTimeout a0 => exact (x_execReverseTimeout a0 s).imp fun _ h => ⟨h.1, h.2.mv⟩
  | revbrakeHoldEnd a0 => exact (x_execRevbrakeHoldEnd a0 s).imp fun _ h => ⟨h.1, h.2.mv⟩
  | reacqWindowEnd a0 => exact (x_execReacqWindowEnd a0 s).imp fun _ h => ⟨h.1, h.2.mv⟩
  | vbusLowTimeout a0 => exact (x_execVbusLowTimeout a0 s).imp fun _ h => ⟨h.1, h.2.mv⟩
  | coastTimeout a0 => exact (x_execCoastTimeout a0 s).imp fun _ h => ⟨h.1, h.2.mv⟩
  | ssSstop => exact (x_execSsSstop s).imp fun _ h => ⟨h.1, h.2.mv⟩
  | ssAbandon => exact (x_execSsAbandon s).imp fun _ h => ⟨h.1, h.2.mv⟩
  | ssDrainEnd => exact (x_execSsDrainEnd s).imp fun _ h => ⟨h.1, h.2.mv⟩
  | ssDecelDone => exact (x_execSsDecelDone s).imp fun _ h => ⟨h.1, h.2.mv⟩
  | ssBackupDone => exact (x_execSsBackupDone s).imp fun _ h => ⟨h.1, h.2.mv⟩
  | ssRefillGate => exact (x_execSsRefillGate s).imp fun _ h => ⟨h.1, h.2.mv⟩
  | ssAccelDone => exact (x_execSsAccelDone s).imp fun _ h => ⟨h.1, h.2.mv⟩
  | casTsReceived a0 a1 a2 => exact x_execCasTsReceived a0 a1 a2 s
  | casTrainTimeout a0 => exact (x_execCasTrainTimeout a0 s).imp fun _ h => ⟨h.1, h.2.mv⟩
  | casTsyncEchoRx a0 a1 a2 a3 => exact x_execCasTsyncEchoRx a0 a1 a2 a3 s
  | casProbeTimer => exact (x_execCasProbeTimer s).imp fun _ h => ⟨h.1, h.2.mv⟩
  | bellSendTimer => exact (x_execBellSendTimer s).imp fun _ h => ⟨h.1, h.2.mv⟩
  | bellSetRx a0 => exact (x_execBellSetRx a0 s).imp fun _ h => ⟨h.1, h.2.mv⟩
  | localBellTick a0 => exact (x_execLocalBellTick a0 s).imp fun _ h => ⟨h.1, h.2.mv⟩
  | trgSetRx a0 a1 => exact (x_execTrgSetRx a0 a1 s).imp fun _ h => ⟨h.1, h.2.mv⟩
  | discRx a0 a1 a2 => exact (x_execDiscRx a0 a1 a2 s).imp fun _ h => ⟨h.1, h.2.mv⟩
  | dansRx a0 a1 => exact x_execDansRx a0 a1 s
  | doneRx a0 a1 a2 a3 a4 => exact x_execDoneRx a0 a1 a2 a3 a4 s
  | rediscRx a0 => exact x_execRediscRx a0 s
  | msgStartRx a0 a1 => exact (x_execMsgStartRx a0 a1 s).imp fun _ h => ⟨h.1, h.2.mv⟩
  | startTick => cases h
  | msgStopRx a0 => exact (x_execMsgStopRx a0 s).imp fun _ h => ⟨h.1, h.2.mv⟩
  | peerStopRx a0 a1 => exact (x_execPeerStopRx a0 a1 s).imp fun _ h => ⟨h.1, h.2.mv⟩
  | peerHaltRx a0 a1 => exact (x_execPeerHaltRx a0 a1 s).imp fun _ h => ⟨h.1, h.2.mv⟩
  | ssreqRx a0 a1 => exact (x_execSsreqRx a0 a1 s).imp fun _ h => ⟨h.1, h.2.mv⟩
  | ssdecRx a0 a1 => exact (x_execSsdecRx a0 a1 s).imp fun _ h => ⟨h.1, h.2.mv⟩
  | ssreadyRx a0 => exact (x_execSsreadyRx a0 s).imp fun _ h => ⟨h.1, h.2.mv⟩
  | ssgoRx a0 => exact (x_execSsgoRx a0 s).imp fun _ h => ⟨h.1, h.2.mv⟩
  | ssforbidRx a0 a1 => exact (x_execSsforbidRx a0 a1 s).imp fun _ h => ⟨h.1, h.2.mv⟩
  | ssabandonRx a0 => exact (x_execSsabandonRx a0 s).imp fun _ h => ⟨h.1, h.2.mv⟩
  | userMsgRx a0 a1 => exact (x_execUserMsgRx a0 a1 s).imp fun _ h => ⟨h.1, h.2.mv⟩
  | casAckRx a0 a1 => exact (x_execCasAckRx a0 a1 s).imp fun _ h => ⟨h.1, h.2.mv⟩
  | casNakRx a0 a1 a2 a3 => exact (x_execCasNakRx a0 a1 a2 a3 s).imp fun _ h => ⟨h.1, h.2.mv⟩
  | casAckTimeout a0 => exact (x_execCasAckTimeout a0 s).imp fun _ h => ⟨h.1, h.2.mv⟩
  | statRx a0 a1 a2 a3 a4 a5 => exact (x_execStatRx a0 a1 a2 a3 a4 a5 s).imp fun _ h => ⟨h.1, h.2.mv⟩
  | statTimer => exact (x_execStatTimer s).imp fun _ h => ⟨h.1, h.2.mv⟩
  | memberLostTimeout a0 => exact (x_execMemberLostTimeout a0 s).imp fun _ h => ⟨h.1, h.2.mv⟩
  | posFrameRx a0 a1 a2 a3 a4 a5 a6 => exact (x_execPosFrameRx a0 a1 a2 a3 a4 a5 a6 s).imp fun _ h => ⟨h.1, h.2.mv⟩
  | casLinkLoss a0 a1 => exact (x_execCasLinkLoss a0 a1 s).imp fun _ h => ⟨h.1, h.2.mv⟩
  | casSend => exact (x_execCasSend s).imp fun _ h => ⟨h.1, h.2.mv⟩
  | casResync => exact (x_execCasResync s).imp fun _ h => ⟨h.1, h.2.mv⟩
  | casClrcnt => exact (x_execCasClrcnt s).imp fun _ h => ⟨h.1, h.2.mv⟩
  | dmaStart a0 => exact (x_execDmaStart a0 s).imp fun _ h => ⟨h.1, h.2.mv⟩
  | dmaPause a0 => exact (x_execDmaPause a0 s).imp fun _ h => ⟨h.1, h.2.mv⟩
  | dmaDrain a0 => exact (x_execDmaDrain a0 s).imp fun _ h => ⟨h.1, h.2.mv⟩
  | dmaResume a0 => exact (x_execDmaResume a0 s).imp fun _ h => ⟨h.1, h.2.mv⟩
  | dmaAbort a0 => exact (x_execDmaAbort a0 s).imp fun _ h => ⟨h.1, h.2.mv⟩
  | dmaArm a0 => exact (x_execDmaArm a0 s).imp fun _ h => ⟨h.1, h.2.mv⟩
  | dmaDisarm a0 => exact (x_execDmaDisarm a0 s).imp fun _ h => ⟨h.1, h.2.mv⟩
  | dmaClrerr a0 => exact (x_execDmaClrerr a0 s).imp fun _ h => ⟨h.1, h.2.mv⟩
  | dmaNop a0 => exact (x_execDmaNop a0 s).imp fun _ h => ⟨h.1, h.2.mv⟩
  | dmaSrc a0 => exact (x_execDmaSrc a0 s).imp fun _ h => ⟨h.1, h.2.mv⟩
  | dmaDst a0 => exact (x_execDmaDst a0 s).imp fun _ h => ⟨h.1, h.2.mv⟩
  | dmaSpat a0 => exact (x_execDmaSpat a0 s).imp fun _ h => ⟨h.1, h.2.mv⟩
  | dmaDpat a0 => exact (x_execDmaDpat a0 s).imp fun _ h => ⟨h.1, h.2.mv⟩
  | dmaXfer a0 => exact (x_execDmaXfer a0 s).imp fun _ h => ⟨h.1, h.2.mv⟩
  | dmaSetc a0 => exact (x_execDmaSetc a0 s).imp fun _ h => ⟨h.1, h.2.mv⟩
  | dmaLoop a0 => exact (x_execDmaLoop a0 s).imp fun _ h => ⟨h.1, h.2.mv⟩
  | dmaWait a0 => exact (x_execDmaWait a0 s).imp fun _ h => ⟨h.1, h.2.mv⟩
  | dmaSignal a0 => exact (x_execDmaSignal a0 s).imp fun _ h => ⟨h.1, h.2.mv⟩
  | dmaWri a0 a1 => exact (x_execDmaWri a0 a1 s).imp fun _ h => ⟨h.1, h.2.mv⟩
  | dmaCpl a0 => exact (x_execDmaCpl a0 s).imp fun _ h => ⟨h.1, h.2.mv⟩
  | dmaSwap a0 => exact (x_execDmaSwap a0 s).imp fun _ h => ⟨h.1, h.2.mv⟩
  | dmaEnd a0 => exact (x_execDmaEnd a0 s).imp fun _ h => ⟨h.1, h.2.mv⟩
  | dmaReadCompletion a0 a1 a2 => exact (x_execDmaReadCompletion a0 a1 a2 s).imp fun _ h => ⟨h.1, h.2.mv⟩
  | dmaWriteComplete a0 a1 => exact (x_execDmaWriteComplete a0 a1 s).imp fun _ h => ⟨h.1, h.2.mv⟩
  | dmaPauseDone a0 => exact (x_execDmaPauseDone a0 s).imp fun _ h => ⟨h.1, h.2.mv⟩
  | dmaWaitSatisfied a0 => exact (x_execDmaWaitSatisfied a0 s).imp fun _ h => ⟨h.1, h.2.mv⟩
  | dmaWaitTimeout a0 => exact (x_execDmaWaitTimeout a0 s).imp fun _ h => ⟨h.1, h.2.mv⟩
  | cqfullRelease a0 => exact (x_execCqfullRelease a0 s).imp fun _ h => ⟨h.1, h.2.mv⟩
  | cqIrqTimer a0 => exact (x_execCqIrqTimer a0 s).imp fun _ h => ⟨h.1, h.2.mv⟩
  | cqHeadWrite a0 a1 => exact (x_execCqHeadWrite a0 a1 s).imp fun _ h => ⟨h.1, h.2.mv⟩
  | sigraiseAdd a0 a1 => exact (x_execSigraiseAdd a0 a1 s).imp fun _ h => ⟨h.1, h.2.mv⟩
  | sigraiseSet a0 a1 => exact (x_execSigraiseSet a0 a1 s).imp fun _ h => ⟨h.1, h.2.mv⟩
  | shadowRegisterWrite a0 a1 a2 => exact (x_execShadowRegisterWrite a0 a1 a2 s).imp fun _ h => ⟨h.1, h.2.mv⟩
  | memSleep a0 => exact (x_execMemSleep a0 s).imp fun _ h => ⟨h.1, h.2.mv⟩
  | memWake a0 => exact (x_execMemWake a0 s).imp fun _ h => ⟨h.1, h.2.mv⟩
  | memMarch a0 => exact (x_execMemMarch a0 s).imp fun _ h => ⟨h.1, h.2.mv⟩
  | memStopmarch a0 => exact (x_execMemStopmarch a0 s).imp fun _ h => ⟨h.1, h.2.mv⟩
  | bankTransitionDone a0 => exact (x_execBankTransitionDone a0 s).imp fun _ h => ⟨h.1, h.2.mv⟩
  | marchWindowStart => exact (x_execMarchWindowStart s).imp fun _ h => ⟨h.1, h.2.mv⟩
  | marchWindowDone a0 => exact (x_execMarchWindowDone a0 s).imp fun _ h => ⟨h.1, h.2.mv⟩
  | marchTestDone a0 => exact (x_execMarchTestDone a0 s).imp fun _ h => ⟨h.1, h.2.mv⟩
  | bar2Access a0 a1 => exact (x_execBar2Access a0 a1 s).imp fun _ h => ⟨h.1, h.2.mv⟩
  | bar4Access a0 a1 a2 => exact (x_execBar4Access a0 a1 a2 s).imp fun _ h => ⟨h.1, h.2.mv⟩
  | hstAccessBad a0 a1 a2 => exact (x_execHstAccessBad a0 a1 a2 s).imp fun _ h => ⟨h.1, h.2.mv⟩
  | invarWrite a0 a1 a2 a3 => exact (x_execInvarWrite a0 a1 a2 a3 s).imp fun _ h => ⟨h.1, h.2.mv⟩
  | invarLock => exact (x_execInvarLock s).imp fun _ h => ⟨h.1, h.2.mv⟩
  | w1cFlagClear a0 a1 a2 => exact (x_execW1cFlagClear a0 a1 a2 s).imp fun _ h => ⟨h.1, h.2.mv⟩
  | occClearSelected => exact (x_execOccClearSelected s).imp fun _ h => ⟨h.1, h.2.mv⟩
  | occClearAll => exact (x_execOccClearAll s).imp fun _ h => ⟨h.1, h.2.mv⟩
  | bmeClear => exact (x_execBmeClear s).imp fun _ h => ⟨h.1, h.2.mv⟩
  | bmeSet => exact (x_execBmeSet s).imp fun _ h => ⟨h.1, h.2.mv⟩
  | aerError a0 a1 a2 => exact (x_execAerError a0 a1 a2 s).imp fun _ h => ⟨h.1, h.2.mv⟩
  | l1Entry => exact (x_execL1Entry s).imp fun _ h => ⟨h.1, h.2.mv⟩
  | msixUnmask a0 => exact (x_execMsixUnmask a0 s).imp fun _ h => ⟨h.1, h.2.mv⟩
  | evheadWrite a0 => exact (x_execEvheadWrite a0 s).imp fun _ h => ⟨h.1, h.2.mv⟩
  | evcfgWrite a0 => exact (x_execEvcfgWrite a0 s).imp fun _ h => ⟨h.1, h.2.mv⟩
  | evIrqTimer => exact (x_execEvIrqTimer s).imp fun _ h => ⟨h.1, h.2.mv⟩
  | lanternWriteDone => exact (x_execLanternWriteDone s).imp fun _ h => ⟨h.1, h.2.mv⟩
  | i2cPointerWrite a0 a1 a2 => exact (x_execI2cPointerWrite a0 a1 a2 s).imp fun _ h => ⟨h.1, h.2.mv⟩
  | i2cRead => exact (x_execI2cRead s).imp fun _ h => ⟨h.1, h.2.mv⟩
  | i2cSnapshot => exact (x_execI2cSnapshot s).imp fun _ h => ⟨h.1, h.2.mv⟩
  | registerWrite a0 a1 a2 => cases h
  | adcBackgroundSample a0 a1 => exact (x_execAdcBackgroundSample a0 a1 s).imp fun _ h => ⟨h.1, h.2.mv⟩
  | avsCodeStep a0 => exact (x_execAvsCodeStep a0 s).imp fun _ h => ⟨h.1, h.2.mv⟩
  | powerOn => cases h
  | powerLoss => cases h
  | pciePerstRelease => exact (x_execPciePerstRelease s).imp fun _ h => ⟨h.1, h.2.mv⟩
  | pcieLinkUp a0 a1 => exact (x_execPcieLinkUp a0 a1 s).imp fun _ h => ⟨h.1, h.2.mv⟩
  | tsyncAcqProbeTimer a0 => exact (x_execTsyncAcqProbeTimer a0 s).imp fun _ h => ⟨h.1, h.2.mv⟩
  | casAcqProbeTimer => exact (x_execCasAcqProbeTimer s).imp fun _ h => ⟨h.1, h.2.mv⟩
  | ssTdReached => exact (x_execSsTdReached s).imp fun _ h => ⟨h.1, h.2.mv⟩
  | usageSummaryTimer => exact (x_execUsageSummaryTimer s).imp fun _ h => ⟨h.1, h.2.mv⟩
  | reactiveDelayedCommit a0 => exact (x_execReactiveDelayedCommit a0 s).imp fun _ h => ⟨h.1, h.2.mv⟩
  | speedSampleTick a0 => exact (x_execSpeedSampleTick a0 s).imp fun _ h => ⟨h.1, h.2.mv⟩
  | stepperPwmPeriod a0 a1 a2 => exact (x_execStepperPwmPeriod a0 a1 a2 s).imp fun _ h => ⟨h.1, h.2.mv⟩
  | hostReadTimeout a0 a1 => exact (x_execHostReadTimeout a0 a1 s).imp fun _ h => ⟨h.1, h.2.mv⟩

end Sys2Proof.Machine
end

