-- ==== Sys2Proof/Laws/Ops.lean ====
section
/-!
SUPPORT. What the shared operations can do: the delivery of events, once for all commands.
-/
namespace Sys2Proof.Machine

/-- What one step of delivery may change; `Delivered` without the end of the command. -/
structure Delivering (s t : State) : Prop where
  rest : ∃ r q l n rc oc hd pw jq js jb v c m o,
    t = { s with regs := r,
                 hst := { s.hst with queue := q, lost := l, sinceVec := n, recent := rc, occ := oc, held := hd, l1 := pw },
                 jrn := { s.jrn with queue := jq, jseq := js, busy := jb },
                 cas := { s.cas with sev := v, code := c }, sram := m, out := o }
  regs : ∀ o, o ∉ eventRegs → rd t o = rd s o
  sram : fld s R.HST_EVCFG 1 1 = 0 → t.sram = s.sram
  out : s.out <:+ t.out

theorem Delivering.evcfg {s t : State} (h : Delivering s t) : rd t R.HST_EVCFG = rd s R.HST_EVCFG := h.regs _ (by decide)

theorem Delivering.refl (s : State) : Delivering s s :=
  ⟨⟨_, _, _, _, _, _, _, _, _, _, _, _, _, _, _, rfl⟩, fun _ _ => rfl, fun _ => rfl, List.suffix_refl _⟩

theorem Delivering.trans {s t u : State} (h : Delivering s t) (k : Delivering t u) : Delivering s u := by
  refine ⟨?_, fun o ho => (k.regs o ho).trans (h.regs o ho), fun e => (k.sram ?_).trans (h.sram e), h.out.trans k.out⟩
  · obtain ⟨_, _, _, _, _, _, _, _, _, _, _, _, _, _, _, rfl⟩ := h.rest
    obtain ⟨_, _, _, _, _, _, _, _, _, _, _, _, _, _, _, rfl⟩ := k.rest
    exact ⟨_, _, _, _, _, _, _, _, _, _, _, _, _, _, _, rfl⟩
  · simpa [fld, h.evcfg] using e

/-- A change of the parts that delivery owns, no register among them. -/
theorem Delivering.own (s : State) {q l n rc oc hd pw jq js jb v c o} (h : s.out <:+ o) :
    Delivering s { s with hst := { s.hst with queue := q, lost := l, sinceVec := n, recent := rc, occ := oc, held := hd, l1 := pw },
                          jrn := { s.jrn with queue := jq, jseq := js, busy := jb },
                          cas := { s.cas with sev := v, code := c }, out := o } :=
  ⟨⟨_, _, _, _, _, _, _, _, _, _, _, _, _, _, _, rfl⟩, fun _ _ => rfl, fun _ => rfl, h⟩

theorem delivering_wr {o : Nat} (h : o ∈ eventRegs) (v : Word) (s : State) : Delivering s (wr o v s) :=
  ⟨⟨_, _, _, _, _, _, _, _, _, _, _, _, _, _, _, rfl⟩, fun _ ho => rd_wr_of_ne s v (fun e => ho (e ▸ h)), fun _ => rfl,
    List.suffix_refl _⟩

theorem delivering_toHost (x : Output) (s : State) : Delivering s (toHost x s) := by
  unfold toHost
  split
  · exact Delivering.own s (List.suffix_cons ..)
  · exact Delivering.own s (List.suffix_refl _)

theorem delivering_postWrite (a : Nat) (bs : List Byte) (s : State) :
    Delivering s (postWrite (fld s R.HST_EVCFG 1 1) a bs s) := by
  unfold postWrite
  split
  · exact delivering_toHost ..
  · rename_i h
    split
    · exact ⟨⟨_, _, _, _, _, _, _, _, _, _, _, _, _, _, _, rfl⟩, fun _ _ => rfl, fun e => (h e).elim, List.suffix_refl _⟩
    · exact Delivering.refl s

theorem delivering_sendMsix (v : Fin 64) (s : State) : Delivering s (sendMsix v s) := by
  unfold sendMsix
  split
  · refine delivering_wr ?_ _ _
    have : v.val / 32 = 0 ∨ v.val / 32 = 1 := by omega
    rcases this with h | h <;> rw [h] <;> decide
  · exact delivering_toHost ..

theorem delivering_setFlag (b : Nat) (s : State) : Delivering s (setFlag R.HST_FLAG b s) :=
  (delivering_wr (by decide) _ _).trans (Delivering.own _ (List.suffix_refl _))

theorem delivering_evWrite (e : Event) (s : State) : Delivering s (evWrite e s) := by
  unfold evWrite
  extract_lets tail base s1 s2 n
  have h : Delivering s s2 := (delivering_postWrite ..).trans (delivering_wr (by decide) _ _)
  split
  · exact (h.trans (Delivering.own _ (List.suffix_refl _))).trans (delivering_sendMsix ..)
  · exact h.trans (Delivering.own _ (List.suffix_refl _))

theorem delivering_evLose (e : Event) (s : State) : Delivering s (evLose e s) := by
  unfold evLose
  extract_lets s1
  have h : Delivering s s1 := delivering_wr (by decide) _ _
  split
  · exact h.trans (Delivering.own _ (List.suffix_refl _))
  · exact (h.trans (Delivering.own _ (List.suffix_refl _))).trans (delivering_setFlag ..)

theorem delivering_evQueue (e : Event) (s : State) : Delivering s (evQueue e s) := by
  unfold evQueue
  split
  · exact Delivering.own s (List.suffix_refl _)
  · split
    · exact (Delivering.own s (List.suffix_refl _)).trans (delivering_evLose ..)
    · exact delivering_evLose ..

theorem delivering_noteRecent (e : Event) (s : State) : Delivering s (noteRecent e s) := by
  unfold noteRecent
  split
  · exact Delivering.refl s
  · exact Delivering.own s (List.suffix_refl _)

theorem delivering_evSend (e : Event) (s : State) : Delivering s (evSend e s) := by
  unfold evSend
  split
  · exact Delivering.refl s
  · split
    · exact delivering_evWrite ..
    · exact delivering_evQueue ..

theorem delivering_jStart (s : State) : Delivering s (jStart s) := by
  unfold jStart
  split
  · exact Delivering.own s (List.suffix_refl _)
  · exact Delivering.refl s

theorem delivering_jQueue (r : JRec) (s : State) : Delivering s (jQueue r s).1 := by
  unfold jQueue
  split
  · exact (Delivering.own s (List.suffix_refl _)).trans (delivering_jStart ..)
  · extract_lets k s1
    have h : Delivering s s1 := delivering_wr (by decide) _ _
    split
    · exact h
    · split
      · exact h.trans (Delivering.own _ (List.suffix_refl _))
      · exact h

theorem delivering_jAdd (r : JRec) (s : State) : Delivering s (jAdd r s).1 := by
  have := delivering_jQueue r s
  unfold jAdd
  split
  · simp_all
  · split <;> simp_all

theorem delivering_evDeliver (e : Event) (s : State) : Delivering s (evDeliver e s).1 := by
  unfold evDeliver
  extract_lets e1 u s1
  have h : Delivering s s1 := ((delivering_wr (by decide) _ _).trans (delivering_noteRecent ..)).trans (delivering_evSend ..)
  split
  · exact h.trans (delivering_jAdd ..)
  · exact h

theorem delivering_evDeliverAll (n : Nat) (l : List Event) (s : State) : Delivering s (evDeliverAll n l s) := by
  induction n generalizing l s with
  | zero => exact Delivering.refl s
  | succ n ih =>
    match l with
    | [] => exact Delivering.refl s
    | e :: es =>
      have h := delivering_evDeliver e s
      unfold evDeliverAll
      split
      · rename_i s1 heq; rw [heq] at h; exact h.trans (ih ..)
      · rename_i s1 d heq; rw [heq] at h; exact h.trans (ih ..)

/-- The delivery of the events that a command raised. -/
theorem flush_delivered (s : State) : Delivered s (flush s) := by
  have h := delivering_evDeliverAll (32 * (evSort s.hst.raised).length + 32) (evSort s.hst.raised)
    { s with hst := { s.hst with raised := [] }, cas := { s.cas with noted := 0 }, sigOver := [] }
  obtain ⟨_, _, _, _, _, _, _, _, _, _, _, _, _, _, _, r⟩ := h.rest
  unfold flush
  dsimp only
  split
  · exact ⟨⟨_, _, _, _, _, _, _, _, _, _, _, _, _, _, _, r⟩, fun o ho => h.regs o ho, fun e => h.sram e, h.out, fun e => by
      have q : { s.hst with raised := [] } = s.hst := by rw [← e]
      simp only [e, evSort, List.foldl_nil, q]
      rfl⟩
  · refine ⟨⟨_, _, _, _, _, _, _, _, _, _, _, _, _, _, _, by rw [r]⟩, fun o ho => h.regs o ho, fun e => h.sram e, h.out, fun e => ?_⟩
    have q : { s.hst with raised := [] } = s.hst := by rw [← e]
    simp only [e, evSort, List.foldl_nil, List.drop_nil, q]
    rfl

/-- A command that ends in `finish` answers a next state: its own effect with its events delivered. -/
theorem finish_next (s : State) : ∃ t, finish s = .next t ∧ Delivered s t := ⟨_, rfl, flush_delivered s⟩

/-- A meaning that ends in `finish u` completes with the effect `u`. -/
theorem completes_of {c : Instr} {s u : State} (h : exec c s = finish u) : Completes c s u := by
  obtain ⟨t, e, d⟩ := finish_next u
  exact ⟨t, h.trans e, d⟩

end Sys2Proof.Machine
end

