-- ==== Sys2Proof/Laws/Effects.lean ====
section
/-!
SUPPORT. What the shared operations do to the state: reads after writes, the delivery of events, the severities, the entries into the
global states, the refusals, and the reset's parts.
-/
namespace Sys2Proof.Machine

/-! ## Reads, delivery and severities -/
theorem rd_wr (o o' : Nat) (v : Word) (s : State) (h : s.regsWf) :
    rd (wr o v s) o' = if o = o' then v &&& regStored o else rd s o' := by
  split
  · subst ‹_›; exact rd_wr_self _ _ _ h
  · exact rd_wr_of_ne _ _ (Ne.symm ‹_›)

theorem flush_regs (s : State) (o : Nat) (h : o ∉ eventRegs) : rd (flush s) o = rd s o := (flush_delivered s).regs o h

theorem haltable_congr {s t : State} (h : t.glb.state = s.glb.state) : haltable t = haltable s := by unfold haltable; rw [h]

theorem raise_halt {k : EvKind} (i a0 a1 a2 : Nat) (s : State) (hk : k.sev = .halt) (h : haltable s = true) :
    raise k i a0 a1 a2 s = enterSafeHold k.code.toNat (logPeer k i a0 a1 a2 s) := by
  unfold raise raiseHalt; simp only [hk, h, if_true]

theorem raise_halt' {k : EvKind} (i a0 a1 a2 : Nat) (s : State) (hk : k.sev = .halt) (h : haltable s = false) :
    raise k i a0 a1 a2 s = (logPeer k i a0 a1 a2 s) := by
  unfold raise raiseHalt; simp only [hk, h]; rfl

theorem raise_stop {k : EvKind} (i a0 a1 a2 : Nat) (s : State) (hk : k.sev = .stop) (h : s.glb.state = .print) :
    raise k i a0 a1 a2 s = enterStopping k.code.toNat (logPeer k i a0 a1 a2 s) := by
  unfold raise; simp only [hk, h, if_true]

theorem raise_stop' {k : EvKind} (i a0 a1 a2 : Nat) (s : State) (hk : k.sev = .stop) (h : s.glb.state ≠ .print) :
    raise k i a0 a1 a2 s = logPeer k i a0 a1 a2 s := by
  unfold raise; simp only [hk, h, if_false]

theorem raise_log {k : EvKind} (i a0 a1 a2 : Nat) (s : State) (hk : k.sev = .info ∨ k.sev = .warn) :
    raise k i a0 a1 a2 s = logPeer k i a0 a1 a2 s := by
  unfold raise; rcases hk with h | h <;> simp only [h]

theorem enterSafeHold_state (c : Nat) (s : State) : (enterSafeHold c s).glb.state = .safeHold := by
  unfold enterSafeHold
  dsimp only
  have h : ∀ x : State, x.glb.state = .safeHold → (holdUnits x).glb.state = .safeHold := fun x hx => by
    rw [(fq_holdUnits x).falls, hx]
  apply h
  split <;> simp [holdBru, goto_state]

theorem flush_still {s : State} (h : s.hst.raised = []) : flush s = { s with cas := { s.cas with noted := 0 }, sigOver := [] } :=
  (flush_delivered s).still h

theorem flush_rest (s : State) : (flush s).glb = s.glb ∧ (flush s).ldr = s.ldr ∧ (flush s).now = s.now := by
  obtain ⟨_, _, _, _, _, _, _, _, _, _, _, _, _, _, _, e⟩ := (flush_delivered s).rest
  rw [e]; exact ⟨rfl, rfl, rfl⟩

theorem forEach_same {α : Type} (π : State → α) (l : List Nat) (f : Nat → State → State) (h : ∀ i s, π (f i s) = π s) (s : State) :
    π (forEach l f s) = π s := by
  unfold forEach
  induction l generalizing s with
  | nil => rfl
  | cons a l ih => exact (ih _).trans (h a s)

theorem get_filterMap {α : Type} (f : Nat × α → Option (Nat × α)) (l : Sparse α) (o : Nat) (d : α)
    (h : ∀ p q, f p = some q → q.1 = p.1) (hk : ∀ v, f (o, v) = some (o, v)) : Sparse.get d (l.filterMap f) o = Sparse.get d l o := by
  induction l with
  | nil => rfl
  | cons p l ih =>
    obtain ⟨k, v⟩ := p
    rw [List.filterMap_cons]
    by_cases e : k = o
    · subst e; rw [hk]; simp [Sparse.get]
    · cases hf : f (k, v) with
      | none => simp only [Sparse.get, e, if_false]; exact ih
      | some q =>
        have := h _ _ hf
        obtain ⟨k', v'⟩ := q
        simp only at this
        subst this
        simp only [Sparse.get, e, if_false]; exact ih

theorem rd_resetWords (scope : Nat → Bool) (keep : Nat → Word) (s : State) (o : Nat) (h : scope o = false) :
    rd (resetWords scope keep s) o = rd s o := by
  unfold rd resetWords
  apply get_filterMap
  · intro p q e
    split at e
    · dsimp only at e; split at e
      · cases e
      · cases e; rfl
    · cases e; rfl
  · intro v; simp [h]

/-- A host write to a register of BAR0 whose window is open has its effect. -/
theorem viaBar0_open (off : Nat) (f : State → State) (s : State) (h : windowOpen s 0 off true = true) :
    viaBar0 off f s = f (hostAccess s) := by
  unfold viaBar0; rw [if_pos h]

/-- A command with a table of its own acts once its window is open. -/
theorem viaTable_open (off : Nat) (f : State → State) (s : State) (h : windowOpen s 0 off true = true) (o : 0x020000 ≤ off) :
    viaTable off f s = f (hostAccess s) := by
  have n : ¬(s.glb.state = .reset ∨ s.glb.state = .imageLoad) := by
    rintro (e | e) <;> rw [windowOpen, e] at h <;> simp at h
    omega
  rw [viaTable, if_neg n, viaBar0_open off f s h]

/-- A host write to a register whose window is closed is an early access. -/
theorem viaBar0_closed (off : Nat) (f : State → State) (s : State) (h : windowOpen s 0 off true = false) :
    viaBar0 off f s = earlyAccess 0 off true 0 (hostAccess s) := by
  unfold viaBar0; rw [h]; rfl

/-! ## The meanings end in the delivery of their events -/
theorem exec_finish (c : Instr) (s : State) : ∃ x, exec c s = finish x := by
  cases c <;> exact ⟨_, rfl⟩

theorem flush_raised (s : State) : (flush s).hst.raised = [] := by
  obtain ⟨_, _, _, _, _, _, _, _, _, _, _, _, _, _, _, e⟩ := (flush_delivered s).rest
  rw [e]

/-- Nothing is left of what a command notes for itself alone. -/
theorem flush_marks (s : State) : (flush s).cas.noted = 0 ∧ (flush s).sigOver = [] := by
  obtain ⟨_, _, _, _, _, _, _, _, _, _, _, _, _, _, _, e⟩ := (flush_delivered s).rest
  rw [e]; exact ⟨rfl, rfl⟩

theorem shutdown_of_moves {s t : State} (h : s.glb.state = .shutdown) (k : Moves s.glb.state t.glb.state) : t.glb.state = .shutdown := by
  rw [h] at k; simpa [Moves, GState.onward] using k

theorem imgCtl_refused (c n : Nat) (s : State) (h : s.glb.state ≠ .imageLoad) (k : s.glb.state ≠ .idle) : (imgCtl c n s).glb.state = s.glb.state ∧ (imgCtl c n s).ldr.image = s.ldr.image := by
  unfold imgCtl
  split
  · exact ⟨rfl, rfl⟩
  · dsimp only
    have e : (setF R.IMG_CTL 5 4 n s).glb.state = s.glb.state := rfl
    split
    · exact ⟨rfl, rfl⟩
    · rw [if_pos]
      · exact ⟨(fq_imgResult ..).falls, (fq_imgResult ..).image⟩
      · unfold imgTable; simp only [e, h, k, false_and, if_false]; split; simp; split; simp; split; simp; split; simp; split <;> simp

theorem finish_eq_next {f : State → State} {s t : State} (h : finish (f s) = .next t) : t = flush (f s) := by unfold finish at h; cases h; rfl

theorem glbRun_refused (c : Nat) (f : State → Nat × State) (s : State) (h : (f s).2 = s) : (glbRun c f s).glb.state = s.glb.state ∧ (glbRun c f s).ldr.image = s.ldr.image := by
  unfold glbRun; split
  · exact ⟨rfl, rfl⟩
  · dsimp only; rw [h]; exact ⟨(fq_glbResult ..).falls, (fq_glbResult ..).image⟩

/-! ## The entries into the global states -/
theorem falls_armed {h : GState} (k : Falls .armed h) : h = .armed ∨ h = .safeHold := by rcases k with h | ⟨h, -⟩ | ⟨h, -⟩ <;> simp_all

theorem falls_idle {h : GState} (k : Falls .idle h) : h = .idle ∨ h = .safeHold := by rcases k with h | ⟨h, -⟩ | ⟨h, -⟩ <;> simp_all

theorem falls_stop {h : GState} (k : Falls .stopping h) : h = .stopping ∨ h = .safeHold := by rcases k with h | ⟨h, -⟩ | ⟨h, -⟩ <;> simp_all

theorem falls_print {h : GState} (k : Falls .print h) : h = .print ∨ h = .stopping ∨ h = .safeHold := by rcases k with h | ⟨-, h⟩ | ⟨h, -⟩ <;> simp_all

theorem falls_fr {g : GState} {s t : State} (h : Falls g s.glb.state) (k : Fr s t) : Falls g t.glb.state := Falls.trans h k.falls

theorem enterArmed_state (s : State) : Falls .armed (enterArmed s).glb.state := by
  have h0 : Falls .armed (armPipes (goto .armed 0 s)).glb.state := by
    have := (fr_armPipes (goto .armed 0 s)).falls
    rwa [goto_state] at this
  have key : ∀ x : State, Falls .armed x.glb.state → Falls .armed (forEach (List.range 16) svcPending (askWarming x)).glb.state := fun x hx =>
    falls_fr (falls_fr hx (fr_askWarming _)) (fr_forEach _ _ (fun _ _ => fr_svcPending ..) _)
  have k2 : ∀ x : State, Falls .armed x.glb.state → Falls .armed (unkillAll x).glb.state := fun x hx =>
    falls_fr hx (fr_unkillAll _)
  have k3 : ∀ x : State, Falls .armed x.glb.state → Falls .armed (usageAll x).glb.state := fun x hx => by
    rw [(fq_usageAll _).falls]; exact hx
  have k4 : ∀ l (x : State), Falls .armed x.glb.state → Falls .armed (forEach l loadBanks x).glb.state := fun l x hx => by
    rw [(fq_forEach _ _ (fun i s => fq_loadBanks ..) _).falls]; exact hx
  unfold enterArmed
  dsimp only
  generalize armPipes (goto .armed 0 s) = y at h0 ⊢
  with_reducible apply key
  split
  · exact k3 _ (k2 _ h0)
  · exact k2 _ (k4 _ _ h0)

theorem enterPrint_state (s : State) : Falls .print (enterPrint s).glb.state := by
  have key : ∀ x : State, x.glb.state = .print → Falls .print (mediaGate (forEach (List.range 16) (fun p s => portPump 8 p (pumpPipe p s)) (scnPrint (printPipes x)))).glb.state := fun x hx => by
    have h0 : Falls .print (scnPrint (printPipes x)).glb.state := by
      have h2 : Falls .print (printPipes x).glb.state := by
        rw [(fq_printPipes x).falls, hx]; exact .inl rfl
      exact falls_fr h2 (fr_scnPrint _)
    exact falls_fr (falls_fr h0 (fr_forEach _ _ (fun i s => (fr_pumpPipe ..).trans (fq_portPump ..).fr) _)) (fr_mediaGate _)
  unfold enterPrint
  dsimp only
  with_reducible apply key
  exact goto_state _ _ _

theorem enterShutdown_state (c : Nat) (s : State) : (enterShutdown c s).glb.state = .shutdown := by
  unfold enterShutdown
  dsimp only
  rw [(fq_holdUnits _).falls]
  simp [holdBru, goto_state]

theorem refreshAll_idle (s : State) (h : s.glb.state = .idle) : (refreshAll s).glb.state = .idle := by
  have e : firingState s = false := by simp [firingState, h]
  unfold refreshAll
  rw [if_neg (by rw [e]; exact Bool.false_ne_true), (fq_forEach _ _ (fun d s => fq_refreshEn ..) _).falls, h]

theorem disarm_state (s : State) : (disarm s).glb.state = .idle := by
  unfold disarm
  dsimp only
  rw [(fq_usageAll _).falls, (fq_forEach _ _ (fun g s => fq_restGen ..) _).falls]
  rw [(fq_forEach _ _ (fun d s => ?_) _).falls]
  · exact refreshAll_idle _ (by rw [(fq_forEach _ _ (fun d s => fq_sendKill ..) _).falls, goto_state])
  · exact .ite (.trans (fq_modDot ..) (fq_setPipe ..)) (.refl _)

theorem recover_state (s : State) : (recover s).glb.state = .idle := by
  unfold recover
  dsimp only
  split
  · rw [(fq_forEach _ _ (fun g s => fq_portDown ..) _).falls]
    show (eeResume _).glb.state = _
    rw [(fq_eeResume _).falls, goto_state]
  · rw [(fq_eeResume _).falls, goto_state]

/-! ## The parts of a reset -/
theorem foldl_free (l : List Nat) (f : List Byte → BitVec 64 → List Byte) (a : List Byte) (s : State) :
   ∃ n, (l.foldl (fun (acc : List Byte × State) _ => let d := drawFree acc.2; (f acc.1 d.1, d.2)) (a, s)).2 = { s with freeCtr := n } := by
  induction l generalizing a s with
  | nil => exact ⟨_, rfl⟩
  | cons x l ih => obtain ⟨n, e⟩ := ih (f a (drawFree s).1) (drawFree s).2; exact ⟨n, e.trans rfl⟩

theorem jTear_facts (s : State) : (s.jrn.busy = none → (jTear s).jrn.records = s.jrn.records) ∧ (jTear s).ldr = s.ldr ∧ (jTear s).pending = s.pending := by
  unfold jTear
  split
  · obtain ⟨n, e⟩ := foldl_free (List.range 8) (fun a d => a ++ leBytes 8 d.toNat) [] s
    refine ⟨fun h => by simp_all, ?_, ?_⟩ <;> (simp only [drawFree] at e ⊢; rw [e])
  · exact ⟨fun _ => rfl, rfl, rfl⟩
/-- Only the gates, the motors' outputs and the record of outputs differ. -/
structure Pn (s t : State) : Prop where
  rest : ∃ g m o, t = { s with gate := g, mot := m, out := o }

theorem Pn.refl (s) : Pn s s := ⟨_, _, _, rfl⟩

theorem Pn.trans {s t u : State} (h : Pn s t) (k : Pn t u) : Pn s u := by
  obtain ⟨g, m, o, rfl⟩ := h.rest; obtain ⟨g', m', o', rfl⟩ := k.rest; exact ⟨_, _, _, rfl⟩

theorem pn_forEach (l : List Nat) (f : Nat → State → State) (h : ∀ i s, Pn s (f i s)) (s : State) : Pn s (forEach l f s) := by
  unfold forEach
  induction l generalizing s with
  | nil => exact .refl s
  | cons a l ih => exact (h a s).trans (ih _)

theorem pn_driveEn (p b s) : Pn s (driveEn p b s) := by unfold driveEn emit; split <;> exact ⟨_, _, _, rfl⟩

theorem pn_putGates (n g s) : Pn s (putGates n g s) := by unfold putGates emit modMo; split <;> exact ⟨_, _, _, rfl⟩

theorem pn_eePin (e n o b s) : Pn s (eePin e n o b s) := by unfold eePin emit; split <;> exact ⟨_, _, _, rfl⟩

theorem pn_pinsOff (s) : Pn s (pinsOff s) := by
  unfold pinsOff
  exact ((pn_forEach _ _ (fun i s => pn_driveEn ..) _).trans (pn_forEach _ _ (fun i s => pn_putGates ..) _)).trans
    (pn_forEach _ _ (fun i s => ((pn_eePin ..).trans (pn_eePin ..)).trans (pn_eePin ..)) _)

theorem pinsOff_rest (s : State) : ∃ g m o, pinsOff s = { s with gate := g, mot := m, out := o } := (pn_pinsOff s).rest

theorem pinsOff_ldr (s : State) : (pinsOff s).ldr = s.ldr := by obtain ⟨g, m, o, e⟩ := pinsOff_rest s; rw [e]
def reborn (s : State) : State :=
  let t := pinLevels s (nonVolatile s State.reset)
  { t with glb := { t.glb with porst := true } }

theorem porst_eq (s) : porst s = reborn (pinsOff (jTear (driveAvs 36 s))) := by unfold porst reborn; dsimp only

/-! ## DMA and output -/
theorem dc_marchYield (a k n : Nat) (s : State) : dc (marchYield a k s) n = dc s n := by
  unfold marchYield; split
  · split <;> rfl
  · rfl

theorem foldl_emit (l : List Output) (s : State) : (l.foldl (fun s x => emit x s) s).out = l.reverse ++ s.out ∧ (l.foldl (fun s x => emit x s) s).hst = s.hst := by
  induction l generalizing s with
  | nil => exact ⟨rfl, rfl⟩
  | cons x l ih => obtain ⟨a, b⟩ := ih (emit x s); exact ⟨by rw [List.foldl_cons, a]; simp [emit], b⟩

end Sys2Proof.Machine
end

