-- ==== Sys2Proof/Laws/State.lean ====
section
/-!
SUPPORT. What each named update leaves of the state, field by field, each true by unfolding; and what the unit that an update names
reads after it.
-/
namespace Sys2Proof.Machine

/-! ## A vector of units -/

theorem vat_vset {α : Type} {n : Nat} [NeZero n] (v : Vector α n) (i j : Nat) (x : α) :
    vat (vset v i x) j = if i % n = j % n then x else vat v j := by
  unfold vat vset
  rw [Vector.getElem_set]

@[simp] theorem vat_vset_self {α : Type} {n : Nat} [NeZero n] (v : Vector α n) (i : Nat) (x : α) : vat (vset v i x) i = x := by
  rw [vat_vset, if_pos rfl]

theorem vat_vset_of_ne {α : Type} {n : Nat} [NeZero n] (v : Vector α n) {i j : Nat} (x : α) (h : i % n ≠ j % n) :
    vat (vset v i x) j = vat v j := by
  rw [vat_vset, if_neg h]

@[simp] theorem hp_modHlp (n : Nat) (f : Hlp → Hlp) (s : State) : hp (modHlp n f s) n = f (hp s n) := vat_vset_self ..
@[simp] theorem dp_modDot (n : Nat) (f : Pipe → Pipe) (s : State) : dp (modDot n f s) n = f (dp s n) := vat_vset_self ..
@[simp] theorem lt_modGen (n : Nat) (f : Gen → Gen) (s : State) : lt (modGen n f s) n = f (lt s n) := vat_vset_self ..
@[simp] theorem dc_modDma (n : Nat) (f : Dma → Dma) (s : State) : dc (modDma n f s) n = f (dc s n) := vat_vset_self ..
@[simp] theorem nh_modNhl (n : Nat) (f : Nhl → Nhl) (s : State) : nh (modNhl n f s) n = f (nh s n) := vat_vset_self ..
@[simp] theorem mo_modMo (n : Nat) (f : Motor → Motor) (s : State) : mo (modMo n f s) n = f (mo s n) := vat_vset_self ..
@[simp] theorem pch_modPc (n : Nat) (f : Pc → Pc) (s : State) : pch (modPc n f s) n = f (pch s n) := vat_vset_self ..
@[simp] theorem eeu_modEe (n : Nat) (f : Ee → Ee) (s : State) : eeu (modEe n f s) n = f (eeu s n) := vat_vset_self ..
@[simp] theorem th_modThm (n : Nat) (f : Thm → Thm) (s : State) : th (modThm n f s) n = f (th s n) := vat_vset_self ..
@[simp] theorem ax_modAx (n : Nat) (f : Axis → Axis) (s : State) : ax (modAx n f s) n = f (ax s n) := vat_vset_self ..

@[simp] theorem casPort_modCasPort (n : Nat) (f : CasPort → CasPort) (s : State) : casPort (modCasPort n f s) n = f (casPort s n) := by
  unfold casPort modCasPort modCas
  split <;> rfl

/-! ## wr -/

@[simp] theorem wr_pending (o : Nat) (v : Word) (s : State) : (wr o v s).pending = s.pending := rfl
@[simp] theorem wr_now (o : Nat) (v : Word) (s : State) : (wr o v s).now = s.now := rfl
@[simp] theorem wr_sram (o : Nat) (v : Word) (s : State) : (wr o v s).sram = s.sram := rfl
@[simp] theorem wr_page (o : Nat) (v : Word) (s : State) : (wr o v s).page = s.page := rfl
@[simp] theorem wr_glb (o : Nat) (v : Word) (s : State) : (wr o v s).glb = s.glb := rfl
@[simp] theorem wr_ldr (o : Nat) (v : Word) (s : State) : (wr o v s).ldr = s.ldr := rfl
@[simp] theorem wr_bru (o : Nat) (v : Word) (s : State) : (wr o v s).bru = s.bru := rfl
@[simp] theorem wr_hst (o : Nat) (v : Word) (s : State) : (wr o v s).hst = s.hst := rfl
@[simp] theorem wr_jrn (o : Nat) (v : Word) (s : State) : (wr o v s).jrn = s.jrn := rfl
@[simp] theorem wr_dot (o : Nat) (v : Word) (s : State) : (wr o v s).dot = s.dot := rfl
@[simp] theorem wr_gen (o : Nat) (v : Word) (s : State) : (wr o v s).gen = s.gen := rfl
@[simp] theorem wr_gate (o : Nat) (v : Word) (s : State) : (wr o v s).gate = s.gate := rfl
@[simp] theorem wr_hlp (o : Nat) (v : Word) (s : State) : (wr o v s).hlp = s.hlp := rfl
@[simp] theorem wr_thm (o : Nat) (v : Word) (s : State) : (wr o v s).thm = s.thm := rfl
@[simp] theorem wr_thmg (o : Nat) (v : Word) (s : State) : (wr o v s).thmg = s.thmg := rfl
@[simp] theorem wr_nhl (o : Nat) (v : Word) (s : State) : (wr o v s).nhl = s.nhl := rfl
@[simp] theorem wr_hostresAt (o : Nat) (v : Word) (s : State) : (wr o v s).hostresAt = s.hostresAt := rfl
@[simp] theorem wr_scn (o : Nat) (v : Word) (s : State) : (wr o v s).scn = s.scn := rfl
@[simp] theorem wr_pc (o : Nat) (v : Word) (s : State) : (wr o v s).pc = s.pc := rfl
@[simp] theorem wr_enc (o : Nat) (v : Word) (s : State) : (wr o v s).enc = s.enc := rfl
@[simp] theorem wr_ee (o : Nat) (v : Word) (s : State) : (wr o v s).ee = s.ee := rfl
@[simp] theorem wr_stp (o : Nat) (v : Word) (s : State) : (wr o v s).stp = s.stp := rfl
@[simp] theorem wr_mot (o : Nat) (v : Word) (s : State) : (wr o v s).mot = s.mot := rfl
@[simp] theorem wr_ss (o : Nat) (v : Word) (s : State) : (wr o v s).ss = s.ss := rfl
@[simp] theorem wr_cas (o : Nat) (v : Word) (s : State) : (wr o v s).cas = s.cas := rfl
@[simp] theorem wr_dma (o : Nat) (v : Word) (s : State) : (wr o v s).dma = s.dma := rfl
@[simp] theorem wr_cqSince (o : Nat) (v : Word) (s : State) : (wr o v s).cqSince = s.cqSince := rfl
@[simp] theorem wr_sigSat (o : Nat) (v : Word) (s : State) : (wr o v s).sigSat = s.sigSat := rfl
@[simp] theorem wr_dmaTurn (o : Nat) (v : Word) (s : State) : (wr o v s).dmaTurn = s.dmaTurn := rfl
@[simp] theorem wr_mem (o : Nat) (v : Word) (s : State) : (wr o v s).mem = s.mem := rfl
@[simp] theorem wr_out (o : Nat) (v : Word) (s : State) : (wr o v s).out = s.out := rfl
@[simp] theorem wr_freeCtr (o : Nat) (v : Word) (s : State) : (wr o v s).freeCtr = s.freeCtr := rfl

/-! ## setF -/

@[simp] theorem setF_pending (o hi lo v : Nat) (s : State) : (setF o hi lo v s).pending = s.pending := rfl
@[simp] theorem setF_now (o hi lo v : Nat) (s : State) : (setF o hi lo v s).now = s.now := rfl
@[simp] theorem setF_sram (o hi lo v : Nat) (s : State) : (setF o hi lo v s).sram = s.sram := rfl
@[simp] theorem setF_page (o hi lo v : Nat) (s : State) : (setF o hi lo v s).page = s.page := rfl
@[simp] theorem setF_glb (o hi lo v : Nat) (s : State) : (setF o hi lo v s).glb = s.glb := rfl
@[simp] theorem setF_ldr (o hi lo v : Nat) (s : State) : (setF o hi lo v s).ldr = s.ldr := rfl
@[simp] theorem setF_bru (o hi lo v : Nat) (s : State) : (setF o hi lo v s).bru = s.bru := rfl
@[simp] theorem setF_hst (o hi lo v : Nat) (s : State) : (setF o hi lo v s).hst = s.hst := rfl
@[simp] theorem setF_jrn (o hi lo v : Nat) (s : State) : (setF o hi lo v s).jrn = s.jrn := rfl
@[simp] theorem setF_dot (o hi lo v : Nat) (s : State) : (setF o hi lo v s).dot = s.dot := rfl
@[simp] theorem setF_gen (o hi lo v : Nat) (s : State) : (setF o hi lo v s).gen = s.gen := rfl
@[simp] theorem setF_gate (o hi lo v : Nat) (s : State) : (setF o hi lo v s).gate = s.gate := rfl
@[simp] theorem setF_hlp (o hi lo v : Nat) (s : State) : (setF o hi lo v s).hlp = s.hlp := rfl
@[simp] theorem setF_thm (o hi lo v : Nat) (s : State) : (setF o hi lo v s).thm = s.thm := rfl
@[simp] theorem setF_thmg (o hi lo v : Nat) (s : State) : (setF o hi lo v s).thmg = s.thmg := rfl
@[simp] theorem setF_nhl (o hi lo v : Nat) (s : State) : (setF o hi lo v s).nhl = s.nhl := rfl
@[simp] theorem setF_hostresAt (o hi lo v : Nat) (s : State) : (setF o hi lo v s).hostresAt = s.hostresAt := rfl
@[simp] theorem setF_scn (o hi lo v : Nat) (s : State) : (setF o hi lo v s).scn = s.scn := rfl
@[simp] theorem setF_pc (o hi lo v : Nat) (s : State) : (setF o hi lo v s).pc = s.pc := rfl
@[simp] theorem setF_enc (o hi lo v : Nat) (s : State) : (setF o hi lo v s).enc = s.enc := rfl
@[simp] theorem setF_ee (o hi lo v : Nat) (s : State) : (setF o hi lo v s).ee = s.ee := rfl
@[simp] theorem setF_stp (o hi lo v : Nat) (s : State) : (setF o hi lo v s).stp = s.stp := rfl
@[simp] theorem setF_mot (o hi lo v : Nat) (s : State) : (setF o hi lo v s).mot = s.mot := rfl
@[simp] theorem setF_ss (o hi lo v : Nat) (s : State) : (setF o hi lo v s).ss = s.ss := rfl
@[simp] theorem setF_cas (o hi lo v : Nat) (s : State) : (setF o hi lo v s).cas = s.cas := rfl
@[simp] theorem setF_dma (o hi lo v : Nat) (s : State) : (setF o hi lo v s).dma = s.dma := rfl
@[simp] theorem setF_cqSince (o hi lo v : Nat) (s : State) : (setF o hi lo v s).cqSince = s.cqSince := rfl
@[simp] theorem setF_sigSat (o hi lo v : Nat) (s : State) : (setF o hi lo v s).sigSat = s.sigSat := rfl
@[simp] theorem setF_dmaTurn (o hi lo v : Nat) (s : State) : (setF o hi lo v s).dmaTurn = s.dmaTurn := rfl
@[simp] theorem setF_mem (o hi lo v : Nat) (s : State) : (setF o hi lo v s).mem = s.mem := rfl
@[simp] theorem setF_out (o hi lo v : Nat) (s : State) : (setF o hi lo v s).out = s.out := rfl
@[simp] theorem setF_freeCtr (o hi lo v : Nat) (s : State) : (setF o hi lo v s).freeCtr = s.freeCtr := rfl

/-! ## incF -/

@[simp] theorem incF_pending (o hi lo : Nat) (s : State) : (incF o hi lo s).pending = s.pending := rfl
@[simp] theorem incF_now (o hi lo : Nat) (s : State) : (incF o hi lo s).now = s.now := rfl
@[simp] theorem incF_sram (o hi lo : Nat) (s : State) : (incF o hi lo s).sram = s.sram := rfl
@[simp] theorem incF_page (o hi lo : Nat) (s : State) : (incF o hi lo s).page = s.page := rfl
@[simp] theorem incF_glb (o hi lo : Nat) (s : State) : (incF o hi lo s).glb = s.glb := rfl
@[simp] theorem incF_ldr (o hi lo : Nat) (s : State) : (incF o hi lo s).ldr = s.ldr := rfl
@[simp] theorem incF_bru (o hi lo : Nat) (s : State) : (incF o hi lo s).bru = s.bru := rfl
@[simp] theorem incF_hst (o hi lo : Nat) (s : State) : (incF o hi lo s).hst = s.hst := rfl
@[simp] theorem incF_jrn (o hi lo : Nat) (s : State) : (incF o hi lo s).jrn = s.jrn := rfl
@[simp] theorem incF_dot (o hi lo : Nat) (s : State) : (incF o hi lo s).dot = s.dot := rfl
@[simp] theorem incF_gen (o hi lo : Nat) (s : State) : (incF o hi lo s).gen = s.gen := rfl
@[simp] theorem incF_gate (o hi lo : Nat) (s : State) : (incF o hi lo s).gate = s.gate := rfl
@[simp] theorem incF_hlp (o hi lo : Nat) (s : State) : (incF o hi lo s).hlp = s.hlp := rfl
@[simp] theorem incF_thm (o hi lo : Nat) (s : State) : (incF o hi lo s).thm = s.thm := rfl
@[simp] theorem incF_thmg (o hi lo : Nat) (s : State) : (incF o hi lo s).thmg = s.thmg := rfl
@[simp] theorem incF_nhl (o hi lo : Nat) (s : State) : (incF o hi lo s).nhl = s.nhl := rfl
@[simp] theorem incF_hostresAt (o hi lo : Nat) (s : State) : (incF o hi lo s).hostresAt = s.hostresAt := rfl
@[simp] theorem incF_scn (o hi lo : Nat) (s : State) : (incF o hi lo s).scn = s.scn := rfl
@[simp] theorem incF_pc (o hi lo : Nat) (s : State) : (incF o hi lo s).pc = s.pc := rfl
@[simp] theorem incF_enc (o hi lo : Nat) (s : State) : (incF o hi lo s).enc = s.enc := rfl
@[simp] theorem incF_ee (o hi lo : Nat) (s : State) : (incF o hi lo s).ee = s.ee := rfl
@[simp] theorem incF_stp (o hi lo : Nat) (s : State) : (incF o hi lo s).stp = s.stp := rfl
@[simp] theorem incF_mot (o hi lo : Nat) (s : State) : (incF o hi lo s).mot = s.mot := rfl
@[simp] theorem incF_ss (o hi lo : Nat) (s : State) : (incF o hi lo s).ss = s.ss := rfl
@[simp] theorem incF_cas (o hi lo : Nat) (s : State) : (incF o hi lo s).cas = s.cas := rfl
@[simp] theorem incF_dma (o hi lo : Nat) (s : State) : (incF o hi lo s).dma = s.dma := rfl
@[simp] theorem incF_cqSince (o hi lo : Nat) (s : State) : (incF o hi lo s).cqSince = s.cqSince := rfl
@[simp] theorem incF_sigSat (o hi lo : Nat) (s : State) : (incF o hi lo s).sigSat = s.sigSat := rfl
@[simp] theorem incF_dmaTurn (o hi lo : Nat) (s : State) : (incF o hi lo s).dmaTurn = s.dmaTurn := rfl
@[simp] theorem incF_mem (o hi lo : Nat) (s : State) : (incF o hi lo s).mem = s.mem := rfl
@[simp] theorem incF_out (o hi lo : Nat) (s : State) : (incF o hi lo s).out = s.out := rfl
@[simp] theorem incF_freeCtr (o hi lo : Nat) (s : State) : (incF o hi lo s).freeCtr = s.freeCtr := rfl

/-! ## setFlag -/

@[simp] theorem setFlag_pending (o b : Nat) (s : State) : (setFlag o b s).pending = s.pending := rfl
@[simp] theorem setFlag_now (o b : Nat) (s : State) : (setFlag o b s).now = s.now := rfl
@[simp] theorem setFlag_sram (o b : Nat) (s : State) : (setFlag o b s).sram = s.sram := rfl
@[simp] theorem setFlag_page (o b : Nat) (s : State) : (setFlag o b s).page = s.page := rfl
@[simp] theorem setFlag_glb (o b : Nat) (s : State) : (setFlag o b s).glb = s.glb := rfl
@[simp] theorem setFlag_ldr (o b : Nat) (s : State) : (setFlag o b s).ldr = s.ldr := rfl
@[simp] theorem setFlag_bru (o b : Nat) (s : State) : (setFlag o b s).bru = s.bru := rfl
@[simp] theorem setFlag_jrn (o b : Nat) (s : State) : (setFlag o b s).jrn = s.jrn := rfl
@[simp] theorem setFlag_dot (o b : Nat) (s : State) : (setFlag o b s).dot = s.dot := rfl
@[simp] theorem setFlag_gen (o b : Nat) (s : State) : (setFlag o b s).gen = s.gen := rfl
@[simp] theorem setFlag_gate (o b : Nat) (s : State) : (setFlag o b s).gate = s.gate := rfl
@[simp] theorem setFlag_hlp (o b : Nat) (s : State) : (setFlag o b s).hlp = s.hlp := rfl
@[simp] theorem setFlag_thm (o b : Nat) (s : State) : (setFlag o b s).thm = s.thm := rfl
@[simp] theorem setFlag_thmg (o b : Nat) (s : State) : (setFlag o b s).thmg = s.thmg := rfl
@[simp] theorem setFlag_nhl (o b : Nat) (s : State) : (setFlag o b s).nhl = s.nhl := rfl
@[simp] theorem setFlag_hostresAt (o b : Nat) (s : State) : (setFlag o b s).hostresAt = s.hostresAt := rfl
@[simp] theorem setFlag_scn (o b : Nat) (s : State) : (setFlag o b s).scn = s.scn := rfl
@[simp] theorem setFlag_pc (o b : Nat) (s : State) : (setFlag o b s).pc = s.pc := rfl
@[simp] theorem setFlag_enc (o b : Nat) (s : State) : (setFlag o b s).enc = s.enc := rfl
@[simp] theorem setFlag_ee (o b : Nat) (s : State) : (setFlag o b s).ee = s.ee := rfl
@[simp] theorem setFlag_stp (o b : Nat) (s : State) : (setFlag o b s).stp = s.stp := rfl
@[simp] theorem setFlag_mot (o b : Nat) (s : State) : (setFlag o b s).mot = s.mot := rfl
@[simp] theorem setFlag_ss (o b : Nat) (s : State) : (setFlag o b s).ss = s.ss := rfl
@[simp] theorem setFlag_cas (o b : Nat) (s : State) : (setFlag o b s).cas = s.cas := rfl
@[simp] theorem setFlag_dma (o b : Nat) (s : State) : (setFlag o b s).dma = s.dma := rfl
@[simp] theorem setFlag_cqSince (o b : Nat) (s : State) : (setFlag o b s).cqSince = s.cqSince := rfl
@[simp] theorem setFlag_sigSat (o b : Nat) (s : State) : (setFlag o b s).sigSat = s.sigSat := rfl
@[simp] theorem setFlag_dmaTurn (o b : Nat) (s : State) : (setFlag o b s).dmaTurn = s.dmaTurn := rfl
@[simp] theorem setFlag_mem (o b : Nat) (s : State) : (setFlag o b s).mem = s.mem := rfl
@[simp] theorem setFlag_out (o b : Nat) (s : State) : (setFlag o b s).out = s.out := rfl
@[simp] theorem setFlag_freeCtr (o b : Nat) (s : State) : (setFlag o b s).freeCtr = s.freeCtr := rfl

/-! ## logEvent -/

@[simp] theorem logEvent_pending (k : EvKind) (i a b c : Nat) (s : State) : (logEvent k i a b c s).pending = s.pending := rfl
@[simp] theorem logEvent_now (k : EvKind) (i a b c : Nat) (s : State) : (logEvent k i a b c s).now = s.now := rfl
@[simp] theorem logEvent_regs (k : EvKind) (i a b c : Nat) (s : State) : (logEvent k i a b c s).regs = s.regs := rfl
@[simp] theorem logEvent_sram (k : EvKind) (i a b c : Nat) (s : State) : (logEvent k i a b c s).sram = s.sram := rfl
@[simp] theorem logEvent_page (k : EvKind) (i a b c : Nat) (s : State) : (logEvent k i a b c s).page = s.page := rfl
@[simp] theorem logEvent_glb (k : EvKind) (i a b c : Nat) (s : State) : (logEvent k i a b c s).glb = s.glb := rfl
@[simp] theorem logEvent_ldr (k : EvKind) (i a b c : Nat) (s : State) : (logEvent k i a b c s).ldr = s.ldr := rfl
@[simp] theorem logEvent_bru (k : EvKind) (i a b c : Nat) (s : State) : (logEvent k i a b c s).bru = s.bru := rfl
@[simp] theorem logEvent_jrn (k : EvKind) (i a b c : Nat) (s : State) : (logEvent k i a b c s).jrn = s.jrn := rfl
@[simp] theorem logEvent_dot (k : EvKind) (i a b c : Nat) (s : State) : (logEvent k i a b c s).dot = s.dot := rfl
@[simp] theorem logEvent_gen (k : EvKind) (i a b c : Nat) (s : State) : (logEvent k i a b c s).gen = s.gen := rfl
@[simp] theorem logEvent_gate (k : EvKind) (i a b c : Nat) (s : State) : (logEvent k i a b c s).gate = s.gate := rfl
@[simp] theorem logEvent_hlp (k : EvKind) (i a b c : Nat) (s : State) : (logEvent k i a b c s).hlp = s.hlp := rfl
@[simp] theorem logEvent_thm (k : EvKind) (i a b c : Nat) (s : State) : (logEvent k i a b c s).thm = s.thm := rfl
@[simp] theorem logEvent_thmg (k : EvKind) (i a b c : Nat) (s : State) : (logEvent k i a b c s).thmg = s.thmg := rfl
@[simp] theorem logEvent_nhl (k : EvKind) (i a b c : Nat) (s : State) : (logEvent k i a b c s).nhl = s.nhl := rfl
@[simp] theorem logEvent_hostresAt (k : EvKind) (i a b c : Nat) (s : State) : (logEvent k i a b c s).hostresAt = s.hostresAt := rfl
@[simp] theorem logEvent_scn (k : EvKind) (i a b c : Nat) (s : State) : (logEvent k i a b c s).scn = s.scn := rfl
@[simp] theorem logEvent_pc (k : EvKind) (i a b c : Nat) (s : State) : (logEvent k i a b c s).pc = s.pc := rfl
@[simp] theorem logEvent_enc (k : EvKind) (i a b c : Nat) (s : State) : (logEvent k i a b c s).enc = s.enc := rfl
@[simp] theorem logEvent_ee (k : EvKind) (i a b c : Nat) (s : State) : (logEvent k i a b c s).ee = s.ee := rfl
@[simp] theorem logEvent_stp (k : EvKind) (i a b c : Nat) (s : State) : (logEvent k i a b c s).stp = s.stp := rfl
@[simp] theorem logEvent_mot (k : EvKind) (i a b c : Nat) (s : State) : (logEvent k i a b c s).mot = s.mot := rfl
@[simp] theorem logEvent_ss (k : EvKind) (i a b c : Nat) (s : State) : (logEvent k i a b c s).ss = s.ss := rfl
@[simp] theorem logEvent_cas (k : EvKind) (i a b c : Nat) (s : State) : (logEvent k i a b c s).cas = s.cas := rfl
@[simp] theorem logEvent_dma (k : EvKind) (i a b c : Nat) (s : State) : (logEvent k i a b c s).dma = s.dma := rfl
@[simp] theorem logEvent_cqSince (k : EvKind) (i a b c : Nat) (s : State) : (logEvent k i a b c s).cqSince = s.cqSince := rfl
@[simp] theorem logEvent_sigSat (k : EvKind) (i a b c : Nat) (s : State) : (logEvent k i a b c s).sigSat = s.sigSat := rfl
@[simp] theorem logEvent_dmaTurn (k : EvKind) (i a b c : Nat) (s : State) : (logEvent k i a b c s).dmaTurn = s.dmaTurn := rfl
@[simp] theorem logEvent_mem (k : EvKind) (i a b c : Nat) (s : State) : (logEvent k i a b c s).mem = s.mem := rfl
@[simp] theorem logEvent_out (k : EvKind) (i a b c : Nat) (s : State) : (logEvent k i a b c s).out = s.out := rfl
@[simp] theorem logEvent_freeCtr (k : EvKind) (i a b c : Nat) (s : State) : (logEvent k i a b c s).freeCtr = s.freeCtr := rfl
@[simp] theorem logEvent_rd (k : EvKind) (i a b c : Nat) (s : State) (r : Nat) : rd (logEvent k i a b c s) r = rd s r := rfl

/-! ## emit -/

@[simp] theorem emit_pending (x : Output) (s : State) : (emit x s).pending = s.pending := rfl
@[simp] theorem emit_now (x : Output) (s : State) : (emit x s).now = s.now := rfl
@[simp] theorem emit_regs (x : Output) (s : State) : (emit x s).regs = s.regs := rfl
@[simp] theorem emit_sram (x : Output) (s : State) : (emit x s).sram = s.sram := rfl
@[simp] theorem emit_page (x : Output) (s : State) : (emit x s).page = s.page := rfl
@[simp] theorem emit_glb (x : Output) (s : State) : (emit x s).glb = s.glb := rfl
@[simp] theorem emit_ldr (x : Output) (s : State) : (emit x s).ldr = s.ldr := rfl
@[simp] theorem emit_bru (x : Output) (s : State) : (emit x s).bru = s.bru := rfl
@[simp] theorem emit_hst (x : Output) (s : State) : (emit x s).hst = s.hst := rfl
@[simp] theorem emit_jrn (x : Output) (s : State) : (emit x s).jrn = s.jrn := rfl
@[simp] theorem emit_dot (x : Output) (s : State) : (emit x s).dot = s.dot := rfl
@[simp] theorem emit_gen (x : Output) (s : State) : (emit x s).gen = s.gen := rfl
@[simp] theorem emit_gate (x : Output) (s : State) : (emit x s).gate = s.gate := rfl
@[simp] theorem emit_hlp (x : Output) (s : State) : (emit x s).hlp = s.hlp := rfl
@[simp] theorem emit_thm (x : Output) (s : State) : (emit x s).thm = s.thm := rfl
@[simp] theorem emit_thmg (x : Output) (s : State) : (emit x s).thmg = s.thmg := rfl
@[simp] theorem emit_nhl (x : Output) (s : State) : (emit x s).nhl = s.nhl := rfl
@[simp] theorem emit_hostresAt (x : Output) (s : State) : (emit x s).hostresAt = s.hostresAt := rfl
@[simp] theorem emit_scn (x : Output) (s : State) : (emit x s).scn = s.scn := rfl
@[simp] theorem emit_pc (x : Output) (s : State) : (emit x s).pc = s.pc := rfl
@[simp] theorem emit_enc (x : Output) (s : State) : (emit x s).enc = s.enc := rfl
@[simp] theorem emit_ee (x : Output) (s : State) : (emit x s).ee = s.ee := rfl
@[simp] theorem emit_stp (x : Output) (s : State) : (emit x s).stp = s.stp := rfl
@[simp] theorem emit_mot (x : Output) (s : State) : (emit x s).mot = s.mot := rfl
@[simp] theorem emit_ss (x : Output) (s : State) : (emit x s).ss = s.ss := rfl
@[simp] theorem emit_cas (x : Output) (s : State) : (emit x s).cas = s.cas := rfl
@[simp] theorem emit_dma (x : Output) (s : State) : (emit x s).dma = s.dma := rfl
@[simp] theorem emit_cqSince (x : Output) (s : State) : (emit x s).cqSince = s.cqSince := rfl
@[simp] theorem emit_sigSat (x : Output) (s : State) : (emit x s).sigSat = s.sigSat := rfl
@[simp] theorem emit_dmaTurn (x : Output) (s : State) : (emit x s).dmaTurn = s.dmaTurn := rfl
@[simp] theorem emit_mem (x : Output) (s : State) : (emit x s).mem = s.mem := rfl
@[simp] theorem emit_freeCtr (x : Output) (s : State) : (emit x s).freeCtr = s.freeCtr := rfl
@[simp] theorem emit_rd (x : Output) (s : State) (r : Nat) : rd (emit x s) r = rd s r := rfl

/-! ## hostAccess -/

@[simp] theorem hostAccess_pending (s : State) : (hostAccess s).pending = s.pending := rfl
@[simp] theorem hostAccess_now (s : State) : (hostAccess s).now = s.now := rfl
@[simp] theorem hostAccess_regs (s : State) : (hostAccess s).regs = s.regs := rfl
@[simp] theorem hostAccess_sram (s : State) : (hostAccess s).sram = s.sram := rfl
@[simp] theorem hostAccess_page (s : State) : (hostAccess s).page = s.page := rfl
@[simp] theorem hostAccess_glb (s : State) : (hostAccess s).glb = s.glb := rfl
@[simp] theorem hostAccess_ldr (s : State) : (hostAccess s).ldr = s.ldr := rfl
@[simp] theorem hostAccess_bru (s : State) : (hostAccess s).bru = s.bru := rfl
@[simp] theorem hostAccess_jrn (s : State) : (hostAccess s).jrn = s.jrn := rfl
@[simp] theorem hostAccess_dot (s : State) : (hostAccess s).dot = s.dot := rfl
@[simp] theorem hostAccess_gen (s : State) : (hostAccess s).gen = s.gen := rfl
@[simp] theorem hostAccess_gate (s : State) : (hostAccess s).gate = s.gate := rfl
@[simp] theorem hostAccess_hlp (s : State) : (hostAccess s).hlp = s.hlp := rfl
@[simp] theorem hostAccess_thm (s : State) : (hostAccess s).thm = s.thm := rfl
@[simp] theorem hostAccess_thmg (s : State) : (hostAccess s).thmg = s.thmg := rfl
@[simp] theorem hostAccess_nhl (s : State) : (hostAccess s).nhl = s.nhl := rfl
@[simp] theorem hostAccess_hostresAt (s : State) : (hostAccess s).hostresAt = s.hostresAt := rfl
@[simp] theorem hostAccess_scn (s : State) : (hostAccess s).scn = s.scn := rfl
@[simp] theorem hostAccess_pc (s : State) : (hostAccess s).pc = s.pc := rfl
@[simp] theorem hostAccess_enc (s : State) : (hostAccess s).enc = s.enc := rfl
@[simp] theorem hostAccess_ee (s : State) : (hostAccess s).ee = s.ee := rfl
@[simp] theorem hostAccess_stp (s : State) : (hostAccess s).stp = s.stp := rfl
@[simp] theorem hostAccess_mot (s : State) : (hostAccess s).mot = s.mot := rfl
@[simp] theorem hostAccess_ss (s : State) : (hostAccess s).ss = s.ss := rfl
@[simp] theorem hostAccess_cas (s : State) : (hostAccess s).cas = s.cas := rfl
@[simp] theorem hostAccess_dma (s : State) : (hostAccess s).dma = s.dma := rfl
@[simp] theorem hostAccess_cqSince (s : State) : (hostAccess s).cqSince = s.cqSince := rfl
@[simp] theorem hostAccess_sigSat (s : State) : (hostAccess s).sigSat = s.sigSat := rfl
@[simp] theorem hostAccess_dmaTurn (s : State) : (hostAccess s).dmaTurn = s.dmaTurn := rfl
@[simp] theorem hostAccess_mem (s : State) : (hostAccess s).mem = s.mem := rfl
@[simp] theorem hostAccess_out (s : State) : (hostAccess s).out = s.out := rfl
@[simp] theorem hostAccess_freeCtr (s : State) : (hostAccess s).freeCtr = s.freeCtr := rfl
@[simp] theorem hostAccess_rd (s : State) (r : Nat) : rd (hostAccess s) r = rd s r := rfl

/-! ## modAx -/

@[simp] theorem modAx_pending (n : Nat) (f : Axis → Axis) (s : State) : (modAx n f s).pending = s.pending := rfl
@[simp] theorem modAx_now (n : Nat) (f : Axis → Axis) (s : State) : (modAx n f s).now = s.now := rfl
@[simp] theorem modAx_regs (n : Nat) (f : Axis → Axis) (s : State) : (modAx n f s).regs = s.regs := rfl
@[simp] theorem modAx_sram (n : Nat) (f : Axis → Axis) (s : State) : (modAx n f s).sram = s.sram := rfl
@[simp] theorem modAx_page (n : Nat) (f : Axis → Axis) (s : State) : (modAx n f s).page = s.page := rfl
@[simp] theorem modAx_glb (n : Nat) (f : Axis → Axis) (s : State) : (modAx n f s).glb = s.glb := rfl
@[simp] theorem modAx_ldr (n : Nat) (f : Axis → Axis) (s : State) : (modAx n f s).ldr = s.ldr := rfl
@[simp] theorem modAx_bru (n : Nat) (f : Axis → Axis) (s : State) : (modAx n f s).bru = s.bru := rfl
@[simp] theorem modAx_hst (n : Nat) (f : Axis → Axis) (s : State) : (modAx n f s).hst = s.hst := rfl
@[simp] theorem modAx_jrn (n : Nat) (f : Axis → Axis) (s : State) : (modAx n f s).jrn = s.jrn := rfl
@[simp] theorem modAx_dot (n : Nat) (f : Axis → Axis) (s : State) : (modAx n f s).dot = s.dot := rfl
@[simp] theorem modAx_gen (n : Nat) (f : Axis → Axis) (s : State) : (modAx n f s).gen = s.gen := rfl
@[simp] theorem modAx_gate (n : Nat) (f : Axis → Axis) (s : State) : (modAx n f s).gate = s.gate := rfl
@[simp] theorem modAx_hlp (n : Nat) (f : Axis → Axis) (s : State) : (modAx n f s).hlp = s.hlp := rfl
@[simp] theorem modAx_thm (n : Nat) (f : Axis → Axis) (s : State) : (modAx n f s).thm = s.thm := rfl
@[simp] theorem modAx_thmg (n : Nat) (f : Axis → Axis) (s : State) : (modAx n f s).thmg = s.thmg := rfl
@[simp] theorem modAx_nhl (n : Nat) (f : Axis → Axis) (s : State) : (modAx n f s).nhl = s.nhl := rfl
@[simp] theorem modAx_hostresAt (n : Nat) (f : Axis → Axis) (s : State) : (modAx n f s).hostresAt = s.hostresAt := rfl
@[simp] theorem modAx_scn (n : Nat) (f : Axis → Axis) (s : State) : (modAx n f s).scn = s.scn := rfl
@[simp] theorem modAx_pc (n : Nat) (f : Axis → Axis) (s : State) : (modAx n f s).pc = s.pc := rfl
@[simp] theorem modAx_enc (n : Nat) (f : Axis → Axis) (s : State) : (modAx n f s).enc = s.enc := rfl
@[simp] theorem modAx_ee (n : Nat) (f : Axis → Axis) (s : State) : (modAx n f s).ee = s.ee := rfl
@[simp] theorem modAx_mot (n : Nat) (f : Axis → Axis) (s : State) : (modAx n f s).mot = s.mot := rfl
@[simp] theorem modAx_ss (n : Nat) (f : Axis → Axis) (s : State) : (modAx n f s).ss = s.ss := rfl
@[simp] theorem modAx_cas (n : Nat) (f : Axis → Axis) (s : State) : (modAx n f s).cas = s.cas := rfl
@[simp] theorem modAx_dma (n : Nat) (f : Axis → Axis) (s : State) : (modAx n f s).dma = s.dma := rfl
@[simp] theorem modAx_cqSince (n : Nat) (f : Axis → Axis) (s : State) : (modAx n f s).cqSince = s.cqSince := rfl
@[simp] theorem modAx_sigSat (n : Nat) (f : Axis → Axis) (s : State) : (modAx n f s).sigSat = s.sigSat := rfl
@[simp] theorem modAx_dmaTurn (n : Nat) (f : Axis → Axis) (s : State) : (modAx n f s).dmaTurn = s.dmaTurn := rfl
@[simp] theorem modAx_mem (n : Nat) (f : Axis → Axis) (s : State) : (modAx n f s).mem = s.mem := rfl
@[simp] theorem modAx_out (n : Nat) (f : Axis → Axis) (s : State) : (modAx n f s).out = s.out := rfl
@[simp] theorem modAx_freeCtr (n : Nat) (f : Axis → Axis) (s : State) : (modAx n f s).freeCtr = s.freeCtr := rfl
@[simp] theorem modAx_rd (n : Nat) (f : Axis → Axis) (s : State) (r : Nat) : rd (modAx n f s) r = rd s r := rfl

/-! ## modProf -/

@[simp] theorem modProf_pending (n : Nat) (f : Prof → Prof) (s : State) : (modProf n f s).pending = s.pending := rfl
@[simp] theorem modProf_now (n : Nat) (f : Prof → Prof) (s : State) : (modProf n f s).now = s.now := rfl
@[simp] theorem modProf_regs (n : Nat) (f : Prof → Prof) (s : State) : (modProf n f s).regs = s.regs := rfl
@[simp] theorem modProf_sram (n : Nat) (f : Prof → Prof) (s : State) : (modProf n f s).sram = s.sram := rfl
@[simp] theorem modProf_page (n : Nat) (f : Prof → Prof) (s : State) : (modProf n f s).page = s.page := rfl
@[simp] theorem modProf_glb (n : Nat) (f : Prof → Prof) (s : State) : (modProf n f s).glb = s.glb := rfl
@[simp] theorem modProf_ldr (n : Nat) (f : Prof → Prof) (s : State) : (modProf n f s).ldr = s.ldr := rfl
@[simp] theorem modProf_bru (n : Nat) (f : Prof → Prof) (s : State) : (modProf n f s).bru = s.bru := rfl
@[simp] theorem modProf_hst (n : Nat) (f : Prof → Prof) (s : State) : (modProf n f s).hst = s.hst := rfl
@[simp] theorem modProf_jrn (n : Nat) (f : Prof → Prof) (s : State) : (modProf n f s).jrn = s.jrn := rfl
@[simp] theorem modProf_dot (n : Nat) (f : Prof → Prof) (s : State) : (modProf n f s).dot = s.dot := rfl
@[simp] theorem modProf_gen (n : Nat) (f : Prof → Prof) (s : State) : (modProf n f s).gen = s.gen := rfl
@[simp] theorem modProf_gate (n : Nat) (f : Prof → Prof) (s : State) : (modProf n f s).gate = s.gate := rfl
@[simp] theorem modProf_hlp (n : Nat) (f : Prof → Prof) (s : State) : (modProf n f s).hlp = s.hlp := rfl
@[simp] theorem modProf_thm (n : Nat) (f : Prof → Prof) (s : State) : (modProf n f s).thm = s.thm := rfl
@[simp] theorem modProf_thmg (n : Nat) (f : Prof → Prof) (s : State) : (modProf n f s).thmg = s.thmg := rfl
@[simp] theorem modProf_nhl (n : Nat) (f : Prof → Prof) (s : State) : (modProf n f s).nhl = s.nhl := rfl
@[simp] theorem modProf_hostresAt (n : Nat) (f : Prof → Prof) (s : State) : (modProf n f s).hostresAt = s.hostresAt := rfl
@[simp] theorem modProf_scn (n : Nat) (f : Prof → Prof) (s : State) : (modProf n f s).scn = s.scn := rfl
@[simp] theorem modProf_pc (n : Nat) (f : Prof → Prof) (s : State) : (modProf n f s).pc = s.pc := rfl
@[simp] theorem modProf_enc (n : Nat) (f : Prof → Prof) (s : State) : (modProf n f s).enc = s.enc := rfl
@[simp] theorem modProf_ee (n : Nat) (f : Prof → Prof) (s : State) : (modProf n f s).ee = s.ee := rfl
@[simp] theorem modProf_mot (n : Nat) (f : Prof → Prof) (s : State) : (modProf n f s).mot = s.mot := rfl
@[simp] theorem modProf_ss (n : Nat) (f : Prof → Prof) (s : State) : (modProf n f s).ss = s.ss := rfl
@[simp] theorem modProf_cas (n : Nat) (f : Prof → Prof) (s : State) : (modProf n f s).cas = s.cas := rfl
@[simp] theorem modProf_dma (n : Nat) (f : Prof → Prof) (s : State) : (modProf n f s).dma = s.dma := rfl
@[simp] theorem modProf_cqSince (n : Nat) (f : Prof → Prof) (s : State) : (modProf n f s).cqSince = s.cqSince := rfl
@[simp] theorem modProf_sigSat (n : Nat) (f : Prof → Prof) (s : State) : (modProf n f s).sigSat = s.sigSat := rfl
@[simp] theorem modProf_dmaTurn (n : Nat) (f : Prof → Prof) (s : State) : (modProf n f s).dmaTurn = s.dmaTurn := rfl
@[simp] theorem modProf_mem (n : Nat) (f : Prof → Prof) (s : State) : (modProf n f s).mem = s.mem := rfl
@[simp] theorem modProf_out (n : Nat) (f : Prof → Prof) (s : State) : (modProf n f s).out = s.out := rfl
@[simp] theorem modProf_freeCtr (n : Nat) (f : Prof → Prof) (s : State) : (modProf n f s).freeCtr = s.freeCtr := rfl
@[simp] theorem modProf_rd (n : Nat) (f : Prof → Prof) (s : State) (r : Nat) : rd (modProf n f s) r = rd s r := rfl

/-! ## modCas -/

@[simp] theorem modCas_pending (f : Cas → Cas) (s : State) : (modCas f s).pending = s.pending := rfl
@[simp] theorem modCas_now (f : Cas → Cas) (s : State) : (modCas f s).now = s.now := rfl
@[simp] theorem modCas_regs (f : Cas → Cas) (s : State) : (modCas f s).regs = s.regs := rfl
@[simp] theorem modCas_sram (f : Cas → Cas) (s : State) : (modCas f s).sram = s.sram := rfl
@[simp] theorem modCas_page (f : Cas → Cas) (s : State) : (modCas f s).page = s.page := rfl
@[simp] theorem modCas_glb (f : Cas → Cas) (s : State) : (modCas f s).glb = s.glb := rfl
@[simp] theorem modCas_ldr (f : Cas → Cas) (s : State) : (modCas f s).ldr = s.ldr := rfl
@[simp] theorem modCas_bru (f : Cas → Cas) (s : State) : (modCas f s).bru = s.bru := rfl
@[simp] theorem modCas_hst (f : Cas → Cas) (s : State) : (modCas f s).hst = s.hst := rfl
@[simp] theorem modCas_jrn (f : Cas → Cas) (s : State) : (modCas f s).jrn = s.jrn := rfl
@[simp] theorem modCas_dot (f : Cas → Cas) (s : State) : (modCas f s).dot = s.dot := rfl
@[simp] theorem modCas_gen (f : Cas → Cas) (s : State) : (modCas f s).gen = s.gen := rfl
@[simp] theorem modCas_gate (f : Cas → Cas) (s : State) : (modCas f s).gate = s.gate := rfl
@[simp] theorem modCas_hlp (f : Cas → Cas) (s : State) : (modCas f s).hlp = s.hlp := rfl
@[simp] theorem modCas_thm (f : Cas → Cas) (s : State) : (modCas f s).thm = s.thm := rfl
@[simp] theorem modCas_thmg (f : Cas → Cas) (s : State) : (modCas f s).thmg = s.thmg := rfl
@[simp] theorem modCas_nhl (f : Cas → Cas) (s : State) : (modCas f s).nhl = s.nhl := rfl
@[simp] theorem modCas_hostresAt (f : Cas → Cas) (s : State) : (modCas f s).hostresAt = s.hostresAt := rfl
@[simp] theorem modCas_scn (f : Cas → Cas) (s : State) : (modCas f s).scn = s.scn := rfl
@[simp] theorem modCas_pc (f : Cas → Cas) (s : State) : (modCas f s).pc = s.pc := rfl
@[simp] theorem modCas_enc (f : Cas → Cas) (s : State) : (modCas f s).enc = s.enc := rfl
@[simp] theorem modCas_ee (f : Cas → Cas) (s : State) : (modCas f s).ee = s.ee := rfl
@[simp] theorem modCas_stp (f : Cas → Cas) (s : State) : (modCas f s).stp = s.stp := rfl
@[simp] theorem modCas_mot (f : Cas → Cas) (s : State) : (modCas f s).mot = s.mot := rfl
@[simp] theorem modCas_ss (f : Cas → Cas) (s : State) : (modCas f s).ss = s.ss := rfl
@[simp] theorem modCas_dma (f : Cas → Cas) (s : State) : (modCas f s).dma = s.dma := rfl
@[simp] theorem modCas_cqSince (f : Cas → Cas) (s : State) : (modCas f s).cqSince = s.cqSince := rfl
@[simp] theorem modCas_sigSat (f : Cas → Cas) (s : State) : (modCas f s).sigSat = s.sigSat := rfl
@[simp] theorem modCas_dmaTurn (f : Cas → Cas) (s : State) : (modCas f s).dmaTurn = s.dmaTurn := rfl
@[simp] theorem modCas_mem (f : Cas → Cas) (s : State) : (modCas f s).mem = s.mem := rfl
@[simp] theorem modCas_out (f : Cas → Cas) (s : State) : (modCas f s).out = s.out := rfl
@[simp] theorem modCas_freeCtr (f : Cas → Cas) (s : State) : (modCas f s).freeCtr = s.freeCtr := rfl
@[simp] theorem modCas_rd (f : Cas → Cas) (s : State) (r : Nat) : rd (modCas f s) r = rd s r := rfl

/-! ## modCasPort -/

@[simp] theorem modCasPort_pending (n : Nat) (f : CasPort → CasPort) (s : State) : (modCasPort n f s).pending = s.pending := rfl
@[simp] theorem modCasPort_now (n : Nat) (f : CasPort → CasPort) (s : State) : (modCasPort n f s).now = s.now := rfl
@[simp] theorem modCasPort_regs (n : Nat) (f : CasPort → CasPort) (s : State) : (modCasPort n f s).regs = s.regs := rfl
@[simp] theorem modCasPort_sram (n : Nat) (f : CasPort → CasPort) (s : State) : (modCasPort n f s).sram = s.sram := rfl
@[simp] theorem modCasPort_page (n : Nat) (f : CasPort → CasPort) (s : State) : (modCasPort n f s).page = s.page := rfl
@[simp] theorem modCasPort_glb (n : Nat) (f : CasPort → CasPort) (s : State) : (modCasPort n f s).glb = s.glb := rfl
@[simp] theorem modCasPort_ldr (n : Nat) (f : CasPort → CasPort) (s : State) : (modCasPort n f s).ldr = s.ldr := rfl
@[simp] theorem modCasPort_bru (n : Nat) (f : CasPort → CasPort) (s : State) : (modCasPort n f s).bru = s.bru := rfl
@[simp] theorem modCasPort_hst (n : Nat) (f : CasPort → CasPort) (s : State) : (modCasPort n f s).hst = s.hst := rfl
@[simp] theorem modCasPort_jrn (n : Nat) (f : CasPort → CasPort) (s : State) : (modCasPort n f s).jrn = s.jrn := rfl
@[simp] theorem modCasPort_dot (n : Nat) (f : CasPort → CasPort) (s : State) : (modCasPort n f s).dot = s.dot := rfl
@[simp] theorem modCasPort_gen (n : Nat) (f : CasPort → CasPort) (s : State) : (modCasPort n f s).gen = s.gen := rfl
@[simp] theorem modCasPort_gate (n : Nat) (f : CasPort → CasPort) (s : State) : (modCasPort n f s).gate = s.gate := rfl
@[simp] theorem modCasPort_hlp (n : Nat) (f : CasPort → CasPort) (s : State) : (modCasPort n f s).hlp = s.hlp := rfl
@[simp] theorem modCasPort_thm (n : Nat) (f : CasPort → CasPort) (s : State) : (modCasPort n f s).thm = s.thm := rfl
@[simp] theorem modCasPort_thmg (n : Nat) (f : CasPort → CasPort) (s : State) : (modCasPort n f s).thmg = s.thmg := rfl
@[simp] theorem modCasPort_nhl (n : Nat) (f : CasPort → CasPort) (s : State) : (modCasPort n f s).nhl = s.nhl := rfl
@[simp] theorem modCasPort_hostresAt (n : Nat) (f : CasPort → CasPort) (s : State) : (modCasPort n f s).hostresAt = s.hostresAt := rfl
@[simp] theorem modCasPort_scn (n : Nat) (f : CasPort → CasPort) (s : State) : (modCasPort n f s).scn = s.scn := rfl
@[simp] theorem modCasPort_pc (n : Nat) (f : CasPort → CasPort) (s : State) : (modCasPort n f s).pc = s.pc := rfl
@[simp] theorem modCasPort_enc (n : Nat) (f : CasPort → CasPort) (s : State) : (modCasPort n f s).enc = s.enc := rfl
@[simp] theorem modCasPort_ee (n : Nat) (f : CasPort → CasPort) (s : State) : (modCasPort n f s).ee = s.ee := rfl
@[simp] theorem modCasPort_stp (n : Nat) (f : CasPort → CasPort) (s : State) : (modCasPort n f s).stp = s.stp := rfl
@[simp] theorem modCasPort_mot (n : Nat) (f : CasPort → CasPort) (s : State) : (modCasPort n f s).mot = s.mot := rfl
@[simp] theorem modCasPort_ss (n : Nat) (f : CasPort → CasPort) (s : State) : (modCasPort n f s).ss = s.ss := rfl
@[simp] theorem modCasPort_dma (n : Nat) (f : CasPort → CasPort) (s : State) : (modCasPort n f s).dma = s.dma := rfl
@[simp] theorem modCasPort_cqSince (n : Nat) (f : CasPort → CasPort) (s : State) : (modCasPort n f s).cqSince = s.cqSince := rfl
@[simp] theorem modCasPort_sigSat (n : Nat) (f : CasPort → CasPort) (s : State) : (modCasPort n f s).sigSat = s.sigSat := rfl
@[simp] theorem modCasPort_dmaTurn (n : Nat) (f : CasPort → CasPort) (s : State) : (modCasPort n f s).dmaTurn = s.dmaTurn := rfl
@[simp] theorem modCasPort_mem (n : Nat) (f : CasPort → CasPort) (s : State) : (modCasPort n f s).mem = s.mem := rfl
@[simp] theorem modCasPort_out (n : Nat) (f : CasPort → CasPort) (s : State) : (modCasPort n f s).out = s.out := rfl
@[simp] theorem modCasPort_freeCtr (n : Nat) (f : CasPort → CasPort) (s : State) : (modCasPort n f s).freeCtr = s.freeCtr := rfl
@[simp] theorem modCasPort_rd (n : Nat) (f : CasPort → CasPort) (s : State) (r : Nat) : rd (modCasPort n f s) r = rd s r := rfl

/-! ## modGate -/

@[simp] theorem modGate_pending (f : Gate → Gate) (s : State) : (modGate f s).pending = s.pending := rfl
@[simp] theorem modGate_now (f : Gate → Gate) (s : State) : (modGate f s).now = s.now := rfl
@[simp] theorem modGate_regs (f : Gate → Gate) (s : State) : (modGate f s).regs = s.regs := rfl
@[simp] theorem modGate_sram (f : Gate → Gate) (s : State) : (modGate f s).sram = s.sram := rfl
@[simp] theorem modGate_page (f : Gate → Gate) (s : State) : (modGate f s).page = s.page := rfl
@[simp] theorem modGate_glb (f : Gate → Gate) (s : State) : (modGate f s).glb = s.glb := rfl
@[simp] theorem modGate_ldr (f : Gate → Gate) (s : State) : (modGate f s).ldr = s.ldr := rfl
@[simp] theorem modGate_bru (f : Gate → Gate) (s : State) : (modGate f s).bru = s.bru := rfl
@[simp] theorem modGate_hst (f : Gate → Gate) (s : State) : (modGate f s).hst = s.hst := rfl
@[simp] theorem modGate_jrn (f : Gate → Gate) (s : State) : (modGate f s).jrn = s.jrn := rfl
@[simp] theorem modGate_dot (f : Gate → Gate) (s : State) : (modGate f s).dot = s.dot := rfl
@[simp] theorem modGate_gen (f : Gate → Gate) (s : State) : (modGate f s).gen = s.gen := rfl
@[simp] theorem modGate_hlp (f : Gate → Gate) (s : State) : (modGate f s).hlp = s.hlp := rfl
@[simp] theorem modGate_thm (f : Gate → Gate) (s : State) : (modGate f s).thm = s.thm := rfl
@[simp] theorem modGate_thmg (f : Gate → Gate) (s : State) : (modGate f s).thmg = s.thmg := rfl
@[simp] theorem modGate_nhl (f : Gate → Gate) (s : State) : (modGate f s).nhl = s.nhl := rfl
@[simp] theorem modGate_hostresAt (f : Gate → Gate) (s : State) : (modGate f s).hostresAt = s.hostresAt := rfl
@[simp] theorem modGate_scn (f : Gate → Gate) (s : State) : (modGate f s).scn = s.scn := rfl
@[simp] theorem modGate_pc (f : Gate → Gate) (s : State) : (modGate f s).pc = s.pc := rfl
@[simp] theorem modGate_enc (f : Gate → Gate) (s : State) : (modGate f s).enc = s.enc := rfl
@[simp] theorem modGate_ee (f : Gate → Gate) (s : State) : (modGate f s).ee = s.ee := rfl
@[simp] theorem modGate_stp (f : Gate → Gate) (s : State) : (modGate f s).stp = s.stp := rfl
@[simp] theorem modGate_mot (f : Gate → Gate) (s : State) : (modGate f s).mot = s.mot := rfl
@[simp] theorem modGate_ss (f : Gate → Gate) (s : State) : (modGate f s).ss = s.ss := rfl
@[simp] theorem modGate_cas (f : Gate → Gate) (s : State) : (modGate f s).cas = s.cas := rfl
@[simp] theorem modGate_dma (f : Gate → Gate) (s : State) : (modGate f s).dma = s.dma := rfl
@[simp] theorem modGate_cqSince (f : Gate → Gate) (s : State) : (modGate f s).cqSince = s.cqSince := rfl
@[simp] theorem modGate_sigSat (f : Gate → Gate) (s : State) : (modGate f s).sigSat = s.sigSat := rfl
@[simp] theorem modGate_dmaTurn (f : Gate → Gate) (s : State) : (modGate f s).dmaTurn = s.dmaTurn := rfl
@[simp] theorem modGate_mem (f : Gate → Gate) (s : State) : (modGate f s).mem = s.mem := rfl
@[simp] theorem modGate_out (f : Gate → Gate) (s : State) : (modGate f s).out = s.out := rfl
@[simp] theorem modGate_freeCtr (f : Gate → Gate) (s : State) : (modGate f s).freeCtr = s.freeCtr := rfl
@[simp] theorem modGate_rd (f : Gate → Gate) (s : State) (r : Nat) : rd (modGate f s) r = rd s r := rfl

/-! ## modHlp -/

@[simp] theorem modHlp_pending (n : Nat) (f : Hlp → Hlp) (s : State) : (modHlp n f s).pending = s.pending := rfl
@[simp] theorem modHlp_now (n : Nat) (f : Hlp → Hlp) (s : State) : (modHlp n f s).now = s.now := rfl
@[simp] theorem modHlp_regs (n : Nat) (f : Hlp → Hlp) (s : State) : (modHlp n f s).regs = s.regs := rfl
@[simp] theorem modHlp_sram (n : Nat) (f : Hlp → Hlp) (s : State) : (modHlp n f s).sram = s.sram := rfl
@[simp] theorem modHlp_page (n : Nat) (f : Hlp → Hlp) (s : State) : (modHlp n f s).page = s.page := rfl
@[simp] theorem modHlp_glb (n : Nat) (f : Hlp → Hlp) (s : State) : (modHlp n f s).glb = s.glb := rfl
@[simp] theorem modHlp_ldr (n : Nat) (f : Hlp → Hlp) (s : State) : (modHlp n f s).ldr = s.ldr := rfl
@[simp] theorem modHlp_bru (n : Nat) (f : Hlp → Hlp) (s : State) : (modHlp n f s).bru = s.bru := rfl
@[simp] theorem modHlp_hst (n : Nat) (f : Hlp → Hlp) (s : State) : (modHlp n f s).hst = s.hst := rfl
@[simp] theorem modHlp_jrn (n : Nat) (f : Hlp → Hlp) (s : State) : (modHlp n f s).jrn = s.jrn := rfl
@[simp] theorem modHlp_dot (n : Nat) (f : Hlp → Hlp) (s : State) : (modHlp n f s).dot = s.dot := rfl
@[simp] theorem modHlp_gen (n : Nat) (f : Hlp → Hlp) (s : State) : (modHlp n f s).gen = s.gen := rfl
@[simp] theorem modHlp_gate (n : Nat) (f : Hlp → Hlp) (s : State) : (modHlp n f s).gate = s.gate := rfl
@[simp] theorem modHlp_thm (n : Nat) (f : Hlp → Hlp) (s : State) : (modHlp n f s).thm = s.thm := rfl
@[simp] theorem modHlp_thmg (n : Nat) (f : Hlp → Hlp) (s : State) : (modHlp n f s).thmg = s.thmg := rfl
@[simp] theorem modHlp_nhl (n : Nat) (f : Hlp → Hlp) (s : State) : (modHlp n f s).nhl = s.nhl := rfl
@[simp] theorem modHlp_hostresAt (n : Nat) (f : Hlp → Hlp) (s : State) : (modHlp n f s).hostresAt = s.hostresAt := rfl
@[simp] theorem modHlp_scn (n : Nat) (f : Hlp → Hlp) (s : State) : (modHlp n f s).scn = s.scn := rfl
@[simp] theorem modHlp_pc (n : Nat) (f : Hlp → Hlp) (s : State) : (modHlp n f s).pc = s.pc := rfl
@[simp] theorem modHlp_enc (n : Nat) (f : Hlp → Hlp) (s : State) : (modHlp n f s).enc = s.enc := rfl
@[simp] theorem modHlp_ee (n : Nat) (f : Hlp → Hlp) (s : State) : (modHlp n f s).ee = s.ee := rfl
@[simp] theorem modHlp_stp (n : Nat) (f : Hlp → Hlp) (s : State) : (modHlp n f s).stp = s.stp := rfl
@[simp] theorem modHlp_mot (n : Nat) (f : Hlp → Hlp) (s : State) : (modHlp n f s).mot = s.mot := rfl
@[simp] theorem modHlp_ss (n : Nat) (f : Hlp → Hlp) (s : State) : (modHlp n f s).ss = s.ss := rfl
@[simp] theorem modHlp_cas (n : Nat) (f : Hlp → Hlp) (s : State) : (modHlp n f s).cas = s.cas := rfl
@[simp] theorem modHlp_dma (n : Nat) (f : Hlp → Hlp) (s : State) : (modHlp n f s).dma = s.dma := rfl
@[simp] theorem modHlp_cqSince (n : Nat) (f : Hlp → Hlp) (s : State) : (modHlp n f s).cqSince = s.cqSince := rfl
@[simp] theorem modHlp_sigSat (n : Nat) (f : Hlp → Hlp) (s : State) : (modHlp n f s).sigSat = s.sigSat := rfl
@[simp] theorem modHlp_dmaTurn (n : Nat) (f : Hlp → Hlp) (s : State) : (modHlp n f s).dmaTurn = s.dmaTurn := rfl
@[simp] theorem modHlp_mem (n : Nat) (f : Hlp → Hlp) (s : State) : (modHlp n f s).mem = s.mem := rfl
@[simp] theorem modHlp_out (n : Nat) (f : Hlp → Hlp) (s : State) : (modHlp n f s).out = s.out := rfl
@[simp] theorem modHlp_freeCtr (n : Nat) (f : Hlp → Hlp) (s : State) : (modHlp n f s).freeCtr = s.freeCtr := rfl
@[simp] theorem modHlp_rd (n : Nat) (f : Hlp → Hlp) (s : State) (r : Nat) : rd (modHlp n f s) r = rd s r := rfl

/-! ## modDot -/

@[simp] theorem modDot_pending (n : Nat) (f : Pipe → Pipe) (s : State) : (modDot n f s).pending = s.pending := rfl
@[simp] theorem modDot_now (n : Nat) (f : Pipe → Pipe) (s : State) : (modDot n f s).now = s.now := rfl
@[simp] theorem modDot_regs (n : Nat) (f : Pipe → Pipe) (s : State) : (modDot n f s).regs = s.regs := rfl
@[simp] theorem modDot_sram (n : Nat) (f : Pipe → Pipe) (s : State) : (modDot n f s).sram = s.sram := rfl
@[simp] theorem modDot_page (n : Nat) (f : Pipe → Pipe) (s : State) : (modDot n f s).page = s.page := rfl
@[simp] theorem modDot_glb (n : Nat) (f : Pipe → Pipe) (s : State) : (modDot n f s).glb = s.glb := rfl
@[simp] theorem modDot_ldr (n : Nat) (f : Pipe → Pipe) (s : State) : (modDot n f s).ldr = s.ldr := rfl
@[simp] theorem modDot_bru (n : Nat) (f : Pipe → Pipe) (s : State) : (modDot n f s).bru = s.bru := rfl
@[simp] theorem modDot_hst (n : Nat) (f : Pipe → Pipe) (s : State) : (modDot n f s).hst = s.hst := rfl
@[simp] theorem modDot_jrn (n : Nat) (f : Pipe → Pipe) (s : State) : (modDot n f s).jrn = s.jrn := rfl
@[simp] theorem modDot_gen (n : Nat) (f : Pipe → Pipe) (s : State) : (modDot n f s).gen = s.gen := rfl
@[simp] theorem modDot_gate (n : Nat) (f : Pipe → Pipe) (s : State) : (modDot n f s).gate = s.gate := rfl
@[simp] theorem modDot_hlp (n : Nat) (f : Pipe → Pipe) (s : State) : (modDot n f s).hlp = s.hlp := rfl
@[simp] theorem modDot_thm (n : Nat) (f : Pipe → Pipe) (s : State) : (modDot n f s).thm = s.thm := rfl
@[simp] theorem modDot_thmg (n : Nat) (f : Pipe → Pipe) (s : State) : (modDot n f s).thmg = s.thmg := rfl
@[simp] theorem modDot_nhl (n : Nat) (f : Pipe → Pipe) (s : State) : (modDot n f s).nhl = s.nhl := rfl
@[simp] theorem modDot_hostresAt (n : Nat) (f : Pipe → Pipe) (s : State) : (modDot n f s).hostresAt = s.hostresAt := rfl
@[simp] theorem modDot_scn (n : Nat) (f : Pipe → Pipe) (s : State) : (modDot n f s).scn = s.scn := rfl
@[simp] theorem modDot_pc (n : Nat) (f : Pipe → Pipe) (s : State) : (modDot n f s).pc = s.pc := rfl
@[simp] theorem modDot_enc (n : Nat) (f : Pipe → Pipe) (s : State) : (modDot n f s).enc = s.enc := rfl
@[simp] theorem modDot_ee (n : Nat) (f : Pipe → Pipe) (s : State) : (modDot n f s).ee = s.ee := rfl
@[simp] theorem modDot_stp (n : Nat) (f : Pipe → Pipe) (s : State) : (modDot n f s).stp = s.stp := rfl
@[simp] theorem modDot_mot (n : Nat) (f : Pipe → Pipe) (s : State) : (modDot n f s).mot = s.mot := rfl
@[simp] theorem modDot_ss (n : Nat) (f : Pipe → Pipe) (s : State) : (modDot n f s).ss = s.ss := rfl
@[simp] theorem modDot_cas (n : Nat) (f : Pipe → Pipe) (s : State) : (modDot n f s).cas = s.cas := rfl
@[simp] theorem modDot_dma (n : Nat) (f : Pipe → Pipe) (s : State) : (modDot n f s).dma = s.dma := rfl
@[simp] theorem modDot_cqSince (n : Nat) (f : Pipe → Pipe) (s : State) : (modDot n f s).cqSince = s.cqSince := rfl
@[simp] theorem modDot_sigSat (n : Nat) (f : Pipe → Pipe) (s : State) : (modDot n f s).sigSat = s.sigSat := rfl
@[simp] theorem modDot_dmaTurn (n : Nat) (f : Pipe → Pipe) (s : State) : (modDot n f s).dmaTurn = s.dmaTurn := rfl
@[simp] theorem modDot_mem (n : Nat) (f : Pipe → Pipe) (s : State) : (modDot n f s).mem = s.mem := rfl
@[simp] theorem modDot_out (n : Nat) (f : Pipe → Pipe) (s : State) : (modDot n f s).out = s.out := rfl
@[simp] theorem modDot_freeCtr (n : Nat) (f : Pipe → Pipe) (s : State) : (modDot n f s).freeCtr = s.freeCtr := rfl
@[simp] theorem modDot_rd (n : Nat) (f : Pipe → Pipe) (s : State) (r : Nat) : rd (modDot n f s) r = rd s r := rfl

/-! ## modGen -/

@[simp] theorem modGen_pending (n : Nat) (f : Gen → Gen) (s : State) : (modGen n f s).pending = s.pending := rfl
@[simp] theorem modGen_now (n : Nat) (f : Gen → Gen) (s : State) : (modGen n f s).now = s.now := rfl
@[simp] theorem modGen_regs (n : Nat) (f : Gen → Gen) (s : State) : (modGen n f s).regs = s.regs := rfl
@[simp] theorem modGen_sram (n : Nat) (f : Gen → Gen) (s : State) : (modGen n f s).sram = s.sram := rfl
@[simp] theorem modGen_page (n : Nat) (f : Gen → Gen) (s : State) : (modGen n f s).page = s.page := rfl
@[simp] theorem modGen_glb (n : Nat) (f : Gen → Gen) (s : State) : (modGen n f s).glb = s.glb := rfl
@[simp] theorem modGen_ldr (n : Nat) (f : Gen → Gen) (s : State) : (modGen n f s).ldr = s.ldr := rfl
@[simp] theorem modGen_bru (n : Nat) (f : Gen → Gen) (s : State) : (modGen n f s).bru = s.bru := rfl
@[simp] theorem modGen_hst (n : Nat) (f : Gen → Gen) (s : State) : (modGen n f s).hst = s.hst := rfl
@[simp] theorem modGen_jrn (n : Nat) (f : Gen → Gen) (s : State) : (modGen n f s).jrn = s.jrn := rfl
@[simp] theorem modGen_dot (n : Nat) (f : Gen → Gen) (s : State) : (modGen n f s).dot = s.dot := rfl
@[simp] theorem modGen_gate (n : Nat) (f : Gen → Gen) (s : State) : (modGen n f s).gate = s.gate := rfl
@[simp] theorem modGen_hlp (n : Nat) (f : Gen → Gen) (s : State) : (modGen n f s).hlp = s.hlp := rfl
@[simp] theorem modGen_thm (n : Nat) (f : Gen → Gen) (s : State) : (modGen n f s).thm = s.thm := rfl
@[simp] theorem modGen_thmg (n : Nat) (f : Gen → Gen) (s : State) : (modGen n f s).thmg = s.thmg := rfl
@[simp] theorem modGen_nhl (n : Nat) (f : Gen → Gen) (s : State) : (modGen n f s).nhl = s.nhl := rfl
@[simp] theorem modGen_hostresAt (n : Nat) (f : Gen → Gen) (s : State) : (modGen n f s).hostresAt = s.hostresAt := rfl
@[simp] theorem modGen_scn (n : Nat) (f : Gen → Gen) (s : State) : (modGen n f s).scn = s.scn := rfl
@[simp] theorem modGen_pc (n : Nat) (f : Gen → Gen) (s : State) : (modGen n f s).pc = s.pc := rfl
@[simp] theorem modGen_enc (n : Nat) (f : Gen → Gen) (s : State) : (modGen n f s).enc = s.enc := rfl
@[simp] theorem modGen_ee (n : Nat) (f : Gen → Gen) (s : State) : (modGen n f s).ee = s.ee := rfl
@[simp] theorem modGen_stp (n : Nat) (f : Gen → Gen) (s : State) : (modGen n f s).stp = s.stp := rfl
@[simp] theorem modGen_mot (n : Nat) (f : Gen → Gen) (s : State) : (modGen n f s).mot = s.mot := rfl
@[simp] theorem modGen_ss (n : Nat) (f : Gen → Gen) (s : State) : (modGen n f s).ss = s.ss := rfl
@[simp] theorem modGen_cas (n : Nat) (f : Gen → Gen) (s : State) : (modGen n f s).cas = s.cas := rfl
@[simp] theorem modGen_dma (n : Nat) (f : Gen → Gen) (s : State) : (modGen n f s).dma = s.dma := rfl
@[simp] theorem modGen_cqSince (n : Nat) (f : Gen → Gen) (s : State) : (modGen n f s).cqSince = s.cqSince := rfl
@[simp] theorem modGen_sigSat (n : Nat) (f : Gen → Gen) (s : State) : (modGen n f s).sigSat = s.sigSat := rfl
@[simp] theorem modGen_dmaTurn (n : Nat) (f : Gen → Gen) (s : State) : (modGen n f s).dmaTurn = s.dmaTurn := rfl
@[simp] theorem modGen_mem (n : Nat) (f : Gen → Gen) (s : State) : (modGen n f s).mem = s.mem := rfl
@[simp] theorem modGen_out (n : Nat) (f : Gen → Gen) (s : State) : (modGen n f s).out = s.out := rfl
@[simp] theorem modGen_freeCtr (n : Nat) (f : Gen → Gen) (s : State) : (modGen n f s).freeCtr = s.freeCtr := rfl
@[simp] theorem modGen_rd (n : Nat) (f : Gen → Gen) (s : State) (r : Nat) : rd (modGen n f s) r = rd s r := rfl

/-! ## modDma -/

@[simp] theorem modDma_pending (n : Nat) (f : Dma → Dma) (s : State) : (modDma n f s).pending = s.pending := rfl
@[simp] theorem modDma_now (n : Nat) (f : Dma → Dma) (s : State) : (modDma n f s).now = s.now := rfl
@[simp] theorem modDma_regs (n : Nat) (f : Dma → Dma) (s : State) : (modDma n f s).regs = s.regs := rfl
@[simp] theorem modDma_sram (n : Nat) (f : Dma → Dma) (s : State) : (modDma n f s).sram = s.sram := rfl
@[simp] theorem modDma_page (n : Nat) (f : Dma → Dma) (s : State) : (modDma n f s).page = s.page := rfl
@[simp] theorem modDma_glb (n : Nat) (f : Dma → Dma) (s : State) : (modDma n f s).glb = s.glb := rfl
@[simp] theorem modDma_ldr (n : Nat) (f : Dma → Dma) (s : State) : (modDma n f s).ldr = s.ldr := rfl
@[simp] theorem modDma_bru (n : Nat) (f : Dma → Dma) (s : State) : (modDma n f s).bru = s.bru := rfl
@[simp] theorem modDma_hst (n : Nat) (f : Dma → Dma) (s : State) : (modDma n f s).hst = s.hst := rfl
@[simp] theorem modDma_jrn (n : Nat) (f : Dma → Dma) (s : State) : (modDma n f s).jrn = s.jrn := rfl
@[simp] theorem modDma_dot (n : Nat) (f : Dma → Dma) (s : State) : (modDma n f s).dot = s.dot := rfl
@[simp] theorem modDma_gen (n : Nat) (f : Dma → Dma) (s : State) : (modDma n f s).gen = s.gen := rfl
@[simp] theorem modDma_gate (n : Nat) (f : Dma → Dma) (s : State) : (modDma n f s).gate = s.gate := rfl
@[simp] theorem modDma_hlp (n : Nat) (f : Dma → Dma) (s : State) : (modDma n f s).hlp = s.hlp := rfl
@[simp] theorem modDma_thm (n : Nat) (f : Dma → Dma) (s : State) : (modDma n f s).thm = s.thm := rfl
@[simp] theorem modDma_thmg (n : Nat) (f : Dma → Dma) (s : State) : (modDma n f s).thmg = s.thmg := rfl
@[simp] theorem modDma_nhl (n : Nat) (f : Dma → Dma) (s : State) : (modDma n f s).nhl = s.nhl := rfl
@[simp] theorem modDma_hostresAt (n : Nat) (f : Dma → Dma) (s : State) : (modDma n f s).hostresAt = s.hostresAt := rfl
@[simp] theorem modDma_scn (n : Nat) (f : Dma → Dma) (s : State) : (modDma n f s).scn = s.scn := rfl
@[simp] theorem modDma_pc (n : Nat) (f : Dma → Dma) (s : State) : (modDma n f s).pc = s.pc := rfl
@[simp] theorem modDma_enc (n : Nat) (f : Dma → Dma) (s : State) : (modDma n f s).enc = s.enc := rfl
@[simp] theorem modDma_ee (n : Nat) (f : Dma → Dma) (s : State) : (modDma n f s).ee = s.ee := rfl
@[simp] theorem modDma_stp (n : Nat) (f : Dma → Dma) (s : State) : (modDma n f s).stp = s.stp := rfl
@[simp] theorem modDma_mot (n : Nat) (f : Dma → Dma) (s : State) : (modDma n f s).mot = s.mot := rfl
@[simp] theorem modDma_ss (n : Nat) (f : Dma → Dma) (s : State) : (modDma n f s).ss = s.ss := rfl
@[simp] theorem modDma_cas (n : Nat) (f : Dma → Dma) (s : State) : (modDma n f s).cas = s.cas := rfl
@[simp] theorem modDma_cqSince (n : Nat) (f : Dma → Dma) (s : State) : (modDma n f s).cqSince = s.cqSince := rfl
@[simp] theorem modDma_sigSat (n : Nat) (f : Dma → Dma) (s : State) : (modDma n f s).sigSat = s.sigSat := rfl
@[simp] theorem modDma_dmaTurn (n : Nat) (f : Dma → Dma) (s : State) : (modDma n f s).dmaTurn = s.dmaTurn := rfl
@[simp] theorem modDma_mem (n : Nat) (f : Dma → Dma) (s : State) : (modDma n f s).mem = s.mem := rfl
@[simp] theorem modDma_out (n : Nat) (f : Dma → Dma) (s : State) : (modDma n f s).out = s.out := rfl
@[simp] theorem modDma_freeCtr (n : Nat) (f : Dma → Dma) (s : State) : (modDma n f s).freeCtr = s.freeCtr := rfl
@[simp] theorem modDma_rd (n : Nat) (f : Dma → Dma) (s : State) (r : Nat) : rd (modDma n f s) r = rd s r := rfl

/-! ## modNhl -/

@[simp] theorem modNhl_pending (n : Nat) (f : Nhl → Nhl) (s : State) : (modNhl n f s).pending = s.pending := rfl
@[simp] theorem modNhl_now (n : Nat) (f : Nhl → Nhl) (s : State) : (modNhl n f s).now = s.now := rfl
@[simp] theorem modNhl_regs (n : Nat) (f : Nhl → Nhl) (s : State) : (modNhl n f s).regs = s.regs := rfl
@[simp] theorem modNhl_sram (n : Nat) (f : Nhl → Nhl) (s : State) : (modNhl n f s).sram = s.sram := rfl
@[simp] theorem modNhl_page (n : Nat) (f : Nhl → Nhl) (s : State) : (modNhl n f s).page = s.page := rfl
@[simp] theorem modNhl_glb (n : Nat) (f : Nhl → Nhl) (s : State) : (modNhl n f s).glb = s.glb := rfl
@[simp] theorem modNhl_ldr (n : Nat) (f : Nhl → Nhl) (s : State) : (modNhl n f s).ldr = s.ldr := rfl
@[simp] theorem modNhl_bru (n : Nat) (f : Nhl → Nhl) (s : State) : (modNhl n f s).bru = s.bru := rfl
@[simp] theorem modNhl_hst (n : Nat) (f : Nhl → Nhl) (s : State) : (modNhl n f s).hst = s.hst := rfl
@[simp] theorem modNhl_jrn (n : Nat) (f : Nhl → Nhl) (s : State) : (modNhl n f s).jrn = s.jrn := rfl
@[simp] theorem modNhl_dot (n : Nat) (f : Nhl → Nhl) (s : State) : (modNhl n f s).dot = s.dot := rfl
@[simp] theorem modNhl_gen (n : Nat) (f : Nhl → Nhl) (s : State) : (modNhl n f s).gen = s.gen := rfl
@[simp] theorem modNhl_gate (n : Nat) (f : Nhl → Nhl) (s : State) : (modNhl n f s).gate = s.gate := rfl
@[simp] theorem modNhl_hlp (n : Nat) (f : Nhl → Nhl) (s : State) : (modNhl n f s).hlp = s.hlp := rfl
@[simp] theorem modNhl_thm (n : Nat) (f : Nhl → Nhl) (s : State) : (modNhl n f s).thm = s.thm := rfl
@[simp] theorem modNhl_thmg (n : Nat) (f : Nhl → Nhl) (s : State) : (modNhl n f s).thmg = s.thmg := rfl
@[simp] theorem modNhl_hostresAt (n : Nat) (f : Nhl → Nhl) (s : State) : (modNhl n f s).hostresAt = s.hostresAt := rfl
@[simp] theorem modNhl_scn (n : Nat) (f : Nhl → Nhl) (s : State) : (modNhl n f s).scn = s.scn := rfl
@[simp] theorem modNhl_pc (n : Nat) (f : Nhl → Nhl) (s : State) : (modNhl n f s).pc = s.pc := rfl
@[simp] theorem modNhl_enc (n : Nat) (f : Nhl → Nhl) (s : State) : (modNhl n f s).enc = s.enc := rfl
@[simp] theorem modNhl_ee (n : Nat) (f : Nhl → Nhl) (s : State) : (modNhl n f s).ee = s.ee := rfl
@[simp] theorem modNhl_stp (n : Nat) (f : Nhl → Nhl) (s : State) : (modNhl n f s).stp = s.stp := rfl
@[simp] theorem modNhl_mot (n : Nat) (f : Nhl → Nhl) (s : State) : (modNhl n f s).mot = s.mot := rfl
@[simp] theorem modNhl_ss (n : Nat) (f : Nhl → Nhl) (s : State) : (modNhl n f s).ss = s.ss := rfl
@[simp] theorem modNhl_cas (n : Nat) (f : Nhl → Nhl) (s : State) : (modNhl n f s).cas = s.cas := rfl
@[simp] theorem modNhl_dma (n : Nat) (f : Nhl → Nhl) (s : State) : (modNhl n f s).dma = s.dma := rfl
@[simp] theorem modNhl_cqSince (n : Nat) (f : Nhl → Nhl) (s : State) : (modNhl n f s).cqSince = s.cqSince := rfl
@[simp] theorem modNhl_sigSat (n : Nat) (f : Nhl → Nhl) (s : State) : (modNhl n f s).sigSat = s.sigSat := rfl
@[simp] theorem modNhl_dmaTurn (n : Nat) (f : Nhl → Nhl) (s : State) : (modNhl n f s).dmaTurn = s.dmaTurn := rfl
@[simp] theorem modNhl_mem (n : Nat) (f : Nhl → Nhl) (s : State) : (modNhl n f s).mem = s.mem := rfl
@[simp] theorem modNhl_out (n : Nat) (f : Nhl → Nhl) (s : State) : (modNhl n f s).out = s.out := rfl
@[simp] theorem modNhl_freeCtr (n : Nat) (f : Nhl → Nhl) (s : State) : (modNhl n f s).freeCtr = s.freeCtr := rfl
@[simp] theorem modNhl_rd (n : Nat) (f : Nhl → Nhl) (s : State) (r : Nat) : rd (modNhl n f s) r = rd s r := rfl

/-! ## modMo -/

@[simp] theorem modMo_pending (n : Nat) (f : Motor → Motor) (s : State) : (modMo n f s).pending = s.pending := rfl
@[simp] theorem modMo_now (n : Nat) (f : Motor → Motor) (s : State) : (modMo n f s).now = s.now := rfl
@[simp] theorem modMo_regs (n : Nat) (f : Motor → Motor) (s : State) : (modMo n f s).regs = s.regs := rfl
@[simp] theorem modMo_sram (n : Nat) (f : Motor → Motor) (s : State) : (modMo n f s).sram = s.sram := rfl
@[simp] theorem modMo_page (n : Nat) (f : Motor → Motor) (s : State) : (modMo n f s).page = s.page := rfl
@[simp] theorem modMo_glb (n : Nat) (f : Motor → Motor) (s : State) : (modMo n f s).glb = s.glb := rfl
@[simp] theorem modMo_ldr (n : Nat) (f : Motor → Motor) (s : State) : (modMo n f s).ldr = s.ldr := rfl
@[simp] theorem modMo_bru (n : Nat) (f : Motor → Motor) (s : State) : (modMo n f s).bru = s.bru := rfl
@[simp] theorem modMo_hst (n : Nat) (f : Motor → Motor) (s : State) : (modMo n f s).hst = s.hst := rfl
@[simp] theorem modMo_jrn (n : Nat) (f : Motor → Motor) (s : State) : (modMo n f s).jrn = s.jrn := rfl
@[simp] theorem modMo_dot (n : Nat) (f : Motor → Motor) (s : State) : (modMo n f s).dot = s.dot := rfl
@[simp] theorem modMo_gen (n : Nat) (f : Motor → Motor) (s : State) : (modMo n f s).gen = s.gen := rfl
@[simp] theorem modMo_gate (n : Nat) (f : Motor → Motor) (s : State) : (modMo n f s).gate = s.gate := rfl
@[simp] theorem modMo_hlp (n : Nat) (f : Motor → Motor) (s : State) : (modMo n f s).hlp = s.hlp := rfl
@[simp] theorem modMo_thm (n : Nat) (f : Motor → Motor) (s : State) : (modMo n f s).thm = s.thm := rfl
@[simp] theorem modMo_thmg (n : Nat) (f : Motor → Motor) (s : State) : (modMo n f s).thmg = s.thmg := rfl
@[simp] theorem modMo_nhl (n : Nat) (f : Motor → Motor) (s : State) : (modMo n f s).nhl = s.nhl := rfl
@[simp] theorem modMo_hostresAt (n : Nat) (f : Motor → Motor) (s : State) : (modMo n f s).hostresAt = s.hostresAt := rfl
@[simp] theorem modMo_scn (n : Nat) (f : Motor → Motor) (s : State) : (modMo n f s).scn = s.scn := rfl
@[simp] theorem modMo_pc (n : Nat) (f : Motor → Motor) (s : State) : (modMo n f s).pc = s.pc := rfl
@[simp] theorem modMo_enc (n : Nat) (f : Motor → Motor) (s : State) : (modMo n f s).enc = s.enc := rfl
@[simp] theorem modMo_ee (n : Nat) (f : Motor → Motor) (s : State) : (modMo n f s).ee = s.ee := rfl
@[simp] theorem modMo_stp (n : Nat) (f : Motor → Motor) (s : State) : (modMo n f s).stp = s.stp := rfl
@[simp] theorem modMo_ss (n : Nat) (f : Motor → Motor) (s : State) : (modMo n f s).ss = s.ss := rfl
@[simp] theorem modMo_cas (n : Nat) (f : Motor → Motor) (s : State) : (modMo n f s).cas = s.cas := rfl
@[simp] theorem modMo_dma (n : Nat) (f : Motor → Motor) (s : State) : (modMo n f s).dma = s.dma := rfl
@[simp] theorem modMo_cqSince (n : Nat) (f : Motor → Motor) (s : State) : (modMo n f s).cqSince = s.cqSince := rfl
@[simp] theorem modMo_sigSat (n : Nat) (f : Motor → Motor) (s : State) : (modMo n f s).sigSat = s.sigSat := rfl
@[simp] theorem modMo_dmaTurn (n : Nat) (f : Motor → Motor) (s : State) : (modMo n f s).dmaTurn = s.dmaTurn := rfl
@[simp] theorem modMo_mem (n : Nat) (f : Motor → Motor) (s : State) : (modMo n f s).mem = s.mem := rfl
@[simp] theorem modMo_out (n : Nat) (f : Motor → Motor) (s : State) : (modMo n f s).out = s.out := rfl
@[simp] theorem modMo_freeCtr (n : Nat) (f : Motor → Motor) (s : State) : (modMo n f s).freeCtr = s.freeCtr := rfl
@[simp] theorem modMo_rd (n : Nat) (f : Motor → Motor) (s : State) (r : Nat) : rd (modMo n f s) r = rd s r := rfl

/-! ## modPc -/

@[simp] theorem modPc_pending (n : Nat) (f : Pc → Pc) (s : State) : (modPc n f s).pending = s.pending := rfl
@[simp] theorem modPc_now (n : Nat) (f : Pc → Pc) (s : State) : (modPc n f s).now = s.now := rfl
@[simp] theorem modPc_regs (n : Nat) (f : Pc → Pc) (s : State) : (modPc n f s).regs = s.regs := rfl
@[simp] theorem modPc_sram (n : Nat) (f : Pc → Pc) (s : State) : (modPc n f s).sram = s.sram := rfl
@[simp] theorem modPc_page (n : Nat) (f : Pc → Pc) (s : State) : (modPc n f s).page = s.page := rfl
@[simp] theorem modPc_glb (n : Nat) (f : Pc → Pc) (s : State) : (modPc n f s).glb = s.glb := rfl
@[simp] theorem modPc_ldr (n : Nat) (f : Pc → Pc) (s : State) : (modPc n f s).ldr = s.ldr := rfl
@[simp] theorem modPc_bru (n : Nat) (f : Pc → Pc) (s : State) : (modPc n f s).bru = s.bru := rfl
@[simp] theorem modPc_hst (n : Nat) (f : Pc → Pc) (s : State) : (modPc n f s).hst = s.hst := rfl
@[simp] theorem modPc_jrn (n : Nat) (f : Pc → Pc) (s : State) : (modPc n f s).jrn = s.jrn := rfl
@[simp] theorem modPc_dot (n : Nat) (f : Pc → Pc) (s : State) : (modPc n f s).dot = s.dot := rfl
@[simp] theorem modPc_gen (n : Nat) (f : Pc → Pc) (s : State) : (modPc n f s).gen = s.gen := rfl
@[simp] theorem modPc_gate (n : Nat) (f : Pc → Pc) (s : State) : (modPc n f s).gate = s.gate := rfl
@[simp] theorem modPc_hlp (n : Nat) (f : Pc → Pc) (s : State) : (modPc n f s).hlp = s.hlp := rfl
@[simp] theorem modPc_thm (n : Nat) (f : Pc → Pc) (s : State) : (modPc n f s).thm = s.thm := rfl
@[simp] theorem modPc_thmg (n : Nat) (f : Pc → Pc) (s : State) : (modPc n f s).thmg = s.thmg := rfl
@[simp] theorem modPc_nhl (n : Nat) (f : Pc → Pc) (s : State) : (modPc n f s).nhl = s.nhl := rfl
@[simp] theorem modPc_hostresAt (n : Nat) (f : Pc → Pc) (s : State) : (modPc n f s).hostresAt = s.hostresAt := rfl
@[simp] theorem modPc_scn (n : Nat) (f : Pc → Pc) (s : State) : (modPc n f s).scn = s.scn := rfl
@[simp] theorem modPc_enc (n : Nat) (f : Pc → Pc) (s : State) : (modPc n f s).enc = s.enc := rfl
@[simp] theorem modPc_ee (n : Nat) (f : Pc → Pc) (s : State) : (modPc n f s).ee = s.ee := rfl
@[simp] theorem modPc_stp (n : Nat) (f : Pc → Pc) (s : State) : (modPc n f s).stp = s.stp := rfl
@[simp] theorem modPc_mot (n : Nat) (f : Pc → Pc) (s : State) : (modPc n f s).mot = s.mot := rfl
@[simp] theorem modPc_ss (n : Nat) (f : Pc → Pc) (s : State) : (modPc n f s).ss = s.ss := rfl
@[simp] theorem modPc_cas (n : Nat) (f : Pc → Pc) (s : State) : (modPc n f s).cas = s.cas := rfl
@[simp] theorem modPc_dma (n : Nat) (f : Pc → Pc) (s : State) : (modPc n f s).dma = s.dma := rfl
@[simp] theorem modPc_cqSince (n : Nat) (f : Pc → Pc) (s : State) : (modPc n f s).cqSince = s.cqSince := rfl
@[simp] theorem modPc_sigSat (n : Nat) (f : Pc → Pc) (s : State) : (modPc n f s).sigSat = s.sigSat := rfl
@[simp] theorem modPc_dmaTurn (n : Nat) (f : Pc → Pc) (s : State) : (modPc n f s).dmaTurn = s.dmaTurn := rfl
@[simp] theorem modPc_mem (n : Nat) (f : Pc → Pc) (s : State) : (modPc n f s).mem = s.mem := rfl
@[simp] theorem modPc_out (n : Nat) (f : Pc → Pc) (s : State) : (modPc n f s).out = s.out := rfl
@[simp] theorem modPc_freeCtr (n : Nat) (f : Pc → Pc) (s : State) : (modPc n f s).freeCtr = s.freeCtr := rfl
@[simp] theorem modPc_rd (n : Nat) (f : Pc → Pc) (s : State) (r : Nat) : rd (modPc n f s) r = rd s r := rfl

/-! ## modCmp -/

@[simp] theorem modCmp_pending (n m : Nat) (f : Cmp → Cmp) (s : State) : (modCmp n m f s).pending = s.pending := rfl
@[simp] theorem modCmp_now (n m : Nat) (f : Cmp → Cmp) (s : State) : (modCmp n m f s).now = s.now := rfl
@[simp] theorem modCmp_regs (n m : Nat) (f : Cmp → Cmp) (s : State) : (modCmp n m f s).regs = s.regs := rfl
@[simp] theorem modCmp_sram (n m : Nat) (f : Cmp → Cmp) (s : State) : (modCmp n m f s).sram = s.sram := rfl
@[simp] theorem modCmp_page (n m : Nat) (f : Cmp → Cmp) (s : State) : (modCmp n m f s).page = s.page := rfl
@[simp] theorem modCmp_glb (n m : Nat) (f : Cmp → Cmp) (s : State) : (modCmp n m f s).glb = s.glb := rfl
@[simp] theorem modCmp_ldr (n m : Nat) (f : Cmp → Cmp) (s : State) : (modCmp n m f s).ldr = s.ldr := rfl
@[simp] theorem modCmp_bru (n m : Nat) (f : Cmp → Cmp) (s : State) : (modCmp n m f s).bru = s.bru := rfl
@[simp] theorem modCmp_hst (n m : Nat) (f : Cmp → Cmp) (s : State) : (modCmp n m f s).hst = s.hst := rfl
@[simp] theorem modCmp_jrn (n m : Nat) (f : Cmp → Cmp) (s : State) : (modCmp n m f s).jrn = s.jrn := rfl
@[simp] theorem modCmp_dot (n m : Nat) (f : Cmp → Cmp) (s : State) : (modCmp n m f s).dot = s.dot := rfl
@[simp] theorem modCmp_gen (n m : Nat) (f : Cmp → Cmp) (s : State) : (modCmp n m f s).gen = s.gen := rfl
@[simp] theorem modCmp_gate (n m : Nat) (f : Cmp → Cmp) (s : State) : (modCmp n m f s).gate = s.gate := rfl
@[simp] theorem modCmp_hlp (n m : Nat) (f : Cmp → Cmp) (s : State) : (modCmp n m f s).hlp = s.hlp := rfl
@[simp] theorem modCmp_thm (n m : Nat) (f : Cmp → Cmp) (s : State) : (modCmp n m f s).thm = s.thm := rfl
@[simp] theorem modCmp_thmg (n m : Nat) (f : Cmp → Cmp) (s : State) : (modCmp n m f s).thmg = s.thmg := rfl
@[simp] theorem modCmp_nhl (n m : Nat) (f : Cmp → Cmp) (s : State) : (modCmp n m f s).nhl = s.nhl := rfl
@[simp] theorem modCmp_hostresAt (n m : Nat) (f : Cmp → Cmp) (s : State) : (modCmp n m f s).hostresAt = s.hostresAt := rfl
@[simp] theorem modCmp_scn (n m : Nat) (f : Cmp → Cmp) (s : State) : (modCmp n m f s).scn = s.scn := rfl
@[simp] theorem modCmp_enc (n m : Nat) (f : Cmp → Cmp) (s : State) : (modCmp n m f s).enc = s.enc := rfl
@[simp] theorem modCmp_ee (n m : Nat) (f : Cmp → Cmp) (s : State) : (modCmp n m f s).ee = s.ee := rfl
@[simp] theorem modCmp_stp (n m : Nat) (f : Cmp → Cmp) (s : State) : (modCmp n m f s).stp = s.stp := rfl
@[simp] theorem modCmp_mot (n m : Nat) (f : Cmp → Cmp) (s : State) : (modCmp n m f s).mot = s.mot := rfl
@[simp] theorem modCmp_ss (n m : Nat) (f : Cmp → Cmp) (s : State) : (modCmp n m f s).ss = s.ss := rfl
@[simp] theorem modCmp_cas (n m : Nat) (f : Cmp → Cmp) (s : State) : (modCmp n m f s).cas = s.cas := rfl
@[simp] theorem modCmp_dma (n m : Nat) (f : Cmp → Cmp) (s : State) : (modCmp n m f s).dma = s.dma := rfl
@[simp] theorem modCmp_cqSince (n m : Nat) (f : Cmp → Cmp) (s : State) : (modCmp n m f s).cqSince = s.cqSince := rfl
@[simp] theorem modCmp_sigSat (n m : Nat) (f : Cmp → Cmp) (s : State) : (modCmp n m f s).sigSat = s.sigSat := rfl
@[simp] theorem modCmp_dmaTurn (n m : Nat) (f : Cmp → Cmp) (s : State) : (modCmp n m f s).dmaTurn = s.dmaTurn := rfl
@[simp] theorem modCmp_mem (n m : Nat) (f : Cmp → Cmp) (s : State) : (modCmp n m f s).mem = s.mem := rfl
@[simp] theorem modCmp_out (n m : Nat) (f : Cmp → Cmp) (s : State) : (modCmp n m f s).out = s.out := rfl
@[simp] theorem modCmp_freeCtr (n m : Nat) (f : Cmp → Cmp) (s : State) : (modCmp n m f s).freeCtr = s.freeCtr := rfl
@[simp] theorem modCmp_rd (n m : Nat) (f : Cmp → Cmp) (s : State) (r : Nat) : rd (modCmp n m f s) r = rd s r := rfl

/-! ## modEe -/

@[simp] theorem modEe_pending (n : Nat) (f : Ee → Ee) (s : State) : (modEe n f s).pending = s.pending := rfl
@[simp] theorem modEe_now (n : Nat) (f : Ee → Ee) (s : State) : (modEe n f s).now = s.now := rfl
@[simp] theorem modEe_regs (n : Nat) (f : Ee → Ee) (s : State) : (modEe n f s).regs = s.regs := rfl
@[simp] theorem modEe_sram (n : Nat) (f : Ee → Ee) (s : State) : (modEe n f s).sram = s.sram := rfl
@[simp] theorem modEe_page (n : Nat) (f : Ee → Ee) (s : State) : (modEe n f s).page = s.page := rfl
@[simp] theorem modEe_glb (n : Nat) (f : Ee → Ee) (s : State) : (modEe n f s).glb = s.glb := rfl
@[simp] theorem modEe_ldr (n : Nat) (f : Ee → Ee) (s : State) : (modEe n f s).ldr = s.ldr := rfl
@[simp] theorem modEe_bru (n : Nat) (f : Ee → Ee) (s : State) : (modEe n f s).bru = s.bru := rfl
@[simp] theorem modEe_hst (n : Nat) (f : Ee → Ee) (s : State) : (modEe n f s).hst = s.hst := rfl
@[simp] theorem modEe_jrn (n : Nat) (f : Ee → Ee) (s : State) : (modEe n f s).jrn = s.jrn := rfl
@[simp] theorem modEe_dot (n : Nat) (f : Ee → Ee) (s : State) : (modEe n f s).dot = s.dot := rfl
@[simp] theorem modEe_gen (n : Nat) (f : Ee → Ee) (s : State) : (modEe n f s).gen = s.gen := rfl
@[simp] theorem modEe_gate (n : Nat) (f : Ee → Ee) (s : State) : (modEe n f s).gate = s.gate := rfl
@[simp] theorem modEe_hlp (n : Nat) (f : Ee → Ee) (s : State) : (modEe n f s).hlp = s.hlp := rfl
@[simp] theorem modEe_thm (n : Nat) (f : Ee → Ee) (s : State) : (modEe n f s).thm = s.thm := rfl
@[simp] theorem modEe_thmg (n : Nat) (f : Ee → Ee) (s : State) : (modEe n f s).thmg = s.thmg := rfl
@[simp] theorem modEe_nhl (n : Nat) (f : Ee → Ee) (s : State) : (modEe n f s).nhl = s.nhl := rfl
@[simp] theorem modEe_hostresAt (n : Nat) (f : Ee → Ee) (s : State) : (modEe n f s).hostresAt = s.hostresAt := rfl
@[simp] theorem modEe_scn (n : Nat) (f : Ee → Ee) (s : State) : (modEe n f s).scn = s.scn := rfl
@[simp] theorem modEe_pc (n : Nat) (f : Ee → Ee) (s : State) : (modEe n f s).pc = s.pc := rfl
@[simp] theorem modEe_enc (n : Nat) (f : Ee → Ee) (s : State) : (modEe n f s).enc = s.enc := rfl
@[simp] theorem modEe_stp (n : Nat) (f : Ee → Ee) (s : State) : (modEe n f s).stp = s.stp := rfl
@[simp] theorem modEe_mot (n : Nat) (f : Ee → Ee) (s : State) : (modEe n f s).mot = s.mot := rfl
@[simp] theorem modEe_ss (n : Nat) (f : Ee → Ee) (s : State) : (modEe n f s).ss = s.ss := rfl
@[simp] theorem modEe_cas (n : Nat) (f : Ee → Ee) (s : State) : (modEe n f s).cas = s.cas := rfl
@[simp] theorem modEe_dma (n : Nat) (f : Ee → Ee) (s : State) : (modEe n f s).dma = s.dma := rfl
@[simp] theorem modEe_cqSince (n : Nat) (f : Ee → Ee) (s : State) : (modEe n f s).cqSince = s.cqSince := rfl
@[simp] theorem modEe_sigSat (n : Nat) (f : Ee → Ee) (s : State) : (modEe n f s).sigSat = s.sigSat := rfl
@[simp] theorem modEe_dmaTurn (n : Nat) (f : Ee → Ee) (s : State) : (modEe n f s).dmaTurn = s.dmaTurn := rfl
@[simp] theorem modEe_mem (n : Nat) (f : Ee → Ee) (s : State) : (modEe n f s).mem = s.mem := rfl
@[simp] theorem modEe_out (n : Nat) (f : Ee → Ee) (s : State) : (modEe n f s).out = s.out := rfl
@[simp] theorem modEe_freeCtr (n : Nat) (f : Ee → Ee) (s : State) : (modEe n f s).freeCtr = s.freeCtr := rfl
@[simp] theorem modEe_rd (n : Nat) (f : Ee → Ee) (s : State) (r : Nat) : rd (modEe n f s) r = rd s r := rfl

/-! ## modScn -/

@[simp] theorem modScn_pending (f : Scn → Scn) (s : State) : (modScn f s).pending = s.pending := rfl
@[simp] theorem modScn_now (f : Scn → Scn) (s : State) : (modScn f s).now = s.now := rfl
@[simp] theorem modScn_regs (f : Scn → Scn) (s : State) : (modScn f s).regs = s.regs := rfl
@[simp] theorem modScn_sram (f : Scn → Scn) (s : State) : (modScn f s).sram = s.sram := rfl
@[simp] theorem modScn_page (f : Scn → Scn) (s : State) : (modScn f s).page = s.page := rfl
@[simp] theorem modScn_glb (f : Scn → Scn) (s : State) : (modScn f s).glb = s.glb := rfl
@[simp] theorem modScn_ldr (f : Scn → Scn) (s : State) : (modScn f s).ldr = s.ldr := rfl
@[simp] theorem modScn_bru (f : Scn → Scn) (s : State) : (modScn f s).bru = s.bru := rfl
@[simp] theorem modScn_hst (f : Scn → Scn) (s : State) : (modScn f s).hst = s.hst := rfl
@[simp] theorem modScn_jrn (f : Scn → Scn) (s : State) : (modScn f s).jrn = s.jrn := rfl
@[simp] theorem modScn_dot (f : Scn → Scn) (s : State) : (modScn f s).dot = s.dot := rfl
@[simp] theorem modScn_gen (f : Scn → Scn) (s : State) : (modScn f s).gen = s.gen := rfl
@[simp] theorem modScn_gate (f : Scn → Scn) (s : State) : (modScn f s).gate = s.gate := rfl
@[simp] theorem modScn_hlp (f : Scn → Scn) (s : State) : (modScn f s).hlp = s.hlp := rfl
@[simp] theorem modScn_thm (f : Scn → Scn) (s : State) : (modScn f s).thm = s.thm := rfl
@[simp] theorem modScn_thmg (f : Scn → Scn) (s : State) : (modScn f s).thmg = s.thmg := rfl
@[simp] theorem modScn_nhl (f : Scn → Scn) (s : State) : (modScn f s).nhl = s.nhl := rfl
@[simp] theorem modScn_hostresAt (f : Scn → Scn) (s : State) : (modScn f s).hostresAt = s.hostresAt := rfl
@[simp] theorem modScn_pc (f : Scn → Scn) (s : State) : (modScn f s).pc = s.pc := rfl
@[simp] theorem modScn_enc (f : Scn → Scn) (s : State) : (modScn f s).enc = s.enc := rfl
@[simp] theorem modScn_ee (f : Scn → Scn) (s : State) : (modScn f s).ee = s.ee := rfl
@[simp] theorem modScn_stp (f : Scn → Scn) (s : State) : (modScn f s).stp = s.stp := rfl
@[simp] theorem modScn_mot (f : Scn → Scn) (s : State) : (modScn f s).mot = s.mot := rfl
@[simp] theorem modScn_ss (f : Scn → Scn) (s : State) : (modScn f s).ss = s.ss := rfl
@[simp] theorem modScn_cas (f : Scn → Scn) (s : State) : (modScn f s).cas = s.cas := rfl
@[simp] theorem modScn_dma (f : Scn → Scn) (s : State) : (modScn f s).dma = s.dma := rfl
@[simp] theorem modScn_cqSince (f : Scn → Scn) (s : State) : (modScn f s).cqSince = s.cqSince := rfl
@[simp] theorem modScn_sigSat (f : Scn → Scn) (s : State) : (modScn f s).sigSat = s.sigSat := rfl
@[simp] theorem modScn_dmaTurn (f : Scn → Scn) (s : State) : (modScn f s).dmaTurn = s.dmaTurn := rfl
@[simp] theorem modScn_mem (f : Scn → Scn) (s : State) : (modScn f s).mem = s.mem := rfl
@[simp] theorem modScn_out (f : Scn → Scn) (s : State) : (modScn f s).out = s.out := rfl
@[simp] theorem modScn_freeCtr (f : Scn → Scn) (s : State) : (modScn f s).freeCtr = s.freeCtr := rfl
@[simp] theorem modScn_rd (f : Scn → Scn) (s : State) (r : Nat) : rd (modScn f s) r = rd s r := rfl

/-! ## modThm -/

@[simp] theorem modThm_pending (n : Nat) (f : Thm → Thm) (s : State) : (modThm n f s).pending = s.pending := rfl
@[simp] theorem modThm_now (n : Nat) (f : Thm → Thm) (s : State) : (modThm n f s).now = s.now := rfl
@[simp] theorem modThm_regs (n : Nat) (f : Thm → Thm) (s : State) : (modThm n f s).regs = s.regs := rfl
@[simp] theorem modThm_sram (n : Nat) (f : Thm → Thm) (s : State) : (modThm n f s).sram = s.sram := rfl
@[simp] theorem modThm_page (n : Nat) (f : Thm → Thm) (s : State) : (modThm n f s).page = s.page := rfl
@[simp] theorem modThm_glb (n : Nat) (f : Thm → Thm) (s : State) : (modThm n f s).glb = s.glb := rfl
@[simp] theorem modThm_ldr (n : Nat) (f : Thm → Thm) (s : State) : (modThm n f s).ldr = s.ldr := rfl
@[simp] theorem modThm_bru (n : Nat) (f : Thm → Thm) (s : State) : (modThm n f s).bru = s.bru := rfl
@[simp] theorem modThm_hst (n : Nat) (f : Thm → Thm) (s : State) : (modThm n f s).hst = s.hst := rfl
@[simp] theorem modThm_jrn (n : Nat) (f : Thm → Thm) (s : State) : (modThm n f s).jrn = s.jrn := rfl
@[simp] theorem modThm_dot (n : Nat) (f : Thm → Thm) (s : State) : (modThm n f s).dot = s.dot := rfl
@[simp] theorem modThm_gen (n : Nat) (f : Thm → Thm) (s : State) : (modThm n f s).gen = s.gen := rfl
@[simp] theorem modThm_gate (n : Nat) (f : Thm → Thm) (s : State) : (modThm n f s).gate = s.gate := rfl
@[simp] theorem modThm_hlp (n : Nat) (f : Thm → Thm) (s : State) : (modThm n f s).hlp = s.hlp := rfl
@[simp] theorem modThm_thmg (n : Nat) (f : Thm → Thm) (s : State) : (modThm n f s).thmg = s.thmg := rfl
@[simp] theorem modThm_nhl (n : Nat) (f : Thm → Thm) (s : State) : (modThm n f s).nhl = s.nhl := rfl
@[simp] theorem modThm_hostresAt (n : Nat) (f : Thm → Thm) (s : State) : (modThm n f s).hostresAt = s.hostresAt := rfl
@[simp] theorem modThm_scn (n : Nat) (f : Thm → Thm) (s : State) : (modThm n f s).scn = s.scn := rfl
@[simp] theorem modThm_pc (n : Nat) (f : Thm → Thm) (s : State) : (modThm n f s).pc = s.pc := rfl
@[simp] theorem modThm_enc (n : Nat) (f : Thm → Thm) (s : State) : (modThm n f s).enc = s.enc := rfl
@[simp] theorem modThm_ee (n : Nat) (f : Thm → Thm) (s : State) : (modThm n f s).ee = s.ee := rfl
@[simp] theorem modThm_stp (n : Nat) (f : Thm → Thm) (s : State) : (modThm n f s).stp = s.stp := rfl
@[simp] theorem modThm_mot (n : Nat) (f : Thm → Thm) (s : State) : (modThm n f s).mot = s.mot := rfl
@[simp] theorem modThm_ss (n : Nat) (f : Thm → Thm) (s : State) : (modThm n f s).ss = s.ss := rfl
@[simp] theorem modThm_cas (n : Nat) (f : Thm → Thm) (s : State) : (modThm n f s).cas = s.cas := rfl
@[simp] theorem modThm_dma (n : Nat) (f : Thm → Thm) (s : State) : (modThm n f s).dma = s.dma := rfl
@[simp] theorem modThm_cqSince (n : Nat) (f : Thm → Thm) (s : State) : (modThm n f s).cqSince = s.cqSince := rfl
@[simp] theorem modThm_sigSat (n : Nat) (f : Thm → Thm) (s : State) : (modThm n f s).sigSat = s.sigSat := rfl
@[simp] theorem modThm_dmaTurn (n : Nat) (f : Thm → Thm) (s : State) : (modThm n f s).dmaTurn = s.dmaTurn := rfl
@[simp] theorem modThm_mem (n : Nat) (f : Thm → Thm) (s : State) : (modThm n f s).mem = s.mem := rfl
@[simp] theorem modThm_out (n : Nat) (f : Thm → Thm) (s : State) : (modThm n f s).out = s.out := rfl
@[simp] theorem modThm_freeCtr (n : Nat) (f : Thm → Thm) (s : State) : (modThm n f s).freeCtr = s.freeCtr := rfl
@[simp] theorem modThm_rd (n : Nat) (f : Thm → Thm) (s : State) (r : Nat) : rd (modThm n f s) r = rd s r := rfl

end Sys2Proof.Machine
end

