-- ==== Sys2Proof/Tests/Slice0.lean ====
section
/-! SUPPORT. Tests of the model: ill-formed commands, worked examples of the spec with the values the spec states, and, for every statement
of Sys2Proof/Certificates/Slice0/Obligations.lean, states and operands that meet what each of its clauses assumes. -/

open Sys2Proof Sys2Proof.Machine

namespace Sys2Proof.Tests
set_option linter.unusedVariables false
set_option Elab.async false

/-! ## The states of the tests -/

/-- `n` bytes of value `d`, but for those that the list names. -/
def bytesOf (n d : Nat) (l : List (Nat × Nat)) : List Byte :=
  (List.range n).map (fun k => BitVec.ofNat 8 (((l.find? (fun x => x.1 = k)).map Prod.snd).getD d))

/-- An image: pipes 0 and 15 on ports 0 and 15 with rows 0 and 7 present, generators 0, 1 and 15, position channels 0, 1 (sin/cos) and
7, outputs 0 and 3, axes 0 (the transport) and 7, motors 0 and 3, all banks ON, four page-store channels. `topo` and `cas` replace
bytes of TOPOLOGY and CASCADE. -/
def img (topo cas : List (Nat × Nat)) : Image :=
  { sections := [
      (1, bytesOf 0x148 0xFF (topo ++ [(0, 0), (1, 0), (3, 0), (4, 0xF0), (7, 0x0F), (0xF0, 15), (0xF1, 15), (0xF3, 0), (0xF4, 0xF0),
        (0xF7, 0x0F), (0x100, 0), (0x101, 0), (0x104, 0x10), (0x105, 2), (0x13C, 7), (0x13D, 0), (0x140, 0), (0x141, 1), (0x142, 2),
        (0x143, 0), (0x144, 0), (0x145, 0)])),
      (2, bytesOf 0x98 0 []), (3, bytesOf 8 0 [(1, 4)]), (4, bytesOf 12 0 [(8, 0xFF)]), (5, bytesOf 8 0 [(0, 4), (1, 1)]),
      (6, bytesOf 128 0 [(125, 2)]),
      (7, bytesOf 0x60 0 [(0, 1), (2, 8), (8, 4), (10, 8), (56, 2), (58, 8), (0x42, 1), (0x44, 1), (0x48, 0xFF), (0x50, 0xFF), (0x58, 7),
        (0x5A, 1), (0x5C, 1)]),
      (8, bytesOf 64 0 [(0, 1), (1, 0xFF), (56, 1), (57, 0xFF)]),
      (9, bytesOf 64 0 [(0, 1), (2, 4), (4, 20), (7, 24), (48, 2), (49, 7), (50, 4), (52, 20), (55, 28)]),
      (10, bytesOf 4 0 cas), (11, [0, 0])],
    svn := 5, effHash := [], source := .slotA, amended := false }

/-- The block in a global state, out of reset and locked, with no image. -/
def bare (g : GState) : State := { State.reset with glb := { Glb.reset with state := g, porst := false, locked := true } }

/-- A head of 128 columns, 8 rows and no zones. -/
def head : Hlp :=
  { Hlp.reset with lstate := .active, bst := .trained, killed := false, synced := true, credits := 4,
                   mem := bytesOf 0x110 0 [(0x20, 1), (0x100, 8), (0x101, 1), (0x102, 128)] }

/-- The block with an image in force and its heads ACTIVE. -/
def rigWith (topo cas : List (Nat × Nat)) (g : GState) : State :=
  { bare g with ldr := { Loader.reset with image := some (img topo cas) }, hlp := Vector.replicate 16 head,
                regs := [(R.MEM_BKSTAT, 0)] }

def rig (g : GState) : State := rigWith [] [] g

/-- Before any training no port is stuck. -/
theorem not_stuck (s : State) (h : s.hlp = Vector.replicate 16 Hlp.reset) (p : Nat) : portStuck s p = false := by
  have e : hp s p = Hlp.reset := by rw [hp, vat]; simp [h]
  rw [portStuck, e]; exact Bool.and_false _

/-- A line of rows 0 and 7 that has been sent and accepted. -/
def line : FLine :=
  { line := 0, kind := .print, scan := false, gap := 0, gapN := 0, gapId := 0, rowmask := 0x81, codes := [], cap := 511, order := [], overlap := 0,
    trims := [], warms := [], ents := [], slot := 160, settle := 0, bank := 0, lineSent := true, lineAck := true, parmSent := true,
    parmAck := true, fireSent := true, fireAck := true, timed := true, launch := 0, offs := List.replicate 8 0, launched := false,
    started := List.replicate 8 0, done := 0, skipped := false, tele := .waiting, eps := 0 }

/-- Port 15 holds a line. -/
def holds (l : FLine) (s : State) : State := modHlp 15 (fun h => { h with lines := [l] }) s

/-- A port that is due for a warm-only cycle, and the decision of that cycle. -/
def warmPort : Fin 16 := 15
def warmRig : State := wr (R.FIR_Pn_WARM 15) 1 (rig .armed)
def warmLine : State × FLine :=
  decideLine warmPort (newLine warmRig warmPort 0 .warm false 0 (portRows warmRig warmPort) ((List.range 8).map (fun r =>
    if bitOf (portRows warmRig warmPort).toNat r then List.replicate (hp warmRig warmPort).cols 0 else []))) warmRig

theorem warm_bank : (bankFor warmPort warmLine.2 warmLine.1).isSome = true := by decide +kernel

theorem warm_line : decideLine warmPort (newLine warmRig warmPort 0 .warm false 0 (portRows warmRig warmPort) ((List.range 8).map (fun r =>
    if bitOf (portRows warmRig warmPort).toNat r then List.replicate (hp warmRig warmPort).cols 0 else []))) warmRig =
      (warmLine.1, warmLine.2) :=
  Prod.mk.eta.symm

/-- The memory of a head with one zone. -/
def zoned : List Byte := bytesOf 0x180 0 [(0x20, 1), (0x100, 8), (0x101, 1), (0x102, 128), (0x104, 1)]

/-- A shutdown path. -/
def path (die : Bool) : Path := ⟨die, 0, 0, 0, 0, 0, 0, 0, 0, 0, 0, 0, .print, false⟩

/-- A sample of the sin/cos channel 1 whose phase lies within a quarter period of the last, whatever the free rounding of the angle. -/
theorem sincos_good :
    scBad (setF (R.POS_PCn_SCAMP (1 : Fin 8)) 23 0 (narrow 24 (scSine (rig .idle) (1 : Fin 8) 1000 * scSine (rig .idle) (1 : Fin 8) 1000 +
        scCosine (rig .idle) (1 : Fin 8) 1 * scCosine (rig .idle) (1 : Fin 8) 1)) (rig .idle)) (1 : Fin 8)
      (narrow 24 (scSine (rig .idle) (1 : Fin 8) 1000 * scSine (rig .idle) (1 : Fin 8) 1000 +
        scCosine (rig .idle) (1 : Fin 8) 1 * scCosine (rig .idle) (1 : Fin 8) 1))
      (signed 12 (narrow 12 ((interpolate (scSine (rig .idle) (1 : Fin 8) 1000) (scCosine (rig .idle) (1 : Fin 8) 1) : Int) -
        (pch (setF (R.POS_PCn_SCAMP (1 : Fin 8)) 23 0 (narrow 24 (scSine (rig .idle) (1 : Fin 8) 1000 *
          scSine (rig .idle) (1 : Fin 8) 1000 + scCosine (rig .idle) (1 : Fin 8) 1 * scCosine (rig .idle) (1 : Fin 8) 1))
            (rig .idle)) (1 : Fin 8)).ph))) = 0 := by
  have h : interpolate (scSine (rig .idle) (1 : Fin 8) 1000) (scCosine (rig .idle) (1 : Fin 8) 1) = 1023 ∨
      interpolate (scSine (rig .idle) (1 : Fin 8) 1000) (scCosine (rig .idle) (1 : Fin 8) 1) = 1024 := by
    have e : scSine (rig .idle) (1 : Fin 8) 1000 = 1000 := by decide +kernel
    have e' : scCosine (rig .idle) (1 : Fin 8) 1 = 1 := by decide +kernel
    have p : phaseStep 1000 1 = 1023 := by decide +kernel
    rw [e, e', interpolate]
    rw [if_neg (by decide), if_neg (by decide), p]
    omega
  rcases h with h | h <;> rw [h] <;> decide +kernel

/-- A port of the cascade in a state; the cascade unit of a chain of two with both ports ACTIVE. -/
def link (l : CasLink) : CasPort := ⟨l, 0, 0, [], false, false, false⟩
def chainOf (position : Nat) : Cas :=
  { Cas.reset with cu := link .active, cd := link .active, disc := true, position := position, length := 2, epoch := 1, transport := 0 }

/-- A device of a chain of two: role 1 is the campanile, 2 a member. -/
def device (role : Nat) (g : GState) : State := { rigWith [] [(0, role), (2, 2)] g with cas := chainOf (role - 1) }

/-- The header of a frame from a device to a role. -/
def hdr (src dst : Byte) : CasHdr := ⟨0, 1, src, dst, 1, true⟩

/-- DMA channel 31 in RUN, its program at SRAM offset 0x2000; the first instruction begins with the bytes given. -/
def prog (l : List Byte) : State :=
  { modDma 31 (fun x => { x with st := .run }) (wr (R.DMA_DCn_APTR 31) 0x2000 (rig .idle)) with
    sram := (l.zipIdx.filter (fun x => x.1 ≠ 0)).map (fun x => (0x2000 + x.2, x.1)) }

/-- Those bytes as a whole instruction. -/
def inst (l : List Byte) : List Byte := l ++ List.replicate (16 - l.length) 0

/-- A WAIT for a bell time does not depend on the place in the queue of a signal. -/
theorem wait_time (s : State) (k : Nat) (i : List Byte) (h : ib i 1 = 3) : waitHolds s k i = waitHolds s 0 i := by
  simp only [waitHolds, h]

/-- One section of the image in force replaced. -/
def withSection (k : Nat) (b : List Byte) (s : State) : State :=
  { s with ldr := { s.ldr with image := s.ldr.image.map (fun i => { i with sections := (k, b) :: i.sections }) } }

/-- A page store with inline ECC. -/
def eccRig (g : GState) : State := withSection 5 (bytesOf 8 0 [(0, 4), (1, 1), (4, 1)]) (rig g)

/-- A device of a chain that keeps bell time by bell sets. -/
def bellRig (g : GState) (bells : List Bell) : State :=
  { withSection 2 (bytesOf 0x98 0 [(0, 1)]) (rigWith [(0x142, 0)] [(0, 2), (2, 2)] g) with cas := { chainOf 1 with bells := bells } }

/-! ## Well-formed commands -/

/-- Each check of `Instr.wf` refuses a command that breaks it and lets its neighbour pass. -/
theorem test_wf_clockUnlock : (Instr.clockUnlock 99).wf = false ∧ (Instr.clockUnlock 100).wf = true := by decide +kernel
theorem test_wf_earlyAccess : (Instr.earlyAccess 2 0x8000000 false).wf = false ∧ (Instr.earlyAccess 2 0x7FFFFFF false).wf = true ∧
    (Instr.earlyAccess 1 0 false).wf = false := by decide +kernel
theorem test_wf_flashReadDone : (Instr.flashReadDone (List.replicate 1048577 0)).wf = false := by
  show decide ((List.replicate 1048577 (0 : Byte)).length ≤ slotSize) = false
  rw [List.length_replicate]; decide
theorem test_wf_flashStrobeTimeout : (Instr.flashStrobeTimeout 0x200000).wf = false ∧ (Instr.flashStrobeTimeout 0x1FFFFF).wf = true := by decide +kernel
theorem test_wf_selftest : (Instr.selftestActivityDone (.memory (Vector.replicate 64 21) (Vector.replicate 64 0) true)).wf = false ∧
    (Instr.selftestActivityDone (.memory (Vector.replicate 64 20) (Vector.replicate 64 255) true)).wf = true := by
  decide +kernel
theorem test_wf_memResponse : (Instr.memResponseRx 0 0 0 (List.replicate 257 0)).wf = false := by decide +kernel
theorem test_wf_teleKind0 : (Instr.teleKind0Rx 0 0 false 0 (List.replicate 65 0) [] []).wf = false ∧
    (Instr.teleKind0Rx 0 0 false 0 [] (List.replicate 5 0) []).wf = false ∧
    (Instr.teleKind0Rx 0 0 false 0 [] [] (List.replicate 17 0)).wf = false := by decide +kernel
theorem test_wf_teleKind1 : (Instr.teleKind1Rx 0 []).wf = false := by decide +kernel
theorem test_wf_tableEntry : (Instr.tableEntryWrite 0x7FFFFC 0 none).wf = false ∧ (Instr.tableEntryWrite 0x900004 0 (some 0)).wf = false ∧
    (Instr.tableEntryWrite 0x900004 0 none).wf = true := by decide +kernel
theorem test_wf_stat : (Instr.statRx ⟨0, 1, 1, 0, 1, true⟩ 0 0 0 0 0).wf = false ∧ (Instr.statRx ⟨0, 1, 1, 0, 1, true⟩ 11 0 0 0 0).wf = false := by decide +kernel
theorem test_wf_dmaRead : (Instr.dmaReadCompletion 0 0 (.ok (List.replicate 513 0))).wf = false := by decide +kernel
theorem test_wf_marchWindow : (Instr.marchWindowDone [⟨0, some []⟩]).wf = false := by decide +kernel
theorem test_wf_barAccess : (Instr.bar2Access 0x7FFFFFF (.read 2)).wf = false ∧ (Instr.bar4Access 0 (.write []) []).wf = false := by decide +kernel
theorem test_wf_hstAccessBad : (Instr.hstAccessBad 0 0 true).wf = false := by decide +kernel
theorem test_wf_invarWrite : (Instr.invarWrite 0x80004 true 0 0).wf = false := by decide +kernel
theorem test_wf_registers : (Instr.w1cFlagClear 2 0 false).wf = false ∧ (Instr.registerWrite 2 0 ⟨true, 0⟩).wf = false ∧
    (Instr.shadowRegisterWrite 0 2 0).wf = false := by decide +kernel
theorem test_wf_pcieLink : (Instr.pcieLinkUp 5 ⟨8, 2, false⟩).wf = false ∧ (Instr.pcieLinkUp 4 ⟨3, 2, false⟩).wf = false ∧
    (Instr.pcieLinkUp 4 ⟨8, 5, true⟩).wf = true := by decide +kernel

/-! ## One step -/

/-- The next state. -/
def after (o : Host.Outcome State Fault Refusal) : State :=
  match o with
  | .next s => s
  | .fault _ | .refused _ => State.reset

theorem test_idle_tick : after (step State.reset) = { State.reset with now := 1 } := by decide +kernel

/-! ## The worked examples of the spec -/

/-- The running example's generator 8: pitch 0x0010_AAAB, speed 18,897,638; row 1 at fraction 83, row 3 at fraction 228
(05_firing.md, the placement example). -/
def press : State :=
  wr (R.DOT_Pn_RDLY 8 1) 0x0014C58F (wr (R.DOT_Pn_RDLY 8 3) 0x003905BF (wr (R.FIR_LTn_PITCH 8) 0x0010AAAB
    (modGen 8 (fun x => { x with vSeen := true, v := 18897638 })
      (modPc 0 (fun x => { x with valid := true, v := 18897638, t := 1004967 }) (rigWith [(0x120, 0), (0x121, 0), (0x122, 0xFF)] [] .print)))))

/-- The launch instant 1,005,644 = 1,004,967 + 677. -/
theorem test_press_launch : (predictAt (modGen 8 (fun x => { x with org := 2 ^ 48 + 131072 - 1092267, orgline := 0 }) press) 8 1).1 = 1005644 := by
  decide +kernel

/-- off_1 = 1,830 (06_romor_head_link.md) and off_3 = 5,027 (05_firing.md). -/
theorem test_press_offsets : rowOffset press 8 8 1 0 = 1830 ∧ rowOffset press 8 8 3 0 = 5027 := by decide +kernel

/-- The FIRE frame of line 101,500, bytes 2 to 27 (06_romor_head_link.md). -/
theorem test_press_fire :
    fireBody { line with line := 101500, rowmask := 0x0A, launch := 1005644, offs := [0, 1830, 0, 5027, 0, 0, 0, 0] } =
      [0x7C, 0x8C, 0x01, 0x0A, 0x4C, 0x58, 0x0F, 0, 0, 0, 0, 0, 0x26, 0x07, 0, 0, 0xA3, 0x13, 0, 0, 0, 0, 0, 0, 0, 0] := by decide +kernel

/-- main = 256 steps and t = −9 give 244 steps (05_firing.md). -/
theorem test_trim : trimMain 256 (-9) = 244 := by decide +kernel

/-- Sixty edges in 20,320 ticks read 18,897,638 (10_position.md): the history holds 64. -/
theorem test_speed :
    (histEdge 16 30000 { Pc.reset with hist := (List.range 64).map (fun k => 30000 - (k + 1) * 1016 / 3) }).v = 18897638 ∧
    (histEdge 16 30000 { Pc.reset with hist := (List.range 64).map (fun k => 30000 - (k + 1) * 1016 / 3) }).mean = (60, 20320) := by
  decide +kernel

/-- The update of primitive 300 (07_thermal_energy.md). -/
theorem test_thermal_update :
    (Prim.update ⟨212992, 198656, 0, 0, false, false⟩ 3686 5644 3277 4096 40000 4000000 163840).tj = 213918 ∧
    (Prim.update ⟨212992, 198656, 0, 0, false, false⟩ 3686 5644 3277 4096 40000 4000000 163840).tb = 198734 := by decide +kernel

/-- The dot counts of groups 0 to 15 and their load (07_thermal_energy.md). -/
def groupLoad (g : Nat) : Nat := 40 * [200, 40, 180, 60, 150, 90, 120, 100, 210, 30, 170, 70, 140, 80, 110, 130].getD g 0

/-- The groups sorted by load, and the overlap bits of the interleaved order under a budget of 9,500 mA. -/
theorem test_schedule : sortLoads groupLoad = [8, 0, 2, 10, 4, 12, 15, 6, 14, 7, 5, 13, 11, 3, 1, 9] ∧
    overlapBits [8, 9, 0, 1, 2, 3, 10, 11, 4, 13, 12, 5, 15, 7, 6, 14] (fun a b => decide (groupLoad a + groupLoad b ≤ 9500)) 15 = 0xFF54 ∧
    orderBytes [8, 9, 0, 1, 2, 3, 10, 11, 4, 13, 12, 5, 15, 7, 6, 14] = [0x98, 0x10, 0x32, 0xBA, 0xD4, 0x5C, 0x7F, 0xE6] := by decide +kernel

/-- A rate of 19 at 60 °C leaves 67,368 µs to 80 °C (07_thermal_energy.md). -/
theorem test_ttl : ttlOf 960 1280 19 = 67368 := by decide +kernel

/-- Compare 1 of channel 0, armed at a target of 1,000,000 with a spacing of 50,000 while the web stands at 1,163,205, with bh 0, 1 and
2 (10_position.md). -/
def compare (bh : Nat) : State :=
  cmpArm 0 1 (setF (R.POS_PCn_CMPm_CTL 0 1) 3 2 bh (wr (R.POS_PCn_CMPm_SPACE 0 1) 0xC3500000 (wr (R.POS_PCn_CMPm_TGT_INT 0 1) 1000000
    (modPc 0 (fun x => { x with pos := 1163205 * 65536 }) (rig .idle)))))

theorem test_compare_missed : cmpArmed (compare 0) 0 1 = false ∧
    (compare 0).hst.raised.map (fun e => (e.code, e.a1, e.a2)) = [(Ev.CMP_MISSED.code, 1000000, 1163205)] := by decide +kernel
theorem test_compare_stepped : rd (compare 1) (R.POS_PCn_CMPm_SKIPCNT 0 1) = 4 ∧ cmpTgt (compare 1) 0 1 = 1200000 * 65536 ∧
    (compare 1).hst.raised.map (fun e => (e.code, e.a1, e.a2)) = [(Ev.CMP_SKIPPED.code, 4, 1200000)] ∧
    rd (compare 2) (R.POS_PCn_CMPm_SKIPCNT 0 1) = 3 ∧ cmpTgt (compare 2) 0 1 = 1200000 * 65536 := by decide +kernel

/-- Stopping from 1,000,000 microsteps/s takes 125,000 microsteps (11_steppers.md). -/
theorem test_stop_point : stopFlat 100000000 5000000 1000000 = 125000 := by decide +kernel

/-- s_dec = 75,518 counts; each ramp of the back-up covers 2,893 counts (13_seamless_stop.md). -/
theorem test_seamless_ramps : ssStop 1181102 10000000 1024000000 = 75518 := by decide +kernel

/-- The device's PROBE at 500,000 and the head's ECHO give theta −499,892.250 and delta 5.000; in eighths of a tick
(06_romor_head_link.md). -/
theorem test_head_sync :
    (hp (after (execTsyncEchoRx 15 4000000 902 1302 4000480 (modHlp 15 (fun h => { h with lstate := .timesync }) (rig .linkTrain)))) 15).echoes =
      [(-3999138, 40)] := by decide +kernel

/-- A campanile's image with BELL at 160,000 Hz and a bell period of 8,000 ticks. -/
def bellImage : Image :=
  { img [] [(0, 1), (2, 2)] with
    sections := (2, bytesOf 0x98 0 [(0, 1), (0x94, 0x40), (0x95, 0x1F)]) :: (img [] [(0, 1), (2, 2)]).sections }

/-- START at 10,000,000 with CMDLEAD 4,096 and a bell period of 8,000 takes the tick 10,008,000 (14_cascade.md). -/
def armedCampanile : State :=
  { wr (R.CAS_AGG_A 1) 6 (device 1 .armed) with now := 10000000, ldr := { Loader.reset with image := some bellImage } }
theorem test_start_tick : (after (exec .glbStart armedCampanile)).cas.ts = some 10008000 := by decide +kernel

/-- The instructions of the example program (15_dma.md) are valid; WRI names DOT_P8_WADD. -/
theorem test_program : instValid (inst [0x01, 0x08]) = true ∧ instValid (inst [0x03, 0xFF, 0x03, 0x00, 0x7F, 0, 0, 0, 0x80, 0x04]) = true ∧
    instValid (inst [0x02, 0x19]) = true ∧ instValid (inst [0x04, 0xFF, 0xFF, 0x01]) = true ∧ instValid (inst [0x06, 0, 0, 0, 0x10]) = true ∧
    instValid (inst [0x08, 0x01, 0x08, 0x1E, 0, 0, 0, 0, 0x40]) = true ∧
    instValid (inst [0x05, 0, 0, 0, 0, 0x40, 0x02, 0, 0, 0, 0x02]) = true ∧ instValid (inst [0x0D, 0x01, 0, 0, 0x11]) = true ∧
    R.DOT_Pn_WADD 8 = 0x181818 ∧ wriOk 0x181818 = true := by decide +kernel

/-- Offset 0x0195_EC00 lies in BK2, W0 (16_memories.md). -/
theorem test_bank : bankOf 0x0195EC00 = 2 ∧ wayOf 0x0195EC00 = 0 := by decide +kernel

/-- The event DOT_UNDERRUN_PREDICTED of pipe 8, fill 60 and pred 5 (17_host_control.md). -/
theorem test_event_bytes :
    ({ mkEvent Ev.DOT_UNDERRUN_PREDICTED 8 8 60 5 { State.reset with now := 1005644 } with seq := 0x1234 } : Event).bytes =
      [0x03, 0x03, 0x00, 0x03, 0x08, 0, 0, 0, 0x4C, 0x58, 0x0F, 0, 0, 0, 0, 0, 0x08, 0, 0, 0, 0x3C, 0, 0, 0, 0x05, 0, 0, 0, 0x34, 0x12, 0, 0] := by decide +kernel

/-- 131 lines in and 186 out of 4,096 bytes each in the window give a drift of −55 lines (04_dot_data.md). -/
theorem test_drift : dotDrift (wr R.DOT_PREDCFG 0x00011414 (rig .idle)) { Pipe.reset with lastCin := 131, lastCout := 186 } = -55 := by
  decide +kernel

/-- The head absolute HALT limit of HP8 lies at 0x28_1830, and its entry is the value 0x0420_04E0 with its complement
(18_register_map.md). -/
theorem test_invar_entry : R.THM_Pn_THALT 8 = 0x281830 ∧ isInvar 0x281830 = true ∧ ~~~(0x042004E0 : Word) = 0xFBDFFB1F := by decide +kernel

/-! ## What the statements assume is met -/

/-- What each clause of StepIdles assumes is met. -/
theorem test_witness_StepIdles :
    (∃ (s : State), s.pending = []) :=
  ⟨State.reset, by decide +kernel⟩

/-- What each clause of StepKeepsInv assumes is met. -/
theorem test_witness_StepKeepsInv :
    (∃ (s : State) (t : State), s.Inv ∧ step s = .next t) :=
  ⟨State.reset, _, by decide +kernel, rfl⟩

/-- What each clause of ShutdownEndsByResetOnly assumes is met. -/
theorem test_witness_ShutdownEndsByResetOnly :
    (∃ (c : Instr) (s : State) (t : State), s.glb.state = .shutdown ∧ (∀ w, c ≠ .porstAssert w) ∧ (∀ w, c ≠ .warmrstAssert w) ∧ c ≠
      .powerLoss ∧ exec c s = .next t) ∧
    (∃ (w : Nat) (s : State), s.glb.state = .shutdown ∧ 100 ≤ w) ∧
    (∃ (w : Nat) (s : State), s.glb.state = .shutdown ∧ s.glb.porst = false ∧ 100 ≤ w) ∧
    (∃ (s : State), s.glb.state = .shutdown) :=
  ⟨⟨.glbArm, (bare .shutdown), _, by decide +kernel, (fun _ => by simp), (fun _ => by simp), (by simp), rfl⟩,
    ⟨100, (bare .shutdown), by decide +kernel, by decide +kernel⟩,
    ⟨100, (bare .shutdown), by decide +kernel, by decide +kernel, by decide +kernel⟩,
    ⟨(bare .shutdown), by decide +kernel⟩⟩

/-- What each clause of BindingsStand assumes is met. -/
theorem test_witness_BindingsStand :
    (∃ (c : Instr) (s : State) (t : State), s.glb.state ≠ .imageLoad ∧ (∀ w, c ≠ .porstAssert w) ∧ (∀ w, c ≠ .warmrstAssert w) ∧ c ≠
      .powerLoss ∧ exec c s = .next t) ∧
    (∃ (s : State) (t : State), s.glb.state ≠ .imageLoad ∧ s.glb.state ≠ .idle ∧ exec .glbReload s = .next t) :=
  ⟨⟨.glbArm, (bare .idle), _, by decide +kernel, (fun _ => by simp), (fun _ => by simp), (by simp), rfl⟩,
    ⟨(bare .armed), _, by decide +kernel, by decide +kernel, rfl⟩⟩

/-- What each clause of OtpOnlyRises assumes is met. -/
theorem test_witness_OtpOnlyRises :
    (∃ (s : State) (t : State), step s = .next t) ∧
    (∃ (src : BitVec 2) (i : Image) (s : State), s.glb.state = .idle ∧ s.ldr.image = some i) :=
  ⟨⟨State.reset, _, rfl⟩,
    ⟨0, (img [] []), (rig .idle), by decide +kernel, by decide +kernel⟩⟩

/-- What each clause of EventDelivery assumes is met. -/
theorem test_witness_EventDelivery :
    (∃ (e : Event) (s : State), s.regsWf) ∧
    (∃ (e : Event) (s : State), s.regsWf ∧ evRunning s = true ∧ s.hst.queue = [] ∧ evRoom s = true ∧ fld s R.HST_EVCFG 1 1 = 0 ∧ fld s
      R.HST_EVCFG 2 2 = 0) ∧
    (∃ (e : Event) (s : State), s.hst.everEnabled = true ∧ (evRunning s = false ∨ evRoom s = false) ∧ s.hst.queue.length < 64) ∧
    (∃ (e : Event) (s : State), s.hst.everEnabled = true ∧ (evRunning s = false ∨ evRoom s = false) ∧ s.hst.queue.length = 64) ∧
    (∃ (e : Event) (s : State), s.hst.everEnabled = false) ∧
    (∃ (b : List Byte) (s : State), s.jrn.busy = some b ∧ s.jrn.queue = []) :=
  ⟨⟨(mkEvent Ev.GLB_CLOCK_UNLOCK 0xFF 0 0 0 State.reset), State.reset, by decide +kernel⟩,
    ⟨(mkEvent Ev.GLB_CLOCK_UNLOCK 0xFF 0 0 0 State.reset),
        { wr R.HST_EVCFG 0x801 State.reset with hst := { Hst.reset with everEnabled := true, bme := true } }, by decide +kernel,
        by decide +kernel, by decide +kernel, by decide +kernel, by decide +kernel, by decide +kernel⟩,
    ⟨(mkEvent Ev.GLB_CLOCK_UNLOCK 0xFF 0 0 0 State.reset), { State.reset with hst := { Hst.reset with everEnabled := true } },
        by decide +kernel, by decide +kernel, by decide +kernel⟩,
    ⟨(mkEvent Ev.GLB_CLOCK_UNLOCK 0xFF 0 0 0 State.reset),
        { State.reset with hst := { Hst.reset with queue := List.replicate 64 (mkEvent Ev.GLB_CLOCK_UNLOCK 0xFF 0 0 0 State.reset), everEnabled := true } },
        by decide +kernel, by decide +kernel, by decide +kernel⟩,
    ⟨(mkEvent Ev.GLB_CLOCK_UNLOCK 0xFF 0 0 0 State.reset), State.reset, by decide +kernel⟩,
    ⟨[], { State.reset with jrn := { Journal.reset with busy := some [] } }, by decide +kernel, by decide +kernel⟩⟩

/-- What each clause of Severities assumes is met. -/
theorem test_witness_Severities :
    (∃ (k : EvKind) (i : Nat) (a : Nat) (b : Nat) (c : Nat) (s : State), (k.sev = .info ∨ k.sev = .warn)) ∧
    (∃ (k : EvKind) (i : Nat) (a : Nat) (b : Nat) (c : Nat) (s : State), k.sev = .stop ∧ s.glb.state = .print ∧ s.ss.phase ≠ 6) ∧
    (∃ (k : EvKind) (i : Nat) (a : Nat) (b : Nat) (c : Nat) (s : State), k.sev = .stop ∧ s.glb.state = .print) ∧
    (∃ (k : EvKind) (i : Nat) (a : Nat) (b : Nat) (c : Nat) (s : State), k.sev = .stop ∧ s.glb.state ≠ .print) ∧
    (∃ (k : EvKind) (i : Nat) (a : Nat) (b : Nat) (c : Nat) (s : State), k.sev = .halt ∧ haltable s = true) ∧
    (∃ (k : EvKind) (i : Nat) (a : Nat) (b : Nat) (c : Nat) (s : State), k.sev = .halt ∧ haltable s = false) :=
  ⟨⟨Ev.GLB_STATE_CHANGE, 0, 0, 0, 0, State.reset, by decide +kernel⟩,
    ⟨Ev.FIR_MEDIA_OUT, 0, 0, 0, 0, (bare .print), by decide +kernel, by decide +kernel, by decide +kernel⟩,
    ⟨Ev.FIR_MEDIA_OUT, 0, 0, 0, 0, (bare .print), by decide +kernel, by decide +kernel⟩,
    ⟨Ev.FIR_MEDIA_OUT, 0, 0, 0, 0, (bare .armed), by decide +kernel, by decide +kernel⟩,
    ⟨Ev.GLB_CLOCK_UNLOCK, 0, 0, 0, 0, (bare .selftest), by decide +kernel, by decide +kernel⟩,
    ⟨Ev.GLB_CLOCK_UNLOCK, 0, 0, 0, 0, (bare .safeHold), by decide +kernel, by decide +kernel⟩⟩

/-- What each clause of ResetsLeave assumes is met. -/
theorem test_witness_ResetsLeave :
    (∃ (w : Nat) (s : State), 100 ≤ w ∧ s.glb.state ≠ .off) ∧
    (∃ (w : Nat) (s : State), w < 100) ∧
    (∃ (s : State), s.glb.state ≠ .off) ∧
    (∃ (s : State), s.glb.state = .off) ∧
    (∃ (w : Nat) (s : State), 100 ≤ w ∧ s.glb.state ≠ .off ∧ s.glb.porst = false ∧ s.Inv) ∧
    (∃ (w : Nat) (s : State), w < 100) :=
  ⟨⟨100, (bare .idle), by decide +kernel, by decide +kernel⟩,
    ⟨99, (bare .idle), by decide +kernel⟩,
    ⟨(bare .idle), by decide +kernel⟩,
    ⟨(bare .off), by decide +kernel⟩,
    ⟨100, (bare .idle), by decide +kernel, by decide +kernel, by decide +kernel, by decide +kernel⟩,
    ⟨99, (bare .idle), by decide +kernel⟩⟩

/-- What each clause of ResetReleases assumes is met. -/
theorem test_witness_ResetReleases :
    (∃ (b : BitVec 2) (m : Bool) (r : Bool) (s : State), s.glb.porst = true ∧ s.glb.state = .reset ∧ s.glb.warmrst = false ∧
      s.glb.locked = true ∧ s.glb.casSampled = false) ∧
    (∃ (b : BitVec 2) (m : Bool) (r : Bool) (s : State), s.glb.porst = true ∧ s.glb.state = .reset ∧ s.glb.locked = false) ∧
    (∃ (s : State), s.glb.warmrst = true ∧ s.glb.state = .reset ∧ s.glb.porst = false ∧ s.glb.locked = true ∧ s.glb.casSampled = true) ∧
    (∃ (s : State), s.glb.state = .reset ∧ s.glb.locked = false ∧ (s.glb.porst = true ∨ s.glb.warmrst = true)) ∧
    (∃ (s : State), s.glb.state = .reset ∧ s.glb.locked = false ∧ s.glb.porst = false ∧ s.glb.warmrst = false ∧ s.glb.casSampled =
      false) ∧
    (∃ (s : State), s.glb.state = .imageLoad ∧ s.gate.kill = false ∧ s.gate.hopen = 0 ∧ s.gate.jam = 0 ∧ s.gate.mediaOut = false) ∧
    (∃ (n : Nat) (s : State), s.glb.locked = true ∧ s.glb.state = .reset) ∧
    (∃ (n : Nat) (s : State), s.glb.locked = true ∧ s.glb.state = .imageLoad) ∧
    (∃ (n : Nat) (s : State), s.glb.locked = true ∧ haltable s = true) ∧
    (∃ (n : Nat) (s : State), s.glb.locked = false ∧ s.glb.state ≠ .off ∧ s.glb.state ≠ .reset ∧ s.glb.lossRaised = true) ∧
    (∃ (n : Nat) (s : State), s.glb.locked = false ∧ s.glb.state ≠ .off ∧ s.glb.state ≠ .reset ∧ s.glb.lossRaised = false) ∧
    (∃ (s : State), s.glb.loadStopped = false) ∧
    (∃ (n : Nat) (s : State), s.glb.locked = false ∧ s.glb.state = .reset ∧ s.glb.porst = false ∧ s.glb.warmrst = false) :=
  ⟨⟨0, false, false, { State.reset with glb := { Glb.reset with locked := true } }, by decide +kernel, by decide +kernel,
        by decide +kernel, by decide +kernel, by decide +kernel⟩,
    ⟨3, true, true, State.reset, by decide +kernel, by decide +kernel, by decide +kernel⟩,
    ⟨{ State.reset with glb := { Glb.reset with porst := false, warmrst := true, locked := true, casSampled := true } },
        by decide +kernel, by decide +kernel, by decide +kernel, by decide +kernel, by decide +kernel⟩,
    ⟨State.reset, by decide +kernel, by decide +kernel, by decide +kernel⟩,
    ⟨{ State.reset with glb := { Glb.reset with porst := false } }, by decide +kernel, by decide +kernel, by decide +kernel,
        by decide +kernel, by decide +kernel⟩,
    ⟨(bare .imageLoad), by decide +kernel, by decide +kernel, by decide +kernel, by decide +kernel, by decide +kernel⟩,
    ⟨20, (bare .reset), by decide +kernel, by decide +kernel⟩,
    ⟨20, (bare .imageLoad), by decide +kernel, by decide +kernel⟩,
    ⟨20, (bare .print), by decide +kernel, by decide +kernel⟩,
    ⟨20, { bare .safeHold with glb := { (bare .safeHold).glb with locked := false, lossRaised := true } }, by decide +kernel,
        by decide +kernel, by decide +kernel, by decide +kernel⟩,
    ⟨20, { bare .safeHold with glb := { (bare .safeHold).glb with locked := false } }, by decide +kernel, by decide +kernel,
        by decide +kernel, by decide +kernel⟩,
    ⟨(bare .imageLoad), by decide +kernel⟩,
    ⟨20, { State.reset with glb := { Glb.reset with porst := false } }, by decide +kernel, by decide +kernel, by decide +kernel,
        by decide +kernel⟩⟩

/-- What each clause of PcieReset assumes is met. -/
theorem test_witness_PcieReset :
    (∃ (s : State), s.glb.state ≠ .off ∧ s.glb.state ≠ .reset ∧ s.glb.perst = false) ∧
    (∃ (s : State), s.glb.state = .reset ∧ s.glb.perst = false) ∧
    (∃ (s : State) (o : Nat), s.Inv ∧ (o < 0x020000 ∨ 0x040000 ≤ o) ∧ o ≠ R.GLB_RSTCAUSE) ∧
    (∃ (s : State), s.Inv) ∧
    (∃ (v : BitVec 4) (w : LinkConfig) (s : State) (s1 : State), s.glb.porst = false ∧ s.glb.perst = false ∧ s.glb.state ≠ .off ∧ s1 =
      { s with hst := { s.hst with linkSpeed := v, linkWidth := w.width, cfgReady := true, maxRead := 128 * 2 ^ w.maxRead.val, extTag := w.extTag } }) :=
  ⟨⟨(bare .imageLoad), by decide +kernel, by decide +kernel, by decide +kernel⟩,
    ⟨State.reset, by decide +kernel, by decide +kernel⟩,
    ⟨State.reset, 0x040000, by decide +kernel, by decide +kernel, by decide +kernel⟩,
    ⟨State.reset, by decide +kernel⟩,
    ⟨4, ⟨8, 5, true⟩, { bare .idle with glb := { (bare .idle).glb with perst := false } }, _, by decide +kernel, by decide +kernel,
        by decide +kernel, rfl⟩⟩

/-- What each clause of GlobalCommandsAccepted assumes is met. -/
theorem test_witness_GlobalCommandsAccepted :
    (∃ (s : State), s.Inv ∧ s.glb.state = .idle ∧ readyToArm s = true ∧ membersNotArmed s = false ∧ (useMaps s).glb.state = .idle) ∧
    (∃ (s : State), s.Inv ∧ s.glb.state = .armed ∧ isMember s = false ∧ isCampanile s = false) ∧
    (∃ (s : State), s.glb.state = .armed ∧ isMember s = false ∧ isCampanile s = true ∧ membersNotArmed s = false) ∧
    (∃ (s : State), s.Inv ∧ s.glb.state = .print ∧ isMember s = false) ∧
    (∃ (s : State), (s.glb.state = .armed ∨ s.glb.state = .stopping) ∧ isMember s = false ∧ isCampanile s = false) ∧
    (∃ (s : State), (s.glb.state = .armed ∨ s.glb.state = .stopping) ∧ isMember s = false ∧ isCampanile s = false) ∧
    (∃ (s : State), (s.glb.state = .armed ∨ s.glb.state = .stopping) ∧ isMember s = false ∧ isCampanile s = true) ∧
    (∃ (s : State), (s.glb.state = .armed ∨ s.glb.state = .stopping) ∧ isMember s = false ∧ isCampanile s = true) ∧
    (∃ (s : State), s.Inv ∧ s.glb.state = .armed) ∧
    (∃ (s : State), invarAgrees s R.FIR_HOPENMAP01 = true ∧ invarAgrees s R.FIR_HOPENMAP23 = true) ∧
    (∃ (s : State), s.Inv ∧ s.glb.state = .safeHold ∧ causeActive (useInvar [R.FIR_HOPENMAP01, R.FIR_HOPENMAP23, R.FIR_GATEEN] s) =
      false) ∧
    (∃ (s : State), s.Inv ∧ (s.glb.state = .idle ∨ s.glb.state = .armed ∨ s.glb.state = .safeHold)) ∧
    (∃ (s : State), stoppingDone s = true) ∧
    (∃ (s : State), stoppingDone s = false) :=
  ⟨⟨(rig .idle), by decide +kernel, by decide +kernel, by decide +kernel, by decide +kernel, by decide +kernel⟩,
    ⟨(rig .armed), by decide +kernel, by decide +kernel, by decide +kernel, by decide +kernel⟩,
    ⟨{ rigWith [] [(0, 1), (2, 2)] .armed with cas := { Cas.reset with disc := true, length := 2 }, regs := [(R.CAS_AGG_A 1, 6)] },
        by decide +kernel, by decide +kernel, by decide +kernel, by decide +kernel⟩,
    ⟨(rig .print), by decide +kernel, by decide +kernel, by decide +kernel⟩,
    ⟨(rig .stopping), by decide +kernel, by decide +kernel, by decide +kernel⟩,
    ⟨(rig .armed), by decide +kernel, by decide +kernel, by decide +kernel⟩,
    ⟨{ rigWith [] [(0, 1), (2, 2)] .stopping with cas := { Cas.reset with disc := true, length := 2 }, regs := [(R.CAS_AGG_A 1, 6)] },
        by decide +kernel, by decide +kernel, by decide +kernel⟩,
    ⟨{ rigWith [] [(0, 1), (2, 2)] .armed with cas := { Cas.reset with disc := true, length := 2 }, regs := [(R.CAS_AGG_A 1, 6)] },
        by decide +kernel, by decide +kernel, by decide +kernel⟩,
    ⟨(rig .armed), by decide +kernel, by decide +kernel⟩,
    ⟨(rig .armed), by decide +kernel, by decide +kernel⟩,
    ⟨(rig .safeHold), by decide +kernel, by decide +kernel, by decide +kernel⟩,
    ⟨(rig .safeHold), by decide +kernel, by decide +kernel⟩,
    ⟨(rig .stopping), by decide +kernel⟩,
    ⟨(modHlp 15 (fun h => { h with lines := [line] }) (modGen 15 (fun x => { x with st := .run }) (rig .stopping))), by decide +kernel⟩⟩

/-- What each clause of GlobalCommandsRefused assumes is met. -/
theorem test_witness_GlobalCommandsRefused :
    (∃ (s : State), s.glb.state ≠ .off ∧ s.glb.state ≠ .idle ∧ s.glb.state ≠ .armed) ∧
    (∃ (s : State), s.glb.state = .idle ∧ (readyToArm s = false ∨ membersNotArmed s = true)) ∧
    (∃ (s : State), s.glb.state = .idle ∧ readyToArm s = true ∧ membersNotArmed s = false ∧ (useMaps s).glb.state ≠ .idle) ∧
    (∃ (s : State), s.glb.state ≠ .off ∧ s.glb.state ≠ .armed ∧ s.glb.state ≠ .print) ∧
    (∃ (s : State), s.glb.state ≠ .off ∧ isMember s = true) ∧
    (∃ (s : State), s.glb.state ≠ .off ∧ s.glb.state ≠ .armed ∧ s.glb.state ≠ .print ∧ s.glb.state ≠ .stopping) ∧
    (∃ (s : State), s.glb.state ≠ .off ∧ s.glb.state ≠ .idle ∧ s.glb.state ≠ .armed) ∧
    (∃ (s : State), s.glb.state ≠ .off ∧ s.glb.state ≠ .idle ∧ s.glb.state ≠ .safeHold) ∧
    (∃ (s : State) (u : State), s.glb.state = .safeHold ∧ u = useInvar [R.FIR_HOPENMAP01, R.FIR_HOPENMAP23, R.FIR_GATEEN] s ∧
      causeActive u = true) ∧
    (∃ (cmd : Nat) (res : Nat) (code : Nat) (s : State), res ≠ 1) :=
  ⟨⟨(rig .reset), by decide +kernel, by decide +kernel, by decide +kernel⟩,
    ⟨(modHlp 15 (fun h => { h with lstate := .down }) (rig .idle)), by decide +kernel, by decide +kernel⟩,
    ⟨(wr (R.FIR_HOPENMAP01 + 4) 7 (rig .idle)), by decide +kernel, by decide +kernel, by decide +kernel, by decide +kernel⟩,
    ⟨(rig .idle), by decide +kernel, by decide +kernel, by decide +kernel⟩,
    ⟨{ rigWith [] [(0, 2)] .print with cas := { Cas.reset with disc := true } }, by decide +kernel, by decide +kernel⟩,
    ⟨(rig .idle), by decide +kernel, by decide +kernel, by decide +kernel, by decide +kernel⟩,
    ⟨(rig .print), by decide +kernel, by decide +kernel, by decide +kernel⟩,
    ⟨(rig .shutdown), by decide +kernel, by decide +kernel, by decide +kernel⟩,
    ⟨{ rig .safeHold with gate := { Gate.reset with kill := true } }, _, by decide +kernel, rfl, by decide +kernel⟩,
    ⟨1, 2, 5, (rig .idle), by decide +kernel⟩⟩

/-- What each clause of BringUp assumes is met. -/
theorem test_witness_BringUp :
    (∃ (fuse : Vector Byte 64) (found : Vector Byte 64) (s : State), s.glb.state = .selftest ∧ s.bru.memory = .running ∧ testReady s =
      true ∧ (∀ b ∈ testBanks s, waysShort (testLoaded fuse s) found b = [])) ∧
    (∃ (fuse : Vector Byte 64) (found : Vector Byte 64) (tables : Bool) (s : State) (b : Nat), s.glb.state = .selftest ∧ s.bru.memory =
      .running ∧ testReady s = true ∧ (testBanks s).find? (fun b => !(waysShort (testLoaded fuse s) found b).isEmpty) = some b) ∧
    (∃ (fuse : Vector Byte 64) (found : Vector Byte 64) (s : State), s.glb.state = .selftest ∧ s.bru.memory = .running ∧ testReady s =
      true ∧ s.ldr.cold = true ∧ (∀ b ∈ testBanks s, waysShort (testLoaded fuse s) found b = [])) ∧
    (∃ (fuse : Vector Byte 64) (s : State), s.mem.fused = true) ∧
    (∃ (fuse : Vector Byte 64) (found : Vector Byte 64) (tables : Bool) (s : State), s.glb.state = .selftest ∧ testReady s = false) ∧
    (∃ (s : State), s.glb.state = .selftest ∧ s.bru.journal = .running) ∧
    (∃ (s : State), s.glb.state = .selftest ∧ s.bru.journal = .running) ∧
    (∃ (s : State), s.glb.state = .selftest ∧ s.bru.invar = .running) ∧
    (∃ (c : Byte) (s : State), s.glb.state = .selftest ∧ s.bru.invar = .running) ∧
    (∃ (s : State), s.glb.state = .selftest ∧ s.bru.adc = .running) ∧
    (∃ (c : Fin 16) (s : State), s.glb.state = .selftest ∧ s.bru.adc = .running) ∧
    (∃ (s : State), s.glb.state = .selftest ∧ selftestAct s = .done) ∧
    (∃ (s : State), selftestAct s ≠ .done) ∧
    (∃ (ch : Fin 4) (phase : Byte) (s : State), s.glb.state = .linkTrain ∧ s.bru.xmc = .running ∧ ch.val < xmcChannels s ∧ bitOf
      s.bru.xmcTrained.toNat ch.val = false ∧ vat s.bru.xmcTries ch.val < 2) ∧
    (∃ (ch : Fin 4) (phase : Byte) (s : State), s.glb.state = .linkTrain ∧ s.bru.xmc = .running ∧ ch.val < xmcChannels s ∧ bitOf
      s.bru.xmcTrained.toNat ch.val = false ∧ vat s.bru.xmcTries ch.val = 0) ∧
    (∃ (ch : Fin 4) (phase : Byte) (s : State), s.glb.state = .linkTrain ∧ s.bru.xmc = .running ∧ ch.val < xmcChannels s ∧ bitOf
      s.bru.xmcTrained.toNat ch.val = false ∧ vat s.bru.xmcTries ch.val = 1) ∧
    (∃ (s : State), s.glb.state = .linkTrain ∧ s.bru.xmc = .running ∧ xmcEcc s = true ∧ (∀ c, c < xmcChannels s → bitOf
      s.bru.xmcTrained.toNat c = true)) ∧
    (∃ (s : State), s.Inv) ∧
    (∃ (s : State), s.glb.state = .linkTrain ∧ (s.bru.xmc = .done ∨ s.bru.xmc = .skipped) ∧ portsAct s = .done ∧ (s.bru.cascade = .done
      ∨ s.bru.cascade = .skipped)) ∧
    (∃ (s : State), (s.bru.xmc = .running ∨ s.bru.xmc = .failed)) ∧
    (∃ (s : State), s.glb.state = .selftest ∧ selftestAct s = .failed) ∧
    (∃ (s : State), s.glb.state = .linkTrain ∧ s.bru.xmc = .failed ∧ s.bru.cascade ≠ .failed ∧ (∀ p, portStuck s p = false)) ∧
    (∃ (s : State), s.glb.state = .linkTrain ∧ s.bru.xmc ≠ .failed ∧ s.bru.cascade ≠ .failed ∧ (∀ p, portStuck s p = false)) ∧
    (∃ (s : State), s.glb.state = .idle ∧ s.bru.incomplete = false ∧ those 16 (portAbsent s) ≠ []) ∧
    (∃ (s : State), (s.glb.state = .armed ∨ s.glb.state = .print)) :=
  ⟨⟨(Vector.replicate 64 0), (Vector.replicate 64 1),
        { rig .selftest with bru := { Bru.reset with memory := .running }, ldr := { (rig .selftest).ldr with testBanks := 0x80 } },
        by decide +kernel, by decide +kernel, by decide +kernel, by decide +kernel⟩,
    ⟨(Vector.replicate 64 0), (Vector.replicate 64 255), true,
        { rig .selftest with bru := { Bru.reset with memory := .running }, ldr := { (rig .selftest).ldr with testBanks := 0x80 } }, 7,
        by decide +kernel, by decide +kernel, by decide +kernel, by decide +kernel⟩,
    ⟨(Vector.replicate 64 0), (Vector.replicate 64 0),
        { rig .selftest with bru := { Bru.reset with memory := .running }, ldr := { (rig .selftest).ldr with testBanks := 0x80, cold := true } },
        by decide +kernel, by decide +kernel, by decide +kernel, by decide +kernel, by decide +kernel⟩,
    ⟨(Vector.replicate 64 0), { rig .idle with mem := { Mem.reset with fused := true } }, by decide +kernel⟩,
    ⟨(Vector.replicate 64 0), (Vector.replicate 64 0), true, (wr R.MEM_BKSTAT 0x10002
        { rig .selftest with bru := { Bru.reset with memory := .running }, ldr := { (rig .selftest).ldr with testBanks := 1 } }),
        by decide +kernel, by decide +kernel⟩,
    ⟨{ rig .selftest with bru := { Bru.reset with journal := .running } }, by decide +kernel, by decide +kernel⟩,
    ⟨{ rig .selftest with bru := { Bru.reset with journal := .running } }, by decide +kernel, by decide +kernel⟩,
    ⟨{ rig .selftest with bru := { Bru.reset with invar := .running } }, by decide +kernel, by decide +kernel⟩,
    ⟨0, { rig .selftest with bru := { Bru.reset with invar := .running } }, by decide +kernel, by decide +kernel⟩,
    ⟨{ rig .selftest with bru := { Bru.reset with adc := .running } }, by decide +kernel, by decide +kernel⟩,
    ⟨0, { rig .selftest with bru := { Bru.reset with adc := .running } }, by decide +kernel, by decide +kernel⟩,
    ⟨{ rig .selftest with bru := { Bru.reset with memory := .done, journal := .skipped, invar := .skipped, adc := .skipped } },
        by decide +kernel, by decide +kernel⟩,
    ⟨State.reset, by decide +kernel⟩,
    ⟨3, 0, { rig .linkTrain with bru := { Bru.reset with xmc := .running, xmcTrained := 7 } }, by decide +kernel, by decide +kernel,
        by decide +kernel, by decide +kernel, by decide +kernel⟩,
    ⟨3, 0, { rig .linkTrain with bru := { Bru.reset with xmc := .running } }, by decide +kernel, by decide +kernel, by decide +kernel,
        by decide +kernel, by decide +kernel⟩,
    ⟨3, 0, { rig .linkTrain with bru := { Bru.reset with xmc := .running, xmcTries := Vector.replicate 4 1 } }, by decide +kernel,
        by decide +kernel, by decide +kernel, by decide +kernel, by decide +kernel⟩,
    ⟨{ bare .linkTrain with ldr := { Loader.reset with image := some { (img [] []) with sections := [(5, [4, 1, 0, 0, 1])] } }, bru := { Bru.reset with xmc := .running, xmcTrained := 0xF } },
        by decide +kernel, by decide +kernel, by decide +kernel, by decide +kernel⟩,
    ⟨State.reset, by decide +kernel⟩,
    ⟨{ rig .linkTrain with bru := { Bru.reset with xmc := .skipped, cascade := .done } }, by decide +kernel, by decide +kernel,
        by decide +kernel, by decide +kernel⟩,
    ⟨{ rig .linkTrain with bru := { Bru.reset with xmc := .failed } }, by decide +kernel⟩,
    ⟨{ rig .selftest with bru := { Bru.reset with memory := .failed, journal := .skipped, invar := .skipped, adc := .skipped } },
        by decide +kernel, by decide +kernel⟩,
    ⟨{ bare .linkTrain with bru := { Bru.reset with xmc := .failed } }, by decide +kernel, by decide +kernel, by decide +kernel, (fun p
        => not_stuck _ rfl p)⟩,
    ⟨(bare .linkTrain), by decide +kernel, by decide +kernel, by decide +kernel, (fun p => not_stuck _ rfl p)⟩,
    ⟨(modHlp 15 (fun h => { h with bst := .absent })
        { rig .idle with ldr := { Loader.reset with image := some { img [] [] with sections := (6, bytesOf 128 0 [(125, 1)]) :: (img [] []).sections } } }),
        by decide +kernel, by decide +kernel, by decide +kernel⟩,
    ⟨(bare .armed), by decide +kernel⟩⟩

/-- What each clause of ThrottleAndVoltage assumes is met. -/
theorem test_witness_ThrottleAndVoltage :
    (∃ (s : State), 2 ≤ s.glb.state.code ∧ thrRank (thrAuto s).1 (thrAuto s).2 ≤ thrRank (thrForced s).1 (thrForced s).2 ∧ (¬((thrForced
      s).1 = s.glb.div.val ∧ (thrForced s).2 = s.glb.skip.val))) ∧
    (∃ (s : State), 2 ≤ s.glb.state.code ∧ thrRank (thrForced s).1 (thrForced s).2 < thrRank (thrAuto s).1 (thrAuto s).2 ∧ (¬((thrAuto
      s).1 = s.glb.div.val ∧ (thrAuto s).2 = s.glb.skip.val))) ∧
    (∃ (s : State), 5 ≤ s.glb.state.code ∧ (s.glb.avsAt = 0 ∨ s.glb.avsAt + 20000 ≤ s.now) ∧ (s.glb.thrAt = 0 ∨ s.now ≠ s.glb.thrAt) ∧
      s.glb.avs.val < 36) ∧
    (∃ (s : State), 5 ≤ s.glb.state.code ∧ (s.glb.avsAt = 0 ∨ s.glb.avsAt + 20000 ≤ s.now) ∧ (s.glb.thrAt = 0 ∨ s.glb.thrAt + 40000 ≤
      s.now) ∧ avsFixed s = false ∧ 0 < s.glb.avs.val) :=
  ⟨⟨(wr R.GLB_THRCTL 2 (rig .idle)), by decide +kernel, by decide +kernel, by decide +kernel⟩,
    ⟨{ wr R.GLB_THRCTL 0x100 (rig .idle) with glb := { (rig .idle).glb with autoDiv := 1 } }, by decide +kernel, by decide +kernel,
        by decide +kernel⟩,
    ⟨{ bare .idle with glb := { (bare .idle).glb with avs := 35 } }, by decide +kernel, by decide +kernel, by decide +kernel,
        by decide +kernel⟩,
    ⟨{ bare .idle with glb := { (bare .idle).glb with avs := 1 } }, by decide +kernel, by decide +kernel, by decide +kernel,
        by decide +kernel, by decide +kernel⟩⟩

/-- What each clause of ImageSources assumes is met. -/
theorem test_witness_ImageSources :
    (∃ (b : List Byte) (s : State), readingFlash s = true) ∧
    (∃ (src : BitVec 2) (s : State), s.glb.state = .imageLoad ∧ s.ldr.phase = .pushing ∧ s.glb.loadStopped = false) ∧
    (∃ (src : BitVec 2) (s : State), s.glb.state = .imageLoad ∧ s.ldr.phase = .pushing ∧ s.glb.loadStopped = true) ∧
    (∃ (s : State), readingFlash s = true) ∧
    (∃ (a : Word) (s : State), readingFlash s = true ∧ flash8d s = true) ∧
    (∃ (b : List Byte) (a : Word) (s : State), readingFlash s = false) ∧
    (∃ (code : Nat) (s : State), s.ldr.source = .slotA) ∧
    (∃ (code : Nat) (s : State), s.ldr.source = .slotB ∧ s.ldr.reload = false ∧ fld s R.GLB_RSTCAUSE 3 2 = 3) ∧
    (∃ (code : Nat) (s : State), s.ldr.source = .slotB ∧ (s.ldr.reload = true ∨ fld s R.GLB_RSTCAUSE 3 2 ≠ 3)) ∧
    (∃ (code : Nat) (s : State), s.ldr.source = .push) ∧
    (∃ (f : ImgFail) (s : State), s.Inv) :=
  ⟨⟨[], { bare .imageLoad with ldr := { Loader.reset with phase := .reading } }, by decide +kernel⟩,
    ⟨0, { bare .imageLoad with ldr := { Loader.reset with phase := .pushing } }, by decide +kernel, by decide +kernel,
        by decide +kernel⟩,
    ⟨0,
        {  bare .imageLoad with ldr := { Loader.reset with phase := .pushing } , glb := { (bare .imageLoad).glb with loadStopped := true } },
        by decide +kernel, by decide +kernel, by decide +kernel⟩,
    ⟨{ bare .imageLoad with ldr := { Loader.reset with phase := .reading, source := .slotB } }, by decide +kernel⟩,
    ⟨0, (setF R.GLB_RSTCAUSE 3 2 1 { bare .imageLoad with ldr := { Loader.reset with phase := .reading } }), by decide +kernel,
        by decide +kernel⟩,
    ⟨[], 0, { bare .imageLoad with ldr := { Loader.reset with  } }, by decide +kernel⟩,
    ⟨0, { bare .imageLoad with ldr := { Loader.reset with  } }, by decide +kernel⟩,
    ⟨0, (setF R.GLB_RSTCAUSE 3 2 3 { bare .imageLoad with ldr := { Loader.reset with source := .slotB } }), by decide +kernel,
        by decide +kernel, by decide +kernel⟩,
    ⟨0, { bare .imageLoad with ldr := { Loader.reset with source := .slotB, reload := true } }, by decide +kernel, by decide +kernel⟩,
    ⟨0, { bare .imageLoad with ldr := { Loader.reset with source := .push } }, by decide +kernel⟩,
    ⟨⟨Ev.IMG_BAD_MAGIC, 0, 0, 0, 0, 0⟩, State.reset, by decide +kernel⟩⟩

/-- What each clause of LoaderCommands assumes is met. -/
theorem test_witness_LoaderCommands :
    (∃ (s : State), s.Inv ∧ s.glb.state = .idle) ∧
    (∃ (s : State), s.glb.state ≠ .off ∧ s.glb.state ≠ .idle) ∧
    (∃ (src : BitVec 2) (s : State), s.glb.state = .imageLoad ∧ (s.ldr.phase = .waitPush ∨ s.ldr.phase = .failed ∨ s.ldr.phase =
      .pushing)) ∧
    (∃ (s : State), unprovisioned s = false) ∧
    (∃ (s : State), unprovisioned s = true) ∧
    (∃ (d : Word) (s : State), windowOpen s 0 R.IMG_DATA true = true ∧ s.glb.state = .imageLoad ∧ s.ldr.phase = .pushing ∧
      s.glb.loadStopped = false ∧ s.ldr.staged.length < 1048576) ∧
    (∃ (d : Word) (s : State), windowOpen s 0 R.IMG_DATA true = true ∧ s.glb.state = .imageLoad ∧ s.ldr.phase = .pushing ∧
      s.glb.loadStopped = false ∧ 1048576 ≤ s.ldr.staged.length) ∧
    (∃ (d : Word) (s : State), windowOpen s 0 R.IMG_DATA true = true ∧ (s.glb.state ≠ .imageLoad ∨ s.ldr.phase ≠ .pushing ∨
      s.glb.loadStopped = true)) ∧
    (∃ (d : Word) (s : State), windowOpen s 0 R.IMG_DATA true = true ∧ (s.glb.state ≠ .imageLoad ∨ s.ldr.phase ≠ .pushing ∨
      s.glb.loadStopped = true)) ∧
    (∃ (src : BitVec 2) (s : State), s.Inv ∧ s.glb.state = .imageLoad ∧ (s.ldr.phase = .waitPush ∨ s.ldr.phase = .failed)) ∧
    (∃ (src : BitVec 2) (s : State), s.glb.state = .imageLoad ∧ s.ldr.reload = true ∧ (s.ldr.phase = .waitPush ∨ s.ldr.phase = .failed ∨
      s.ldr.phase = .pushing)) ∧
    (∃ (src : BitVec 2) (s : State), s.glb.state = .idle) ∧
    (∃ (src : BitVec 2) (s : State), windowOpen s 0 R.IMG_CTL true = true ∧ s.glb.state ≠ .off) ∧
    (∃ (src : BitVec 2) (s : State), s.glb.state ≠ .off ∧ s.glb.state ≠ .idle) :=
  ⟨⟨(bare .idle), by decide +kernel, by decide +kernel⟩,
    ⟨(bare .shutdown), by decide +kernel, by decide +kernel⟩,
    ⟨0, { bare .imageLoad with ldr := { Loader.reset with phase := .pushing } }, by decide +kernel, by decide +kernel⟩,
    ⟨{ bare .imageLoad with ldr := { Loader.reset with keyLock := true } }, by decide +kernel⟩,
    ⟨State.reset, by decide +kernel⟩,
    ⟨0xFFFFFFFF, { bare .imageLoad with ldr := { Loader.reset with phase := .pushing } }, by decide +kernel, by decide +kernel,
        by decide +kernel, by decide +kernel, by decide +kernel⟩,
    ⟨0, { bare .imageLoad with ldr := { Loader.reset with phase := .pushing, staged := List.replicate 1048576 0 } }, by decide +kernel,
        by decide +kernel, by decide +kernel, by decide +kernel, (by rw [List.length_replicate])⟩,
    ⟨0,
        {  bare .imageLoad with ldr := { Loader.reset with phase := .pushing } , glb := { (bare .imageLoad).glb with loadStopped := true } },
        by decide +kernel, by decide +kernel⟩,
    ⟨0, (bare .idle), by decide +kernel, by decide +kernel⟩,
    ⟨1, { bare .imageLoad with ldr := { Loader.reset with phase := .failed } }, by decide +kernel, by decide +kernel, by decide +kernel⟩,
    ⟨0, { bare .imageLoad with ldr := { Loader.reset with phase := .failed, reload := true } }, by decide +kernel, by decide +kernel,
        by decide +kernel⟩,
    ⟨0, (bare .idle), by decide +kernel⟩,
    ⟨2, (bare .imageLoad), by decide +kernel, by decide +kernel⟩,
    ⟨0, (bare .reset), by decide +kernel, by decide +kernel⟩⟩

/-- What each clause of DotLines assumes is met. -/
theorem test_witness_DotLines :
    (∃ (p : Fin 16) (l : FLine) (s : State), (dp s p.val).asm = some l) ∧
    (∃ (p : Nat) (s : State), mayAssemble s p = false) ∧
    (∃ (p : Fin 16) (s : State), mayAssemble s p = true) ∧
    (∃ (p : Fin 16) (row : Fin 8) (m : Nat) (s : State), dotPaged s p = true ∧ (dp s p).st ≠ .off ∧ rowPresent s p row = true ∧
      (wantedLines s p row).find? (fun m => !(dp s p).pre.any (fun y => y.row = row.val && y.line = m)) = some m) ∧
    (∃ (p : Fin 16) (s : State) (u : State), pipeBound s p = true ∧ (dp s p).st = .run ∧ invarAgrees s R.DOT_UGUARD = true ∧ invarAgrees
      s (R.DOT_Pn_LOWM p) = true ∧ u = modDot p (winRoll s) s ∧ (fld s R.DOT_PREDCFG 16 16 = 0 ∨ (fld s R.DOT_UGUARD 7 0 : Int) ≤ dotFill
      u p + dotDrift u (dp u p))) ∧
    (∃ (p : Fin 16) (s : State) (u : State), pipeBound s p = true ∧ (dp s p).st = .run ∧ invarAgrees s R.DOT_UGUARD = true ∧ invarAgrees
      s (R.DOT_Pn_LOWM p) = true ∧ u = modDot p (winRoll s) s ∧ fld s R.DOT_PREDCFG 16 16 = 1 ∧ dotFill u p + dotDrift u (dp u p) < fld s
      R.DOT_UGUARD 7 0) ∧
    (∃ (p : Fin 16) (n : Word) (s : State), windowOpen s 0 (R.DOT_Pn_WLINE p) true = true ∧ 0 ≤ lineDiff n.toNat (dp s p).wline ∧
      lineDiff n.toNat (wlimit s p) ≤ 0) ∧
    (∃ (p : Fin 16) (n : Word) (s : State), windowOpen s 0 (R.DOT_Pn_WLINE p) true = true ∧ (lineDiff n.toNat (dp s p).wline < 0 ∨ 0 <
      lineDiff n.toNat (wlimit s p))) ∧
    (∃ (p : Fin 16) (n : Word) (s : State), windowOpen s 0 (R.DOT_Pn_WLINE p) true = true ∧ (lineDiff n.toNat (dp s p).wline < 0 ∨ 0 <
      lineDiff n.toNat (wlimit s p))) ∧
    (∃ (p : Fin 16) (a : BitVec 16) (s : State), windowOpen s 0 (R.DOT_Pn_WADD p) true = true ∧ 0 ≤ lineDiff (((dp s p).wline + a.toNat)
      % 2 ^ 32) (dp s p).wline ∧ lineDiff (((dp s p).wline + a.toNat) % 2 ^ 32) (wlimit s p) ≤ 0) :=
  ⟨⟨15, line, (modDot 15 (fun x => { x with asm := some line }) (rig .print)), by decide +kernel⟩,
    ⟨15, (rig .idle), by decide +kernel⟩,
    ⟨15, (modDot 15 (fun x => { x with st := .ready, wline := 100 }) (rig .armed)), by decide +kernel⟩,
    ⟨15, 7, 0, (modDot 15 (fun x => { x with st := .run, wline := 100 }) (wr (R.DOT_Pn_CFG 15) 0x00800802 (rig .print))),
        by decide +kernel, by decide +kernel, by decide +kernel, by decide +kernel⟩,
    ⟨15, (modDot 15 (fun x => { x with st := .run, wline := 100 }) (rig .print)), _, by decide +kernel, by decide +kernel,
        by decide +kernel, by decide +kernel, rfl, by decide +kernel⟩,
    ⟨15, (modDot 15 (fun x => { x with st := .run, a := 2 }) (wr R.DOT_PREDCFG 0x10000 (putInvar R.DOT_UGUARD 0x7F (rig .print)))), _,
        by decide +kernel, by decide +kernel, by decide +kernel, by decide +kernel, rfl, by decide +kernel, by decide +kernel⟩,
    ⟨15, 1024, (rig .idle), by decide +kernel, by decide +kernel, by decide +kernel⟩,
    ⟨15, 1025, (rig .idle), by decide +kernel, by decide +kernel⟩,
    ⟨15, 0xFFFFFFFF, (rig .idle), by decide +kernel, by decide +kernel⟩,
    ⟨15, 1024, (rig .idle), by decide +kernel, by decide +kernel, by decide +kernel⟩⟩

/-- What each clause of PipeCommands assumes is met. -/
theorem test_witness_PipeCommands :
    (∃ (p : Fin 16) (gen : BitVec 16) (s : State), windowOpen s 0 (R.DOT_Pn_CMD p) true = true ∧ pipeBound s p = true ∧ gen = (hp s
      (pipePort s p)).gen ∧ (s.glb.state = .idle ∨ s.glb.state = .armed) ∧ (dp s p).st = .off ∧ active s (pipePort s p) = true ∧
      ringChecks s p = 0) ∧
    (∃ (p : Fin 16) (gen : BitVec 16) (s : State), windowOpen s 0 (R.DOT_Pn_CMD p) true = true ∧ pipeBound s p = true ∧ gen = (hp s
      (pipePort s p)).gen ∧ ((dp s p).st = .stopped ∨ (dp s p).st = .late)) ∧
    (∃ (p : Fin 16) (gen : BitVec 16) (s : State), windowOpen s 0 (R.DOT_Pn_CMD p) true = true ∧ pipeBound s p = true ∧ gen = (hp s
      (pipePort s p)).gen ∧ ((dp s p).st = .stopped ∨ (dp s p).st = .late)) ∧
    (∃ (p : Fin 16) (gen : BitVec 16) (s : State), windowOpen s 0 (R.DOT_Pn_CMD p) true = true ∧ pipeBound s p = true ∧ gen = (hp s
      (pipePort s p)).gen ∧ ((dp s p).st = .off ∨ (dp s p).st = .stopped ∨ (dp s p).st = .late)) ∧
    (∃ (p : Fin 16) (gen : BitVec 16) (s : State), windowOpen s 0 (R.DOT_Pn_CMD p) true = true ∧ pipeBound s p = true ∧ gen = (hp s
      (pipePort s p)).gen ∧ (dp s p).st = .late ∧ (s.glb.state = .idle ∨ s.glb.state = .armed)) ∧
    (∃ (p : Fin 16) (gen : BitVec 16) (s : State), windowOpen s 0 (R.DOT_Pn_CMD p) true = true ∧ pipeBound s p = true ∧ gen ≠ (hp s
      (pipePort s p)).gen) :=
  ⟨⟨15, 0, (wr (R.DOT_Pn_CFG 15) 0x00800800 (rig .idle)), by decide +kernel, by decide +kernel, by decide +kernel, by decide +kernel,
        by decide +kernel, by decide +kernel, by decide +kernel⟩,
    ⟨15, 0, (modDot 15 (fun x => { x with st := .late }) (rig .idle)), by decide +kernel, by decide +kernel, by decide +kernel,
        by decide +kernel⟩,
    ⟨15, 0, (modDot 15 (fun x => { x with st := .stopped }) (rig .idle)), by decide +kernel, by decide +kernel, by decide +kernel,
        by decide +kernel⟩,
    ⟨15, 0, (rig .idle), by decide +kernel, by decide +kernel, by decide +kernel, by decide +kernel⟩,
    ⟨15, 0, (modDot 15 (fun x => { x with st := .late }) (rig .armed)), by decide +kernel, by decide +kernel, by decide +kernel,
        by decide +kernel, by decide +kernel⟩,
    ⟨15, 0xFFFF, (rig .idle), by decide +kernel, by decide +kernel, by decide +kernel⟩⟩

/-- What each clause of LineOnTheHead assumes is met. -/
theorem test_witness_LineOnTheHead :
    (∃ (g : Fin 16) (t : Nat) (rest : List Nat) (s : State) (u : State), (lt s g).delayed = t :: rest ∧ mayCommit s g = true ∧ (scanning
      s && s.scn.stop) = false ∧ reached s g (lt s g).k = true ∧ reached s g (((lt s g).k + 1) % 2 ^ 32) = false ∧ spacedFrom s g ≤ s.now
      ∧ firesFit s g false = true ∧ u = (if (lt s g).fallback then incF (R.FIR_LTn_CNT g) 23 12 (countLate g (lt s g).k (s.now - t) s)
      else countLate g (lt s g).k (s.now - t) s)) ∧
    (∃ (g : Fin 16) (s : State), (lt s g).delayed = []) ∧
    (∃ (g : Fin 16) (tk : Int) (launch : Int) (s0 : State) (s : State) (s1 : State) (s2 : State), s = genSee g s0 ∧ ltBound s0 g = true
      ∧ genMode s0 g = 0 ∧ mayCommit s g = true ∧ (scanning s && s.scn.stop) = false ∧ speedOk s g = true ∧ s1 = setFallback g false
      (modGen g (fun x => { x with delayed := [] }) s) ∧ predictAt s1 g (lt s1 g).k = (tk, s2) ∧ tk < s2.now + fld s2 (R.FIR_LTn_LEAD g)
      11 0 + 64 ∧ reached s2 g (((lt s1 g).k + 1) % 2 ^ 32) = false ∧ launch = max tk (max (spacedFrom s2 g) (s2.now + fld s2
      (R.FIR_LTn_LEAD g) 11 0)) ∧ launch ≤ s2.now + 8192 ∧ firesFit s2 g true = true) ∧
    (∃ (g : Nat) (k : Nat) (s : State), genSpeed s g ≠ 0) ∧
    (∃ (g : Fin 16) (t : Nat) (launch : Nat) (s : State), ltBound s g = true ∧ genMode s g = 2 ∧ mayCommit s g = true ∧ firesFit s g
      true = true ∧ t = (lt s g).t0 + (lineDiff (lt s g).k (lt s g).k0).toNat * lineClockPeriod s ∧ launch = max (max t (spacedFrom s g))
      (s.now + fld s (R.FIR_LTn_LEAD g) 11 0) ∧ launch ≤ s.now + 8192) ∧
    (∃ (g : Fin 16) (k : Nat) (s : State), nextLaunch s g = some k) ∧
    (∃ (p : Fin 16) (l : FLine) (s : State), (hp s p).lines.find? (fun l => l.kind ≠ .print && l.fireSent && !l.launched) = some l) ∧
    (∃ (p : Fin 16) (row : Fin 8) (l : FLine) (s : State), (hp s p).lines.find? (fun l => l.launched && bitOf l.rowmask.toNat row &&
      !bitOf l.done.toNat row && decide (l.started.getD row 0 < 16)) = some l) ∧
    (∃ (p : Fin 16) (row : Fin 8) (l : FLine) (s : State), (hp s p).lines.find? (fun l => l.launched && bitOf l.rowmask.toNat row &&
      !bitOf l.done.toNat row) = some l ∧ FLine.inWindow { l with done := l.done ||| BitVec.ofNat 8 (2 ^ row.val) } = true) ∧
    (∃ (p : Fin 16) (row : Fin 8) (l : FLine) (s : State), (hp s p).lines.find? (fun l => l.launched && bitOf l.rowmask.toNat row &&
      !bitOf l.done.toNat row) = some l ∧ FLine.inWindow { l with done := l.done ||| BitVec.ofNat 8 (2 ^ row.val) } = false) ∧
    (∃ (p : Fin 16) (l : FLine) (b : Nat) (s : State) (s1 : State) (s2 : State), mayWarm s p = true ∧ decideLine p (newLine s p 0 .warm
      false 0 (portRows s p) ((List.range 8).map (fun r => if bitOf (portRows s p).toNat r then List.replicate (hp s p).cols 0 else [])))
      s = (s1, l) ∧ bankFor p l s1 = some (b, s2)) ∧
    (∃ (p : Fin 16) (s : State), mayWarm s p = false) :=
  ⟨⟨15, 0, [], (modGen 15 (fun x => { x with st := .run, delayed := [0] }) (wr (R.FIR_LTn_PITCH 15) 65536 (rig .print))), _,
        by decide +kernel, by decide +kernel, by decide +kernel, by decide +kernel, by decide +kernel, by decide +kernel, by decide +kernel,
        rfl⟩,
    ⟨15, (rig .print), by decide +kernel⟩,
    ⟨15, _, _, (modPc 7 (fun x => { x with v := 390625, valid := true }) (modGen 15 (fun x => { x with st := .run, org := 1600 }) (wr
        (R.FIR_LTn_PITCH 15) 65536 (rig .print)))), _, _, _, rfl, by decide +kernel, by decide +kernel, by decide +kernel,
        by decide +kernel, by decide +kernel, rfl, rfl, by decide +kernel, by decide +kernel, rfl, by decide +kernel, by decide +kernel⟩,
    ⟨15, 0, (modPc 7 (fun x => { x with v := 390625, valid := true }) (modGen 15 (fun x => { x with st := .run, org := 1600 }) (wr
        (R.FIR_LTn_PITCH 15) 65536 (rig .print)))), by decide +kernel⟩,
    ⟨1, _, _, (modGen 1 (fun x => { x with st := .run, t0 := 400 }) (rig .print)), by decide +kernel, by decide +kernel,
        by decide +kernel, by decide +kernel, rfl, rfl, by decide +kernel⟩,
    ⟨15, 0, (holds line (rig .print)), by decide +kernel⟩,
    ⟨15, { line with kind := .warm }, (holds { line with kind := .warm } (rig .print)), by decide +kernel⟩,
    ⟨15, 7, { line with launched := true }, (holds { line with launched := true } (rig .print)), by decide +kernel⟩,
    ⟨15, 7, { line with launched := true }, (holds { line with launched := true } (rig .print)), by decide +kernel, by decide +kernel⟩,
    ⟨15, 7, { line with launched := true, done := 1 }, (holds { line with launched := true, done := 1 } (rig .print)),
        by decide +kernel, by decide +kernel⟩,
    (by
        obtain ⟨⟨b, s2⟩, h⟩ := Option.isSome_iff_exists.1 warm_bank
        exact ⟨warmPort, warmLine.2, b, warmRig, warmLine.1, s2, by decide +kernel, warm_line, h⟩),
    ⟨15, (rig .print), by decide +kernel⟩⟩

/-- What each clause of Gating assumes is met. -/
theorem test_witness_Gating :
    (∃ (s : State), s.gate.kill = false ∧ gateDead s = false) ∧
    (∃ (s : State), s.gate.kill = false ∧ gateDead s = true) ∧
    (∃ (m : Fin 4) (s : State), bitOf s.gate.hopen.toNat m = false ∧ gateDead s = false ∧ invarAgrees s R.FIR_HOPENMAP01 = true ∧
      invarAgrees s R.FIR_HOPENMAP23 = true ∧ hopenMask s m ≠ 0) ∧
    (∃ (m : Fin 4) (s : State), bitOf s.gate.hopen.toNat m = false ∧ gateDead s = false ∧ invarAgrees s R.FIR_HOPENMAP01 = true ∧
      invarAgrees s R.FIR_HOPENMAP23 = true ∧ hopenMask s m = 0) ∧
    (∃ (p : Fin 16) (s : State), gateDead s = false ∧ bitOf s.gate.enRel.toNat p = true) ∧
    (∃ (p : Fin 16) (s : State), bitOf s.gate.enRel.toNat p = false) ∧
    (∃ (m : Fin 2) (s : State), bitOf s.gate.jam.toNat m = false ∧ gateDead s = false ∧ invarAgrees s R.FIR_GATEEN = true ∧ fld s
      R.FIR_GATEEN (1 + m.val) (1 + m.val) = 1) ∧
    (∃ (s : State) (u : State) (gens : List Nat), s.gate.mediaOut = false ∧ gateDead s = false ∧ invarAgrees s R.FIR_GATEEN = true ∧ fld
      s R.FIR_GATEEN 0 0 = 1 ∧ u = { s with gate := { s.gate with mediaOut := true } } ∧ gens = those 16 (fun g => ltBound s g && ((lt s
      g).st = .run || (lt s g).st = .hold))) ∧
    (∃ (s : State), s.gate.mediaOut = false ∧ gateDead s = false ∧ invarAgrees s R.FIR_GATEEN = true ∧ fld s R.FIR_GATEEN 0 0 = 1 ∧
      s.glb.state = .print) ∧
    (∃ (s : State), haltable s = true ∧ s.gate.kill = false) ∧
    (∃ (p : Fin 16) (s : State), (hp s p).killDue = true) ∧
    (∃ (i : Fin 512) (v : Word) (s : State), windowOpen s 0 (R.TBL_WAVE + 4 * i) true = true) ∧
    (∃ (p : Nat) (s : State) (t : State), waveEnts t p = waveEnts s p ∧ slotOf t p = slotOf s p ∧ settleOf t p = settleOf s p) ∧
    (∃ (p : Fin 16) (b : Nat) (s : State) (t : State), (waveEnts t p ≠ waveEnts s p ∨ slotOf t p ≠ slotOf s p ∨ settleOf t p ≠ settleOf
      s p) ∧ active t p = true ∧ freeBank (hp t p) = some b) ∧
    (∃ (p : Fin 16) (s : State) (t : State), (waveEnts t p ≠ waveEnts s p ∨ slotOf t p ≠ slotOf s p ∨ settleOf t p ≠ settleOf s p) ∧
      active t p = true ∧ freeBank (hp t p) = none) ∧
    (∃ (g : Fin 16) (s : State), windowOpen s 0 (R.FIR_LTn_CMD g) true = true ∧ ltLive s g = true ∧ ((lt s g).st = .idle ∨ (lt s g).st =
      .armed)) ∧
    (∃ (g : Fin 16) (s : State), windowOpen s 0 (R.FIR_LTn_CMD g) true = true ∧ ltLive s g = true ∧ ((lt s g).st = .idle ∨ (lt s g).st =
      .armed)) ∧
    (∃ (g : Fin 16) (s : State), windowOpen s 0 (R.FIR_LTn_CMD g) true = true ∧ (ltLive s g = false ∨ (lt s g).st = .run ∨ (lt s g).st =
      .hold)) ∧
    (∃ (g : Fin 16) (s : State), windowOpen s 0 (R.FIR_LTn_CMD g) true = true ∧ (ltLive s g = false ∨ (lt s g).st = .run ∨ (lt s g).st =
      .hold)) :=
  ⟨⟨(bare .imageLoad), by decide +kernel, by decide +kernel⟩,
    ⟨(bare .reset), by decide +kernel, by decide +kernel⟩,
    ⟨3, (putInvar R.FIR_HOPENMAP23 0x80000000 (rig .print)), by decide +kernel, by decide +kernel, by decide +kernel, by decide +kernel,
        by decide +kernel⟩,
    ⟨3, (putInvar R.FIR_HOPENMAP23 0xFFFF (rig .idle)), by decide +kernel, by decide +kernel, by decide +kernel, by decide +kernel,
        by decide +kernel⟩,
    ⟨15, { rig .print with gate := { Gate.reset with enRel := 0x8000 } }, by decide +kernel, by decide +kernel⟩,
    ⟨15, (rig .idle), by decide +kernel⟩,
    ⟨1, (putInvar R.FIR_GATEEN 4 (rig .print)), by decide +kernel, by decide +kernel, by decide +kernel, by decide +kernel⟩,
    ⟨(putInvar R.FIR_GATEEN 1 (rig .print)), _, _, by decide +kernel, by decide +kernel, by decide +kernel, by decide +kernel, rfl, rfl⟩,
    ⟨(putInvar R.FIR_GATEEN 1 (rig .print)), by decide +kernel, by decide +kernel, by decide +kernel, by decide +kernel,
        by decide +kernel⟩,
    ⟨(rig .print), by decide +kernel, by decide +kernel⟩,
    ⟨15, (modHlp 15 (fun h => { h with killDue := true }) (rig .safeHold)), by decide +kernel⟩,
    ⟨511, 0, (rig .idle), by decide +kernel⟩,
    ⟨15, (rig .idle), (rig .print), by decide +kernel, by decide +kernel, by decide +kernel⟩,
    ⟨15, 1, (rig .idle), (wr (R.FIR_Pn_SLOT 15) 0x123 (rig .idle)), by decide +kernel, by decide +kernel, by decide +kernel⟩,
    ⟨15, (rig .idle), (wr (R.FIR_Pn_SLOT 15) 0x123 (modHlp 15 (fun h =>
        { h with lines := [{ line with bank := 0, fireSent := true }, { line with bank := 1 }] }) (rig .idle))), by decide +kernel,
        by decide +kernel, by decide +kernel⟩,
    ⟨15, (rig .idle), by decide +kernel, by decide +kernel, by decide +kernel⟩,
    ⟨15, (modGen 15 (fun x => { x with st := .armed }) (rig .armed)), by decide +kernel, by decide +kernel, by decide +kernel⟩,
    ⟨15, (modGen 15 (fun x => { x with st := .run }) (rig .print)), by decide +kernel, by decide +kernel⟩,
    ⟨2, (rig .idle), by decide +kernel, by decide +kernel⟩⟩

/-- What each clause of PortTraining assumes is met. -/
theorem test_witness_PortTraining :
    (∃ (p : Fin 16) (s : State), (hp s p).inSeries = true ∧ (hp s p).lstate = .down ∧ (hp s p).attempts < 3 ∧ portBound s p = true) ∧
    (∃ (p : Fin 16) (s : State), (hp s p).inSeries = true ∧ (hp s p).lstate = .down ∧ 3 ≤ (hp s p).attempts) ∧
    (∃ (p : Fin 16) (s : State), (hp s p).inSeries = false ∧ (hp s p).hotTry = true ∧ (hp s p).lstate = .down) ∧
    (∃ (p : Fin 16) (s : State), s.glb.state = .idle ∧ portBound s p = true ∧ headPresence s p = 2 ∧ (hp s p).lstate = .absent ∧
      s.bru.incomplete = false) ∧
    (∃ (p : Fin 16) (s : State), (hp s p).lstate.training = true) ∧
    (∃ (p : Fin 16) (ts2 : Bool) (data : Vector Byte 14) (s : State), ((hp s p).lstate = .detect ∨ (hp s p).lstate = .lock) ∧ crc8
      (data.toList.take 13) ≠ data.toList.getD 13 0) ∧
    (∃ (p : Fin 16) (ts2 : Bool) (data : Vector Byte 14) (s : State), (hp s p).lstate = .config ∧ crc8 (data.toList.take 13) ≠
      data.toList.getD 13 0) ∧
    (∃ (p : Fin 16) (data : Vector Byte 14) (s : State), (hp s p).lstate = .detect ∧ crc8 (data.toList.take 13) = data.toList.getD 13 0
      ∧ (hp s p).tsRun < 7) ∧
    (∃ (p : Fin 16) (data : Vector Byte 14) (s : State), (hp s p).lstate = .detect ∧ crc8 (data.toList.take 13) = data.toList.getD 13 0
      ∧ 7 ≤ (hp s p).tsRun ∧ ((hp s p).hotTry = false ∨ (hp s p).reason < 3)) ∧
    (∃ (p : Fin 16) (data : Vector Byte 14) (s : State), (hp s p).lstate = .lock ∧ crc8 (data.toList.take 13) = data.toList.getD 13 0 ∧
      bitOf ((data.toList.getD 2 0).toNat) 0 = true ∧ 7 ≤ (hp s p).tsRun) ∧
    (∃ (p : Fin 16) (data : Vector Byte 14) (s : State), (hp s p).lstate = .config ∧ crc8 (data.toList.take 13) = data.toList.getD 13 0
      ∧ 7 ≤ (hp s p).tsRun ∧ 16 ≤ (hp s p).tsAfter) ∧
    (∃ (p : Fin 16) (s : State), active s p = true ∧ (hp s p).synced = true) ∧
    (∃ (p : Fin 16) (s : State), (hp s p).lstate = .timesync ∧ (hp s p).checking = false ∧ (hp s p).echoes.length < 16) ∧
    (∃ (p : Fin 16) (t1 : BitVec 51) (h2 : BitVec 51) (h3 : BitVec 51) (t4 : BitVec 51) (theta : Int) (s : State), active s p = true ∧
      (hp s p).synced = true ∧ theta = shr ((h2 - t1).toInt + (h3 - t4).toInt) 1 ∧ iabs theta ≤ 2) ∧
    (∃ (p : Nat) (theta : Int) (s : State), 2 < iabs theta ∧ iabs theta ≤ 8) ∧
    (∃ (p : Nat) (theta : Int) (s : State), 16 < iabs theta) :=
  ⟨⟨15, (modHlp 15 (fun h => { h with lstate := .down, inSeries := true, attempts := 2 }) (rig .linkTrain)), by decide +kernel,
        by decide +kernel, by decide +kernel, by decide +kernel⟩,
    ⟨15, (modHlp 15 (fun h => { h with lstate := .down, inSeries := true, attempts := 3 }) (rig .linkTrain)), by decide +kernel,
        by decide +kernel, by decide +kernel⟩,
    ⟨15, (modHlp 15 (fun h => { h with lstate := .down, hotTry := true }) (rig .idle)), by decide +kernel, by decide +kernel,
        by decide +kernel⟩,
    ⟨15, (modHlp 15 (fun h => { h with lstate := .absent }) (rig .idle)), by decide +kernel, by decide +kernel, by decide +kernel,
        by decide +kernel, by decide +kernel⟩,
    ⟨15, (modHlp 15 (fun h => { h with lstate := .lock }) (rig .linkTrain)), by decide +kernel⟩,
    ⟨15, true, ((Vector.replicate 14 0).set 13 1), (modHlp 15 (fun h => { h with lstate := .lock }) (rig .linkTrain)),
        by decide +kernel, by decide +kernel⟩,
    ⟨15, true, ((Vector.replicate 14 0).set 13 1), (modHlp 15 (fun h => { h with lstate := .config }) (rig .linkTrain)),
        by decide +kernel, by decide +kernel⟩,
    ⟨15, (Vector.replicate 14 0), (modHlp 15 (fun h => { h with lstate := .detect, tsRun := 6 }) (rig .linkTrain)), by decide +kernel,
        by decide +kernel, by decide +kernel⟩,
    ⟨15, (Vector.replicate 14 0), (modHlp 15 (fun h => { h with lstate := .detect, tsRun := 7 }) (rig .linkTrain)), by decide +kernel,
        by decide +kernel, by decide +kernel, by decide +kernel⟩,
    ⟨15, #v[0, 0, 1, 0, 0, 0, 0, 0, 0, 0, 0, 0, 0, 31], (modHlp 15 (fun h => { h with lstate := .lock, tsRun := 7 }) (rig .linkTrain)),
        by decide +kernel, by decide +kernel, by decide +kernel, by decide +kernel⟩,
    ⟨15, (Vector.replicate 14 0), (modHlp 15 (fun h => { h with lstate := .config, tsRun := 7, tsAfter := 16 }) (rig .linkTrain)),
        by decide +kernel, by decide +kernel, by decide +kernel, by decide +kernel⟩,
    ⟨15, (rig .idle), by decide +kernel, by decide +kernel⟩,
    ⟨15, (modHlp 15 (fun h => { h with lstate := .timesync, echoes := List.replicate 15 (0, 0) }) (rig .linkTrain)), by decide +kernel,
        by decide +kernel, by decide +kernel⟩,
    ⟨15, 0, 2, 2, 0, 2, (rig .idle), by decide +kernel, by decide +kernel, by decide +kernel, by decide +kernel⟩,
    ⟨15, 8, (rig .idle), by decide +kernel, by decide +kernel⟩,
    ⟨15, 17, (rig .idle), by decide +kernel⟩⟩

/-- What each clause of LinkFrames assumes is met. -/
theorem test_witness_LinkFrames :
    (∃ (p : Fin 16) (c : Bool) (s : State) (s3 : State), (active s p = true ∨ (hp s p).lstate = .ident) ∧
      s3 = (let s1 := incF (R.HLP_Pn_ERRCNT p) 15 8 s; let s2 := if c then incF (R.HLP_Pn_ERRCNT p) 23 16 s1 else s1; if mayRaise s2 (hp s2 p).upErrAt then logEvent Ev.HLP_UP_ERROR p p ((((hp s2 p).discards ++ (hp s2 p).oldBad).filter (fun t => decide (s2.now < t + 2 ^ 20))).length + 1) 0 (modHlp p (fun h => { h with upErrAt := some s2.now }) s2) else s2)) ∧
    (∃ (p : Fin 16) (s : State), active s p = true) ∧
    (∃ (p : Fin 16) (s : State), active s p = false ∧ (hp s p).lstate.training = true) ∧
    (∃ (p : Fin 16) (q : Byte) (f : Sent) (s : State), active s p = true ∧ (hp s p).sent.find? (fun f => f.fseq = q) = some f) ∧
    (∃ (p : Fin 16) (q : Byte) (f : Sent) (s : State), active s p = true ∧ (hp s p).sent.find? (fun f => f.fseq = q) = some f ∧ f.ftype
      = 2) ∧
    (∃ (p : Fin 16) (q : Byte) (st : Byte) (s : State), (active s p = false ∨ (hp s p).sent.find? (fun f => f.fseq = q) = none)) ∧
    (∃ (p : Fin 16) (q : Byte) (f : Sent) (s : State), (hp s p).sent.find? (fun f => f.fseq = q && f.ftype ≠ 2) = some f ∧ active
      (discardFrame p s) p = true ∧ f.tries < 2) ∧
    (∃ (p : Fin 16) (q : Byte) (f : Sent) (s : State), (hp s p).sent.find? (fun f => f.fseq = q && f.ftype ≠ 2) = some f ∧ active
      (discardFrame p s) p = true ∧ 2 ≤ f.tries) ∧
    (∃ (p : Fin 16) (q : Byte) (f : Sent) (s : State), (hp s p).sent.find? (fun f => f.fseq = q && f.ftype ≠ 2) = some f ∧ active
      (discardFrame p s) p = false) ∧
    (∃ (p : Fin 16) (q : Byte) (f : Sent) (l : FLine) (s : State), (hp s p).sent.find? (fun f => f.fseq = q && f.ftype = 2) = some f ∧
      bitOf ((f.body.getD 2 0).toNat) 0 = true ∧ f.tries = 0 ∧ l ∈ (hp s p).lines ∧ f.fires l = true ∧ l.fireAck = false ∧ s.now + 64 ≤
      l.launch ∧ active (discardFrame p s) p = true ∧ (hp (discardFrame p s) p).synced = true) ∧
    (∃ (p : Fin 16) (q : Byte) (f : Sent) (s : State), (hp s p).sent.find? (fun f => f.fseq = q && f.ftype = 2) = some f ∧ f.tries ≠ 0) :=
  ⟨⟨15, true, (rig .idle), _, by decide +kernel, rfl⟩,
    ⟨15, (rig .idle), by decide +kernel⟩,
    ⟨15, (modHlp 15 (fun h => { h with lstate := .config }) (rig .linkTrain)), by decide +kernel, by decide +kernel⟩,
    ⟨15, 0xFF, ⟨0xFF, 5, 0, 0, [], 0⟩, (modHlp 15 (fun h => { h with sent := [⟨0xFF, 5, 0, 0, [], 0⟩] }) (rig .print)),
        by decide +kernel, by decide +kernel⟩,
    ⟨15, 0xFF, ⟨0xFF, 2, 0, 0, [], 0⟩, (modHlp 15 (fun h => { h with sent := [⟨0xFF, 2, 0, 0, [], 0⟩] }) (rig .print)),
        by decide +kernel, by decide +kernel, by decide +kernel⟩,
    ⟨15, 0, 0, (rig .idle), by decide +kernel⟩,
    ⟨15, 0xFF, ⟨0xFF, 3, 0, 0, [], 1⟩, (modHlp 15 (fun h => { h with sent := [⟨0xFF, 3, 0, 0, [], 1⟩] }) (rig .print)),
        by decide +kernel, by decide +kernel, by decide +kernel⟩,
    ⟨15, 0xFF, ⟨0xFF, 5, 0, 0, [], 2⟩, (modHlp 15 (fun h => { h with sent := [⟨0xFF, 5, 0, 0, [], 2⟩] }) (rig .print)),
        by decide +kernel, by decide +kernel, by decide +kernel⟩,
    ⟨15, 0xFF, ⟨0xFF, 5, 0, 0, [], 2⟩, (modHlp 15 (fun h => { h with sent := [⟨0xFF, 5, 0, 0, [], 2⟩], lstate := .config }) (rig
        .linkTrain)), by decide +kernel, by decide +kernel⟩,
    ⟨15, 0xFF, ⟨0xFF, 2, 0, 0, [0, 0, 1], 0⟩, { line with fireAck := false, launch := 64 }, (modHlp 15 (fun h =>
        { h with sent := [⟨0xFF, 2, 0, 0, [0, 0, 1], 0⟩], lines := [{ line with fireAck := false, launch := 64 }] }) (rig .print)),
        by decide +kernel, by decide +kernel, by decide +kernel, by decide +kernel, by decide +kernel, by decide +kernel, by decide +kernel,
        by decide +kernel, by decide +kernel⟩,
    ⟨15, 0xFF, ⟨0xFF, 2, 0, 0, [], 1⟩, (modHlp 15 (fun h => { h with sent := [⟨0xFF, 2, 0, 0, [], 1⟩] }) (rig .print)),
        by decide +kernel, by decide +kernel⟩⟩

/-- What each clause of PortCommands assumes is met. -/
theorem test_witness_PortCommands :
    (∃ (p : Fin 16) (tag : Byte) (st : Byte) (data : List Byte) (m : MemReq) (s : State), (active s p = true ∨ (hp s p).lstate = .ident)
      ∧ (hp s p).reqs.find? (fun m => m.tag = tag) = some m) ∧
    (∃ (p : Fin 16) (tag : Byte) (st : Byte) (data : List Byte) (s : State), (active s p = true ∨ (hp s p).lstate = .ident) ∧ (hp s
      p).reqs.find? (fun m => m.tag = tag) = none) ∧
    (∃ (p : Fin 16) (tag : Byte) (m : MemReq) (s : State), (hp s p).reqs.find? (fun m => m.tag = tag) = some m ∧ m.tries < 2) ∧
    (∃ (p : Fin 16) (tag : Byte) (m : MemReq) (s : State), (hp s p).reqs.find? (fun m => m.tag = tag) = some m ∧ 2 ≤ m.tries ∧ m.owner =
      .software) ∧
    (∃ (p : Fin 16) (i : Byte) (v : Word) (s : State), (active s p = true ∨ (hp s p).lstate = .ident)) ∧
    (∃ (p : Fin 16) (i : Byte) (v : Word) (s : State), (active s p = true ∨ (hp s p).lstate = .ident)) ∧
    (∃ (p : Fin 16) (i : Byte) (v : Word) (s : State), (active s p = true ∨ (hp s p).lstate = .ident) ∧ haltable s = true) ∧
    (∃ (s : State), s.glb.state = .print) ∧
    (∃ (p : Fin 16) (gen : BitVec 16) (s : State), windowOpen s 0 (R.HLP_Pn_CMD p) true = true ∧ gen = (hp s p).gen ∧ (hp s p).lstate ≠
      .unbound ∧ s.bru.incomplete = false ∧ (s.glb.state = .idle ∨ s.glb.state = .safeHold)) ∧
    (∃ (p : Fin 16) (gen : BitVec 16) (s : State), windowOpen s 0 (R.HLP_Pn_CMD p) true = true ∧ gen = (hp s p).gen ∧ (hp s p).lstate =
      .active ∧ memPending s p = false) ∧
    (∃ (p : Fin 16) (gen : BitVec 16) (s : State), windowOpen s 0 (R.HLP_Pn_CMD p) true = true ∧ gen = (hp s p).gen ∧ (hp s p).lstate =
      .active ∧ memPending s p = false ∧ 0x1800 ≤ fld s (R.HLP_Pn_MEMADDR p) 15 0 ∧ fld s (R.HLP_Pn_MEMADDR p) 15 0 + fld s
      (R.HLP_Pn_MEMADDR p) 24 16 ≤ 0x1F00 ∧ fld s (R.HLP_Pn_MEMADDR p) 15 0 < 0x1F00) ∧
    (∃ (p : Fin 16) (gen : BitVec 16) (s : State), windowOpen s 0 (R.HLP_Pn_CMD p) true = true ∧ gen = (hp s p).gen ∧ (hp s p).lstate =
      .active ∧ memPending s p = false ∧ 0x1800 ≤ fld s (R.HLP_Pn_MEMADDR p) 15 0 ∧ fld s (R.HLP_Pn_MEMADDR p) 15 0 + fld s
      (R.HLP_Pn_MEMADDR p) 24 16 ≤ 0x1F00 ∧ fld s (R.HLP_Pn_MEMADDR p) 15 0 < 0x1F00) ∧
    (∃ (p : Fin 16) (gen : BitVec 16) (s : State), windowOpen s 0 (R.HLP_Pn_CMD p) true = true ∧ gen ≠ (hp s p).gen) :=
  ⟨⟨15, 0xFF, 0, (List.replicate 64 0), ⟨.software, 1, 0xFF, 0, 2, [], 0⟩, (modHlp 15 (fun h =>
        { h with reqs := [⟨.software, 1, 0xFF, 0, 2, [], 0⟩] }) (rig .idle)), by decide +kernel, by decide +kernel⟩,
    ⟨15, 0xFF, 0, [], (rig .idle), by decide +kernel, by decide +kernel⟩,
    ⟨15, 0xFF, ⟨.zone, 1, 0xFF, 0, 2, [], 1⟩, (modHlp 15 (fun h => { h with reqs := [⟨.zone, 1, 0xFF, 0, 2, [], 1⟩] }) (rig .idle)),
        by decide +kernel, by decide +kernel⟩,
    ⟨15, 0xFF, ⟨.software, 1, 0xFF, 0, 2, [], 2⟩, (modHlp 15 (fun h => { h with reqs := [⟨.software, 1, 0xFF, 0, 2, [], 2⟩] }) (rig
        .idle)), by decide +kernel, by decide +kernel, by decide +kernel⟩,
    ⟨15, 0, 0, (rig .idle), by decide +kernel⟩,
    ⟨15, 0, 0, (modHlp 15 (fun h => { h with lstate := .ident }) (rig .linkTrain)), by decide +kernel⟩,
    ⟨15, 0, 0, (rig .print), by decide +kernel, by decide +kernel⟩,
    ⟨(rig .print), by decide +kernel⟩,
    ⟨15, 0, (modHlp 15 (fun h => { h with lstate := .failed }) (rig .safeHold)), by decide +kernel, by decide +kernel,
        by decide +kernel, by decide +kernel, by decide +kernel⟩,
    ⟨15, 0, (rig .idle), by decide +kernel, by decide +kernel, by decide +kernel, by decide +kernel⟩,
    ⟨15, 0, (wr (R.HLP_Pn_MEMADDR 15) 0x00021EFE (rig .idle)), by decide +kernel, by decide +kernel, by decide +kernel,
        by decide +kernel, by decide +kernel, by decide +kernel, by decide +kernel⟩,
    ⟨15, 0, (wr (R.HLP_Pn_MEMADDR 15) 0x00021800 (rig .idle)), by decide +kernel, by decide +kernel, by decide +kernel,
        by decide +kernel, by decide +kernel, by decide +kernel, by decide +kernel⟩,
    ⟨15, 0xFFFF, (rig .idle), by decide +kernel, by decide +kernel⟩⟩

/-- What each clause of ThermalModel assumes is met. -/
theorem test_witness_ThermalModel :
    (∃ (p : Fin 16) (tag : BitVec 16) (w : Bool) (slots : Fin 17) (energy : List (BitVec 16)) (ipk : List (BitVec 16)) (temps : List
      (BitVec 16)) (l : FLine) (s : State) (s1 : State) (s2 : State), active s p = true ∧ (hp s p).lines.find? (fun l => l.launched &&
      l.tele = .waiting && ((l.kind = .warm) = w) && (w || l.line % 65536 = tag.toNat)) = some l ∧ s1 = retireLines p (modHlp p (fun h =>
      { h with lines := h.lines.map (fun x => if x = l then { x with tele := .got } else x) }) (modThm p (fun t =>
      { t with prims := t.prims.mapIdx (fun q x => { x with corr := s32 (x.corr + teleCorr (hp s p) l slots.val (energy.map BitVec.toNat) q) }) })
      s)) ∧ s2 = setF (R.THM_Pn_TELECNT p) 31 16 0 (modThm p (fun t => { t with teleLost := false }) s1) ∧ (hp s p).zones ≠ 0) ∧
    (∃ (p : Fin 16) (tag : BitVec 16) (w : Bool) (slots : Fin 17) (energy : List (BitVec 16)) (ipk : List (BitVec 16)) (temps : List
      (BitVec 16)) (s : State), active s p = false) ∧
    (∃ (p : Fin 16) (s : State), (hp s p).lines.find? (fun l => l.launched && !l.inWindow && l.tele = .waiting) = none) ∧
    (∃ (p : Fin 16) (l : FLine) (s : State) (s2 : State), (hp s p).lines.find? (fun l => l.launched && !l.inWindow && l.tele = .waiting)
      = some l ∧ s2 = incF (R.THM_Pn_TELECNT p) 31 16 (incF (R.THM_Pn_TELECNT p) 15 0 (retireLines p (modHlp p (fun h =>
      { h with lines := h.lines.map (fun x => if x = l then { x with tele := .missing } else x) }) s))) ∧ mayRaise s2 s2.thmg.missAt =
      false ∧ fld s2 (R.THM_Pn_TELECNT p) 31 16 ≠ 64) ∧
    (∃ (p : Fin 16) (l : FLine) (s : State) (s2 : State), (hp s p).lines.find? (fun l => l.launched && !l.inWindow && l.tele = .waiting)
      = some l ∧ s2 = incF (R.THM_Pn_TELECNT p) 31 16 (incF (R.THM_Pn_TELECNT p) 15 0 (retireLines p (modHlp p (fun h =>
      { h with lines := h.lines.map (fun x => if x = l then { x with tele := .missing } else x) }) s))) ∧ mayRaise s2 s2.thmg.missAt =
      false ∧ fld s2 (R.THM_Pn_TELECNT p) 31 16 = 64) ∧
    (∃ (p : Fin 16) (s : State), active s p = true) ∧
    (∃ (p : Fin 16) (s : State), active s p = true ∧ (hp s p).zones = 0) ∧
    (∃ (p : Fin 16) (s : State), active s p = true ∧ (hp s p).zones ≠ 0) ∧
    (∃ (cls : Fin 6) (inst : Fin 16) (r : Req) (s : State), s.thmg.waiting.find? (fun r => r.cls = Fin.val (n := 6) cls && r.inst =
      Fin.val (n := 16) inst && !r.warned) = some r) ∧
    (∃ (s : State) (b : List Byte), s.jrn.busy = some b ∧ s.jrn.queue = []) ∧
    (∃ (s : State) (b : List Byte) (r : JRec) (q : List JRec), s.jrn.busy = some b ∧ s.jrn.queue = r :: q) ∧
    (∃ (p : Fin 16) (gen : BitVec 16) (s : State), windowOpen s 0 R.THM_CMD true = true ∧ gen = (hp s p).gen ∧ portBound s p = true ∧
      (s.glb.state = .idle ∨ s.glb.state = .armed ∨ s.glb.state = .safeHold) ∧ active s p = true) ∧
    (∃ (p : Fin 16) (gen : BitVec 16) (s : State), windowOpen s 0 R.THM_CMD true = true ∧ gen = (hp s p).gen ∧ portBound s p = true ∧
      (s.glb.state = .print ∨ s.glb.state = .stopping)) ∧
    (∃ (p : Fin 16) (gen : BitVec 16) (s : State), windowOpen s 0 R.THM_CMD true = true ∧ s.glb.state ≠ .off ∧ gen = (hp s p).gen ∧
      portBound s p = false) ∧
    (∃ (p : Fin 16) (gen : BitVec 16) (s : State), windowOpen s 0 R.THM_CMD true = true ∧ s.glb.state ≠ .off ∧ gen ≠ (hp s p).gen) :=
  ⟨⟨15, 0, false, 16, [], [], [], { line with launched := true }, (modHlp 15 (fun h =>
        { h with lines := [{ line with launched := true }], mem := zoned }) (rig .print)), _, _, by decide +kernel, by decide +kernel, rfl,
        rfl, by decide +kernel⟩,
    ⟨15, 0, false, 0, [], [], [], (modHlp 15 (fun h => { h with lstate := .down }) (rig .idle)), by decide +kernel⟩,
    ⟨15, (rig .print), by decide +kernel⟩,
    ⟨15, { line with launched := true, done := 0x81 },
        { holds { line with launched := true, done := 0x81 } (rig .print) with thmg := { ThmG.reset with missAt := some 0 } }, _,
        by decide +kernel, rfl, by decide +kernel, by decide +kernel⟩,
    ⟨15, { line with launched := true, done := 0x81 },
        { wr (R.THM_Pn_TELECNT 15) 0x003F0000 (holds { line with launched := true, done := 0x81 } (rig .print)) with thmg := { ThmG.reset with missAt := some 0 } },
        _, by decide +kernel, rfl, by decide +kernel, by decide +kernel⟩,
    ⟨15, (rig .print), by decide +kernel⟩,
    ⟨15, (rig .print), by decide +kernel, by decide +kernel⟩,
    ⟨15, (modHlp 15 (fun h => { h with mem := zoned }) (rig .print)), by decide +kernel, by decide +kernel⟩,
    ⟨5, 15, ⟨5, 15, 1000, false⟩, { rig .print with thmg := { ThmG.reset with waiting := [⟨5, 15, 1000, false⟩] } }, by decide +kernel⟩,
    ⟨{ State.reset with jrn := { Journal.reset with busy := some [] } }, [], by decide +kernel, by decide +kernel⟩,
    ⟨{ State.reset with jrn := { Journal.reset with busy := some [], queue := [⟨.boot, .info, 0, 0, 0, 0, 0, .idle, []⟩] } }, [],
        ⟨.boot, .info, 0, 0, 0, 0, 0, .idle, []⟩, [], by decide +kernel, by decide +kernel⟩,
    ⟨15, 0, (rig .safeHold), by decide +kernel, by decide +kernel, by decide +kernel, by decide +kernel, by decide +kernel⟩,
    ⟨15, 0, (rig .stopping), by decide +kernel, by decide +kernel, by decide +kernel, by decide +kernel⟩,
    ⟨3, 0, (rig .idle), by decide +kernel, by decide +kernel, by decide +kernel, by decide +kernel⟩,
    ⟨15, 1, (rig .idle), by decide +kernel, by decide +kernel, by decide +kernel⟩⟩

/-- What each clause of ThermalPaths assumes is met. -/
theorem test_witness_ThermalPaths :
    (∃ (temps : Vector (BitVec 16) 4) (s : State) (s1 : State) (h : List (Nat × Int)) (rr : Option Int) (r : Int), s.glb.state ≠ .off ∧
      s.glb.state ≠ .reset ∧ (∀ o, o ∈ [R.THM_DIETHR1, R.THM_DIETHR2, R.THM_DIETHR3, R.THM_DIESTOP, R.THM_DIESHUT, R.THM_DIERSHUT,
      R.THM_SDMARGIN] → invarAgrees s o = true) ∧ s1 = { s with thmg := { s.thmg with die := temps.map (fun x => signed 16 x.toNat) } } ∧
      h = (s.now, dieTemp s1) :: keepHist (2 ^ fld s R.THM_CFG 4 0) s.now s.thmg.dieHist ∧ rr = rateOf s h ∧ r = rr.getD s.thmg.dieRate ∧
      (s.thmg.again && decide (s.glb.state = .print)) = false ∧ (limitStep s R.THM_DIETHR1 s.thmg.thr1 (dieTemp s1)).on = s.thmg.thr1.on ∧
      (limitStep s R.THM_DIETHR2 s.thmg.thr2 (dieTemp s1)).on = s.thmg.thr2.on ∧ (limitStep s R.THM_DIETHR3 s.thmg.thr3 (dieTemp s1)).on =
      s.thmg.thr3.on ∧ (limitStep s R.THM_DIESTOP s.thmg.stop (dieTemp s1)).on = s.thmg.stop.on ∧ (limitStep s R.THM_DIESHUT s.thmg.shut
      (dieTemp s1)).on = s.thmg.shut.on ∧ (limitMaybe s R.THM_DIERSHUT s.thmg.rshut rr).on = s.thmg.rshut.on) ∧
    (∃ (temps : Vector (BitVec 16) 4) (s : State), s.glb.state ∉ [GState.off, .reset, .shutdown] ∧ (∀ o, o ∈ [R.THM_DIETHR1,
      R.THM_DIETHR2, R.THM_DIETHR3, R.THM_DIESTOP, R.THM_DIESHUT, R.THM_DIERSHUT, R.THM_SDMARGIN] → invarAgrees s o = true) ∧
      s.thmg.shut.on = false ∧ (limitStep s R.THM_DIESHUT s.thmg.shut (dieTemp
      { s with thmg := { s.thmg with die := temps.map (fun x => signed 16 x.toNat) } })).on = true) ∧
    (∃ (s : State), s.thmg.paths ≠ [] ∧ trAtRest s = true ∧ linesDone s = true) ∧
    (∃ (s : State), s.thmg.paths = []) ∧
    (∃ (s : State), s.thmg.paths ≠ []) ∧
    (∃ (s : State), pathPending s = true) ∧
    (∃ (xs : List Path) (x : Path) (s : State), x ∈ xs ∧ Path.die x = true ∧ s.glb.state ∉ [GState.off, .reset, .shutdown]) ∧
    (∃ (xs : List Path) (s : State), xs ≠ [] ∧ (∀ x ∈ xs, Path.die x = false) ∧ haltable s = true) ∧
    (∃ (xs : List Path) (s : State), s.glb.state = .shutdown) :=
  ⟨⟨(Vector.replicate 4 0), (rig .idle), _, _, _, _, by decide +kernel, by decide +kernel, by decide +kernel, rfl, rfl, rfl, rfl,
        by decide +kernel, by decide +kernel, by decide +kernel, by decide +kernel, by decide +kernel, by decide +kernel, by decide +kernel⟩,
    ⟨(Vector.replicate 4 1920), { rig .idle with thmg := { ThmG.reset with shut := ⟨false, 3⟩ } }, by decide +kernel, by decide +kernel,
        by decide +kernel, by decide +kernel⟩,
    ⟨{ rig .stopping with thmg := { ThmG.reset with paths := [path true] } }, by decide +kernel, by decide +kernel, by decide +kernel⟩,
    ⟨(rig .stopping), by decide +kernel⟩,
    ⟨{ rig .stopping with thmg := { ThmG.reset with paths := [path true] } }, by decide +kernel⟩,
    ⟨{ rig .stopping with jrn := { Journal.reset with busy := some [BitVec.ofNat 8 JType.thermal.code] } }, by decide +kernel⟩,
    ⟨[path true], (path true), (rig .print), (List.mem_singleton.2 rfl), by decide +kernel, by decide +kernel⟩,
    ⟨[path false], (rig .stopping), by decide +kernel, by decide +kernel, by decide +kernel⟩,
    ⟨[path true], (rig .shutdown), by decide +kernel⟩⟩

/-- What each clause of NozzleResults assumes is met. -/
theorem test_witness_NozzleResults :
    (∃ (p : Fin 16) (e : Word) (s : State) (s1 : State), active s p = true ∧ s1 = modNhl p (fun x =>
      { x with awaiting := x.awaiting - (if inBlock s p e then 1 else 0) }) (serviceCheck p (headResult p e s)) ∧ ((nh s1 p).awaiting ≠ 0
      ∨ blockSent s1 p = false)) ∧
    (∃ (p : Fin 16) (e : Word) (s : State) (s1 : State), active s p = true ∧ s1 = modNhl p (fun x =>
      { x with awaiting := x.awaiting - (if inBlock s p e then 1 else 0) }) (serviceCheck p (headResult p e s)) ∧ (nh s1 p).awaiting = 0 ∧
      blockSent s1 p = true) ∧
    (∃ (p : Fin 16) (e : Word) (s : State), nozzleExists s p (bits e 14 12) (bits e 11 0) = true ∧ bits e 19 16 ≤ 3) ∧
    (∃ (p : Fin 16) (e : Word) (s : State), (nozzleExists s p (bits e 14 12) (bits e 11 0) = false ∨ 4 < bits e 19 16)) ∧
    (∃ (p : Fin 16) (e : Word) (s : State), (nozzleExists s p (bits e 14 12) (bits e 11 0) = false ∨ 4 < bits e 19 16)) ∧
    (∃ (p : Fin 16) (e : Word) (s : State), nozzleExists s p (bits e 14 12) (bits e 11 0) = true ∧ bits e 19 16 = 4) ∧
    (∃ (v : Word) (s : State), windowOpen s 0 R.NHL_HOSTRES true = true ∧ 5 ≤ s.glb.state.code ∧ active s (bits v 23 20) = true ∧
      nozzleExists s (bits v 23 20) (bits v 14 12) (bits v 11 0) = true ∧ bits v 19 16 ≤ 3 ∧ bits v 15 15 = 0 ∧ bits v 31 28 = 0 ∧ bits v
      27 24 ≠ 0) ∧
    (∃ (p : Fin 16) (n : BitVec 16) (s : State) (s1 : State), windowOpen s 0 (R.NHL_Pn_GAPLEN p) true = true ∧ n ≠ 0 ∧ s1 = setF
      (R.NHL_Pn_GAPLEN p) 15 0 n.toNat (hostAccess s) ∧ portPipe s1 p = none) ∧
    (∃ (p : Fin 16) (n : BitVec 16) (s : State) (s1 : State) (d : Nat), windowOpen s 0 (R.NHL_Pn_GAPLEN p) true = true ∧ n ≠ 0 ∧ s1 =
      setF (R.NHL_Pn_GAPLEN p) 15 0 n.toNat (hostAccess s) ∧ portPipe s1 p = some d) ∧
    (∃ (p : Fin 16) (s : State), windowOpen s 0 (R.NHL_Pn_GAPLEN p) true = true) ∧
    (∃ (conf : Word) (wconf : Word) (res : Nat) (src : Nat) (e : Word), res < 4 ∧ src < 4 ∧ 5 ≤ heState e) ∧
    (∃ (conf : Word) (wconf : Word) (src : Nat) (e : Word), src < 4) ∧
    (∃ (conf : Word) (wconf : Word) (src : Nat) (e : Word), src < 4) ∧
    (∃ (conf : Word) (wconf : Word) (res : Nat) (src : Nat) (e : Word), 2 ≤ res ∧ res < 4 ∧ src < 4) ∧
    (∃ (conf : Word) (wconf : Word) (res : Nat) (src : Nat) (e : Word), res < 4 ∧ src < 4) ∧
    (∃ (conf : Word) (wconf : Word) (res : Nat) (src : Nat) (e : Word), res < 4 ∧ src < 4 ∧ heState e < 4) ∧
    (∃ (conf : Word) (wconf : Word) (res : Nat) (src : Nat) (e : Word), res < 4 ∧ src < 4 ∧ heState e = 4) ∧
    (∃ (conf : Word) (wconf : Word) (res : Nat) (src : Nat) (e : Word), res < 4) :=
  ⟨⟨15, 0x0000107F, (rig .print), _, by decide +kernel, rfl, by decide +kernel⟩,
    ⟨15, 0x00000003, (modNhl 15 (fun x => { x with awaiting := 1, scanCfg := 0xFFFFFFFF, seq := 4, gapFired := 1000000000 }) (rig
        .print)), _, by decide +kernel, rfl, by decide +kernel, by decide +kernel⟩,
    ⟨15, 0x0003707F, (rig .print), by decide +kernel, by decide +kernel⟩,
    ⟨15, 0x0000107F, (rig .print), by decide +kernel⟩,
    ⟨15, 0x0005707F, (rig .print), by decide +kernel⟩,
    ⟨15, 0x0004707F, (rig .print), by decide +kernel, by decide +kernel⟩,
    ⟨0x0FF3707F, (rig .print), by decide +kernel, by decide +kernel, by decide +kernel, by decide +kernel, by decide +kernel,
        by decide +kernel, by decide +kernel, by decide +kernel⟩,
    ⟨2, 0xFFFF, (rig .print), _, by decide +kernel, by decide +kernel, rfl, by decide +kernel⟩,
    ⟨15, 1, (rig .print), _, 15, by decide +kernel, by decide +kernel, rfl, by decide +kernel⟩,
    ⟨15, (rig .print), by decide +kernel⟩,
    ⟨0, 0, 3, 3, 5, by decide +kernel, by decide +kernel, by decide +kernel⟩,
    ⟨0, 0, 3, 0, by decide +kernel⟩,
    ⟨0, 0, 3, 0, by decide +kernel⟩,
    ⟨0, 0, 2, 0, 0, by decide +kernel, by decide +kernel, by decide +kernel⟩,
    ⟨0, 0, 3, 0, 0, by decide +kernel, by decide +kernel⟩,
    ⟨0, 0, 3, 3, 3, by decide +kernel, by decide +kernel, by decide +kernel⟩,
    ⟨0, 0, 0, 0, 4, by decide +kernel, by decide +kernel, by decide +kernel⟩,
    ⟨0, 0, 3, 0, 0, by decide +kernel⟩⟩

/-- What each clause of NozzleCommands assumes is met. -/
theorem test_witness_NozzleCommands :
    (∃ (p : Fin 16) (s : State), blockSent s p = true) ∧
    (∃ (p : Fin 16) (s : State), (nh s p).seq = 4 ∧ blockSent s p = false) ∧
    (∃ (p : Fin 16) (s : State), (nh s p).ending ≠ 0) ∧
    (∃ (p : Fin 16) (s : State), (nh s p).ending = 0 ∧ (nh s p).seq = 2 ∧ (nh s p).suspended = true) ∧
    (∃ (p : Fin 16) (s : State), (nh s p).ending = 0 ∧ (nh s p).seq = 2 ∧ (nh s p).suspended = false ∧ (nh s p).sentLines < scanLines s
      p) ∧
    (∃ (p : Fin 16) (s : State), (nh s p).ending = 0 ∧ (nh s p).seq = 2 ∧ scanLines s p ≤ (nh s p).sentLines ∧ (nh s p).suspended =
      false) ∧
    (∃ (p : Fin 16) (s : State), (nh s p).ending = 0 ∧ (nh s p).seq = 3 ∧ (nh s p).sentLines < spitLines s p) ∧
    (∃ (p : Fin 16) (s : State), (nh s p).ending = 0 ∧ (nh s p).seq = 3 ∧ spitLines s p ≤ (nh s p).sentLines ∧ svcOpen s p = true) ∧
    (∃ (p : Fin 16) (s : State), (nh s p).ending = 0 ∧ (nh s p).seq = 3 ∧ spitLines s p ≤ (nh s p).sentLines ∧ svcOpen s p = false) ∧
    (∃ (p : Fin 16) (s : State), fld s (R.NHL_Pn_SPIT p) 31 16 ≠ 0 ∧ active s p = true ∧ s.glb.state = .armed) ∧
    (∃ (p : Fin 16) (s : State), fld s (R.NHL_Pn_SPIT p) 31 16 ≠ 0 ∧ active s p = true ∧ s.glb.state = .print ∧ (nh s p).pendSpit =
      false) ∧
    (∃ (p : Fin 16) (gen : BitVec 16) (s : State), windowOpen s 0 (R.NHL_Pn_CMD p) true = true ∧ gen = (hp s p).gen ∧ active s p = true
      ∧ portBound s p = true ∧ s.glb.state = .armed ∧ bitOf ((hp s p).f 0x20 4) 0 = true ∧ (nh s p).seq ∉ [1, 2, 3]) ∧
    (∃ (p : Fin 16) (gen : BitVec 16) (s : State), windowOpen s 0 (R.NHL_Pn_CMD p) true = true ∧ gen = (hp s p).gen ∧ active s p = true
      ∧ portBound s p = true ∧ s.glb.state = .print ∧ bitOf ((hp s p).f 0x20 4) 0 = true) ∧
    (∃ (p : Fin 16) (gen : BitVec 16) (s : State), windowOpen s 0 (R.NHL_Pn_CMD p) true = true ∧ gen = (hp s p).gen ∧ active s p = true
      ∧ portBound s p = true ∧ s.glb.state = .armed ∧ (nh s p).seq ∉ [1, 2, 3]) ∧
    (∃ (p : Fin 16) (gen : BitVec 16) (s : State), windowOpen s 0 (R.NHL_Pn_CMD p) true = true ∧ gen = (hp s p).gen ∧ active s p = true
      ∧ portBound s p = true ∧ s.glb.state = .print) ∧
    (∃ (p : Fin 16) (gen : BitVec 16) (s : State), windowOpen s 0 (R.NHL_Pn_CMD p) true = true ∧ gen = (hp s p).gen ∧ portBound s p =
      true ∧ 5 ≤ s.glb.state.code ∧ s.glb.state ≠ .shutdown) ∧
    (∃ (p : Fin 16) (gen : BitVec 16) (s : State), windowOpen s 0 (R.NHL_Pn_CMD p) true = true ∧ gen = (hp s p).gen ∧ active s p = true
      ∧ 5 ≤ s.glb.state.code ∧ s.glb.state ≠ .shutdown ∧ portBound s p = true) ∧
    (∃ (p : Fin 16) (gen : BitVec 16) (s : State), windowOpen s 0 (R.NHL_Pn_CMD p) true = true ∧ gen = (hp s p).gen ∧ portBound s p =
      true ∧ (s.glb.state = .idle ∨ s.glb.state = .safeHold)) ∧
    (∃ (p : Fin 16) (gen : BitVec 16) (s : State) (c : Instr) (cmd : Nat), windowOpen s 0 (R.NHL_Pn_CMD p) true = true ∧ gen ≠ (hp s
      p).gen ∧ (c, cmd) ∈ [(Instr.nhlScan p gen, 1), (.nhlSpit p gen, 2), (.nhlAbort p gen, 3), (.nhlRebuild p gen, 4), (.nhlClear p gen,
      5)]) :=
  ⟨⟨15, (modNhl 15 (fun x => { x with seq := 2, sentLines := 1000000 }) (rig .print)), by decide +kernel⟩,
    ⟨15, (modNhl 15 (fun x => { x with seq := 4 }) (rig .print)), by decide +kernel, by decide +kernel⟩,
    ⟨15, (modNhl 15 (fun x => { x with ending := 1 }) (rig .armed)), by decide +kernel⟩,
    ⟨15, (modNhl 15 (fun x => { x with seq := 2, suspended := true }) (rig .armed)), by decide +kernel, by decide +kernel,
        by decide +kernel⟩,
    ⟨15, (modNhl 15 (fun x => { x with seq := 2 }) (rig .armed)), by decide +kernel, by decide +kernel, by decide +kernel,
        by decide +kernel⟩,
    ⟨15, (modNhl 15 (fun x => { x with seq := 2, sentLines := 1000000 }) (rig .armed)), by decide +kernel, by decide +kernel,
        by decide +kernel, by decide +kernel⟩,
    ⟨15, (modNhl 15 (fun x => { x with seq := 3 }) (rig .armed)), by decide +kernel, by decide +kernel, by decide +kernel⟩,
    ⟨15, (modNhl 15 (fun x => { x with seq := 3, sentLines := 1000000 }) (holds { line with kind := .service } (rig .armed))),
        by decide +kernel, by decide +kernel, by decide +kernel, by decide +kernel⟩,
    ⟨15, (modNhl 15 (fun x => { x with seq := 3, sentLines := 1000000 }) (rig .armed)), by decide +kernel, by decide +kernel,
        by decide +kernel, by decide +kernel⟩,
    ⟨15, (wr (R.NHL_Pn_SPIT 15) 0x00010000 (rig .armed)), by decide +kernel, by decide +kernel, by decide +kernel⟩,
    ⟨15, (wr (R.NHL_Pn_SPIT 15) 0xFFFF0000 (rig .print)), by decide +kernel, by decide +kernel, by decide +kernel, by decide +kernel⟩,
    ⟨15, 0, (rig .armed), by decide +kernel, by decide +kernel, by decide +kernel, by decide +kernel, by decide +kernel,
        by decide +kernel, by decide +kernel⟩,
    ⟨15, 0, (rig .print), by decide +kernel, by decide +kernel, by decide +kernel, by decide +kernel, by decide +kernel,
        by decide +kernel⟩,
    ⟨15, 0, (rig .armed), by decide +kernel, by decide +kernel, by decide +kernel, by decide +kernel, by decide +kernel,
        by decide +kernel⟩,
    ⟨15, 0, (rig .print), by decide +kernel, by decide +kernel, by decide +kernel, by decide +kernel, by decide +kernel⟩,
    ⟨15, 0, (rig .safeHold), by decide +kernel, by decide +kernel, by decide +kernel, by decide +kernel, by decide +kernel⟩,
    ⟨15, 0, (rig .print), by decide +kernel, by decide +kernel, by decide +kernel, by decide +kernel, by decide +kernel,
        by decide +kernel⟩,
    ⟨15, 0, (rig .idle), by decide +kernel, by decide +kernel, by decide +kernel, by decide +kernel⟩,
    ⟨15, 0xFFFF, (rig .print), (.nhlClear 15 0xFFFF), 5, by decide +kernel, by decide +kernel, by decide +kernel⟩⟩

/-- What each clause of SweepCycle assumes is met. -/
theorem test_witness_SweepCycle :
    (∃ (s : State), s.scn.st = .sweep ∧ s.scn.ended = false ∧ s.scn.restart = false ∧ s.scn.begun = true ∧ sweepOver s = true ∧
      slotsEnded s = true) ∧
    (∃ (s : State), s.scn.st = .turn ∧ s.scn.ended = false ∧ s.scn.restart = false ∧ s.scn.begun = true ∧ sweepOver s = true ∧
      slotsEnded s = true) ∧
    (∃ (s : State), s.scn.st = .held ∧ s.scn.ended = false ∧ s.scn.begun = true ∧ sweepOver s = true ∧ slotsEnded s = true) ∧
    (∃ (s : State), caAtRest s = true ∧ s.scn.st = .sweep ∧ s.scn.restAt = none ∧ fld s R.SCN_SIG 15 15 = 0 ∧ s.scn.restart = false ∧
      s.scn.ended = false) ∧
    (∃ (s : State), caAtRest s = true ∧ s.scn.st = .sweep ∧ s.scn.restAt = none ∧ fld s R.SCN_SIG 15 15 = 0 ∧ s.scn.restart = false ∧
      s.scn.ended = true) ∧
    (∃ (s : State), caAtRest s = true ∧ s.scn.st = .sweep ∧ s.scn.restAt = none ∧ fld s R.SCN_SIG 15 15 = 0 ∧ s.scn.restart = true) ∧
    (∃ (s : State), caAtRest s = true ∧ s.scn.st = .turn ∧ s.scn.stroke = false ∧ s.scn.restAt = none) ∧
    (∃ (s : State), caAtRest s = true ∧ s.scn.st = .turn ∧ s.scn.stroke = true) ∧
    (∃ (s : State), s.scn.fed = false ∧ trAtRest s = true ∧ s.scn.st = .sweep ∧ s.scn.ended = true ∧ s.scn.begun = false) ∧
    (∃ (s : State), s.scn.fed = false ∧ trAtRest s = true ∧ s.scn.st = .turn) ∧
    (∃ (s : State) (t : Nat), s.scn.st = .turn ∧ s.scn.restAt = some t ∧ invarAgrees s R.SCN_DWELL = true ∧ t + 400000 * fld s
      R.SCN_DWELL 31 16 ≤ s.now ∧ cooled s = false ∧ s.scn.dwellMax = false ∧ dataGate s = true) ∧
    (∃ (s : State), turnReady (turnEval s) = true) ∧
    (∃ (s : State), turnReady (turnEval s) = false) ∧
    (∃ (s : State), s.scn.cur.w = 0) ∧
    (∃ (s : State), turnReady s = true) :=
  ⟨⟨(modScn (fun x => { x with st := .sweep, begun := true, ended := false }) (rigWith [(0x140, 1), (0x145, 2), (0x146, 7), (0x147, 7)]
        [] .print)), by decide +kernel, by decide +kernel, by decide +kernel, by decide +kernel, by decide +kernel, by decide +kernel⟩,
    ⟨(modScn (fun x => { x with st := .turn, begun := true, ended := false }) (rigWith [(0x140, 1), (0x145, 2), (0x146, 7), (0x147, 7)]
        [] .print)), by decide +kernel, by decide +kernel, by decide +kernel, by decide +kernel, by decide +kernel, by decide +kernel⟩,
    ⟨(modScn (fun x => { x with st := .held, begun := true, ended := false }) (rigWith [(0x140, 1), (0x145, 2), (0x146, 7), (0x147, 7)]
        [] .print)), by decide +kernel, by decide +kernel, by decide +kernel, by decide +kernel, by decide +kernel⟩,
    ⟨(modScn (fun x => { x with st := .sweep, ended := false }) (rigWith [(0x140, 1), (0x145, 2), (0x146, 7), (0x147, 7)] [] .print)),
        by decide +kernel, by decide +kernel, by decide +kernel, by decide +kernel, by decide +kernel, by decide +kernel⟩,
    ⟨(modScn (fun x => { x with st := .sweep }) (rigWith [(0x140, 1), (0x145, 2), (0x146, 7), (0x147, 7)] [] .print)),
        by decide +kernel, by decide +kernel, by decide +kernel, by decide +kernel, by decide +kernel, by decide +kernel⟩,
    ⟨(modScn (fun x => { x with st := .sweep, restart := true }) (rigWith [(0x140, 1), (0x145, 2), (0x146, 7), (0x147, 7)] [] .print)),
        by decide +kernel, by decide +kernel, by decide +kernel, by decide +kernel, by decide +kernel⟩,
    ⟨(modScn (fun x => { x with st := .turn }) (rigWith [(0x140, 1), (0x145, 2), (0x146, 7), (0x147, 7)] [] .print)), by decide +kernel,
        by decide +kernel, by decide +kernel, by decide +kernel⟩,
    ⟨(modScn (fun x => { x with st := .turn, stroke := true }) (rigWith [(0x140, 1), (0x145, 2), (0x146, 7), (0x147, 7)] [] .print)),
        by decide +kernel, by decide +kernel, by decide +kernel⟩,
    ⟨(modScn (fun x => { x with st := .sweep, fed := false, ended := true }) (rigWith [(0x140, 1), (0x145, 2), (0x146, 7), (0x147, 7)]
        [] .print)), by decide +kernel, by decide +kernel, by decide +kernel, by decide +kernel, by decide +kernel⟩,
    ⟨(modScn (fun x => { x with st := .turn, fed := false }) (rigWith [(0x140, 1), (0x145, 2), (0x146, 7), (0x147, 7)] [] .print)),
        by decide +kernel, by decide +kernel, by decide +kernel⟩,
    ⟨{ modThm 15 (fun t => { t with tzmax := 801 }) (modScn (fun x => { x with st := .turn, restAt := some 0 }) (rigWith [(0x140, 1), (0x145, 2), (0x146, 7), (0x147, 7)] [] .print)) with now := 2000000000 },
        0, by decide +kernel, by decide +kernel, by decide +kernel, by decide +kernel, by decide +kernel, by decide +kernel,
        by decide +kernel⟩,
    ⟨(modScn (fun x => { x with st := .turn, restAt := some 0 }) (rigWith [(0x140, 1), (0x145, 2), (0x146, 7), (0x147, 7)] [] .print)),
        by decide +kernel⟩,
    ⟨State.reset, by decide +kernel⟩,
    ⟨State.reset, by decide +kernel⟩,
    ⟨(modScn (fun x => { x with st := .turn, restAt := some 0 }) (rigWith [(0x140, 1), (0x145, 2), (0x146, 7), (0x147, 7)] [] .print)),
        by decide +kernel⟩⟩

/-- What each clause of ScanCommands assumes is met. -/
theorem test_witness_ScanCommands :
    (∃ (s : State), windowOpen s 0 R.SCN_CMD true = true ∧ scanning s = true ∧ s.scn.st ≠ .turn ∧ s.scn.st ≠ .sweep ∧ (s.glb.state =
      .idle ∨ s.glb.state = .armed) ∧ jobCheck s = none) ∧
    (∃ (s : State) (c : Nat) (e : Nat), windowOpen s 0 R.SCN_CMD true = true ∧ scanning s = true ∧ s.scn.st ≠ .turn ∧ s.scn.st ≠ .sweep
      ∧ (s.glb.state = .idle ∨ s.glb.state = .armed) ∧ jobCheck s = some (c, e)) ∧
    (∃ (s : State), windowOpen s 0 R.SCN_CMD true = true ∧ (scanning s = false ∨ s.scn.st = .turn ∨ s.scn.st = .sweep ∨ (s.glb.state ≠
      .idle ∧ s.glb.state ≠ .armed))) ∧
    (∃ (s : State), windowOpen s 0 R.SCN_CMD true = true ∧ (scanning s = false ∨ s.scn.st = .turn ∨ s.scn.st = .sweep ∨ (s.glb.state ≠
      .idle ∧ s.glb.state ≠ .armed))) ∧
    (∃ (s : State) (x : Scn), windowOpen s 0 R.SCN_CMD true = true ∧ scanning s = true ∧
      x = (match s.scn.st with | .ready => { s.scn with st := .nojob } | .turn => (match s.scn.restart, s.scn.nxt with | false, some w => { s.scn with nxt := some { w with next := 2 } } | _, _ => { s.scn with last := true, nxt := none }) | .sweep => { s.scn with last := true, nxt := none } | .held => { s.scn with st := .done, restart := false } | _ => s.scn)) ∧
    (∃ (s : State) (x : Scn), windowOpen s 0 R.SCN_CMD true = true ∧ scanning s = true ∧
      x = (match s.scn.st with | .ready => { s.scn with st := .nojob } | .turn => (match s.scn.restart, s.scn.nxt with | false, some w => { s.scn with nxt := some { w with next := 2 } } | _, _ => { s.scn with last := true, nxt := none }) | .sweep => { s.scn with last := true, nxt := none } | .held => { s.scn with st := .done, restart := false } | _ => s.scn)) ∧
    (∃ (s : State) (x : Scn), windowOpen s 0 R.SCN_CMD true = true ∧ scanning s = true ∧
      x = (match s.scn.st with | .ready => { s.scn with st := .nojob } | .turn => (match s.scn.restart, s.scn.nxt with | false, some w => { s.scn with nxt := some { w with next := 2 } } | _, _ => { s.scn with last := true, nxt := none }) | .sweep => { s.scn with last := true, nxt := none } | .held => { s.scn with st := .done, restart := false } | _ => s.scn)) ∧
    (∃ (s : State), windowOpen s 0 R.SCN_CMD true = true ∧ scanning s = false) :=
  ⟨⟨(modScn (fun x => { x with st := .nojob }) (rigWith [(0x140, 1), (0x145, 2), (0x146, 7), (0x147, 7)] [] .idle)), by decide +kernel,
        by decide +kernel, by decide +kernel, by decide +kernel, by decide +kernel, by decide +kernel⟩,
    ⟨(wr R.SCN_SPEED 0 (modScn (fun x => { x with st := .nojob }) (rigWith [(0x140, 1), (0x145, 2), (0x146, 7), (0x147, 7)] [] .idle))),
        1, 0, by decide +kernel, by decide +kernel, by decide +kernel, by decide +kernel, by decide +kernel, by decide +kernel⟩,
    ⟨(rig .idle), by decide +kernel, by decide +kernel⟩,
    ⟨(modScn (fun x => { x with st := .sweep }) (rigWith [(0x140, 1), (0x145, 2), (0x146, 7), (0x147, 7)] [] .print)),
        by decide +kernel, by decide +kernel⟩,
    ⟨(modScn (fun x => { x with st := .held }) (rigWith [(0x140, 1), (0x145, 2), (0x146, 7), (0x147, 7)] [] .print)), _,
        by decide +kernel, by decide +kernel, rfl⟩,
    ⟨(modScn (fun x => { x with st := .turn }) (rigWith [(0x140, 1), (0x145, 2), (0x146, 7), (0x147, 7)] [] .print)), _,
        by decide +kernel, by decide +kernel, rfl⟩,
    ⟨(modScn (fun x => { x with st := .sweep }) (rigWith [(0x140, 1), (0x145, 2), (0x146, 7), (0x147, 7)] [] .print)), _,
        by decide +kernel, by decide +kernel, rfl⟩,
    ⟨(rig .idle), by decide +kernel, by decide +kernel⟩⟩

/-- What each clause of EncoderInputs assumes is met. -/
theorem test_witness_EncoderInputs :
    (∃ (n : Fin 8) (a : Bool) (b : Bool) (s : State), pcUnused s n = false ∧ pcSinCos s n = false ∧ (grayPlace a b + 4 - grayPlace (vat
      s.enc n).1 (vat s.enc n).2) % 4 = 1) ∧
    (∃ (n : Fin 8) (a : Bool) (b : Bool) (s : State), pcUnused s n = false ∧ pcSinCos s n = false ∧ (grayPlace a b + 4 - grayPlace (vat
      s.enc n).1 (vat s.enc n).2) % 4 = 3) ∧
    (∃ (n : Fin 8) (a : Bool) (b : Bool) (s : State), pcUnused s n = false ∧ pcSinCos s n = false ∧ a ≠ (vat s.enc n).1 ∧ b ≠ (vat s.enc
      n).2) ∧
    (∃ (n : Fin 8) (d : Int) (s : State), -65536 ≤ d ∧ d ≤ 65536 ∧ (pch s n).pos < 2 ^ 48) ∧
    (∃ (n : Fin 8) (d : Int) (s : State), -65536 ≤ d ∧ d ≤ 65536 ∧ (pch s n).pos < 2 ^ 48) ∧
    (∃ (n : Fin 8) (xs : BitVec 12) (xc : BitVec 12) (s : State) (s1 : State), pcSinCos s n = true ∧ invarAgrees s (R.POS_PCn_SCWIN n) =
      true ∧ s1 = setF (R.POS_PCn_SCAMP n) 23 0 (narrow 24 (scSine s n xs * scSine s n xs + scCosine s n xc * scCosine s n xc)) s ∧ scBad
      s1 n (narrow 24 (scSine s n xs * scSine s n xs + scCosine s n xc * scCosine s n xc)) (signed 12 (narrow 12 ((interpolate (scSine s n
      xs) (scCosine s n xc) : Int) - (pch s1 n).ph))) = 0) ∧
    (∃ (n : Fin 8) (amp2 : Nat) (why : Nat) (s : State), (pch s n).bad + 1 < fld s (R.POS_PCn_SCWIN n) 19 16) ∧
    (∃ (n : Fin 8) (ph : Nat) (d : Int) (s : State), (pch s n).fault = true) ∧
    (∃ (n : Fin 8) (s : State), (pch s n).fault = true ∧ 1024 ≤ (pch s n).good) ∧
    (∃ (n : Fin 8) (s : State) (l : List Nat) (p : Nat), pcSinCos s n = true ∧ (pch s n).fault = false ∧ l = ((pch s n).pos :: (pch s
      n).samples).take 5 ∧ l[4]? = some p ∧ 0 ≤ satS 32 (rnd (diff48 (pch s n).pos p * 25000) 12) ∧ (pch s n).dir = false) ∧
    (∃ (sn : Int) (cs : Int), (sn ≠ 0 ∨ cs ≠ 0) ∧ phaseExact sn cs = false) :=
  ⟨⟨7, true, false, (rig .idle), by decide +kernel, by decide +kernel, by decide +kernel⟩,
    ⟨7, false, true, (rig .idle), by decide +kernel, by decide +kernel, by decide +kernel⟩,
    ⟨7, true, true, (rig .idle), by decide +kernel, by decide +kernel, by decide +kernel, by decide +kernel⟩,
    ⟨7, 65536, (modPc 7 (fun x => { x with pos := 2 ^ 48 - 1 }) (rig .idle)), by decide +kernel, by decide +kernel, by decide +kernel⟩,
    ⟨7, (-65536), (rig .idle), by decide +kernel, by decide +kernel, by decide +kernel⟩,
    ⟨1, 1000, 1, rig .idle, _, by decide +kernel, by decide +kernel, rfl, sincos_good⟩,
    ⟨1, 0, 0, (modPc 1 (fun x => { x with bad := 2 }) (rig .idle)), by decide +kernel⟩,
    ⟨1, 0, 0, (modPc 1 (fun x => { x with fault := true }) (rig .idle)), by decide +kernel⟩,
    ⟨1, (modPc 1 (fun x => { x with fault := true, good := 1024 }) (rig .idle)), by decide +kernel, by decide +kernel⟩,
    ⟨1, (modPc 1 (fun x => { x with samples := [0, 0, 0, 0] }) (rig .idle)), [0, 0, 0, 0, 0], 0, by decide +kernel, by decide +kernel,
        by decide +kernel, by decide +kernel, by decide +kernel, by decide +kernel⟩,
    ⟨1, 2, by decide +kernel, by decide +kernel⟩⟩

/-- What each clause of PositionChannels assumes is met. -/
theorem test_witness_PositionChannels :
    (∃ (n : Fin 8) (s : State) (s1 : State), pcHasIndex s n = true ∧ tooClose s n (pch s n).zAt = false ∧ fld s (R.POS_PCn_CAPCFG n) 6 6
      = 0 ∧ s1 = eeZ n (modPc n (fun x => { x with zAt := some s.now }) s) ∧ fld s1 (R.POS_PCn_CAPCFG n) 1 0 = 1) ∧
    (∃ (n : Fin 8) (s : State), pcHasIndex s n = true ∧ tooClose s n (pch s n).zAt = true) ∧
    (∃ (n : Fin 8) (s : State), pcUnused s n = false ∧ pcSinCos s n = false) ∧
    (∃ (n : Fin 8) (s : State), pcUnused s n = false ∧ pcSinCos s n = false ∧ (pch s n).valid = false) ∧
    (∃ (n : Fin 8) (s : State) (te : Nat) (l : List Nat), pcUnused s n = false ∧ pcSinCos s n = false ∧ (pch s n).hist = te :: l ∧ (pch
      s n).valid = true ∧ 2 * ((pch s n).mean.2 / max 1 (pch s n).mean.1) < s.now - te ∧ (pch s n).dir = false ∧ pcGens s n = []) ∧
    (∃ (n : Nat) (p : Nat) (e : Nat) (t : Nat) (s : State), (¬(fld s (R.POS_PCn_CAPCFG n) 5 5 = 1 ∧ fld s (R.POS_PCn_FLAG n) 4 4 = 1)) ∧
      fld s (R.POS_PCn_CAPCFG n) 15 15 = 0) ∧
    (∃ (n : Fin 8) (s : State), windowOpen s 0 (R.POS_PCn_CMD n) true = true ∧ 4 ≤ s.glb.state.code ∧ s.glb.state ≠ .shutdown ∧ pcUnused
      s n = false ∧ pcInUse s n = false) ∧
    (∃ (n : Fin 8) (s : State), windowOpen s 0 (R.POS_PCn_CMD n) true = true ∧ s.glb.state ≠ .off ∧ (posEarly s n = true ∨ pcInUse s n =
      true ∨ s.glb.state = .shutdown)) ∧
    (∃ (n : Fin 8) (s : State), windowOpen s 0 (R.POS_PCn_CMD n) true = true ∧ s.glb.state ≠ .off ∧ (posEarly s n = true ∨ pcInUse s n =
      true ∨ s.glb.state = .shutdown)) ∧
    (∃ (n : Fin 8) (s : State), windowOpen s 0 (R.POS_PCn_CMD n) true = true ∧ 4 ≤ s.glb.state.code ∧ pcUnused s n = false) ∧
    (∃ (n : Fin 8) (m : Fin 4) (s : State), windowOpen s 0 (R.POS_PCn_CMPm_CMD n m) true = true ∧ 4 ≤ s.glb.state.code ∧ s.glb.state ≠
      .shutdown ∧ pcUnused s n = false ∧ cmpArmed s n m = false) ∧
    (∃ (n : Fin 8) (m : Fin 4) (s : State), windowOpen s 0 (R.POS_PCn_CMPm_CMD n m) true = true ∧ s.glb.state ≠ .off ∧ (posEarly s n =
      true ∨ cmpArmed s n m = true ∨ s.glb.state = .shutdown)) ∧
    (∃ (n : Fin 8) (m : Fin 4) (s : State), windowOpen s 0 (R.POS_PCn_CMPm_CMD n m) true = true ∧ 4 ≤ s.glb.state.code ∧ pcUnused s n =
      false) ∧
    (∃ (n : Fin 8) (s : State), windowOpen s 0 (R.POS_PCn_POS_INT n) false = true) ∧
    (∃ (n : Fin 8) (s : State) (p : Nat), p = (rd s (R.POS_PCn_PRESET_INT n)).toNat * 65536 + fld s (R.POS_PCn_PRESET_FRAC n) 15 0 ∧
      pcGens s n = [] ∧ (∀ e < 4, eeSource s e ≠ n)) :=
  ⟨⟨7, (wr (R.POS_PCn_CAPCFG 7) 1 (rig .idle)), _, by decide +kernel, by decide +kernel, by decide +kernel, rfl, by decide +kernel⟩,
    ⟨7, (modPc 7 (fun x => { x with zAt := some 0 }) (rig .idle)), by decide +kernel, by decide +kernel⟩,
    ⟨7, (rig .idle), by decide +kernel, by decide +kernel⟩,
    ⟨7, (rig .idle), by decide +kernel, by decide +kernel, by decide +kernel⟩,
    ⟨7, { modPc 7 (fun x => { x with hist := [0], valid := true }) (rigWith [(0x13C, 0xFF)] [] .idle) with now := 3 }, 0, [],
        by decide +kernel, by decide +kernel, by decide +kernel, by decide +kernel, by decide +kernel, by decide +kernel, by decide +kernel⟩,
    ⟨7, 0, 0, 0, (rig .idle), by decide +kernel, by decide +kernel⟩,
    ⟨7, (rig .idle), by decide +kernel, by decide +kernel, by decide +kernel, by decide +kernel, by decide +kernel⟩,
    ⟨7, (rig .shutdown), by decide +kernel, by decide +kernel, by decide +kernel⟩,
    ⟨5, (rig .idle), by decide +kernel, by decide +kernel, by decide +kernel⟩,
    ⟨7, (rig .linkTrain), by decide +kernel, by decide +kernel, by decide +kernel⟩,
    ⟨7, 3, (rig .idle), by decide +kernel, by decide +kernel, by decide +kernel, by decide +kernel, by decide +kernel⟩,
    ⟨7, 3, (wr (R.POS_PCn_CMPm_STAT 7 3) 1 (rig .idle)), by decide +kernel, by decide +kernel, by decide +kernel⟩,
    ⟨7, 3, (rig .linkTrain), by decide +kernel, by decide +kernel, by decide +kernel⟩,
    ⟨7, (rig .idle), by decide +kernel⟩,
    ⟨1, (rig .idle), 0, by decide +kernel, by decide +kernel, by decide +kernel⟩⟩

/-- What each clause of ComparesAndOutputs assumes is met. -/
theorem test_witness_ComparesAndOutputs :
    (∃ (n : Nat) (m : Nat) (s : State), cmpSpace s n m = 0) ∧
    (∃ (n : Nat) (m : Nat) (s : State), (fld s (R.POS_PCn_CMPm_CTL n m) 3 2 = 0 ∨ fld s (R.POS_PCn_CMPm_CTL n m) 3 2 = 3)) ∧
    (∃ (n : Nat) (m : Nat) (s : State), (fld s (R.POS_PCn_CMPm_CTL n m) 3 2 = 0 ∨ fld s (R.POS_PCn_CMPm_CTL n m) 3 2 = 3)) ∧
    (∃ (n : Nat) (m : Nat) (s : State), fld s (R.POS_PCn_CMPm_CTL n m) 3 2 = 1) ∧
    (∃ (n : Nat) (m : Nat) (s : State), fld s (R.POS_PCn_CMPm_CTL n m) 3 2 = 2) ∧
    (∃ (rev : Bool) (mark : Nat) (p : Nat), (if rev then 0 < diff48 mark p else 0 < diff48 p mark)) ∧
    (∃ (rev : Bool) (mark : Nat) (p : Nat), (if rev then diff48 mark p ≤ 0 else diff48 p mark ≤ 0)) ∧
    (∃ (n : Nat) (old : Nat) (m : Nat) (s : State), cmpArmed s n m = false) ∧
    (∃ (e : Fin 4) (s : State), (holding s = true ∨ eeSource s e = 0xFF ∨ eeDiff s e = 0)) ∧
    (∃ (e : Fin 4) (s : State) (c : Nat), holding s = false ∧ eeSource s e ≠ 0xFF ∧ 0 < eeDiff s e ∧ fld s (R.POS_EEn_CFG e) 8 8 = 0 ∧ c
      = narrow 32 ((rd s (R.POS_EEn_OUT e)).toNat + 1)) ∧
    (∃ (e : Fin 4) (s : State) (c : Nat), holding s = false ∧ eeSource s e ≠ 0xFF ∧ eeDiff s e < 0 ∧ fld s (R.POS_EEn_CFG e) 8 8 = 0 ∧ c
      = narrow 32 ((rd s (R.POS_EEn_OUT e)).toNat - 1)) :=
  ⟨⟨7, 3, (rig .idle), by decide +kernel⟩,
    ⟨7, 3, (rig .idle), by decide +kernel⟩,
    ⟨7, 3, (wr (R.POS_PCn_CMPm_CTL 7 3) 0xC (rig .idle)), by decide +kernel⟩,
    ⟨7, 3, (wr (R.POS_PCn_CMPm_CTL 7 3) 4 (rig .idle)), by decide +kernel⟩,
    ⟨7, 3, (wr (R.POS_PCn_CMPm_CTL 7 3) 8 (rig .idle)), by decide +kernel⟩,
    ⟨true, 1, 0, by decide +kernel⟩,
    ⟨false, 0, 0, by decide +kernel⟩,
    ⟨7, 0, 3, (rig .idle), by decide +kernel⟩,
    ⟨3, (rig .idle), by decide +kernel⟩,
    ⟨3, (modPc 7 (fun x => { x with pos := 65536 }) (rig .idle)), 1, by decide +kernel, by decide +kernel, by decide +kernel,
        by decide +kernel, by decide +kernel⟩,
    ⟨3, (wr (R.POS_EEn_OUT 3) 1 (rig .idle)), 0, by decide +kernel, by decide +kernel, by decide +kernel, by decide +kernel,
        by decide +kernel⟩⟩

/-- What each clause of AxisMotion assumes is met. -/
theorem test_witness_AxisMotion :
    (∃ (n : Fin 8) (s : State), axUsed s n = true ∧ (ax s n).st ≠ .off ∧ (ax s n).st ≠ .fault ∧ (∀ o, o ∈ [R.STP_SAn_EDEC n,
      R.STP_SAn_SOFTMIN n, R.STP_SAn_SOFTMAX n, R.STP_SAn_STALLWIN n, R.STP_SAn_LIMCFG n] → invarAgrees s o = true)) ∧
    (∃ (n : Fin 8) (s : State), axUsed s n = false) ∧
    (∃ (n : Fin 8) (s : State), axUsed s n = true ∧ ((ax s n).st = .off ∨ (ax s n).st = .fault)) ∧
    (∃ (n : Fin 8) (s : State), axUsed s n = true ∧ ((ax s n).st = .off ∨ (ax s n).st = .fault)) ∧
    (∃ (n : Nat) (s : State), (ax s n).st ≠ .moving) ∧
    (∃ (n : Nat) (neg : Bool) (s : State), (ax s n).st = .moving ∧ s.ss.phase = 0 ∧ (ax s n).prof.goal = .vel neg) ∧
    (∃ (n : Nat) (s : State), (ax s n).st ≠ .homing) ∧
    (∃ (n : Nat) (neg : Bool) (t : Nat) (s : State), (ax s n).st = .homing ∧ (ax s n).phase = 2 ∧ (ax s n).prof.goal = .vel neg ∧ (ax s
      n).after = some t ∧ (if neg then (ax s n).prof.dist t ≤ 0 else 0 ≤ (ax s n).prof.dist t)) ∧
    (∃ (n : Nat) (neg : Bool) (t : Nat) (s : State), (ax s n).st = .homing ∧ (ax s n).phase = 2 ∧ (ax s n).prof.goal = .vel neg ∧ (ax s
      n).after = some t ∧ (if neg then (ax s n).prof.dist t ≤ 0 else 0 ≤ (ax s n).prof.dist t)) ∧
    (∃ (x : Prof) (t : Nat) (e : Nat), (x.goal = .pos t ∨ x.goal = .jog t) ∧ (x.next e).2.2 = true) ∧
    (∃ (x : Prof) (e : Nat), x.goal = .emerg ∧ 0 < x.v) ∧
    (∃ (n : Fin 8) (va : BitVec 24) (vb : BitVec 24) (s : State), (axUsed s n = false ∨ (ax s n).st = .off ∨ (ax s n).dark = true)) ∧
    (∃ (n : Fin 8) (va : BitVec 24) (vb : BitVec 24) (s : State), axUsed s n = true ∧ (ax s n).st ≠ .off ∧ (ax s n).dark = false ∧ (ax s
      n).strong = false ∧ invarAgrees s (R.STP_SAn_IRUN n) = true) ∧
    (∃ (s : State) (n : Nat) (a : Nat) (b : Nat), microstep s n (axInt s n % 256) = (a, b) ∧ bitOf (axInputs s n) 4 = false) ∧
    (∃ (n : Fin 8) (va : BitVec 24) (vb : BitVec 24) (s : State) (s1 : State), axUsed s n = true ∧ (ax s n).st ≠ .off ∧ (ax s n).dark =
      false ∧ (ax s n).strong = true ∧ s1 = adcPut (41 + 2 * n.val) (vb.toNat / 1000) (adcPut (40 + 2 * n.val) (va.toNat / 1000) s) ∧
      invarAgrees s1 (R.STP_SAn_IRUN n) = true) ∧
    (∃ (s : State) (n : Nat) (set_ : Int) (ma : Nat), (ax s n).strong = true ∧ (ax s n).low = false ∧ 0 < set_ ∧ ma < set_.natAbs * fld
      s (R.STP_SAn_IRUN n) 15 0 / 4096) ∧
    (∃ (s : State) (n : Nat) (set_ : Int) (ma : Nat) (off : Nat), (ax s n).strong = true ∧ (ax s n).low = false ∧ 0 < set_ ∧ set_.natAbs
      * fld s (R.STP_SAn_IRUN n) 15 0 / 4096 ≤ ma ∧ off = min (pwmPeriod s n) (100 * fld s (R.STP_SAn_PWM n) 23 16)) ∧
    (∃ (n : Fin 8) (s : State), axUsed s n = true ∧ (ax s n).dark = false ∧ axIsTransport s n = false ∧ axIsCarriage s n = false) ∧
    (∃ (n : Fin 8) (s : State), axUsed s n = true ∧ (ax s n).dark = false ∧ axIsTransport s n = true ∧ haltable s = true) ∧
    (∃ (n : Fin 8) (limB : Bool) (s : State) (s1 : State), axUsed s n = true ∧ (ax s n).st = .moving ∧ (if limB then 0 < (ax s n).prof.v
      else (ax s n).prof.v < 0) ∧ axIsTransport s n = false ∧ s1 = modAx n (fun x => if limB then { x with limb := true } else
      { x with lima := true }) s) ∧
    (∃ (n : Fin 8) (limB : Bool) (s : State) (s1 : State), axUsed s n = true ∧ (ax s n).st = .moving ∧ (if limB then 0 < (ax s n).prof.v
      else (ax s n).prof.v < 0) ∧ axIsTransport s n = false ∧ s1 = modAx n (fun x => if limB then { x with limb := true } else
      { x with lima := true }) s) ∧
    (∃ (n : Fin 8) (s : State), (ax s n).st = .homing) ∧
    (∃ (n : Fin 8) (s : State), (ax s n).st = .hold ∧ (ax s n).prof.v = 0) ∧
    (∃ (n : Fin 8) (active : Bool) (first : FirstEdge) (chans : Vector (BitVec 56) 8) (s : State) (s1 : State), axUsed s n = true ∧ s1 =
      modAx n (fun x => if homeSeparate s n then { x with home := active } else if homeNeg s n then { x with lima := active } else
      { x with limb := active }) s ∧ (∀ c < 8, fld s (R.POS_PCn_CAPCFG c) 1 0 ≠ 2)) ∧
    (∃ (n : Nat) (pos : Nat) (t : Nat) (s : State), (ax s n).st = .homing ∧ (ax s n).edge = false ∧ (ax s n).phase = 3 ∧ (ax s
      n).phaseAt < t) ∧
    (∃ (n : Nat) (active : Bool) (pos : Nat) (t : Nat) (s : State), (ax s n).edge = true) ∧
    (∃ (n : Nat) (active : Bool) (pos : Nat) (t : Nat) (s : State), (ax s n).phase = 3 ∧ t ≤ (ax s n).phaseAt) :=
  ⟨⟨7, (modAx 7 (fun x => { x with st := .hold }) (rig .idle)), by decide +kernel, by decide +kernel, by decide +kernel,
        by decide +kernel⟩,
    ⟨6, (rig .idle), by decide +kernel⟩,
    ⟨7, (modAx 7 (fun x => { x with st := .fault }) (rig .idle)), by decide +kernel, by decide +kernel⟩,
    ⟨7, (rig .idle), by decide +kernel, by decide +kernel⟩,
    ⟨7, (modAx 7 (fun x => { x with st := .hold }) (rig .idle)), by decide +kernel⟩,
    ⟨7, true, (modAx 7 (fun x => { x with st := .moving, prof := { x.prof with goal := .vel true } }) (rig .idle)), by decide +kernel,
        by decide +kernel, by decide +kernel⟩,
    ⟨7, (modAx 7 (fun x => { x with st := .moving }) (rig .idle)), by decide +kernel⟩,
    ⟨7, true, 0, (modAx 7 (fun x => { x with st := .homing, phase := 2, prof := { x.prof with goal := .vel true }, after := some 0 })
        (rig .idle)), by decide +kernel, by decide +kernel, by decide +kernel, by decide +kernel, by decide +kernel⟩,
    ⟨7, false, 1, (modAx 7 (fun x => { x with st := .homing, phase := 2, prof := { x.prof with goal := .vel false }, after := some 1 })
        (rig .idle)), by decide +kernel, by decide +kernel, by decide +kernel, by decide +kernel, by decide +kernel⟩,
    ⟨{ Prof.reset with goal := .pos 0 }, 0, 0, by decide +kernel, by decide +kernel⟩,
    ⟨{ Prof.reset with goal := .emerg, v := 1 }, 1, by decide +kernel, by decide +kernel⟩,
    ⟨7, 0, 0, (rig .idle), by decide +kernel⟩,
    ⟨7, 0, 0, (modAx 7 (fun x => { x with st := .hold }) (rig .idle)), by decide +kernel, by decide +kernel, by decide +kernel,
        by decide +kernel, by decide +kernel⟩,
    ⟨(rig .idle), 7, 4095, 0, by decide +kernel, by decide +kernel⟩,
    ⟨7, 0, 0, (modAx 7 (fun x => { x with st := .hold, strong := true }) (rig .idle)), _, by decide +kernel, by decide +kernel,
        by decide +kernel, by decide +kernel, rfl, by decide +kernel⟩,
    ⟨(wr (R.STP_SAn_IRUN 7) 1000 (modAx 7 (fun x => { x with st := .hold, strong := true, low := false }) (rig .idle))), 7, 4095, 0,
        by decide +kernel, by decide +kernel, by decide +kernel, by decide +kernel⟩,
    ⟨(wr (R.STP_SAn_IRUN 7) 1000 (modAx 7 (fun x => { x with st := .hold, strong := true, low := false }) (rig .idle))), 7, 1, 0, _,
        by decide +kernel, by decide +kernel, by decide +kernel, by decide +kernel, rfl⟩,
    ⟨7, (modAx 7 (fun x => { x with st := .hold }) (rig .idle)), by decide +kernel, by decide +kernel, by decide +kernel,
        by decide +kernel⟩,
    ⟨0, (rig .print), by decide +kernel, by decide +kernel, by decide +kernel, by decide +kernel⟩,
    ⟨7, true, (modAx 7 (fun x => { x with st := .moving, prof := { Prof.reset with v := 1 } }) (rig .idle)), _, by decide +kernel,
        by decide +kernel, by decide +kernel, by decide +kernel, rfl⟩,
    ⟨7, false, (modAx 7 (fun x => { x with st := .moving, prof := { Prof.reset with v := -1 } }) (rig .idle)), _, by decide +kernel,
        by decide +kernel, by decide +kernel, by decide +kernel, rfl⟩,
    ⟨7, (modAx 7 (fun x => { x with st := .homing }) (rig .idle)), by decide +kernel⟩,
    ⟨7, (modAx 7 (fun x => { x with st := .hold }) (rig .idle)), by decide +kernel, by decide +kernel⟩,
    ⟨7, true, ⟨0, 0⟩, (Vector.replicate 8 0), (rig .idle), _, by decide +kernel, rfl, by decide +kernel⟩,
    ⟨7, 0, 1, (modAx 7 (fun x => { x with st := .homing, phase := 3 }) (rig .idle)), by decide +kernel, by decide +kernel,
        by decide +kernel, by decide +kernel⟩,
    ⟨7, true, 0, 0, (modAx 7 (fun x => { x with st := .homing, phase := 1, edge := true }) (rig .idle)), by decide +kernel⟩,
    ⟨7, true, 0, 0, (modAx 7 (fun x => { x with st := .homing, phase := 3 }) (rig .idle)), by decide +kernel, by decide +kernel⟩⟩

/-- What each clause of AxisCommands assumes is met. -/
theorem test_witness_AxisCommands :
    (∃ (n : Fin 8) (s : State) (u : State), windowOpen s 0 (R.STP_SAn_CMD n) true = true ∧ u = hostAccess s ∧ stpOpen u n 1 = true ∧ (ax
      u n).st = .off) ∧
    (∃ (n : Fin 8) (s : State) (u : State), windowOpen s 0 (R.STP_SAn_CMD n) true = true ∧ u = hostAccess s ∧ stpOpen u n 2 = true ∧ (ax
      u n).st ≠ .off ∧ (ax u n).st ≠ .fault) ∧
    (∃ (n : Fin 8) (s : State) (u : State), windowOpen s 0 (R.STP_SAn_CMD n) true = true ∧ u = hostAccess s ∧ stpOpen u n 3 = true ∧
      ((ax u n).st = .hold ∨ (ax u n).st = .moving) ∧ useSoft 2 n u = u ∧ axBadTarget u n (rd u (R.STP_SAn_TGT n)).toNat = false) ∧
    (∃ (n : Fin 8) (s : State) (u : State), windowOpen s 0 (R.STP_SAn_CMD n) true = true ∧ u = hostAccess s ∧ stpOpen u n 3 = true ∧
      ((ax u n).st = .hold ∨ (ax u n).st = .moving) ∧ useSoft 2 n u = u ∧ axBadTarget u n (rd u (R.STP_SAn_TGT n)).toNat = true) ∧
    (∃ (n : Fin 8) (neg : Bool) (s : State) (u : State), windowOpen s 0 (R.STP_SAn_CMD n) true = true ∧ u = hostAccess s ∧ stpOpen u n 4
      = true ∧ ((ax u n).st = .hold ∨ (ax u n).st = .moving) ∧ useSoft 2 n u = u ∧ (if neg then (ax u n).lima else (ax u n).limb) = false) ∧
    (∃ (n : Fin 8) (neg : Bool) (s : State) (u : State), windowOpen s 0 (R.STP_SAn_CMD n) true = true ∧ u = hostAccess s ∧ stpOpen u n 4
      = true ∧ ((ax u n).st = .hold ∨ (ax u n).st = .moving) ∧ useSoft 2 n u = u ∧ (if neg then (ax u n).lima else (ax u n).limb) = false) ∧
    (∃ (n : Fin 8) (s : State) (u : State), windowOpen s 0 (R.STP_SAn_CMD n) true = true ∧ u = hostAccess s ∧ stpOpen u n 5 = true ∧ (ax
      u n).st = .moving) ∧
    (∃ (n : Fin 8) (s : State) (u : State), windowOpen s 0 (R.STP_SAn_CMD n) true = true ∧ u = hostAccess s ∧ stpOpen u n 6 = true ∧
      ((ax u n).st = .moving ∨ (ax u n).st = .homing)) ∧
    (∃ (n : Fin 8) (s : State) (u : State), windowOpen s 0 (R.STP_SAn_CMD n) true = true ∧ u = hostAccess s ∧ stpOpen u n 7 = true ∧ (ax
      u n).st = .hold) ∧
    (∃ (n : Fin 8) (s : State) (u : State), windowOpen s 0 (R.STP_SAn_CMD n) true = true ∧ u = hostAccess s ∧ stpOpen u n 8 = true ∧
      ((ax u n).st = .off ∨ (ax u n).st = .hold)) ∧
    (∃ (n : Fin 8) (s : State) (u : State), windowOpen s 0 (R.STP_SAn_CMD n) true = true ∧ u = hostAccess s ∧ stpOpen u n 9 = true ∧ (ax
      u n).st = .fault) :=
  ⟨⟨7, (rig .idle), _, by decide +kernel, rfl, by decide +kernel, by decide +kernel⟩,
    ⟨7, (modAx 7 (fun x => { x with st := .homing }) (rig .safeHold)), _, by decide +kernel, rfl, by decide +kernel, by decide +kernel,
        by decide +kernel⟩,
    ⟨7, (modAx 7 (fun x => { x with st := .moving }) (rig .idle)), _, by decide +kernel, rfl, by decide +kernel, by decide +kernel,
        by decide +kernel, by decide +kernel⟩,
    ⟨7, (wr (R.STP_SAn_TGT 7) 0xFFFFFFFF (modAx 7 (fun x => { x with st := .hold, lima := true }) (rig .idle))), _, by decide +kernel,
        rfl, by decide +kernel, by decide +kernel, by decide +kernel, by decide +kernel⟩,
    ⟨7, true, (modAx 7 (fun x => { x with st := .hold }) (rig .idle)), _, by decide +kernel, rfl, by decide +kernel, by decide +kernel,
        by decide +kernel, by decide +kernel⟩,
    ⟨7, false, (modAx 7 (fun x => { x with st := .moving, lima := true }) (rig .idle)), _, by decide +kernel, rfl, by decide +kernel,
        by decide +kernel, by decide +kernel, by decide +kernel⟩,
    ⟨7, (modAx 7 (fun x => { x with st := .moving }) (rig .print)), _, by decide +kernel, rfl, by decide +kernel, by decide +kernel⟩,
    ⟨7, (modAx 7 (fun x => { x with st := .homing }) (rig .idle)), _, by decide +kernel, rfl, by decide +kernel, by decide +kernel⟩,
    ⟨7, (modAx 7 (fun x => { x with st := .hold }) (rig .idle)), _, by decide +kernel, rfl, by decide +kernel, by decide +kernel⟩,
    ⟨7, (modAx 7 (fun x => { x with st := .hold }) (rig .idle)), _, by decide +kernel, rfl, by decide +kernel, by decide +kernel⟩,
    ⟨7, (modAx 7 (fun x => { x with st := .fault }) (rig .shutdown)), _, by decide +kernel, rfl, by decide +kernel, by decide +kernel⟩⟩

/-- What each clause of AxisCommandsRefused assumes is met. -/
theorem test_witness_AxisCommandsRefused :
    (∃ (n : Fin 8) (s : State) (u : State) (c : Instr) (cmd : Nat), windowOpen s 0 (R.STP_SAn_CMD n) true = true ∧ u = hostAccess s ∧
      u.glb.state ≠ .off ∧ stpOpen u n cmd = false ∧ (c, cmd) ∈ [(Instr.stpEnable n, 1), (.stpDisable n, 2), (.stpMove n, 3), (.stpJog n
      true, 4), (.stpJog n false, 4), (.stpStop n, 5), (.stpEstop n, 6), (.stpHome n, 7), (.stpSetpos n, 8), (.stpClrfault n true, 9),
      (.stpClrfault n false, 9)]) ∧
    (∃ (n : Fin 8) (s : State) (u : State) (c : Instr) (cmd : Nat), windowOpen s 0 (R.STP_SAn_CMD n) true = true ∧ u = hostAccess s ∧
      u.glb.state ≠ .off ∧ stpOpen u n cmd = false ∧ (c, cmd) ∈ [(Instr.stpEnable n, 1), (.stpDisable n, 2), (.stpMove n, 3), (.stpJog n
      true, 4), (.stpJog n false, 4), (.stpStop n, 5), (.stpEstop n, 6), (.stpHome n, 7), (.stpSetpos n, 8), (.stpClrfault n true, 9),
      (.stpClrfault n false, 9)]) ∧
    (∃ (n : Fin 8) (s : State) (u : State) (c : Instr) (cmd : Nat), windowOpen s 0 (R.STP_SAn_CMD n) true = true ∧ u = hostAccess s ∧
      u.glb.state ≠ .off ∧ stpOpen u n cmd = false ∧ (c, cmd) ∈ [(Instr.stpEnable n, 1), (.stpDisable n, 2), (.stpMove n, 3), (.stpJog n
      true, 4), (.stpJog n false, 4), (.stpStop n, 5), (.stpEstop n, 6), (.stpHome n, 7), (.stpSetpos n, 8), (.stpClrfault n true, 9),
      (.stpClrfault n false, 9)]) ∧
    (∃ (s : State) (n : Nat) (cmd : Nat), axUsed s n = false) ∧
    (∃ (s : State) (n : Nat) (cmd : Nat), s.glb.state.code < 5) ∧
    (∃ (s : State) (n : Nat) (cmd : Nat), axOwned s n = true ∧ cmd ∈ [2, 3, 4, 5, 7, 8]) ∧
    (∃ (s : State) (n : Nat) (cmd : Nat), holding s = true ∧ cmd ≠ 2 ∧ cmd ≠ 9) ∧
    (∃ (s : State) (n : Nat), axUsed s n = true ∧ s.glb.state ∈ [GState.idle, .armed, .print, .stopping] ∧ axOwned s n = false) :=
  ⟨⟨6, (rig .idle), _, (.stpClrfault 6 false), 9, by decide +kernel, rfl, by decide +kernel, by decide +kernel, by decide +kernel⟩,
    ⟨7, (rig .linkTrain), _, (.stpEnable 7), 1, by decide +kernel, rfl, by decide +kernel, by decide +kernel, by decide +kernel⟩,
    ⟨0, { rig .print with ss := { Ss.reset with phase := 1 } }, _, (.stpSetpos 0), 8, by decide +kernel, rfl, by decide +kernel,
        by decide +kernel, by decide +kernel⟩,
    ⟨(rig .idle), 6, 1, by decide +kernel⟩,
    ⟨(rig .linkTrain), 7, 9, by decide +kernel⟩,
    ⟨{ rig .print with ss := { Ss.reset with phase := 1 } }, 0, 8, by decide +kernel, by decide +kernel⟩,
    ⟨(rig .shutdown), 7, 8, by decide +kernel, by decide +kernel, by decide +kernel⟩,
    ⟨(rig .stopping), 7, by decide +kernel, by decide +kernel, by decide +kernel⟩⟩

/-- What each clause of MotorStart assumes is met. -/
theorem test_witness_MotorStart :
    (∃ (n : Fin 4) (s : State), (mo s n).st = .sense ∧ senseSpeed s n = none) ∧
    (∃ (n : Fin 4) (v : Int) (s : State), (mo s n).st = .sense ∧ senseSpeed s n = some v ∧ (catchRpm s n : Int) ≤ v ∧ fld s
      (R.MOT_MCn_CFG n) 2 2 = 1 ∧ (focRpm s n : Int) ≤ v) ∧
    (∃ (n : Fin 4) (v : Int) (s : State), (mo s n).st = .sense ∧ senseSpeed s n = some v ∧ (catchRpm s n : Int) ≤ v ∧ fld s
      (R.MOT_MCn_CFG n) 2 2 = 1 ∧ v < focRpm s n) ∧
    (∃ (n : Fin 4) (v : Int) (s : State), (mo s n).st = .sense ∧ senseSpeed s n = some v ∧ v < 0 ∧ v ≤ -(revRpm s n : Int) ∧ fld s
      (R.MOT_MCn_CFG n) 3 3 = 1) ∧
    (∃ (n : Fin 4) (s : State), (mo s n).st = .align ∧ moEncoder s n = false) ∧
    (∃ (n : Fin 4) (s : State), (mo s n).st = .align ∧ moEncoder s n = true) ∧
    (∃ (n : Fin 4) (s : State), (mo s n).st = .revbrake ∧ (mo s n).revHold = true) ∧
    (∃ (n : Fin 4) (s : State), ((mo s n).st = .sense ∨ (mo s n).st = .revbrake) ∧ (mo s n).revFrom.isSome = true ∧ (mo s n).revHold =
      false) ∧
    (∃ (n : Nat) (s : State), moEncoder s n = true ∧ fld s (R.MOT_MCn_EOFS n) 16 16 = 1) ∧
    (∃ (x : Motor) (t : Nat) (now : Nat), x.revAt = some t) ∧
    (∃ (s : State) (n : Nat) (v : Int), moEncoder s n = true) ∧
    (∃ (n : Fin 4) (phase : Fin 3) (rising : Bool) (s : State), ((mo s n).st = .sense ∨ (mo s n).st = .reacq) ∧ (mo s n).zc.length < 6) ∧
    (∃ (n : Fin 4) (phase : Fin 3) (rising : Bool) (s : State), (mo s n).st = .reacq ∧ 6 ≤ (mo s n).zc.length) ∧
    (∃ (n : Fin 4) (s : State), (mo s n).st = .reacq ∧ (mo s n).fails < fld s (R.MOT_MCn_CFG n) 7 5) ∧
    (∃ (n : Fin 4) (s : State), (mo s n).st = .reacq ∧ fld s (R.MOT_MCn_CFG n) 7 5 ≤ (mo s n).fails ∧ moSev s n = .warn) ∧
    (∃ (n : Fin 4) (s : State), (mo s n).st = .coast ∧ (mo s n).wantBrake = false) ∧
    (∃ (n : Fin 4) (s : State), (mo s n).st = .coast ∧ (mo s n).wantBrake = true) ∧
    (∃ (n : Nat) (s : State), 16 * moSafeRpm s n ≤ (mo s n).speed.natAbs) :=
  ⟨⟨3, (modMo 3 (fun x => { x with st := .sense }) (rig .idle)), by decide +kernel, by decide +kernel⟩,
    ⟨3, 1000000, (modMo 3 (fun x => { x with st := .sense }) (wr (R.MOT_MCn_ENCRES 3) 60 (modPc 7 (fun x =>
        { x with valid := true, v := 1000000 }) (rig .idle)))), by decide +kernel, by decide +kernel, by decide +kernel, by decide +kernel,
        by decide +kernel⟩,
    ⟨3, 4000, (wr (R.MOT_MCn_CATCH 3) 0x00C80001 (modMo 3 (fun x => { x with st := .sense }) (wr (R.MOT_MCn_ENCRES 3) 60 (modPc 7 (fun x
        => { x with valid := true, v := 4000 }) (rig .idle))))), by decide +kernel, by decide +kernel, by decide +kernel, by decide +kernel,
        by decide +kernel⟩,
    ⟨3, (-1000000), (modMo 3 (fun x => { x with st := .sense }) (wr (R.MOT_MCn_ENCRES 3) 60 (modPc 7 (fun x =>
        { x with valid := true, v := -1000000 }) (rig .idle)))), by decide +kernel, by decide +kernel, by decide +kernel, by decide +kernel,
        by decide +kernel⟩,
    ⟨0, (modMo 0 (fun x => { x with st := .align }) (rig .idle)), by decide +kernel, by decide +kernel⟩,
    ⟨3, (modMo 3 (fun x => { x with st := .align }) (rig .idle)), by decide +kernel, by decide +kernel⟩,
    ⟨3, (modMo 3 (fun x => { x with st := .revbrake, revHold := true }) (rig .idle)), by decide +kernel, by decide +kernel⟩,
    ⟨3, (modMo 3 (fun x => { x with st := .revbrake, revFrom := some 0 }) (rig .idle)), by decide +kernel, by decide +kernel,
        by decide +kernel⟩,
    ⟨3, (wr (R.MOT_MCn_EOFS 3) 0x10000 (rig .idle)), by decide +kernel, by decide +kernel⟩,
    ⟨{ Motor.reset with revAt := some 5 }, 5, 400005, by decide +kernel⟩,
    ⟨(wr (R.MOT_MCn_EOFS 3) 0x10000 (rig .idle)), 3, 0, by decide +kernel⟩,
    ⟨3, 2, true, (modMo 3 (fun x => { x with st := .sense, zc := List.replicate 5 (0, 0) }) (rig .idle)), by decide +kernel,
        by decide +kernel⟩,
    ⟨3, 2, false, (modMo 3 (fun x => { x with st := .reacq, zc := List.replicate 6 (0, 0) }) (rig .idle)), by decide +kernel,
        by decide +kernel⟩,
    ⟨3, (modMo 3 (fun x => { x with st := .reacq, fails := 2 }) (rig .idle)), by decide +kernel, by decide +kernel⟩,
    ⟨3, (modMo 3 (fun x => { x with st := .reacq, fails := 3 }) (rig .idle)), by decide +kernel, by decide +kernel, by decide +kernel⟩,
    ⟨3, (modMo 3 (fun x => { x with st := .coast }) (rig .idle)), by decide +kernel, by decide +kernel⟩,
    ⟨3, (modMo 3 (fun x => { x with st := .coast, wantBrake := true }) (rig .idle)), by decide +kernel, by decide +kernel⟩,
    ⟨3, (rig .idle), by decide +kernel⟩⟩

/-- What each clause of MotorPeriods assumes is met. -/
theorem test_witness_MotorPeriods :
    (∃ (n : Fin 4) (s : State), moUsed s n = true ∧ moSev s n = .warn) ∧
    (∃ (n : Fin 4) (s : State), moUsed s n = true ∧ moSev s n = .warn) ∧
    (∃ (n : Fin 4) (phase : Fin 3) (ma : BitVec 32) (s : State), moUsed s n = true ∧ moSev s n = .warn ∧ invarAgrees s (R.MOT_MCn_ILIM
      n) = true ∧ fld s (R.MOT_MCn_ILIM n) 31 16 < (signed 32 ma.toNat).natAbs) ∧
    (∃ (n : Fin 4) (phase : Fin 3) (ma : BitVec 32) (s : State), moUsed s n = true ∧ moSev s n = .warn ∧ invarAgrees s (R.MOT_MCn_ILIM
      n) = true ∧ fld s (R.MOT_MCn_ILIM n) 31 16 < (signed 32 ma.toNat).natAbs) ∧
    (∃ (n : Fin 4) (phase : Fin 3) (ma : BitVec 32) (s : State), moUsed s n = true ∧ invarAgrees s (R.MOT_MCn_ILIM n) = true ∧ (signed
      32 ma.toNat).natAbs ≤ fld s (R.MOT_MCn_ILIM n) 31 16) ∧
    (∃ (n : Fin 4) (s : State), ((mo s n).st = .run ∨ (mo s n).st = .decel ∨ (mo s n).st = .startup) ∧ moSev s n = .warn ∧ invarAgrees s
      (R.MOT_MCn_VBUS n) = true) ∧
    (∃ (n : Fin 4) (phase : Fin 3) (ma : BitVec 32) (s : State), moUsed s n = true ∧ moSev s n = .halt ∧ haltable s = true ∧ invarAgrees
      s (R.MOT_MCn_ILIM n) = true ∧ fld s (R.MOT_MCn_ILIM n) 31 16 < (signed 32 ma.toNat).natAbs) ∧
    (∃ (n : Nat) (s : State), n < 4) ∧
    (∃ (n : Fin 4) (uv : Vector (BitVec 24) 3) (on : Vector (BitVec 16) 3) (volts : MotorVolts) (s : State), moUsed s n = false) ∧
    (∃ (n : Fin 4) (uv : Vector (BitVec 24) 3) (on : Vector (BitVec 16) 3) (volts : MotorVolts) (s : State) (u : List Int) (r : Nat) (s1
      : State), moUsed s n = true ∧ (∀ o, o ∈ [R.MOT_MCn_ILIM n, R.MOT_MCn_LOCK n, R.MOT_MCn_BRKFW n, R.MOT_MCn_VBUS n, R.MOT_MCn_SOFTMIN
      n, R.MOT_MCn_SOFTMAX n, R.MOT_MCn_LIMCFG n] → invarAgrees s o = true) ∧ u = uv.toList.map (fun x => max (-200000) (min 200000
      (signed 24 x.toNat))) ∧ r = fld s (R.MOT_MCn_SHUNT n) 15 0 ∧ s1 = modMo n (fun x =>
      { x with cur := phaseCurrents r (fld s (R.MOT_MCn_SHUNT n) 23 16) u (on.toList.map BitVec.toNat) (mo s n).cur, vbus := busOf s n volts.bus.toNat, phv := if fld s (R.MOT_MCn_VSENSE n) 5 0 = 0x3F then x.phv else volts.ph.toList.map (fun p => p.toNat * fld s (R.MOT_MCn_VSENSE n) 31 16 / 256), per := (x.per + 1) % (4 * max 1 (moPwmKhz s n)), chop := (x.st = .revbrake || x.st = .brake || x.shorted) && (phaseCurrents r (fld s (R.MOT_MCn_SHUNT n) 23 16) u (on.toList.map BitVec.toNat) (mo s n).cur).any (fun i => fld s (R.MOT_MCn_BRKFW n) 15 0 < i.natAbs) })
      (moSamples n u volts.bus.toNat (volts.ph.toList.map BitVec.toNat) s)) ∧
    (∃ (r : Nat) (tmin : Nat) (a : Int) (b : Int) (c : Int) (x : Nat) (y : Nat) (z : Nat) (prev : List Int), tmin ≤ x ∧ tmin ≤ y ∧ tmin
      ≤ z) ∧
    (∃ (r : Nat) (tmin : Nat) (a : Int) (b : Int) (c : Int) (x : Nat) (y : Nat) (z : Nat) (prev : List Int), tmin ≤ x ∧ tmin ≤ y ∧ z <
      tmin) ∧
    (∃ (r : Nat) (tmin : Nat) (a : Int) (b : Int) (c : Int) (x : Nat) (y : Nat) (z : Nat) (prev : List Int), x < tmin ∧ z < tmin) ∧
    (∃ (d : Int) (tgt : Int) (acc : Int) (dec : Int), 0 ≤ acc ∧ 0 ≤ dec ∧ 0 ≤ d ∧ d ≤ tgt) ∧
    (∃ (x : Motor), x.st ∈ [MoSt.off, .sense, .reacq, .coast]) ∧
    (∃ (x : Motor), (x.st = .revbrake ∨ x.st = .brake)) ∧
    (∃ (t : Nat) (dt : Nat) (d : Nat), dt < min d (t - 2 * dt)) ∧
    (∃ (n : Fin 4) (s : State), (mo s n).cond = .coast) ∧
    (∃ (s : State) (n : Nat) (x : Motor), x.idref.natAbs ≤ fld s (R.MOT_MCn_ILIM n) 15 0) ∧
    (∃ (s : State) (n : Nat) (x : Motor), x.ramp = 0 ∧ x.st ≠ .decel ∧ x.iqReg.natAbs ≤ iqMax s n x) ∧
    (∃ (s : State) (n : Nat) (x : Motor), x.st = .decel ∧ fld s (R.MOT_MCn_VBUS n) 15 0 ≤ x.vbus ∧ 0 < x.speed) ∧
    (∃ (n : Fin 4) (s : State), (mo s n).st = .startup) :=
  ⟨⟨3, (modMo 3 (fun x => { x with st := .run }) (rig .idle)), by decide +kernel, by decide +kernel⟩,
    ⟨3, (modMo 3 (fun x => { x with st := .fault }) (rig .idle)), by decide +kernel, by decide +kernel⟩,
    ⟨3, 2, 0x7FFF, (modMo 3 (fun x => { x with st := .run }) (putInvar (R.MOT_MCn_ILIM 3) 0x7FFE0000 (rig .idle))), by decide +kernel,
        by decide +kernel, by decide +kernel, by decide +kernel⟩,
    ⟨3, 2, 0x7FFF, (modMo 3 (fun x => { x with st := .fault }) (putInvar (R.MOT_MCn_ILIM 3) 0x7FFE0000 (rig .idle))), by decide +kernel,
        by decide +kernel, by decide +kernel, by decide +kernel⟩,
    ⟨3, 2, 0x7FFF, (modMo 3 (fun x => { x with st := .run }) (putInvar (R.MOT_MCn_ILIM 3) 0x7FFF0000 (rig .idle))), by decide +kernel,
        by decide +kernel, by decide +kernel⟩,
    ⟨3, (modMo 3 (fun x => { x with st := .startup }) (rig .idle)), by decide +kernel, by decide +kernel, by decide +kernel⟩,
    ⟨3, 2, 1, (putInvar (R.MOT_MCn_ILIM 3) 0 (rigWith [(0x142, 1), (0x143, 3)] [] .print)), by decide +kernel, by decide +kernel,
        by decide +kernel, by decide +kernel, by decide +kernel⟩,
    ⟨3, (rig .idle), by decide +kernel⟩,
    ⟨2, (Vector.replicate 3 0), (Vector.replicate 3 0), ⟨0, (Vector.replicate 3 0)⟩, (rig .idle), by decide +kernel⟩,
    ⟨3, (Vector.replicate 3 0), (Vector.replicate 3 0), ⟨0, (Vector.replicate 3 0)⟩, (rig .idle), _, _, _, by decide +kernel,
        by decide +kernel, rfl, rfl, rfl⟩,
    ⟨1, 1, 0, 0, 0, 1, 1, 1, [], by decide +kernel, by decide +kernel, by decide +kernel⟩,
    ⟨1, 1, 0, 0, 0, 1, 1, 0, [], by decide +kernel, by decide +kernel, by decide +kernel⟩,
    ⟨1, 1, 0, 0, 0, 0, 0, 0, [], by decide +kernel, by decide +kernel⟩,
    ⟨1, 1, 0, 0, by decide +kernel, by decide +kernel, by decide +kernel, by decide +kernel⟩,
    ⟨Motor.reset, by decide +kernel⟩,
    ⟨{ Motor.reset with st := .brake }, by decide +kernel⟩,
    ⟨100, 10, 50, by decide +kernel⟩,
    ⟨3, (rig .idle), by decide +kernel⟩,
    ⟨(rig .idle), 3, Motor.reset, by decide +kernel⟩,
    ⟨(rig .idle), 3, { Motor.reset with iqReg := 0, st := .run }, by decide +kernel, by decide +kernel, by decide +kernel⟩,
    ⟨(rig .idle), 3, { Motor.reset with st := .decel, vbus := 0xFFFF, speed := 1 }, by decide +kernel, by decide +kernel,
        by decide +kernel⟩,
    ⟨3, (modMo 3 (fun x => { x with st := .startup }) (rig .idle)), by decide +kernel⟩⟩

/-- What each clause of MotorCommands assumes is met. -/
theorem test_witness_MotorCommands :
    (∃ (n : Fin 4) (s : State) (u : State), windowOpen s 0 (R.MOT_MCn_CMD n) true = true ∧ u = hostAccess s ∧ motOpen u n 1 = true ∧
      ((mo u n).st = .off ∨ (mo u n).st = .coast ∨ (mo u n).st = .brake) ∧ moCfgBad u n = false) ∧
    (∃ (n : Fin 4) (s : State) (u : State), windowOpen s 0 (R.MOT_MCn_CMD n) true = true ∧ u = hostAccess s ∧ motOpen u n 1 = true ∧
      ((mo u n).st = .off ∨ (mo u n).st = .coast ∨ (mo u n).st = .brake) ∧ moCfgBad u n = true) ∧
    (∃ (n : Fin 4) (s : State) (u : State), windowOpen s 0 (R.MOT_MCn_CMD n) true = true ∧ u = hostAccess s ∧ motOpen u n 2 = true ∧ (mo
      u n).st = .run) ∧
    (∃ (n : Fin 4) (s : State) (u : State), windowOpen s 0 (R.MOT_MCn_CMD n) true = true ∧ u = hostAccess s ∧ motOpen u n 2 = true ∧
      ((mo u n).st.starting = true ∨ (mo u n).st = .reacq)) ∧
    (∃ (n : Fin 4) (s : State) (u : State), windowOpen s 0 (R.MOT_MCn_CMD n) true = true ∧ u = hostAccess s ∧ motOpen u n 3 = true ∧
      ((mo u n).st = .run ∨ (mo u n).st = .decel ∨ (mo u n).st = .brake)) ∧
    (∃ (n : Fin 4) (s : State) (u : State), windowOpen s 0 (R.MOT_MCn_CMD n) true = true ∧ u = hostAccess s ∧ motOpen u n 4 = true ∧
      ((mo u n).st = .run ∨ (mo u n).st = .decel)) ∧
    (∃ (n : Fin 4) (s : State) (u : State), windowOpen s 0 (R.MOT_MCn_CMD n) true = true ∧ u = hostAccess s ∧ motOpen u n 5 = true ∧ (mo
      u n).st = .run ∧ moEncoder u n = true ∧ useSoft 1 n u = u ∧ moBadTarget u n (rd u (R.MOT_MCn_TGT n)).toNat = false) ∧
    (∃ (n : Fin 4) (s : State) (u : State), windowOpen s 0 (R.MOT_MCn_CMD n) true = true ∧ u = hostAccess s ∧ motOpen u n 5 = true ∧ (mo
      u n).st = .run ∧ moEncoder u n = false) ∧
    (∃ (n : Fin 4) (bus : BitVec 16) (s : State) (u : State), windowOpen s 0 (R.MOT_MCn_CMD n) true = true ∧ u = hostAccess s ∧ motOpen
      u n 6 = true ∧ (mo u n).st = .fault ∧ invarAgrees u (R.MOT_MCn_VBUS n) = true ∧ fld u (R.MOT_MCn_VBUS n) 31 16 ≤ busOf u n
      bus.toNat) ∧
    (∃ (n : Fin 4) (bus : BitVec 16) (s : State) (u : State) (c : Instr) (cmd : Nat), windowOpen s 0 (R.MOT_MCn_CMD n) true = true ∧ u =
      hostAccess s ∧ u.glb.state ≠ .off ∧ motOpen u n cmd = false ∧ (c, cmd) ∈ [(Instr.motStart n, 1), (.motStop n, 2), (.motCoast n, 3),
      (.motEstop n, 4), (.motMove n, 5), (.motClrfault n false bus, 6), (.motClrfault n true bus, 6)]) :=
  ⟨⟨3, (rig .idle), _, by decide +kernel, rfl, by decide +kernel, by decide +kernel, by decide +kernel⟩,
    ⟨0, (rig .idle), _, by decide +kernel, rfl, by decide +kernel, by decide +kernel, by decide +kernel⟩,
    ⟨3, (modMo 3 (fun x => { x with st := .run }) (rig .idle)), _, by decide +kernel, rfl, by decide +kernel, by decide +kernel⟩,
    ⟨3, (modMo 3 (fun x => { x with st := .reacq }) (rig .idle)), _, by decide +kernel, rfl, by decide +kernel, by decide +kernel⟩,
    ⟨3, (modMo 3 (fun x => { x with st := .brake }) (rig .idle)), _, by decide +kernel, rfl, by decide +kernel, by decide +kernel⟩,
    ⟨3, (modMo 3 (fun x => { x with st := .decel }) (rig .idle)), _, by decide +kernel, rfl, by decide +kernel, by decide +kernel⟩,
    ⟨3, (modMo 3 (fun x => { x with st := .run }) (rig .idle)), _, by decide +kernel, rfl, by decide +kernel, by decide +kernel,
        by decide +kernel, by decide +kernel, by decide +kernel⟩,
    ⟨0, (modMo 0 (fun x => { x with st := .run }) (rig .idle)), _, by decide +kernel, rfl, by decide +kernel, by decide +kernel,
        by decide +kernel⟩,
    ⟨3, 0, (modMo 3 (fun x => { x with st := .fault }) (rig .safeHold)), _, by decide +kernel, rfl, by decide +kernel,
        by decide +kernel, by decide +kernel, by decide +kernel⟩,
    ⟨2, 0, (rig .idle), _, (.motClrfault 2 true 0), 6, by decide +kernel, rfl, by decide +kernel, by decide +kernel, by decide +kernel⟩⟩

/-- What each clause of SeamlessSteps assumes is met. -/
theorem test_witness_SeamlessSteps :
    (∃ (s : State), s.ss.phase = 1 ∧ ssDraining s = false) ∧
    (∃ (s : State), s.ss.phase = 2 ∧ ssRested s = true) ∧
    (∃ (s : State), s.ss.phase = 3 ∧ ssRested s = true) ∧
    (∃ (s : State), s.ss.phase = 4 ∧ s.glb.state = .print ∧ (∀ d ∈ ssHeld s, ssFilled s d = true) ∧ chained s = false) ∧
    (∃ (s : State), s.ss.phase = 6) ∧
    (∃ (s : State), s.ss.td.isSome = true ∧ (s.glb.state = .print ∨ s.glb.state = .stopping)) ∧
    (∃ (s : State), s.ss.td.isSome = true ∧ (s.glb.state = .print ∨ s.glb.state = .stopping)) ∧
    (∃ (s : State), s.ss.td = none) ∧
    (∃ (s : State), trKind s ≠ 0) ∧
    (∃ (d : Goal) (s : State), s.ss.mover = true ∧ trKind s = 2 ∧ (ax s (trIndex s)).st = .moving ∧ d = s.ss.back) ∧
    (∃ (g : Nat) (s : State), ltSource s g < 8) :=
  ⟨⟨{ (rig .print) with ss := { Ss.reset with phase := 1 } }, by decide +kernel, by decide +kernel⟩,
    ⟨{ (rig .print) with ss := { Ss.reset with phase := 2 } }, by decide +kernel, by decide +kernel⟩,
    ⟨{ (rig .print) with ss := { Ss.reset with phase := 3, mover := true } }, by decide +kernel, by decide +kernel⟩,
    ⟨{ (modDot 0 (fun x => { x with wline := 1024 }) (modDot 15 (fun x => { x with wline := 1024 }) (rig .print))) with ss := { Ss.reset with phase := 4 } },
        by decide +kernel, by decide +kernel, by decide +kernel, by decide +kernel⟩,
    ⟨{ (rig .print) with ss := { Ss.reset with phase := 6 } }, by decide +kernel⟩,
    ⟨{ (rig .print) with ss := { Ss.reset with td := some 0 } }, by decide +kernel, by decide +kernel⟩,
    ⟨{ (rig .stopping) with ss := { Ss.reset with td := some 0 } }, by decide +kernel, by decide +kernel⟩,
    ⟨State.reset, by decide +kernel⟩,
    ⟨(rigWith [(0x142, 1), (0x143, 3)] [] .print), by decide +kernel⟩,
    ⟨.none, { modAx 0 (fun x => { x with st := .moving }) (rig .print) with ss := { Ss.reset with mover := true, back := .none } },
        by decide +kernel, by decide +kernel, by decide +kernel, by decide +kernel⟩,
    ⟨15, (rig .print), by decide +kernel⟩⟩

/-- What each clause of SeamlessDecision assumes is met. -/
theorem test_witness_SeamlessDecision :
    (∃ (s : State) (u : State), windowOpen s 0 R.DOT_SSCMD true = true ∧ u = hostAccess s ∧ u.glb.state = .print ∧ scanning u = false ∧
      ssRuns u = false ∧ ssDecides u = true ∧ invarAgrees u R.DOT_SSMARGIN = true ∧ invarAgrees u R.DOT_SSBACKMAX = true ∧ useSoft (trKind
      u) (trIndex u) u = u ∧ ssForbidden u = none) ∧
    (∃ (s : State) (u : State) (r : Nat), windowOpen s 0 R.DOT_SSCMD true = true ∧ u = hostAccess s ∧ u.glb.state = .print ∧ scanning u
      = false ∧ ssRuns u = false ∧ ssDecides u = true ∧ (ssBarred u = none → invarAgrees u R.DOT_SSMARGIN = true ∧ invarAgrees u
      R.DOT_SSBACKMAX = true ∧ useSoft (trKind u) (trIndex u) u = u) ∧ ssForbidden u = some r) ∧
    (∃ (s : State) (u : State), windowOpen s 0 R.DOT_SSCMD true = true ∧ u = hostAccess s ∧ u.glb.state = .print ∧ scanning u = false ∧
      ssRuns u = true) ∧
    (∃ (s : State) (u : State), windowOpen s 0 R.DOT_SSCMD true = true ∧ u = hostAccess s ∧ u.glb.state ∉ [GState.off, .print,
      .stopping, .armed]) ∧
    (∃ (s : State) (u : State), windowOpen s 0 R.DOT_SSCMD true = true ∧ u = hostAccess s ∧ (u.glb.state = .print ∨ u.glb.state =
      .stopping) ∧ u.ss.phase ≠ 0) ∧
    (∃ (s : State) (u : State), windowOpen s 0 R.DOT_SSCMD true = true ∧ u = hostAccess s ∧ (u.glb.state = .print ∨ u.glb.state =
      .stopping) ∧ u.ss.phase = 0) ∧
    (∃ (s : State) (r : Nat), ssBarred s = some r) ∧
    (∃ (s : State), fld s R.DOT_SSCFG 0 0 = 0) ∧
    (∃ (s : State), fld s R.DOT_SSCFG 0 0 = 1 ∧ (trKind s = 0 ∨ (trKind s = 1 ∧ moMode s (trIndex s) = 1))) ∧
    (∃ (s : State), ssForbidden s = none) :=
  ⟨⟨(modPc 0 (fun x => { x with valid := true, v := 16000 }) (rigWith [(0x104, 0xFF)] [] .print)), _, by decide +kernel, rfl,
        by decide +kernel, by decide +kernel, by decide +kernel, by decide +kernel, by decide +kernel, by decide +kernel, by decide +kernel,
        by decide +kernel⟩,
    ⟨(rig .print), _, 3, by decide +kernel, rfl, by decide +kernel, by decide +kernel, by decide +kernel, by decide +kernel, ((fun h =>
        absurd h (by decide +kernel))), by decide +kernel⟩,
    ⟨{ (rig .print) with ss := { Ss.reset with phase := 6 } }, _, by decide +kernel, rfl, by decide +kernel, by decide +kernel,
        by decide +kernel⟩,
    ⟨(rig .idle), _, by decide +kernel, rfl, by decide +kernel⟩,
    ⟨{ (rig .stopping) with ss := { Ss.reset with phase := 5 } }, _, by decide +kernel, rfl, by decide +kernel, by decide +kernel⟩,
    ⟨(rig .print), _, by decide +kernel, rfl, by decide +kernel, by decide +kernel⟩,
    ⟨(rig .print), 3, by decide +kernel⟩,
    ⟨(wr R.DOT_SSCFG 0 (rig .print)), by decide +kernel⟩,
    ⟨(rigWith [(0x142, 1), (0x143, 0)] [] .print), by decide +kernel, by decide +kernel⟩,
    ⟨(modPc 0 (fun x => { x with valid := true, v := 16000 }) (rigWith [(0x104, 0xFF)] [] .print)), by decide +kernel⟩⟩

/-- What each clause of CascadeLinks assumes is met. -/
theorem test_witness_CascadeLinks :
    (∃ (port : Fin 2) (ts2 : Bool) (data : Vector Byte 14) (s : State), casRole s ≠ 0 ∧ crc8 (data.toList.take 13) ≠ data.toList.getD 13
      0) ∧
    (∃ (port : Fin 2) (data : Vector Byte 14) (s : State), casRole s ≠ 0 ∧ crc8 (data.toList.take 13) = data.toList.getD 13 0 ∧ (casPort
      s port).st = .detect ∧ 7 ≤ (casPort s port).run) ∧
    (∃ (port : Fin 2) (data : Vector Byte 14) (s : State), casRole s ≠ 0 ∧ crc8 (data.toList.take 13) = data.toList.getD 13 0 ∧ (casPort
      s port).st = .detect ∧ (casPort s port).run < 7) ∧
    (∃ (port : Fin 2) (s : State), ((casPort s port).st = .detect ∨ (casPort s port).st = .config ∨ (casPort s port).st = .timesync)) ∧
    (∃ (port : Fin 2) (s : State), ((casPort s port).st = .detect ∨ (casPort s port).st = .config ∨ (casPort s port).st = .timesync)) ∧
    (∃ (port : Fin 2) (s : State), ((casPort s port).st = .detect ∨ (casPort s port).st = .config ∨ (casPort s port).st = .timesync)) ∧
    (∃ (port : Fin 2) (s : State), (casPort s port).st = .align ∧ (casPort s port).alignRaised = false) ∧
    (∃ (port : Fin 2) (s : State), (casPort s port).st = .down ∧ casRole s ≠ 0 ∧ 4 ≤ gnum s ∧ discHeld s = false) ∧
    (∃ (port : Fin 2) (s : State), (casPort s port).st = .down ∧ casRole s ≠ 0 ∧ 4 ≤ gnum s ∧ discHeld s = false) ∧
    (∃ (port : Fin 2) (data : Vector Byte 14) (s : State), casRole s ≠ 0 ∧ crc8 (data.toList.take 13) = data.toList.getD 13 0 ∧ (casPort
      s port).st = .config ∧ ((casPort s port).run < 7 ∨ (casPort s port).outs < 15)) ∧
    (∃ (port : Fin 2) (data : Vector Byte 14) (s : State), casRole s ≠ 0 ∧ crc8 (data.toList.take 13) = data.toList.getD 13 0 ∧ (casPort
      s port).st = .config ∧ ((casPort s port).run < 7 ∨ (casPort s port).outs < 15)) ∧
    (∃ (data : Vector Byte 14) (s : State) (s1 : State), isMember s = true ∧ crc8 (data.toList.take 13) = data.toList.getD 13 0 ∧
      s.cas.cu.st = .config ∧ 7 ≤ s.cas.cu.run ∧ 15 ≤ s.cas.cu.outs ∧ s1 = casTs 0 "TS2" true (modCasPort 0 (fun x =>
      { x with run := s.cas.cu.run + 1, outs := x.outs + 1 }) s)) ∧
    (∃ (port : Nat) (name : String) (b0 : List Byte) (b1 : List Byte) (s : State), casSwap s port = false) ∧
    (∃ (s : State), isMember s = true ∧ cuUp s = true ∧ s.cas.synced = true) ∧
    (∃ (s : State), isMember s = true ∧ s.cas.cu.st = .timesync ∧ s.cas.synced = false ∧ s.cas.checking = false ∧ s.cas.echoes.length <
      16) ∧
    (∃ (t1 : BitVec 52) (h2 : BitVec 52) (h3 : BitVec 52) (t4 : BitVec 52) (s : State), isMember s = true ∧ cuUp s = true ∧ s.cas.synced
      = true ∧ s.cas.group.length < 3) ∧
    (∃ (port : Fin 2) (s : State) (s1 : State) (cause : CasLoss) (c : Nat), (casPort s port).st = .active ∧ firingState s = false ∧
      (cause, c) ∈ [(CasLoss.lock, 1), (.errors, 2)] ∧ s1 = casAttempt port (modCasPort port (fun x => { x with lost := true }) s)) ∧
    (∃ (port : Fin 2) (s : State) (s1 : State) (cause : CasLoss) (c : Nat), (casPort s port).st = .active ∧ firingState s = false ∧
      (cause, c) ∈ [(CasLoss.lock, 1), (.errors, 2)] ∧ s1 = casAttempt port (modCasPort port (fun x => { x with lost := true }) s)) ∧
    (∃ (port : Fin 2) (s : State), (casPort s port).st = .active ∧ firingState s = true) ∧
    (∃ (sum : Int) (s : State), iabs sum ≤ 4) ∧
    (∃ (sum : Int) (s : State), iabs sum ≤ 4) ∧
    (∃ (sum : Int) (s : State), 4 < iabs sum ∧ iabs sum ≤ 64 ∧ 32 ≤ 16 * s.now + s.cas.frac ∧ 16 * s.now + s.cas.frac + 32 < 2 ^ 68 ∧
      s.cas.frac < 16) ∧
    (∃ (sum : Int) (s : State), 4 < iabs sum ∧ iabs sum ≤ 64 ∧ 32 ≤ 16 * s.now + s.cas.frac ∧ 16 * s.now + s.cas.frac + 32 < 2 ^ 68 ∧
      s.cas.frac < 16) ∧
    (∃ (sum : Int) (s : State), 64 < iabs sum ∧ firingState s = false) ∧
    (∃ (d : Int) (s : State), s.cas.frac < 16 ∧ 0 ≤ (16 * s.now + s.cas.frac : Int) + d ∧ (16 * s.now + s.cas.frac : Int) + d < 2 ^ 68) ∧
    (∃ (s : State) (l : List (Int × Int)), 4 < (l.map Prod.fst).foldl max ((l.map Prod.fst).headD 0) - (l.map Prod.fst).foldl min
      ((l.map Prod.fst).headD 0)) :=
  ⟨⟨1, true, ((Vector.replicate 14 0).set 13 1), (device 2 .idle), by decide +kernel, by decide +kernel⟩,
    ⟨1, (Vector.replicate 14 0), { device 2 .idle with cas := { chainOf 1 with cd := ⟨.detect, 7, 0, [], false, false, false⟩ } },
        by decide +kernel, by decide +kernel, by decide +kernel, by decide +kernel⟩,
    ⟨0, (Vector.replicate 14 0), { device 2 .idle with cas := { chainOf 1 with cu := ⟨.detect, 6, 0, [], false, false, false⟩ } },
        by decide +kernel, by decide +kernel, by decide +kernel, by decide +kernel⟩,
    ⟨1, { device 2 .idle with cas := { chainOf 1 with cd := link .detect } }, by decide +kernel⟩,
    ⟨1, { device 2 .idle with cas := { chainOf 1 with cd := link .config } }, by decide +kernel⟩,
    ⟨1, { device 2 .idle with cas := { chainOf 1 with cd := link .timesync } }, by decide +kernel⟩,
    ⟨0, { device 2 .idle with cas := { chainOf 1 with cu := link .align } }, by decide +kernel, by decide +kernel⟩,
    ⟨1, { device 2 .idle with cas := { chainOf 1 with cd := link .down } }, by decide +kernel, by decide +kernel, by decide +kernel,
        by decide +kernel⟩,
    ⟨0, { device 1 .linkTrain with cas := { chainOf 1 with cu := link .down } }, by decide +kernel, by decide +kernel,
        by decide +kernel, by decide +kernel⟩,
    ⟨1, (Vector.replicate 14 0), { device 2 .idle with cas := { chainOf 1 with cd := { link .config with run := 6, outs := 100 } } },
        by decide +kernel, by decide +kernel, by decide +kernel, by decide +kernel⟩,
    ⟨1, (Vector.replicate 14 0), { device 2 .idle with cas := { chainOf 1 with cd := { link .config with run := 100, outs := 14 } } },
        by decide +kernel, by decide +kernel, by decide +kernel, by decide +kernel⟩,
    ⟨(Vector.replicate 14 0), { device 2 .idle with cas := { chainOf 1 with cu := { link .config with run := 7, outs := 15 } } }, _,
        by decide +kernel, by decide +kernel, by decide +kernel, by decide +kernel, by decide +kernel, rfl⟩,
    ⟨1, "TS1", [], [], (device 2 .idle), by decide +kernel⟩,
    ⟨{ device 2 .idle with cas := { chainOf 1 with synced := true } }, by decide +kernel, by decide +kernel, by decide +kernel⟩,
    ⟨{ device 2 .idle with cas := { chainOf 1 with cu := link .timesync, echoes := List.replicate 15 (0, 0) } }, by decide +kernel,
        by decide +kernel, by decide +kernel, by decide +kernel, by decide +kernel⟩,
    ⟨0, 0, 0, 0, { device 2 .idle with cas := { chainOf 1 with synced := true, group := [0, 0] } }, by decide +kernel,
        by decide +kernel, by decide +kernel, by decide +kernel⟩,
    ⟨1, (device 1 .idle), _, .lock, 1, by decide +kernel, by decide +kernel, by decide +kernel, rfl⟩,
    ⟨0, (device 2 .idle), _, .errors, 2, by decide +kernel, by decide +kernel, by decide +kernel, rfl⟩,
    ⟨0, (device 1 .print), by decide +kernel, by decide +kernel⟩,
    ⟨4, (device 2 .idle), by decide +kernel⟩,
    ⟨(-4), (device 2 .idle), by decide +kernel⟩,
    ⟨5, { device 2 .idle with now := 2 }, by decide +kernel, by decide +kernel, by decide +kernel, by decide +kernel, by decide +kernel⟩,
    ⟨(-64), { device 2 .idle with now := 2 }, by decide +kernel, by decide +kernel, by decide +kernel, by decide +kernel,
        by decide +kernel⟩,
    ⟨65, (device 2 .idle), by decide +kernel, by decide +kernel⟩,
    ⟨(-1), { device 2 .idle with cas := { chainOf 1 with frac := 1 } }, by decide +kernel, by decide +kernel, by decide +kernel⟩,
    ⟨(device 2 .idle), [(0, 0), (5, 0)], by decide +kernel⟩⟩

/-- What each clause of CascadeFrames assumes is met. -/
theorem test_witness_CascadeFrames :
    (∃ (h : CasHdr) (seq : Byte) (s : State), frameMine h s) ∧
    (∃ (h : CasHdr) (seq : Byte) (role : Byte) (epoch : BitVec 16) (x : CasSent) (s : State), frameMine h s ∧ s.cas.sent.find? (fun x =>
      x.seq = seq) = some x) ∧
    (∃ (seq : Byte) (x : CasSent) (s : State), s.cas.sent.find? (fun x => x.seq = seq) = some x ∧ x.tries < 2) ∧
    (∃ (seq : Byte) (x : CasSent) (s : State), s.cas.sent.find? (fun x => x.seq = seq) = some x ∧ 2 ≤ x.tries) ∧
    (∃ (h : CasHdr) (type : Nat) (body : List Byte) (take : State → State) (pass : State → State) (s : State), casRole s ≠ 0 ∧ (casPort
      s h.port).st = .active ∧ h.ok = false) ∧
    (∃ (h : CasHdr) (type : Nat) (body : List Byte) (take : State → State) (pass : State → State) (s : State), casRole s ≠ 0 ∧ (casPort
      s h.port).st = .active ∧ h.ok = true ∧ h.dst ≠ 0xFF ∧ isMine s h.dst.toNat = true ∧ h.epoch.toNat ≠ s.cas.epoch ∧ (type = 0x10 ∨
      type = 0x13 ∨ type = 0x14)) ∧
    (∃ (h : CasHdr) (type : Nat) (body : List Byte) (take : State → State) (pass : State → State) (s : State), casRole s ≠ 0 ∧ (casPort
      s h.port).st = .active ∧ h.ok = true ∧ h.dst ≠ 0xFF ∧ isMine s h.dst.toNat = true ∧ h.epoch.toNat ≠ s.cas.epoch ∧ (type = 0x10 ∨
      type = 0x13 ∨ type = 0x14)) ∧
    (∃ (h : CasHdr) (type : Nat) (body : List Byte) (take : State → State) (pass : State → State) (s : State), casRole s ≠ 0 ∧ (casPort
      s h.port).st = .active ∧ h.ok = true ∧ h.dst ≠ 0xFF ∧ isMine s h.dst.toNat = true ∧ h.epoch.toNat ≠ s.cas.epoch ∧ (type = 0x10 ∨
      type = 0x13 ∨ type = 0x14)) ∧
    (∃ (h : CasHdr) (type : Nat) (body : List Byte) (take : State → State) (pass : State → State) (s : State), casRole s ≠ 0 ∧ (casPort
      s h.port).st = .active ∧ h.ok = true ∧ h.dst ≠ 0xFF ∧ isMine s h.dst.toNat = false ∧ ((type ≠ 0x10 ∧ type ≠ 0x13 ∧ type ≠ 0x14) ∨
      (casPort s (1 - h.port.val)).st = .active)) ∧
    (∃ (h : CasHdr) (type : Nat) (body : List Byte) (take : State → State) (pass : State → State) (s : State), casRole s ≠ 0 ∧ (casPort
      s h.port).st = .active ∧ h.ok = true ∧ h.dst ≠ 0xFF ∧ isMine s h.dst.toNat = false ∧ ((type ≠ 0x10 ∧ type ≠ 0x13 ∧ type ≠ 0x14) ∨
      (casPort s (1 - h.port.val)).st = .active)) ∧
    (∃ (h : CasHdr) (type : Nat) (body : List Byte) (take : State → State) (pass : State → State) (s : State), casRole s ≠ 0 ∧ (casPort
      s h.port).st = .active ∧ h.ok = true ∧ h.dst ≠ 0xFF ∧ isMine s h.dst.toNat = false ∧ (type = 0x10 ∨ type = 0x13 ∨ type = 0x14) ∧
      (casPort s (1 - h.port.val)).st ≠ .active) ∧
    (∃ (h : CasHdr) (type : Nat) (body : List Byte) (take : State → State) (pass : State → State) (s : State), casRole s ≠ 0 ∧ (casPort
      s h.port).st = .active ∧ h.ok = true ∧ h.dst ≠ 0xFF ∧ isMine s h.dst.toNat = false ∧ (type = 0x10 ∨ type = 0x13 ∨ type = 0x14) ∧
      (casPort s (1 - h.port.val)).st ≠ .active) ∧
    (∃ (h : CasHdr) (type : Nat) (body : List Byte) (take : State → State) (pass : State → State) (s : State), casRole s ≠ 0 ∧ (casPort
      s h.port).st = .active ∧ h.ok = true ∧ h.dst = 0xFF ∧ isMine s h.dst.toNat = false ∧ s.cas.seen.contains (h.src.toNat, h.seq) =
      true) :=
  ⟨⟨(hdr 1 0), 7, (device 1 .idle), (⟨by decide +kernel, by decide +kernel, by decide +kernel, by decide +kernel, by decide +kernel,
        by decide +kernel⟩)⟩,
    ⟨(hdr 1 0), 7, 0, 1, ⟨7, 0x16, 1, 1, [], 0⟩, { device 1 .idle with cas := { chainOf 0 with sent := [⟨7, 0x16, 1, 1, [], 0⟩] } },
        (⟨by decide +kernel, by decide +kernel, by decide +kernel, by decide +kernel, by decide +kernel, by decide +kernel⟩),
        by decide +kernel⟩,
    ⟨7, ⟨7, 0x16, 1, 1, [], 1⟩, { device 1 .idle with cas := { chainOf 0 with sent := [⟨7, 0x16, 1, 1, [], 1⟩] } }, by decide +kernel,
        by decide +kernel⟩,
    ⟨7, ⟨7, 0x16, 1, 1, [], 2⟩, { device 1 .idle with cas := { chainOf 0 with sent := [⟨7, 0x16, 1, 1, [], 2⟩] } }, by decide +kernel,
        by decide +kernel⟩,
    ⟨{ hdr 1 0 with ok := false }, 0x10, [], id, id, (device 1 .idle), by decide +kernel, by decide +kernel, by decide +kernel⟩,
    ⟨{ hdr 1 0 with epoch := 2 }, 0x10, [], id, id, (device 1 .idle), by decide +kernel, by decide +kernel, by decide +kernel,
        by decide +kernel, by decide +kernel, by decide +kernel, by decide +kernel⟩,
    ⟨{ hdr 1 0 with epoch := 2 }, 0x13, [], id, id, (device 1 .idle), by decide +kernel, by decide +kernel, by decide +kernel,
        by decide +kernel, by decide +kernel, by decide +kernel, by decide +kernel⟩,
    ⟨{ hdr 1 0 with epoch := 2 }, 0x14, [], id, id, (device 1 .idle), by decide +kernel, by decide +kernel, by decide +kernel,
        by decide +kernel, by decide +kernel, by decide +kernel, by decide +kernel⟩,
    ⟨(hdr 0 2), 0x10, [], id, id, (device 2 .idle), by decide +kernel, by decide +kernel, by decide +kernel, by decide +kernel,
        by decide +kernel, by decide +kernel⟩,
    ⟨(hdr 0 2), 0x02, [], id, id, (device 2 .idle), by decide +kernel, by decide +kernel, by decide +kernel, by decide +kernel,
        by decide +kernel, by decide +kernel⟩,
    ⟨(hdr 0 2), 0x10, [], id, id, { device 2 .idle with cas := { chainOf 1 with cd := link .down } }, by decide +kernel,
        by decide +kernel, by decide +kernel, by decide +kernel, by decide +kernel, by decide +kernel, by decide +kernel⟩,
    ⟨(hdr 0 2), 0x14, [], id, id, { device 2 .idle with cas := { chainOf 1 with cd := link .down } }, by decide +kernel,
        by decide +kernel, by decide +kernel, by decide +kernel, by decide +kernel, by decide +kernel, by decide +kernel⟩,
    ⟨(hdr 0 0xFF), 0x10, [], id, id, { device 2 .idle with cas := { chainOf 1 with seen := [(0, 1)] } }, by decide +kernel,
        by decide +kernel, by decide +kernel, by decide +kernel, by decide +kernel, by decide +kernel⟩⟩

/-- What each clause of Discovery assumes is met. -/
theorem test_witness_Discovery :
    (∃ (s : State), isCampanile s = true ∧ s.bru.cascade = .running) ∧
    (∃ (s : State), s.bru.cascade = .running ∧ s.bru.discWarned = false ∧ casRole s ≠ 0) ∧
    (∃ (h : CasHdr) (hops : Byte) (proposed : BitVec 16) (s : State), isCampanile s = true ∧ h.port = 0 ∧ s.cas.cu.st = .active ∧ h.ok =
      true ∧ discHeld s = false) ∧
    (∃ (h : CasHdr) (hops : Byte) (proposed : BitVec 16) (s : State) (s3 : State) (dans : List Dans), isMember s = true ∧ h.port = 0 ∧
      s.cas.cu.st = .active ∧ h.ok = true ∧ discHeld s = false ∧ dans = (if s.cas.proposed = proposed.toNat then s.cas.dans else []) ∧ s3
      = casPut 1 (casBytes 0x01 h.seq.toNat h.src.toNat h.dst.toNat h.epoch.toNat (leBytes 1 ((hops.toNat + 1) % 256) ++ leBytes 2
      proposed.toNat))
      { s with cas := { s.cas with position := (hops.toNat + 1) % 256, disc := false, proposed := proposed.toNat, dans := dans }, bru := { s.bru with cascade := if s.bru.cascade = .failed then .failed else .running, discWarned := s.bru.discWarned && s.cas.proposed = proposed.toNat } }) ∧
    (∃ (h : CasHdr) (d : Dans) (s : State) (s1 : State), frameMine h s ∧ isCampanile s = true ∧ s.bru.cascade = .running ∧ s1 = modCas
      (fun c => { c with dans := c.dans.filter (fun x => x.position ≠ d.position) ++ [d] }) (acked h s) ∧ dansCheck s1 d s1.cas.dans =
      none ∧ s1.cas.dans.length + 1 = casLength s) ∧
    (∃ (h : CasHdr) (d : Dans) (s : State) (s1 : State) (r : Nat), frameMine h s ∧ isCampanile s = true ∧ s.bru.cascade = .running ∧ s1
      = modCas (fun c => { c with dans := c.dans.filter (fun x => x.position ≠ d.position) ++ [d] }) (acked h s) ∧ dansCheck s1 d
      s1.cas.dans = some r) ∧
    (∃ (h : CasHdr) (d : Dans) (s : State), frameMine h s ∧ isCampanile s = true ∧ s.bru.cascade = .done ∧ d.position ≠ 0 ∧
      s.cas.dans.all (fun x => x.position ≠ d.position) = true) ∧
    (∃ (h : CasHdr) (epoch : BitVec 16) (length : Byte) (transport : Byte) (hashes : Vector Word 8) (s : State) (s1 : State), frameAll h
      s ∧ isMember s = true ∧ s.cas.resid = 0 ∧ discHeld s = false ∧ s1 = relayed h 0x03 (leBytes 2 epoch.toNat ++ [length, transport] ++
      (hashes.toList.take length.toNat).flatMap (fun w => leBytes 4 w.toNat)) s) ∧
    (∃ (h : CasHdr) (s : State), frameMine h s ∧ isCampanile s = true ∧ (s.glb.state = .linkTrain ∨ s.glb.state = .idle)) ∧
    (∃ (h : CasHdr) (s : State), frameMine h s ∧ isCampanile s = true ∧ (s.glb.state = .linkTrain ∨ s.glb.state = .idle)) ∧
    (∃ (s : State), discHeld s = true) ∧
    (∃ (s : State), discHeld s = false ∧ casPosition s ≠ 0 ∧ casPosition s ≠ 0xFF) ∧
    (∃ (h : CasHdr) (s : State), frameMine h s ∧ isCampanile s = true ∧ s.glb.state ≠ .linkTrain ∧ s.glb.state ≠ .idle) :=
  ⟨⟨{ device 1 .idle with cas := { chainOf 0 with length := 2 }, bru := { Bru.reset with cascade := .running } }, by decide +kernel,
        by decide +kernel⟩,
    ⟨{ device 2 .idle with cas := { chainOf 1 with length := 2 }, bru := { Bru.reset with cascade := .running } }, by decide +kernel,
        by decide +kernel, by decide +kernel⟩,
    ⟨(hdr 1 0), 0, 0, (device 1 .idle), by decide +kernel, by decide +kernel, by decide +kernel, by decide +kernel, by decide +kernel⟩,
    ⟨(hdr 0 1), 0, 2, (device 2 .idle), _, _, by decide +kernel, by decide +kernel, by decide +kernel, by decide +kernel,
        by decide +kernel, rfl, rfl⟩,
    ⟨(hdr 1 0), ⟨1, 2, 0xFF, 2, 0, 0, 0, false, false, false, 0, 0⟩,
        { device 1 .idle with cas := { chainOf 0 with length := 2 }, bru := { Bru.reset with cascade := .running } }, _,
        (⟨by decide +kernel, by decide +kernel, by decide +kernel, by decide +kernel, by decide +kernel, by decide +kernel⟩),
        by decide +kernel, by decide +kernel, rfl, by decide +kernel, by decide +kernel⟩,
    ⟨(hdr 1 0), ⟨1, 2, 2, 2, 0, 0, 0, false, false, false, 0, 0⟩,
        { device 1 .idle with cas := { chainOf 0 with length := 2 }, bru := { Bru.reset with cascade := .running } }, _, 2,
        (⟨by decide +kernel, by decide +kernel, by decide +kernel, by decide +kernel, by decide +kernel, by decide +kernel⟩),
        by decide +kernel, by decide +kernel, rfl, by decide +kernel⟩,
    ⟨(hdr 1 0), ⟨1, 2, 2, 2, 0, 0, 0, false, false, false, 0, 0⟩,
        { device 1 .linkTrain with bru := { Bru.reset with cascade := .done } }, (⟨by decide +kernel, by decide +kernel, by decide +kernel,
        by decide +kernel, by decide +kernel, by decide +kernel⟩), by decide +kernel, by decide +kernel, by decide +kernel,
        by decide +kernel⟩,
    ⟨(hdr 0 0xFF), 1, 2, 0, (Vector.replicate 8 0), (device 2 .idle), _, (⟨by decide +kernel, by decide +kernel, by decide +kernel,
        by decide +kernel, by decide +kernel, by decide +kernel, by decide +kernel⟩), by decide +kernel, by decide +kernel,
        by decide +kernel, rfl⟩,
    ⟨(hdr 1 0), (device 1 .linkTrain), (⟨by decide +kernel, by decide +kernel, by decide +kernel, by decide +kernel, by decide +kernel,
        by decide +kernel⟩), by decide +kernel, by decide +kernel⟩,
    ⟨(hdr 1 0), (device 1 .idle), (⟨by decide +kernel, by decide +kernel, by decide +kernel, by decide +kernel, by decide +kernel,
        by decide +kernel⟩), by decide +kernel, by decide +kernel⟩,
    ⟨{ device 1 .linkTrain with bru := { Bru.reset with heldFromBru := true } }, by decide +kernel⟩,
    ⟨(rigWith [] [(0, 1), (1, 1), (2, 1)] .linkTrain), by decide +kernel, by decide +kernel, by decide +kernel⟩,
    ⟨(hdr 1 0), (device 1 .armed), (⟨by decide +kernel, by decide +kernel, by decide +kernel, by decide +kernel, by decide +kernel,
        by decide +kernel⟩), by decide +kernel, by decide +kernel, by decide +kernel⟩⟩

/-- What each clause of Bells assumes is met. -/
theorem test_witness_Bells :
    (∃ (s : State) (t : Nat), isCampanile s = true ∧ s.cas.disc = true ∧ s.cas.tick = none ∧ s.glb.state ≠ .print ∧ s.glb.state ≠ .armed
      ∧ cdUp s = true ∧ t = (s.now + fld s R.CAS_BELLCFG 9 0 + tickPeriod s - 1) / tickPeriod s * tickPeriod s) ∧
    (∃ (data : Vector Byte 14) (s : State), isMember s = true ∧ cuUp s = true ∧ cdUp s = true ∧ crc8 (data.toList.take 13) ≠
      data.toList.getD 13 0) ∧
    (∃ (data : Vector Byte 14) (s : State), isMember s = true ∧ cuUp s = true ∧ cdUp s = false ∧ crc8 (data.toList.take 13) =
      data.toList.getD 13 0 ∧ fieldAt data.toList 9 2 = s.cas.epoch ∧ s.cas.disc = true) ∧
    (∃ (tick : BitVec 64) (s : State), casRole s ≠ 0 ∧ trKind s = 0 ∧ bellMode s = true ∧ s.glb.state = .print ∧ s.cas.bells.any (fun b
      => b.tick = tick.toNat && b.fire) = true ∧ (∀ g < 16, ltBound s g = true → ∃ b ∈ s.cas.bells, b.tick = tick.toNat ∧ b.fire = true ∧
      b.seenAt + fld s (R.FIR_LTn_LEAD g) 11 0 ≤ tick.toNat + 400)) ∧
    (∃ (tick : BitVec 64) (s : State), casRole s ≠ 0 ∧ trKind s = 0 ∧ bellMode s = true ∧ s.glb.state = .print ∧ s.cas.bells.any (fun b
      => b.tick = tick.toNat && b.fire) = false) ∧
    (∃ (tick : BitVec 64) (s : State), trKind s = 0 ∧ bellMode s = true ∧ s.glb.state ≠ .print) ∧
    (∃ (port : Fin 2) (mask : Byte) (s : State), casRole s ≠ 0 ∧ (casPort s port).st = .active ∧ (casPort s (1 - port.val)).st ≠ .active
      ∧ (∀ k < 8, fld s (R.CAS_TRIG k) 15 15 = 0)) ∧
    (∃ (h : CasHdr) (ts : BitVec 64) (s : State), frameAll h s) ∧
    (∃ (s : State) (ts : Nat), s.cas.ts = some ts ∧ s.glb.state = .armed) ∧
    (∃ (s : State) (ts : Nat), s.cas.ts = some ts ∧ s.glb.state ≠ .armed) :=
  ⟨⟨(device 1 .idle), _, by decide +kernel, by decide +kernel, by decide +kernel, by decide +kernel, by decide +kernel,
        by decide +kernel, rfl⟩,
    ⟨((Vector.replicate 14 0).set 13 1), (device 2 .idle), by decide +kernel, by decide +kernel, by decide +kernel, by decide +kernel⟩,
    ⟨(Vector.replicate 14 0), { device 2 .idle with cas := { chainOf 1 with cd := link .down, epoch := 0 } }, by decide +kernel,
        by decide +kernel, by decide +kernel, by decide +kernel, by decide +kernel, by decide +kernel⟩,
    ⟨5, (bellRig .print [⟨5, true, 0, 0⟩]), by decide +kernel, by decide +kernel, by decide +kernel, by decide +kernel,
        by decide +kernel, (by decide +kernel)⟩,
    ⟨5, (bellRig .print [⟨5, false, 0, 0⟩]), by decide +kernel, by decide +kernel, by decide +kernel, by decide +kernel,
        by decide +kernel⟩,
    ⟨5, (bellRig .idle [⟨5, true, 0, 0⟩]), by decide +kernel, by decide +kernel, by decide +kernel⟩,
    ⟨0, 1, (forEach (List.range 8) (fun k => wr (R.CAS_TRIG k) 0) { device 1 .idle with cas := { chainOf 0 with cd := link .down } }),
        by decide +kernel, by decide +kernel, by decide +kernel, by decide +kernel⟩,
    ⟨(hdr 0 0xFF), 9, (device 2 .idle), (⟨by decide +kernel, by decide +kernel, by decide +kernel, by decide +kernel, by decide +kernel,
        by decide +kernel, by decide +kernel⟩)⟩,
    ⟨{ device 2 .armed with cas := { chainOf 1 with ts := some 9 } }, 9, by decide +kernel, by decide +kernel⟩,
    ⟨{ device 2 .idle with cas := { chainOf 1 with ts := some 9 } }, 9, by decide +kernel, by decide +kernel⟩⟩

/-- What each clause of ChainMessages assumes is met. -/
theorem test_witness_ChainMessages :
    (∃ (h : CasHdr) (s : State), frameAll h s ∧ s.glb.state = .print) ∧
    (∃ (h : CasHdr) (code : BitVec 16) (s : State), frameAll h s) ∧
    (∃ (h : CasHdr) (code : BitVec 16) (s : State), frameAll h s) ∧
    (∃ (h : CasHdr) (code : BitVec 16) (s : State), frameAll h s ∧ haltable s = true) ∧
    (∃ (h : CasHdr) (cause : Byte) (s : State), frameMine h s) ∧
    (∃ (h : CasHdr) (td : BitVec 64) (s : State) (s1 : State), frameAll h s ∧ s1 = relayed h 0x10 (leBytes 1 0x11 ++ leBytes 8 td.toNat)
      s ∧ s.glb.state = .print ∧ s.now ≤ td.toNat) ∧
    (∃ (h : CasHdr) (td : BitVec 64) (s : State) (s1 : State), frameAll h s ∧ s1 = relayed h 0x10 (leBytes 1 0x11 ++ leBytes 8 td.toNat)
      s ∧ td.toNat < s.now) ∧
    (∃ (h : CasHdr) (td : BitVec 64) (s : State) (s1 : State), frameAll h s ∧ s1 = relayed h 0x10 (leBytes 1 0x11 ++ leBytes 8 td.toNat)
      s ∧ s.glb.state ≠ .print ∧ s.now ≤ td.toNat) ∧
    (∃ (h : CasHdr) (s : State), frameMine h s) ∧
    (∃ (h : CasHdr) (s : State), frameAll h s ∧ s.ss.phase = 4) ∧
    (∃ (h : CasHdr) (reason : Byte) (s : State), frameMine h s) ∧
    (∃ (h : CasHdr) (s : State), frameAll h s) ∧
    (∃ (h : CasHdr) (data : Vector Byte 16) (s : State) (s2 : State), frameMine h s ∧ s2 = wr R.CAS_RXSRC (BitVec.ofNat 32 (h.src.toNat
      + 256 * h.epoch.toNat)) (forEach (List.range 4) (fun k s => wr (R.CAS_RXMSG k) (BitVec.ofNat 32 (fieldAt data.toList (4 * k) 4)) s)
      (acked h s))) ∧
    (∃ (h : CasHdr) (st : BitVec 4) (sev : BitVec 2) (code : BitVec 16) (die : Byte) (fill : BitVec 16) (s : State), frameMine h s ∧
      isCampanile s = true) ∧
    (∃ (s : State), isMember s = true) ∧
    (∃ (s : State), isMember s = true ∧ cuUp s = true ∧ s.cas.position ≠ 0) ∧
    (∃ (s : State), isMember s = false ∧ isCampanile s = true ∧ s.cas.length = 2) ∧
    (∃ (n : Fin 8) (s : State), isCampanile s = true ∧ n ≠ 0 ∧ n.val < s.cas.length ∧ firingState s = false) ∧
    (∃ (n : Fin 8) (s : State), isCampanile s = true ∧ n ≠ 0 ∧ n.val < s.cas.length ∧ firingState s = true) ∧
    (∃ (h : CasHdr) (pi : Word) (pf : Word) (tm : BitVec 64) (sp : Word) (v : Bool) (d : Bool) (s : State) (s1 : State), frameAll h s ∧
      s1 = relayed h 0x14 (leBytes 4 pi.toNat ++ leBytes 4 pf.toNat ++ leBytes 8 tm.toNat ++ leBytes 4 sp.toNat ++ leBytes 1 (b2n v + 2 *
      b2n d)) s) ∧
    (∃ (s : State) (u : State), windowOpen s 0 R.CAS_CMD true = true ∧ u = hostAccess s ∧ 4 ≤ u.glb.state.code ∧ u.glb.state ≠ .shutdown
      ∧ chained u = true ∧ u.cas.disc = true ∧ userWaits u = false) ∧
    (∃ (s : State) (u : State), windowOpen s 0 R.CAS_CMD true = true ∧ u = hostAccess s ∧ 4 ≤ u.glb.state.code ∧ u.glb.state ≠ .shutdown
      ∧ chained u = true ∧ u.cas.disc = true ∧ userWaits u = true) ∧
    (∃ (s : State) (u : State), windowOpen s 0 R.CAS_CMD true = true ∧ u = hostAccess s ∧ u.glb.state ≠ .off ∧ (u.glb.state.code < 4 ∨
      u.glb.state = .shutdown ∨ chained u = false ∨ u.cas.disc = false)) ∧
    (∃ (s : State) (u : State), windowOpen s 0 R.CAS_CMD true = true ∧ u = hostAccess s ∧ u.glb.state ≠ .off ∧ (u.glb.state.code < 4 ∨
      u.glb.state = .shutdown ∨ chained u = false ∨ u.cas.disc = false)) ∧
    (∃ (s : State) (u : State), windowOpen s 0 R.CAS_CMD true = true ∧ u = hostAccess s ∧ u.glb.state ≠ .off ∧ (u.glb.state.code < 4 ∨
      u.glb.state = .shutdown ∨ chained u = false ∨ u.cas.disc = false)) ∧
    (∃ (s : State) (u : State), windowOpen s 0 R.CAS_CMD true = true ∧ u = hostAccess s ∧ u.glb.state ≠ .off ∧ (u.glb.state.code < 4 ∨
      u.glb.state = .shutdown ∨ chained u = false ∨ u.cas.disc = false)) ∧
    (∃ (s : State) (u : State), windowOpen s 0 R.CAS_CMD true = true ∧ u = hostAccess s ∧ isMember u = true ∧ (u.glb.state = .idle ∨
      u.glb.state = .safeHold) ∧ (cuUp u = true ∨ u.cas.cu.st = .timesync)) ∧
    (∃ (s : State) (u : State), windowOpen s 0 R.CAS_CMD true = true ∧ u = hostAccess s ∧ isMember u = true ∧ (u.glb.state = .idle ∨
      u.glb.state = .safeHold) ∧ (cuUp u = true ∨ u.cas.cu.st = .timesync)) ∧
    (∃ (s : State) (u : State), windowOpen s 0 R.CAS_CMD true = true ∧ u = hostAccess s ∧ isMember u = true ∧ (u.glb.state = .idle ∨
      u.glb.state = .safeHold) ∧ (cuUp u = true ∨ u.cas.cu.st = .timesync)) ∧
    (∃ (s : State) (u : State), windowOpen s 0 R.CAS_CMD true = true ∧ u = hostAccess s ∧ u.glb.state ≠ .off ∧ (isMember u = false ∨
      (u.glb.state ≠ .idle ∧ u.glb.state ≠ .safeHold))) ∧
    (∃ (s : State) (u : State), windowOpen s 0 R.CAS_CMD true = true ∧ u = hostAccess s ∧ u.glb.state ≠ .off ∧ (isMember u = false ∨
      (u.glb.state ≠ .idle ∧ u.glb.state ≠ .safeHold))) ∧
    (∃ (s : State) (u : State), windowOpen s 0 R.CAS_CMD true = true ∧ u = hostAccess s ∧ 4 ≤ u.glb.state.code) :=
  ⟨⟨(hdr 0 0xFF), (device 2 .print), (⟨by decide +kernel, by decide +kernel, by decide +kernel, by decide +kernel, by decide +kernel,
        by decide +kernel, by decide +kernel⟩), by decide +kernel⟩,
    ⟨(hdr 0 0xFF), 0x400, (device 2 .idle), (⟨by decide +kernel, by decide +kernel, by decide +kernel, by decide +kernel,
        by decide +kernel, by decide +kernel, by decide +kernel⟩)⟩,
    ⟨(hdr 0 0xFF), 0x400, (device 2 .idle), (⟨by decide +kernel, by decide +kernel, by decide +kernel, by decide +kernel,
        by decide +kernel, by decide +kernel, by decide +kernel⟩)⟩,
    ⟨(hdr 0 0xFF), 0x400, (device 2 .selftest), (⟨by decide +kernel, by decide +kernel, by decide +kernel, by decide +kernel,
        by decide +kernel, by decide +kernel, by decide +kernel⟩), by decide +kernel⟩,
    ⟨(hdr 0 1), 1, (device 2 .idle), (⟨by decide +kernel, by decide +kernel, by decide +kernel, by decide +kernel, by decide +kernel,
        by decide +kernel⟩)⟩,
    ⟨(hdr 0 0xFF), 0, (device 2 .print), _, (⟨by decide +kernel, by decide +kernel, by decide +kernel, by decide +kernel,
        by decide +kernel, by decide +kernel, by decide +kernel⟩), rfl, by decide +kernel, by decide +kernel⟩,
    ⟨(hdr 0 0xFF), 0, { device 2 .print with now := 1 }, _, (⟨by decide +kernel, by decide +kernel, by decide +kernel,
        by decide +kernel, by decide +kernel, by decide +kernel, by decide +kernel⟩), rfl, by decide +kernel⟩,
    ⟨(hdr 0 0xFF), 0, { device 2 .idle with now := 0 }, _, (⟨by decide +kernel, by decide +kernel, by decide +kernel, by decide +kernel,
        by decide +kernel, by decide +kernel, by decide +kernel⟩), rfl, by decide +kernel, by decide +kernel⟩,
    ⟨(hdr 0 1), (device 2 .idle), (⟨by decide +kernel, by decide +kernel, by decide +kernel, by decide +kernel, by decide +kernel,
        by decide +kernel⟩)⟩,
    ⟨(hdr 0 0xFF), { device 2 .print with ss := { Ss.reset with phase := 4 } }, (⟨by decide +kernel, by decide +kernel,
        by decide +kernel, by decide +kernel, by decide +kernel, by decide +kernel, by decide +kernel⟩), by decide +kernel⟩,
    ⟨(hdr 0 1), 1, (device 2 .idle), (⟨by decide +kernel, by decide +kernel, by decide +kernel, by decide +kernel, by decide +kernel,
        by decide +kernel⟩)⟩,
    ⟨(hdr 0 0xFF), (device 2 .idle), (⟨by decide +kernel, by decide +kernel, by decide +kernel, by decide +kernel, by decide +kernel,
        by decide +kernel, by decide +kernel⟩)⟩,
    ⟨(hdr 0 1), (Vector.replicate 16 7), (device 2 .idle), _, (⟨by decide +kernel, by decide +kernel, by decide +kernel,
        by decide +kernel, by decide +kernel, by decide +kernel⟩), rfl⟩,
    ⟨(hdr 1 0), 5, 1, 0x400, 7, 0, (device 1 .idle), (⟨by decide +kernel, by decide +kernel, by decide +kernel, by decide +kernel,
        by decide +kernel, by decide +kernel⟩), by decide +kernel⟩,
    ⟨(device 2 .idle), by decide +kernel⟩,
    ⟨(device 2 .idle), by decide +kernel, by decide +kernel, by decide +kernel⟩,
    ⟨(device 1 .idle), by decide +kernel, by decide +kernel, by decide +kernel⟩,
    ⟨1, (device 1 .idle), by decide +kernel, by decide +kernel, by decide +kernel, by decide +kernel⟩,
    ⟨1, (device 1 .print), by decide +kernel, by decide +kernel, by decide +kernel, by decide +kernel⟩,
    ⟨(hdr 0 0xFF), 1, 0, 0, 0, true, false, (device 2 .idle), _, (⟨by decide +kernel, by decide +kernel, by decide +kernel,
        by decide +kernel, by decide +kernel, by decide +kernel, by decide +kernel⟩), rfl⟩,
    ⟨(device 1 .idle), _, by decide +kernel, rfl, by decide +kernel, by decide +kernel, by decide +kernel, by decide +kernel,
        by decide +kernel⟩,
    ⟨{ device 1 .idle with cas := { chainOf 0 with sent := [⟨7, 0x10, 1, 1, [0x20], 0⟩] } }, _, by decide +kernel, rfl,
        by decide +kernel, by decide +kernel, by decide +kernel, by decide +kernel, by decide +kernel⟩,
    ⟨(rig .selftest), _, by decide +kernel, rfl, by decide +kernel, by decide +kernel⟩,
    ⟨(rig .shutdown), _, by decide +kernel, rfl, by decide +kernel, by decide +kernel⟩,
    ⟨(rig .idle), _, by decide +kernel, rfl, by decide +kernel, by decide +kernel⟩,
    ⟨{ device 1 .idle with cas := { chainOf 0 with disc := false } }, _, by decide +kernel, rfl, by decide +kernel, by decide +kernel⟩,
    ⟨(device 2 .idle), _, by decide +kernel, rfl, by decide +kernel, by decide +kernel, by decide +kernel⟩,
    ⟨(device 2 .safeHold), _, by decide +kernel, rfl, by decide +kernel, by decide +kernel, by decide +kernel⟩,
    ⟨{ device 2 .idle with cas := { chainOf 1 with cu := link .timesync } }, _, by decide +kernel, rfl, by decide +kernel,
        by decide +kernel, by decide +kernel⟩,
    ⟨(device 1 .idle), _, by decide +kernel, rfl, by decide +kernel, by decide +kernel⟩,
    ⟨(device 2 .print), _, by decide +kernel, rfl, by decide +kernel, by decide +kernel⟩,
    ⟨(device 2 .idle), _, by decide +kernel, rfl, by decide +kernel⟩⟩

/-- What each clause of ProgramDescribes assumes is met. -/
theorem test_witness_ProgramDescribes :
    (∃ (ch : Fin 32) (i : List Byte) (s : State), fetched ch 0x00 i s ∧ (dc s ch).pc < 255) ∧
    (∃ (ch : Fin 32) (i : List Byte) (s : State), fetched ch 0x01 i s ∧ (dc s ch).pc < 255) ∧
    (∃ (ch : Fin 32) (i : List Byte) (s : State), fetched ch 0x02 i s ∧ (dc s ch).pc < 255) ∧
    (∃ (ch : Fin 32) (i : List Byte) (s : State), fetched ch 0x03 i s ∧ (dc s ch).pc < 255) ∧
    (∃ (ch : Fin 32) (i : List Byte) (s : State), fetched ch 0x04 i s ∧ (dc s ch).pc < 255) ∧
    (∃ (ch : Fin 32) (i : List Byte) (s : State), bitOf (ib i 1) 3 = false) :=
  ⟨⟨31, (inst []), (prog []), (⟨by decide +kernel, by decide +kernel, by decide +kernel, by decide +kernel, by decide +kernel,
        by decide +kernel, by decide +kernel⟩), by decide +kernel⟩,
    ⟨31, (inst [1, 0x10]), (prog [1, 0x10]), (⟨by decide +kernel, by decide +kernel, by decide +kernel, by decide +kernel,
        by decide +kernel, by decide +kernel, by decide +kernel⟩), by decide +kernel⟩,
    ⟨31, (inst [2, 0x20]), (prog [2, 0x20]), (⟨by decide +kernel, by decide +kernel, by decide +kernel, by decide +kernel,
        by decide +kernel, by decide +kernel, by decide +kernel⟩), by decide +kernel⟩,
    ⟨31, (inst [3]), (prog [3]), (⟨by decide +kernel, by decide +kernel, by decide +kernel, by decide +kernel, by decide +kernel,
        by decide +kernel, by decide +kernel⟩), by decide +kernel⟩,
    ⟨31, (inst [4]), (prog [4]), (⟨by decide +kernel, by decide +kernel, by decide +kernel, by decide +kernel, by decide +kernel,
        by decide +kernel, by decide +kernel⟩), by decide +kernel⟩,
    ⟨31, [1], (rig .idle), by decide +kernel⟩⟩

/-- What each clause of LoopCounters assumes is met. -/
theorem test_witness_LoopCounters :
    (∃ (ch : Fin 32) (i : List Byte) (s : State), fetched ch 0x06 i s ∧ (dc s ch).pc < 255) ∧
    (∃ (ch : Fin 32) (i : List Byte) (s : State) (v : Nat), fetched ch 0x07 i s ∧ (dc s ch).pc < 255 ∧ v = (rd s (R.DMA_DCn_C ch (ib i
      1))).toNat) ∧
    (∃ (ch : Fin 32) (i : List Byte) (s : State) (v : Nat), fetched ch 0x07 i s ∧ (dc s ch).pc < 255 ∧ v = (rd s (R.DMA_DCn_C ch (ib i
      1))).toNat) ∧
    (∃ (ch : Fin 32) (i : List Byte) (s : State) (v : Nat), fetched ch 0x07 i s ∧ (dc s ch).pc < 255 ∧ v = (rd s (R.DMA_DCn_C ch (ib i
      1))).toNat) :=
  ⟨⟨31, (inst [6, 3, 0, 0, 9]), (prog [6, 3, 0, 0, 9]), (⟨by decide +kernel, by decide +kernel, by decide +kernel, by decide +kernel,
        by decide +kernel, by decide +kernel, by decide +kernel⟩), by decide +kernel⟩,
    ⟨31, (inst [7, 3, 0]), (wr (R.DMA_DCn_C 31 3) 0 (prog [7, 3, 0])), 0, (⟨by decide +kernel, by decide +kernel, by decide +kernel,
        by decide +kernel, by decide +kernel, by decide +kernel, by decide +kernel⟩), by decide +kernel, by decide +kernel⟩,
    ⟨31, (inst [7, 3, 0]), (wr (R.DMA_DCn_C 31 3) 1 (prog [7, 3, 0])), 1, (⟨by decide +kernel, by decide +kernel, by decide +kernel,
        by decide +kernel, by decide +kernel, by decide +kernel, by decide +kernel⟩), by decide +kernel, by decide +kernel⟩,
    ⟨31, (inst [7, 3, 0]), (wr (R.DMA_DCn_C 31 3) 2 (prog [7, 3, 0])), 2, (⟨by decide +kernel, by decide +kernel, by decide +kernel,
        by decide +kernel, by decide +kernel, by decide +kernel, by decide +kernel⟩), by decide +kernel, by decide +kernel⟩⟩

/-- What each clause of ProgramActs assumes is met. -/
theorem test_witness_ProgramActs :
    (∃ (ch : Fin 32) (i : List Byte) (s : State), fetched ch 0x08 i s ∧ waitAstray (running ch i s) i = false ∧ (∀ k, waitHolds (running
      ch i s) k i = false)) ∧
    (∃ (ch : Fin 32) (i : List Byte) (s : State), fetched ch 0x08 i s ∧ waitAstray (running ch i s) i = true) ∧
    (∃ (ch : Fin 32) (i : List Byte) (s : State), i = (dc s ch).inst ∧ (dc s ch).st = .wait ∧ (dc s ch).pc < 255 ∧ waitAstray s i =
      false ∧ ib i 1 = 0 ∧ waitsAhead s ch < sigCount s (ib i 2)) ∧
    (∃ (ch : Fin 32) (i : List Byte) (s : State), i = (dc s ch).inst ∧ (dc s ch).st = .wait ∧ (dc s ch).pc < 255 ∧ waitAstray s i =
      false ∧ ib i 1 ≠ 0 ∧ waitHolds s (waitsAhead s ch) i = true) ∧
    (∃ (ch : Fin 32) (i : List Byte) (s : State), i = (dc s ch).inst ∧ (dc s ch).st = .wait ∧ ib i 3 ≠ 0 ∧ waitHolds s (waitsAhead s ch)
      i = false) ∧
    (∃ (ch : Fin 32) (pins : Pins) (i : List Byte) (s : State), fetched ch (ib i 0) i s ∧ ¬ written ch s ∧ ib i 0 ∈ [0x09, 0x0A, 0x0B,
      0x0C, 0x0D]) ∧
    (∃ (ch : Fin 32) (pins : Pins) (i : List Byte) (s : State), fetched ch (ib i 0) i s ∧ ¬ written ch s ∧ ib i 0 ∈ [0x09, 0x0A, 0x0B,
      0x0C, 0x0D]) ∧
    (∃ (ch : Fin 32) (pins : Pins) (i : List Byte) (s : State), fetched ch (ib i 0) i s ∧ ¬ written ch s ∧ ib i 0 ∈ [0x09, 0x0A, 0x0B,
      0x0C, 0x0D]) ∧
    (∃ (ch : Fin 32) (pins : Pins) (i : List Byte) (s : State), fetched ch (ib i 0) i s ∧ ¬ written ch s ∧ ib i 0 ∈ [0x09, 0x0A, 0x0B,
      0x0C, 0x0D]) ∧
    (∃ (ch : Fin 32) (pins : Pins) (i : List Byte) (s : State), fetched ch (ib i 0) i s ∧ ¬ written ch s ∧ ib i 0 ∈ [0x09, 0x0A, 0x0B,
      0x0C, 0x0D]) ∧
    (∃ (ch : Fin 32) (i : List Byte) (s : State), fetched ch 0x09 i s ∧ written ch s ∧ ib i 2 ≠ 0) ∧
    (∃ (ch : Fin 32) (pins : Pins) (i : List Byte) (s : State), fetched ch 0x0A i s ∧ written ch s ∧ wriOk (fieldAt i 4 4) = true) ∧
    (∃ (ch : Fin 32) (pins : Pins) (i : List Byte) (s : State), fetched ch 0x0A i s ∧ written ch s ∧ wriOk (fieldAt i 4 4) = false) ∧
    (∃ (ch : Fin 32) (i : List Byte) (s : State), fetched ch 0x0B i s ∧ written ch s) ∧
    (∃ (ch : Fin 32) (i : List Byte) (s : State), fetched ch 0x0C i s ∧ written ch s ∧ bitOf (ib i 1) 0 = true) ∧
    (∃ (ch : Fin 32) (i : List Byte) (s : State), fetched ch 0x0D i s ∧ written ch s ∧ bitOf (ib i 1) 0 = false ∧ (dc s ch).arm = false
      ∧ (dc s ch).recs = []) ∧
    (∃ (ch : Fin 32) (e : WriteEnd) (s : State) (s0 : State), s0 = (if (dc s ch).wpend && (dstSide s ch).space = 2 then eccErrors 0
      (xmcUsable s) 1 e.errs s else s)) ∧
    (∃ (ch : Fin 32) (e : WriteEnd) (s : State) (s0 : State), s0 = (if (dc s ch).wpend && (dstSide s ch).space = 2 then eccErrors 0
      (xmcUsable s) 1 e.errs s else s)) ∧
    (∃ (n : Nat) (op : Nat) (act : List Byte → State → State) (s : State), (dc s n).st = .run ∧ (dc s n).xfer = false ∧ (dc s n).held =
      false ∧ sramOn s ((rd s (R.DMA_DCn_APTR n)).toNat + 16 * (dc s n).pc) 16 = false) ∧
    (∃ (n : Nat) (op : Nat) (act : List Byte → State → State) (a : Nat) (s : State), (dc s n).st = .run ∧ (dc s n).xfer = false ∧ (dc s
      n).held = false ∧ a = (rd s (R.DMA_DCn_APTR n)).toNat + 16 * (dc s n).pc ∧ sramOn s a 16 = true ∧ instValid (sramRead s a 16) =
      false) ∧
    (∃ (i : List Byte), 0x0E ≤ ib i 0) ∧
    (∃ (ch : Fin 32) (i : List Byte) (s : State), fetched ch 0x05 i s ∧ ((dc s ch).srcSet && (dc s ch).spatSet && (dc s ch).dstSet &&
      (dc s ch).dpatSet) = false) ∧
    (∃ (ch : Fin 32) (i : List Byte) (s : State), fetched ch 0x05 i s ∧ ((dc s ch).srcSet && (dc s ch).spatSet && (dc s ch).dstSet &&
      (dc s ch).dpatSet) = true ∧ ((srcSide s ch).total ≠ (dstSide s ch).total ∨ 2 ^ 32 ≤ (srcSide s ch).total)) ∧
    (∃ (ch : Fin 32) (i : List Byte) (s : State), fetched ch 0x05 i s ∧ ((dc s ch).srcSet && (dc s ch).spatSet && (dc s ch).dstSet &&
      (dc s ch).dpatSet) = true ∧ ((srcSide s ch).total ≠ (dstSide s ch).total ∨ 2 ^ 32 ≤ (srcSide s ch).total)) ∧
    (∃ (ch : Fin 32) (i : List Byte) (s : State), fetched ch 0x05 i s ∧ ((dc s ch).srcSet && (dc s ch).spatSet && (dc s ch).dstSet &&
      (dc s ch).dpatSet) = true ∧ (srcSide s ch).total = (dstSide s ch).total ∧ (srcSide s ch).total < 2 ^ 32) :=
  ⟨⟨31, (inst [8, 3, 0, 0, 0, 0, 0, 0, 9]), (prog [8, 3, 0, 0, 0, 0, 0, 0, 9]), (⟨by decide +kernel, by decide +kernel,
        by decide +kernel, by decide +kernel, by decide +kernel, by decide +kernel, by decide +kernel⟩), by decide +kernel, (fun k =>
        (wait_time _ k _ (by decide +kernel)).trans (by decide +kernel))⟩,
    ⟨31, (inst [8, 2, 2]), (prog [8, 2, 2]), (⟨by decide +kernel, by decide +kernel, by decide +kernel, by decide +kernel,
        by decide +kernel, by decide +kernel, by decide +kernel⟩), by decide +kernel⟩,
    ⟨31, (inst [8, 0, 5]), (modDma 31 (fun x => { x with st := .wait, inst := inst [8, 0, 5] }) (sigPut 5 1 (rig .idle))),
        by decide +kernel, by decide +kernel, by decide +kernel, by decide +kernel, by decide +kernel, by decide +kernel⟩,
    ⟨31, (inst [8, 3]), (modDma 31 (fun x => { x with st := .wait, inst := inst [8, 3] }) (rig .idle)), by decide +kernel,
        by decide +kernel, by decide +kernel, by decide +kernel, by decide +kernel, by decide +kernel⟩,
    ⟨31, (inst [8, 3, 0, 9, 9, 0, 0, 0, 9]), (modDma 31 (fun x => { x with st := .wait, inst := inst [8, 3, 0, 9, 9, 0, 0, 0, 9] }) (rig
        .idle)), by decide +kernel, by decide +kernel, by decide +kernel, by decide +kernel⟩,
    ⟨31, ⟨false, 0⟩, (inst [9, 1, 1]), (modDma 31 (fun x => { x with wpend := true }) (prog [9, 1, 1])), (⟨by decide +kernel,
        by decide +kernel, by decide +kernel, by decide +kernel, by decide +kernel, by decide +kernel, by decide +kernel⟩), (fun h => absurd
        h.1 (by decide +kernel)), by decide +kernel⟩,
    ⟨31, ⟨false, 0⟩, (inst [0x0A]), (modDma 31 (fun x => { x with wpend := true }) (prog [0x0A])), (⟨by decide +kernel,
        by decide +kernel, by decide +kernel, by decide +kernel, by decide +kernel, by decide +kernel, by decide +kernel⟩), (fun h => absurd
        h.1 (by decide +kernel)), by decide +kernel⟩,
    ⟨31, ⟨false, 0⟩, (inst [0x0B]), (modDma 31 (fun x => { x with wpend := true }) (prog [0x0B])), (⟨by decide +kernel,
        by decide +kernel, by decide +kernel, by decide +kernel, by decide +kernel, by decide +kernel, by decide +kernel⟩), (fun h => absurd
        h.1 (by decide +kernel)), by decide +kernel⟩,
    ⟨31, ⟨false, 0⟩, (inst [0x0C]), (modDma 31 (fun x => { x with wpend := true }) (prog [0x0C])), (⟨by decide +kernel,
        by decide +kernel, by decide +kernel, by decide +kernel, by decide +kernel, by decide +kernel, by decide +kernel⟩), (fun h => absurd
        h.1 (by decide +kernel)), by decide +kernel⟩,
    ⟨31, ⟨false, 0⟩, (inst [0x0D]), (modDma 31 (fun x => { x with wpend := true }) (prog [0x0D])), (⟨by decide +kernel,
        by decide +kernel, by decide +kernel, by decide +kernel, by decide +kernel, by decide +kernel, by decide +kernel⟩), (fun h => absurd
        h.1 (by decide +kernel)), by decide +kernel⟩,
    ⟨31, (inst [9, 1, 1]), (prog [9, 1, 1]), (⟨by decide +kernel, by decide +kernel, by decide +kernel, by decide +kernel,
        by decide +kernel, by decide +kernel, by decide +kernel⟩), (⟨by decide +kernel, by decide +kernel⟩), by decide +kernel⟩,
    ⟨31, ⟨false, 0⟩, (inst [0x0A, 0, 0, 0, 4, 0x10, 0x20]), (prog [0x0A, 0, 0, 0, 4, 0x10, 0x20]), (⟨by decide +kernel,
        by decide +kernel, by decide +kernel, by decide +kernel, by decide +kernel, by decide +kernel, by decide +kernel⟩),
        (⟨by decide +kernel, by decide +kernel⟩), by decide +kernel⟩,
    ⟨31, ⟨false, 0⟩, (inst [0x0A, 0, 0, 0, 0, 0, 0, 0]), (prog [0x0A, 0, 0, 0, 0, 0, 0, 0]), (⟨by decide +kernel, by decide +kernel,
        by decide +kernel, by decide +kernel, by decide +kernel, by decide +kernel, by decide +kernel⟩), (⟨by decide +kernel,
        by decide +kernel⟩), by decide +kernel⟩,
    ⟨31, (inst [0x0B]), (prog [0x0B]), (⟨by decide +kernel, by decide +kernel, by decide +kernel, by decide +kernel, by decide +kernel,
        by decide +kernel, by decide +kernel⟩), (⟨by decide +kernel, by decide +kernel⟩)⟩,
    ⟨31, (inst [0x0C, 1]), (prog [0x0C, 1]), (⟨by decide +kernel, by decide +kernel, by decide +kernel, by decide +kernel,
        by decide +kernel, by decide +kernel, by decide +kernel⟩), (⟨by decide +kernel, by decide +kernel⟩), by decide +kernel⟩,
    ⟨31, (inst [0x0D, 0]), (prog [0x0D, 0]), (⟨by decide +kernel, by decide +kernel, by decide +kernel, by decide +kernel,
        by decide +kernel, by decide +kernel, by decide +kernel⟩), (⟨by decide +kernel, by decide +kernel⟩), by decide +kernel,
        by decide +kernel, by decide +kernel⟩,
    ⟨31, ⟨[], ⟨false, 0⟩⟩, (rig .idle), _, rfl⟩,
    ⟨31, ⟨[⟨0, 0, true⟩], ⟨false, 0⟩⟩, (modDma 31 (fun x => { x with st := .run, inst := inst [0x0B], held := true, wpend := true }) (wr
        (R.DMA_DCn_DPATR 31) 0x200000F (eccRig .idle))), _, rfl⟩,
    ⟨31, 0, (fun _ s => s), (modDma 31 (fun x => { x with st := .run }) (wr (R.DMA_DCn_APTR 31) 0x07000000 (rig .idle))),
        by decide +kernel, by decide +kernel, by decide +kernel, by decide +kernel⟩,
    ⟨31, 0, (fun _ s => s), _, (prog [0, 1]), by decide +kernel, by decide +kernel, by decide +kernel, rfl, by decide +kernel,
        by decide +kernel⟩,
    ⟨(inst [0x0E]), by decide +kernel⟩,
    ⟨31, (inst [5]), (prog [5]), (⟨by decide +kernel, by decide +kernel, by decide +kernel, by decide +kernel, by decide +kernel,
        by decide +kernel, by decide +kernel⟩), by decide +kernel⟩,
    ⟨31, (inst [5]), (wr (R.DMA_DCn_SPATR 31) 9 (modDma 31 (fun x =>
        { x with srcSet := true, spatSet := true, dstSet := true, dpatSet := true }) (prog [5]))), (⟨by decide +kernel, by decide +kernel,
        by decide +kernel, by decide +kernel, by decide +kernel, by decide +kernel, by decide +kernel⟩), by decide +kernel,
        by decide +kernel⟩,
    ⟨31, (inst [5]), (wr (R.DMA_DCn_SPATR 31) 0xFFFFFF (wr (R.DMA_DCn_SROWS 31) 0xFFFF (wr (R.DMA_DCn_DPATR 31) 0xFFFFFF (wr
        (R.DMA_DCn_DROWS 31) 0xFFFF (modDma 31 (fun x => { x with srcSet := true, spatSet := true, dstSet := true, dpatSet := true }) (prog
        [5])))))), (⟨by decide +kernel, by decide +kernel, by decide +kernel, by decide +kernel, by decide +kernel, by decide +kernel,
        by decide +kernel⟩), by decide +kernel, by decide +kernel⟩,
    ⟨31, (inst [5]), ((modDma 31 (fun x => { x with srcSet := true, spatSet := true, dstSet := true, dpatSet := true }) (prog [5]))),
        (⟨by decide +kernel, by decide +kernel, by decide +kernel, by decide +kernel, by decide +kernel, by decide +kernel,
        by decide +kernel⟩), by decide +kernel, by decide +kernel, by decide +kernel⟩⟩

/-- What each clause of TransferProceeds assumes is met. -/
theorem test_witness_TransferProceeds :
    (∃ (n : Fin 32) (k : Fin 32) (i : Nat) (d : List Byte) (r : DmaRead) (s : State), outAt (dc s n).reads k = some i ∧ (dc s
      n).reads[i]? = some r ∧ r.data = none ∧ (srcSide s n).space = 0) ∧
    (∃ (n : Fin 32) (k : Fin 32) (i : Nat) (d : List Byte) (r : DmaRead) (s : State), outAt (dc s n).reads k = some i ∧ (dc s
      n).reads[i]? = some r ∧ r.data = none ∧ (srcSide s n).space = 0) ∧
    (∃ (n : Fin 32) (k : Fin 32) (i : Nat) (r : DmaRead) (s : State), outAt (dc s n).reads k = some i ∧ (dc s n).reads[i]? = some r ∧
      r.data = none ∧ (srcSide s n).space = 0 ∧ (dc s n).fail = none) ∧
    (∃ (n : Fin 32) (k : Fin 32) (i : Nat) (e : DmaReadEnd) (r : DmaRead) (bs : List Byte) (s : State), outAt (dc s n).reads k = some i
      ∧ (dc s n).reads[i]? = some r ∧ r.data = none ∧ (srcSide s n).space = 1 ∧ r.got = some bs ∧ bs.length = r.len) ∧
    (∃ (n : Fin 32) (k : Fin 32) (i : Nat) (e : DmaReadEnd) (r : DmaRead) (bs : List Byte) (s : State), outAt (dc s n).reads k = some i
      ∧ (dc s n).reads[i]? = some r ∧ r.data = none ∧ (srcSide s n).space = 1 ∧ r.got = some bs ∧ bs.length ≠ r.len ∧ (dc s n).fail =
      none) ∧
    (∃ (n : Nat) (j : Nat) (r : DmaRead) (s : State), (dc s n).unserved = some j ∧ (dc s n).reads[j]? = some r ∧ sramOn s r.addr r.len =
      true) ∧
    (∃ (s : State) (port : Nat) (ask : Nat → Bool) (n : Nat), portPick s port ask = some n) ∧
    (∃ (s : State) (port : Nat) (ask : Nat → Bool) (m : Nat), m = (vat s.dmaTurn port + 1) % 32 ∧ ask m = true ∧ fld s (R.DMA_DCn_CFG m)
      5 5 = 1) ∧
    (∃ (n : Fin 32) (s : State), (dc s n).st = .pausing ∧ (dc s n).outstanding = 0 ∧ (dc s n).after = 0 ∧ (dc s n).hold = [] ∧ (dc s
      n).fail = none) ∧
    (∃ (n : Fin 32) (s : State), ((dc s n).st ≠ .pausing ∨ (dc s n).outstanding ≠ 0)) ∧
    (∃ (n : Fin 32) (s : State), ((dc s n).st ≠ .pausing ∨ (dc s n).outstanding ≠ 0)) ∧
    (∃ (x : DmaSide) (i : Nat) (m : Nat) (b : Nat), 0 < x.acnt ∧ 0 < b) ∧
    (∃ (x : DmaSide) (i : Nat) (m : Nat) (b : Nat) (k : Nat), 0 < x.acnt ∧ 0 < b ∧ k < x.len i m b) :=
  ⟨⟨31, 0, 0, (List.replicate 16 0), ⟨0, 16, 0x2000, none, none⟩, (wr (R.DMA_DCn_SPATR 31) 0x000000F (modDma 31 (fun x =>
        { x with st := .run, xfer := true, reads := [⟨0, 16, 0x2000, none, none⟩] }) (rig .idle))), by decide +kernel, by decide +kernel,
        by decide +kernel, by decide +kernel⟩,
    ⟨31, 0, 1, (List.replicate 16 0), ⟨0, 16, 0x2000, none, none⟩, (wr (R.DMA_DCn_SPATR 31) 0x000000F (modDma 31 (fun x =>
        { x with st := .run, xfer := true, reads := [⟨0, 16, 0x1FF0, some [], none⟩, ⟨0, 16, 0x2000, none, none⟩] }) (rig .idle))),
        by decide +kernel, by decide +kernel, by decide +kernel, by decide +kernel⟩,
    ⟨31, 31, 39, ⟨0, 16, 0x2000, none, none⟩, (wr (R.DMA_DCn_SPATR 31) 0x000000F (modDma 31 (fun x =>
        { x with st := .run, xfer := true, reads := List.replicate 8 ⟨0, 16, 0x1FF0, some [], none⟩ ++ List.replicate 32 ⟨0, 16, 0x2000, none, none⟩ })
        (rig .idle))), by decide +kernel, by decide +kernel, by decide +kernel, by decide +kernel, by decide +kernel⟩,
    ⟨31, 0, 0, .bad, ⟨0, 16, 0x2000, none, some (List.replicate 16 0)⟩, (List.replicate 16 0), (wr (R.DMA_DCn_SPATR 31) 0x100000F
        (modDma 31 (fun x => { x with st := .run, xfer := true, reads := [⟨0, 16, 0x2000, none, some (List.replicate 16 0)⟩] }) (rig
        .idle))), by decide +kernel, by decide +kernel, by decide +kernel, by decide +kernel, by decide +kernel, by decide +kernel⟩,
    ⟨31, 0, 0, .bad, ⟨0, 16, 0x2000, none, some (List.replicate 0 0)⟩, [], (wr (R.DMA_DCn_SPATR 31) 0x100000F (modDma 31 (fun x =>
        { x with st := .run, xfer := true, reads := [⟨0, 16, 0x2000, none, some (List.replicate 0 0)⟩] }) (rig .idle))), by decide +kernel,
        by decide +kernel, by decide +kernel, by decide +kernel, by decide +kernel, by decide +kernel, by decide +kernel⟩,
    ⟨31, 0, ⟨0, 16, 0x2000, none, none⟩, (wr (R.DMA_DCn_SPATR 31) 0x100000F (modDma 31 (fun x =>
        { x with st := .run, xfer := true, reads := [⟨0, 16, 0x2000, none, none⟩] }) (rig .idle))), by decide +kernel, by decide +kernel,
        by decide +kernel⟩,
    ⟨(rig .idle), 1, (fun n => n = 31), 31, by decide +kernel⟩,
    ⟨(wr (R.DMA_DCn_CFG 0) 0x20 (rig .idle)), 0, (fun _ => true), 0, by decide +kernel, by decide +kernel, by decide +kernel⟩,
    ⟨31, (modDma 31 (fun x => { x with st := .pausing, inst := inst [] }) (rig .idle)), by decide +kernel, by decide +kernel,
        by decide +kernel, by decide +kernel, by decide +kernel⟩,
    ⟨31, (rig .idle), by decide +kernel⟩,
    ⟨31, (modDma 31 (fun x => { x with st := .pausing, inst := inst [], reads := [⟨0, 16, 0, none, none⟩] }) (rig .idle)),
        by decide +kernel⟩,
    ⟨⟨0, 10, 2, 64, 0⟩, 0, 4, 16, by decide +kernel, by decide +kernel⟩,
    ⟨⟨0, 10, 2, 64, 0⟩, 0, 4, 16, 0, by decide +kernel, by decide +kernel, by decide +kernel⟩⟩

/-- What each clause of QueuesAndSignals assumes is met. -/
theorem test_witness_QueuesAndSignals :
    (∃ (n : Fin 32) (s : State), mayWrite s n = true) ∧
    (∃ (n : Fin 32) (s : State), mayWrite s n = false) ∧
    (∃ (q : Fin 32) (s : State), fld s (R.DMA_CQn_CFG q) 2 2 = 1 ∧ vat s.cqSince q ≠ 0) ∧
    (∃ (q : Fin 32) (head : BitVec 16) (s : State), windowOpen s 0 (R.DMA_CQn_HEAD q) true = true) ∧
    (∃ (sg : Fin 64) (count : Byte) (s : State), windowOpen s 0 R.DMA_SIGRAISE true = true) ∧
    (∃ (sg : Fin 64) (count : Byte) (s : State), windowOpen s 0 R.DMA_SIGRAISE true = true) ∧
    (∃ (sg : Fin 64) (v : Nat) (s : State), s.regsWf ∧ v < 256) ∧
    (∃ (sg : Fin 64) (n : Nat) (s : State), s.regsWf) ∧
    (∃ (n : Fin 32) (rel : BitVec 8) (v : Word) (s : State), isShadow rel.toNat = true ∧ windowOpen s 0 (R.DMA_DCn_STAT n + rel.toNat)
      true = true ∧ (dc s n).arm = false) ∧
    (∃ (n : Fin 32) (rel : BitVec 8) (v : Word) (s : State), isShadow rel.toNat = true ∧ windowOpen s 0 (R.DMA_DCn_STAT n + rel.toNat)
      true = true ∧ (dc s n).arm = true) :=
  ⟨⟨31, (modDma 31 (fun x => { x with st := .cqfull, inst := inst [], recs := [⟨0, 0, 0, 0, 0, 0, 0, false⟩] }) (rig .idle)),
        by decide +kernel⟩,
    ⟨31, (rig .idle), by decide +kernel⟩,
    ⟨31, { wr (R.DMA_CQn_CFG 31) 4 (rig .idle) with cqSince := Vector.replicate 32 1 }, by decide +kernel, by decide +kernel⟩,
    ⟨31, 1, (rig .idle), by decide +kernel⟩,
    ⟨63, 1, (rig .idle), by decide +kernel⟩,
    ⟨63, 255, (rig .idle), by decide +kernel⟩,
    ⟨63, 255, (rig .idle), by decide +kernel, by decide +kernel⟩,
    ⟨63, 3, (rig .idle), by decide +kernel⟩,
    ⟨31, 0x7C, 1, (rig .idle), by decide +kernel, by decide +kernel, by decide +kernel⟩,
    ⟨31, 0x10, 1, (modDma 31 (fun x => { x with st := .idle, inst := inst [], arm := true }) (rig .idle)), by decide +kernel,
        by decide +kernel, by decide +kernel⟩⟩

/-- What each clause of ChannelCommands assumes is met. -/
theorem test_witness_ChannelCommands :
    (∃ (n : Fin 32) (s : State) (u : State), windowOpen s 0 (R.DMA_DCn_CMD n) true = true ∧ u = hostAccess s ∧ dmaTable u n 1 = 1 ∧ (dc
      u n).st = .idle) ∧
    (∃ (n : Fin 32) (s : State) (u : State), windowOpen s 0 (R.DMA_DCn_CMD n) true = true ∧ u = hostAccess s ∧ 5 ≤ gnum u ∧ (dc u n).st
      = .run) ∧
    (∃ (n : Fin 32) (s : State) (u : State), windowOpen s 0 (R.DMA_DCn_CMD n) true = true ∧ u = hostAccess s ∧ 5 ≤ gnum u ∧ (dc u n).st
      = .run) ∧
    (∃ (n : Fin 32) (s : State) (u : State), windowOpen s 0 (R.DMA_DCn_CMD n) true = true ∧ u = hostAccess s ∧ dmaTable u n 4 = 1 ∧ (dc
      u n).st = .paused) ∧
    (∃ (n : Fin 32) (s : State) (u : State), windowOpen s 0 (R.DMA_DCn_CMD n) true = true ∧ u = hostAccess s ∧ 5 ≤ gnum u ∧ (dc u n).st
      ∈ [DmaSt.run, .wait, .cqfull, .pausing, .paused]) ∧
    (∃ (n : Fin 32) (s : State) (u : State), windowOpen s 0 (R.DMA_DCn_CMD n) true = true ∧ u = hostAccess s ∧ 5 ≤ gnum u ∧ (dc u n).st
      ∈ [DmaSt.run, .wait, .cqfull, .pausing, .paused]) ∧
    (∃ (n : Fin 32) (s : State) (u : State), windowOpen s 0 (R.DMA_DCn_CMD n) true = true ∧ u = hostAccess s ∧ 5 ≤ gnum u ∧ (dc u n).st
      ∈ [DmaSt.run, .wait, .cqfull, .pausing, .paused]) ∧
    (∃ (n : Fin 32) (s : State) (u : State), windowOpen s 0 (R.DMA_DCn_CMD n) true = true ∧ u = hostAccess s ∧ 5 ≤ gnum u ∧ (dc u n).st
      ∈ [DmaSt.run, .wait, .cqfull, .pausing, .paused]) ∧
    (∃ (n : Fin 32) (s : State) (u : State), windowOpen s 0 (R.DMA_DCn_CMD n) true = true ∧ u = hostAccess s ∧ 5 ≤ gnum u ∧ (dc u n).st
      ∈ [DmaSt.run, .wait, .cqfull, .pausing, .paused]) ∧
    (∃ (n : Fin 32) (s : State) (u : State), windowOpen s 0 (R.DMA_DCn_CMD n) true = true ∧ u = hostAccess s ∧ 5 ≤ gnum u) ∧
    (∃ (n : Fin 32) (s : State) (u : State), windowOpen s 0 (R.DMA_DCn_CMD n) true = true ∧ u = hostAccess s ∧ 5 ≤ gnum u) ∧
    (∃ (n : Fin 32) (s : State) (u : State), windowOpen s 0 (R.DMA_DCn_CMD n) true = true ∧ u = hostAccess s ∧ 5 ≤ gnum u ∧ (dc u n).st
      = .error) ∧
    (∃ (n : Fin 32) (s : State) (u : State), windowOpen s 0 (R.DMA_DCn_CMD n) true = true ∧ u = hostAccess s ∧ u.glb.state ≠ .off ∧ gnum
      u < 5) ∧
    (∃ (n : Fin 32) (s : State), 5 ≤ gnum s ∧ s.glb.state ≠ .safeHold ∧ s.glb.state ≠ .shutdown ∧ (dc s n).st = .idle) ∧
    (∃ (n : Fin 32) (s : State), 5 ≤ gnum s ∧ (s.glb.state = .safeHold ∨ s.glb.state = .shutdown)) ∧
    (∃ (n : Fin 32) (s : State), 5 ≤ gnum s ∧ (s.glb.state = .safeHold ∨ s.glb.state = .shutdown)) :=
  ⟨⟨31, (modDma 31 (fun x => { x with st := .idle, inst := inst [], arm := true }) (rig .idle)), _, by decide +kernel, rfl,
        by decide +kernel, by decide +kernel⟩,
    ⟨31, (modDma 31 (fun x => { x with st := .run, inst := inst [] }) (rig .idle)), _, by decide +kernel, rfl, by decide +kernel,
        by decide +kernel⟩,
    ⟨31, (modDma 31 (fun x => { x with st := .run, inst := inst [] }) (rig .idle)), _, by decide +kernel, rfl, by decide +kernel,
        by decide +kernel⟩,
    ⟨31, (modDma 31 (fun x => { x with st := .paused, inst := inst [] }) (rig .idle)), _, by decide +kernel, rfl, by decide +kernel,
        by decide +kernel⟩,
    ⟨31, (modDma 31 (fun x => { x with st := .run, inst := inst [] }) (rig .idle)), _, by decide +kernel, rfl, by decide +kernel,
        by decide +kernel⟩,
    ⟨31, (modDma 31 (fun x => { x with st := .wait, inst := inst [] }) (rig .idle)), _, by decide +kernel, rfl, by decide +kernel,
        by decide +kernel⟩,
    ⟨31, (modDma 31 (fun x => { x with st := .cqfull, inst := inst [] }) (rig .idle)), _, by decide +kernel, rfl, by decide +kernel,
        by decide +kernel⟩,
    ⟨31, (modDma 31 (fun x => { x with st := .pausing, inst := inst [] }) (rig .idle)), _, by decide +kernel, rfl, by decide +kernel,
        by decide +kernel⟩,
    ⟨31, (modDma 31 (fun x => { x with st := .paused, inst := inst [] }) (rig .idle)), _, by decide +kernel, rfl, by decide +kernel,
        by decide +kernel⟩,
    ⟨31, (rig .idle), _, by decide +kernel, rfl, by decide +kernel⟩,
    ⟨31, (rig .shutdown), _, by decide +kernel, rfl, by decide +kernel⟩,
    ⟨31, (modDma 31 (fun x => { x with st := .error, inst := inst [] }) (rig .idle)), _, by decide +kernel, rfl, by decide +kernel,
        by decide +kernel⟩,
    ⟨31, (rig .selftest), _, by decide +kernel, rfl, by decide +kernel, by decide +kernel⟩,
    ⟨31, (rig .print), by decide +kernel, by decide +kernel, by decide +kernel, by decide +kernel⟩,
    ⟨31, (rig .safeHold), by decide +kernel, by decide +kernel⟩,
    ⟨31, (rig .shutdown), by decide +kernel, by decide +kernel⟩⟩

/-- What each clause of Memories assumes is met. -/
theorem test_witness_Memories :
    (∃ (b : Fin 8) (s : State) (u : State), windowOpen s 0 R.MEM_CMD true = true ∧ u = hostAccess s ∧ memTable u 1 b = 1 ∧ u.mem.test =
      none) ∧
    (∃ (b : Fin 8) (s : State) (u : State), windowOpen s 0 R.MEM_CMD true = true ∧ u = hostAccess s ∧ 5 ≤ gnum u ∧ u.glb.state ≠
      .shutdown ∧ bkState u b = 1 ∧ bkBusy u b = false) ∧
    (∃ (b : Fin 8) (s : State) (u : State), windowOpen s 0 R.MEM_CMD true = true ∧ u = hostAccess s ∧ u.glb.state = .idle ∧ bankOn u b =
      true ∧ bankInUse u b = false) ∧
    (∃ (b : Fin 8) (s : State) (u : State), windowOpen s 0 R.MEM_CMD true = true ∧ u = hostAccess s ∧ u.glb.state = .idle) ∧
    (∃ (s : State), s.mem.test = none) ∧
    (∃ (s : State) (t : MarchTest), s.mem.test = some t) ∧
    (∃ (faults : List (Fin 12582912)) (b : Nat) (s : State), s.mem.test = none ∧ s.mem.cut = some b) ∧
    (∃ (b : Fin 8) (s : State) (u : State), windowOpen s 0 R.MEM_CMD true = true ∧ u = hostAccess s ∧ 5 ≤ gnum u ∧ u.glb.state ≠
      .shutdown ∧ bankOn u b = true ∧ bankInUse u b = true) ∧
    (∃ (b : Fin 8) (s : State) (u : State), windowOpen s 0 R.MEM_CMD true = true ∧ u = hostAccess s ∧ u.glb.state ≠ .off ∧ (gnum u < 5 ∨
      u.glb.state = .shutdown)) ∧
    (∃ (b : Fin 8) (s : State) (u : State), windowOpen s 0 R.MEM_CMD true = true ∧ u = hostAccess s ∧ u.glb.state ≠ .off ∧ (gnum u < 5 ∨
      u.glb.state = .shutdown)) ∧
    (∃ (b : Fin 8) (s : State) (s1 : State), bkBusy s b = true ∧ bkState s b = 0 ∧ vat s.mem.target b = 1 ∧ s1 = setF R.MEM_BKSTAT (16 +
      b) (16 + b) 0 (setF R.MEM_BKSTAT (2 * b + 1) (2 * b) 1 s)) ∧
    (∃ (b : Fin 8) (s : State), bkBusy s b = true ∧ bkState s b = 2 ∧ vat s.mem.target b = 1 ∧ testWaits s b = true ∧ bitOf
      s.mem.powered.toNat b = false) ∧
    (∃ (b : Fin 8) (s : State), bkBusy s b = false) ∧
    (∃ (t : MarchTest) (s : State), s.mem.test = some t) ∧
    (∃ (b : Fin 8) (s : State) (a : Nat), s.memWf ∧ b * bankSize ≤ a ∧ a < (b + 1) * bankSize) ∧
    (∃ (b : Fin 8) (s : State) (a : Nat), s.memWf ∧ b * bankSize ≤ a ∧ a < (b + 1) * bankSize) ∧
    (∃ (s : State) (i : Nat), fld s R.MEM_MARCHCFG 0 0 = 1 ∧ s.mem.win = none ∧ s.mem.test = none ∧ s.glb.div = 0 ∧ 3 ≤ gnum s ∧ gnum s
      < 9 ∧ nextWindow s s.mem.next = some i) ∧
    (∃ (s : State), (fld s R.MEM_MARCHCFG 0 0 = 0 ∨ s.mem.win ≠ none)) ∧
    (∃ (s : State), (fld s R.MEM_MARCHCFG 0 0 = 0 ∨ s.mem.win ≠ none)) ∧
    (∃ (s : State) (w : Nat), s.mem.win = some w ∧ nextWindow (setF R.MEM_BKSTAT (24 + bankOf w) (24 + bankOf w) 0 s) (w / 4096 + 1) =
      none) ∧
    (∃ (s : State) (w : Nat), s.mem.win = none ∧ s.mem.late = some w) ∧
    (∃ (s : State) (w : Nat) (f : MarchFault), s.mem.win = none ∧ s.mem.late = some w) ∧
    (∃ (s : State) (i : Nat) (j : Nat), nextWindow s i = some j) ∧
    (∃ (s : State) (a : Nat) (n : Nat) (w : Nat), s.mem.win = some w ∧ w < a + n ∧ a < w + 4096) ∧
    (∃ (s : State) (a : Nat) (n : Nat) (w : Nat), s.mem.win = some w ∧ (a + n ≤ w ∨ w + 4096 ≤ a)) ∧
    (∃ (s : State) (a : Nat) (n : Nat) (w : Nat), s.mem.win = some w ∧ (a + n ≤ w ∨ w + 4096 ≤ a)) ∧
    (∃ (off : BitVec 27) (n : Nat) (s : State) (s1 : State), windowOpen s 2 off.toNat false = true ∧ off.toNat + n ≤ sramSize ∧ (∀ b :
      Fin 8, bankOn s b = true) ∧ s1 = marchYield off.toNat n (hostAccess s)) ∧
    (∃ (off : BitVec 27) (x : Byte) (s : State), windowOpen s 2 off.toNat true = true ∧ off.toNat < sramSize ∧ (∀ b : Fin 8, bankOn s b
      = true)) ∧
    (∃ (off : BitVec 28) (n : Nat) (s : State), windowOpen s 4 off.toNat false = true ∧ fld s R.XMC_WINBASE 5 0 * 2 ^ 28 + off.toNat + n
      ≤ xmcUsable s ∧ 0 < n) ∧
    (∃ (off : BitVec 28) (n : Nat) (e : EccErr) (s : State) (base : Nat), base = fld s R.XMC_WINBASE 5 0 * 2 ^ 28 + off.toNat ∧
      windowOpen s 4 off.toNat false = true ∧ 0 < n ∧ base + n ≤ xmcUsable s ∧ xmcEcc s = true ∧ 32 * (base / 32 + e.unit) < base + n) ∧
    (∃ (off : BitVec 28) (n : Nat) (e : EccErr) (s : State) (base : Nat), base = fld s R.XMC_WINBASE 5 0 * 2 ^ 28 + off.toNat ∧
      windowOpen s 4 off.toNat false = true ∧ 0 < n ∧ base + n ≤ xmcUsable s ∧ xmcEcc s = true ∧ 32 * (base / 32 + e.unit) < base + n) ∧
    (∃ (off : BitVec 28) (n : Nat) (e : List EccErr) (s : State), windowOpen s 4 off.toNat false = true ∧ xmcUsable s ≤ fld s
      R.XMC_WINBASE 5 0 * 2 ^ 28 + off.toNat) ∧
    (∃ (off : BitVec 28) (x : Byte) (s : State), windowOpen s 4 off.toNat true = true ∧ fld s R.XMC_WINBASE 5 0 * 2 ^ 28 + off.toNat <
      xmcUsable s) ∧
    (∃ (bar : Fin 8) (off : Nat) (write : Bool) (s : State) (s1 : State), windowOpen s bar off write = false ∧ s.glb.state ≠ .off ∧ s1 =
      (if write then hostAccess s else respond bar off [0, 0, 0, 0] (hostAccess s))) ∧
    (∃ (bar : Fin 8) (off : Nat) (write : Bool) (s : State), s.glb.state = .off) ∧
    (∃ (s : State) (bar : Nat) (off : Nat) (w : Bool), s.glb.state = .off) ∧
    (∃ (s : State) (off : Nat) (w : Bool), s.glb.state = .imageLoad) :=
  ⟨⟨7, (rig .idle), _, by decide +kernel, rfl, by decide +kernel, by decide +kernel⟩,
    ⟨7, (wr R.MEM_BKSTAT 0x4000 (rig .idle)), _, by decide +kernel, rfl, by decide +kernel, by decide +kernel, by decide +kernel,
        by decide +kernel⟩,
    ⟨7, (rig .idle), _, by decide +kernel, rfl, by decide +kernel, by decide +kernel, by decide +kernel⟩,
    ⟨7, (rig .idle), _, by decide +kernel, rfl, by decide +kernel⟩,
    ⟨State.reset, by decide +kernel⟩,
    ⟨{ rig .idle with mem := { Mem.reset with test := some ⟨7, 5⟩ } }, ⟨7, 5⟩, by decide +kernel⟩,
    ⟨[], 7, { rig .idle with mem := { Mem.reset with cut := some 7 } }, by decide +kernel, by decide +kernel⟩,
    ⟨0, (modDma 31 (fun x => { x with st := .run }) (wr (R.DMA_DCn_APTR 31) 0x2000 (rig .print))), _, by decide +kernel, rfl,
        by decide +kernel, by decide +kernel, by decide +kernel, by decide +kernel⟩,
    ⟨7, (rig .selftest), _, by decide +kernel, rfl, by decide +kernel, by decide +kernel⟩,
    ⟨7, (rig .shutdown), _, by decide +kernel, rfl, by decide +kernel, by decide +kernel⟩,
    ⟨0, { wr R.MEM_BKSTAT 0x10000 (rig .idle) with mem := { Mem.reset with target := Vector.replicate 8 1 } }, _, by decide +kernel,
        by decide +kernel, by decide +kernel, rfl⟩,
    ⟨0,
        { wr R.MEM_BKSTAT 0x10002 (rig .selftest) with mem := { Mem.reset with target := Vector.replicate 8 1 }, bru := { Bru.reset with memory := .running }, ldr := { (rig .selftest).ldr with testBanks := 1 } },
        by decide +kernel, by decide +kernel, by decide +kernel, by decide +kernel, by decide +kernel⟩,
    ⟨7, (rig .idle), by decide +kernel⟩,
    ⟨⟨0, 0⟩, { rig .idle with mem := { Mem.reset with test := some ⟨0, 0⟩ } }, by decide +kernel⟩,
    ⟨7, (rig .idle), 0x5FFFFFF, by decide +kernel, by decide +kernel, by decide +kernel⟩,
    ⟨7, (rig .idle), 0x5400000, by decide +kernel, by decide +kernel, by decide +kernel⟩,
    ⟨(wr R.MEM_MARCHCFG 1 (rig .idle)), 0, by decide +kernel, by decide +kernel, by decide +kernel, by decide +kernel,
        by decide +kernel, by decide +kernel, by decide +kernel⟩,
    ⟨(wr R.MEM_MARCHCFG 0 (rig .idle)), by decide +kernel⟩,
    ⟨{ wr R.MEM_MARCHCFG 1 (rig .idle) with mem := { Mem.reset with win := some 0 } }, by decide +kernel⟩,
    ⟨{ rig .idle with mem := { Mem.reset with win := some 0x5FFF000 } }, 0x5FFF000, by decide +kernel, by decide +kernel⟩,
    ⟨{ rig .idle with mem := { Mem.reset with late := some 0x1000 } }, 0x1000, by decide +kernel, by decide +kernel⟩,
    ⟨{ rig .idle with mem := { Mem.reset with late := some 0x1000 } }, 0x1000, ⟨4095, none⟩, by decide +kernel, by decide +kernel⟩,
    ⟨(rig .idle), 0, 0, by decide +kernel⟩,
    ⟨{ rig .idle with mem := { Mem.reset with win := some 0x1000 } }, 0xFFF, 2, 0x1000, by decide +kernel, by decide +kernel,
        by decide +kernel⟩,
    ⟨{ rig .idle with mem := { Mem.reset with win := some 0x1000 } }, 0xFFF, 1, 0x1000, by decide +kernel, by decide +kernel⟩,
    ⟨{ rig .idle with mem := { Mem.reset with win := some 0x1000 } }, 0x2000, 1, 0x1000, by decide +kernel, by decide +kernel⟩,
    ⟨0x5FFFFFF, 1, (rig .idle), _, by decide +kernel, by decide +kernel, by decide +kernel, rfl⟩,
    ⟨0x5FFFFFF, 1, (rig .idle), by decide +kernel, by decide +kernel, by decide +kernel⟩,
    ⟨0xFFFFFFF, 1, (rig .idle), by decide +kernel, by decide +kernel, by decide +kernel⟩,
    ⟨0xFFFFFFF, 1, ⟨0, 3, true⟩, (eccRig .idle), _, rfl, by decide +kernel, by decide +kernel, by decide +kernel, by decide +kernel,
        by decide +kernel⟩,
    ⟨0xFFFFFFF, 1, ⟨0, 3, false⟩, (eccRig .idle), _, rfl, by decide +kernel, by decide +kernel, by decide +kernel, by decide +kernel,
        by decide +kernel⟩,
    ⟨0, 1, [], (wr R.XMC_WINBASE 4 (rig .idle)), by decide +kernel, by decide +kernel⟩,
    ⟨0xFFFFFFF, 1, (rig .idle), by decide +kernel, by decide +kernel⟩,
    ⟨0, 0x20000, false, (bare .imageLoad), _, by decide +kernel, by decide +kernel, rfl⟩,
    ⟨0, 0, false, (bare .off), by decide +kernel⟩,
    ⟨(bare .off), 0, 0, true, by decide +kernel⟩,
    ⟨(bare .imageLoad), 0x10000, true, by decide +kernel⟩⟩

/-- What each clause of HostLink assumes is met. -/
theorem test_witness_HostLink :
    (∃ (s : State), s.hst.bme = true) ∧
    (∃ (s : State), s.hst.bme = false) ∧
    (∃ (s : State) (s1 : State), s.hst.bme = false ∧ cfgReply s = .success ∧ s1 = { s with hst := { s.hst with bme := true } }) ∧
    (∃ (s : State), cfgReply s ≠ .success) ∧
    (∃ (s : State), s.glb.perst = false ∧ s.glb.porst = false ∧ s.glb.state ≠ .off) ∧
    (∃ (s : State), s.hst.bme = true) ∧
    (∃ (x : Output) (s : State), s.hst.bme = false) ∧
    (∃ (x : Output) (s : State), s.hst.bme = true) ∧
    (∃ (s : State), s.hst.bme = false) ∧
    (∃ (off : BitVec 24) (size : Nat) (s : State), windowOpen s 0 off.toNat true = true) ∧
    (∃ (off : BitVec 24) (size : Nat) (s : State), windowOpen s 0 off.toNat false = true) ∧
    (∃ (status : Word) (header : Word) (s : State), s.hst.lastAer = none) ∧
    (∃ (status : Word) (header : Word) (u : Bool) (t : Nat) (s : State), s.hst.lastAer = some t ∧ s.now < t + 2 ^ 20) ∧
    (∃ (status : Word) (header : Word) (s : State) (t : Nat), s.hst.lastAer = some t ∧ t + 2 ^ 20 ≤ s.now) ∧
    (∃ (s : State), s.hst.linkSpeed ≠ 0 ∧ linkQuiet s = true) ∧
    (∃ (s : State), linkQuiet s = false) ∧
    (∃ (v : Fin 64) (s : State), s.hst.msixMask = true) ∧
    (∃ (v : Fin 64) (s : State), s.hst.msixMask = false ∧ fld s (R.MSIX_TABLE v 3) 0 0 = 0) ∧
    (∃ (v : Fin 64) (s : State) (s1 : State), windowOpen s 0 (R.MSIX_TABLE v 3) true = true ∧ s1 = setF (R.MSIX_TABLE v 3) 0 0 0
      (hostAccess s) ∧ s.hst.msixMask = false ∧ fld s1 (R.MSIX_PBA (v / 32)) (v % 32) (v % 32) = 1 ∧ fld s1 (R.MSIX_TABLE v 3) 0 0 = 0) ∧
    (∃ (head : BitVec 16) (s : State), windowOpen s 0 R.HST_EVHEAD true = true) ∧
    (∃ (v : Word) (s : State) (s1 : State), windowOpen s 0 R.HST_EVCFG true = true ∧ fld s R.HST_EVCFG 0 0 = 0 ∧ bits v 0 0 = 1 ∧ 8 ≤
      bits v 12 8 ∧ bits v 12 8 ≤ 16 ∧ (bits v 1 1 = 0 ∨ sramOn s (evRing s).1 (32 * 2 ^ bits v 12 8) = true) ∧ s1 = setF R.HST_EVTAIL 15
      0 0 (setF R.HST_EVHEAD 15 0 0 (wr R.HST_EVCFG (v &&& regStored R.HST_EVCFG) (hostAccess s)))) ∧
    (∃ (v : Word) (s : State) (s1 : State), windowOpen s 0 R.HST_EVCFG true = true ∧ fld s R.HST_EVCFG 0 0 = 0 ∧ bits v 0 0 = 1 ∧ 8 ≤
      bits v 12 8 ∧ bits v 12 8 ≤ 16 ∧ (bits v 1 1 = 0 ∨ sramOn s (evRing s).1 (32 * 2 ^ bits v 12 8) = true) ∧ s1 = setF R.HST_EVTAIL 15
      0 0 (setF R.HST_EVHEAD 15 0 0 (wr R.HST_EVCFG (v &&& regStored R.HST_EVCFG) (hostAccess s)))) ∧
    (∃ (v : Word) (s : State), windowOpen s 0 R.HST_EVCFG true = true ∧ fld s R.HST_EVCFG 0 0 = 0 ∧ bits v 0 0 = 1 ∧ 8 ≤ bits v 12 8 ∧
      bits v 12 8 ≤ 16 ∧ bits v 1 1 = 1 ∧ sramOn s (evRing s).1 (32 * 2 ^ bits v 12 8) = false) ∧
    (∃ (v : Word) (s : State), windowOpen s 0 R.HST_EVCFG true = true ∧ fld s R.HST_EVCFG 0 0 = 0 ∧ bits v 0 0 = 1 ∧ 8 ≤ bits v 12 8 ∧
      bits v 12 8 ≤ 16 ∧ bits v 1 1 = 1 ∧ sramOn s (evRing s).1 (32 * 2 ^ bits v 12 8) = false) ∧
    (∃ (v : Word) (s : State), windowOpen s 0 R.HST_EVCFG true = true ∧ fld s R.HST_EVCFG 0 0 = 0 ∧ bits v 0 0 = 0 ∧ 8 ≤ bits v 12 8 ∧
      bits v 12 8 ≤ 16) ∧
    (∃ (v : Word) (s : State), windowOpen s 0 R.HST_EVCFG true = true ∧ fld s R.HST_EVCFG 0 0 = 0 ∧ bits v 0 0 = 0 ∧ 8 ≤ bits v 12 8 ∧
      bits v 12 8 ≤ 16) ∧
    (∃ (s : State), fld s R.HST_EVCFG 2 2 = 1 ∧ s.hst.sinceVec ≠ 0) ∧
    (∃ (s : State), windowOpen s 0 R.HST_OCCCLR true = true) ∧
    (∃ (s : State), windowOpen s 0 R.HST_OCCCLR true = true) ∧
    (∃ (s : State), windowOpen s 0 R.HST_INVCTL true = true) :=
  ⟨⟨{ rig .idle with hst := { Hst.reset with bme := true } }, by decide +kernel⟩,
    ⟨(rig .idle), by decide +kernel⟩,
    ⟨{ rig .idle with hst := { Hst.reset with cfgReady := true } }, _, by decide +kernel, by decide +kernel, rfl⟩,
    ⟨(rig .idle), by decide +kernel⟩,
    ⟨(rig .idle), by decide +kernel, by decide +kernel, by decide +kernel⟩,
    ⟨{ rig .idle with hst := { Hst.reset with bme := true } }, by decide +kernel⟩,
    ⟨(.msix 0), (rig .idle), by decide +kernel⟩,
    ⟨(.msix 0), { rig .idle with hst := { Hst.reset with bme := true } }, by decide +kernel⟩,
    ⟨(rig .idle), by decide +kernel⟩,
    ⟨0, 4, (rig .idle), by decide +kernel⟩,
    ⟨0x7FFFFC, 4, (rig .selftest), by decide +kernel⟩,
    ⟨1, 2, (rig .idle), by decide +kernel⟩,
    ⟨1, 2, true, 0, { rig .idle with hst := { Hst.reset with lastAer := some 0 } }, by decide +kernel, by decide +kernel⟩,
    ⟨1, 2, { rig .idle with hst := { Hst.reset with lastAer := some 0 }, now := 2 ^ 20 }, 0, by decide +kernel, by decide +kernel⟩,
    ⟨{ rig .idle with hst := { Hst.reset with linkSpeed := 4 } }, by decide +kernel, by decide +kernel⟩,
    ⟨{ rig .idle with hst := { Hst.reset with lanBusy := some (0, []) } }, by decide +kernel⟩,
    ⟨63, { rig .idle with hst := { Hst.reset with msixMask := true } }, by decide +kernel⟩,
    ⟨63, (wr (R.MSIX_TABLE 63 3) 0 (rig .idle)), by decide +kernel, by decide +kernel⟩,
    ⟨63, (wr (R.MSIX_PBA 1) 0x80000000 (rig .idle)), _, by decide +kernel, rfl, by decide +kernel, by decide +kernel, by decide +kernel⟩,
    ⟨0, (rig .idle), by decide +kernel⟩,
    ⟨0x801, (rig .idle), _, by decide +kernel, by decide +kernel, by decide +kernel, by decide +kernel, by decide +kernel,
        by decide +kernel, rfl⟩,
    ⟨0x1003, (wr R.MEM_BKSTAT 0 (rig .idle)), _, by decide +kernel, by decide +kernel, by decide +kernel, by decide +kernel,
        by decide +kernel, by decide +kernel, rfl⟩,
    ⟨0x803, (wr R.MEM_BKSTAT 0xAAAA (rig .idle)), by decide +kernel, by decide +kernel, by decide +kernel, by decide +kernel,
        by decide +kernel, by decide +kernel, by decide +kernel⟩,
    ⟨0x1003, (wr R.HST_EVBASE_LO 0x6000000 (rig .idle)), by decide +kernel, by decide +kernel, by decide +kernel, by decide +kernel,
        by decide +kernel, by decide +kernel, by decide +kernel⟩,
    ⟨0x800, (rig .idle), by decide +kernel, by decide +kernel, by decide +kernel, by decide +kernel, by decide +kernel⟩,
    ⟨0x1000, (rig .idle), by decide +kernel, by decide +kernel, by decide +kernel, by decide +kernel, by decide +kernel⟩,
    ⟨{ wr R.HST_EVCFG 4 (rig .idle) with hst := { Hst.reset with sinceVec := 1 } }, by decide +kernel, by decide +kernel⟩,
    ⟨(rig .idle), by decide +kernel⟩,
    ⟨(rig .idle), by decide +kernel⟩,
    ⟨(rig .idle), by decide +kernel⟩⟩

/-- What each clause of LanternAndI2c assumes is met. -/
theorem test_witness_LanternAndI2c :
    (∃ (s : State), s.glb.state ≠ .off ∧ gnum s < 5) ∧
    (∃ (s : State), 5 ≤ gnum s ∧ s.hst.lanBusy ≠ none) ∧
    (∃ (s : State), 5 ≤ gnum s ∧ s.hst.lanBusy = none ∧ lanAstray s = false) ∧
    (∃ (s : State) (q : Word) (b : List Byte), s.hst.lanBusy = some (q, b) ∧ fld s R.HST_LANCFG 0 0 = 0 ∧ s.hst.bme = false) ∧
    (∃ (s : State) (q : Word) (b : List Byte) (s1 : State), s.hst.lanBusy = some (q, b) ∧ fld s R.HST_LANCFG 0 0 = 0 ∧ s.hst.bme = true
      ∧ fld s R.HST_LANCFG 1 1 = 0 ∧ s.hst.lanPending = false ∧ s1 = wr R.HST_LANSEQ q (hostWrite (lanBase s) b
      { s with hst := { s.hst with lanBusy := none } })) ∧
    (∃ (s : State) (q : Word) (b : List Byte), s.hst.lanBusy = some (q, b) ∧ lanAstray s = true ∧ s.hst.lanPending = false) ∧
    (∃ (high : Byte) (mid : Byte) (low : Byte) (s : State), s.glb.state ≠ .off) ∧
    (∃ (s : State), s.glb.state ≠ .off) ∧
    (∃ (s : State) (u : Nat × List Byte), u = i2cUnit s s.hst.i2cPtr ∧ s.hst.i2cPtr = u.1) ∧
    (∃ (s : State), s.glb.state ≠ .off) ∧
    (∃ (s : State), s.glb.state = .off) :=
  ⟨⟨(rig .linkTrain), by decide +kernel, by decide +kernel⟩,
    ⟨{ rig .idle with hst := { Hst.reset with lanBusy := some (0, []) } }, by decide +kernel, by decide +kernel⟩,
    ⟨(rig .idle), by decide +kernel, by decide +kernel, by decide +kernel⟩,
    ⟨{ rig .idle with hst := { Hst.reset with lanBusy := some (1, [7]) } }, 1, [7], by decide +kernel, by decide +kernel,
        by decide +kernel⟩,
    ⟨{ rig .idle with hst := { Hst.reset with bme := true, lanBusy := some (1, [7]) } }, 1, [7], _, by decide +kernel,
        by decide +kernel, by decide +kernel, by decide +kernel, by decide +kernel, rfl⟩,
    ⟨{ rig .idle with hst := { Hst.reset with lanBusy := some (1, [7]) }, regs := [(R.HST_LANCFG, 1), (R.HST_LANBASE_LO, 0x6000000)] },
        1, [7], by decide +kernel, by decide +kernel, by decide +kernel⟩,
    ⟨0, 0, 0x24, (rig .idle), by decide +kernel⟩,
    ⟨(rig .idle), by decide +kernel⟩,
    ⟨(rig .idle), _, rfl, by decide +kernel⟩,
    ⟨(rig .idle), by decide +kernel⟩,
    ⟨(bare .off), by decide +kernel⟩⟩

/-- What each clause of RegisterWrites assumes is met. -/
theorem test_witness_RegisterWrites :
    (∃ (o : Nat) (d : RegDesc) (v : Word) (s : State), s.regsWf ∧ regDesc o = some d ∧ d.w1s = 0 ∧ d.w1c = 0 ∧ regStored o = ~~~(0 :
      Word)) ∧
    (∃ (o : Nat) (v : Word) (s : State) (o' : Nat), o' ≠ o) ∧
    (∃ (off : BitVec 24) (v : Word) (pins : Pins) (s : State), windowOpen s 0 off.toNat true = true ∧ (regDesc off.toNat).isSome = true
      ∧ off.toNat < 0x800000 ∧ isInvar off.toNat = false) ∧
    (∃ (off : BitVec 24) (v : Word) (pins : Pins) (s : State), windowOpen s 0 off.toNat true = true ∧ (regDesc off.toNat).isSome = true
      ∧ off.toNat < 0x800000 ∧ isInvar off.toNat = false) ∧
    (∃ (off : BitVec 24) (v : Word) (pins : Pins) (s : State), windowOpen s 0 off.toNat true = true ∧ regDesc off.toNat = none) ∧
    (∃ (off : BitVec 24) (v : Word) (pins : Pins) (s : State), windowOpen s 0 off.toNat true = true ∧ regDesc off.toNat = none) ∧
    (∃ (off : BitVec 24) (v : Word) (pins : Pins) (s : State), windowOpen s 0 off.toNat true = false) ∧
    (∃ (off : BitVec 24) (v : Word) (pins : Pins) (s : State), windowOpen s 0 off.toNat true = true ∧ isInvar off.toNat = true ∧
      off.toNat < 0x800000) ∧
    (∃ (off : BitVec 24) (v : Word) (s : State), windowOpen s 0 off.toNat true = true ∧ isInvar off.toNat = true ∧ off.toNat % 8 = 0 ∧
      fld s R.HST_INVCTL 0 0 = 0) ∧
    (∃ (off : BitVec 24) (v : Word) (s : State), windowOpen s 0 off.toNat true = true ∧ isInvar off.toNat = true ∧ off.toNat % 8 = 0 ∧
      fld s R.HST_INVCTL 0 0 = 1) ∧
    (∃ (off : BitVec 24) (v : Word) (c : Word) (s : State), windowOpen s 0 off.toNat true = true ∧ isInvar off.toNat = true ∧ off.toNat
      % 8 = 0 ∧ c ≠ ~~~v) ∧
    (∃ (off : BitVec 24) (v : Word) (c : Word) (s : State), windowOpen s 0 off.toNat true = true ∧ isInvar off.toNat = true) ∧
    (∃ (o : Nat) (v : Word) (s : State), s.regsWf ∧ regStored (o + 4) = ~~~(0 : Word)) ∧
    (∃ (off : BitVec 24) (v : Word) (s : State), windowOpen s 0 off.toNat true = true ∧ R.TBL_SUBST ≤ off.toNat ∧ off.toNat <
      R.TBL_USTEP) ∧
    (∃ (off : BitVec 24) (v : Word) (s : State), windowOpen s 0 off.toNat true = true ∧ R.TBL_SUBST ≤ off.toNat ∧ off.toNat <
      R.TBL_USTEP) ∧
    (∃ (off : BitVec 24) (v : Word) (h : Word) (s : State), windowOpen s 0 off.toNat true = true ∧ R.TBL_THERMAL ≤ off.toNat ∧ off.toNat
      < R.TBL_USTEP) ∧
    (∃ (off : BitVec 24) (v : Word) (h : Word) (s : State), windowOpen s 0 off.toNat true = true ∧ R.TBL_THERMAL ≤ off.toNat ∧ off.toNat
      < R.TBL_USTEP) ∧
    (∃ (off : BitVec 24) (v : Word) (s : State), windowOpen s 0 off.toNat true = true ∧ off.toNat % 4 = 0 ∧ (regDesc off.toNat).isSome =
      true ∧ R.TBL_USTEP ≤ off.toNat ∧ (off.toNat < R.TBL_WAVE ∨ 0x963800 ≤ off.toNat)) ∧
    (∃ (off : BitVec 24) (v : Word) (s : State), windowOpen s 0 off.toNat true = true ∧ off.toNat % 4 = 0 ∧ (regDesc off.toNat).isSome =
      true ∧ R.TBL_USTEP ≤ off.toNat ∧ (off.toNat < R.TBL_WAVE ∨ 0x963800 ≤ off.toNat)) ∧
    (∃ (off : BitVec 24) (v : Word) (s : State), windowOpen s 0 off.toNat true = true ∧ off.toNat % 4 = 0 ∧ (regDesc off.toNat).isSome =
      true ∧ R.TBL_WAVE ≤ off.toNat ∧ off.toNat < 0x963800) ∧
    (∃ (off : BitVec 24) (v : Word) (s : State), windowOpen s 0 off.toNat true = true ∧ off.toNat % 4 = 0 ∧ (regDesc off.toNat).isSome =
      true ∧ R.TBL_HEALTH ≤ off.toNat ∧ off.toNat < R.TBL_SUBST) ∧
    (∃ (off : BitVec 24) (v : Word) (h : Word) (s : State), windowOpen s 0 off.toNat true = true ∧ off.toNat % 8 = 0 ∧ (regDesc
      off.toNat).isSome = true ∧ R.TBL_SUBST ≤ off.toNat ∧ off.toNat < R.TBL_THERMAL) ∧
    (∃ (off : BitVec 24) (v : Word) (h : Word) (s : State), windowOpen s 0 off.toNat true = true ∧ off.toNat % 8 = 0 ∧ (regDesc
      off.toNat).isSome = true ∧ R.TBL_SUBST ≤ off.toNat ∧ off.toNat < R.TBL_THERMAL) ∧
    (∃ (input : Fin 56) (mv : BitVec 16) (s : State), s.glb.state ≠ .off ∧ s.glb.state ≠ .reset ∧ fld s R.ADC_CTL 0 0 = 1 ∧ input.val ∉
      adcClaimed s) ∧
    (∃ (input : Fin 56) (mv : BitVec 16) (s : State), (fld s R.ADC_CTL 0 0 = 0 ∨ input.val ∈ adcClaimed s)) ∧
    (∃ (input : Fin 56) (mv : BitVec 16) (s : State), (fld s R.ADC_CTL 0 0 = 0 ∨ input.val ∈ adcClaimed s)) :=
  ⟨⟨36, _, 1, (rig .idle), by decide +kernel, rfl, by decide +kernel, by decide +kernel, by decide +kernel⟩,
    ⟨36, 1, (rig .idle), 40, by decide +kernel⟩,
    ⟨36, 1, ⟨true, 1⟩, (rig .idle), by decide +kernel, by decide +kernel, by decide +kernel, by decide +kernel⟩,
    ⟨0x600010, 1, ⟨true, 1⟩, (rig .idle), by decide +kernel, by decide +kernel, by decide +kernel, by decide +kernel⟩,
    ⟨2, 1, ⟨true, 1⟩, (rig .idle), by decide +kernel, by decide +kernel⟩,
    ⟨0x963800, 1, ⟨true, 1⟩, (rig .idle), by decide +kernel, by decide +kernel⟩,
    ⟨36, 1, ⟨true, 1⟩, (bare .off), by decide +kernel⟩,
    ⟨524392, 1, ⟨true, 1⟩, (rig .idle), by decide +kernel, by decide +kernel, by decide +kernel⟩,
    ⟨524392, 1, (rig .idle), by decide +kernel, by decide +kernel, by decide +kernel, by decide +kernel⟩,
    ⟨524392, 1, (wr R.HST_INVCTL 1 (rig .idle)), by decide +kernel, by decide +kernel, by decide +kernel, by decide +kernel⟩,
    ⟨524392, 1, 1, (rig .idle), by decide +kernel, by decide +kernel, by decide +kernel, by decide +kernel⟩,
    ⟨524396, 1, 2, (rig .idle), by decide +kernel, by decide +kernel⟩,
    ⟨32, 1, (rig .idle), by decide +kernel, by decide +kernel⟩,
    ⟨0x900000, 1, (rig .idle), by decide +kernel, by decide +kernel, by decide +kernel⟩,
    ⟨0x95FFFF, 1, (rig .idle), by decide +kernel, by decide +kernel, by decide +kernel⟩,
    ⟨0x920000, 1, 2, (rig .idle), by decide +kernel, by decide +kernel, by decide +kernel⟩,
    ⟨0x95FFFF, 1, 2, (rig .idle), by decide +kernel, by decide +kernel, by decide +kernel⟩,
    ⟨0x960000, 1, (rig .idle), by decide +kernel, by decide +kernel, by decide +kernel, by decide +kernel, by decide +kernel⟩,
    ⟨0xA00000, 1, (rig .idle), by decide +kernel, by decide +kernel, by decide +kernel, by decide +kernel, by decide +kernel⟩,
    ⟨0x9637FC, 1, (rig .idle), by decide +kernel, by decide +kernel, by decide +kernel, by decide +kernel, by decide +kernel⟩,
    ⟨0x800000, 1, (rig .idle), by decide +kernel, by decide +kernel, by decide +kernel, by decide +kernel, by decide +kernel⟩,
    ⟨0x900000, 1, 2, (rig .idle), by decide +kernel, by decide +kernel, by decide +kernel, by decide +kernel, by decide +kernel⟩,
    ⟨0x91FFF8, 1, 2, (rig .idle), by decide +kernel, by decide +kernel, by decide +kernel, by decide +kernel, by decide +kernel⟩,
    ⟨0, 0xFFFF, (wr R.ADC_CTL 1 (rig .idle)), by decide +kernel, by decide +kernel, by decide +kernel, by decide +kernel⟩,
    ⟨0, 1, (wr R.ADC_CTL 0 (rig .idle)), by decide +kernel⟩,
    ⟨55, 1, (wr R.ADC_CTL 1 (rig .idle)), by decide +kernel⟩⟩

/-- What each clause of FlagSetWins assumes is met. -/
theorem test_witness_FlagSetWins :
    (∃ (off : BitVec 24) (bit : Fin 32) (s : State), windowOpen s 0 off.toNat true = true ∧ isW1c off.toNat bit = true) ∧
    (∃ (off : BitVec 24) (bit : Fin 32) (s : State), windowOpen s 0 off.toNat true = true ∧ isW1c off.toNat bit = true) ∧
    (∃ (off : BitVec 24) (bit : Fin 32) (s : State), s.regsWf ∧ isW1c off.toNat bit = true ∧ bitOf (regStored off.toNat).toNat bit =
      true) :=
  ⟨⟨131168, 3, (rig .idle), by decide +kernel, by decide +kernel⟩,
    ⟨131168, 3, (rig .idle), by decide +kernel, by decide +kernel⟩,
    ⟨131168, 3, (rig .idle), by decide +kernel, by decide +kernel, by decide +kernel⟩⟩

end Sys2Proof.Tests
end

section
/-!
PROOFS. One step of the block: the idle tick on an empty queue, and the invariant at reset and after every step (spec/00_scope.md R3, R6;
spec/17_host_control.md R526).
-/
namespace Sys2Proof.Machine

/-! ## The idle tick -/

/-- Only the head ports and the record of outputs differ. -/
def PortsMove (s t : State) : Prop := ∃ h o, t = { s with hlp := h, out := o }

theorem PortsMove.refl (s : State) : PortsMove s s := ⟨_, _, rfl⟩

theorem PortsMove.trans {s t u : State} (h : PortsMove s t) (k : PortsMove t u) : PortsMove s u := by
  obtain ⟨_, _, rfl⟩ := h
  obtain ⟨_, _, rfl⟩ := k
  exact ⟨_, _, rfl⟩

theorem portsMove_emit (x : Output) (s : State) : PortsMove s (emit x s) := ⟨_, _, rfl⟩

theorem portsMove_modTx (p : Nat) (f : Lanes → Lanes) (s : State) : PortsMove s (modTx p f s) := ⟨_, _, rfl⟩

theorem portsMove_startFrame (p : Nat) (x : TxItem) (s : State) : PortsMove s (startFrame p x s) := ⟨_, _, rfl⟩

theorem portsMove_startItem (p at_ : Nat) (x : TxItem) (s : State) : PortsMove s (startItem p at_ x s) := by
  unfold startItem
  dsimp only
  split
  · exact (portsMove_emit ..).trans (portsMove_modTx ..)
  · exact (portsMove_startFrame ..).trans (portsMove_modTx ..)

theorem portsMove_suspendFor (p at_ : Nat) (x : TxItem) (s : State) : PortsMove s (suspendFor p at_ x s) := by
  unfold suspendFor
  exact (((portsMove_emit ..).trans (portsMove_startFrame ..)).trans (portsMove_emit ..)).trans (portsMove_modTx ..)

theorem portsMove_txGo (n p start : Nat) (s : State) : PortsMove s (txGo n p start s) := by
  induction n generalizing s with
  | zero => exact .refl s
  | succ n ih =>
    unfold txGo
    dsimp only
    split
    · split
      · exact .refl s
      · exact (portsMove_modTx ..).trans ((portsMove_startItem ..).trans (ih _))
    · split
      · exact .refl s
      · split
        · exact (portsMove_modTx ..).trans ((portsMove_suspendFor ..).trans (ih _))
        · exact .refl s

theorem portsMove_laneTick (p : Nat) (s : State) : PortsMove s (laneTick p s) := by
  unfold laneTick
  dsimp only
  split
  · exact (portsMove_txGo ..).trans ((portsMove_modTx ..).trans (portsMove_emit ..))
  · exact portsMove_txGo ..

theorem portsMove_forEach (l : List Nat) (f : Nat → State → State) (h : ∀ i s, PortsMove s (f i s)) (s : State) :
    PortsMove s (forEach l f s) := by
  unfold forEach
  induction l generalizing s with
  | nil => exact .refl s
  | cons i l ih => exact (h i s).trans (ih _)

/-- In a tick bell time moves by one, and besides it the head ports and the record of outputs alone. -/
theorem tick_portsMove (s : State) : PortsMove { s with now := s.now + 1 } (tick s) :=
  portsMove_forEach _ _ portsMove_laneTick _

/-- A port's lanes have nothing to send and carry IDLE. -/
def LanesStill (s : State) (p : Nat) : Prop := (hp s p).tx.queue = [] ∧ (hp s p).tx.idle = true

theorem txGo_of_queue_nil (n p start : Nat) (s : State) (h : (hp s p).tx.queue = []) : txGo n p start s = s := by
  cases n with
  | zero => rfl
  | succ n =>
    have hready : (hp s p).ready = [] := by simp [Hlp.ready, h]
    have hnext : nextItem [] = none := by decide
    unfold txGo
    simp only [hready, hnext, List.find?_nil, ite_self]

theorem laneTick_of_lanesStill {p : Nat} {s : State} (h : LanesStill s p) : laneTick p s = s := by
  obtain ⟨hqueue, hidle⟩ := h
  unfold laneTick
  simp [txGo_of_queue_nil _ _ _ _ hqueue, hidle]

/-- A port's number counts modulo the 16 ports. -/
theorem hp_mod (s : State) (p : Nat) : hp s (p % 16) = hp s p := by simp [hp, vat]

theorem tick_of_lanesStill {s : State} (h : ∀ p : Fin 16, LanesStill s p) : tick s = { s with now := s.now + 1 } := by
  have still : ∀ p, LanesStill { s with now := s.now + 1 } p := fun p => by
    have hp16 := h ⟨p % 16, Nat.mod_lt _ (by decide)⟩
    unfold LanesStill at hp16 ⊢
    rwa [hp_mod] at hp16
  exact List.foldl_fixed' (fun p => laneTick_of_lanesStill (still p)) _

theorem step_of_pending_nil {s : State} (h : s.pending = []) : step s = .next (tick s) := by unfold step; rw [h]

theorem step_of_pending_cons {s : State} {c : Instr} {rest : List Instr} (h : s.pending = c :: rest) :
    step s = exec c { s with pending := rest } := by unfold step; rw [h]

/-- Settles O2: a tick moves the head ports and the record of outputs alone, and each port's lanes stand where nothing waits. -/
theorem stepIdles : Obligations.StepIdles := by
  intro s hpending
  refine ⟨tick s, step_of_pending_nil hpending, ?_, (fq_tick s).out, tick_of_lanesStill⟩
  obtain ⟨_, _, e⟩ := tick_portsMove s
  rw [e]

/-! ## The invariant -/

/-- Settles O5: nothing is written, queued or raised right after reset. -/
theorem reset_Inv : Obligations.Reset_Inv := by
  have empty {α : Type} [DecidableEq α] (d : Nat → α) : Sparse.wf d [] := ⟨.nil, fun _ h => nomatch h⟩
  exact ⟨⟨empty _, empty _⟩, ⟨empty _, fun _ h => nomatch h⟩, by decide, rfl, rfl, rfl⟩

/-- The idle tick keeps the invariant. -/
theorem tick_inv {s : State} (h : s.Inv) : (tick s).Inv := by
  obtain ⟨hmem, hregs, hqueues, hraised, hnoted, hsig⟩ := h
  obtain ⟨hmem', hregs', hqueues'⟩ := (fq_tick s).wf ⟨hmem, hregs, hqueues⟩
  refine ⟨hmem', hregs', hqueues', ?_⟩
  obtain ⟨_, _, e⟩ := tick_portsMove s
  rw [e]
  exact ⟨hraised, hnoted, hsig⟩

/-- A command brings every well-formed state to one that meets the invariant: what it does keeps the canonical forms and the bounds, and its
end delivers every event and clears what it has noted. -/
theorem exec_inv {c : Instr} {s t : State} (h : s.Wf) (e : exec c s = .next t) : t.Inv := by
  obtain ⟨t', e', keeps⟩ := exec_kp c s
  obtain ⟨u, hu⟩ := exec_finish c s
  cases e.symm.trans e'
  obtain ⟨hmem, hregs, hqueues⟩ := keeps.wf h
  cases finish_eq_next (f := id) (hu.symm.trans e)
  exact ⟨hmem, hregs, hqueues, flush_raised u, flush_marks u⟩

/-- Settles O6, by the two kinds of step: the idle tick and a command. -/
theorem stepKeepsInv : Obligations.StepKeepsInv := by
  intro s t h e
  cases hpending : s.pending with
  | nil =>
    have ht : tick s = t := Host.Outcome.next.inj ((step_of_pending_nil hpending).symm.trans e)
    exact ht ▸ tick_inv h
  | cons c rest =>
    rw [step_of_pending_cons hpending] at e
    obtain ⟨hmem, hregs, hqueues, -⟩ := h
    exact exec_inv (s := { s with pending := rest }) ⟨hmem, hregs, hqueues⟩ e

end Sys2Proof.Machine
end

section
/-!
PROOFS. Register writes by the host: plain registers and flags bit by bit, the Invar protocol, the tables window and the background samples of
the ADC (spec/00_scope.md R6 to R8; spec/17_host_control.md R515, R518; spec/18_register_map.md R541 to R545).
-/
namespace Sys2Proof.Machine

/-! ## Single bits -/

theorem bits_self (w : Word) (k : Nat) : bits w k k = (w.getLsbD k).toNat := by
  unfold bits
  rw [Nat.add_sub_cancel_left, pow_one, Nat.shiftRight_eq_div_pow, ← Nat.toNat_testBit, BitVec.testBit_toNat]

theorem bitOf_toNat (w : Word) (k : Nat) : bitOf w.toNat k = w.getLsbD k := by
  unfold bitOf
  rw [← BitVec.testBit_toNat, Nat.testBit_eq_decide_div_mod_eq]

theorem getLsbD_oneHot (b k : Nat) (hk : k < 32) : (BitVec.ofNat 32 (2 ^ b)).getLsbD k = decide (b = k) := by
  rw [BitVec.getLsbD_ofNat, Nat.testBit_two_pow, decide_eq_true hk, Bool.true_and]

/-! ## Registers -/

/-- A register write keeps the canonical form of the registers. -/
theorem wr_regsWf {s : State} (o : Nat) (v : Word) (h : s.regsWf) : (wr o v s).regsWf := by
  refine ⟨Sparse.set_wf o _ h.1, fun p hp => ?_⟩
  rcases Sparse.mem_set _ _ _ _ hp with hp | ⟨rfl, -⟩
  · exact h.2 p hp
  · rw [BitVec.and_assoc, BitVec.and_not_self]
    exact BitVec.and_zero

theorem plainWrite_of_desc {o : Nat} {d : RegDesc} (h : regDesc o = some d) (v : Word) (s : State) :
    plainWrite o v s =
      wr o (((rd s o &&& ~~~d.rw) ||| (v &&& d.rw) ||| (v &&& d.w1s)) &&& ~~~(v &&& d.w1c)) s := by
  unfold plainWrite; rw [h]

theorem plainWrite_of_none {o : Nat} (h : regDesc o = none) (v : Word) (s : State) : plainWrite o v s = s := by
  unfold plainWrite; rw [h]

/-- A plain write leaves every other register alone. -/
theorem rd_plainWrite_of_ne {o o' : Nat} (v : Word) (s : State) (h : o' ≠ o) : rd (plainWrite o v s) o' = rd s o' := by
  cases e : regDesc o with
  | none => rw [plainWrite_of_none e]
  | some d => rw [plainWrite_of_desc e, rd_wr_of_ne _ _ h]

/-- A plain register without reserved bits keeps its read-only bits and takes the others (R7). -/
theorem rd_plainWrite_self {o : Nat} {d : RegDesc} (v : Word) {s : State} (hs : s.regsWf) (hd : regDesc o = some d) (hset : d.w1s = 0)
    (hclear : d.w1c = 0) (hall : regStored o = ~~~(0 : Word)) :
    rd (plainWrite o v s) o = (rd s o &&& ~~~d.rw) ||| (v &&& d.rw) := by
  have and_ones (x : Word) : x &&& ~~~(0 : Word) = x := BitVec.and_allOnes
  have and_none : v &&& (0 : Word) = 0 := BitVec.and_zero
  have or_none (x : Word) : x ||| (0 : Word) = x := BitVec.or_zero
  rw [plainWrite_of_desc hd, rd_wr_self _ _ _ hs, hall, hset, hclear, and_none, or_none, and_ones, and_ones]

/-- An Invar register whose complement word has no reserved bits reads as a pair once it is written (R11, R518). -/
theorem rd_putInvar_complement (o : Nat) (v : Word) {s : State} (hs : s.regsWf) (hall : regStored (o + 4) = ~~~(0 : Word)) :
    rd (putInvar o v s) (o + 4) = ~~~(rd (putInvar o v s) o) := by
  have hlow : rd (wr (o + 4) (~~~(v &&& regStored o)) (wr o (v &&& regStored o) s)) o = v &&& regStored o := by
    rw [rd_wr_of_ne _ _ (by omega), rd_wr_self _ _ _ hs, BitVec.and_assoc, BitVec.and_self]
  have hhigh : rd (wr (o + 4) (~~~(v &&& regStored o)) (wr o (v &&& regStored o) s)) (o + 4) = ~~~(v &&& regStored o) := by
    rw [rd_wr_self _ _ _ (wr_regsWf _ _ hs), hall]
    exact BitVec.and_allOnes
  change rd (wr _ _ _) (o + 4) = ~~~(rd (wr _ _ _) o)
  rw [hlow, hhigh]

/-! ## Flags -/

/-- The flags that a write of ones names read 0, the other bits of the register as before (R8). -/
theorem rd_clearFlags_self {o : Nat} {d : RegDesc} (v : Word) {s : State} (hs : s.regsWf) (hd : regDesc o = some d) :
    rd (clearFlags o v s) o = rd s o &&& ~~~(v &&& d.w1c) &&& regStored o := by
  unfold clearFlags
  rw [rd_wr_self _ _ _ hs, hd]
  rfl

theorem isW1c_desc {o bit : Nat} (h : isW1c o bit = true) : ∃ d, regDesc o = some d ∧ d.w1c.getLsbD bit = true := by
  unfold isW1c at h
  cases e : regDesc o with
  | none => rw [e] at h; cases h
  | some d => rw [e] at h; exact ⟨d, rfl, by rwa [← bitOf_toNat]⟩

theorem fld_clearFlags_self {o : Nat} {bit : Fin 32} {s : State} (hs : s.regsWf) (h : isW1c o bit = true) :
    fld (clearFlags o (BitVec.ofNat 32 (2 ^ bit.val)) s) o bit bit = 0 := by
  obtain ⟨d, hd, hflag⟩ := isW1c_desc h
  unfold fld
  rw [bits_self, rd_clearFlags_self _ hs hd]
  simp only [BitVec.getLsbD_and, BitVec.getLsbD_not, getLsbD_oneHot _ _ bit.isLt, hflag, bit.isLt]
  simp

theorem fld_clearFlags_of_ne {o k : Nat} {bit : Fin 32} {s : State} (hs : s.regsWf) (h : isW1c o bit = true) (hk : k < 32)
    (hne : k ≠ bit) (hstored : bitOf (regStored o).toNat k = true) :
    fld (clearFlags o (BitVec.ofNat 32 (2 ^ bit.val)) s) o k k = fld s o k k := by
  obtain ⟨d, hd, -⟩ := isW1c_desc h
  rw [bitOf_toNat] at hstored
  unfold fld
  rw [bits_self, bits_self, rd_clearFlags_self _ hs hd]
  simp only [BitVec.getLsbD_and, BitVec.getLsbD_not, getLsbD_oneHot _ _ hk, hstored, hk, hne.symm]
  simp

/-- A flag that hardware sets reads 1. -/
theorem fld_setFlag_self {o : Nat} {bit : Fin 32} {s : State} (hs : s.regsWf) (hstored : bitOf (regStored o).toNat bit = true) :
    fld (setFlag o bit s) o bit bit = 1 := by
  have hmask : bits (regStored o) bit bit = 2 ^ (bit.val + 1 - bit.val) - 1 := by
    rw [bits_self, ← bitOf_toNat, hstored, Nat.add_sub_cancel_left]
    rfl
  change fld (setF o bit bit 1 s) o bit bit = 1
  rw [fld_setF s o 1 hs (Nat.le_refl _) bit.isLt hmask, Nat.add_sub_cancel_left]
  rfl

/-- A write of 1 to a flag clears it; a setting in the same cycle comes after the clearing (R8). -/
theorem w1cFlagClear_completes {off : BitVec 24} {bit : Fin 32} {s : State} (sets : Bool) (hopen : windowOpen s 0 off.toNat true = true)
    (hflag : isW1c off.toNat bit = true) :
    Completes (.w1cFlagClear off bit sets) s
      (let cleared := clearFlags off.toNat (BitVec.ofNat 32 (2 ^ bit.val)) (hostAccess s)
       if sets then setFlag off.toNat bit cleared else cleared) :=
  completes_of (congrArg finish ((viaBar0_open _ _ s hopen).trans (if_pos hflag)))

/-- Settles O60: the setting acts on the state that the clearing leaves. The clause on the other bits `k` has its `k < 32` in `Fin 32`, which
no `k` meets; here it is proved of every other bit, without that hypothesis. -/
theorem flagSetWins : Obligations.FlagSetWins :=
  ⟨fun _ _ _ hopen hflag => w1cFlagClear_completes false hopen hflag,
    fun _ _ _ hopen hflag => w1cFlagClear_completes true hopen hflag,
    fun _ _ _ hs hflag hstored =>
      ⟨fld_clearFlags_self hs hflag, fun k _ hne hk => fld_clearFlags_of_ne hs hflag k.isLt (Fin.val_ne_of_ne hne) hk,
        fld_setFlag_self (wr_regsWf _ _ hs) hstored⟩⟩

/-! ## Writes of one double word -/

theorem registerWrite_completes {off : BitVec 24} {s u : State} {v : Word} {pins : Pins} (hopen : windowOpen s 0 off.toNat true = true)
    (h : dwWrite off.toNat v pins (hostAccess s) = u) : Completes (.registerWrite off v pins) s u :=
  completes_of (congrArg finish ((viaBar0_open _ _ s hopen).trans h))

theorem registerWrite_closed {off : BitVec 24} {s : State} (v : Word) (pins : Pins) (hclosed : windowOpen s 0 off.toNat true = false) :
    Completes (.registerWrite off v pins) s (earlyAccess 0 off.toNat true 0 (hostAccess s)) :=
  completes_of (congrArg finish (viaBar0_closed _ _ s hclosed))

/-- An Invar register stands in the register map. -/
theorem regDesc_isSome_of_isInvar {o : Nat} (h : isInvar o = true) : (regDesc o).isSome = true := by
  unfold isInvar at h
  cases e : regDesc o with
  | none => rw [e] at h; cases h
  | some d => rfl

theorem dwWrite_unmapped {o : Nat} (v : Word) (pins : Pins) (s : State) (h : regDesc o = none) :
    dwWrite o v pins s = accessBad o 4 2 s := by
  simp [dwWrite, h]

theorem dwWrite_invar {o : Nat} (v : Word) (pins : Pins) (s : State) (h : isInvar o = true) (hbelow : o < 0x800000) :
    dwWrite o v pins s = invarRefuse o 1 v s := by
  simp [dwWrite, h, ← Option.not_isSome, regDesc_isSome_of_isInvar h, hbelow]

theorem dwWrite_register {o : Nat} (v : Word) (pins : Pins) (s : State) (hmap : (regDesc o).isSome = true) (hbelow : o < 0x800000)
    (h : isInvar o = false) : dwWrite o v pins s = writeReg o v pins s := by
  simp [dwWrite, ← Option.not_isSome, hmap, hbelow, h]

/-! ## Invar writes -/

theorem invarWrite_completes {off : BitVec 24} {whole : Bool} {s u : State} {v c : Word} (hopen : windowOpen s 0 off.toNat true = true)
    (hinvar : isInvar off.toNat = true) (h : invarWrite off.toNat whole v c (hostAccess s) = u) :
    Completes (.invarWrite off whole v c) s u :=
  completes_of (congrArg finish ((viaBar0_open _ _ s hopen).trans ((if_pos hinvar).trans h)))

theorem invarWrite_parted (o : Nat) (v c : Word) (s : State) : invarWrite o false v c s = invarRefuse o 1 v s := by
  simp [invarWrite]

theorem invarWrite_mismatch {o : Nat} {v c : Word} (s : State) (h8 : o % 8 = 0) (h : c ≠ ~~~v) :
    invarWrite o true v c s = invarRefuse o 2 v s := by
  simp [invarWrite, h8, h]

theorem invarWrite_locked {o : Nat} (v : Word) {s : State} (h8 : o % 8 = 0) (h : fld s R.HST_INVCTL 0 0 = 1) :
    invarWrite o true v (~~~v) s = invarRefuse o 3 v s := by
  simp [invarWrite, h8, h]

theorem invarWrite_stored {o : Nat} (v : Word) {s : State} (h8 : o % 8 = 0) (h : fld s R.HST_INVCTL 0 0 = 0) :
    invarWrite o true v (~~~v) s = invarChanged o (rd s o) (putInvar o v s) := by
  simp [invarWrite, h8, h]

/-! ## The tables window -/

theorem tableEntryWrite_completes {off : BitVec 24} {s u : State} {v : Word} {high : Option Word}
    (hopen : windowOpen s 0 off.toNat true = true) (h : tableWrite off.toNat v high (hostAccess s) = u) :
    Completes (.tableEntryWrite off v high) s u :=
  completes_of (congrArg finish ((viaBar0_open _ _ s hopen).trans h))

/-- A single double word to a substitution entry or into the thermal-state region is a bad access (R545). -/
theorem tableWrite_single_bad {o : Nat} (v : Word) (s : State) (hlo : R.TBL_SUBST ≤ o) (hhi : o < R.TBL_USTEP) :
    tableWrite o v none s = accessBad o 4 2 s := by
  unfold tableWrite
  by_cases hthermal : R.TBL_THERMAL ≤ o
  · simp [hthermal, hhi]
  · simp [hthermal, hlo, Nat.lt_of_not_le hthermal]

/-- Software cannot write the thermal-state region (R545). -/
theorem tableWrite_thermal_bad {o : Nat} (v h : Word) (s : State) (hlo : R.TBL_THERMAL ≤ o) (hhi : o < R.TBL_USTEP) :
    tableWrite o v (some h) s = accessBad o 8 2 s := by
  simp [tableWrite, hlo, hhi]

/-- A single double word to a table of 32-bit entries (R545). -/
theorem tableWrite_single {o : Nat} (v : Word) (s : State) (h4 : o % 4 = 0) (hmap : (regDesc o).isSome = true) (hlo : R.TBL_HEALTH ≤ o)
    (hout : o < R.TBL_SUBST ∨ R.TBL_USTEP ≤ o) : tableWrite o v none s = tableAfter o s (tableDw o v s) := by
  have hwindow : 0x800000 ≤ o := hlo
  rcases hout with hbelow | habove
  · have hthermal : ¬R.TBL_THERMAL ≤ o := Nat.not_le.2 (Nat.lt_trans hbelow (by decide))
    simp [tableWrite, h4, hmap, hwindow, hthermal, Nat.not_le.2 hbelow]
  · have hsubst : ¬o < R.TBL_THERMAL := Nat.not_lt.2 (Nat.le_trans (by decide) habove)
    simp [tableWrite, h4, hmap, hwindow, hsubst, Nat.not_lt.2 habove]

/-- A whole substitution entry (R545). -/
theorem tableWrite_subst {o : Nat} (v h : Word) (s : State) (h8 : o % 8 = 0) (hmap : (regDesc o).isSome = true) (hlo : R.TBL_SUBST ≤ o)
    (hhi : o < R.TBL_THERMAL) : tableWrite o v (some h) s = substWrite o v h s := by
  have h4 : o % 4 = 0 := by omega
  have hwindow : 0x800000 ≤ o := Nat.le_trans (by decide) hlo
  simp [tableWrite, h4, h8, hmap, hwindow, hlo, hhi, Nat.not_le.2 hhi]

theorem tableDw_health {o : Nat} (v : Word) (s : State) (h : o < R.TBL_SUBST) :
    tableDw o v s = healthWrite ((o - R.TBL_HEALTH) / 4) v s := if_pos h

theorem tableDw_entry {o : Nat} (v : Word) (s : State) (h : R.TBL_SUBST ≤ o) : tableDw o v s = wr o (v &&& regStored o) s :=
  if_neg (Nat.not_lt.2 h)

theorem tableAfter_wave {o : Nat} (s0 s : State) (hlo : R.TBL_WAVE ≤ o) (hhi : o < 0x963800) :
    tableAfter o s0 s = bankChanged ((o - R.TBL_WAVE) / 128) s0 (pulseCheck s) := if_pos ⟨hlo, hhi⟩

theorem tableAfter_other {o : Nat} (s0 s : State) (h : o < R.TBL_WAVE ∨ 0x963800 ≤ o) : tableAfter o s0 s = s :=
  if_neg (by omega)

/-! ## Background samples of the ADC -/

/-- A background slot takes the sample of an unclaimed input outside OFF and RESET (R542). -/
theorem adcBackgroundSample_taken {input : Fin 56} (mv : BitVec 16) {s : State} (hoff : s.glb.state ≠ .off) (hreset : s.glb.state ≠ .reset)
    (hctl : fld s R.ADC_CTL 0 0 = 1) (hfree : input.val ∉ adcClaimed s) :
    Completes (.adcBackgroundSample input mv) s (adcPut input (signed 16 mv.toNat) s) :=
  completes_of (congrArg finish (if_neg (by simp [hoff, hreset, hctl, hfree])))

/-- No background slot samples a claimed input, or while background sampling is off (R542). -/
theorem adcBackgroundSample_none {input : Fin 56} (mv : BitVec 16) {s : State} (h : fld s R.ADC_CTL 0 0 = 0 ∨ input.val ∈ adcClaimed s) :
    Completes (.adcBackgroundSample input mv) s s :=
  completes_of (congrArg finish (if_pos (.inr (.inr (h.imp_right List.contains_iff_mem.2)))))

/-- Settles O59, form by form of the write: plain registers, single double words, Invar writes, the tables window, and the samples of the
ADC. -/
theorem registerWrites : Obligations.RegisterWrites := by
  refine ⟨?plain, ?others, ?mapped, ?unmapped, ?closed, ?invarSingle, ?invarStored, ?invarLocked, ?invarMismatch, ?invarParted,
    ?invarPair, ?tableBad, ?thermalBad, ?entry, ?wave, ?health, ?subst, ?sample, ?noSample⟩
  case plain => exact fun _ _ v _ hs hd hset hclear hall => rd_plainWrite_self v hs hd hset hclear hall
  case others => exact fun _ v s _ hne => rd_plainWrite_of_ne v s hne
  case mapped =>
    exact fun _ v pins _ hopen hmap hbelow hplain => registerWrite_completes hopen (dwWrite_register v pins _ hmap hbelow hplain)
  case unmapped => exact fun _ v pins _ hopen hnone => registerWrite_completes hopen (dwWrite_unmapped v pins _ hnone)
  case closed => exact fun _ v pins _ hclosed => registerWrite_closed v pins hclosed
  case invarSingle =>
    exact fun _ v pins _ hopen hinvar hbelow => registerWrite_completes hopen (dwWrite_invar v pins _ hinvar hbelow)
  case invarStored => exact fun _ v _ hopen hinvar h8 hlock => invarWrite_completes hopen hinvar (invarWrite_stored v h8 hlock)
  case invarLocked => exact fun _ v _ hopen hinvar h8 hlock => invarWrite_completes hopen hinvar (invarWrite_locked v h8 hlock)
  case invarMismatch => exact fun _ _ _ _ hopen hinvar h8 hne => invarWrite_completes hopen hinvar (invarWrite_mismatch _ h8 hne)
  case invarParted => exact fun _ _ _ _ hopen hinvar => invarWrite_completes hopen hinvar (invarWrite_parted ..)
  case invarPair => exact fun o v _ hs hall => rd_putInvar_complement o v hs hall
  case tableBad => exact fun _ v _ hopen hlo hhi => tableEntryWrite_completes hopen (tableWrite_single_bad v _ hlo hhi)
  case thermalBad => exact fun _ v h _ hopen hlo hhi => tableEntryWrite_completes hopen (tableWrite_thermal_bad v h _ hlo hhi)
  case entry =>
    intro off v s hopen h4 hmap hlo hother
    refine tableEntryWrite_completes hopen ?_
    have hsubst : R.TBL_SUBST ≤ off.toNat := Nat.le_trans (by decide) hlo
    rw [tableWrite_single v _ h4 hmap (Nat.le_trans (by decide) hlo) (.inr hlo), tableAfter_other _ _ hother, tableDw_entry v _ hsubst]
  case wave =>
    intro off v s hopen h4 hmap hlo hhi
    refine tableEntryWrite_completes hopen ?_
    have hsubst : R.TBL_SUBST ≤ off.toNat := Nat.le_trans (by decide) hlo
    rw [tableWrite_single v _ h4 hmap (Nat.le_trans (by decide) hlo) (.inr (Nat.le_trans (by decide) hlo)), tableAfter_wave _ _ hlo hhi,
      tableDw_entry v _ hsubst]
  case health =>
    intro off v s hopen h4 hmap hlo hhi
    refine tableEntryWrite_completes hopen ?_
    have hbelow : off.toNat < R.TBL_WAVE := Nat.lt_trans hhi (by decide)
    rw [tableWrite_single v _ h4 hmap hlo (.inl hhi), tableAfter_other _ _ (.inl hbelow), tableDw_health v _ hhi]
  case subst =>
    exact fun _ v h _ hopen h8 hmap hlo hhi => tableEntryWrite_completes hopen (tableWrite_subst v h _ h8 hmap hlo hhi)
  case sample => exact fun _ mv _ hoff hreset hctl hfree => adcBackgroundSample_taken mv hoff hreset hctl hfree
  case noSample => exact fun _ mv _ h => adcBackgroundSample_none mv h

end Sys2Proof.Machine
end

section
/-!
PROOFS. Severities: what an event asks of the global state, and the records that change nothing else (spec/01_architecture.md R35, R37;
spec/17_host_control.md R525; spec/14_cascade.md R442).
-/
namespace Sys2Proof.Machine

/-! ## Recording an event, and spreading it over the chain -/

/-- Only the host interface, the cascade and the record of outputs differ. -/
def Spreads (s t : State) : Prop := ∃ h c o, t = { s with hst := h, cas := c, out := o }

theorem Spreads.refl (s : State) : Spreads s s := ⟨_, _, _, rfl⟩

theorem Spreads.trans {s t u : State} (h : Spreads s t) (k : Spreads t u) : Spreads s u := by
  obtain ⟨_, _, _, rfl⟩ := h
  obtain ⟨_, _, _, rfl⟩ := k
  exact ⟨_, _, _, rfl⟩

/-- Global control, the loader and the seamless stop stand. -/
theorem Spreads.keeps {s t : State} (h : Spreads s t) : t.glb = s.glb ∧ t.ldr = s.ldr ∧ t.ss = s.ss := by
  obtain ⟨_, _, _, rfl⟩ := h
  exact ⟨rfl, rfl, rfl⟩

theorem Spreads.ite {s a b : State} {c : Prop} [Decidable c] (h : Spreads s a) (k : Spreads s b) : Spreads s (if c then a else b) := by
  split <;> assumption

theorem spreads_foldl {α : Type} (l : List α) (f : State → α → State) (h : ∀ i s, Spreads s (f s i)) (s : State) :
    Spreads s (l.foldl f s) := by
  induction l generalizing s with
  | nil => exact .refl s
  | cons i l ih => exact (h i s).trans (ih _)

theorem spreads_casPut (port : Nat) (bs : List Byte) (s : State) : Spreads s (casPut port bs s) := .ite ⟨_, _, _, rfl⟩ (.refl s)

theorem spreads_casBroadcast (type : Nat) (body : List Byte) (s : State) : Spreads s (casBroadcast type body s) :=
  .trans ⟨_, _, _, rfl⟩ (spreads_foldl _ _ (fun _ _ => (spreads_casPut ..).trans (spreads_casPut ..)) _)

theorem spreads_casPeer (k : EvKind) (s : State) : Spreads s (casPeer k s) := by
  unfold casPeer
  split
  · exact .refl s
  · split
    · exact spreads_casBroadcast ..
    · exact spreads_casBroadcast ..
    · exact .refl s

theorem spreads_logPeer (k : EvKind) (i a0 a1 a2 : Nat) (s : State) : Spreads s (logPeer k i a0 a1 a2 s) :=
  .trans ⟨_, _, _, rfl⟩ (spreads_casPeer k _)

/-! ## The entry to STOPPING -/

/-- `u`: the state in which the entry to STOPPING has used the soft limits of a MOVE to rest. STOPPING is entered unless one of them
disagrees (R13, R35). -/
theorem enterStopping_state_of_use (c : Nat) {s u : State}
    (hu : (if s.ss.phase = 6 ∧ s.ss.mover then useSoft (trKind s) (trIndex s) s else s) = u) :
    (enterStopping c s).glb.state = if u.glb.state = .safeHold then .safeHold else .stopping := by
  unfold enterStopping
  rw [hu]
  extract_lets _ v
  have hv : v.glb.state = .stopping := (fq_ssStopping _).falls.trans (goto_state ..)
  split
  · assumption
  · split
    · exact (fq_unitStop ..).falls.trans hv
    · exact hv

theorem enterStopping_state (c : Nat) (s : State) :
    (enterStopping c s).glb.state = .stopping ∨ (enterStopping c s).glb.state = .safeHold := by
  rw [enterStopping_state_of_use c rfl]
  exact (ite_eq_or_eq ..).symm

/-- Outside ACCEL of a seamless stop the entry uses no Invar value (R411). -/
theorem enterStopping_state_of_phase_ne (c : Nat) {s : State} (hphase : s.ss.phase ≠ 6) (hhold : s.glb.state ≠ .safeHold) :
    (enterStopping c s).glb.state = .stopping := by
  rw [enterStopping_state_of_use c (if_neg fun h => hphase h.1), if_neg hhold]

/-! ## Severities -/

theorem haltable_iff (s : State) :
    haltable s = true ↔ s.glb.state ∈ [GState.selftest, .linkTrain, .idle, .armed, .print, .stopping] := by
  unfold haltable
  cases s.glb.state <;> decide

/-- Settles O11, severity by severity; each acts on the state in which the event has been recorded and spread. -/
theorem severities : Obligations.Severities := by
  have logged (k : EvKind) (i a b c : Nat) (s : State) : (logPeer k i a b c s).glb.state = s.glb.state :=
    (fq_logPeer k i a b c s).falls
  refine ⟨?log, ?stop, ?stopPrint, ?stopElse, ?halt, ?haltElse, haltable_iff⟩
  case log => exact fun k i a b c s h => ⟨raise_log i a b c s h, by rw [raise_log i a b c s h, logged]⟩
  case stop =>
    intro k i a b c s h hprint hphase
    obtain ⟨hglb, -, hss⟩ := (spreads_logPeer k i a b c s).keeps
    rw [raise_stop i a b c s h hprint]
    exact enterStopping_state_of_phase_ne _ (hss ▸ hphase) (by simp [hglb, hprint])
  case stopPrint =>
    intro k i a b c s h hprint
    rw [raise_stop i a b c s h hprint]
    exact enterStopping_state ..
  case stopElse => exact fun k i a b c s h hprint => by rw [raise_stop' i a b c s h hprint, logged]
  case halt => exact fun k i a b c s h hhalt => by rw [raise_halt i a b c s h hhalt, enterSafeHold_state]
  case haltElse => exact fun k i a b c s h hhalt => by rw [raise_halt' i a b c s h hhalt, logged]

end Sys2Proof.Machine
end

section
/-!
PROOFS. The global commands: their table, their status word, and where they are accepted and refused (spec/01_architecture.md R39, R40;
spec/14_cascade.md R440).
-/
namespace Sys2Proof.Machine

/-! ## The end of a command -/

theorem eq_flush_of_finish {u t : State} (h : finish u = .next t) : t = flush u := finish_eq_next (f := id) h

theorem state_of_finish {u t : State} (h : finish u = .next t) : t.glb.state = u.glb.state := by
  rw [eq_flush_of_finish h, (flush_rest u).1]

theorem image_of_finish {u t : State} (h : finish u = .next t) : t.ldr.image = u.ldr.image := by
  rw [eq_flush_of_finish h, (flush_rest u).2.1]

/-! ## The rows of the table -/

theorem glbArm_refused {s : State} (hidle : s.glb.state ≠ .idle) (harmed : s.glb.state ≠ .armed) : glbArm s = (2, s) := by
  unfold glbArm
  split
  · exact absurd ‹_› hidle
  · exact absurd ‹_› harmed
  · rfl

theorem glbArm_notReady {s : State} (hidle : s.glb.state = .idle) (h : readyToArm s = false ∨ membersNotArmed s = true) :
    glbArm s = (5, s) := by
  unfold glbArm
  rw [hidle]
  exact if_pos (by rcases h with h | h <;> simp [h])

/-- ARM evaluated in IDLE: it enters ARMED unless the use of the head-open masks has led to another state. -/
theorem glbArm_ready {s : State} (hidle : s.glb.state = .idle) (hready : readyToArm s = true) (hmembers : membersNotArmed s = false) :
    glbArm s = if (useMaps s).glb.state = .idle then (1, pulseCheck (enterArmed (useMaps s))) else (2, useMaps s) := by
  unfold glbArm
  rw [hidle]
  exact if_neg (by simp [hready, hmembers])

theorem glbStart_member {s : State} (h : isMember s = true) : glbStart s = (2, s) := if_pos h

theorem glbStart_refused {s : State} (harmed : s.glb.state ≠ .armed) (hprint : s.glb.state ≠ .print) : glbStart s = (2, s) := by
  unfold glbStart
  split
  · rfl
  · split
    · exact absurd ‹_› harmed
    · exact absurd ‹_› hprint
    · rfl

theorem glbStart_armed {s : State} (harmed : s.glb.state = .armed) (hrole : isMember s = false) (hmembers : membersNotArmed s = false) :
    glbStart s = (1, if isCampanile s then startChain s else enterPrint s) := by
  unfold glbStart
  rw [hrole, harmed, hmembers]
  rfl

theorem glbStop_member {s : State} (h : isMember s = true) : glbStop s = (2, s) := if_pos h

theorem glbStop_refused {s : State} (harmed : s.glb.state ≠ .armed) (hprint : s.glb.state ≠ .print) (hstop : s.glb.state ≠ .stopping) :
    glbStop s = (2, s) := by
  unfold glbStop
  split
  · rfl
  · split
    · exact absurd ‹_› harmed
    · exact absurd ‹_› hprint
    · exact absurd ‹_› hstop
    · rfl

theorem glbStop_print {s : State} (hprint : s.glb.state = .print) (hrole : isMember s = false) :
    glbStop s = (1, enterStopping 0 (stopChain s)) := by
  unfold glbStop
  rw [hrole, hprint]
  rfl

theorem glbStop_noted {s : State} (h : s.glb.state = .armed ∨ s.glb.state = .stopping) (hrole : isMember s = false) :
    glbStop s = (1, stopChain s) := by
  unfold glbStop
  rcases h with h | h <;> rw [hrole, h] <;> rfl

theorem glbDisarm_refused {s : State} (hidle : s.glb.state ≠ .idle) (harmed : s.glb.state ≠ .armed) : glbDisarm s = (2, s) := by
  unfold glbDisarm
  split
  · exact absurd ‹_› hidle
  · exact absurd ‹_› harmed
  · rfl

theorem glbDisarm_armed {s : State} (h : s.glb.state = .armed) : glbDisarm s = (1, disarm s) := by
  unfold glbDisarm
  rw [h]

theorem glbRecover_refused {s : State} (hidle : s.glb.state ≠ .idle) (hhold : s.glb.state ≠ .safeHold) : glbRecover s = (2, s) := by
  unfold glbRecover
  split
  · exact absurd ‹_› hidle
  · exact absurd ‹_› hhold
  · rfl

/-- RECOVER evaluated in SAFE_HOLD: it uses the masks and the gate enables, and enters IDLE unless a cause is still present. -/
theorem glbRecover_safeHold {s : State} (h : s.glb.state = .safeHold) :
    glbRecover s =
      if causeActive (useInvar [R.FIR_HOPENMAP01, R.FIR_HOPENMAP23, R.FIR_GATEEN] s)
      then (4, useInvar [R.FIR_HOPENMAP01, R.FIR_HOPENMAP23, R.FIR_GATEEN] s)
      else (1, recover (useInvar [R.FIR_HOPENMAP01, R.FIR_HOPENMAP23, R.FIR_GATEEN] s)) := by
  unfold glbRecover
  rw [h]

theorem glbReload_refused {s : State} (h : s.glb.state ≠ .idle) : glbReload s = (2, s) := if_neg h

theorem glbShutdown_accepted {s : State} (h : s.glb.state = .idle ∨ s.glb.state = .armed ∨ s.glb.state = .safeHold) :
    glbShutdown s = (1, enterShutdown 0 (jRecord (shutdownRecord s) s)) := by
  unfold glbShutdown
  rcases h with h | h | h <;> rw [h]

theorem glbShutdown_shutdown {s : State} (h : s.glb.state = .shutdown) : glbShutdown s = (1, s) := by
  unfold glbShutdown
  rw [h]

/-! ## The status word -/

theorem glbResult_refused (cmd res code : Nat) (s : State) (h : res ≠ 1) : glbResult cmd res code s =
    logEvent Ev.GLB_CMD_REJECT 0xFF cmd code res (wr R.GLB_CMD_STATUS (BitVec.ofNat 32 (res + 16 * code + 256 * cmd)) s) := if_neg h

theorem glbRun_accepted {cmd : Nat} {f : State → Nat × State} {s u : State} (hoff : s.glb.state ≠ .off) (h : f s = (1, u)) :
    glbRun cmd f s = wr R.GLB_CMD_STATUS (accepted cmd s.glb.state) u := by
  unfold glbRun
  rw [if_neg hoff, h]
  rfl

theorem glbRun_result {cmd res : Nat} {f : State → Nat × State} {s u : State} (hoff : s.glb.state ≠ .off) (h : f s = (res, u))
    (hres : res ≠ 1) : glbRun cmd f s = glbResult cmd res u.glb.state.code u := by
  unfold glbRun
  rw [if_neg hoff, h]
  simp only [hres, if_false]
  rfl

/-- A command whose effect leaves the global state leaves it with its status word too. -/
theorem glbRun_state {cmd : Nat} {f : State → Nat × State} {s : State} (h : (f s).2.glb.state = s.glb.state) :
    (glbRun cmd f s).glb.state = s.glb.state := by
  unfold glbRun
  split
  · rfl
  · exact (fq_glbResult ..).falls.trans h

/-- GLB_CMD_STATUS holds every status word of an accepted command. -/
theorem accepted_stored {cmd : Nat} (g : GState) (h : cmd < 16) : accepted cmd g &&& regStored R.GLB_CMD_STATUS = accepted cmd g := by
  have hcode : g.code ≤ 10 := by cases g <;> decide
  have hstored : (regStored R.GLB_CMD_STATUS).toNat = 2 ^ 12 - 1 := by decide
  apply BitVec.eq_of_toNat_eq
  rw [BitVec.toNat_and, hstored, Nat.and_two_pow_sub_one_eq_mod]
  unfold accepted
  rw [BitVec.toNat_ofNat]
  omega

/-- An accepted command completes in the state that its evaluation gives, with its status word. -/
theorem glbRun_completes {i : Instr} {cmd : Nat} {f : State → Nat × State} {s u : State} (hi : exec i s = finish (glbRun cmd f s))
    (hcmd : cmd < 16) (hoff : s.glb.state ≠ .off) (hs : s.Inv) (hk : Kp s (f s).2) (hf : f s = (1, u)) :
    ∃ t, exec i s = .next t ∧ t.glb.state = u.glb.state ∧ rd t R.GLB_CMD_STATUS = accepted cmd s.glb.state := by
  obtain ⟨hmem, hregs, hqueues, -⟩ := hs
  rw [hf] at hk
  have huregs : u.regsWf := (hk.wf ⟨hmem, hregs, hqueues⟩).2.1
  refine ⟨_, hi, ?_, ?_⟩
  · rw [(flush_rest _).1, glbRun_accepted hoff hf]
    rfl
  · rw [flush_regs _ _ (by decide), glbRun_accepted hoff hf, rd_wr_self _ _ _ huregs, accepted_stored _ hcmd]

/-- A refused command completes with its status word and GLB_CMD_REJECT. -/
theorem glbRun_refuses {i : Instr} {cmd res : Nat} {f : State → Nat × State} {s u : State} (hi : exec i s = finish (glbRun cmd f s))
    (hoff : s.glb.state ≠ .off) (hf : f s = (res, u)) (hres : res ≠ 1) : Completes i s (glbResult cmd res u.glb.state.code u) :=
  completes_of (hi.trans (congrArg finish (glbRun_result hoff hf hres)))

/-! ## The commands where they are refused -/

/-- A use of Invar registers leaves SAFE_HOLD alone. -/
theorem useInvar_state_of_safeHold (os : List Nat) {s : State} (h : s.glb.state = .safeHold) : (useInvar os s).glb.state = .safeHold := by
  rcases (fr_useInvar os s).falls with k | ⟨k, -⟩ | ⟨k, -⟩
  · exact k.trans h
  · exact absurd (h.symm.trans k) (by decide)
  · exact k

/-- Settles O16, command by command; each refusal is a row of the table that leaves the state as its evaluation finds it. -/
theorem globalCommandsRefused : Obligations.GlobalCommandsRefused := by
  refine ⟨?arm, ?armNotReady, ?armHeld, ?start, ?member, ?stop, ?disarm, ?recover, ?recoverCause, ?result⟩
  case arm => exact fun _ hoff hidle harmed => glbRun_refuses rfl hoff (glbArm_refused hidle harmed) (by decide)
  case armNotReady =>
    intro s hidle h
    have k : Completes .glbArm s (glbResult 1 5 s.glb.state.code s) :=
      glbRun_refuses rfl (by simp [hidle]) (glbArm_notReady hidle h) (by decide)
    rwa [hidle] at k
  case armHeld =>
    intro s hidle hready hmembers hheld
    exact glbRun_refuses rfl (by simp [hidle]) ((glbArm_ready hidle hready hmembers).trans (if_neg hheld)) (by decide)
  case start => exact fun _ hoff harmed hprint => glbRun_refuses rfl hoff (glbStart_refused harmed hprint) (by decide)
  case member =>
    exact fun _ hoff h => ⟨glbRun_refuses rfl hoff (glbStart_member h) (by decide), glbRun_refuses rfl hoff (glbStop_member h) (by decide)⟩
  case stop =>
    exact fun _ hoff harmed hprint hstop => glbRun_refuses rfl hoff (glbStop_refused harmed hprint hstop) (by decide)
  case disarm => exact fun _ hoff hidle harmed => glbRun_refuses rfl hoff (glbDisarm_refused hidle harmed) (by decide)
  case recover => exact fun _ hoff hidle hhold => glbRun_refuses rfl hoff (glbRecover_refused hidle hhold) (by decide)
  case recoverCause =>
    rintro s u hhold rfl hcause
    have k := glbRun_refuses (i := .glbRecover) rfl (by simp [hhold]) ((glbRecover_safeHold hhold).trans (if_pos hcause)) (by decide)
    rwa [useInvar_state_of_safeHold _ hhold] at k
  case result => exact fun cmd res code s h => glbResult_refused cmd res code s h

/-! ## The commands where they are accepted -/

theorem useInvar_of_agrees {os : List Nat} {s : State} (h : ∀ o ∈ os, invarAgrees s o = true) : useInvar os s = s := by
  unfold useInvar
  induction os with
  | nil => rfl
  | cons o os ih =>
    rw [List.foldl_cons, if_pos (by simp [h o])]
    exact ih fun o' ho' => h o' (List.mem_cons_of_mem _ ho')

/-- START's tick: the first of the period at least the lead ahead (R440). -/
theorem startChain_tick (s : State) : ∃ ts, startChain s = casMsg 0x01 (leBytes 8 ts) { s with cas := { s.cas with ts := some ts } } ∧
    tickPeriod s ∣ ts ∧ s.now + fld s R.CAS_CMDLEAD 15 0 ≤ ts ∧ ts < s.now + fld s R.CAS_CMDLEAD 15 0 + tickPeriod s := by
  have hper : 0 < tickPeriod s := by
    unfold tickPeriod
    split
    · exact Nat.lt_of_lt_of_le Nat.one_pos (Nat.le_max_left ..)
    · exact Nat.two_pow_pos _
  refine ⟨_, rfl, Nat.dvd_mul_left .., ?_, ?_⟩
  · have := Nat.lt_div_mul_add hper (a := s.now + fld s R.CAS_CMDLEAD 15 0 + tickPeriod s - 1)
    omega
  · have := Nat.div_mul_le_self (s.now + fld s R.CAS_CMDLEAD 15 0 + tickPeriod s - 1) (tickPeriod s)
    omega

theorem stoppingComplete_state {s : State} (h : stoppingDone s = true) :
    ∃ t, exec .stoppingComplete s = .next t ∧ (t.glb.state = .armed ∨ t.glb.state = .safeHold) := by
  have hstop : s.glb.state = .stopping := by simp [stoppingDone] at h; tauto
  refine ⟨_, rfl, ?_⟩
  rw [(flush_rest _).1, if_pos h]
  dsimp only
  split
  · exact falls_armed (enterArmed_state _)
  · refine .inr ((falls_stop (h := (useMaps s).glb.state) ?_).resolve_left ‹_›)
    exact hstop ▸ (fr_useMaps s).falls

/-- Settles O15, command by command: the state that each evaluation enters, with the status word. -/
theorem globalCommandsAccepted : Obligations.GlobalCommandsAccepted := by
  refine ⟨?arm, ?start, ?startChain, ?tick, ?stop, ?stopNoted, ?stopChain, ?disarm, ?maps, ?recover, ?shutdown, ?done, ?notDone⟩
  case arm =>
    intro s hs hidle hready hmembers hmaps
    have hf := (glbArm_ready hidle hready hmembers).trans (if_pos hmaps)
    obtain ⟨t, e, hstate, hword⟩ := glbRun_completes (i := .glbArm) rfl (by decide) (by simp [hidle]) hs (fa_glbArm s).kp hf
    refine ⟨t, e, ?_, hidle ▸ hword⟩
    rw [hstate, (fq_pulseCheck _).falls]
    exact falls_armed (enterArmed_state _)
  case start =>
    intro s hs harmed hrole halone
    have hmembers : membersNotArmed s = false := by simp [membersNotArmed, halone]
    have hf : glbStart s = (1, enterPrint s) := (glbStart_armed harmed hrole hmembers).trans (congrArg _ (if_neg (by simp [halone])))
    obtain ⟨t, e, hstate, hword⟩ := glbRun_completes (i := .glbStart) rfl (by decide) (by simp [harmed]) hs (fa_glbStart s).kp hf
    refine ⟨t, e, ?_, harmed ▸ hword⟩
    rw [hstate]
    exact falls_print (enterPrint_state s)
  case startChain =>
    intro s harmed hrole hcamp hmembers
    have hf : glbStart s = (1, startChain s) := (glbStart_armed harmed hrole hmembers).trans (congrArg _ (if_pos hcamp))
    exact harmed ▸ completes_of (congrArg finish (glbRun_accepted (by simp [harmed]) hf))
  case tick => exact startChain_tick
  case stop =>
    intro s hs hprint hrole
    have hf := glbStop_print hprint hrole
    obtain ⟨t, e, hstate, hword⟩ := glbRun_completes (i := .glbStop) rfl (by decide) (by simp [hprint]) hs (fr_glbStop s).kp hf
    refine ⟨t, e, ?_, hprint ▸ hword⟩
    rw [hstate]
    exact enterStopping_state ..
  case stopNoted =>
    intro s hstate hrole halone
    have hf : glbStop s = (1, s) := (glbStop_noted hstate hrole).trans (congrArg _ (if_neg (by simp [halone])))
    exact completes_of (congrArg finish (glbRun_accepted (by rcases hstate with h | h <;> simp [h]) hf))
  case stopChain =>
    intro s hstate hrole hcamp
    have hf : glbStop s = (1, casMsg 0x02 [] s) := (glbStop_noted hstate hrole).trans (congrArg _ (if_pos hcamp))
    exact completes_of (congrArg finish (glbRun_accepted (by rcases hstate with h | h <;> simp [h]) hf))
  case disarm =>
    intro s hs harmed
    have hf := glbDisarm_armed harmed
    obtain ⟨t, e, hstate, hword⟩ := glbRun_completes (i := .glbDisarm) rfl (by decide) (by simp [harmed]) hs (fa_glbDisarm s).kp hf
    exact ⟨t, e, hstate.trans (disarm_state s), harmed ▸ hword⟩
  case maps =>
    exact fun s h01 h23 => ⟨useInvar_of_agrees (by simp [h01, h23]), fun hen => useInvar_of_agrees (by simp [h01, h23, hen])⟩
  case recover =>
    intro s hs hhold hcause
    have hf := (glbRecover_safeHold hhold).trans (if_neg (by simp [hcause]))
    obtain ⟨t, e, hstate, hword⟩ := glbRun_completes (i := .glbRecover) rfl (by decide) (by simp [hhold]) hs (fa_glbRecover s).kp hf
    exact ⟨t, e, hstate.trans (recover_state _), hhold ▸ hword⟩
  case shutdown =>
    intro s hs h
    have hf := glbShutdown_accepted h
    have hoff : s.glb.state ≠ .off := by rcases h with h | h | h <;> simp [h]
    obtain ⟨t, e, hstate, hword⟩ := glbRun_completes (i := .glbShutdown) rfl (by decide) hoff hs (mv_glbShutdown s).kp hf
    exact ⟨t, e, hstate.trans (enterShutdown_state ..), hword⟩
  case done => exact fun _ => stoppingComplete_state
  case notDone => exact fun _ h => completes_of (congrArg finish (if_neg (by simp [h])))

end Sys2Proof.Machine
end

section
/-!
PROOFS. What no command but a reset undoes: SHUTDOWN, and the image in force outside IMAGE_LOAD (spec/01_architecture.md R19, R34;
spec/02_alloy_image.md R71).
-/
namespace Sys2Proof.Machine

/-! ## What a register write can do -/

/-- `u` comes of `s` by the automatic transitions alone, by a write of GLB_CMD or by a write of IMG_CTL. -/
def WriteEffect (s u : State) : Prop := Mv s u ∨ (∃ c, u = glbCmd c s) ∨ ∃ c src, u = imgCtl c src s

theorem WriteEffect.ite {s a b : State} {c : Prop} [Decidable c] (h : WriteEffect s a) (k : WriteEffect s b) :
    WriteEffect s (if c then a else b) := by
  split <;> assumption

theorem writeGlb_effect (o : Nat) (v : Word) (s : State) : WriteEffect s (writeGlb o v s) :=
  .ite (.inr (.inl ⟨_, rfl⟩)) <| .ite (.inl (mv_bruCmd ..)) <| .ite (.inr (.inr ⟨_, _, rfl⟩)) <|
    .inl (.ite (fq_imgData ..).mv (fq_plainWrite ..).mv)

theorem writeReg_effect (o : Nat) (v : Word) (pins : Pins) (s : State) : WriteEffect s (writeReg o v pins s) :=
  .ite (writeGlb_effect o v s) <| .inl <| .ite (fq_writeHst ..).mv <| .ite (fq_writeMem ..).mv <| .ite (fr_writeDot ..).mv <|
    .ite (fq_writeFir ..).mv <| .ite (fr_writeHeat ..).mv <| .ite (fr_writeScn ..).mv <| .ite (fq_writePos ..).mv <|
    .ite (fr_writeStp ..).mv <| .ite (fr_writeMot ..).mv <| .ite (fq_plainWrite ..).mv (fq_writeDma ..).mv

theorem dwWrite_effect (o : Nat) (v : Word) (pins : Pins) (s : State) : WriteEffect s (dwWrite o v pins s) :=
  .ite (.inl (fq_accessBad ..).mv) <| .ite (.inl (fq_invarRefuse ..).mv) <| writeReg_effect o v pins s

/-- A register write of the host, through an open window or a closed one. -/
theorem viaBar0_dwWrite_effect (o : Nat) (v : Word) (pins : Pins) (s : State) :
    WriteEffect (hostAccess s) (viaBar0 o (dwWrite o v pins) s) := by
  unfold viaBar0
  split
  · exact dwWrite_effect o v pins _
  · exact .inl (fq_earlyAccess ..).mv

/-! ## SHUTDOWN -/

/-- No global command leads out of SHUTDOWN (R34, R40). -/
theorem glbCmd_shutdown (c : Nat) {s : State} (h : s.glb.state = .shutdown) : (glbCmd c s).glb.state = .shutdown := by
  have stays {f : State → Nat × State} {r : Nat} (hf : f s = (r, s)) : (glbRun c f s).glb.state = .shutdown := by
    rw [glbRun_state (by rw [hf]), h]
  unfold glbCmd
  split
  · exact stays (glbArm_refused (by simp [h]) (by simp [h]))
  · exact stays (glbStart_refused (by simp [h]) (by simp [h]))
  · exact stays (glbStop_refused (by simp [h]) (by simp [h]) (by simp [h]))
  · exact stays (glbDisarm_refused (by simp [h]) (by simp [h]))
  · exact stays (glbRecover_refused (by simp [h]) (by simp [h]))
  · exact stays (glbReload_refused (by simp [h]))
  · rw [glbRun_state (fq_glbLantern s).falls, h]
  · exact stays (glbShutdown_shutdown h)
  · exact stays rfl

theorem imgCtl_shutdown (c src : Nat) {s : State} (h : s.glb.state = .shutdown) : (imgCtl c src s).glb.state = .shutdown :=
  (imgCtl_refused c src s (by simp [h]) (by simp [h])).1.trans h

theorem WriteEffect.shutdown {s u : State} (k : WriteEffect s u) (h : s.glb.state = .shutdown) : u.glb.state = .shutdown := by
  rcases k with k | ⟨c, rfl⟩ | ⟨c, src, rfl⟩
  · exact shutdown_of_moves h k.falls
  · exact glbCmd_shutdown c h
  · exact imgCtl_shutdown c src h

theorem leaveReset_of_ne {s : State} (h : s.glb.state ≠ .reset) : leaveReset s = s := if_neg fun k => h k.1

theorem leaveReset_shutdown {s : State} (h : s.glb.state = .shutdown) : (leaveReset s).glb.state = .shutdown := by
  rw [leaveReset_of_ne (by simp [h]), h]

theorem stoppingDone_of_ne {s : State} (h : s.glb.state ≠ .stopping) : stoppingDone s = false := by simp [stoppingDone, h]

theorem readingFlash_of_ne {s : State} (h : s.glb.state ≠ .imageLoad) : readingFlash s = false := by simp [readingFlash, h]

/-- A command that leads from one global state to another by a rule of its own has none for SHUTDOWN. -/
theorem exec_changesState_shutdown {c : Instr} {s t : State} (hc : changesState c = true) (h : s.glb.state = .shutdown)
    (e : exec c s = .next t) : t.glb.state = .shutdown := by
  have refused {cmd : Nat} {f : State → Nat × State} (e : finish (glbRun cmd f s) = .next t) (hf : f s = (2, s)) :
      t.glb.state = .shutdown := by
    rw [state_of_finish e, glbRun_state (by rw [hf]), h]
  cases c with
  | porstRelease boot casMstr refsel =>
    rw [state_of_finish e]
    split
    · exact h
    · split
      · exact h
      · exact leaveReset_shutdown h
  | warmrstRelease =>
    rw [state_of_finish e]
    split
    · exact leaveReset_shutdown h
    · exact h
  | rootVcoLock => rw [state_of_finish e, if_pos (.inl (by simp [h])), h]
  | clockRelock n =>
    rw [state_of_finish e]
    split
    · exact h
    · have hrestart := (fq_restartLoader { s with glb := { s.glb with locked := true, lossRaised := false } }).falls.trans h
      dsimp only
      split
      · exact leaveReset_shutdown ((fq_logEvent ..).falls.trans hrestart)
      · exact leaveReset_shutdown hrestart
  | glbArm => exact refused e (glbArm_refused (by simp [h]) (by simp [h]))
  | glbStart => exact refused e (glbStart_refused (by simp [h]) (by simp [h]))
  | glbDisarm => exact refused e (glbDisarm_refused (by simp [h]) (by simp [h]))
  | glbRecover => exact refused e (glbRecover_refused (by simp [h]) (by simp [h]))
  | glbReload => exact refused e (glbReload_refused (by simp [h]))
  | stoppingComplete => rw [state_of_finish e, if_neg (ne_true_of_eq_false (stoppingDone_of_ne (by simp [h]))), h]
  | startTick =>
    rw [state_of_finish e]
    split
    · exact h
    · rw [if_neg (by simp [h])]
      exact shutdown_of_moves h (fr_raise ..).mv.falls
  | powerOn => rw [state_of_finish e, if_neg (by simp [h]), h]
  | _ => cases hc

/-! ## What the commands that may change the image can do outside IMAGE_LOAD -/

theorem jFinish_glb_ldr (s : State) : (jFinish s).glb = s.glb ∧ (jFinish s).ldr = s.ldr := by
  unfold jFinish
  split <;> exact ⟨rfl, rfl⟩

/-- Outside IMAGE_LOAD no flash is read, and what the commands named by `changesStore` do is, but for the resets, the effect of a write on
a state with the same global control and loader. -/
theorem exec_changesStore_effect {c : Instr} {s t : State} (hc : changesStore c = true) (h : s.glb.state ≠ .imageLoad)
    (hporst : ∀ w, c ≠ .porstAssert w) (hwarm : ∀ w, c ≠ .warmrstAssert w) (hpower : c ≠ .powerLoss) (e : exec c s = .next t) :
    ∃ a u, a.glb = s.glb ∧ a.ldr = s.ldr ∧ WriteEffect a u ∧ t = flush u := by
  have ctl {cmd src : Nat} (e : finish (imgCtl cmd src s) = .next t) :
      ∃ a u, a.glb = s.glb ∧ a.ldr = s.ldr ∧ WriteEffect a u ∧ t = flush u :=
    ⟨s, _, rfl, rfl, .inr (.inr ⟨_, _, rfl⟩), eq_flush_of_finish e⟩
  cases c with
  | porstAssert w => exact absurd rfl (hporst w)
  | warmrstAssert w => exact absurd rfl (hwarm w)
  | powerLoss => exact absurd rfl hpower
  | pushBegin src => exact ctl e
  | pushEnd src => exact ctl e
  | retryFlash src => exact ctl e
  | revert src => exact ctl e
  | svnCommit src => exact ctl e
  | imgSrcWrite src =>
    refine ⟨hostAccess s, _, rfl, rfl, ?_, eq_flush_of_finish e⟩
    unfold viaBar0
    split
    · exact .inr (.inr ⟨_, _, rfl⟩)
    · exact .inl (fq_earlyAccess ..).mv
  | flashReadDone bytes =>
    refine ⟨s, _, rfl, rfl, ?_, eq_flush_of_finish e⟩
    rw [if_neg (ne_true_of_eq_false (readingFlash_of_ne h))]
    exact .inl (.refl s)
  | journalProgramDone =>
    obtain ⟨hglb, hldr⟩ := jFinish_glb_ldr s
    exact ⟨jFinish s, _, hglb, hldr, .inl ((fq_jStart _).mv.trans (mv_pathsClose _)), eq_flush_of_finish e⟩
  | registerWrite off v pins => exact ⟨hostAccess s, _, rfl, rfl, viaBar0_dwWrite_effect off.toNat v pins s, eq_flush_of_finish e⟩
  | _ => cases hc

/-! ## SHUTDOWN ends by a reset alone -/

theorem exec_shutdown {c : Instr} {s t : State} (h : s.glb.state = .shutdown) (hporst : ∀ w, c ≠ .porstAssert w)
    (hwarm : ∀ w, c ≠ .warmrstAssert w) (hpower : c ≠ .powerLoss) (e : exec c s = .next t) : t.glb.state = .shutdown := by
  cases hstore : changesStore c with
  | true =>
    obtain ⟨a, u, hglb, -, k, rfl⟩ := exec_changesStore_effect hstore (by simp [h]) hporst hwarm hpower e
    rw [(flush_rest u).1]
    exact k.shutdown (hglb ▸ h)
  | false =>
    cases hstate : changesState c with
    | true => exact exec_changesState_shutdown hstate h e
    | false =>
      obtain ⟨t', e', k⟩ := exec_mv c s (by rw [hstore, hstate]; rfl)
      cases e.symm.trans e'
      exact shutdown_of_moves h k.falls

/-- Settles O7: no command's own rule and no automatic transition leads out of SHUTDOWN; each of the three ends does. -/
theorem shutdownEndsByResetOnly : Obligations.ShutdownEndsByResetOnly := by
  refine ⟨?stays, ?porst, ?warmrst, ?powerLoss⟩
  case stays => exact fun _ _ _ h hporst hwarm hpower e => exec_shutdown h hporst hwarm hpower e
  case porst =>
    intro w s h hw
    refine ⟨_, rfl, ?_⟩
    rw [(flush_rest _).1, if_neg (by omega), if_neg (by simp [h])]
    rfl
  case warmrst =>
    intro w s h hporst hw
    refine ⟨_, rfl, ?_⟩
    rw [(flush_rest _).1, if_neg (by omega), if_neg (by simp [h, hporst])]
    rfl
  case powerLoss =>
    intro s h
    refine ⟨_, rfl, ?_⟩
    rw [(flush_rest _).1, if_neg (by simp [h])]

/-! ## The image in force -/

/-- The loader commands that are accepted outside IMAGE_LOAD do not load (R77). -/
theorem imgTable_accepts {s : State} {c : Nat} (h : s.glb.state ≠ .imageLoad) (k : imgTable s c = 1) :
    c ≠ 1 ∧ c ≠ 2 ∧ c ≠ 3 ∧ c ≠ 4 := by
  unfold imgTable at k
  refine ⟨?_, ?_, ?_, ?_⟩ <;> rintro rfl <;> simp [h] at k

theorem imgCtl_image (c src : Nat) {s : State} (h : s.glb.state ≠ .imageLoad) : (imgCtl c src s).ldr.image = s.ldr.image := by
  unfold imgCtl
  split
  · rfl
  · dsimp only
    split
    · rfl
    · have hresult (r : Nat) := (fq_imgResult c r (gnum (setF R.IMG_CTL 5 4 src s)) s.ldr.phase.code (setF R.IMG_CTL 5 4 src s)).image
      split
      · exact hresult _
      · rename_i hone
        obtain ⟨h1, h2, h3, h4⟩ := imgTable_accepts (s := setF R.IMG_CTL 5 4 src s) h (not_not.1 hone)
        rw [if_neg h1, if_neg h2, if_neg h3, if_neg h4]
        exact hresult _

theorem WriteEffect.image {s u : State} (k : WriteEffect s u) (h : s.glb.state ≠ .imageLoad) : u.ldr.image = s.ldr.image := by
  rcases k with k | ⟨c, rfl⟩ | ⟨c, src, rfl⟩
  · exact k.image
  · exact (fa_glbCmd c s).image
  · exact imgCtl_image c src h

theorem exec_image {c : Instr} {s t : State} (h : s.glb.state ≠ .imageLoad) (hporst : ∀ w, c ≠ .porstAssert w)
    (hwarm : ∀ w, c ≠ .warmrstAssert w) (hpower : c ≠ .powerLoss) (e : exec c s = .next t) : t.ldr.image = s.ldr.image := by
  cases hstore : changesStore c with
  | true =>
    obtain ⟨a, u, hglb, hldr, k, rfl⟩ := exec_changesStore_effect hstore h hporst hwarm hpower e
    rw [(flush_rest u).2.1, k.image (hglb ▸ h), hldr]
  | false =>
    obtain ⟨t', e', k⟩ := exec_fa c s hstore
    cases e.symm.trans e'
    exact k.image

/-- Settles O8: outside IMAGE_LOAD the loader commits nothing, and RELOAD is refused outside IDLE. -/
theorem bindingsStand : Obligations.BindingsStand := by
  refine ⟨?image, ?reload⟩
  case image => exact fun _ _ _ h hporst hwarm hpower e => exec_image h hporst hwarm hpower e
  case reload =>
    intro s t _ hidle e
    rw [state_of_finish e, glbRun_state (by rw [glbReload_refused hidle])]

end Sys2Proof.Machine
end

section
/-!
PROOFS. The way from RESET to IMAGE_LOAD, and the loss and return of the root lock (spec/01_architecture.md R28, R35; spec/03_bring_up.md
R83).
-/
namespace Sys2Proof.Machine

/-! ## The end of RESET -/

/-- RESET can end: the reset inputs are released and the root VCO is locked (R35). -/
def Released (s : State) : Prop := s.glb.state = .reset ∧ s.glb.porst = false ∧ s.glb.warmrst = false ∧ s.glb.locked = true

/-- What follows the samples taken at the end of RESET: IMAGE_LOAD is entered and the load begins (R35, R167). -/
def enterImageLoad (s : State) : State := refreshAll (gatesAct (startLoad (goto .imageLoad 0 s)))

theorem leaveReset_of_not_released {s : State} (h : ¬Released s) : leaveReset s = s :=
  if_neg fun ⟨hstate, hporst, hwarm, hlock⟩ => h ⟨hstate, by simpa using hporst, by simpa using hwarm, hlock⟩

theorem leaveReset_sampled {s : State} (h : Released s) (hcas : s.glb.casSampled = true) : leaveReset s = enterImageLoad s := by
  obtain ⟨hstate, hporst, hwarm, hlock⟩ := h
  unfold leaveReset
  rw [if_pos (by simp [hstate, hporst, hwarm, hlock]), if_pos hcas]
  rfl

theorem leaveReset_unsampled {s : State} (h : Released s) (hcas : s.glb.casSampled = false) :
    leaveReset s = enterImageLoad (setF R.GLB_RSTCAUSE 4 4 (b2n s.glb.casPin) { s with glb := { s.glb with casSampled := true } }) := by
  obtain ⟨hstate, hporst, hwarm, hlock⟩ := h
  unfold leaveReset
  rw [if_pos (by simp [hstate, hporst, hwarm, hlock]), if_neg (by simp [hcas])]
  rfl

theorem falls_imageLoad {h : GState} (k : Falls .imageLoad h) : h = .imageLoad := by
  rcases k with k | ⟨k, -⟩ | ⟨-, k⟩
  · exact k
  · cases k
  · simp at k

/-- No severity acts in IMAGE_LOAD, so a gating source that stands leaves it alone (R35). -/
theorem enterImageLoad_state (s : State) : (enterImageLoad s).glb.state = .imageLoad := by
  have hload : (startLoad (goto .imageLoad 0 s)).glb.state = .imageLoad := (fq_startLoad _).falls.trans (goto_state ..)
  unfold enterImageLoad
  generalize startLoad (goto .imageLoad 0 s) = u at hload ⊢
  exact falls_imageLoad (hload ▸ ((fr_gatesAct u).trans (fr_refreshAll _)).falls)

theorem leaveReset_state {s : State} (h : Released s) : (leaveReset s).glb.state = .imageLoad := by
  cases hcas : s.glb.casSampled with
  | true => rw [leaveReset_sampled h hcas, enterImageLoad_state]
  | false => rw [leaveReset_unsampled h hcas, enterImageLoad_state]

/-! ## The load at a start -/

theorem loadBegins_keeps (s : State) : (loadBegins s).glb = s.glb ∧ (loadBegins s).ldr = s.ldr := by
  unfold loadBegins
  split <;> exact ⟨rfl, rfl⟩

theorem startLoad_effect (s : State) : (startLoad s).glb = s.glb ∧ (startLoad s).ldr.cold = true ∧ (startLoad s).ldr.staged = [] ∧
    (startLoad s).ldr.phase = if fld s R.GLB_RSTCAUSE 3 2 = 2 then .waitPush else .reading := by
  unfold startLoad
  dsimp only
  split
  · exact ⟨rfl, rfl, rfl, (if_pos ‹_›).symm⟩
  · obtain ⟨hglb, hldr⟩ := loadBegins_keeps
      { s with ldr := { s.ldr with phase := .reading, source := .slotA, staged := [], reload := false, cold := true } }
    rw [hglb, hldr]
    exact ⟨rfl, rfl, rfl, (if_neg ‹_›).symm⟩

/-! ## Gating sources in IMAGE_LOAD -/

theorem raiseHalt_of_not_haltable (k : EvKind) (i a0 a1 a2 : Nat) {s : State} (h : haltable s = false) :
    raiseHalt k i a0 a1 a2 s = logPeer k i a0 a1 a2 s := if_neg (by simp [h])

theorem spreads_useInvar_one (o : Nat) {s : State} (h : haltable s = false) : Spreads s (useInvar [o] s) := by
  refine .ite (.refl s) ?_
  rw [raiseHalt_of_not_haltable]
  · exact .trans ⟨_, _, _, rfl⟩ (spreads_logPeer ..)
  · exact h

/-- Where no severity acts, a use of Invar registers raises at most its events (R13, R35). -/
theorem spreads_useInvar (os : List Nat) {s : State} (h : haltable s = false) : Spreads s (useInvar os s) := by
  induction os generalizing s with
  | nil => exact .refl s
  | cons o os ih =>
    have hone := spreads_useInvar_one o h
    have hstate : (useInvar [o] s).glb.state = s.glb.state := congrArg Glb.state hone.keeps.1
    exact hone.trans (ih ((haltable_congr hstate).trans h))

/-- With no gating source that stands, the end of RESET uses the masks and the gate enables alone. -/
theorem gatesAct_of_none {s : State} (hkill : s.gate.kill = false) (hhopen : s.gate.hopen = 0) (hjam : s.gate.jam = 0)
    (hmedia : s.gate.mediaOut = false) : gatesAct s = useInvar [R.FIR_HOPENMAP01, R.FIR_HOPENMAP23, R.FIR_GATEEN] s := by
  have hopens : those 4 (fun m => bitOf s.gate.hopen.toNat m) = [] := by rw [hhopen]; decide
  have hjams : those 2 (fun m => bitOf s.gate.jam.toNat m) = [] := by rw [hjam]; decide
  unfold gatesAct
  simp only [hopens, hjams, hkill, hmedia, forEach, List.foldl_nil, Bool.false_eq_true, if_false]

/-! ## Loss and return of the root lock -/

theorem restartLoader_of_running {s : State} (h : s.glb.loadStopped = false) : restartLoader s = s := if_neg (by simp [h])

theorem restartLoader_glb (s : State) : (restartLoader s).glb = { s.glb with loadStopped := false } := by
  unfold restartLoader
  dsimp only
  split
  · rfl
  · rw [← eq_false_of_ne_true ‹_›]

theorem restartLoader_running (s : State) : (restartLoader s).glb.loadStopped = false := by rw [restartLoader_glb]

/-- The event of a loss of lock, acted on (R28, R42). -/
def unlockRaised (refCycles : Nat) (s : State) : State :=
  raise Ev.GLB_CLOCK_UNLOCK 0xFF (min refCycles 0xFFFFFFFF) (gnum s) 0 { s with glb := { s.glb with locked := false, lossRaised := true } }

theorem clockUnlock_reset (n : Nat) {s : State} (hlock : s.glb.locked = true) (h : s.glb.state = .reset) :
    exec (.clockUnlock n) s = finish { s with glb := { s.glb with locked := false } } := by
  refine congrArg finish ((if_neg (by simp [hlock, h])).trans ?_)
  exact if_pos h

theorem clockUnlock_imageLoad (n : Nat) {s : State} (hlock : s.glb.locked = true) (h : s.glb.state = .imageLoad) :
    exec (.clockUnlock n) s = finish (stopLoader (unlockRaised n s)) := by
  refine congrArg finish ((if_neg (by simp [hlock, h])).trans ((if_neg (by simp [h])).trans ?_))
  exact if_pos h

theorem clockUnlock_haltable (n : Nat) {s : State} (hlock : s.glb.locked = true) (h : haltable s = true) :
    exec (.clockUnlock n) s = finish (unlockRaised n s) := by
  have hstate := (haltable_iff s).1 h
  have hne {g : GState} (hg : g ∉ [GState.selftest, .linkTrain, .idle, .armed, .print, .stopping]) : s.glb.state ≠ g :=
    fun e => hg (e ▸ hstate)
  have hoff := hne (g := .off) (by decide)
  have hreset := hne (g := .reset) (by decide)
  have hload := hne (g := .imageLoad) (by decide)
  have hhold := hne (g := .safeHold) (by decide)
  have hshut := hne (g := .shutdown) (by decide)
  refine congrArg finish ((if_neg (by simp [hlock, hoff])).trans ((if_neg hreset).trans ((if_neg hload).trans ?_)))
  exact if_neg (by simp [hhold, hshut])

theorem unlockRaised_imageLoad (n : Nat) {s : State} (h : s.glb.state = .imageLoad) : (unlockRaised n s).glb.state = .imageLoad ∧
    (unlockRaised n s).glb.locked = false ∧ (unlockRaised n s).ldr = s.ldr := by
  unfold unlockRaised
  rw [raise_halt' _ _ _ _ _ rfl (by simp [haltable, h])]
  obtain ⟨hglb, hldr, -⟩ := (spreads_logPeer Ev.GLB_CLOCK_UNLOCK 0xFF (min n 0xFFFFFFFF) (gnum s) 0
    { s with glb := { s.glb with locked := false, lossRaised := true } }).keeps
  rw [hglb, hldr]
  exact ⟨h, rfl, rfl⟩

theorem unlockRaised_haltable (n : Nat) {s : State} (h : haltable s = true) : (unlockRaised n s).glb.state = .safeHold := by
  unfold unlockRaised
  rw [raise_halt, enterSafeHold_state]
  · rfl
  · exact h

/-- Lock is back and the loader has restarted; RESET has not yet ended (R28). -/
def relocked (s : State) : State := restartLoader { s with glb := { s.glb with locked := true, lossRaised := false } }

theorem relocked_glb (s : State) : (relocked s).glb = { s.glb with locked := true, lossRaised := false, loadStopped := false } :=
  restartLoader_glb _

theorem clockRelock_exec (n : Nat) {s : State} (hlock : s.glb.locked = false) (hoff : s.glb.state ≠ .off) :
    exec (.clockRelock n) s = finish (leaveReset (if s.glb.lossRaised then
      logEvent Ev.GLB_CLOCK_RELOCK 0xFF (min n 0xFFFFFFFF) s.glb.state.code 0 (relocked s) else relocked s)) := by
  refine congrArg finish ((if_neg (by simp [hlock, hoff])).trans ?_)
  exact (apply_ite leaveReset ..).symm

/-- Settles O13: each release and each lock is one of the ends of RESET, and the loss and the return of lock are those of the rules above by
global state. -/
theorem resetReleases : Obligations.ResetReleases := by
  refine ⟨?porst, ?porstUnlocked, ?warmrst, ?lockHeld, ?lock, ?gates, ?load, ?unlockReset, ?unlockLoad, ?unlockHalt, ?relockRaised,
    ?relock, fun _ => restartLoader_of_running, restartLoader_running, ?relockReset⟩
  case porst =>
    intro b m r s hporst hstate hwarm hlock hcas
    refine completes_of (congrArg finish ((if_neg (by simp [hporst])).trans ((if_neg (by simp [hstate])).trans ?_)))
    exact leaveReset_unsampled ⟨hstate, rfl, hwarm, hlock⟩ hcas
  case porstUnlocked =>
    intro b m r s hporst hstate hlock
    refine completes_of (congrArg finish ((if_neg (by simp [hporst])).trans ((if_neg (by simp [hstate])).trans ?_)))
    exact leaveReset_of_not_released fun ⟨_, _, _, h⟩ => Bool.false_ne_true (hlock.symm.trans h)
  case warmrst =>
    intro s hwarm hstate hporst hlock hcas
    exact completes_of (congrArg finish ((if_pos hwarm).trans (leaveReset_sampled ⟨hstate, hporst, rfl, hlock⟩ hcas)))
  case lockHeld =>
    intro s hstate hlock hheld
    refine completes_of (congrArg finish ((if_neg (by simp [hstate, hlock])).trans (leaveReset_of_not_released ?_)))
    rintro ⟨_, hporst, hwarm, _⟩
    rcases hheld with h | h
    · exact Bool.false_ne_true (hporst.symm.trans h)
    · exact Bool.false_ne_true (hwarm.symm.trans h)
  case lock =>
    intro s hstate hlock hporst hwarm hcas
    refine completes_of (congrArg finish ((if_neg (by simp [hstate, hlock])).trans ?_))
    exact leaveReset_unsampled ⟨hstate, hporst, hwarm, rfl⟩ hcas
  case gates =>
    intro s hstate hkill hhopen hjam hmedia
    rw [gatesAct_of_none hkill hhopen hjam hmedia]
    have hquiet : haltable s = false := by simp [haltable, hstate]
    obtain ⟨hglb, hldr, -⟩ := (spreads_useInvar [R.FIR_HOPENMAP01, R.FIR_HOPENMAP23, R.FIR_GATEEN] hquiet).keeps
    exact ⟨hglb, hldr⟩
  case load => exact startLoad_effect
  case unlockReset => exact fun n _ hlock hstate => completes_of (clockUnlock_reset n hlock hstate)
  case unlockLoad =>
    intro n s hlock hstate
    obtain ⟨hkept, hunlocked, hldr⟩ := unlockRaised_imageLoad n hstate
    obtain ⟨hglb, hldr', -⟩ := flush_rest (stopLoader (unlockRaised n s))
    refine ⟨_, clockUnlock_imageLoad n hlock hstate, ?_⟩
    rw [hglb, hldr']
    exact ⟨hkept, rfl, hunlocked, hldr⟩
  case unlockHalt =>
    intro n s hlock hhalt
    refine ⟨_, clockUnlock_haltable n hlock hhalt, ?_⟩
    rw [(flush_rest _).1, unlockRaised_haltable n hhalt]
  case relockRaised =>
    intro n s hlock hoff hreset hraised
    refine completes_of ((clockRelock_exec n hlock hoff).trans (congrArg finish ?_))
    rw [if_pos hraised]
    exact leaveReset_of_ne (relocked_glb s ▸ hreset)
  case relock =>
    intro n s hlock hoff hreset hraised
    refine completes_of ((clockRelock_exec n hlock hoff).trans (congrArg finish ?_))
    rw [if_neg (by simp [hraised])]
    exact leaveReset_of_ne (relocked_glb s ▸ hreset)
  case relockReset =>
    intro n s hlock hstate hporst hwarm
    refine ⟨_, clockRelock_exec n hlock (by simp [hstate]), ?_⟩
    have hreleased : Released (relocked s) := by
      unfold Released
      rw [relocked_glb]
      exact ⟨hstate, hporst, hwarm, rfl⟩
    rw [(flush_rest _).1]
    split
    · exact leaveReset_state (s := logEvent ..) hreleased
    · exact leaveReset_state hreleased

end Sys2Proof.Machine
end

section
/-!
PROOFS. The throttle and the core voltage (spec/01_architecture.md R30, R31; spec/19_electrical.md R552, R553).
-/
namespace Sys2Proof.Machine

/-- The throttle in force: of the forced setting and the automatic request the more severe (R30). -/
def thrEffective (s : State) : Nat × Nat :=
  if thrRank (thrForced s).1 (thrForced s).2 < thrRank (thrAuto s).1 (thrAuto s).2 then thrAuto s else thrForced s

/-- A throttle that differs from the one in force takes effect, from RESET on (R30, R31). -/
theorem throttleApply_completes {s : State} {e : Nat × Nat} (hstate : 2 ≤ s.glb.state.code) (he : thrEffective s = e)
    (hnew : ¬(e.1 = s.glb.div.val ∧ e.2 = s.glb.skip.val)) :
    Completes .throttleApply s (logEvent Ev.GLB_THROTTLE 0xFF e.1 e.2 (thrCause s)
      { s with glb := { s.glb with div := Fin.ofNat 3 e.1, skip := Fin.ofNat 16 e.2, thrAt := s.now } }) := by
  subst he
  refine completes_of (congrArg finish (if_neg ?_))
  rintro (h | h)
  · exact absurd h (Nat.not_lt.2 hstate)
  · exact hnew h

theorem driveAvs_of_ne {c : Fin 37} {s : State} (h : s.glb.avs ≠ c) :
    driveAvs c s = emit (.pin "AVS_VID" 0 c.val) { s with glb := { s.glb with avs := c, avsAt := s.now } } := if_neg h

/-- What delays a step of the core voltage: bring-up, the step before within 50 µs, a throttle change in the same tick (R553). -/
def avsWaits (s : State) : Bool :=
  (gnum s < 5 && s.ldr.cold) || (s.glb.avsAt ≠ 0 && decide (s.now < s.glb.avsAt + 20000)) ||
    (s.glb.thrAt ≠ 0 && decide (s.now = s.glb.thrAt))

theorem avsWaits_eq_false {s : State} (hstate : 5 ≤ s.glb.state.code) (hstep : s.glb.avsAt = 0 ∨ s.glb.avsAt + 20000 ≤ s.now)
    (hthr : s.glb.thrAt = 0 ∨ s.now ≠ s.glb.thrAt) : avsWaits s = false := by
  have hnum : ¬gnum s < 5 := Nat.not_lt.2 hstate
  have hstep' : s.glb.avsAt ≠ 0 → s.glb.avsAt + 20000 ≤ s.now := by omega
  have hthr' : s.glb.thrAt ≠ 0 → s.now ≠ s.glb.thrAt := by omega
  simp only [avsWaits, hnum, Bool.or_eq_false_iff, Bool.and_eq_false_imp]
  simpa using ⟨hstep', hthr'⟩

theorem avsCodeStep_up {s : State} (hwaits : avsWaits s = false) (hcode : s.glb.avs.val < 36) :
    exec (.avsCodeStep true) s = finish (driveAvs (Fin.ofNat 37 (s.glb.avs.val + 1)) s) :=
  congrArg finish ((if_neg (ne_true_of_eq_false hwaits)).trans ((if_pos rfl).trans (if_pos hcode)))

theorem avsCodeStep_down {s : State} (hwaits : avsWaits s = false) (hthr : s.glb.thrAt = 0 ∨ s.glb.thrAt + 40000 ≤ s.now)
    (hfree : avsFixed s = false) (hcode : 0 < s.glb.avs.val) :
    exec (.avsCodeStep false) s = finish (driveAvs (Fin.ofNat 37 (s.glb.avs.val - 1)) s) := by
  refine congrArg finish ((if_neg (ne_true_of_eq_false hwaits)).trans ((if_neg Bool.false_ne_true).trans (if_neg ?_)))
  rintro (h | h | ⟨h, hlt⟩)
  · exact Bool.false_ne_true (hfree.symm.trans h)
  · omega
  · omega

/-- Settles O18, by which request is the more severe and by the direction of the step. -/
theorem throttleAndVoltage : Obligations.ThrottleAndVoltage := by
  refine ⟨?forced, ?automatic, ?up, ?down⟩
  case forced => exact fun s hstate hrank hnew => throttleApply_completes hstate (if_neg (Nat.not_lt.2 hrank)) hnew
  case automatic => exact fun s hstate hrank hnew => throttleApply_completes hstate (if_pos hrank) hnew
  case up =>
    intro s hstate hstep hthr hcode
    have hval : (Fin.ofNat 37 (s.glb.avs.val + 1)).val = s.glb.avs.val + 1 := Nat.mod_eq_of_lt (by omega)
    have hne : s.glb.avs ≠ Fin.ofNat 37 (s.glb.avs.val + 1) := fun e => by have := congrArg Fin.val e; omega
    refine completes_of ((avsCodeStep_up (avsWaits_eq_false hstate hstep hthr) hcode).trans ?_)
    rw [driveAvs_of_ne hne, hval]
  case down =>
    intro s hstate hstep hthr hfree hcode
    have hval : (Fin.ofNat 37 (s.glb.avs.val - 1)).val = s.glb.avs.val - 1 := Nat.mod_eq_of_lt (by omega)
    have hne : s.glb.avs ≠ Fin.ofNat 37 (s.glb.avs.val - 1) := fun e => by have := congrArg Fin.val e; omega
    have hsame : s.glb.thrAt = 0 ∨ s.now ≠ s.glb.thrAt := by omega
    refine completes_of ((avsCodeStep_down (avsWaits_eq_false hstate hstep hsame) hthr hfree hcode).trans ?_)
    rw [driveAvs_of_ne hne, hval]

end Sys2Proof.Machine
end

section
/-!
PROOFS. The image loader: its commands, the bytes of a host push, the sources of an image and what follows one that fails, RELOAD, and the OTP
array (spec/02_alloy_image.md R59 to R71, R76, R77; spec/19_electrical.md R576, R578).
-/
namespace Sys2Proof.Machine

/-! ## IMG_CTL as an accepted command leaves it -/

theorem imgTaken_regsWf (cmd : Nat) (src : BitVec 2) {s : State} (hs : s.regsWf) : (imgTaken cmd src s).regsWf :=
  wr_regsWf _ _ (wr_regsWf _ _ hs)

/-- The source field reads what the command has written. -/
theorem fld_imgTaken_src (cmd : Nat) (src : BitVec 2) {s : State} (hs : s.regsWf) : fld (imgTaken cmd src s) R.IMG_CTL 5 4 = src.toNat := by
  have hread : fld (imgTaken cmd src s) R.IMG_CTL 5 4 = fld (setF R.IMG_CTL 5 4 src.toNat s) R.IMG_CTL 5 4 := by
    unfold fld imgTaken
    rw [rd_wr_of_ne _ _ (by decide)]
  rw [hread, fld_setF _ _ _ hs (by decide) (by decide) (by decide)]
  exact Nat.mod_eq_of_lt src.isLt

/-- A loader command writes IMG_CTL and IMG_CMD_STATUS alone. -/
theorem fld_imgTaken_of_ne (cmd : Nat) (src : BitVec 2) (s : State) {o : Nat} (hi lo : Nat) (hctl : o ≠ R.IMG_CTL)
    (hstatus : o ≠ R.IMG_CMD_STATUS) : fld (imgTaken cmd src s) o hi lo = fld s o hi lo := by
  unfold fld imgTaken setF
  rw [rd_wr_of_ne _ _ hstatus, rd_wr_of_ne _ _ hctl]

/-! ## The rows of the table (R77) -/

theorem imgTable_pushBegin {s : State} (hload : s.glb.state = .imageLoad)
    (hphase : s.ldr.phase = .waitPush ∨ s.ldr.phase = .failed ∨ s.ldr.phase = .pushing) : imgTable s 1 = 1 := by
  rcases hphase with h | h | h <;> simp [imgTable, hload, h]

theorem imgTable_pushEnd {s : State} (hload : s.glb.state = .imageLoad) (hphase : s.ldr.phase = .pushing) : imgTable s 2 = 1 := by
  simp [imgTable, hload, hphase]

theorem imgTable_retryFlash {s : State} (hload : s.glb.state = .imageLoad)
    (hphase : s.ldr.phase = .waitPush ∨ s.ldr.phase = .failed) : imgTable s 3 = 1 := by
  rcases hphase with h | h <;> simp [imgTable, hload, h]

theorem imgTable_revert {s : State} (hload : s.glb.state = .imageLoad) (hreload : s.ldr.reload = true)
    (hphase : s.ldr.phase = .waitPush ∨ s.ldr.phase = .failed ∨ s.ldr.phase = .pushing) : imgTable s 4 = 1 := by
  rcases hphase with h | h | h <;> simp [imgTable, hload, hreload, h]

theorem imgTable_svnCommit (s : State) : imgTable s 5 = if s.glb.state = .idle then 1 else 2 := rfl

/-! ## A loader command, accepted or refused -/

/-- What loader command `cmd`, 1 to 5, does once it is accepted (R61, R67, R76, R77). -/
def loaderEffect : Nat → State → State
  | 1 => pushBegin
  | 2 => pushEnd
  | 3 => readFlash
  | 4 => revert
  | _ => svnCommit

theorem imgCtl_accepted {cmd : Nat} (src : BitVec 2) {s : State} (hoff : s.glb.state ≠ .off) (hcmd : 1 ≤ cmd ∧ cmd ≤ 5)
    (h : imgTable s cmd = 1) : imgCtl cmd src.toNat s = loaderEffect cmd (imgTaken cmd src s) := by
  have htable : imgTable (setF R.IMG_CTL 5 4 src.toNat s) cmd = 1 := h
  obtain ⟨hlo, hhi⟩ := hcmd
  unfold imgCtl
  rw [if_neg hoff]
  dsimp only
  rw [if_neg (by omega), htable, if_neg (not_not.2 rfl)]
  interval_cases cmd <;> rfl

theorem imgCtl_rejected {cmd : Nat} (src : BitVec 2) {s : State} (hoff : s.glb.state ≠ .off) (hcmd : cmd ≠ 0) (h : imgTable s cmd ≠ 1) :
    imgCtl cmd src.toNat s =
      imgResult cmd (imgTable s cmd) s.glb.state.code s.ldr.phase.code (setF R.IMG_CTL 5 4 src.toNat s) :=
  (if_neg hoff).trans ((if_neg hcmd).trans (if_pos h))

theorem imgCtl_sourceOnly (src : BitVec 2) {s : State} (hoff : s.glb.state ≠ .off) :
    imgCtl 0 src.toNat s = setF R.IMG_CTL 5 4 src.toNat s := (if_neg hoff).trans (if_pos rfl)

theorem loaderCommand_completes {i : Instr} {cmd : Nat} {src : BitVec 2} {s : State} (hi : exec i s = finish (imgCtl cmd src.toNat s))
    (hoff : s.glb.state ≠ .off) (hcmd : 1 ≤ cmd ∧ cmd ≤ 5) (h : imgTable s cmd = 1) :
    Completes i s (loaderEffect cmd (imgTaken cmd src s)) :=
  completes_of (hi.trans (congrArg finish (imgCtl_accepted src hoff hcmd h)))

/-! ## The effects of the commands -/

/-- PUSH_END while the loader runs: the pushed bytes are checked, with the overflow that IMG_PUSHCNT has counted (R67, R68). -/
theorem pushEnd_running (src : BitVec 2) {s : State} (h : s.glb.loadStopped = false) : pushEnd (imgTaken 2 src s) =
    checkAndCommit s.ldr.staged (some s.ldr.staged.length) (fld s R.IMG_PUSHCNT 31 21) (imgTaken 2 src s) := by
  rw [← fld_imgTaken_of_ne 2 src s 31 21 (o := R.IMG_PUSHCNT) (by decide) (by decide)]
  exact if_neg (ne_true_of_eq_false h)

/-- PUSH_END while the loader is stopped: the image waits in CHECKING (R28). -/
theorem pushEnd_stopped (src : BitVec 2) {s : State} (h : s.glb.loadStopped = true) :
    pushEnd (imgTaken 2 src s) = { imgTaken 2 src s with ldr := { s.ldr with phase := .checking } } := if_pos h

/-- RETRY_FLASH reads slot B alone where the command's source field asks for it (R77). -/
theorem readFlash_retry (src : BitVec 2) {s : State} (hs : s.regsWf) : readFlash (imgTaken 3 src s) =
    loadBegins { imgTaken 3 src s with ldr := { s.ldr with
      phase := .reading, source := if src = 1 then .slotB else .slotA, staged := [] } } := by
  have hsrc : src.toNat = 1 ↔ src = 1 := (BitVec.toNat_inj (y := 1#2))
  unfold readFlash
  rw [fld_imgTaken_src 3 src hs]
  by_cases h : src = 1
  · rw [if_pos (hsrc.2 h), if_pos h]
    rfl
  · rw [if_neg (fun k => h (hsrc.1 k)), if_neg h]
    rfl

theorem revert_state (s : State) : (revert s).glb.state = .idle := goto_state ..

/-- SVN_COMMIT takes the version of the image in force; without an image there is none to take (R61). -/
theorem svnCommit_eq (s : State) : svnCommit s =
    logEvent Ev.IMG_SVN_COMMITTED 0xFF s.ldr.otpSvn (max s.ldr.otpSvn ((s.ldr.image.map Image.svn).getD 0)) 0
      { s with ldr := { s.ldr with otpSvn := max s.ldr.otpSvn ((s.ldr.image.map Image.svn).getD 0) } } := by
  unfold svnCommit
  cases s.ldr.image <;> rfl

theorem loadBegins_provisioned {s : State} (h : unprovisioned s = false) : loadBegins s = s := if_neg (ne_true_of_eq_false h)

theorem loadBegins_unprovisioned {s : State} (h : unprovisioned s = true) :
    loadBegins s = logEvent Ev.IMG_KEY_UNPROVISIONED 0xFF 0 0 0 s := if_pos h

/-! ## The OTP array -/

/-- The idle tick and every command keep what the OTP array keeps. -/
theorem step_otp {s t : State} (e : step s = .next t) :
    s.ldr.otpSvn ≤ t.ldr.otpSvn ∧ t.ldr.otpKey = s.ldr.otpKey ∧ t.ldr.keyLock = s.ldr.keyLock := by
  cases hpending : s.pending with
  | nil =>
    have ht : tick s = t := Host.Outcome.next.inj ((step_of_pending_nil hpending).symm.trans e)
    have k := (fq_tick s).kp
    exact ht ▸ ⟨k.otp, k.otpKey, k.keyLock⟩
  | cons c rest =>
    rw [step_of_pending_cons hpending] at e
    obtain ⟨t', e', k⟩ := exec_kp c { s with pending := rest }
    cases e.symm.trans e'
    exact ⟨k.otp, k.otpKey, k.keyLock⟩

/-- Settles O9: every step keeps the array but for a rise of the version, and SVN_COMMIT takes that of the image in force. -/
theorem otpOnlyRises : Obligations.OtpOnlyRises := by
  refine ⟨?keeps, ?commit⟩
  case keeps => exact fun _ _ e => step_otp e
  case commit =>
    intro src i s hidle himage
    refine ⟨_, rfl, ?_⟩
    have htable : imgTable s 5 = 1 := (imgTable_svnCommit s).trans (if_pos hidle)
    have heffect : imgCtl 5 src.toNat s = svnCommit (imgTaken 5 src s) := imgCtl_accepted src (by simp [hidle]) (by decide) htable
    rw [(flush_rest _).2.1, heffect, svnCommit_eq]
    change max s.ldr.otpSvn ((s.ldr.image.map Image.svn).getD 0) = _
    rw [himage]
    rfl

/-! ## The bytes of a host push (R67) -/

/-- The loader takes the bytes of a host push. -/
def takesPush (s : State) : Prop := s.glb.state = .imageLoad ∧ s.ldr.phase = .pushing ∧ s.glb.loadStopped = false

theorem not_takesPush {s : State} : ¬takesPush s ↔ s.glb.state ≠ .imageLoad ∨ s.ldr.phase ≠ .pushing ∨ s.glb.loadStopped = true := by
  unfold takesPush
  rw [not_and_or, not_and_or, Bool.not_eq_false]

theorem imgData_lost (v : Word) {s : State} (h : ¬takesPush s) : imgData v s = s := if_pos (not_takesPush.1 h)

theorem imgData_staged (v : Word) {s : State} (h : takesPush s) (hroom : s.ldr.staged.length < 1048576) : imgData v s =
    setF R.IMG_PUSHCNT 20 0 (s.ldr.staged.length + 4) { s with ldr := { s.ldr with staged := s.ldr.staged ++ leBytes 4 v.toNat } } :=
  (if_neg fun k => not_takesPush.2 k h).trans (if_pos hroom)

theorem imgData_overflow (v : Word) {s : State} (h : takesPush s) (hfull : 1048576 ≤ s.ldr.staged.length) :
    imgData v s = incF R.IMG_PUSHCNT 31 21 s := (if_neg fun k => not_takesPush.2 k h).trans (if_neg (Nat.not_lt.2 hfull))

theorem imgDataWrite_completes {d : Word} {s u : State} (hopen : windowOpen s 0 R.IMG_DATA true = true)
    (h : imgData d (hostAccess s) = u) : Completes (.imgDataWrite d) s u :=
  completes_of (congrArg finish ((viaBar0_open _ _ _ hopen).trans h))

/-! ## RELOAD (R71) -/

/-- The state in which RELOAD chooses its source: in IMAGE_LOAD, with motion coming to rest and DMA paused. -/
def reloadEntered (s : State) : State :=
  let u := dmaPauseAll 5 (moReload (axReload (goto .imageLoad 0 s)))
  { u with ldr := { u.ldr with reload := true, cold := false } }

/-- IMG_CTL.src 2 asks for a host push; else a slot is read. -/
theorem reload_eq (s : State) : reload s =
    if fld (reloadEntered s) R.IMG_CTL 5 4 = 2 then
      { reloadEntered s with ldr := { (reloadEntered s).ldr with phase := .waitPush, source := .push, staged := [] } }
    else readFlash (reloadEntered s) := rfl

theorem reloadEntered_state (s : State) : (reloadEntered s).glb.state = .imageLoad := by
  have hrest : (dmaPauseAll 5 (moReload (axReload (goto .imageLoad 0 s)))).glb.state = .imageLoad := by
    rw [(fq_dmaPauseAll ..).falls, (fq_moReload _).falls, (fq_axReload _).falls, goto_state]
  unfold reloadEntered
  generalize dmaPauseAll 5 (moReload (axReload (goto .imageLoad 0 s))) = u at hrest ⊢
  exact hrest

theorem reload_state (s : State) : (reload s).glb.state = .imageLoad := by
  have hentered := reloadEntered_state s
  rw [reload_eq]
  generalize reloadEntered s = u at hentered ⊢
  split
  · exact hentered
  · rw [(fq_readFlash u).falls, hentered]

/-- A load that RELOAD begins is marked as one, whatever its source, and nothing is staged for it yet. -/
theorem reload_ldr (s : State) : (reload s).ldr.reload = true ∧ (reload s).ldr.cold = false ∧ (reload s).ldr.staged = [] := by
  rw [reload_eq]
  split
  · exact ⟨rfl, rfl, rfl⟩
  · unfold readFlash
    rw [(loadBegins_keeps _).2]
    exact ⟨rfl, rfl, rfl⟩

theorem glbReload_idle {s : State} (h : s.glb.state = .idle) : glbReload s = (1, reload s) := if_pos h

/-- Settles O20, command by command, by the row of the table that each one meets. -/
theorem loaderCommands : Obligations.LoaderCommands := by
  refine ⟨?reload, ?reloadRefused, ?pushBegin, ?provisioned, ?unprovisioned, ?bytes, ?overflow, ?lost, ?retry, ?revert, ?svn, ?source,
    ?svnRefused⟩
  case reload =>
    intro s hs hidle
    have hoff : s.glb.state ≠ .off := by simp [hidle]
    have hf := glbReload_idle hidle
    obtain ⟨t, e, hstate, hword⟩ := glbRun_completes (i := .glbReload) rfl (by decide) hoff hs (fa_glbReload s).kp hf
    have hldr : t.ldr = (reload s).ldr := by
      rw [eq_flush_of_finish e, (flush_rest _).2.1, glbRun_accepted hoff hf, wr_ldr]
    obtain ⟨hreload, hcold, hstaged⟩ := reload_ldr s
    exact ⟨t, e, hstate.trans (reload_state s), hidle ▸ hword, hldr ▸ hreload, hldr ▸ hcold, hldr ▸ hstaged, hldr ▸ (fa_reload s).image⟩
  case reloadRefused => exact fun _ hoff hidle => glbRun_refuses rfl hoff (glbReload_refused hidle) (by decide)
  case pushBegin =>
    exact fun _ _ hload hphase => loaderCommand_completes rfl (by simp [hload]) (by decide) (imgTable_pushBegin hload hphase)
  case provisioned => exact fun _ => loadBegins_provisioned
  case unprovisioned => exact fun _ => loadBegins_unprovisioned
  case bytes =>
    exact fun d _ hopen hload hphase hrun hroom => imgDataWrite_completes hopen (imgData_staged d ⟨hload, hphase, hrun⟩ hroom)
  case overflow =>
    exact fun d _ hopen hload hphase hrun hfull => imgDataWrite_completes hopen (imgData_overflow d ⟨hload, hphase, hrun⟩ hfull)
  case lost => exact fun d _ hopen h => imgDataWrite_completes hopen (imgData_lost d (not_takesPush.2 h))
  case retry =>
    intro src s hs hload hphase
    obtain ⟨-, hregs, -⟩ := hs
    rw [← readFlash_retry src hregs]
    exact loaderCommand_completes rfl (by simp [hload]) (by decide) (imgTable_retryFlash hload hphase)
  case revert =>
    intro src s hload hreload hphase
    refine ⟨_, rfl, ?_⟩
    have htable := imgTable_revert hload hreload hphase
    rw [(flush_rest _).1, imgCtl_accepted src (by simp [hload]) (by decide) htable]
    exact revert_state _
  case svn =>
    intro src s hidle
    have htable : imgTable s 5 = 1 := (imgTable_svnCommit s).trans (if_pos hidle)
    have hdone : Completes (.svnCommit src) s (svnCommit (imgTaken 5 src s)) :=
      loaderCommand_completes rfl (by simp [hidle]) (by decide) htable
    rwa [svnCommit_eq] at hdone
  case source =>
    exact fun src _ hopen hoff => completes_of (congrArg finish ((viaBar0_open _ _ _ hopen).trans (imgCtl_sourceOnly src hoff)))
  case svnRefused =>
    intro src s hoff hidle
    have htable : imgTable s 5 = 2 := (imgTable_svnCommit s).trans (if_neg hidle)
    have hresult := imgCtl_rejected (cmd := 5) src hoff (by decide) (by rw [htable]; decide)
    rw [htable] at hresult
    exact completes_of (congrArg finish hresult)

/-! ## The sources of an image (R64, R68, R578) -/

theorem checkAndCommit_ok {b : List Byte} {n : Option Nat} {v : Nat} {s : State} {i : Image}
    (h : checkImage s b n v s.ldr.source = .ok i) :
    checkAndCommit b n v s = commit ⟨s.ldr.image, i, sectionsOf b, !i.amended⟩ s := by
  unfold checkAndCommit
  rw [h]

theorem checkAndCommit_error {b : List Byte} {n : Option Nat} {v : Nat} {s : State} {f : ImgFail}
    (h : checkImage s b n v s.ldr.source = .error f) :
    checkAndCommit b n v s = nextSource f.kind.code.toNat (imgError f s) := by
  unfold checkAndCommit
  rw [h]

theorem nextSource_slotA (code : Nat) {s : State} (h : s.ldr.source = .slotA) : nextSource code s =
    logEvent Ev.IMG_SLOT_FALLBACK 0xFF code 0 0 { s with ldr := { s.ldr with phase := .reading, source := .slotB, staged := [] } } := by
  unfold nextSource
  rw [h]

theorem nextSource_slotB_push (code : Nat) {s : State} (h : s.ldr.source = .slotB) (hstart : s.ldr.reload = false)
    (hmode : bootMode s = 3) :
    nextSource code s = { s with ldr := { s.ldr with phase := .waitPush, source := .push, staged := [] } } := by
  unfold nextSource
  rw [h]
  exact if_pos (by simp [hstart, hmode])

/-- A failed source stays the one that IMG_STAT shows. -/
theorem failed_source {s : State} {src : ImgSource} (h : s.ldr.source = src) :
    { s with ldr := { s.ldr with phase := .failed, source := src, staged := [] } } =
      { s with ldr := { s.ldr with phase := .failed, staged := [] } } := by
  subst h
  rfl

theorem nextSource_slotB_failed (code : Nat) {s : State} (h : s.ldr.source = .slotB) (hend : s.ldr.reload = true ∨ bootMode s ≠ 3) :
    nextSource code s = { s with ldr := { s.ldr with phase := .failed, staged := [] } } := by
  unfold nextSource
  rw [h]
  refine (if_neg ?_).trans (failed_source h)
  rcases hend with k | k <;> simp [k]

theorem nextSource_push (code : Nat) {s : State} (h : s.ldr.source = .push) :
    nextSource code s = { s with ldr := { s.ldr with phase := .failed, staged := [] } } := by
  unfold nextSource
  rw [h]
  exact failed_source h

/-! ## IMG_ERR and IMG_ERRARG (R68, R78) -/

theorem satInc_lt (n x : Nat) : satInc n x < 2 ^ n := by
  unfold satInc
  have := Nat.two_pow_pos n
  split <;> omega

/-- IMG_ERR packs the event's code, the section and the count of failures. -/
theorem rd_imgError_err (f : ImgFail) {s : State} (hs : s.regsWf) : rd (imgError f s) R.IMG_ERR =
    BitVec.ofNat 32 (f.kind.code.toNat + 65536 * (f.sect % 256) + 2 ^ 24 * satInc 8 (fld s R.IMG_ERR 31 24)) := by
  have hall : regStored R.IMG_ERR = BitVec.allOnes 32 := by decide
  change rd (wr R.IMG_ERRARG _ (wr R.IMG_ERR _ s)) R.IMG_ERR = _
  rw [rd_wr_of_ne _ _ (by decide), rd_wr_self _ _ _ hs, hall, BitVec.and_allOnes]

theorem rd_imgError_arg (f : ImgFail) {s : State} (hs : s.regsWf) :
    rd (imgError f s) R.IMG_ERRARG = BitVec.ofNat 32 f.arg &&& regStored R.IMG_ERRARG := rd_wr_self _ _ _ (wr_regsWf _ _ hs)

theorem fld_imgError (f : ImgFail) {s : State} (hs : s.regsWf) : fld (imgError f s) R.IMG_ERR 15 0 = f.kind.code.toNat ∧
    fld (imgError f s) R.IMG_ERR 31 24 = satInc 8 (fld s R.IMG_ERR 31 24) := by
  have hcode := f.kind.code.isLt
  have hcount := satInc_lt 8 (fld s R.IMG_ERR 31 24)
  have hsect := Nat.mod_lt f.sect (show 0 < 256 by decide)
  generalize hn : satInc 8 (fld s R.IMG_ERR 31 24) = n at hcount ⊢
  unfold fld bits
  rw [rd_imgError_err f hs, hn, BitVec.toNat_ofNat, Nat.shiftRight_eq_div_pow, Nat.shiftRight_eq_div_pow]
  omega

/-- Settles O19, by whether the flash is being read and by the source that failed. -/
theorem imageSources : Obligations.ImageSources := by
  refine ⟨?read, ?pushEnd, ?stopped, ?checked, ?sfdp, ?strobe, ?notReading, ?slotA, ?slotBPush, ?slotBFailed, ?push, ?error⟩
  case read => exact fun _ _ h => completes_of (congrArg finish (if_pos h))
  case pushEnd =>
    intro src s hload hphase hrun
    rw [← pushEnd_running src hrun]
    exact loaderCommand_completes rfl (by simp [hload]) (by decide) (imgTable_pushEnd hload hphase)
  case stopped =>
    intro src s hload hphase hstop
    rw [← pushEnd_stopped src hstop]
    exact loaderCommand_completes rfl (by simp [hload]) (by decide) (imgTable_pushEnd hload hphase)
  case checked =>
    intro b n v s
    cases h : checkImage s b n v s.ldr.source with
    | ok i => exact checkAndCommit_ok h
    | error f => exact checkAndCommit_error h
  case sfdp => exact fun _ h => completes_of (congrArg finish (if_pos h))
  case strobe => exact fun _ _ h h8d => completes_of (congrArg finish (if_pos ⟨h, h8d⟩))
  case notReading =>
    intro b a s h
    have hnot : ¬readingFlash s = true := ne_true_of_eq_false h
    exact ⟨completes_of (congrArg finish (if_neg hnot)), completes_of (congrArg finish (if_neg hnot)),
      completes_of (congrArg finish (if_neg fun k => hnot k.1))⟩
  case slotA => exact fun code _ h => nextSource_slotA code h
  case slotBPush => exact fun code _ h hstart hmode => nextSource_slotB_push code h hstart hmode
  case slotBFailed => exact fun code _ h hend => nextSource_slotB_failed code h hend
  case push => exact fun code _ h => nextSource_push code h
  case error =>
    intro f s hs
    obtain ⟨-, hregs, -⟩ := hs
    exact ⟨rd_imgError_arg f hregs, fld_imgError f hregs⟩

end Sys2Proof.Machine
end

section
/-!
PROOFS. What the machine holds right after reset, and what PORST_N, power, WARMRST_N and PCIE_PERST_N leave and keep (spec/00_scope.md R4;
spec/03_bring_up.md R80 to R82, R98, R101; spec/18_register_map.md R546, R547).
-/
namespace Sys2Proof.Machine

/-! ## Right after reset -/

theorem vat_replicate {α : Type} {n : Nat} [NeZero n] (x : α) (i : Nat) : vat (Vector.replicate n x) i = x := Vector.getElem_replicate _

theorem vat_map {α β : Type} {n : Nat} [NeZero n] (f : α → β) (v : Vector α n) (i : Nat) : vat (v.map f) i = f (vat v i) :=
  Vector.getElem_map ..

/-- Settles O4: no register has been written, and without an image no pipe, generator, axis or motor channel is bound. -/
theorem resetValues : Obligations.ResetValues := by
  refine ⟨rfl, rfl, rfl, rfl, rfl, rfl, rfl, rfl, rfl, rfl, rfl, rfl, fun _ => rfl, fun n => ⟨rfl, rfl, ?lead, ?pipe⟩, ?channels,
    fun _ => rfl, fun _ => rfl, ?prediction, ?stop, ?bell⟩
  case lead => revert n; decide
  case pipe => revert n; decide
  case channels =>
    intro n
    have h : dc State.reset n = Dma.reset := vat_replicate ..
    rw [h]
    exact ⟨rfl, rfl⟩
  case prediction => decide
  case stop => decide
  case bell => decide

/-! ## A state that a reset leaves raises no event -/

/-- The end of a command that has raised no event and noted nothing changes nothing. -/
theorem finish_of_settled {s : State} (hraised : s.hst.raised = []) (hnoted : s.cas.noted = 0) (hsig : s.sigOver = []) :
    finish s = .next s := by
  have hcas : { s.cas with noted := 0 } = s.cas := by rw [← hnoted]
  unfold finish
  rw [flush_still hraised, hcas, ← hsig]

/-! ## PORST_N and power (R80) -/

/-- The state that a reset begins from: the record in progress torn, the pins driven to their levels at rest (R80, R81). -/
def porstBegins (s : State) : State := pinsOff (jTear (driveAvs 36 s))

theorem porst_reborn (s : State) : porst s = reborn (porstBegins s) := porst_eq s

theorem driveAvs_keeps (c : Fin 37) (s : State) :
    (driveAvs c s).jrn = s.jrn ∧ (driveAvs c s).ldr = s.ldr ∧ (driveAvs c s).pending = s.pending := by
  unfold driveAvs
  split <;> exact ⟨rfl, rfl, rfl⟩

/-- Non-volatile state stands but for a record in progress. -/
theorem porstBegins_keeps (s : State) : (s.jrn.busy = none → (porstBegins s).jrn.records = s.jrn.records) ∧
    (porstBegins s).ldr = s.ldr ∧ (porstBegins s).pending = s.pending := by
  obtain ⟨hjrn, hldr, hpending⟩ := driveAvs_keeps 36 s
  obtain ⟨hrecords, hldr', hpending'⟩ := jTear_facts (driveAvs 36 s)
  obtain ⟨_, _, _, e⟩ := pinsOff_rest (jTear (driveAvs 36 s))
  unfold porstBegins
  rw [e]
  exact ⟨fun h => (hrecords (hjrn ▸ h)).trans (by rw [hjrn]), hldr'.trans hldr, hpending'.trans hpending⟩

/-- What of the state survives PORST_N (R80). -/
theorem reborn_keeps (s : State) : (reborn s).jrn.records = s.jrn.records ∧ (reborn s).ldr.otpSvn = s.ldr.otpSvn ∧
    (reborn s).ldr.otpKey = s.ldr.otpKey ∧ (reborn s).pending = s.pending := ⟨rfl, rfl, rfl, rfl⟩

/-- Of an axis the levels of its inputs alone survive a reset. -/
theorem ax_reborn (s : State) (n : Nat) : ax (reborn s) n =
    { Axis.reset with lima := (ax s n).lima, limb := (ax s n).limb, home := (ax s n).home } := vat_map ..

theorem unitsReset_reborn (s : State) : UnitsReset (reborn s) :=
  ⟨rfl, rfl, rfl, rfl, rfl, rfl, rfl, rfl, rfl, rfl, rfl, rfl, rfl, rfl, rfl, rfl, rfl, rfl, rfl, rfl,
    fun n => by rw [ax_reborn]; exact ⟨rfl, rfl⟩⟩

theorem porst_keeps (s : State) : (s.jrn.busy = none → (porst s).jrn.records = s.jrn.records) ∧
    (porst s).ldr.otpSvn = s.ldr.otpSvn ∧ (porst s).ldr.otpKey = s.ldr.otpKey ∧ (porst s).pending = s.pending := by
  obtain ⟨hrecords, hldr, hpending⟩ := porstBegins_keeps s
  obtain ⟨hrecords', hsvn, hkey, hpending'⟩ := reborn_keeps (porstBegins s)
  rw [porst_reborn]
  exact ⟨fun hbusy => hrecords'.trans (hrecords hbusy), hsvn.trans (by rw [hldr]), hkey.trans (by rw [hldr]),
    hpending'.trans hpending⟩

/-! ## WARMRST_N (R80, R546, R547) -/

/-- The registers of the units at their reset values, but for the counts that last until PORST_N. -/
def warmWords (s : State) : State := resetWords warmScope sincePorst s

/-- The same with the cause of the reset noted. -/
def warmCaused (s : State) : State := wr R.GLB_RSTCAUSE (warmCause (warmWords s)) (warmWords s)

/-- The same with an event ring in the SRAM disabled (R527). -/
def warmRegs (s : State) : State := if evInSram (warmCaused s) then setF R.HST_EVCFG 0 0 0 (warmCaused s) else warmCaused s

/-- The state that WARMRST_N leaves of one whose registers it has reset. -/
def warmReborn (s : State) : State :=
  let t := pinLevels s (nonVolatile s State.reset)
  { t with now := s.now, regs := s.regs, hst := { s.hst with occ := [], mismatched := [] },
           glb := { t.glb with porst := s.glb.porst, warmrst := true, locked := s.glb.locked, refsel := s.glb.refsel,
                               casSampled := s.glb.casSampled, avs := s.glb.avs, avsAt := s.glb.avsAt },
           jrn := { t.jrn with records := s.jrn.records, next := s.jrn.next, jseq := s.jrn.jseq } }

/-- The state that WARMRST_N begins from: the record in progress complete, the pins driven to their levels at rest (R80, R81). -/
def warmBegins (s : State) : State := pinsOff (jFinish s)

theorem warmrst_eq (s : State) : warmrst s = warmReborn (warmRegs (warmBegins s)) := by
  unfold warmrst warmReborn warmRegs warmCaused warmWords warmBegins
  dsimp only

/-- What of the state survives WARMRST_N, besides the registers. -/
theorem warmReborn_keeps (s : State) : (warmReborn s).hst.raised = s.hst.raised ∧ (warmReborn s).glb.locked = s.glb.locked ∧
    (warmReborn s).now = s.now ∧ (warmReborn s).jrn.records = s.jrn.records ∧ (warmReborn s).ldr.otpSvn = s.ldr.otpSvn ∧
    (warmReborn s).ldr.otpKey = s.ldr.otpKey ∧ (warmReborn s).pending = s.pending := ⟨rfl, rfl, rfl, rfl, rfl, rfl, rfl⟩

/-- Of what WARMRST_N keeps, a state differs in the registers alone once they have been reset. -/
theorem warmRegs_keeps (s : State) : (warmRegs s).glb = s.glb ∧ (warmRegs s).now = s.now ∧ (warmRegs s).hst = s.hst ∧
    (warmRegs s).jrn = s.jrn ∧ (warmRegs s).ldr = s.ldr ∧ (warmRegs s).pending = s.pending := by
  unfold warmRegs
  split <;> exact ⟨rfl, rfl, rfl, rfl, rfl, rfl⟩

theorem jFinish_keeps (s : State) : (jFinish s).glb = s.glb ∧ (jFinish s).now = s.now ∧ (jFinish s).hst = s.hst ∧
    (s.jrn.busy = none → (jFinish s).jrn = s.jrn) ∧ (jFinish s).ldr = s.ldr ∧ (jFinish s).pending = s.pending ∧
    (jFinish s).regs = s.regs := by
  unfold jFinish
  split
  · rename_i hbusy
    exact ⟨rfl, rfl, rfl, fun h => absurd (hbusy.symm.trans h) (by simp), rfl, rfl, rfl⟩
  · exact ⟨rfl, rfl, rfl, fun _ => rfl, rfl, rfl, rfl⟩

theorem warmBegins_keeps (s : State) : (warmBegins s).glb = s.glb ∧ (warmBegins s).now = s.now ∧ (warmBegins s).hst = s.hst ∧
    (s.jrn.busy = none → (warmBegins s).jrn = s.jrn) ∧ (warmBegins s).ldr = s.ldr ∧ (warmBegins s).pending = s.pending ∧
    (warmBegins s).regs = s.regs := by
  obtain ⟨_, _, _, e⟩ := pinsOff_rest (jFinish s)
  unfold warmBegins
  rw [e]
  exact jFinish_keeps s

theorem warmBegins_regsWf {s : State} (h : s.Wf) : (warmBegins s).regsWf := by
  obtain ⟨-, hregs, -⟩ := (Kp.trans (kp_jFinish s) (fq_pinsOff _).kp).wf h
  exact hregs

theorem warmWords_regsWf {s : State} (h : s.regsWf) : (warmWords s).regsWf := resetWords_regsWf _ _ s sincePorst_ok h

theorem rd_warmRegs_of_ne {s : State} {o : Nat} (hevcfg : o ≠ R.HST_EVCFG) : rd (warmRegs s) o = rd (warmCaused s) o := by
  unfold warmRegs
  split
  · exact rd_wr_of_ne _ _ hevcfg
  · rfl

/-- The registers of the host interface stand but for INVCTL and, with a ring in the SRAM, EVCFG. -/
theorem rd_warmRegs_hst (s : State) {o : Nat} (hlo : 0x020000 ≤ o) (hhi : o < 0x040000) (hinvctl : o ≠ R.HST_INVCTL)
    (hevcfg : o ≠ R.HST_EVCFG) : rd (warmRegs s) o = rd s o := by
  have hcause : o ≠ R.GLB_RSTCAUSE := fun e => absurd (e ▸ hlo) (by decide)
  have hscope : warmScope o = false := by simp [warmScope, within, hlo, hhi, hinvctl]
  exact (rd_warmRegs_of_ne hevcfg).trans ((rd_wr_of_ne _ _ hcause).trans (rd_resetWords _ _ _ _ hscope))

theorem rd_warmRegs_cause {s : State} (h : s.regsWf) :
    rd (warmRegs s) R.GLB_RSTCAUSE = warmCause s &&& regStored R.GLB_RSTCAUSE := by
  have hcause : warmCause (warmWords s) = warmCause s := by
    unfold warmCause warmWords
    rw [rd_resetWords _ _ _ _ (by decide)]
  rw [rd_warmRegs_of_ne (by decide), ← hcause]
  exact rd_wr_self _ _ _ (warmWords_regsWf h)

/-- GLB_RSTCAUSE after WARMRST_N: por 0, warm 1, boot as sampled, one more warm reset (R546). -/
theorem bits_warmCause (s : State) : bits (warmCause s) 0 0 = 0 ∧ bits (warmCause s) 1 1 = 1 ∧
    bits (warmCause s) 3 2 = fld s R.GLB_RSTCAUSE 3 2 ∧
    bits (warmCause s) 31 16 = satInc 16 (fld s R.GLB_RSTCAUSE 31 16) := by
  have below {w : Word} {v : Nat} (hi lo : Nat) {p : Nat} (hp : p < 32) (h : hi < p) {q : Nat} (hq : p ≤ q) (hq32 : q < 32) :
      bits (putBits w q p v) hi lo = bits w hi lo := bits_putBits_of_disjoint w v hq hq32 (.inl h)
  unfold warmCause
  refine ⟨?por, ?warm, ?boot, ?count⟩
  case por =>
    rw [below 0 0 (by decide) (by decide) (by decide) (by decide), below 0 0 (by decide) (by decide) (by decide) (by decide),
      below 0 0 (by decide) (by decide) (by decide) (by decide), bits_putBits _ _ (by decide) (by decide)]
    rfl
  case warm =>
    rw [below 1 1 (by decide) (by decide) (by decide) (by decide), below 1 1 (by decide) (by decide) (by decide) (by decide),
      bits_putBits _ _ (by decide) (by decide)]
    rfl
  case boot =>
    rw [below 3 2 (by decide) (by decide) (by decide) (by decide), below 3 2 (by decide) (by decide) (by decide) (by decide),
      bits_putBits_of_disjoint _ _ (by decide) (by decide) (.inr (by decide)),
      bits_putBits_of_disjoint _ _ (by decide) (by decide) (.inr (by decide))]
    rfl
  case count => exact (bits_putBits _ _ (by decide) (by decide)).trans (Nat.mod_eq_of_lt (satInc_lt ..))

theorem ax_warmReborn (s : State) (n : Nat) : ax (warmReborn s) n =
    { Axis.reset with lima := (ax s n).lima, limb := (ax s n).limb, home := (ax s n).home } := vat_map ..

theorem unitsReset_warmReborn (s : State) : UnitsReset (warmReborn s) :=
  ⟨rfl, rfl, rfl, rfl, rfl, rfl, rfl, rfl, rfl, rfl, rfl, rfl, rfl, rfl, rfl, rfl, rfl, rfl, rfl, rfl,
    fun n => by rw [ax_warmReborn]; exact ⟨rfl, rfl⟩⟩

theorem warmrst_keeps (s : State) : (warmrst s).hst.raised = s.hst.raised ∧ (warmrst s).glb.locked = s.glb.locked ∧
    (warmrst s).now = s.now ∧ (s.jrn.busy = none → (warmrst s).jrn.records = s.jrn.records) ∧
    (warmrst s).ldr.otpSvn = s.ldr.otpSvn ∧ (warmrst s).ldr.otpKey = s.ldr.otpKey ∧ (warmrst s).pending = s.pending := by
  obtain ⟨hglb, hnow, hhst, hjrn, hldr, hpending, -⟩ := warmBegins_keeps s
  obtain ⟨hglb', hnow', hhst', hjrn', hldr', hpending'⟩ := warmRegs_keeps (warmBegins s)
  obtain ⟨hraised, hlock, hbell, hrecords, hsvn, hkey, hwait⟩ := warmReborn_keeps (warmRegs (warmBegins s))
  rw [warmrst_eq]
  exact ⟨hraised.trans (by rw [hhst', hhst]), hlock.trans (by rw [hglb', hglb]), hbell.trans (hnow'.trans hnow),
    fun hbusy => hrecords.trans (by rw [hjrn', hjrn hbusy]), hsvn.trans (by rw [hldr', hldr]), hkey.trans (by rw [hldr', hldr]),
    hwait.trans (hpending'.trans hpending)⟩

theorem rd_warmBegins (s : State) (o : Nat) : rd (warmBegins s) o = rd s o := by
  obtain ⟨-, -, -, -, -, -, hregs⟩ := warmBegins_keeps s
  unfold rd
  rw [hregs]

theorem rd_warmReborn (s : State) (o : Nat) : rd (warmReborn s) o = rd s o := rfl

theorem rd_warmrst (s : State) (o : Nat) : rd (warmrst s) o = rd (warmRegs (warmBegins s)) o := by
  rw [warmrst_eq, rd_warmReborn]

theorem fld_warmrst_cause {s : State} (h : s.Wf) {hi lo : Nat}
    (hstored : bits (regStored R.GLB_RSTCAUSE) hi lo = 2 ^ (hi + 1 - lo) - 1) :
    fld (warmrst s) R.GLB_RSTCAUSE hi lo = bits (warmCause s) hi lo := by
  have hcause : warmCause (warmBegins s) = warmCause s := by
    unfold warmCause
    rw [rd_warmBegins]
  unfold fld
  rw [rd_warmrst, rd_warmRegs_cause (warmBegins_regsWf h), bits_and _ _ _ _ hstored, hcause]

/-- Settles O12: PORST_N and power loss leave the reset state with what is non-volatile, WARMRST_N besides it the host interface, the lock
and bell time. -/
theorem resetsLeave : Obligations.ResetsLeave := by
  refine ⟨?porst, ?porstShort, ?powerLoss, ?powerOn, ?warmrst, ?warmrstShort⟩
  case porst =>
    intro w s hw hoff
    obtain ⟨hrecords, hsvn, hkey, hpending⟩ := porst_keeps s
    have hexec : exec (.porstAssert w) s = finish (porst s) :=
      congrArg finish ((if_neg (Nat.not_lt.2 hw)).trans (if_neg hoff))
    rw [porst_reborn] at hrecords hsvn hkey hpending hexec
    generalize porstBegins s = u at hrecords hsvn hkey hpending hexec
    exact ⟨reborn u, hexec.trans (finish_of_settled rfl rfl rfl), rfl, rfl, rfl, rfl, fun _ => rfl, unitsReset_reborn u, rfl,
      hrecords, hsvn, hkey, hpending⟩
  case porstShort => exact fun _ _ hw => completes_of (congrArg finish (if_pos hw))
  case powerLoss =>
    intro s hoff
    obtain ⟨hrecords, hsvn, hkey, hpending⟩ := porst_keeps s
    have hexec : exec .powerLoss s = finish { porst s with glb := { (porst s).glb with state := .off, locked := false } } :=
      congrArg finish (if_neg hoff)
    rw [porst_reborn] at hrecords hsvn hkey hpending hexec
    generalize porstBegins s = u at hrecords hsvn hkey hpending hexec
    exact ⟨_, hexec.trans (finish_of_settled rfl rfl rfl), rfl, rfl, fun _ => rfl, unitsReset_reborn u, rfl, hrecords, hsvn, hkey,
      hpending⟩
  case powerOn => exact fun _ hoff => completes_of (congrArg finish (if_pos hoff))
  case warmrst =>
    intro w s hw hoff hporst hs
    obtain ⟨hmem, hregs, hqueues, hraised, -⟩ := hs
    have hwf : s.Wf := ⟨hmem, hregs, hqueues⟩
    obtain ⟨hraised', hlock, hbell, hrecords, hsvn, hkey, hpending⟩ := warmrst_keeps s
    obtain ⟨hpor, hwarm, hboot, hcount⟩ := bits_warmCause s
    have hcause {hi lo : Nat} (h : bits (regStored R.GLB_RSTCAUSE) hi lo = 2 ^ (hi + 1 - lo) - 1) :
        fld (warmrst s) R.GLB_RSTCAUSE hi lo = bits (warmCause s) hi lo := fld_warmrst_cause hwf h
    have hhost (o : Nat) (hlo : 0x020000 ≤ o) (hhi : o < 0x040000) (hinvctl : o ≠ R.HST_INVCTL) (hevcfg : o ≠ R.HST_EVCFG) :
        rd (warmrst s) o = rd s o :=
      (rd_warmrst s o).trans ((rd_warmRegs_hst _ hlo hhi hinvctl hevcfg).trans (rd_warmBegins s o))
    have hexec : exec (.warmrstAssert w) s = finish (warmrst s) :=
      congrArg finish ((if_neg (Nat.not_lt.2 hw)).trans (if_neg (by simp [hoff, hporst])))
    rw [warmrst_eq] at hraised' hlock hbell hrecords hsvn hkey hpending hcause hhost hexec
    generalize warmRegs (warmBegins s) = u at hraised' hlock hbell hrecords hsvn hkey hpending hcause hhost hexec
    exact ⟨warmReborn u, hexec.trans (finish_of_settled (hraised'.trans hraised) rfl rfl), rfl, rfl, hlock, hbell,
      unitsReset_warmReborn u, (hcause (by decide)).trans hpor, (hcause (by decide)).trans hwarm, (hcause (by decide)).trans hboot,
      (hcause (by decide)).trans hcount, hhost, hrecords, hsvn, hkey, hpending⟩
  case warmrstShort => exact fun _ _ hw => completes_of (congrArg finish (if_pos hw))

/-! ## PCIE_PERST_N (R98, R101, R546) -/

/-- A word that a reset restores whole reads its reset value. -/
theorem rd_resetWords_of_scope {scope : Nat → Bool} {keep : Nat → Word} (s : State) {o : Nat} (h : scope o = true)
    (hkeep : keep o = 0) : rd (resetWords scope keep s) o = regReset o := by
  have hword (v : Word) : (regReset o &&& ~~~(0 : Word)) ||| (v &&& 0) = regReset o := by
    rw [show ~~~(0 : Word) = BitVec.allOnes 32 from rfl, BitVec.and_allOnes]
    simp
  unfold rd resetWords
  dsimp only
  induction s.regs with
  | nil => rfl
  | cons p l ih =>
    obtain ⟨k, v⟩ := p
    rw [List.filterMap_cons]
    by_cases hk : k = o
    · subst hk
      rw [if_pos h, hkeep, if_pos (hword v)]
      exact ih
    · have hskip (w : Word) (m : Sparse Word) : Sparse.get (regReset o) ((k, w) :: m) o = Sparse.get (regReset o) m o := if_neg hk
      dsimp only
      split
      · exact ih
      · rename_i q hq
        obtain ⟨w, rfl⟩ : ∃ w, q = (k, w) := by
          split at hq
          · split at hq <;> cases hq
            exact ⟨_, rfl⟩
          · cases hq
            exact ⟨_, rfl⟩
        exact (hskip w _).trans ih

/-- The registers of the host interface at their reset values but for the counts that R546 keeps. -/
def perstWords (s : State) : State := resetWords perstScope (fun _ => 0) s

theorem rd_pcieDown_of_ne (s : State) {o : Nat} (h : o ≠ R.GLB_RSTCAUSE) : rd (pcieDown s) o = rd (perstWords s) o :=
  rd_wr_of_ne _ _ h

theorem rd_pcieDown_of_kept (s : State) {o : Nat} (h : o ≠ R.GLB_RSTCAUSE) (hscope : perstScope o = false) :
    rd (pcieDown s) o = rd s o := (rd_pcieDown_of_ne s h).trans (rd_resetWords _ _ _ _ hscope)

theorem rd_pcieDown_of_reset (s : State) {o : Nat} (h : o ≠ R.GLB_RSTCAUSE) (hscope : perstScope o = true) :
    rd (pcieDown s) o = regReset o := (rd_pcieDown_of_ne s h).trans (rd_resetWords_of_scope s hscope rfl)

theorem fld_pcieDown_perst {s : State} (h : s.regsWf) : fld (pcieDown s) R.GLB_RSTCAUSE 5 5 = 1 := by
  have hwords : (perstWords s).regsWf := resetWords_regsWf _ _ s (fun _ => .inl rfl) h
  exact fld_setF _ _ 1 hwords (Nat.le_refl 5) (by decide) (by decide)

/-- Settles O14, by the scope of the reset: what lies outside the host interface stands. -/
theorem pcieReset : Obligations.PcieReset := by
  refine ⟨?assert, ?assertReset, ?others, ?host, fun _ => completes_of rfl, ?linkUp⟩
  case assert =>
    exact fun _ hoff hreset hperst => completes_of (congrArg finish ((if_neg (by simp [hoff, hperst])).trans (if_neg hreset)))
  case assertReset =>
    exact fun _ hreset hperst => completes_of (congrArg finish ((if_neg (by simp [hreset, hperst])).trans (if_pos hreset)))
  case others =>
    intro s o _ hout hcause
    exact rd_pcieDown_of_kept s hcause (by simp [perstScope, within]; omega)
  case host =>
    intro s hs
    obtain ⟨-, hregs, -⟩ := hs
    exact ⟨fld_pcieDown_perst hregs, rd_pcieDown_of_reset s (by decide) (by decide), rd_pcieDown_of_reset s (by decide) (by decide),
      rd_pcieDown_of_reset s (by decide) (by decide), rd_pcieDown_of_kept s (by decide) (by decide),
      rd_pcieDown_of_kept s (by decide) (by decide)⟩
  case linkUp =>
    intro v w s s1 hporst hperst hoff hs1
    subst hs1
    exact completes_of (congrArg finish (if_neg (by simp [hporst, hperst, hoff])))

end Sys2Proof.Machine
end

section
/-!
PROOFS. SELFTEST, LINK_TRAIN as the page store and the ports see it, and RETRY (spec/03_bring_up.md R85 to R92, R102, R103;
spec/16_memories.md R499, R500).
-/
namespace Sys2Proof.Machine

/-! ## Spares (R499, R500) -/

/-- Of a row of eight entries each is updated once, by its own function. -/
theorem vat_foldl_vmod_row {α : Type} (v : Vector α 64) (f : Nat → α → α) {b m k : Nat} (hm : m < 8) (hk : k ≤ 8) :
    vat ((List.range k).foldl (fun u i => vmod u (8 * b + i) (f i)) v) (8 * b + m) =
      if m < k then f m (vat v (8 * b + m)) else vat v (8 * b + m) := by
  induction k with
  | zero => rfl
  | succ k ih =>
    rw [List.range_succ, List.foldl_append]
    have hprev := ih (by omega)
    generalize (List.range k).foldl (fun u i => vmod u (8 * b + i) (f i)) v = u at hprev ⊢
    change vat (vset u (8 * b + k) (f k (vat u (8 * b + k)))) (8 * b + m) = _
    by_cases hmk : m = k
    · subst hmk
      rw [vat_vset_self, hprev, if_neg (Nat.lt_irrefl m), if_pos (Nat.lt_succ_self m)]
    · have hcond : m < k + 1 ↔ m < k := by omega
      rw [vat_vset_of_ne _ _ (by omega), hprev, if_congr hcond rfl rfl]

theorem repairLow_used (b : Nat) (s : State) : (repairLow b s).mem.used = s.mem.used := by
  unfold repairLow
  dsimp only
  split
  · split <;> rfl
  · rfl

/-- The faults that a bank's march finds take free spares of their ways. -/
theorem bankRepair_used (found : Vector Byte 64) (b m : Fin 8) (s : State) : vat (bankRepair found b s).mem.used (8 * b + m) =
    vat s.mem.used (8 * b + m) + min (vat found (8 * b + m)).toNat (20 - vat s.mem.used (8 * b + m)) := by
  have hrow := vat_foldl_vmod_row s.mem.used (fun i n => n + min (vat found (8 * b + i)).toNat (waysFree s b i)) (b := b) m.isLt (le_refl 8)
  rw [if_pos m.isLt] at hrow
  have hmarks (l : List Nat) (u : State) :
      (forEach l (fun m s => setF (R.MEM_BKREP b) (24 + m) (24 + m) 1 s) u).mem.used = u.mem.used :=
    forEach_same (fun s => s.mem.used) l
      (fun m s => setF (R.MEM_BKREP b) (24 + m) (24 + m) 1 s) (fun _ _ => rfl) u
  unfold bankRepair
  rw [repairLow_used, hmarks]
  exact hrow

/-- The spares that the fuses of a bank name are in use, and no others. -/
theorem bankFuses_used (fuse : Vector Byte 64) (b m : Fin 8) (s : State) :
    vat (bankFuses fuse b s).mem.used (8 * b + m) = (vat fuse (8 * b + m)).toNat := by
  have hrow := vat_foldl_vmod_row s.mem.used (fun i _ => (vat fuse (8 * b + i)).toNat) (b := b) m.isLt (le_refl 8)
  rw [if_pos m.isLt] at hrow
  exact hrow

/-! ## The activities of SELFTEST (R85, R87) -/

/-- What the end of the memory test asks once faults have taken spares: a bank in which a way has none left (R499). -/
theorem memoryDone_eq (fuse found : Vector Byte 64) (tables : Bool) (s : State) : memoryDone fuse found tables s =
    match (testBanks s).find? (fun b => !(waysShort (testLoaded fuse s) found b).isEmpty) with
    | some b => selftestFail 1 b (maskOf 8 (fun m => (waysShort (testLoaded fuse s) found b).contains m))
        { testRepaired fuse found s with bru := { (testRepaired fuse found s).bru with memory := .failed } }
    | none =>
      if tables && s.ldr.cold then selftestFail 1 8 0
        { testRepaired fuse found s with bru := { (testRepaired fuse found s).bru with memory := .failed } }
      else selftestEnd { testRepaired fuse found s with bru := { (testRepaired fuse found s).bru with memory := .done } } := by
  rw [← List.head?_filter]
  rfl

theorem memoryDone_short {fuse found : Vector Byte 64} {tables : Bool} {s : State} {b : Nat}
    (h : (testBanks s).find? (fun b => !(waysShort (testLoaded fuse s) found b).isEmpty) = some b) :
    memoryDone fuse found tables s = selftestFail 1 b (maskOf 8 (fun m => (waysShort (testLoaded fuse s) found b).contains m))
      { testRepaired fuse found s with bru := { (testRepaired fuse found s).bru with memory := .failed } } := by
  rw [memoryDone_eq, h]

/-- Where every bank has the spares it needs, the tables arrays decide. -/
theorem memoryDone_repaired {fuse found : Vector Byte 64} {s : State} (tables : Bool)
    (h : ∀ b ∈ testBanks s, waysShort (testLoaded fuse s) found b = []) : memoryDone fuse found tables s =
      if tables && s.ldr.cold then selftestFail 1 8 0
        { testRepaired fuse found s with bru := { (testRepaired fuse found s).bru with memory := .failed } }
      else selftestEnd { testRepaired fuse found s with bru := { (testRepaired fuse found s).bru with memory := .done } } := by
  have hnone : (testBanks s).find? (fun b => !(waysShort (testLoaded fuse s) found b).isEmpty) = none :=
    List.find?_eq_none.2 fun b hb => by simp [h b hb]
  rw [memoryDone_eq, hnone]

theorem memory_completes {fuse found : Vector Byte 64} {tables : Bool} {s u : State} (h : s.glb.state = .selftest)
    (hrun : s.bru.memory = .running) (hready : testReady s = true) (hu : memoryDone fuse found tables s = u) :
    Completes (.selftestActivityDone (.memory fuse found tables)) s u := by
  refine completes_of (congrArg finish ((if_neg (not_not.2 h)).trans ?_))
  exact (if_pos ⟨hrun, hready⟩).trans hu

/-! ## The page store in LINK_TRAIN (R89, R90) -/

/-- A channel of the page store is in training: it takes the end of its attempt. -/
theorem xmcTrainDone_exec {ch : Fin 4} {s : State} (ok : Bool) (phase : Byte) (h : s.glb.state = .linkTrain) (hrun : s.bru.xmc = .running)
    (hch : ch.val < xmcChannels s) (hbit : bitOf s.bru.xmcTrained.toNat ch.val = false) (htries : vat s.bru.xmcTries ch.val < 2) :
    exec (.xmcTrainDone ch ok phase) s = finish (if ok then
      bruCheck (xmcReport { s with bru := { s.bru with
        xmcTrained := s.bru.xmcTrained ||| BitVec.ofNat 4 (2 ^ ch.val),
        xmc := if (List.range (xmcChannels s)).all (fun c => bitOf (s.bru.xmcTrained ||| BitVec.ofNat 4 (2 ^ ch.val)).toNat c) && !xmcEcc s
          then .done else s.bru.xmc } })
    else if vat s.bru.xmcTries ch.val + 1 < 2 then
      { s with bru := { s.bru with xmcTries := vset s.bru.xmcTries ch.val (vat s.bru.xmcTries ch.val + 1) } }
    else bruErr Ev.BRU_XMC_TRAIN_FAIL ch.val phase.toNat
      (logEvent Ev.BRU_XMC_TRAIN_FAIL ch.val ch.val phase.toNat (vat s.bru.xmcTries ch.val + 1)
        { s with bru := { s.bru with xmcTries := vset s.bru.xmcTries ch.val (vat s.bru.xmcTries ch.val + 1), xmc := .failed } })) :=
  congrArg finish (if_neg (by simp [h, hrun, hbit, hch, htries]))

theorem bits_ofNat (n : Nat) {hi lo : Nat} (h : hi < 32) (hlo : lo ≤ hi) :
    bits (BitVec.ofNat 32 n) hi lo = n / 2 ^ lo % 2 ^ (hi + 1 - lo) := by
  apply Nat.eq_of_testBit_eq
  intro i
  unfold bits
  rw [Nat.testBit_mod_two_pow, Nat.testBit_shiftRight, BitVec.toNat_ofNat, Nat.testBit_mod_two_pow, Nat.testBit_mod_two_pow,
    Nat.testBit_div_two_pow]
  by_cases hi' : i < hi + 1 - lo
  · simp [hi', show lo + i < 32 by omega, Nat.add_comm]
  · simp [hi']

/-- A field of a register that hardware has written whole. -/
theorem fld_wr_ofNat {s : State} (o n : Nat) {hi lo : Nat} (hs : s.regsWf) (h : hi < 32) (hlo : lo ≤ hi)
    (hstored : bits (regStored o) hi lo = 2 ^ (hi + 1 - lo) - 1) :
    fld (wr o (BitVec.ofNat 32 n) s) o hi lo = n / 2 ^ lo % 2 ^ (hi + 1 - lo) := by
  unfold fld
  rw [rd_wr_self _ _ _ hs, bits_and _ _ _ _ hstored, bits_ofNat n h hlo]

/-- What XMC_STAT is composed of: trained channels, ECC, usable capacity (R89, R90). -/
def xmcStat (s : State) : Nat :=
  s.bru.xmcTrained.toNat + (if s.bru.xmc = .done ∧ xmcEcc s = true then 16 else 0) +
    (if s.bru.xmc = .done then 65536 * (xmcUsable s / 2 ^ 28) else 0)

theorem xmcReport_eq (s : State) : xmcReport s = wr R.XMC_STAT (BitVec.ofNat 32 (xmcStat s)) s := by
  unfold xmcReport xmcStat
  simp

theorem fld_xmcReport {s : State} (hs : s.regsWf) {hi lo : Nat} (h : hi < 32) (hlo : lo ≤ hi)
    (hstored : bits (regStored R.XMC_STAT) hi lo = 2 ^ (hi + 1 - lo) - 1) :
    fld (xmcReport s) R.XMC_STAT hi lo = xmcStat s / 2 ^ lo % 2 ^ (hi + 1 - lo) := by
  rw [xmcReport_eq, fld_wr_ofNat _ _ hs h hlo hstored]

/-- The three fields of XMC_STAT lie apart. -/
theorem xmcStat_fields (s : State) : xmcStat s / 2 ^ 0 % 2 ^ 4 = s.bru.xmcTrained.toNat ∧
    xmcStat s / 2 ^ 4 % 2 ^ 1 = (if s.bru.xmc = .done ∧ xmcEcc s = true then 1 else 0) ∧
    xmcStat s / 2 ^ 16 % 2 ^ 16 = (if s.bru.xmc = .done then xmcUsable s / 2 ^ 28 % 65536 else 0) := by
  have htrained := s.bru.xmcTrained.isLt
  unfold xmcStat
  generalize xmcUsable s / 2 ^ 28 = n
  by_cases hdone : s.bru.xmc = .done
  · by_cases hecc : xmcEcc s = true
    · simp only [hdone, hecc, and_self, if_true]
      omega
    · simp only [hdone, hecc, and_false, if_true, if_false, Bool.false_eq_true]
      omega
  · simp only [hdone, false_and, if_false]
    omega

/-! ## The end of LINK_TRAIN (R35, R92) -/

theorem bruCheck_ready {s : State} (h : s.glb.state = .linkTrain) (hxmc : s.bru.xmc = .done ∨ s.bru.xmc = .skipped)
    (hports : portsAct s = .done) (hcas : s.bru.cascade = .done ∨ s.bru.cascade = .skipped) : (bruCheck s).glb.state = .idle := by
  unfold bruCheck
  rw [if_pos ⟨h, by simpa using hxmc, hports, by simpa using hcas⟩, logEvent_glb, goto_state]

theorem bruCheck_waits {s : State} (h : s.bru.xmc = .running ∨ s.bru.xmc = .failed) : bruCheck s = s := by
  refine if_neg ?_
  rintro ⟨-, hxmc, -⟩
  rcases h with h | h <;> simp [h] at hxmc

/-! ## RETRY (R103) -/

theorem those_eq_nil {n : Nat} {p : Nat → Bool} (h : ∀ i, p i = false) : those n p = [] :=
  List.filter_eq_nil_iff.2 fun i _ => by simp [h i]

theorem retry_selftest {s : State} (h : s.glb.state = .selftest) (hfail : selftestAct s = .failed) :
    retry s = (1, 1, startSelftest s) := by
  unfold retry
  rw [h]
  exact if_pos hfail

theorem retry_xmc {s : State} (h : s.glb.state = .linkTrain) (hxmc : s.bru.xmc = .failed) (hcas : s.bru.cascade ≠ .failed)
    (hports : ∀ p, portStuck s p = false) : retry s = (1, 2, xmcRetry s) := by
  unfold retry
  rw [h]
  simp [hxmc, hcas, those_eq_nil hports, forEach]

theorem retry_linkTrain_nothing {s : State} (h : s.glb.state = .linkTrain) (hxmc : s.bru.xmc ≠ .failed) (hcas : s.bru.cascade ≠ .failed)
    (hports : ∀ p, portStuck s p = false) : retry s = (2, 0, s) := by
  unfold retry
  rw [h]
  simp [hxmc, hcas, those_eq_nil hports]

theorem retry_idle {s : State} (h : s.glb.state = .idle) (hcomplete : s.bru.incomplete = false) (hports : those 16 (portAbsent s) ≠ []) :
    retry s = (1, 4, forEach (those 16 (portAbsent s)) startSeries s) := by
  unfold retry
  rw [h]
  exact if_neg (by simp [hcomplete, hports])

/-- RETRY takes no note of GLB_BRUERR, which it clears where it is accepted. -/
theorem bruRetry_accepted {s u : State} {mask : Nat} (hoff : s.glb.state ≠ .off) (h : (retry s).1 = 1)
    (hcleared : retry (wr R.GLB_BRUERR 0 s) = (1, mask, u)) : Completes .bruRetry s
      (logEvent Ev.BRU_RETRY 0xFF s.glb.state.code mask 0 (setF R.GLB_BRUSTAT 17 16 1 u)) := by
  refine completes_of (congrArg finish ((if_neg hoff).trans ((if_neg (by decide)).trans ?_)))
  dsimp only
  rw [if_pos h, hcleared]
  rfl

theorem bruRetry_refused {s : State} (hoff : s.glb.state ≠ .off) (h : retry s = (2, 0, s)) :
    Completes .bruRetry s (setF R.GLB_BRUSTAT 17 16 2 s) := by
  refine completes_of (congrArg finish ((if_neg hoff).trans ((if_neg (by decide)).trans ?_)))
  have hkept : (if (retry s).1 = 1 then wr R.GLB_BRUERR 0 s else s) = s := if_neg (by simp [h])
  rw [hkept, h]
  rfl

theorem startSelftest_acts (s : State) : (startSelftest s).bru.memory = .running ∧ (startSelftest s).glb = s.glb ∧
    (s.ldr.cold = false → (startSelftest s).bru.journal = .skipped ∧ (startSelftest s).bru.invar = .skipped ∧
      (startSelftest s).bru.adc = .skipped) ∧
    (s.ldr.cold = true → (startSelftest s).bru.journal = .running ∧ (startSelftest s).bru.invar = .running ∧
      (startSelftest s).bru.adc = .running) := by
  refine ⟨rfl, rfl, fun h => ?_, fun h => ?_⟩ <;> unfold startSelftest <;> rw [h] <;> exact ⟨rfl, rfl, rfl⟩

/-- Settles O17, activity by activity, and RETRY by the state that it is given in. -/
theorem bringUp : Obligations.BringUp := by
  refine ⟨?memory, ?memoryShort, ?memoryTables, bankRepair_used, bankFuses_used, fun _ _ h => if_pos h, ?notReady, ?journal, ?journalFails,
    ?invar, ?invarFails, ?adc, ?adcFails, fun _ h hdone => if_pos ⟨h, hdone⟩, fun _ h => if_neg fun k => h k.2, ?trained, ?again,
    ?fails, ?ecc, ?stat, fun _ h hxmc hports hcas => bruCheck_ready h hxmc hports hcas, fun _ => bruCheck_waits, ?retrySelftest, ?retryXmc,
    ?retryNone, ?retryIdle, ?retryPrint, startSelftest_acts⟩
  case memory =>
    exact fun _ _ _ h hrun hready hfree => memory_completes h hrun hready ((memoryDone_repaired false hfree).trans (if_neg (by simp)))
  case memoryShort => exact fun _ _ _ _ _ h hrun hready hshort => memory_completes h hrun hready (memoryDone_short hshort)
  case memoryTables =>
    exact fun _ _ _ h hrun hready hcold hfree =>
      memory_completes h hrun hready ((memoryDone_repaired true hfree).trans (if_pos (by simp [hcold])))
  case notReady =>
    intro fuse found tables s h hready
    refine completes_of (congrArg finish ((if_neg (not_not.2 h)).trans (if_neg ?_)))
    simp [hready]
  case journal =>
    intro s h hrun
    refine completes_of (congrArg finish ((if_neg (not_not.2 h)).trans ((if_neg (not_not.2 hrun)).trans ?_)))
    exact if_pos rfl
  case journalFails =>
    intro s h hrun
    refine completes_of (congrArg finish ((if_neg (not_not.2 h)).trans ((if_neg (not_not.2 hrun)).trans ?_)))
    exact if_neg Bool.false_ne_true
  case invar => exact fun _ h hrun => completes_of (congrArg finish ((if_neg (not_not.2 h)).trans (if_neg (not_not.2 hrun))))
  case invarFails =>
    exact fun _ _ h hrun => completes_of (congrArg finish ((if_neg (not_not.2 h)).trans (if_neg (not_not.2 hrun))))
  case adc => exact fun _ h hrun => completes_of (congrArg finish ((if_neg (not_not.2 h)).trans (if_neg (not_not.2 hrun))))
  case adcFails =>
    exact fun _ _ h hrun => completes_of (congrArg finish ((if_neg (not_not.2 h)).trans (if_neg (not_not.2 hrun))))
  case trained =>
    intro ch phase s h hrun hch hbit htries
    refine completes_of ((xmcTrainDone_exec true phase h hrun hch hbit htries).trans (congrArg finish ((if_pos rfl).trans ?_)))
    simp only [hrun, Bool.and_eq_true, Bool.not_eq_true']
  case again =>
    intro ch phase s h hrun hch hbit htries
    refine completes_of ((xmcTrainDone_exec false phase h hrun hch hbit (by omega)).trans ?_)
    rw [htries]
    rfl
  case fails =>
    intro ch phase s h hrun hch hbit htries
    refine completes_of ((xmcTrainDone_exec false phase h hrun hch hbit (by omega)).trans ?_)
    rw [htries]
    rfl
  case ecc =>
    intro s h hrun hecc htrained
    refine completes_of (congrArg finish (if_pos ⟨h, hrun, hecc, ?_⟩))
    exact List.all_eq_true.2 fun c hc => htrained c (List.mem_range.1 hc)
  case stat =>
    intro s hs
    obtain ⟨-, hregs, -⟩ := hs
    obtain ⟨htrained, hecc, husable⟩ := xmcStat_fields s
    exact ⟨(fld_xmcReport hregs (by decide) (by decide) (by decide)).trans htrained,
      (fld_xmcReport hregs (by decide) (by decide) (by decide)).trans hecc,
      (fld_xmcReport hregs (by decide) (by decide) (by decide)).trans husable⟩
  case retrySelftest =>
    intro s h hfail
    have hdone := bruRetry_accepted (s := s) (by simp [h]) (by rw [retry_selftest h hfail])
      (retry_selftest (s := wr R.GLB_BRUERR 0 s) h hfail)
    rwa [h] at hdone
  case retryXmc =>
    intro s h hxmc hcas hports
    have hdone := bruRetry_accepted (s := s) (by simp [h]) (by rw [retry_xmc h hxmc hcas hports])
      (retry_xmc (s := wr R.GLB_BRUERR 0 s) h hxmc hcas hports)
    rwa [h] at hdone
  case retryNone => exact fun s h hxmc hcas hports => bruRetry_refused (by simp [h]) (retry_linkTrain_nothing h hxmc hcas hports)
  case retryIdle =>
    intro s h hcomplete hports
    have hdone := bruRetry_accepted (s := s) (by simp [h]) (by rw [retry_idle h hcomplete hports])
      (retry_idle (s := wr R.GLB_BRUERR 0 s) h hcomplete hports)
    rwa [h] at hdone
  case retryPrint =>
    intro s h
    refine bruRetry_refused (by rcases h with h | h <;> simp [h]) ?_
    unfold retry
    rcases h with h | h <;> rw [h]

end Sys2Proof.Machine
end

section
/-!
PROOFS. Frames of the cascade that this device takes, and discovery (spec/03_bring_up.md R95 to R97; spec/14_cascade.md R432, R433, R437 to
R439).
-/
namespace Sys2Proof.Machine

/-! ## Frames that are taken (R437 to R439) -/

/-- A frame that leaves adds to the record of outputs alone. -/
theorem casPut_rest (port : Nat) (bs : List Byte) (s : State) : ∃ o, casPut port bs s = { s with out := o } := by
  unfold casPut
  by_cases h : (if port = 0 then cuUp s else cdUp s) = true
  · rw [if_pos h]
    exact ⟨_, rfl⟩
  · rw [if_neg h]
    exact ⟨_, rfl⟩

theorem casAnswer_rest (type : Nat) (h : CasHdr) (body : List Byte) (s : State) :
    ∃ o, casAnswer type h body s = { s with cas := { s.cas with seq := s.cas.seq + 1 }, out := o } := by
  obtain ⟨o, e⟩ := casPut_rest h.port (casBytes type s.cas.seq.toNat (myRole s) h.src.toNat s.cas.epoch ([h.seq] ++ body))
    { s with cas := { s.cas with seq := s.cas.seq + 1 } }
  exact ⟨o, e⟩

theorem acked_rest (h : CasHdr) (s : State) : ∃ o, acked h s = { s with cas := { s.cas with seq := s.cas.seq + 1 }, out := o } :=
  casAnswer_rest 0x11 h [] s

theorem relayed_rest (h : CasHdr) (type : Nat) (body : List Byte) (s : State) :
    ∃ l o, relayed h type body s = { s with cas := { s.cas with seen := l }, out := o } := by
  obtain ⟨o, e⟩ := casPut_rest (1 - h.port.val) (casBytes type h.seq.toNat h.src.toNat 0xFF h.epoch.toNat body) s
  unfold relayed
  rw [e]
  exact ⟨_, _, rfl⟩

/-- A frame of its own is acknowledged and taken. -/
theorem casRecv_mine {h : CasHdr} {s : State} (hm : frameMine h s) {type : Nat} (hack : type ≠ 0x11) (hnak : type ≠ 0x12)
    (body : List Byte) (take pass : State → State) : casRecv h type body take pass s = take (acked h s) := by
  obtain ⟨hrole, hup, hok, hdst, hmine, hepoch⟩ := hm
  have hone : ¬h.dst = 255#8 := hdst
  unfold casRecv acked
  simp [hrole, hup, hok, hone, hmine, hepoch, hack, hnak]

/-- A broadcast that is new is forwarded, noted and taken. -/
theorem casRecv_all {h : CasHdr} {s : State} (ha : frameAll h s) (type : Nat) (body : List Byte) (take pass : State → State) :
    casRecv h type body take pass s = take (relayed h type body s) := by
  obtain ⟨hrole, hup, hok, hdst, hmine, hseen, hepoch⟩ := ha
  obtain ⟨o, e⟩ := casPut_rest (1 - h.port.val) (casBytes type h.seq.toNat h.src.toNat 0xFF h.epoch.toNat body) s
  have hdst' : h.dst.toNat = 0xFF := by rw [hdst]; rfl
  have hnew : (h.src.toNat, h.seq) ∉ s.cas.seen := by simpa using hseen
  rw [hdst'] at hmine
  unfold casRecv relayed
  rw [hdst', e]
  simp [hrole, hup, hok, hdst, hmine, hnew, hepoch, modCas]

/-! ## Discovery (R95 to R97, R432, R433) -/

/-- An answer joins those that the device holds, in the place of an earlier one of its position (R96). -/
def dansAdded (d : Dans) (s : State) : State :=
  modCas (fun c => { c with dans := c.dans.filter (fun x => x.position ≠ d.position) ++ [d] }) s

/-- An answer addressed to the campanile meets its discovery as it stood. -/
theorem dansRx_campanile {h : CasHdr} {s : State} (d : Dans) (hm : frameMine h s) (hrole : isCampanile s = true) :
    exec (.dansRx h d) s = finish (
      if s.bru.cascade ≠ .running then
        if s.bru.cascade = .done ∧ d.position ≠ 0 ∧ s.cas.dans.all (fun x => x.position ≠ d.position) then
          discFail 1 d.position.toNat (dansAdded d (acked h s))
        else acked h s
      else match dansCheck (dansAdded d (acked h s)) d (dansAdded d (acked h s)).cas.dans with
        | some r => discFail r d.position.toNat (dansAdded d (acked h s))
        | none => if (dansAdded d (acked h s)).cas.dans.length + 1 = casLength s then discDone (dansAdded d (acked h s))
          else dansAdded d (acked h s)) := by
  obtain ⟨o, e⟩ := acked_rest h s
  have hcascade : (acked h s).bru = s.bru := by rw [e]
  have hdans : (acked h s).cas.dans = s.cas.dans := by rw [e]
  have hlength : casLength (dansAdded d (acked h s)) = casLength s := by rw [e]; rfl
  have hcampanile : isCampanile (acked h s) = true := by rw [e]; exact hrole
  refine congrArg finish ((casRecv_mine hm (by decide) (by decide) _ _ _).trans ?_)
  rw [← hcascade, ← hdans, ← hlength]
  exact if_neg (by simp [hcampanile])

theorem rediscRx_campanile {h : CasHdr} {s : State} (hm : frameMine h s) (hrole : isCampanile s = true) :
    exec (.rediscRx h) s = finish (if s.glb.state = .linkTrain ∨ s.glb.state = .idle then bruCheck (startDisc (acked h s))
      else modCas (fun c => { c with redisc := true }) (acked h s)) := by
  obtain ⟨o, e⟩ := acked_rest h s
  have hglb : (acked h s).glb = s.glb := by rw [e]
  have hcampanile : isCampanile (acked h s) = true := by rw [e]; exact hrole
  refine congrArg finish ((casRecv_mine hm (by decide) (by decide) _ _ _).trans ?_)
  rw [← hglb]
  exact if_neg (by simp [hcampanile])

theorem casRole_of_campanile {s : State} (h : isCampanile s = true) : casRole s = 1 := of_decide_eq_true h

theorem casRole_of_member {s : State} (h : isMember s = true) : casRole s = 2 := of_decide_eq_true h

theorem startDisc_of_held {s : State} (h : discHeld s = true) : startDisc s = s := if_pos h

theorem discFail_bru_cas (reason pos : Nat) (s : State) :
    (discFail reason pos s).bru.cascade = .failed ∧ (discFail reason pos s).cas = s.cas := by
  unfold discFail bruErr
  split <;> exact ⟨rfl, rfl⟩

/-- A campanile whose image asks for another position than 0 fails its discovery at once (R97). -/
theorem startDisc_of_position {s : State} (h : discHeld s = false) (hzero : casPosition s ≠ 0) (hany : casPosition s ≠ 0xFF) :
    (startDisc s).bru.cascade = .failed ∧ (startDisc s).cas.proposed = (s.cas.epoch + 1) % 65536 := by
  have hown : ownBad s = some 2 := if_pos ⟨hzero, hany⟩
  unfold startDisc
  dsimp only
  rw [if_neg (by simp [h]), if_pos (by simp [hown])]
  obtain ⟨hfailed, hcas⟩ := discFail_bru_cas ((ownBad s).getD 0) 0
    { s with cas := { s.cas with disc := false, dans := [], proposed := (s.cas.epoch + 1) % 65536, redisc := false },
             bru := { s.bru with cascade := .running, discFrom := s.now, discWarned := false } }
  exact ⟨hfailed, by rw [hcas]⟩

/-- Settles O47, message by message: what each does on the device that takes it. -/
theorem discovery : Obligations.Discovery := by
  refine ⟨?send, ?waits, ?discCampanile, ?discMember, ?complete, ?fails, ?further, ?done, ?redisc, fun _ => startDisc_of_held,
    fun _ => startDisc_of_position, ?rediscHeld⟩
  case send => exact fun _ hrole hrun => completes_of (congrArg finish (if_pos (by simp [hrole, hrun])))
  case waits => exact fun _ hrun hwarned hrole => completes_of (congrArg finish (if_pos ⟨hrun, by simp [hwarned], hrole⟩))
  case discCampanile =>
    intro h hops proposed s hrole hport hup hok hheld
    have hup' : (casPort s h.port).st = .active := by rw [hport]; exact hup
    refine completes_of (congrArg finish ((if_neg ?_).trans ((if_neg (by simp [hok])).trans ((if_neg ?_).trans (if_pos hrole)))))
    · simp [casRole_of_campanile hrole, hup']
    · simp [hport, hheld]
  case discMember =>
    intro h hops proposed s s3 dans hrole hport hup hok hheld hdans hs3
    subst hdans hs3
    have hcampanile : isCampanile s = false := by simp [isCampanile, casRole_of_member hrole]
    have hup' : (casPort s h.port).st = .active := by rw [hport]; exact hup
    refine completes_of (congrArg finish ((if_neg ?_).trans ((if_neg (by simp [hok])).trans ((if_neg ?_).trans
      (if_neg (by simp [hcampanile]))))))
    · simp [casRole_of_member hrole, hup']
    · simp [hport, hheld]
  case complete =>
    intro h d s s1 hm hrole hrun hs1 hcheck hlength
    subst hs1
    refine completes_of ((dansRx_campanile d hm hrole).trans (congrArg finish ((if_neg (not_not.2 hrun)).trans ?_)))
    change dansCheck (dansAdded d (acked h s)) d (dansAdded d (acked h s)).cas.dans = none at hcheck
    rw [hcheck]
    exact if_pos hlength
  case fails =>
    intro h d s s1 r hm hrole hrun hs1 hcheck
    subst hs1
    refine completes_of ((dansRx_campanile d hm hrole).trans (congrArg finish ((if_neg (not_not.2 hrun)).trans ?_)))
    change dansCheck (dansAdded d (acked h s)) d (dansAdded d (acked h s)).cas.dans = some r at hcheck
    rw [hcheck]
    rfl
  case further =>
    intro h d s hm hrole hdone hposition hnew
    exact completes_of ((dansRx_campanile d hm hrole).trans (congrArg finish ((if_pos (by simp [hdone])).trans
      (if_pos ⟨hdone, hposition, hnew⟩))))
  case done =>
    intro h epoch length transport hashes s s1 ha hrole hresid hheld hs1
    subst hs1
    obtain ⟨l, o, e⟩ := relayed_rest h 0x03 (leBytes 2 epoch.toNat ++ [length, transport] ++
      (hashes.toList.take length.toNat).flatMap (fun w => leBytes 4 w.toNat)) s
    refine completes_of (congrArg finish ((casRecv_all ha _ _ _ _).trans ?_))
    rw [e]
    have htakes : ¬(!isMember s || discHeld s) = true := by simp [hrole, hheld]
    exact (if_neg htakes).trans (congrArg bruCheck (if_pos hresid))
  case redisc => exact fun _ _ hm hrole h => completes_of ((rediscRx_campanile hm hrole).trans (congrArg finish (if_pos h)))
  case rediscHeld =>
    exact fun _ _ hm hrole htrain hidle =>
      completes_of ((rediscRx_campanile hm hrole).trans (congrArg finish (if_neg (not_or.2 ⟨htrain, hidle⟩))))

end Sys2Proof.Machine
end

section
/-!
PROOFS. The end of a destructive test of an SRAM bank (spec/16_memories.md R501, R509).
-/
namespace Sys2Proof.Machine

/-- A test that runs is cut short: the bank is left all background, and what it has found is still to come. -/
theorem marchCut_running {s : State} {t : MarchTest} (h : s.mem.test = some t) : marchCut s =
    setF R.MEM_MARCHSTAT 3 3 0 (bankFill t.bank (BitVec.ofNat 8 (fld s R.MEM_MARCHCFG 23 16))
      { s with mem := { s.mem with test := none, cut := some t.bank } }) := by
  unfold marchCut marchEnd
  simp only [h]
  rfl

/-- What the clause of O56 on such a test says of MEM_MARCHSTAT.run holds wherever the register words stand in canonical form, as they do in
every state that the block reaches (O5, O6). -/
theorem fld_marchCut_run {s : State} {t : MarchTest} (hs : s.regsWf) (h : s.mem.test = some t) :
    fld (marchCut s) R.MEM_MARCHSTAT 3 3 = 0 := by
  have hstored : bits (regStored R.MEM_MARCHSTAT) 3 3 = 2 ^ (3 + 1 - 3) - 1 := by decide
  rw [marchCut_running h]
  exact fld_setF _ R.MEM_MARCHSTAT 0 hs (Nat.le_refl 3) (by decide) hstored

/-- A state under a destructive test whose register words stand out of order: the entry of MEM_MARCHSTAT, with run 1, comes after that of
MEM_MARCHFAIL. -/
def disorderedMarch : State :=
  { State.reset with regs := [(R.MEM_MARCHFAIL, 1), (R.MEM_MARCHSTAT, 8)], mem := { Mem.reset with test := some ⟨0, 0⟩ } }

/-- Refutes O56: the clause on a test that is cut short is asked of every state, without the canonical form of the registers. Where the
words stand out of order, a write of a register's reset value meets the greater key first and takes nothing out, so MEM_MARCHSTAT.run still
reads 1 after the end of the test. -/
theorem not_memories : ¬Obligations.Memories := by
  intro h
  obtain ⟨-, -, -, -, -, hcut, -⟩ := h
  obtain ⟨-, -, hrun⟩ := hcut disorderedMarch ⟨0, 0⟩ rfl
  have hreads : fld (marchCut disorderedMarch) R.MEM_MARCHSTAT 3 3 = 1 := by decide
  omega

end Sys2Proof.Machine
end

section
/-!
PROOFS. The dot data path between the ring and the head: assembly, prefetch, the prediction of an underrun, and the host's commit of lines
(spec/04_dot_data.md R114 to R117, R127, R130, R132; spec/16_memories.md R507).
-/
namespace Sys2Proof.Machine

/-! ## A raised signal leaves the pipes alone (R446, R463) -/

@[simp] theorem sigPut_dot (sg v : Nat) (s : State) : (sigPut sg v s).dot = s.dot := by
  unfold sigPut
  dsimp only
  split <;> rfl

@[simp] theorem sigSatCount_dot (sg : Nat) (s : State) : (sigSatCount sg s).dot = s.dot := by
  unfold sigSatCount
  split <;> rfl

theorem sigAdd_dot (sg n : Nat) (s : State) : (sigAdd sg n s).dot = s.dot := by
  unfold sigAdd
  dsimp only
  split
  · exact sigPut_dot ..
  · split
    · exact (sigSatCount_dot ..).trans (sigPut_dot ..)
    · exact (sigSatCount_dot ..).trans (sigPut_dot ..)

theorem sendTrg_dot (mask : Nat) (s : State) : (sendTrg mask s).dot = s.dot := by
  unfold sendTrg
  dsimp only
  split <;> split <;> rfl

theorem raiseTrg_dot (fuel sent sg n : Nat) (s : State) : (raiseTrg fuel sent sg n s).dot = s.dot := by
  induction fuel generalizing sent sg n s with
  | zero => exact sigAdd_dot ..
  | succ fuel ih =>
    unfold raiseTrg
    dsimp only
    split
    · exact sigAdd_dot ..
    · exact (forEach_same State.dot _ _ (fun _ _ => ih ..) _).trans ((sendTrg_dot ..).trans (sigAdd_dot ..))

theorem spaceCheck_dot (d : Nat) (s0 s : State) : (spaceCheck d s0 s).dot = s.dot := by
  unfold spaceCheck
  dsimp only
  split
  · exact raiseTrg_dot ..
  · rfl

theorem dp_spaceCheck (d p : Nat) (s0 s : State) : dp (spaceCheck d s0 s) p = dp s p := congrArg (vat · p) (spaceCheck_dot ..)

/-! ## Assembly (R127) -/

theorem schedule_line (s : State) (p : Nat) (l : FLine) : (schedule s p l).1.line = l.line := rfl

/-- The energy decision keeps the number of the line. -/
theorem decideLine_line (p : Nat) (l : FLine) (s : State) : (decideLine p l s).2.line = l.line := by
  unfold decideLine
  dsimp only
  split
  · rw [schedule_line]
  · split <;> rw [schedule_line]

theorem assemble_line (d k : Nat) (s : State) : (assemble d k s).2.line = k := by
  unfold assemble
  rw [decideLine_line]
  rfl

theorem pumpPipe_of_not_mayAssemble {d : Nat} {s : State} (h : mayAssemble s d = false) : pumpPipe d s = s := if_neg (by simp [h])

/-- The pipe that starts on a line holds it in assembly, and the next line to assemble is the one after it. -/
theorem dp_pumpPipe_of_mayAssemble {d : Nat} {s : State} (h : mayAssemble s d = true) :
    (dp (pumpPipe d s) d).asm = some (assemble d (dp s d).a s).2 ∧ (dp (pumpPipe d s) d).a = ((dp s d).a + 1) % 2 ^ 32 := by
  unfold pumpPipe
  dsimp only
  rw [if_pos h, dp_spaceCheck, dp_modDot]
  exact ⟨rfl, rfl⟩

theorem lineAssemblyDone_exec {p : Fin 16} {l : FLine} {s : State} (h : (dp s p).asm = some l) :
    exec (.lineAssemblyDone p) s = finish (portPump 8 (pipePort s p) (pumpPipe p (modHlp (pipePort s p)
      (fun x => { x with lines := x.lines ++ [l] }) (modDot p (fun x => { x with asm := none }) s)))) := by
  change execLineAssemblyDone p s = _
  unfold execLineAssemblyDone
  rw [h]

/-! ## Prefetch (R114, R507) -/

/-- The page-store fetch of line `m` of row `row` ends without error: the line is in the prefetch store, without those no longer wanted, and the
pipe goes on. -/
def fetched (p : Fin 16) (row : Fin 8) (m : Nat) (s : State) : State :=
  pumpPipe p (modDot p (fun x => { x with
    pre := (dp s p).pre.filter (fun y => y.row ≠ row.val || (wantedLines s p row).contains y.line) ++
      [⟨row.val, m, pageRead s (ringAddr s p (rowPlane s p row) m) (plBytes s p)⟩] }) s)

section
variable {p : Fin 16} {row : Fin 8} {m : Nat} {s : State} (hpaged : dotPaged s p = true) (hon : (dp s p).st ≠ .off)
  (hrow : rowPresent s p row = true)
  (hnext : (wantedLines s p row).find? (fun m => !(dp s p).pre.any (fun y => y.row = row.val && y.line = m)) = some m)
include hpaged hon hrow hnext

theorem prefetchDone_clean : exec (.prefetchDone p row []) s = finish (fetched p row m s) := by
  refine congrArg finish ((if_neg (by simp [hpaged, hon, hrow])).trans ?_)
  simp only [hnext]
  have hnone : eccFound s (ringAddr s p (rowPlane s p row) m) (plBytes s p) [] = [] := by simp [eccFound]
  simp only [eccHard, eccErrors, hnone]
  rfl

theorem prefetchDone_hard {u : Nat} {c : Fin 4} (hecc : xmcEcc s = true)
    (hunit : u < eccUnits (ringAddr s p (rowPlane s p row) m) (plBytes s p)) :
    exec (.prefetchDone p row [⟨u, c, true⟩]) s =
      finish (eccUncorr (32 * (ringAddr s p (rowPlane s p row) m / 32 + u)) 2 s) := by
  refine congrArg finish ((if_neg (by simp [hpaged, hon, hrow])).trans ?_)
  simp only [hnext]
  have hfound : eccFound s (ringAddr s p (rowPlane s p row) m) (plBytes s p) [⟨u, c, true⟩] = [⟨u, c, true⟩] := by
    simp [eccFound, hecc, hunit]
  simp only [eccHard, eccErrors, hfound]
  rfl

end

/-! ## The prediction of an underrun (R130, R132) -/

@[simp] theorem winRoll_st (s : State) (x : Pipe) : (winRoll s x).st = x.st := by
  unfold winRoll
  dsimp only
  split
  · rfl
  · split <;> rfl

/-- What an evaluation notes in any case: DOT_Pn_FILL, and the low watermark. -/
def fillNoted (p : Nat) (s : State) : State :=
  lowCheck p (dotFill s p)
    (setF (R.DOT_Pn_FILL p) 31 16 (narrow 16 (satS 16 (dotFill s p + dotDrift s (dp s p))))
      (setF (R.DOT_Pn_FILL p) 15 0 (narrow 16 (satS 16 (dotFill s p))) s))

/-- The timer evaluates a pipe in RUN, over the windows that bell time stands in. -/
theorem underrunPredictTimer_exec {p : Fin 16} {s u : State} (hbound : pipeBound s p = true) (hrun : (dp s p).st = .run)
    (hguard : invarAgrees s R.DOT_UGUARD = true) (hlowm : invarAgrees s (R.DOT_Pn_LOWM p) = true) (hu : u = modDot p (winRoll s) s) :
    exec (.underrunPredictTimer p) s = finish (if fld s R.DOT_PREDCFG 16 16 = 1 ∧
        dotFill u p + dotDrift u (dp u p) < fld s R.DOT_UGUARD 7 0 then
      (ssAsk .dataLate (logEvent Ev.DOT_UNDERRUN_PREDICTED p p (toWord (dotFill u p)).toNat
        (toWord (dotFill u p + dotDrift u (dp u p))).toNat (fillNoted p u))).1
      else fillNoted p u) := by
  subst hu
  have hst : (dp (modDot p (winRoll s) s) p).st = .run := by rw [dp_modDot, winRoll_st, hrun]
  refine congrArg finish ((if_pos ⟨hbound, hrun⟩).trans ?_)
  unfold predict
  rw [useInvar_of_agrees (by simp [hguard, hlowm])]
  exact if_neg (not_not.2 hst)

/-! ## The commit of lines (R117) -/

theorem commitTo_moves {d n : Nat} (written : Nat) {s : State} (hforward : 0 ≤ lineDiff n (dp s d).wline)
    (hlimit : lineDiff n (wlimit s d) ≤ 0) :
    commitTo d n written s = pumpPipe d (modDot d (fun x => { winRoll s x with
      wline := n, cin := (winRoll s x).cin + (lineDiff n x.wline).toNat }) s) :=
  if_neg (not_or.2 ⟨not_lt.2 hforward, not_lt.2 hlimit⟩)

theorem commitTo_ignored {d n : Nat} (written : Nat) {s : State}
    (h : lineDiff n (dp s d).wline < 0 ∨ 0 < lineDiff n (wlimit s d)) :
    commitTo d n written s = logEvent Ev.DOT_WLINE_BAD d d written (wlimit s d) s := if_pos h

theorem dotWlineWrite_completes {p : Fin 16} {n : Word} {s u : State} (hopen : windowOpen s 0 (R.DOT_Pn_WLINE p) true = true)
    (h : commitTo p n.toNat n.toNat (hostAccess s) = u) : Completes (.dotWlineWrite p n) s u :=
  completes_of (congrArg finish ((viaBar0_open _ _ s hopen).trans h))

/-- The written count is added to WLINE, modulo 2^32. -/
theorem dotWaddWrite_completes {p : Fin 16} {a : BitVec 16} {s u : State} (hopen : windowOpen s 0 (R.DOT_Pn_WADD p) true = true)
    (h : commitTo p (((dp s p).wline + a.toNat) % 2 ^ 32) a.toNat (hostAccess s) = u) : Completes (.dotWaddWrite p a) s u := by
  have hadd : a.toNat % 65536 = a.toNat := Nat.mod_eq_of_lt a.isLt
  refine completes_of (congrArg finish ((viaBar0_open _ _ s hopen).trans ?_))
  unfold waddWrite
  rw [hadd]
  exact h

/-- Settles O21: assembly by R127, a fetch by its errors, an evaluation by its prediction, and a commit by where WLINE would go. -/
theorem dotLines : Obligations.DotLines := by
  refine ⟨?done, fun _ _ => pumpPipe_of_not_mayAssemble, ?starts, ?prefetch, ?predictOk, ?predictLow, ?wline, ?wlineBad, ?wadd⟩
  case done => exact fun p l s h => completes_of (lineAssemblyDone_exec h)
  case starts =>
    intro p s h
    obtain ⟨hasm, ha⟩ := dp_pumpPipe_of_mayAssemble h
    exact ⟨_, hasm, assemble_line .., ha⟩
  case prefetch =>
    intro p row m s hpaged hon hrow hnext
    exact ⟨completes_of (prefetchDone_clean hpaged hon hrow hnext),
      fun u c hecc hunit => completes_of (prefetchDone_hard hpaged hon hrow hnext hecc hunit)⟩
  case predictOk =>
    intro p s u hbound hrun hguard hlowm hu hquiet
    have hnot : ¬(fld s R.DOT_PREDCFG 16 16 = 1 ∧ dotFill u p + dotDrift u (dp u p) < fld s R.DOT_UGUARD 7 0) := by omega
    exact completes_of ((underrunPredictTimer_exec hbound hrun hguard hlowm hu).trans (congrArg finish (if_neg hnot)))
  case predictLow =>
    intro p s u hbound hrun hguard hlowm hu hen hlow
    exact completes_of ((underrunPredictTimer_exec hbound hrun hguard hlowm hu).trans (congrArg finish (if_pos ⟨hen, hlow⟩)))
  case wline => exact fun p n s hopen hforward hlimit => dotWlineWrite_completes hopen (commitTo_moves _ hforward hlimit)
  case wlineBad => exact fun p n s hopen h => dotWlineWrite_completes hopen (commitTo_ignored _ h)
  case wadd => exact fun p a s hopen hforward hlimit => dotWaddWrite_completes hopen (commitTo_moves _ hforward hlimit)

end Sys2Proof.Machine
end

section
/-!
PROOFS. The commands of a pipe: the checks ahead of the table of R138, and the table (spec/04_dot_data.md R137 to R140).
-/
namespace Sys2Proof.Machine

/-! ## The checks ahead of the table -/

theorem dotCmd_genMismatch {d cmd gen : Nat} {s : State} (hbound : pipeBound s d = true) (hgen : gen ≠ (hp s (pipePort s d)).gen.toNat) :
    dotCmd d cmd gen s = dotResult d cmd 6 0 (pipeCode s d) s :=
  (if_neg (by simp [hbound])).trans (if_pos hgen)

/-- A command with the port's generation, ENABLE in IDLE or ARMED alone, has the answer of the table. -/
theorem dotCmd_table {d cmd gen res detail : Nat} {s u : State} (hbound : pipeBound s d = true)
    (hgen : gen = (hp s (pipePort s d)).gen.toNat) (hstate : cmd = 1 → s.glb.state = .idle ∨ s.glb.state = .armed)
    (htable : pipeTable d cmd s = (res, detail, u)) : dotCmd d cmd gen s = dotResult d cmd res detail (pipeCode s d) u := by
  have hopen : ¬(cmd = 1 ∧ s.glb.state ≠ .idle ∧ s.glb.state ≠ .armed) := fun ⟨hcmd, hidle, harmed⟩ =>
    (hstate hcmd).elim hidle harmed
  refine (if_neg (by simp [hbound])).trans ((if_neg (not_not.2 hgen)).trans ((if_neg hopen).trans ?_))
  rw [htable]

/-- What a write of DOT_Pn_CMD does through an open window is what its command does once the link has left L1. -/
theorem dotCmd_completes {c : Instr} {p : Fin 16} {cmd : Nat} {gen : BitVec 16} {s u : State}
    (hc : exec c s = finish (viaBar0 (R.DOT_Pn_CMD p) (dotCmd p cmd gen.toNat) s))
    (hopen : windowOpen s 0 (R.DOT_Pn_CMD p) true = true) (h : dotCmd p cmd gen.toNat (hostAccess s) = u) : Completes c s u :=
  completes_of (hc.trans (congrArg finish ((viaBar0_open _ _ s hopen).trans h)))

theorem dotCmd_completes_genMismatch {c : Instr} {p : Fin 16} {cmd : Nat} {gen : BitVec 16} {s : State}
    (hc : exec c s = finish (viaBar0 (R.DOT_Pn_CMD p) (dotCmd p cmd gen.toNat) s))
    (hopen : windowOpen s 0 (R.DOT_Pn_CMD p) true = true) (hbound : pipeBound s p = true) (hgen : gen ≠ (hp s (pipePort s p)).gen) :
    Completes c s (dotResult p cmd 6 0 (pipeCode s p) (hostAccess s)) :=
  dotCmd_completes hc hopen (dotCmd_genMismatch hbound fun e => hgen (BitVec.eq_of_toNat_eq e))

theorem dotCmd_completes_accepted {c : Instr} {p : Fin 16} {cmd : Nat} {gen : BitVec 16} {s u : State}
    (hc : exec c s = finish (viaBar0 (R.DOT_Pn_CMD p) (dotCmd p cmd gen.toNat) s))
    (hopen : windowOpen s 0 (R.DOT_Pn_CMD p) true = true) (hbound : pipeBound s p = true) (hgen : gen = (hp s (pipePort s p)).gen)
    (hstate : cmd = 1 → s.glb.state = .idle ∨ s.glb.state = .armed) (htable : pipeTable p cmd (hostAccess s) = (1, 0, u)) :
    Completes c s (dotResult p cmd 1 0 (pipeCode s p) u) :=
  dotCmd_completes hc hopen (dotCmd_table hbound (congrArg BitVec.toNat hgen) hstate htable)

/-! ## The table of R138, where it accepts -/

theorem pipeTable_enable {d : Nat} {s : State} (hst : (dp s d).st = .off) (hactive : active s (pipePort s d) = true)
    (hring : ringChecks s d = 0) : pipeTable d 1 s = (1, 0, pipeEnable d s) := by
  unfold pipeTable
  simp only [hst]
  exact (if_neg (by simp [hactive])).trans (if_pos hring)

theorem pipeTable_disable {d : Nat} {s : State} (h : (dp s d).st = .stopped ∨ (dp s d).st = .late) :
    pipeTable d 2 s = (1, 0, pipeOff d s) := by
  unfold pipeTable
  rcases h with hst | hst <;> simp only [hst]

theorem pipeTable_clear {d : Nat} {s : State} (h : (dp s d).st = .stopped ∨ (dp s d).st = .late) :
    pipeTable d 3 s = (1, 0, ringEmpty d (dp s d).next (dp s d).next s) := by
  unfold pipeTable
  rcases h with hst | hst <;> simp only [hst]

theorem pipeTable_setline {d : Nat} {s : State} (h : (dp s d).st = .off ∨ (dp s d).st = .stopped ∨ (dp s d).st = .late) :
    pipeTable d 4 s = (1, 0, ringEmpty d (rd s (R.DOT_Pn_LINE d)).toNat (rd s (R.DOT_Pn_LINE d)).toNat s) := by
  unfold pipeTable
  rcases h with hst | hst | hst <;> simp only [hst]

theorem pipeTable_release {d : Nat} {s : State} (hst : (dp s d).st = .late) (hstate : s.glb.state = .idle ∨ s.glb.state = .armed) :
    pipeTable d 5 s = (1, 0, pipeUp d s) := by
  unfold pipeTable
  simp only [hst]
  exact if_pos hstate

/-- Settles O22, by the cell of the table that each command meets; a generation that differs is refused ahead of it. -/
theorem pipeCommands : Obligations.PipeCommands := by
  refine ⟨?enable, ?disable, ?clear, ?setline, ?release, ?mismatch⟩
  case enable =>
    exact fun p gen s hopen hbound hgen hstate hst hactive hring =>
      dotCmd_completes_accepted rfl hopen hbound hgen (fun _ => hstate) (pipeTable_enable (s := hostAccess s) hst hactive hring)
  case disable =>
    exact fun p gen s hopen hbound hgen hst =>
      dotCmd_completes_accepted rfl hopen hbound hgen nofun (pipeTable_disable (s := hostAccess s) hst)
  case clear =>
    exact fun p gen s hopen hbound hgen hst =>
      dotCmd_completes_accepted rfl hopen hbound hgen nofun (pipeTable_clear (s := hostAccess s) hst)
  case setline =>
    exact fun p gen s hopen hbound hgen hst =>
      dotCmd_completes_accepted rfl hopen hbound hgen nofun (pipeTable_setline (s := hostAccess s) hst)
  case release =>
    exact fun p gen s hopen hbound hgen hst hstate =>
      dotCmd_completes_accepted rfl hopen hbound hgen nofun (pipeTable_release (s := hostAccess s) hst hstate)
  case mismatch =>
    intro p gen s hopen hbound hgen
    exact ⟨dotCmd_completes_genMismatch rfl hopen hbound hgen, dotCmd_completes_genMismatch rfl hopen hbound hgen,
      dotCmd_completes_genMismatch rfl hopen hbound hgen, dotCmd_completes_genMismatch rfl hopen hbound hgen,
      dotCmd_completes_genMismatch rfl hopen hbound hgen⟩

end Sys2Proof.Machine
end

section
/-!
PROOFS. A line from its commit to the end of its windows: the three modes of a generator that commit by their own rule, the launch, the slots
of its rows, and the warm-only cycles between lines (spec/05_firing.md R146 to R151, R156, R162; logs 15, 25, 57, 74).
-/
namespace Sys2Proof.Machine

/-! ## The reactive rule (R148, R150) -/

theorem reactiveDelayedCommit_exec_nil {g : Fin 16} {s : State} (h : (lt s g).delayed = []) :
    exec (.reactiveDelayedCommit g) s = finish s := congrArg finish (if_pos (by simp [h]))

theorem reactiveDelayedCommit_exec_cons {g : Fin 16} {t : Nat} {rest : List Nat} {s : State} (h : (lt s g).delayed = t :: rest) :
    exec (.reactiveDelayedCommit g) s = finish (reactiveRule 64 g s) := congrArg finish (if_neg (by simp [h]))

/-- A line that its mark has reached, in time and with room on its ports, is committed at once; the delay since its mark counts as lateness. -/
theorem reactiveRule_commits {n g t : Nat} {rest : List Nat} {s u : State} (hdelayed : (lt s g).delayed = t :: rest)
    (hmay : mayCommit s g = true) (hstop : (scanning s && s.scn.stop) = false) (hhere : reached s g (lt s g).k = true)
    (hnext : reached s g (((lt s g).k + 1) % 2 ^ 32) = false) (hspaced : spacedFrom s g ≤ s.now) (hfit : firesFit s g false = true)
    (hu : u = if (lt s g).fallback then incF (R.FIR_LTn_CNT g) 23 12 (countLate g (lt s g).k (s.now - t) s)
      else countLate g (lt s g).k (s.now - t) s) :
    reactiveRule (n + 1) g s = commitGen g (u.now + reactiveDelay) false (genSee g u) := by
  subst hu
  refine (if_neg (by simp [hmay, hhere])).trans ((if_neg (ne_true_of_eq_false hstop)).trans ?_)
  refine (if_neg (by simp [hspaced, hfit])).trans ((if_neg (ne_true_of_eq_false hnext)).trans ?_)
  rw [hdelayed]

/-! ## Prediction (R147) -/

/-- With a speed there is a predicted instant, and no free value is drawn. -/
theorem predictAt_of_speed_ne_zero {g : Nat} (k : Nat) {s : State} (h : genSpeed s g ≠ 0) :
    predictAt s g k = ((pch s (ltSource s g)).t +
      Int.fdiv ((if (lt s g).rev then -(diff48 (genTarget s g k) (pch s (ltSource s g)).pos)
        else diff48 (genTarget s g k) (pch s (ltSource s g)).pos) * 390625 + 2 * genSpeed s g) (4 * genSpeed s g), s) := if_neg h

theorem predictSample_exec {g : Fin 16} {s : State} (hbound : ltBound s g = true) (hmode : genMode s g = 0) :
    exec (.predictSample g) s = finish (predictSample g s) := congrArg finish (if_pos ⟨hbound, hmode⟩)

/-- What a sample at a qualifying speed leaves before it predicts: the reactive rule and its delayed commits are over (R148). -/
def sampled (g : Nat) (s : State) : State := setFallback g false (modGen g (fun x => { x with delayed := [] }) (genSee g s))

/-- A sample commits the next line at `launch`: the predicted instant `tk` is near, the line after it is not reached, and the launch that the
lead and the spacing allow is within what the head waits for. -/
theorem predictSample_commits {g : Nat} {tk launch : Int} {s u : State} (hmay : mayCommit (genSee g s) g = true)
    (hstop : (scanning (genSee g s) && (genSee g s).scn.stop) = false) (hspeed : speedOk (genSee g s) g = true)
    (hpredict : predictAt (sampled g s) g (lt (sampled g s) g).k = (tk, u)) (hnear : tk < u.now + fld u (R.FIR_LTn_LEAD g) 11 0 + 64)
    (hnext : reached u g (((lt (sampled g s) g).k + 1) % 2 ^ 32) = false)
    (hlaunch : launch = max tk (max (spacedFrom u g) (u.now + fld u (R.FIR_LTn_LEAD g) 11 0)))
    (hwait : launch ≤ u.now + 8192) (hfit : firesFit u g true = true) :
    predictSample g s = if tk < launch then countLate g (lt (sampled g s) g).k (launch - tk).toNat (commitGen g launch.toNat true u)
      else commitGen g launch.toNat true u := by
  subst hlaunch
  refine (if_neg (by simp [hmay])).trans ((if_neg (ne_true_of_eq_false hstop)).trans ((if_neg (by simp [hspeed])).trans ?_))
  unfold sampled at hpredict hnext ⊢
  simp only [hpredict]
  refine (if_pos hnear).trans ((if_neg (ne_true_of_eq_false hnext)).trans (if_neg ?_))
  exact not_or.2 ⟨not_lt.2 hwait, by simp [hfit]⟩

/-! ## Fixed clock (R151) -/

theorem fixedClockCommit_exec {g : Fin 16} {t launch : Nat} {s : State} (hbound : ltBound s g = true) (hmode : genMode s g = 2)
    (hmay : mayCommit s g = true) (hfit : firesFit s g true = true)
    (ht : t = (lt s g).t0 + (lineDiff (lt s g).k (lt s g).k0).toNat * lineClockPeriod s)
    (hlaunch : launch = max (max t (spacedFrom s g)) (s.now + fld s (R.FIR_LTn_LEAD g) 11 0)) (hwait : launch ≤ s.now + 8192) :
    exec (.fixedClockCommit g) s = finish (commitAt g t launch s) := by
  subst hlaunch ht
  exact congrArg finish ((if_pos ⟨hbound, hmode, hmay, hfit⟩).trans (if_neg (not_lt.2 hwait)))

/-! ## Launch, slots and windows (R156, R204) -/

/-- Line `k` of generator `g` launches on its pipes, and its supervisor sees the launch. -/
def lineLaunched (g k : Nat) (s : State) : State :=
  superviseCheck g (forEach (ltPipes s g) (fun d s => launchPipe d k s) (launchMonitor g (genLaunched g k s)))

theorem lineLaunch_exec {g : Fin 16} {k : Nat} {s : State} (h : nextLaunch s g = some k) :
    exec (.lineLaunch (.line g)) s =
      finish (if scanning (lineLaunched g k s) then sweepLaunched (lineLaunched g k s) else lineLaunched g k s) := by
  change execLineLaunch (.line g) s = _
  unfold execLineLaunch
  simp only [h]
  rfl

theorem warmLaunch_exec {p : Fin 16} {l : FLine} {s : State}
    (h : (hp s p).lines.find? (fun l => l.kind ≠ .print && l.fireSent && !l.launched) = some l) :
    exec (.lineLaunch (.warm p)) s = finish (cancelWhenDue p (launchHeld p l s)) := by
  change execLineLaunch (.warm p) s = _
  unfold execLineLaunch
  simp only [h]

theorem fireSlotStart_exec {p : Fin 16} {row : Fin 8} {l : FLine} {s : State}
    (h : (hp s p).lines.find? (fun l => l.launched && bitOf l.rowmask.toNat row && !bitOf l.done.toNat row &&
      decide (l.started.getD row 0 < 16)) = some l) :
    exec (.fireSlotStart p row) s = finish
      (modLine p l (fun x => if x.launched then { x with started := x.started.modify row (fun n => n + 1) } else x) s) := by
  change execFireSlotStart p row s = _
  unfold execFireSlotStart
  rw [h]

/-- The line as the end of the window of row `row` leaves it. -/
def FLine.rowDone (l : FLine) (row : Fin 8) : FLine := { l with done := l.done ||| BitVec.ofNat 8 (2 ^ row.val) }

theorem lineWindowEnd_exec {p : Fin 16} {row : Fin 8} {l : FLine} {s : State}
    (h : (hp s p).lines.find? (fun l => l.launched && bitOf l.rowmask.toNat row && !bitOf l.done.toNat row) = some l) :
    exec (.lineWindowEnd p row) s = finish (portPump 8 p (retireLines p
      (let ended := modLine p l (fun x => if x.launched then l.rowDone row else x) s
       if (l.rowDone row).inWindow then ended else svcSettle p (lineFired p (l.rowDone row) ended)))) := by
  change execLineWindowEnd p row s = _
  unfold execLineWindowEnd
  rw [h]
  rfl

/-! ## Warm-only cycles (R162, R200) -/

theorem warmCycleTimer_exec_of_not_mayWarm {p : Fin 16} {s : State} (h : mayWarm s p = false) :
    exec (.warmCycleTimer p) s = finish s := congrArg finish (if_pos (by simp [h]))

/-- The line of a warm-only cycle on port `p`: every row present, and no nozzle fires (R162). -/
def warmCycle (s : State) (p : Nat) : FLine :=
  newLine s p 0 .warm false 0 (portRows s p) ((List.range 8).map (fun r =>
    if bitOf (portRows s p).toNat r then List.replicate (hp s p).cols 0 else []))

/-- The warm register takes the warm bits of a cycle whose waveform is in bank `b`; the FIRE frame follows the acknowledgement (log 57). -/
theorem warmCycleTimer_exec {p : Fin 16} {l l1 : FLine} {b : Nat} {s s1 s2 : State} (hmay : mayWarm s p = true)
    (hdecide : decideLine p (warmCycle s p) s = (s1, l)) (hbank : bankFor p l s1 = some (b, s2))
    (hl : l1 = { l with bank := b, lineAck := true, parmSent := true, offs := List.replicate 8 0 }) :
    exec (.warmCycleTimer p) s = finish (sendFrame p 3 0 0 (parmBody (hp s2 p) l1 true) 0
      (modHlp p (fun h => { h with lines := h.lines ++ [l1] }) s2)) := by
  subst hl
  refine congrArg finish ((if_neg (by simp [hmay])).trans ?_)
  unfold warmCycle at hdecide
  simp only [hdecide, hbank]

/-- Settles O23: each mode's commit by the branch its line takes, the launch by the next committed line, slots and windows by the launched line
whose row is not done. -/
theorem lineOnTheHead : Obligations.LineOnTheHead := by
  refine ⟨?reactive, fun _ _ h => completes_of (reactiveDelayedCommit_exec_nil h), ?predictive, fun _ k _ => predictAt_of_speed_ne_zero k,
    ?fixedClock, ?launch, fun _ _ _ h => completes_of (warmLaunch_exec h), fun _ _ _ _ h => completes_of (fireSlotStart_exec h),
    ?rowEnd, ?lineEnd, ?warm, fun _ _ h => completes_of (warmCycleTimer_exec_of_not_mayWarm h)⟩
  case reactive =>
    intro g t rest s u hdelayed hmay hstop hhere hnext hspaced hfit hu
    exact completes_of ((reactiveDelayedCommit_exec_cons hdelayed).trans
      (congrArg finish (reactiveRule_commits hdelayed hmay hstop hhere hnext hspaced hfit hu)))
  case predictive =>
    rintro g tk launch s0 _ _ s2 rfl hbound hmode hmay hstop hspeed rfl hpredict hnear hnext hlaunch hwait hfit
    exact completes_of ((predictSample_exec hbound hmode).trans
      (congrArg finish (predictSample_commits hmay hstop hspeed hpredict hnear hnext hlaunch hwait hfit)))
  case fixedClock =>
    intro g t launch s hbound hmode hmay hfit ht hlaunch hwait
    exact completes_of (fixedClockCommit_exec hbound hmode hmay hfit ht hlaunch hwait)
  case launch => exact fun g k s h => ⟨_, lineLaunched g k s, rfl, rfl, completes_of (lineLaunch_exec h)⟩
  case rowEnd =>
    intro p row l s h hmore
    exact completes_of ((lineWindowEnd_exec h).trans (congrArg (fun u => finish (portPump 8 p (retireLines p u))) (if_pos hmore)))
  case lineEnd =>
    intro p row l s h hlast
    exact completes_of ((lineWindowEnd_exec h).trans
      (congrArg (fun u => finish (portPump 8 p (retireLines p u))) (if_neg (ne_true_of_eq_false hlast))))
  case warm => exact fun p l b s s1 s2 hmay hdecide hbank => ⟨_, rfl, completes_of (warmCycleTimer_exec hmay hdecide hbank rfl)⟩

end Sys2Proof.Machine
end

section
/-!
PROOFS. The gating inputs and their ends, the waveform writes, and the origin commands of a generator (spec/05_firing.md R159, R163 to R170,
R177; spec/06_romor_head_link.md R202; logs 26, 27).
-/
namespace Sys2Proof.Machine

/-! ## A gating input acts (R166, R167, R170) -/

theorem gateDead_of_haltable {s : State} (h : haltable s = true) : gateDead s = false := by
  rw [haltable_iff] at h
  unfold gateDead
  simp only [List.mem_cons, List.not_mem_nil, or_false] at h
  rcases h with h | h | h | h | h | h <;> simp [h]

@[simp] theorem invarAgrees_modGate (f : Gate → Gate) (s : State) (o : Nat) : invarAgrees (modGate f s) o = invarAgrees s o := rfl

theorem headKillAssert_exec {s : State} (hrise : s.gate.kill = false) (hlive : gateDead s = false) :
    exec .headKillAssert s = finish (killAct { s with gate := { s.gate with kill := true } }) :=
  congrArg finish ((if_neg (ne_true_of_eq_false hrise)).trans (if_neg (ne_true_of_eq_false hlive)))

theorem headKillAssert_exec_dead {s : State} (hrise : s.gate.kill = false) (hdead : gateDead s = true) :
    exec .headKillAssert s = finish { s with gate := { s.gate with kill := true } } :=
  congrArg finish ((if_neg (ne_true_of_eq_false hrise)).trans (if_pos hdead))

theorem hopenAct_of_mask_ne_zero {m mask : Nat} (s : State) (h : mask ≠ 0) :
    hopenAct m mask s = gatePorts 2 mask m (setFlag R.FIR_GATEFLAG (1 + m) s) := if_neg h

theorem hopenAct_zero (m : Nat) (s : State) : hopenAct m 0 s = s := if_pos rfl

theorem hopenAssert_exec {m : Fin 4} {s : State} (hrise : bitOf s.gate.hopen.toNat m = false) (hlive : gateDead s = false)
    (hmap01 : invarAgrees s R.FIR_HOPENMAP01 = true) (hmap23 : invarAgrees s R.FIR_HOPENMAP23 = true) :
    exec (.hopenAssert m) s = finish (hopenAct m (hopenMask s m)
      { s with gate := { s.gate with hopen := s.gate.hopen ||| BitVec.ofNat 4 (2 ^ m.val) } }) := by
  refine congrArg finish ((if_neg (ne_true_of_eq_false hrise)).trans ((if_neg (ne_true_of_eq_false hlive)).trans ?_))
  dsimp only
  rw [useInvar_of_agrees (by simp [hmap01, hmap23])]
  rfl

theorem hpnEnExternalLow_exec {p : Fin 16} {s : State} (hlive : gateDead s = false) (hreleased : bitOf s.gate.enRel.toNat p = true) :
    exec (.hpnEnExternalLow p) s = finish (gatePorts 3 (2 ^ p.val) p
      (setFlag R.FIR_GATEFLAG (16 + p.val) { s with gate := { s.gate with enExt := s.gate.enExt ||| BitVec.ofNat 16 (2 ^ p.val) } })) :=
  congrArg finish (if_neg (by simp [hlive, hreleased]))

theorem hpnEnExternalLow_exec_held {p : Fin 16} {s : State} (hheld : bitOf s.gate.enRel.toNat p = false) :
    exec (.hpnEnExternalLow p) s =
      finish { s with gate := { s.gate with enExt := s.gate.enExt ||| BitVec.ofNat 16 (2 ^ p.val) } } :=
  congrArg finish (if_pos (by simp [hheld]))

theorem jamAct_of_enabled {m : Nat} {s : State} (h : fld s R.FIR_GATEEN (1 + m) (1 + m) = 1) :
    jamAct m s = raise Ev.FIR_JAM m m 0xFFFF 0 (setFlag R.FIR_GATEFLAG (6 + m) s) := if_neg (by omega)

theorem jamQualified_exec {m : Fin 2} {s : State} (hrise : bitOf s.gate.jam.toNat m = false) (hlive : gateDead s = false)
    (hgateen : invarAgrees s R.FIR_GATEEN = true) :
    exec (.jamQualified m) s = finish (jamAct m
      { s with gate := { s.gate with jam := s.gate.jam ||| BitVec.ofNat 2 (2 ^ m.val) } }) := by
  refine congrArg finish ((if_neg (ne_true_of_eq_false hrise)).trans ((if_neg (ne_true_of_eq_false hlive)).trans ?_))
  rw [useInvar_of_agrees (by simp [hgateen])]
  rfl

/-- MEDIA_OUT enabled is an event with STOP, over the state with its flag set. -/
theorem mediaAct_of_enabled {gens : List Nat} {s : State} (h : fld s R.FIR_GATEEN 0 0 = 1)
    (hgens : gens = those 16 (fun g => ltBound s g && ((lt s g).st = .run || (lt s g).st = .hold))) :
    mediaAct s = raise Ev.FIR_MEDIA_OUT 0xFF (maskOf 16 (fun g => gens.contains g))
      (match gens.head? with
       | some g => (rd s (R.FIR_LTn_LASTLINE g)).toNat
       | none => 0) 0 (setFlag R.FIR_GATEFLAG 5 s) := by
  subst hgens
  exact if_neg (by omega)

theorem mediaOutQualified_exec {s : State} (hrise : s.gate.mediaOut = false) (hlive : gateDead s = false)
    (hgateen : invarAgrees s R.FIR_GATEEN = true) :
    exec .mediaOutQualified s = finish (mediaAct { s with gate := { s.gate with mediaOut := true } }) := by
  refine congrArg finish ((if_neg (ne_true_of_eq_false hrise)).trans ((if_neg (ne_true_of_eq_false hlive)).trans ?_))
  rw [useInvar_of_agrees (by simp [hgateen])]
  rfl

theorem safeHoldKill_exec {p : Fin 16} {s : State} (h : (hp s p).killDue = true) : exec (.safeHoldKill p) s = finish (hardGate p s) :=
  congrArg finish (if_pos h)

/-! ## Where the events lead (R35, R167) -/

/-- A hard gate is a HALT. -/
theorem gatePorts_state_of_haltable (src mask inst : Nat) {s : State} (h : haltable s = true) :
    (gatePorts src mask inst s).glb.state = .safeHold := by
  have hgated : (forEach (those 16 (bitOf mask)) hardGate s).glb.state = s.glb.state :=
    (fq_forEach _ _ (fun _ _ => fq_hardGate ..) s).falls
  unfold gatePorts
  rw [raise_halt _ _ _ _ _ rfl ((haltable_congr hgated).trans h), enterSafeHold_state]

/-- MEDIA_OUT in PRINT enters STOPPING, unless the entry finds a soft limit that disagrees. -/
theorem mediaAct_state_of_print {s : State} (hprint : s.glb.state = .print) (hen : fld s R.FIR_GATEEN 0 0 = 1) :
    (mediaAct s).glb.state = .stopping ∨ (mediaAct s).glb.state = .safeHold := by
  rw [mediaAct_of_enabled hen rfl, raise_stop _ _ _ _ (setFlag R.FIR_GATEFLAG 5 s) rfl hprint]
  exact enterStopping_state ..

/-! ## Waveform, slot and settle time (R159, R202) -/

theorem waveformEntryWrite_completes {i : Fin 512} (v : Word) {s : State} (hopen : windowOpen s 0 (R.TBL_WAVE + 4 * i.val) true = true) :
    Completes (.waveformEntryWrite i v) s (bankChanged (i.val / 32) (hostAccess s)
      (pulseCheck (wr (R.TBL_WAVE + 4 * i.val) (v &&& 0x07FFFFFF) (hostAccess s)))) := by
  have hindex : waveWrite i.val v (hostAccess s) = bankChanged (i.val / 32) (hostAccess s)
      (pulseCheck (wr (R.TBL_WAVE + 4 * i.val) (v &&& 0x07FFFFFF) (hostAccess s))) := by
    unfold waveWrite
    rw [Nat.mod_eq_of_lt i.isLt]
  exact completes_of (congrArg finish ((viaBar0_open _ _ s hopen).trans hindex))

/-- The write that took the state from `s` to `t` has changed what the head of port `p` holds. -/
def WaveDiffers (p : Nat) (s t : State) : Prop :=
  waveEnts t p ≠ waveEnts s p ∨ slotOf t p ≠ slotOf s p ∨ settleOf t p ≠ settleOf s p

theorem bankChanged_of_differs {p : Nat} {s t : State} (h : WaveDiffers p s t) : bankChanged p s t = bankChange p t := by
  refine if_neg fun ⟨hents, hslot, hsettle⟩ => ?_
  rcases h with h | h | h
  · exact h hents
  · exact h hslot
  · exact h hsettle

theorem bankChange_of_freeBank {p b : Nat} {s : State} (hactive : active s p = true) (hfree : freeBank (hp s p) = some b) :
    bankChange p s = loadBank p b (waveEnts s p) (slotOf s p) (settleOf s p) (modHlp p (fun h => { h with bankDue := false }) s) := by
  refine (if_neg (by simp [hactive])).trans ?_
  rw [hfree]

/-- Without a free bank the change waits (log 27). -/
theorem bankChange_of_no_freeBank {p : Nat} {s : State} (hactive : active s p = true) (hnone : freeBank (hp s p) = none) :
    bankChange p s = modHlp p (fun h => { h with bankDue := true }) s := by
  refine (if_neg (by simp [hactive])).trans ?_
  rw [hnone]

/-! ## Origin commands (R177) -/

/-- A generator takes an origin: it works, and stands in IDLE or ARMED. -/
def takesOrigin (s : State) (g : Nat) : Bool := ltLive s g && ((lt s g).st = .idle || (lt s g).st = .armed)

theorem takesOrigin_eq_true {g : Nat} {s : State} (hlive : ltLive s g = true) (hst : (lt s g).st = .idle ∨ (lt s g).st = .armed) :
    takesOrigin s g = true := by
  simpa [takesOrigin, hlive] using hst

theorem takesOrigin_eq_false {g : Nat} {s : State} (h : ltLive s g = false ∨ (lt s g).st = .run ∨ (lt s g).st = .hold) :
    takesOrigin s g = false := by
  rcases h with h | h | h <;> simp [takesOrigin, h]

theorem firCmd_setorg (g : Nat) (s : State) : firCmd g 1 s =
    if takesOrigin s g then
      firResult g 1 1 (genCode s g) (loadOrigin g ((rd s (R.FIR_LTn_ORG_INT g)).toNat * 65536 + fld s (R.FIR_LTn_ORG_FRAC g) 15 0) s)
    else firResult g 1 2 (genCode s g) s := rfl

theorem firCmd_caporg (g : Nat) (s : State) : firCmd g 2 s =
    if takesOrigin s g then firResult g 2 1 (genCode s g) (loadOrigin g (pch s (ltSource s g)).pos s)
    else firResult g 2 2 (genCode s g) s := rfl

/-- An origin command through an open window does what `firCmd` does once the link has left L1. -/
theorem firCmd_completes {c : Instr} {g : Fin 16} {cmd : Nat} {s u : State}
    (hc : exec c s = finish (viaBar0 (R.FIR_LTn_CMD g) (firCmd g cmd) s)) (hopen : windowOpen s 0 (R.FIR_LTn_CMD g) true = true)
    (h : firCmd g cmd (hostAccess s) = u) : Completes c s u :=
  completes_of (hc.trans (congrArg finish ((viaBar0_open _ _ s hopen).trans h)))

/-- Settles O24: each gating input by what it does once its level is noted, a waveform write by the bank that its change finds, an origin command
by whether the generator takes one. -/
theorem gating : Obligations.Gating := by
  refine ⟨fun _ _ _ _ => rfl, fun _ hrise hlive => completes_of (headKillAssert_exec hrise hlive),
    fun _ hrise hdead => completes_of (headKillAssert_exec_dead hrise hdead), ?hopen, ?hopenNone,
    fun _ _ hlive hrel => completes_of (hpnEnExternalLow_exec hlive hrel), fun _ _ hheld => completes_of (hpnEnExternalLow_exec_held hheld),
    ?jam, ?media, ?mediaPrint, ?killHalt, fun _ _ h => completes_of (safeHoldKill_exec h), fun _ => completes_of rfl,
    fun _ _ => completes_of rfl, fun _ => completes_of rfl, fun _ _ => completes_of rfl, fun _ _ => completes_of rfl,
    fun _ v _ hopen => waveformEntryWrite_completes v hopen, fun _ _ _ hents hslot hsettle => if_pos ⟨hents, hslot, hsettle⟩,
    fun _ _ _ _ hdiff hactive hfree => (bankChanged_of_differs hdiff).trans (bankChange_of_freeBank hactive hfree),
    fun _ _ _ hdiff hactive hnone => (bankChanged_of_differs hdiff).trans (bankChange_of_no_freeBank hactive hnone), ?origin, ?originRefused⟩
  case hopen =>
    intro m s hrise hlive hmap01 hmap23 hmask
    exact completes_of ((hopenAssert_exec hrise hlive hmap01 hmap23).trans (congrArg finish (hopenAct_of_mask_ne_zero _ hmask)))
  case hopenNone =>
    intro m s hrise hlive hmap01 hmap23 hmask
    have h := hopenAssert_exec hrise hlive hmap01 hmap23
    rw [hmask, hopenAct_zero] at h
    exact completes_of h
  case jam =>
    intro m s hrise hlive hgateen hen
    exact completes_of ((jamQualified_exec hrise hlive hgateen).trans (congrArg finish (jamAct_of_enabled hen)))
  case media =>
    rintro s _ gens hrise hlive hgateen hen rfl hgens
    exact completes_of ((mediaOutQualified_exec hrise hlive hgateen).trans (congrArg finish (mediaAct_of_enabled hen hgens)))
  case mediaPrint =>
    intro s hrise hlive hgateen hen hprint
    obtain ⟨t, ht, -⟩ := finish_next (mediaAct { s with gate := { s.gate with mediaOut := true } })
    refine ⟨t, (mediaOutQualified_exec hrise hlive hgateen).trans ht, ?_⟩
    rw [state_of_finish ht]
    exact mediaAct_state_of_print hprint hen
  case killHalt =>
    intro s hhalt hrise
    obtain ⟨t, ht, -⟩ := finish_next (killAct { s with gate := { s.gate with kill := true } })
    refine ⟨t, (headKillAssert_exec hrise (gateDead_of_haltable hhalt)).trans ht, ?_⟩
    rw [state_of_finish ht]
    exact gatePorts_state_of_haltable _ _ _ hhalt
  case origin =>
    intro g s hopen hlive hst
    have htakes : takesOrigin (hostAccess s) g = true := takesOrigin_eq_true (s := hostAccess s) hlive hst
    exact ⟨firCmd_completes rfl hopen ((firCmd_setorg ..).trans (if_pos htakes)),
      firCmd_completes rfl hopen ((firCmd_caporg ..).trans (if_pos htakes))⟩
  case originRefused =>
    intro g s hopen h
    have hnot : ¬takesOrigin (hostAccess s) g = true := ne_true_of_eq_false (takesOrigin_eq_false (s := hostAccess s) h)
    exact ⟨firCmd_completes rfl hopen ((firCmd_setorg ..).trans (if_neg hnot)),
      firCmd_completes rfl hopen ((firCmd_caporg ..).trans (if_neg hnot))⟩

end Sys2Proof.Machine
end

section
/-!
PROOFS. A head port up to ACTIVE, and the time it keeps: its attempts, its training sets, the PROBEs it sends and the ECHOs that answer them
(spec/06_romor_head_link.md R185, R208, R210, R212, R215, R225; spec/03_bring_up.md R91, R92; logs 59, 71, 78).
-/
namespace Sys2Proof.Machine

/-! ## Attempts (R91, R208, R210, R225) -/

theorem portAttemptStart_exec {p : Fin 16} {s : State} (hseries : (hp s p).inSeries = true) (hdown : (hp s p).lstate = .down)
    (hleft : (hp s p).attempts < 3) (hbound : portBound s p = true) :
    exec (.portAttemptStart p) s = finish (startAttempt p s) := congrArg finish (if_pos ⟨hseries, hdown, hleft, hbound⟩)

theorem portAttemptEnd_exec_series {p : Fin 16} {s : State} (hseries : (hp s p).inSeries = true) (hdown : (hp s p).lstate = .down)
    (hused : 3 ≤ (hp s p).attempts) :
    exec (.portAttemptEnd p) s = finish (resolvePort p (hp s p).reason false s) := congrArg finish (if_pos ⟨hseries, hdown, hused⟩)

theorem portAttemptEnd_exec_hot {p : Fin 16} {s : State} (hsingle : (hp s p).inSeries = false) (hhot : (hp s p).hotTry = true)
    (hdown : (hp s p).lstate = .down) : exec (.portAttemptEnd p) s = finish (hotEnd p s) :=
  congrArg finish ((if_neg (by simp [hsingle])).trans (if_pos ⟨hhot, hdown⟩))

theorem hotswapAttemptTimer_exec {p : Fin 16} {s : State} (hidle : s.glb.state = .idle) (hbound : portBound s p = true)
    (hhot : headPresence s p = 2) (habsent : (hp s p).lstate = .absent) (hbru : s.bru.incomplete = false) :
    exec (.hotswapAttemptTimer p) s =
      finish (startAttempt p (modHlp p (fun h => { h with hotTry := true, inSeries := false }) s)) :=
  congrArg finish (if_pos ⟨hidle, hbound, hhot, habsent, by simp [hbru]⟩)

theorem trainStateTimeout_exec {p : Fin 16} {s : State} (h : (hp s p).lstate.training = true) :
    exec (.trainStateTimeout p) s = finish (failAttempt p (if (hp s p).lstate = .detect then 1 else 2) s) :=
  congrArg finish (if_pos h)

@[simp] theorem hp_sendTs (p : Nat) (name : String) (locked : Bool) (s : State) (q : Nat) : hp (sendTs p name locked s) q = hp s q := rfl

/-- An attempt starts the port's link afresh, and counts if it belongs to a series. -/
theorem hp_startAttempt (p : Nat) (s : State) :
    hp (startAttempt p s) p = { (hp s p).fresh with
      lstate := .detect, bst := .training, attempts := if (hp s p).inSeries then (hp s p).attempts + 1 else (hp s p).attempts } :=
  (hp_sendTs ..).trans (hp_modHlp ..)

/-! ## Training sets (R185, R208) -/

/-- The states in which the port waits for training sets. -/
theorem LState.training_of_sets {l : LState} (h : l = .detect ∨ l = .lock ∨ l = .config) : l.training = true := by
  rcases h with rfl | rfl | rfl <;> rfl

theorem trainSetReceived_exec_valid {p : Fin 16} {ts2 : Bool} {data : Vector Byte 14} {s : State}
    (htraining : (hp s p).lstate.training = true) (hcheck : crc8 (data.toList.take 13) = data.toList.getD 13 0) :
    exec (.trainSetReceived p ts2 data) s = finish (trainSet p ts2 data.toList s) :=
  congrArg finish ((if_neg (by simp [htraining])).trans (if_pos hcheck))

theorem trainSetReceived_exec_bad {p : Fin 16} {ts2 : Bool} {data : Vector Byte 14} {s : State}
    (htraining : (hp s p).lstate.training = true) (hcheck : crc8 (data.toList.take 13) ≠ data.toList.getD 13 0)
    (hconfig : (hp s p).lstate ≠ .config) :
    exec (.trainSetReceived p ts2 data) s = finish (modHlp p (fun h => { h with tsRun := 0 }) s) :=
  congrArg finish ((if_neg (by simp [htraining])).trans ((if_neg hcheck).trans (if_neg hconfig)))

theorem trainSetReceived_exec_bad_config {p : Fin 16} {ts2 : Bool} {data : Vector Byte 14} {s : State}
    (hconfig : (hp s p).lstate = .config) (hcheck : crc8 (data.toList.take 13) ≠ data.toList.getD 13 0) :
    exec (.trainSetReceived p ts2 data) s = finish (configSet p 0 false s) :=
  congrArg finish ((if_neg (by simp [LState.training_of_sets (.inr (.inr hconfig))])).trans ((if_neg hcheck).trans (if_pos hconfig)))

theorem trainSet_detect_counts {p : Nat} (b : List Byte) {s : State} (hdetect : (hp s p).lstate = .detect)
    (hrun : (hp s p).tsRun < 7) :
    trainSet p false b s = modHlp p (fun h => { h with ulLock := true, tsRun := (hp s p).tsRun + 1 }) s := by
  unfold trainSet
  simp only [hdetect]
  exact if_neg (by simp; omega)

/-- Eight TS1 in a row take DETECT to LOCK, unless a head that has been refused still answers on a hot-swap port (R92). -/
theorem trainSet_detect_advances {p : Nat} (b : List Byte) {s : State} (hdetect : (hp s p).lstate = .detect)
    (hrun : 7 ≤ (hp s p).tsRun) (hfree : (hp s p).hotTry = false ∨ (hp s p).reason < 3) :
    trainSet p false b s = sendTs p "TS1" true (modHlp p (fun h => { h with lstate := .lock, ulLock := true, tsRun := 0 }) s) := by
  unfold trainSet
  simp only [hdetect]
  refine (if_pos (by simp; omega)).trans (if_neg ?_)
  rcases hfree with h | h <;> simp [h]

/-- Eight TS1 in a row that show the head locked take LOCK to CONFIG. -/
theorem trainSet_lock_advances {p : Nat} {b : List Byte} {s : State} (hlock : (hp s p).lstate = .lock)
    (hlocked : bitOf ((b.getD 2 0).toNat) 0 = true) (hrun : 7 ≤ (hp s p).tsRun) :
    trainSet p false b s =
      sendTs p "TS2" true (modHlp p (fun h => { h with lstate := .config, dlLock := true, tsRun := 0, tsAfter := 0 }) s) := by
  unfold trainSet
  simp only [hlock]
  exact if_pos (by simp only [hlocked, Bool.not_false, Bool.and_self, if_true]; omega)

/-- The port at its entry to TIMESYNC: the last TS2 gives the head's credits and its largest payload (R184, R201). -/
def timesyncEntered (p : Nat) (b : List Byte) (s : State) : State :=
  modHlp p (fun h => { h with
    lstate := .timesync, tsRun := 0, tsAfter := 0, credits := (b.getD 4 0).toNat, payload := 64 * 2 ^ (min 2 (b.getD 5 0).toNat),
    echoes := [], checking := false }) s

/-- Eight TS2 in a row, and 16 sent since the first, take CONFIG to TIMESYNC, which opens with a PROBE (R208, R212; log 59). -/
theorem trainSet_config_advances {p : Nat} (b : List Byte) {s : State} (hconfig : (hp s p).lstate = .config)
    (hrun : 7 ≤ (hp s p).tsRun) (hsent : 16 ≤ (hp s p).tsAfter) :
    trainSet p true b s = sendProbe p (timesyncEntered p b s) := by
  unfold trainSet
  simp only [hconfig]
  exact if_pos ⟨by simp; omega, hsent⟩

/-! ## Time synchronisation (R212, R215) -/

theorem tsyncProbeTimer_exec {p : Fin 16} {s : State} (hactive : active s p = true) (hsynced : (hp s p).synced = true) :
    exec (.tsyncProbeTimer p) s = finish (sendProbe p s) := congrArg finish (if_pos ⟨hactive, hsynced⟩)

theorem tsyncAcqProbeTimer_exec {p : Fin 16} {s : State} (htimesync : (hp s p).lstate = .timesync)
    (hchecking : (hp s p).checking = false) (hleft : (hp s p).echoes.length < 16) :
    exec (.tsyncAcqProbeTimer p) s = finish (sendProbe p s) :=
  congrArg finish (if_pos ⟨.inl htimesync, by simp [hchecking], hleft⟩)

theorem tsyncEchoRx_exec {p : Fin 16} (t1 h2 h3 t4 : BitVec 51) {s : State} (hactive : active s p = true) :
    exec (.tsyncEchoRx p t1 h2 h3 t4) s = finish (echo p (shr ((h2 - t1).toInt + (h3 - t4).toInt) 1)
      (shr ((t4 - t1).toInt - (h3 - h2).toInt) 1) s) := congrArg finish (if_pos (.inr hactive))

/-- On a synchronised ACTIVE port an ECHO is a check for drift. -/
theorem echo_of_active {p : Nat} (theta delta : Int) {s : State} (hactive : active s p = true) (hsynced : (hp s p).synced = true) :
    echo p theta delta s = driftCheck p theta (modHlp p (fun h => { h with theta := satS 8 theta }) s) := by
  have hstate : (hp s p).lstate = .active := of_decide_eq_true hactive
  exact if_pos (by simp [hstate, hsynced])

theorem driftCheck_within {theta : Int} (p : Nat) (s : State) (h : iabs theta ≤ 2) : driftCheck p theta s = s := if_pos h

/-- Above 2 eighths, the offset is taken back by a SET with the eq in force. -/
theorem driftCheck_corrects {theta : Int} (p : Nat) (s : State) (habove : 2 < iabs theta) (hquiet : iabs theta ≤ 8) :
    driftCheck p theta s = modHlp p (fun h => { h with corr := min 15 (h.corr + 1) }) (sendSet p (-theta) (hp s p).eq s) :=
  (if_neg (by omega)).trans ((if_neg (by omega)).trans (if_neg (by omega)))

theorem driftCheck_loses {theta : Int} (p : Nat) (s : State) (h : 16 < iabs theta) : driftCheck p theta s = linkLoss p 3 s :=
  (if_neg (by omega)).trans (if_pos h)

/-- Settles O25: each attempt by the place of the port in its series, each set by its check and the training state it meets, an ECHO by the size
of its offset. -/
theorem portTraining : Obligations.PortTraining := by
  refine ⟨fun _ _ hseries hdown hleft hbound => completes_of (portAttemptStart_exec hseries hdown hleft hbound),
    fun _ _ hseries hdown hused => completes_of (portAttemptEnd_exec_series hseries hdown hused),
    fun _ _ hsingle hhot hdown => completes_of (portAttemptEnd_exec_hot hsingle hhot hdown),
    fun _ _ hidle hbound hhot habsent hbru => completes_of (hotswapAttemptTimer_exec hidle hbound hhot habsent hbru),
    fun _ _ h => completes_of (trainStateTimeout_exec h), ?start, ?bad,
    fun _ _ _ _ hconfig hcheck => completes_of (trainSetReceived_exec_bad_config hconfig hcheck), ?counts, ?lock, ?config, ?timesync,
    fun _ _ hactive hsynced => completes_of (tsyncProbeTimer_exec hactive hsynced),
    fun _ _ htimesync hchecking hleft => completes_of (tsyncAcqProbeTimer_exec htimesync hchecking hleft), ?echo,
    fun p _ s habove hquiet => driftCheck_corrects p s habove hquiet, fun p _ s h => driftCheck_loses p s h⟩
  case start =>
    intro p s
    rw [hp_startAttempt]
    refine ⟨rfl, rfl, rfl, ?_⟩
    split <;> rfl
  case bad =>
    intro p ts2 data s hstate hcheck
    have hconfig : (hp s p).lstate ≠ .config := by rcases hstate with h | h <;> simp [h]
    exact completes_of (trainSetReceived_exec_bad (LState.training_of_sets (hstate.imp_right .inl)) hcheck hconfig)
  case counts =>
    intro p data s hdetect hcheck hrun
    exact completes_of ((trainSetReceived_exec_valid (LState.training_of_sets (.inl hdetect)) hcheck).trans
      (congrArg finish (trainSet_detect_counts _ hdetect hrun)))
  case lock =>
    intro p data s hdetect hcheck hrun hfree
    exact completes_of ((trainSetReceived_exec_valid (LState.training_of_sets (.inl hdetect)) hcheck).trans
      (congrArg finish (trainSet_detect_advances _ hdetect hrun hfree)))
  case config =>
    intro p data s hlock hcheck hlocked hrun
    exact completes_of ((trainSetReceived_exec_valid (LState.training_of_sets (.inr (.inl hlock))) hcheck).trans
      (congrArg finish (trainSet_lock_advances hlock hlocked hrun)))
  case timesync =>
    intro p data s hconfig hcheck hrun hsent
    refine ⟨timesyncEntered p data.toList s, completes_of ?_, ?_⟩
    · exact (trainSetReceived_exec_valid (LState.training_of_sets (.inr (.inr hconfig))) hcheck).trans
        (congrArg finish (trainSet_config_advances _ hconfig hrun hsent))
    · simp [timesyncEntered]
  case echo =>
    rintro p t1 h2 h3 t4 _ s hactive hsynced rfl hwithin
    exact completes_of ((tsyncEchoRx_exec t1 h2 h3 t4 hactive).trans
      (congrArg finish ((echo_of_active _ _ hactive hsynced).trans (driftCheck_within _ _ hwithin))))

end Sys2Proof.Machine
end

section
/-!
PROOFS. Frames on a head port that go wrong, and the acknowledgements of the frames it sends (spec/06_romor_head_link.md R217, R218, R221, R222,
R224, R231; logs 60, 61, 78).
-/
namespace Sys2Proof.Machine

/-! ## Upstream frames and symbol lock (R217, R218) -/

/-- A port that is ACTIVE or in IDENT looks at the frames that arrive. -/
theorem looks_at_frames {p : Nat} {s : State} (h : active s p = true ∨ (hp s p).lstate = .ident) :
    ¬((!active s p) = true ∧ (hp s p).lstate ≠ .ident) := by
  rcases h with h | h <;> simp [h]

/-- The error counters of a bad upstream frame, and HLP_UP_ERROR at most once in 2^20 ticks (R224, R231). -/
def badFrameCounted (p : Nat) (codeErr : Bool) (s : State) : State :=
  let s1 := incF (R.HLP_Pn_ERRCNT p) 15 8 s
  let s2 := if codeErr then incF (R.HLP_Pn_ERRCNT p) 23 16 s1 else s1
  if mayRaise s2 (hp s2 p).upErrAt then
    logEvent Ev.HLP_UP_ERROR p p ((((hp s2 p).discards ++ (hp s2 p).oldBad).filter (fun t => decide (s2.now < t + 2 ^ 20))).length + 1) 0
      (modHlp p (fun h => { h with upErrAt := some s2.now }) s2)
  else s2

theorem upstreamFrameBad_exec {p : Fin 16} (c : Bool) {s : State} (h : active s p = true ∨ (hp s p).lstate = .ident) :
    exec (.upstreamFrameBad p c) s = finish (discardFrame p (badFrameCounted p c s)) :=
  congrArg finish (if_neg (looks_at_frames h))

theorem symbolLockLoss_exec_active {p : Fin 16} {s : State} (h : active s p = true) :
    exec (.symbolLockLoss p) s = finish (linkLoss p 1 s) := congrArg finish (if_pos h)

theorem symbolLockLoss_exec_training {p : Fin 16} {s : State} (hactive : active s p = false)
    (htraining : (hp s p).lstate.training = true) :
    exec (.symbolLockLoss p) s = finish (modHlp p (fun h => { h with ulLock := false, tsRun := 0 }) s) :=
  congrArg finish ((if_neg (ne_true_of_eq_false hactive)).trans (if_pos htraining))

/-! ## Acknowledgements (R203, R222) -/

theorem lackRx_exec {p : Fin 16} {q : Byte} {f : Sent} (st : Byte) {s : State} (hactive : active s p = true)
    (hsent : (hp s p).sent.find? (fun f => f.fseq = q) = some f) : exec (.lackRx p q st) s = finish (lack p f st.toNat s) := by
  refine congrArg finish ((if_neg (by simp [hactive])).trans ?_)
  rw [hsent]

/-- On a port that is not ACTIVE, and for no frame that awaits it, an LACK has no effect. -/
theorem lackRx_exec_ignored {p : Fin 16} {q : Byte} (st : Byte) {s : State}
    (h : active s p = false ∨ (hp s p).sent.find? (fun f => f.fseq = q) = none) : exec (.lackRx p q st) s = finish s := by
  by_cases hactive : active s p = true
  · have hnone := h.resolve_left (by simp [hactive])
    refine congrArg finish ((if_neg (by simp [hactive])).trans ?_)
    rw [hnone]
  · exact congrArg finish (if_pos (by simp [hactive]))

theorem lack_accepted {st : Nat} (p : Nat) (f : Sent) (s : State) (hst : st = 0 ∨ st = 3) :
    lack p f st s = fireWarm p (fireService p (frameAccepted p f (dropSent p f.fseq s))) := if_pos hst

theorem lack_fire_refused {p st : Nat} {f : Sent} (s : State) (hfire : f.ftype = 2) (hst : st = 1 ∨ st = 2 ∨ st = 4 ∨ st = 5) :
    lack p f st s = fireLost p f st (dropSent p f.fseq s) := (if_neg (by omega)).trans ((if_pos hfire).trans (if_pos hst))

/-- A FIRE frame answered with status 6 is lost, and the answer counts as a discarded frame (R222, R580). -/
theorem lack_fire_discarded {p st : Nat} {f : Sent} (s : State) (hfire : f.ftype = 2) (hst : st = 6) :
    lack p f st s = fireLost p f st (discardFrame p (dropSent p f.fseq s)) :=
  (if_neg (by omega)).trans ((if_pos hfire).trans ((if_neg (by omega)).trans (if_pos hst)))

/-! ## Missing acknowledgements (R221, R222) -/

/-- A LINE, PARM or CTRL frame without an LACK counts as discarded (log 61); what follows depends on the port, the retransmissions made and the
type of the frame. -/
theorem lackTimeout_exec {p : Fin 16} {q : Byte} {f : Sent} {s : State}
    (hsent : (hp s p).sent.find? (fun f => f.fseq = q && f.ftype ≠ 2) = some f) :
    exec (.lackTimeout p q) s = finish (
      if !active (discardFrame p s) p then discardFrame p s
      else if f.tries < 2 then resend p f (discardFrame p s)
      else if f.ftype = 5 then linkLoss p 4 (discardFrame p s)
      else discardFrame p s) := by
  change execLackTimeout p q s = _
  unfold execLackTimeout
  rw [hsent]

/-- A timed FIRE frame is sent again once, with its launch still 64 ticks ahead. -/
theorem fireLackTimeout_exec_again {p : Fin 16} {q : Byte} {f : Sent} {l : FLine} {s : State}
    (hsent : (hp s p).sent.find? (fun f => f.fseq = q && f.ftype = 2) = some f) (htimed : bitOf ((f.body.getD 2 0).toNat) 0 = true)
    (htries : f.tries = 0) (hl : l ∈ (hp s p).lines) (hfires : f.fires l = true) (hack : l.fireAck = false)
    (hahead : s.now + 64 ≤ l.launch) (hactive : active (discardFrame p s) p = true) (hsynced : (hp (discardFrame p s) p).synced = true) :
    exec (.fireLackTimeout p q) s = finish (resend p f (discardFrame p s)) := by
  have hany : (hp s p).lines.any (fun l => f.fires l && !l.fireAck && decide (s.now + 64 ≤ l.launch)) = true :=
    List.any_eq_true.2 ⟨l, hl, by simp [hfires, hack, hahead]⟩
  change execFireLackTimeout p q s = _
  unfold execFireLackTimeout
  rw [hsent]
  exact congrArg finish (if_pos (by simp only [htimed, htries, hany, hactive, hsynced, decide_true, Bool.and_self]))

theorem fireLackTimeout_exec_lost {p : Fin 16} {q : Byte} {f : Sent} {s : State}
    (hsent : (hp s p).sent.find? (fun f => f.fseq = q && f.ftype = 2) = some f) (htries : f.tries ≠ 0) :
    exec (.fireLackTimeout p q) s = finish (fireLost p f 0xFF (dropSent p q (discardFrame p s))) := by
  change execFireLackTimeout p q s = _
  unfold execFireLackTimeout
  rw [hsent]
  exact congrArg finish (if_neg (by simp [htries]))

/-- Settles O26: a frame by whether the port looks at it, an LACK by its status, a missing one by the port and the retransmissions made. -/
theorem linkFrames : Obligations.LinkFrames := by
  refine ⟨?bad, fun _ _ h => completes_of (symbolLockLoss_exec_active h),
    fun _ _ hactive htraining => completes_of (symbolLockLoss_exec_training hactive htraining), ?accepted, ?fireRefused,
    fun _ _ st _ h => completes_of (lackRx_exec_ignored st h), ?again, ?exhausted, ?ended, ?fireAgain,
    fun _ _ _ _ hsent htries => completes_of (fireLackTimeout_exec_lost hsent htries)⟩
  case bad =>
    rintro p c s _ hlooks rfl
    exact completes_of (upstreamFrameBad_exec c hlooks)
  case accepted =>
    intro p q f s hactive hsent
    exact completes_of ((lackRx_exec 0 hactive hsent).trans (congrArg finish (lack_accepted p f s (.inl rfl))))
  case fireRefused =>
    intro p q f s hactive hsent hfire
    exact ⟨completes_of ((lackRx_exec 1 hactive hsent).trans (congrArg finish (lack_fire_refused s hfire (.inl rfl)))),
      completes_of ((lackRx_exec 6 hactive hsent).trans (congrArg finish (lack_fire_discarded s hfire rfl)))⟩
  case again =>
    intro p q f s hsent hactive htries
    exact completes_of ((lackTimeout_exec hsent).trans (congrArg finish ((if_neg (by simp [hactive])).trans (if_pos htries))))
  case exhausted =>
    intro p q f s hsent hactive htries
    exact completes_of ((lackTimeout_exec hsent).trans
      (congrArg finish ((if_neg (by simp [hactive])).trans (if_neg (not_lt.2 htries)))))
  case ended =>
    intro p q f s hsent hactive
    exact completes_of ((lackTimeout_exec hsent).trans (congrArg finish (if_pos (by simp [hactive]))))
  case fireAgain =>
    intro p q f l s hsent htimed htries hl hfires hack hahead hactive hsynced
    exact completes_of (fireLackTimeout_exec_again hsent htimed htries hl hfires hack hahead hactive hsynced)

end Sys2Proof.Machine
end

section
/-!
PROOFS. MEM responses and head events of a head port, the usage account, and the commands of HLP_Pn_CMD (spec/06_romor_head_link.md R201, R221,
R224, R227, R228, R230, R231; log 78).
-/
namespace Sys2Proof.Machine

/-! ## MEM responses (R201, R221, R224) -/

/-- The request under `tag` ends; its credit lets one that waits leave (R201). -/
def memEnded (p : Nat) (tag : Byte) (s : State) : State :=
  memPump 16 p (modHlp p (fun h => { h with reqs := h.reqs.filter (fun x => x.tag ≠ tag) }) s)

theorem memResponseRx_exec {p : Fin 16} {tag : Byte} {m : MemReq} (st : Byte) (data : List Byte) {s : State}
    (hlooks : active s p = true ∨ (hp s p).lstate = .ident) (hreq : (hp s p).reqs.find? (fun m => m.tag = tag) = some m) :
    exec (.memResponseRx p tag st data) s = finish (usageNext p
      (memDone p m st.toNat (slice data 0 (if m.op = 1 then m.len else 0)) (memEnded p tag s))) := by
  refine congrArg finish ((if_neg (looks_at_frames hlooks)).trans ?_)
  rw [hreq]
  rfl

theorem memResponseRx_exec_unasked {p : Fin 16} {tag : Byte} (st : Byte) (data : List Byte) {s : State}
    (hlooks : active s p = true ∨ (hp s p).lstate = .ident) (hreq : (hp s p).reqs.find? (fun m => m.tag = tag) = none) :
    exec (.memResponseRx p tag st data) s = finish (incF (R.HLP_Pn_ERRCNT p) 15 8 s) := by
  refine congrArg finish ((if_neg (looks_at_frames hlooks)).trans ?_)
  rw [hreq]

theorem memResponseTimeout_exec_again {p : Fin 16} {tag : Byte} {m : MemReq} {s : State}
    (hreq : (hp s p).reqs.find? (fun m => m.tag = tag) = some m) (htries : m.tries < 2) :
    exec (.memResponseTimeout p tag) s = finish (putMem p m (incF (R.HLP_Pn_ERRCNT p) 7 0
      (modHlp p (fun h => { h with reqs := h.reqs.map (fun x => if x.tag = tag then { x with tries := x.tries + 1 } else x) }) s))) := by
  change execMemResponseTimeout p tag s = _
  unfold execMemResponseTimeout
  rw [hreq]
  exact congrArg finish (if_pos htries)

theorem memResponseTimeout_exec_software {p : Fin 16} {tag : Byte} {m : MemReq} {s : State}
    (hreq : (hp s p).reqs.find? (fun m => m.tag = tag) = some m) (htries : 2 ≤ m.tries) (howner : m.owner = .software) :
    exec (.memResponseTimeout p tag) s = finish (setF (R.HLP_Pn_CMD_STATUS p) 13 12 3
      (logEvent Ev.HLP_MEM_TIMEOUT p p m.addr tag.toNat (memEnded p tag s))) := by
  change execMemResponseTimeout p tag s = _
  unfold execMemResponseTimeout
  rw [hreq]
  refine congrArg finish ((if_neg (not_lt.2 htries)).trans ?_)
  rw [howner]
  rfl

/-! ## Head events and usage (R227, R231) -/

theorem hevtRx_exec_warn {p : Fin 16} (i : Byte) (v : Word) {s : State} (hlooks : active s p = true ∨ (hp s p).lstate = .ident) :
    exec (.hevtRx p 5 i v) s = finish (logEvent (Ev.HLP_HEAD_FAULT .warn) p p (5 * 256 + i.toNat) v.toNat s) :=
  congrArg finish (if_neg (looks_at_frames hlooks))

theorem hevtRx_exec_halt {p : Fin 16} {code : Byte} (i : Byte) (v : Word) {s : State}
    (hlooks : active s p = true ∨ (hp s p).lstate = .ident) (hcode : ¬(code.toNat = 4 ∨ code.toNat = 5)) :
    exec (.hevtRx p code i v) s =
      finish (raise (Ev.HLP_HEAD_FAULT .halt) p p (code.toNat * 256 + i.toNat) v.toNat s) :=
  congrArg finish ((if_neg (looks_at_frames hlooks)).trans (if_neg hcode))

theorem usageSummaryTimer_exec {s : State} (h : s.glb.state = .print) :
    exec .usageSummaryTimer s = finish (usageAll (accruePrint s)) := congrArg finish (if_pos h)

/-! ## Commands of HLP_Pn_CMD (R228, R230) -/

theorem hlpCmd_genMismatch {p cmd gen : Nat} {s : State} (hgen : gen ≠ (hp s p).gen.toNat) :
    hlpCmd p cmd gen s = hlpResult p cmd 4 (hp s p).lstate.code s := if_pos hgen

/-- A command with the port's generation has the answer of the table. -/
theorem hlpCmd_table {p cmd gen res : Nat} {s u : State} (hgen : gen = (hp s p).gen.toNat) (htable : hlpTable p cmd s = (res, u)) :
    hlpCmd p cmd gen s = hlpResult p cmd res (hp s p).lstate.code u := by
  refine (if_neg (not_not.2 hgen)).trans ?_
  rw [htable]

/-- What a write of HLP_Pn_CMD does through an open window is what its command does once the link has left L1. -/
theorem hlpCmd_completes {c : Instr} {p : Fin 16} {cmd : Nat} {gen : BitVec 16} {s u : State}
    (hc : exec c s = finish (viaBar0 (R.HLP_Pn_CMD p) (hlpCmd p cmd gen.toNat) s))
    (hopen : windowOpen s 0 (R.HLP_Pn_CMD p) true = true) (h : hlpCmd p cmd gen.toNat (hostAccess s) = u) : Completes c s u :=
  completes_of (hc.trans (congrArg finish ((viaBar0_open _ _ s hopen).trans h)))

theorem hlpCmd_completes_genMismatch {c : Instr} {p : Fin 16} {cmd : Nat} {gen : BitVec 16} {s : State}
    (hc : exec c s = finish (viaBar0 (R.HLP_Pn_CMD p) (hlpCmd p cmd gen.toNat) s))
    (hopen : windowOpen s 0 (R.HLP_Pn_CMD p) true = true) (hgen : gen ≠ (hp s p).gen) :
    Completes c s (hlpResult p cmd 4 (hp s p).lstate.code (hostAccess s)) :=
  hlpCmd_completes hc hopen (hlpCmd_genMismatch fun e => hgen (BitVec.eq_of_toNat_eq e))

theorem hlpCmd_completes_accepted {c : Instr} {p : Fin 16} {cmd : Nat} {gen : BitVec 16} {s u : State}
    (hc : exec c s = finish (viaBar0 (R.HLP_Pn_CMD p) (hlpCmd p cmd gen.toNat) s))
    (hopen : windowOpen s 0 (R.HLP_Pn_CMD p) true = true) (hgen : gen = (hp s p).gen)
    (htable : hlpTable p cmd (hostAccess s) = (1, u)) : Completes c s (hlpResult p cmd 1 (hp s p).lstate.code u) :=
  hlpCmd_completes hc hopen (hlpCmd_table (congrArg BitVec.toNat hgen) htable)

theorem hlpTable_retrain {p : Nat} {s : State} (hbound : (hp s p).lstate ≠ .unbound) (hbru : s.bru.incomplete = false)
    (hstate : s.glb.state = .idle ∨ s.glb.state = .safeHold) :
    hlpTable p 1 s = (1, startSeries p (if (hp s p).lstate = .active then portDown p s else s)) := by
  rcases hstate with h | h <;> simp [hlpTable, hbound, hbru, h]

/-- On an ACTIVE port without a pending access, only where it writes keeps a software access from starting. -/
theorem hlpTable_mem {p cmd addr len : Nat} {s : State} (hcmd : cmd = 2 ∨ cmd = 3) (hactive : (hp s p).lstate = .active)
    (hfree : memPending s p = false) (haddr : fld s (R.HLP_Pn_MEMADDR p) 15 0 = addr) (hlen : fld s (R.HLP_Pn_MEMADDR p) 24 16 = len) :
    hlpTable p cmd s = if cmd = 3 ∧ (addr < 0x1800 ∨ 0x1F00 < addr + len ∨ 0x1F00 ≤ addr) then (6, s)
      else (1, softAsk p (cmd - 1) addr len s) := by
  subst haddr hlen
  refine (if_neg (by omega)).trans ((if_neg (by simp [hactive])).trans ((if_neg (by omega)).trans ((if_neg (by simp [hactive])).trans ?_)))
  exact if_neg (by simp [hfree])

theorem hlpTable_memrd {p : Nat} {s : State} (hactive : (hp s p).lstate = .active) (hfree : memPending s p = false) :
    hlpTable p 2 s = (1, softAsk p 1 (fld s (R.HLP_Pn_MEMADDR p) 15 0) (fld s (R.HLP_Pn_MEMADDR p) 24 16) s) :=
  (hlpTable_mem (.inl rfl) hactive hfree rfl rfl).trans (if_neg (by omega))

/-- A software write stays within 0x1800 to 0x1EFF (R228). -/
theorem hlpTable_memwr {p : Nat} {s : State} (hactive : (hp s p).lstate = .active) (hfree : memPending s p = false)
    (hfrom : 0x1800 ≤ fld s (R.HLP_Pn_MEMADDR p) 15 0)
    (hto : fld s (R.HLP_Pn_MEMADDR p) 15 0 + fld s (R.HLP_Pn_MEMADDR p) 24 16 ≤ 0x1F00)
    (hbelow : fld s (R.HLP_Pn_MEMADDR p) 15 0 < 0x1F00) :
    hlpTable p 3 s = (1, softAsk p 2 (fld s (R.HLP_Pn_MEMADDR p) 15 0) (fld s (R.HLP_Pn_MEMADDR p) 24 16) s) :=
  (hlpTable_mem (.inr rfl) hactive hfree rfl rfl).trans (if_neg (by omega))

/-- Settles O27: a response by the request under its tag, a head event by its code, a command by the cell of its table; a generation that differs
is refused ahead of the table. -/
theorem portCommands : Obligations.PortCommands := by
  refine ⟨fun _ _ st data _ _ hlooks hreq => completes_of (memResponseRx_exec st data hlooks hreq),
    fun _ _ st data _ hlooks hreq => completes_of (memResponseRx_exec_unasked st data hlooks hreq),
    fun _ _ _ _ hreq htries => completes_of (memResponseTimeout_exec_again hreq htries),
    fun _ _ _ _ hreq htries howner => completes_of (memResponseTimeout_exec_software hreq htries howner),
    fun _ i v _ hlooks => completes_of (hevtRx_exec_warn i v hlooks), ?halt, fun _ h => completes_of (usageSummaryTimer_exec h),
    ?retrain, ?memrd, ?memwr, ?mismatch⟩
  case halt =>
    intro p i v s hlooks hhalt
    have hexec := hevtRx_exec_halt (code := 1) i v hlooks (by decide)
    obtain ⟨t, ht, -⟩ := finish_next (raise (Ev.HLP_HEAD_FAULT .halt) p p ((1 : Byte).toNat * 256 + i.toNat) v.toNat s)
    refine ⟨t, hexec.trans ht, ?_⟩
    rw [state_of_finish ht, raise_halt _ _ _ _ _ rfl hhalt, enterSafeHold_state]
  case retrain =>
    intro p gen s hopen hgen hbound hbru hstate
    exact hlpCmd_completes_accepted rfl hopen hgen (hlpTable_retrain (s := hostAccess s) hbound hbru hstate)
  case memrd =>
    intro p gen s hopen hgen hactive hfree
    exact hlpCmd_completes_accepted rfl hopen hgen (hlpTable_memrd (s := hostAccess s) hactive hfree)
  case memwr =>
    intro p gen s hopen hgen hactive hfree hfrom hto hbelow
    exact hlpCmd_completes_accepted rfl hopen hgen (hlpTable_memwr (s := hostAccess s) hactive hfree hfrom hto hbelow)
  case mismatch =>
    intro p gen s hopen hgen
    exact ⟨hlpCmd_completes_genMismatch rfl hopen hgen, hlpCmd_completes_genMismatch rfl hopen hgen,
      hlpCmd_completes_genMismatch rfl hopen hgen⟩

end Sys2Proof.Machine
end

section
/-!
PROOFS. The thermal model of a port: telemetry, its timers, the ledger's wait, the journal's program, and the commands of THM_CMD
(spec/07_thermal_energy.md R232 to R238, R251, R254, R262, R263; log 29).
-/
namespace Sys2Proof.Machine

/-! ## Telemetry of a line (R232, R233, R251) -/

/-- The line's measured energy corrects the model of each primitive, and the line no longer waits for its frame (R232, R204). -/
def teleTaken (p : Nat) (l : FLine) (slots : Nat) (energy : List Nat) (s : State) : State :=
  retireLines p (modHlp p (fun h => { h with lines := h.lines.map (fun x => if x = l then { x with tele := .got } else x) })
    (modThm p (fun t => { t with prims := t.prims.mapIdx (fun q x => { x with
      corr := s32 (x.corr + teleCorr (hp s p) l slots energy q) }) }) s))

/-- A frame of kind 0 ends the run of missing ones (R233). -/
def teleRunEnded (p : Nat) (s : State) : State :=
  setF (R.THM_Pn_TELECNT p) 31 16 0 (modThm p (fun t => { t with teleLost := false }) s)

/-- The energy of a frame joins the measured print power (R252). -/
def energyNoted (energy : List Nat) (s : State) : State :=
  { s with thmg := { s.thmg with energy := (s.now, energy.foldl (· + ·) 0) :: s.thmg.energy.filter (fun x => s.now < x.1 + 2 ^ 20) } }

theorem teleKind0Rx_exec {p : Fin 16} {tag : BitVec 16} {w : Bool} {l : FLine} {s : State} (slots : Fin 17)
    (energy ipk temps : List (BitVec 16)) (hactive : active s p = true)
    (hline : (hp s p).lines.find? (fun l => l.launched && l.tele = .waiting && ((l.kind = .warm) = w) && (w || l.line % 65536 = tag.toNat)) =
      some l)
    (hzones : (hp s p).zones ≠ 0) :
    exec (.teleKind0Rx p tag w slots energy ipk temps) s = finish (zoneSample p (temps.map (fun x => signed 16 x.toNat))
      (peakCheck p (ipk.map BitVec.toNat) (useInvar [R.THM_Pn_BUDGET01 p, R.THM_Pn_BUDGET23 p]
        (energyNoted (energy.map BitVec.toNat) (teleRunEnded p (teleTaken p l slots (energy.map BitVec.toNat) s)))))) := by
  refine congrArg finish ((if_neg (by simp [hactive])).trans ((if_neg hzones).trans ?_))
  dsimp only
  rw [hline]
  rfl

theorem teleKind0Rx_exec_inactive {p : Fin 16} {s : State} (tag : BitVec 16) (w : Bool) (slots : Fin 17)
    (energy ipk temps : List (BitVec 16)) (h : active s p = false) :
    exec (.teleKind0Rx p tag w slots energy ipk temps) s = finish s := congrArg finish (if_pos (by simp [h]))

/-- The line counts as missing, in all and in a row (R233). -/
def teleMissed (p : Nat) (l : FLine) (s : State) : State :=
  incF (R.THM_Pn_TELECNT p) 31 16 (incF (R.THM_Pn_TELECNT p) 15 0 (retireLines p
    (modHlp p (fun h => { h with lines := h.lines.map (fun x => if x = l then { x with tele := .missing } else x) }) s)))

theorem teleMissingTimeout_exec_none {p : Fin 16} {s : State}
    (h : (hp s p).lines.find? (fun l => l.launched && !l.inWindow && l.tele = .waiting) = none) :
    exec (.teleMissingTimeout p) s = finish s := by
  change execTeleMissingTimeout p s = _
  unfold execTeleMissingTimeout
  rw [h]

/-- While THM_TELE_MISSING is held back, only the 64th frame in a row raises an event. -/
theorem teleMissingTimeout_exec {p : Fin 16} {l : FLine} {s : State}
    (hline : (hp s p).lines.find? (fun l => l.launched && !l.inWindow && l.tele = .waiting) = some l)
    (hquiet : mayRaise (teleMissed p l s) (teleMissed p l s).thmg.missAt = false) :
    exec (.teleMissingTimeout p) s = finish (if fld (teleMissed p l s) (R.THM_Pn_TELECNT p) 31 16 = 64 then
      raise Ev.THM_TELE_LOST p p (fld (teleMissed p l s) (R.THM_Pn_TELECNT p) 31 16) 0
        (modThm p (fun t => { t with teleLost := true }) (teleMissed p l s))
      else teleMissed p l s) := by
  change execTeleMissingTimeout p s = _
  unfold execTeleMissingTimeout
  rw [hline]
  dsimp only
  rw [← teleMissed, if_neg (ne_true_of_eq_false hquiet)]

/-! ## The timers (R234, R238, R254) -/

theorem modelIdleUpdate_exec {p : Fin 16} {s : State} (h : active s p = true) :
    exec (.modelIdleUpdate p) s = finish (modelUpdate p (fun _ => 0) s) := congrArg finish (if_pos h)

theorem zonePollTimer_exec {p : Fin 16} {s : State} (h : active s p = true) :
    exec (.zonePollTimer p) s = finish (if (hp s p).zones = 0 then memAsk p .zone 1 0x8008 2 [] s
      else memAsk p .zone 1 0x8020 (2 * (hp s p).zones) [] s) := congrArg finish (if_neg (by simp [h]))

theorem ledgerWaitTimeout_exec {cls : Fin 6} {inst : Fin 16} {r : Req} {s : State}
    (h : s.thmg.waiting.find? (fun r => r.cls = cls.val && r.inst = inst.val && !r.warned) = some r) :
    exec (.ledgerWaitTimeout cls inst) s = finish (logEvent Ev.THM_LEDGER_WAIT cls.val cls.val inst.val r.mw
      { s with thmg := { s.thmg with waiting := s.thmg.waiting.map (fun x => if x = r then { x with warned := true } else x) } }) := by
  change execLedgerWaitTimeout cls inst s = _
  unfold execLedgerWaitTimeout
  rw [h]

/-! ## The journal's program (R262) -/

/-- The record in progress is kept, and no other one starts. -/
theorem journalProgramDone_exec_empty {s : State} {b : List Byte} (hbusy : s.jrn.busy = some b) (hqueue : s.jrn.queue = []) :
    exec .journalProgramDone s = finish (pathsClose { s with jrn := { s.jrn with
      records := Sparse.set [] s.jrn.records s.jrn.next b, newest := s.jrn.next, next := (s.jrn.next + 1) % 2048, busy := none } }) := by
  change finish (pathsClose (jStart (jFinish s))) = _
  unfold jStart jFinish
  rw [hbusy]
  dsimp only
  rw [hqueue]

/-- The record in progress is kept, and the first queued one starts with the next sequence. -/
theorem journalProgramDone_exec_queued {s : State} {b : List Byte} {r : JRec} {q : List JRec} (hbusy : s.jrn.busy = some b)
    (hqueue : s.jrn.queue = r :: q) :
    exec .journalProgramDone s = finish (pathsClose { s with jrn := { s.jrn with
      records := Sparse.set [] s.jrn.records s.jrn.next b, newest := s.jrn.next, next := (s.jrn.next + 1) % 2048, queue := q,
      jseq := s.jrn.jseq + 1, busy := some (r.bytes (rd s R.GLB_BOOTCNT) (s.jrn.jseq + 1)) } }) := by
  change finish (pathsClose (jStart (jFinish s))) = _
  unfold jStart jFinish
  rw [hbusy]
  dsimp only
  rw [hqueue]
  rfl

/-! ## Commands of THM_CMD (R263) -/

theorem thmCmd_genMismatch {cmd p gen : Nat} {s : State} (hoff : s.glb.state ≠ .off) (hgen : gen ≠ (hp s p).gen.toNat) :
    thmCmd cmd p gen s = thmResult cmd p 4 s := (if_neg hoff).trans (if_pos hgen)

/-- A command with the port's generation has the answer of the table. -/
theorem thmCmd_table {cmd p gen res : Nat} {s u : State} (hoff : s.glb.state ≠ .off) (hgen : gen = (hp s p).gen.toNat)
    (htable : thmTable cmd p s = (res, u)) : thmCmd cmd p gen s = thmResult cmd p res u := by
  refine (if_neg hoff).trans ((if_neg (not_not.2 hgen)).trans ?_)
  rw [htable]

theorem ne_off_of_windowOpen {s : State} {bar off : Nat} {write : Bool} (h : windowOpen s bar off write = true) : s.glb.state ≠ .off := by
  intro hoff
  simp [windowOpen, hoff] at h

/-- What a write of THM_CMD does through an open window is what its command does once the link has left L1. -/
theorem thmCmd_completes {c : Instr} {p : Fin 16} {cmd : Nat} {gen : BitVec 16} {s u : State}
    (hc : exec c s = finish (viaTable R.THM_CMD (thmCmd cmd p gen.toNat) s)) (hopen : windowOpen s 0 R.THM_CMD true = true)
    (h : thmCmd cmd p gen.toNat (hostAccess s) = u) : Completes c s u :=
  completes_of (hc.trans (congrArg finish ((viaTable_open _ _ s hopen (by decide)).trans h)))

theorem thmCmd_completes_genMismatch {c : Instr} {p : Fin 16} {cmd : Nat} {gen : BitVec 16} {s : State}
    (hc : exec c s = finish (viaTable R.THM_CMD (thmCmd cmd p gen.toNat) s)) (hopen : windowOpen s 0 R.THM_CMD true = true)
    (hgen : gen ≠ (hp s p).gen) : Completes c s (thmResult cmd p 4 (hostAccess s)) :=
  thmCmd_completes hc hopen (thmCmd_genMismatch (s := hostAccess s) (ne_off_of_windowOpen hopen) fun e => hgen (BitVec.eq_of_toNat_eq e))

theorem thmCmd_completes_table {c : Instr} {p : Fin 16} {cmd res : Nat} {gen : BitVec 16} {s u : State}
    (hc : exec c s = finish (viaTable R.THM_CMD (thmCmd cmd p gen.toNat) s)) (hopen : windowOpen s 0 R.THM_CMD true = true)
    (hgen : gen = (hp s p).gen) (htable : thmTable cmd p (hostAccess s) = (res, u)) : Completes c s (thmResult cmd p res u) :=
  thmCmd_completes hc hopen (thmCmd_table (s := hostAccess s) (ne_off_of_windowOpen hopen) (congrArg BitVec.toNat hgen) htable)

theorem thmTable_unbound {cmd p : Nat} {s : State} (hcmd : cmd = 1 ∨ cmd = 2) (hbound : portBound s p = false) :
    thmTable cmd p s = (2, s) := (if_neg (by omega)).trans (if_pos (by simp [hbound]))

theorem thmTable_reseed {p : Nat} {s : State} (hbound : portBound s p = true)
    (hstate : s.glb.state = .idle ∨ s.glb.state = .armed ∨ s.glb.state = .safeHold) (hactive : active s p = true) :
    thmTable 1 p s = (1, seedModel p s) := by
  rcases hstate with h | h | h <;> simp [thmTable, hbound, h, hactive]

theorem thmTable_reseed_refused {p : Nat} {s : State} (hbound : portBound s p = true)
    (hstate : s.glb.state = .print ∨ s.glb.state = .stopping) : thmTable 1 p s = (2, s) := by
  rcases hstate with h | h <;> simp [thmTable, hbound, h]

theorem thmTable_clrmax {p : Nat} {s : State} (hbound : portBound s p = true)
    (hstate : s.glb.state = .idle ∨ s.glb.state = .armed ∨ s.glb.state = .safeHold) (hactive : active s p = true) :
    thmTable 2 p s = (1, modThm p (fun t => { t with tjmax := 0, rate := 0 }) s) := by
  rcases hstate with h | h | h <;> simp [thmTable, hbound, h, hactive]

/-- While lines may fire, CLRMAX does not ask whether the port is ACTIVE. -/
theorem thmTable_clrmax_firing {p : Nat} {s : State} (hbound : portBound s p = true)
    (hstate : s.glb.state = .print ∨ s.glb.state = .stopping) :
    thmTable 2 p s = (1, modThm p (fun t => { t with tjmax := 0, rate := 0 }) s) := by
  rcases hstate with h | h <;> simp [thmTable, hbound, h]

theorem th_seedModel (p : Nat) (s : State) : th (seedModel p s) p = { th s p with
    prims := (List.range (hp s p).nprim).map (fun q =>
      { (th s p).prims.getD q ⟨0, 0, 0, 0, false, false⟩ with tj := (th s p).tref, tb := (th s p).tref, corr := 0 }),
    last := s.now, tjmax := (th s p).tref } := th_modThm ..

/-- Settles O28: a frame by the line that waits for it, a timer by the port's link, a command by the cell of its table. -/
theorem thermalModel : Obligations.ThermalModel := by
  refine ⟨?tele, fun _ tag w slots energy ipk temps _ h => completes_of (teleKind0Rx_exec_inactive tag w slots energy ipk temps h),
    fun _ _ h => completes_of (teleMissingTimeout_exec_none h), ?missing, ?lost, fun _ _ h => completes_of (modelIdleUpdate_exec h),
    ?oneZone, ?zones, fun _ _ _ _ h => completes_of (ledgerWaitTimeout_exec h), 
    fun _ _ hbusy hqueue => completes_of (journalProgramDone_exec_empty hbusy hqueue),
    fun _ _ _ _ hbusy hqueue => completes_of (journalProgramDone_exec_queued hbusy hqueue), ?accepted, ?firing, ?unbound,
    ?mismatch, ?seeded⟩
  case tele =>
    rintro p tag w slots energy ipk temps l s _ _ hactive hline rfl rfl hzones
    exact completes_of (teleKind0Rx_exec slots energy ipk temps hactive hline hzones)
  case missing =>
    rintro p l s _ hline rfl hquiet hcount
    exact completes_of ((teleMissingTimeout_exec hline hquiet).trans (congrArg finish (if_neg hcount)))
  case lost =>
    rintro p l s _ hline rfl hquiet hcount
    refine completes_of ((teleMissingTimeout_exec hline hquiet).trans (congrArg finish ((if_pos hcount).trans ?_)))
    rw [teleMissed, hcount]
  case oneZone =>
    exact fun p s hactive hzones => completes_of ((zonePollTimer_exec hactive).trans (congrArg finish (if_pos hzones)))
  case zones =>
    exact fun p s hactive hzones => completes_of ((zonePollTimer_exec hactive).trans (congrArg finish (if_neg hzones)))
  case accepted =>
    intro p gen s hopen hgen hbound hstate hactive
    exact ⟨thmCmd_completes_table rfl hopen hgen (thmTable_reseed (s := hostAccess s) hbound hstate hactive),
      thmCmd_completes_table rfl hopen hgen (thmTable_clrmax (s := hostAccess s) hbound hstate hactive)⟩
  case firing =>
    intro p gen s hopen hgen hbound hstate
    exact ⟨thmCmd_completes_table rfl hopen hgen (thmTable_reseed_refused (s := hostAccess s) hbound hstate),
      thmCmd_completes_table rfl hopen hgen (thmTable_clrmax_firing (s := hostAccess s) hbound hstate)⟩
  case unbound =>
    intro p gen s hopen _ hgen hbound
    exact ⟨thmCmd_completes_table rfl hopen hgen (thmTable_unbound (s := hostAccess s) (.inl rfl) hbound),
      thmCmd_completes_table rfl hopen hgen (thmTable_unbound (s := hostAccess s) (.inr rfl) hbound)⟩
  case mismatch =>
    exact fun p gen s hopen _ hgen => ⟨thmCmd_completes_genMismatch rfl hopen hgen, thmCmd_completes_genMismatch rfl hopen hgen⟩
  case seeded =>
    intro p s
    rw [th_seedModel]
    refine ⟨rfl, by simp, fun q hq => ?_⟩
    simp [List.getD_eq_getElem?_getD, hq]

end Sys2Proof.Machine
end

section
/-!
PROOFS. The die's sensors and the shut-down paths (spec/07_thermal_energy.md R242, R243, R245, R248, R256 to R258; logs 28, 29).
-/
namespace Sys2Proof.Machine

/-! ## A limit that does not turn (R243) -/

theorem limitReturn_of_same {old new : Qual} (inst o : Nat) (x : Int) (s : State) (h : new.on = old.on) :
    limitReturn inst o old new x s = s := if_neg (by simp [h])

theorem limitUp_of_same {old new : Qual} (h : new.on = old.on) : limitUp false old new = false := by simp [limitUp, h]

theorem limitUp_of_rise (again : Bool) {old new : Qual} (hold : old.on = false) (hnew : new.on = true) : limitUp again old new = true := by
  simp [limitUp, hold, hnew]

/-! ## One sample of the die (R242, R248) -/

/-- The limits of a die sample are pairs that agree (R13). -/
def DieLimitsAgree (s : State) : Prop :=
  ∀ o, o ∈ [R.THM_DIETHR1, R.THM_DIETHR2, R.THM_DIETHR3, R.THM_DIESTOP, R.THM_DIESHUT, R.THM_DIERSHUT, R.THM_SDMARGIN] →
    invarAgrees s o = true

/-- The die's temperatures are taken. -/
def dieRead (temps : Vector (BitVec 16) 4) (s : State) : State :=
  { s with thmg := { s.thmg with die := temps.map (fun x => signed 16 x.toNat) } }

/-- The readings from which the rate comes, newest first. -/
def dieReadings (temps : Vector (BitVec 16) 4) (s : State) : List (Nat × Int) :=
  (s.now, dieTemp (dieRead temps s)) :: keepHist (2 ^ fld s R.THM_CFG 4 0) s.now s.thmg.dieHist

/-- The die's part after a sample: temperature, rate, and every limit evaluated once (R242, R243). -/
def dieSampled (temps : Vector (BitVec 16) 4) (s : State) : ThmG :=
  let x := dieTemp (dieRead temps s)
  let rate := rateOf s (dieReadings temps s)
  { (dieRead temps s).thmg with
    dieHist := dieReadings temps s, dieRate := rate.getD s.thmg.dieRate,
    thr1 := limitStep s R.THM_DIETHR1 s.thmg.thr1 x, thr2 := limitStep s R.THM_DIETHR2 s.thmg.thr2 x,
    thr3 := limitStep s R.THM_DIETHR3 s.thmg.thr3 x, stop := limitStep s R.THM_DIESTOP s.thmg.stop x,
    shut := limitStep s R.THM_DIESHUT s.thmg.shut x, rshut := limitMaybe s R.THM_DIERSHUT s.thmg.rshut rate,
    again := s.thmg.again && !decide (s.glb.state = .print) }

/-- The sample taken, and the automatic throttle set by its limits (R248). -/
def dieEvaluated (temps : Vector (BitVec 16) 4) (s : State) : State :=
  let g := dieSampled temps s
  { s with thmg := g, glb := { s.glb with autoDiv := (autoThrottle g.thr1.on g.thr2.on g.thr3.on).1,
                                          autoSkip := (autoThrottle g.thr1.on g.thr2.on g.thr3.on).2 } }

/-- The limits that the sample turned back report their return (R243). -/
def dieReturned (temps : Vector (BitVec 16) 4) (s : State) : State :=
  let g := dieSampled temps s
  let x := dieTemp (dieRead temps s)
  limitReturn 0xFF R.THM_DIETHR1 s.thmg.thr1 g.thr1 x (limitReturn 0xFF R.THM_DIETHR2 s.thmg.thr2 g.thr2 x
    (limitReturn 0xFF R.THM_DIETHR3 s.thmg.thr3 g.thr3 x (limitReturn 0xFF R.THM_DIESTOP s.thmg.stop g.stop x
      (limitReturn 0xFF R.THM_DIESHUT s.thmg.shut g.shut x (limitReturn 0xFF R.THM_DIERSHUT s.thmg.rshut g.rshut g.dieRate
        (dieEvaluated temps s))))))

/-- The first sample in PRINT: a limit still crossed raises its event again (R246). -/
def dieAgain (s : State) : Bool := s.thmg.again && decide (s.glb.state = .print)

/-- The sample makes the limit raise its event (R243, R246). -/
def dieUp (s : State) (old new : Qual) : Bool := limitUp (dieAgain s) old new

theorem dieUp_of_same {s : State} {old new : Qual} (hagain : dieAgain s = false)
    (h : new.on = old.on) : dieUp s old new = false := by
  rw [dieUp, hagain, limitUp_of_same h]

/-- The die's stop limit acts; beside a shut-down crossing it is only recorded (R245). -/
def dieStopped (temps : Vector (BitVec 16) 4) (s : State) : State :=
  let g := dieSampled temps s
  let x := dieTemp (dieRead temps s)
  let t := dieReturned temps s
  if dieUp s s.thmg.stop g.stop then
    (if dieUp s s.thmg.shut g.shut || dieUp s s.thmg.rshut g.rshut then
      logPeer Ev.THM_DIE_STOP (dieSensor t) (dieSensor t) (toWord x).toNat 0 t
     else raise Ev.THM_DIE_STOP (dieSensor t) (dieSensor t) (toWord x).toNat 0 t)
  else t

/-- A sample whose limits agree, outside OFF and RESET: the stop limit, then the shut-down limits. -/
theorem dieSensorSample_exec {temps : Vector (BitVec 16) 4} {s : State} (hoff : s.glb.state ≠ .off) (hreset : s.glb.state ≠ .reset)
    (hagree : DieLimitsAgree s) :
    exec (.dieSensorSample temps) s = finish (
      if dieUp s s.thmg.shut (dieSampled temps s).shut then
        dieHalt 1 (if dieUp s s.thmg.rshut (dieSampled temps s).rshut then
          logPeer Ev.THM_DIE_SHUTDOWN 0xFF 2 (toWord (dieTemp (dieRead temps s))).toNat (toWord (dieSampled temps s).dieRate).toNat
            (dieStopped temps s)
          else dieStopped temps s)
      else if dieUp s s.thmg.rshut (dieSampled temps s).rshut then dieHalt 2 (dieStopped temps s)
      else dieStopped temps s) := by
  refine congrArg finish ((if_neg (by simp [hoff, hreset])).trans ?_)
  dsimp only
  rw [useInvar_of_agrees hagree]
  rfl

/-- The sample turns no limit, and no limit raises its event again. -/
structure DieQuiet (temps : Vector (BitVec 16) 4) (s : State) : Prop where
  again : dieAgain s = false
  thr1 : (dieSampled temps s).thr1.on = s.thmg.thr1.on
  thr2 : (dieSampled temps s).thr2.on = s.thmg.thr2.on
  thr3 : (dieSampled temps s).thr3.on = s.thmg.thr3.on
  stop : (dieSampled temps s).stop.on = s.thmg.stop.on
  shut : (dieSampled temps s).shut.on = s.thmg.shut.on
  rshut : (dieSampled temps s).rshut.on = s.thmg.rshut.on

theorem dieStopped_of_quiet {temps : Vector (BitVec 16) 4} {s : State} (h : DieQuiet temps s) :
    dieStopped temps s = dieEvaluated temps s := by
  have hreturned : dieReturned temps s = dieEvaluated temps s := by
    simp only [dieReturned, limitReturn_of_same, h.thr1, h.thr2, h.thr3, h.stop, h.shut, h.rshut]
  exact (if_neg (ne_true_of_eq_false (dieUp_of_same h.again h.stop))).trans hreturned

/-- The throttle then stands where the limits had it. -/
theorem dieSensorSample_exec_of_quiet {temps : Vector (BitVec 16) 4} {s : State} (hoff : s.glb.state ≠ .off)
    (hreset : s.glb.state ≠ .reset) (hagree : DieLimitsAgree s) (h : DieQuiet temps s) :
    exec (.dieSensorSample temps) s = finish { s with
      thmg := dieSampled temps s,
      glb := { s.glb with autoDiv := (autoThrottle s.thmg.thr1.on s.thmg.thr2.on s.thmg.thr3.on).1,
                          autoSkip := (autoThrottle s.thmg.thr1.on s.thmg.thr2.on s.thmg.thr3.on).2 } } := by
  refine (dieSensorSample_exec hoff hreset hagree).trans (congrArg finish ?_)
  refine (if_neg (ne_true_of_eq_false (dieUp_of_same h.again h.shut))).trans
    ((if_neg (ne_true_of_eq_false (dieUp_of_same h.again h.rshut))).trans ((dieStopped_of_quiet h).trans ?_))
  rw [dieEvaluated, h.thr1, h.thr2, h.thr3]

theorem dieReturned_state (temps : Vector (BitVec 16) 4) (s : State) : (dieReturned temps s).glb.state = s.glb.state := by
  simp only [dieReturned, (fq_limitReturn ..).falls]
  rfl

/-- Beside a shut-down crossing the stop limit leaves the state to it. -/
theorem dieStopped_state_of_shut {temps : Vector (BitVec 16) 4} {s : State} (h : dieUp s s.thmg.shut (dieSampled temps s).shut = true) :
    (dieStopped temps s).glb.state = s.glb.state := by
  unfold dieStopped
  simp only [h, Bool.true_or, if_true]
  split
  · rw [(fq_logPeer ..).falls, dieReturned_state]
  · exact dieReturned_state ..

/-! ## The ends of the paths (R245, R256, R257) -/

theorem pathEnd_state_of_die {xs : List Path} {x : Path} {s : State} (hx : x ∈ xs) (hdie : x.die = true)
    (hstate : s.glb.state ∉ [GState.off, .reset, .shutdown]) : (pathEnd xs s).glb.state = .shutdown := by
  have hmoves : (x.die && pathMoves x s) = true := by simpa [hdie, pathMoves] using hstate
  obtain ⟨y, hy⟩ := Option.isSome_iff_exists.1
    (List.find?_isSome (p := fun x => x.die && pathMoves x s).2 ⟨x, hx, hmoves⟩)
  unfold pathEnd
  rw [hy]
  dsimp only
  exact enterShutdown_state ..

theorem pathEnd_state_of_head {xs : List Path} {s : State} (hne : xs ≠ []) (hhead : ∀ x ∈ xs, x.die = false) (h : haltable s = true) :
    (pathEnd xs s).glb.state = .safeHold := by
  obtain ⟨x, hx⟩ := List.exists_mem_of_ne_nil xs hne
  have hnone : xs.find? (fun x => x.die && pathMoves x s) = none := List.find?_eq_none.2 fun y hy => by simp [hhead y hy]
  obtain ⟨y, hy⟩ := Option.isSome_iff_exists.1
    (List.find?_isSome (p := fun x => pathMoves x s).2 ⟨x, hx, by simp [pathMoves, hhead x hx, h]⟩)
  unfold pathEnd
  rw [hnone, hy]
  dsimp only
  exact enterSafeHold_state ..

/-- The main path's events and records leave the state to its end. -/
theorem mainPath_state_of_die {xs : List Path} {x : Path} {s : State} (hx : x ∈ xs) (hdie : x.die = true)
    (hstate : s.glb.state ∉ [GState.off, .reset, .shutdown]) : (mainPath xs s).glb.state = .shutdown := by
  unfold mainPath
  dsimp only
  rw [(fq_pathRecords ..).falls]
  refine pathEnd_state_of_die hx hdie ?_
  rw [(fq_foldl _ _ (fun _ _ => fq_logEvent ..) _).falls]
  exact hstate

theorem dieHalt_state_of_absolute {s : State} (hstate : s.glb.state ∉ [GState.off, .reset, .shutdown]) :
    (dieHalt 1 s).glb.state = .shutdown := by
  refine mainPath_state_of_die (List.mem_append_right _ (List.mem_singleton_self _)) rfl ?_
  rw [(fq_haltEvent ..).falls]
  exact hstate

theorem fallbackComplete_exec {s : State} (hpaths : s.thmg.paths ≠ []) (hrest : trAtRest s = true) (hdone : linesDone s = true) :
    exec .fallbackComplete s = finish (pathsClose (pathRecords 2 s.thmg.paths
      { s with thmg := { s.thmg with paths := s.thmg.paths.map (fun x => { x with recorded := true }) } })) :=
  congrArg finish (if_pos (by simp [hpaths, hrest, hdone]))

theorem fallbackComplete_exec_none {s : State} (h : s.thmg.paths = []) : exec .fallbackComplete s = finish s :=
  congrArg finish (if_neg (by simp [h]))

theorem fallbackTtlExpiry_exec {s : State} (h : s.thmg.paths ≠ []) : exec .fallbackTtlExpiry s = finish (mainPath s.thmg.paths s) :=
  congrArg finish (if_neg (by simp [h]))

theorem fallbackTtlExpiry_exec_none {s : State} (h : s.thmg.paths = []) : exec .fallbackTtlExpiry s = finish s :=
  congrArg finish (if_pos (by simp [h]))

theorem pathsClose_of_pending {s : State} (h : pathPending s = true) : pathsClose s = s := if_neg (by simp [h])

/-- Settles O29: a sample of the die by the limits that it turns, the shut-down paths by the end that each of them may enter. -/
theorem thermalPaths : Obligations.ThermalPaths := by
  refine ⟨?below, ?shut, fun _ _ _ => rfl, fun _ hpaths hrest hdone => completes_of (fallbackComplete_exec hpaths hrest hdone),
    fun _ h => ⟨completes_of (fallbackComplete_exec_none h), completes_of (fallbackTtlExpiry_exec_none h)⟩,
    fun _ h => completes_of (fallbackTtlExpiry_exec h), fun _ h => pathsClose_of_pending h,
    fun _ _ _ hx hdie hstate => pathEnd_state_of_die hx hdie hstate, fun _ _ hne hhead h => pathEnd_state_of_head hne hhead h,
    fun xs s h => ⟨shutdown_of_moves h (mv_pathEnd xs s).falls, shutdown_of_moves h (mv_mainPath xs s).falls⟩⟩
  case below =>
    rintro temps s _ _ _ _ hoff hreset hagree rfl rfl rfl rfl hagain hthr1 hthr2 hthr3 hstop hshut hrshut
    exact completes_of (dieSensorSample_exec_of_quiet hoff hreset hagree ⟨hagain, hthr1, hthr2, hthr3, hstop, hshut, hrshut⟩)
  case shut =>
    intro temps s hstate hagree hold hnew
    have hoff : s.glb.state ≠ .off := fun h => hstate (by simp [h])
    have hreset : s.glb.state ≠ .reset := fun h => hstate (by simp [h])
    have hup : dieUp s s.thmg.shut (dieSampled temps s).shut = true := limitUp_of_rise _ hold hnew
    have hexec := (dieSensorSample_exec hoff hreset hagree).trans (congrArg finish (if_pos hup))
    refine ⟨_, hexec, (state_of_finish rfl).trans (dieHalt_state_of_absolute ?_)⟩
    rw [apply_ite (fun t : State => t.glb.state), (fq_logPeer ..).falls, ite_self, dieStopped_state_of_shut hup]
    exact hstate

end Sys2Proof.Machine
end

section
/-!
PROOFS. Results for the nozzles of a head port, confidence counting, and gaps (spec/08_nozzle_health.md R269, R271 to R273, R275, R276).
-/
namespace Sys2Proof.Machine

/-! ## Confidence counting (R269) -/

theorem bits_lt (w : Word) (hi lo : Nat) : bits w hi lo < 2 ^ (hi + 1 - lo) := Nat.mod_lt _ (Nat.two_pow_pos _)

/-- The missing count after one result. -/
def missingAfter (conf : Word) (result : Nat) (e : Word) : Nat :=
  if result = 0 then bits e 7 3 - bits conf 14 10
  else if result = 1 then min 31 (bits e 7 3 + bits conf 4 0)
  else min 31 (bits e 7 3 + bits conf 9 5)

/-- The weak count after one result. -/
def weakAfter (wconf : Word) (result : Nat) (e : Word) : Nat :=
  if result = 0 then bits e 11 8 - 1 else if result = 1 then bits e 11 8 else min 15 (bits e 11 8 + bits wconf 11 8)

/-- The state that follows from `st` under the missing count `mc` and the weak count `wc`. -/
def stateAfter (conf wconf : Word) (st mc wc : Nat) : Nat :=
  if 5 ≤ st then st
  else if st = 4 ∧ bits conf 24 20 < mc then 4
  else if st ≠ 4 ∧ bits conf 19 15 ≤ mc then 4
  else if bits wconf 3 0 ≤ wc ∨ (st = 3 ∧ bits wconf 7 4 < wc) then 3
  else if 0 < mc ∨ 0 < wc then 2
  else 1

theorem missingAfter_lt (conf : Word) (result : Nat) (e : Word) : missingAfter conf result e < 32 := by
  have := bits_lt e 7 3
  unfold missingAfter
  split_ifs <;> omega

theorem weakAfter_lt (wconf : Word) (result : Nat) (e : Word) : weakAfter wconf result e < 16 := by
  have := bits_lt e 11 8
  unfold weakAfter
  split_ifs <;> omega

theorem stateAfter_lt (conf wconf : Word) {st : Nat} (mc wc : Nat) (h : st < 8) : stateAfter conf wconf st mc wc < 8 := by
  unfold stateAfter
  split_ifs <;> omega

theorem stateAfter_of_forced {conf wconf : Word} {st mc wc : Nat} (h : 5 ≤ st) : stateAfter conf wconf st mc wc = st := if_pos h

/-- A nozzle that is not FAILED fails where its missing count reaches the limit. -/
theorem stateAfter_eq_failed_iff_of_lt {conf wconf : Word} {st mc wc : Nat} (h : st < 4) :
    stateAfter conf wconf st mc wc = 4 ↔ bits conf 19 15 ≤ mc := by
  unfold stateAfter
  split_ifs <;> omega

/-- A FAILED nozzle stays FAILED until its missing count is down to the limit of its return. -/
theorem stateAfter_eq_failed_iff_of_failed {conf wconf : Word} {mc wc : Nat} :
    stateAfter conf wconf 4 mc wc = 4 ↔ bits conf 24 20 < mc := by
  unfold stateAfter
  split_ifs <;> omega

/-- A result other than a detector fault writes four fields of the entry. -/
theorem heResult_of_lt {res : Nat} (conf wconf : Word) (src : Nat) (e : Word) (hres : res < 4) : heResult conf wconf res src e =
    putBits (putBits (putBits (putBits e 7 3 (missingAfter conf res e)) 11 8 (weakAfter wconf res e)) 2 0
      (stateAfter conf wconf (heState e) (missingAfter conf res e) (weakAfter wconf res e))) 13 12 src :=
  if_neg (by omega)

section Fields

variable {res : Nat} (conf wconf : Word) (src : Nat) (e : Word) (hres : res < 4)
include hres

theorem heResult_missing : bits (heResult conf wconf res src e) 7 3 = missingAfter conf res e := by
  rw [heResult_of_lt conf wconf src e hres, bits_putBits_of_disjoint _ _ (by decide) (by decide) (by decide),
    bits_putBits_of_disjoint _ _ (by decide) (by decide) (by decide), bits_putBits_of_disjoint _ _ (by decide) (by decide) (by decide),
    bits_putBits _ _ (by decide) (by decide)]
  exact Nat.mod_eq_of_lt (missingAfter_lt conf res e)

theorem heResult_weak : bits (heResult conf wconf res src e) 11 8 = weakAfter wconf res e := by
  rw [heResult_of_lt conf wconf src e hres, bits_putBits_of_disjoint _ _ (by decide) (by decide) (by decide),
    bits_putBits_of_disjoint _ _ (by decide) (by decide) (by decide), bits_putBits _ _ (by decide) (by decide)]
  exact Nat.mod_eq_of_lt (weakAfter_lt wconf res e)

theorem heResult_state : heState (heResult conf wconf res src e) =
    stateAfter conf wconf (heState e) (missingAfter conf res e) (weakAfter wconf res e) := by
  unfold heState
  rw [heResult_of_lt conf wconf src e hres, bits_putBits_of_disjoint _ _ (by decide) (by decide) (by decide),
    bits_putBits _ _ (by decide) (by decide)]
  exact Nat.mod_eq_of_lt (stateAfter_lt _ _ _ _ (bits_lt e 2 0))

theorem heResult_source : bits (heResult conf wconf res src e) 13 12 = src % 4 := by
  rw [heResult_of_lt conf wconf src e hres]
  exact bits_putBits _ _ (by decide) (by decide)

theorem heResult_above : bits (heResult conf wconf res src e) 31 14 = bits e 31 14 := by
  rw [heResult_of_lt conf wconf src e hres, bits_putBits_of_disjoint _ _ (by decide) (by decide) (by decide),
    bits_putBits_of_disjoint _ _ (by decide) (by decide) (by decide), bits_putBits_of_disjoint _ _ (by decide) (by decide) (by decide),
    bits_putBits_of_disjoint _ _ (by decide) (by decide) (by decide)]

end Fields

/-! ## The head's results (R271, R272, R275) -/

theorem headResult_counted {p : Nat} {e : Word} {s : State} (hexists : nozzleExists s p (bits e 14 12) (bits e 11 0) = true)
    (hres : bits e 19 16 ≤ 3) : headResult p e s = applyResult p (bits e 14 12) (bits e 11 0) (bits e 19 16) 1 1 s :=
  (if_neg (not_or.2 ⟨by simp [hexists], by omega⟩)).trans (if_neg (by omega))

theorem headResult_bad {p : Nat} {e : Word} {s : State}
    (h : nozzleExists s p (bits e 14 12) (bits e 11 0) = false ∨ 4 < bits e 19 16) : headResult p e s = incF R.NHL_HOSTCNT 31 16 s :=
  if_pos (h.imp_left fun hnone => by simp [hnone])

theorem headResult_detectorFault {p : Nat} {e : Word} {s : State} (hexists : nozzleExists s p (bits e 14 12) (bits e 11 0) = true)
    (hres : bits e 19 16 = 4) : headResult p e s = detectorFault p 1 (bits e 14 12 * 65536 + bits e 11 0) s :=
  (if_neg (not_or.2 ⟨by simp [hexists], by omega⟩)).trans (if_pos hres)

/-- An entry has its result, and a nozzle of the present block is no longer awaited (R275). -/
def entryTaken (p : Nat) (e : Word) (s : State) : State :=
  modNhl p (fun x => { x with awaiting := x.awaiting - (if inBlock s p e then 1 else 0) }) (serviceCheck p (headResult p e s))

theorem teleKind1Rx_exec {p : Fin 16} (e : Word) {s : State} (hactive : active s p = true) :
    exec (.teleKind1Rx p [e]) s = finish (if (nh (entryTaken p e s) p).awaiting = 0 ∧ blockSent (entryTaken p e s) p
      then blockDone p (entryTaken p e s) else entryTaken p e s) := by
  have hcount : (if inBlock s p e then 1 else 0) = ([e].filter (inBlock s p)).length := by
    rw [← List.countP_eq_length_filter, List.countP_singleton]
  unfold entryTaken
  rw [hcount]
  exact congrArg finish (if_neg (by simp [hactive]))

/-! ## The host's results (R273) -/

/-- A word that names a present nozzle of an ACTIVE port, with a result, a weight and no reserved bit, counts with its weight. -/
theorem hostResult_counted {v : Word} {s : State} (hstate : 5 ≤ s.glb.state.code) (hactive : active s (bits v 23 20) = true)
    (hexists : nozzleExists s (bits v 23 20) (bits v 14 12) (bits v 11 0) = true) (hres : bits v 19 16 ≤ 3) (hlow : bits v 15 15 = 0)
    (hhigh : bits v 31 28 = 0) (hweight : bits v 27 24 ≠ 0) :
    hostResult v s = serviceCheck (bits v 23 20) (incF R.NHL_HOSTCNT 15 0
      (applyResult (bits v 23 20) (bits v 14 12) (bits v 11 0) (bits v 19 16) 2 (bits v 27 24) s)) := by
  refine (if_neg (not_lt.2 hstate)).trans ((if_neg (by simp [hactive, hexists, hres, hlow, hhigh])).trans ?_)
  dsimp only
  rw [if_neg hweight]

/-! ## Gaps (R276) -/

theorem gapWrite_zero (p : Nat) (s : State) : gapWrite p 0 s = setF (R.NHL_Pn_GAPLEN p) 15 0 0 s := rfl

/-- A gap is declared with the line whose assembly has not started, or with 0 on a port without a pipe. -/
theorem gapWrite_declared {p len : Nat} {s s1 : State} (hlen : len < 65536) (hne : len ≠ 0)
    (hs1 : s1 = setF (R.NHL_Pn_GAPLEN p) 15 0 len s) : gapWrite p len s =
    modNhl p (fun x => { x with gap := some ((rd s1 (R.NHL_Pn_GAPLINE p)).toNat, len, (portPipe s1 p).elim 0 (fun d => (dp s1 d).a)) }) s1 := by
  have hmod : len % 65536 = len := Nat.mod_eq_of_lt hlen
  unfold gapWrite
  rw [← hs1, hmod]
  refine (if_neg hne).trans ?_
  cases portPipe s1 p <;> rfl

theorem nhlGapDeclare_completes {p : Fin 16} {n : BitVec 16} {s s1 : State} {start : Nat}
    (hopen : windowOpen s 0 (R.NHL_Pn_GAPLEN p) true = true) (hne : n ≠ 0)
    (hs1 : s1 = setF (R.NHL_Pn_GAPLEN p) 15 0 n.toNat (hostAccess s)) (hstart : (portPipe s1 p).elim 0 (fun d => (dp s1 d).a) = start) :
    Completes (.nhlGapDeclare p n) s
      (modNhl p (fun x => { x with gap := some ((rd s1 (R.NHL_Pn_GAPLINE p)).toNat, n.toNat, start) }) s1) := by
  subst hstart
  exact completes_of (congrArg finish ((viaBar0_open _ _ s hopen).trans
    (gapWrite_declared n.isLt (fun h => hne (BitVec.eq_of_toNat_eq h)) hs1)))

/-- Settles O30, result by result: an entry and a host's word by the checks they pass, the health entry field by field, a gap by the pipe of its
port. -/
theorem nozzleResults : Obligations.NozzleResults := by
  refine ⟨?entry, ?blockEnd, fun _ _ _ => headResult_counted, fun _ _ _ => headResult_bad, fun _ _ _ => headResult_detectorFault, ?host,
    ?gapUnbound, ?gapBound, fun p s hopen => completes_of (congrArg finish ((viaBar0_open _ _ s hopen).trans (gapWrite_zero p _))),
    fun _ _ _ _ => if_pos rfl, ?forced, ?good, ?missing, ?weak, ?source, ?fails, ?returns, fun conf wconf _ src e hres => heResult_above conf wconf src e hres⟩
  case entry =>
    rintro p e s _ hactive rfl hmore
    refine completes_of ((teleKind1Rx_exec e hactive).trans (congrArg finish (if_neg fun ⟨hnone, hsent⟩ => ?_)))
    exact hmore.elim (fun h => h hnone) (fun h => ne_true_of_eq_false h hsent)
  case blockEnd =>
    rintro p e s _ hactive rfl hnone hsent
    exact completes_of ((teleKind1Rx_exec e hactive).trans (congrArg finish (if_pos ⟨hnone, hsent⟩)))
  case host =>
    intro v s hopen hstate hactive hexists hres hlow hhigh hweight
    exact completes_of (congrArg finish ((viaBar0_open _ _ s hopen).trans
      (hostResult_counted (s := hostAccess s) hstate hactive hexists hres hlow hhigh hweight)))
  case gapUnbound => exact fun p n s s1 hopen hne hs1 hpipe => nhlGapDeclare_completes hopen hne hs1 (by rw [hpipe]; rfl)
  case gapBound => exact fun p n s s1 d hopen hne hs1 hpipe => nhlGapDeclare_completes hopen hne hs1 (by rw [hpipe]; rfl)
  case forced =>
    intro conf wconf res src e hres _ hstate
    exact (heResult_state conf wconf src e hres).trans (stateAfter_of_forced hstate)
  case good => exact fun conf wconf src e _ => ⟨heResult_missing conf wconf src e (by decide), heResult_weak conf wconf src e (by decide)⟩
  case missing => exact fun conf wconf src e _ => ⟨heResult_missing conf wconf src e (by decide), heResult_weak conf wconf src e (by decide)⟩
  case weak =>
    intro conf wconf res src e hlow hres _
    have hgood : res ≠ 0 := by omega
    have hmissing : res ≠ 1 := by omega
    exact ⟨(heResult_missing conf wconf src e hres).trans ((if_neg hgood).trans (if_neg hmissing)),
      (heResult_weak conf wconf src e hres).trans ((if_neg hgood).trans (if_neg hmissing))⟩
  case source =>
    exact fun conf wconf res src e hres hsrc => (heResult_source conf wconf src e hres).trans (Nat.mod_eq_of_lt hsrc)
  case fails =>
    intro conf wconf res src e hres _ hstate
    rw [heResult_state conf wconf src e hres, heResult_missing conf wconf src e hres]
    exact stateAfter_eq_failed_iff_of_lt hstate
  case returns =>
    intro conf wconf res src e hres _ hstate
    rw [heResult_state conf wconf src e hres, heResult_missing conf wconf src e hres, hstate]
    exact stateAfter_eq_failed_iff_of_failed

end Sys2Proof.Machine
end

section
/-!
PROOFS. The timers of scan blocks, service lines, automatic spits and ledger grants, and the commands of NHL_Pn_CMD (spec/08_nozzle_health.md
R274, R275, R285, R286, R288; spec/07_thermal_energy.md R252).
-/
namespace Sys2Proof.Machine

/-! ## The timers (R275, R285) -/

theorem scanBlockTimeout_exec_sent {p : Fin 16} {s : State} (h : blockSent s p = true) :
    exec (.scanBlockTimeout p) s = finish (blockDone p s) := congrArg finish (if_pos h)

/-- A gap block of which a line did not fire is over. -/
theorem scanBlockTimeout_exec_gap {p : Fin 16} {s : State} (hseq : (nh s p).seq = 4) (hsent : blockSent s p = false) :
    exec (.scanBlockTimeout p) s = finish (modNhl p Nhl.gapOver s) :=
  congrArg finish ((if_neg (ne_true_of_eq_false hsent)).trans (if_pos hseq))

/-- What changes in one port's entry is that of any function with the same value there. -/
theorem modNhl_congr {p : Nat} {f g : Nhl → Nhl} {s : State} (h : f (nh s p) = g (nh s p)) : modNhl p f s = modNhl p g s := by
  unfold modNhl vmod
  change f (vat s.nhl p) = g (vat s.nhl p) at h
  rw [h]

theorem gapOver_of_scan {x : Nhl} (h : x.seq = 4) : x.gapOver =
    { x with seq := 0, sentLines := 0, gapFired := 0, awaiting := 0, pendScan := x.pendScan || x.began, began := false } :=
  if_pos (.inl h)

theorem serviceLineTimer_exec_ending {p : Fin 16} {s : State} (h : (nh s p).ending ≠ 0) : exec (.serviceLineTimer p) s = finish s :=
  congrArg finish (if_pos h)

theorem serviceLineTimer_exec_scan {p : Fin 16} {s : State} (hrun : (nh s p).ending = 0) (hseq : (nh s p).seq = 2) :
    exec (.serviceLineTimer p) s = finish (if (nh s p).suspended then s
      else if (nh s p).sentLines < scanLines s p then svcLine p (fireService p s) else fireService p s) :=
  congrArg finish ((if_neg (not_not.2 hrun)).trans (if_pos hseq))

theorem serviceLineTimer_exec_spit {p : Fin 16} {s : State} (hrun : (nh s p).ending = 0) (hseq : (nh s p).seq = 3) :
    exec (.serviceLineTimer p) s = finish (if (nh s p).sentLines < spitLines s p then svcLine p (fireService p s)
      else if svcOpen s p then fireService p s else svcEnd p s) :=
  congrArg finish ((if_neg (not_not.2 hrun)).trans ((if_neg (by omega)).trans (if_pos hseq)))

theorem autoSpitTimer_exec_armed {p : Fin 16} {s : State} (hper : fld s (R.NHL_Pn_SPIT p) 31 16 ≠ 0) (hactive : active s p = true)
    (hstate : s.glb.state = .armed) :
    exec (.autoSpitTimer p) s = finish (svcPending p (modNhl p (fun x => { x with pendSpit := true }) s)) :=
  congrArg finish ((if_neg (not_or.2 ⟨hper, by simp [hactive]⟩)).trans (if_pos hstate))

theorem autoSpitTimer_exec_print {p : Fin 16} {s : State} (hper : fld s (R.NHL_Pn_SPIT p) 31 16 ≠ 0) (hactive : active s p = true)
    (hstate : s.glb.state = .print) (hnone : (nh s p).pendSpit = false) :
    exec (.autoSpitTimer p) s = finish (modNhl p (fun x => { x with pendSpit := true, spitFrom := some s.now }) s) :=
  congrArg finish ((if_neg (not_or.2 ⟨hper, by simp [hactive]⟩)).trans
    ((if_neg (by simp [hstate])).trans ((if_pos hstate).trans (if_neg (ne_true_of_eq_false hnone)))))

/-! ## Commands of NHL_Pn_CMD (R286, R288) -/

theorem nhlCmd_genMismatch {p cmd gen : Nat} {s : State} (hgen : gen ≠ (hp s p).gen.toNat) : nhlCmd p cmd gen s =
    logEvent Ev.NHL_CMD_REJECT p p cmd 4 (wr (R.NHL_Pn_CMD_STATUS p) (BitVec.ofNat 32 (4 + 16 * gnum s + 256 * cmd)) s) := by
  unfold nhlCmd
  rw [if_pos hgen]
  rfl

/-- A command with the port's generation that the table accepts leaves result 1. -/
theorem nhlCmd_accepted {p cmd gen : Nat} {s u : State} (hgen : gen = (hp s p).gen.toNat) (htable : nhlTable p cmd s = (1, u)) :
    nhlCmd p cmd gen s = wr (R.NHL_Pn_CMD_STATUS p) (BitVec.ofNat 32 (1 + 16 * gnum s + 256 * cmd)) u := by
  unfold nhlCmd
  rw [if_neg (not_not.2 hgen), htable]
  rfl

/-- What a write of NHL_Pn_CMD does through an open window is what its command does once the link has left L1. -/
theorem nhlCmd_completes {c : Instr} {p : Fin 16} {cmd : Nat} {gen : BitVec 16} {s u : State}
    (hc : exec c s = finish (viaBar0 (R.NHL_Pn_CMD p) (nhlCmd p cmd gen.toNat) s))
    (hopen : windowOpen s 0 (R.NHL_Pn_CMD p) true = true) (h : nhlCmd p cmd gen.toNat (hostAccess s) = u) : Completes c s u :=
  completes_of (hc.trans (congrArg finish ((viaBar0_open _ _ s hopen).trans h)))

theorem nhlCmd_completes_genMismatch {c : Instr} {p : Fin 16} {cmd : Nat} {gen : BitVec 16} {s : State}
    (hc : exec c s = finish (viaBar0 (R.NHL_Pn_CMD p) (nhlCmd p cmd gen.toNat) s))
    (hopen : windowOpen s 0 (R.NHL_Pn_CMD p) true = true) (hgen : gen ≠ (hp s p).gen) :
    Completes c s (logEvent Ev.NHL_CMD_REJECT p p cmd 4
      (wr (R.NHL_Pn_CMD_STATUS p) (BitVec.ofNat 32 (4 + 16 * gnum s + 256 * cmd)) (hostAccess s))) :=
  nhlCmd_completes hc hopen (nhlCmd_genMismatch fun e => hgen (BitVec.eq_of_toNat_eq e))

theorem nhlCmd_completes_accepted {c : Instr} {p : Fin 16} (cmd : Nat) {gen : BitVec 16} {s u : State}
    (hc : exec c s = finish (viaBar0 (R.NHL_Pn_CMD p) (nhlCmd p cmd gen.toNat) s))
    (hopen : windowOpen s 0 (R.NHL_Pn_CMD p) true = true) (hgen : gen = (hp s p).gen)
    (htable : nhlTable p cmd (hostAccess s) = (1, u)) :
    Completes c s (wr (R.NHL_Pn_CMD_STATUS p) (BitVec.ofNat 32 (1 + 16 * gnum s + 256 * cmd)) u) :=
  nhlCmd_completes hc hopen (nhlCmd_accepted (congrArg BitVec.toNat hgen) htable)

/-! ## The table of R288, where it accepts -/

theorem nhlTable_scan_armed {p : Nat} {s : State} (hactive : active s p = true) (hbound : portBound s p = true)
    (hstate : s.glb.state = .armed) (hdetector : bitOf ((hp s p).f 0x20 4) 0 = true) (hfree : (nh s p).seq ∉ [1, 2, 3]) :
    nhlTable p 1 s = (1, svcStart p 2 (modNhl p (fun x => { x with suspended := false }) s)) := by
  have hidle : ¬((nh s p).seq = 1 ∨ (nh s p).seq = 2 ∨ (nh s p).seq = 3) := by simpa using hfree
  simp [nhlTable, hactive, hbound, hstate, hdetector, hidle, GState.code]

theorem nhlTable_scan_print {p : Nat} {s : State} (hactive : active s p = true) (hbound : portBound s p = true)
    (hstate : s.glb.state = .print) (hdetector : bitOf ((hp s p).f 0x20 4) 0 = true) :
    nhlTable p 1 s = (1, modNhl p (fun x => { x with suspended := false, pendScan := true }) s) := by
  simp [nhlTable, hactive, hbound, hstate, hdetector, GState.code]

theorem nhlTable_spit_armed {p : Nat} {s : State} (hactive : active s p = true) (hbound : portBound s p = true)
    (hstate : s.glb.state = .armed) (hfree : (nh s p).seq ∉ [1, 2, 3]) : nhlTable p 2 s = (1, svcStart p 3 s) := by
  have hidle : ¬((nh s p).seq = 1 ∨ (nh s p).seq = 2 ∨ (nh s p).seq = 3) := by simpa using hfree
  simp [nhlTable, hactive, hbound, hstate, hidle, GState.code]

theorem nhlTable_spit_print {p : Nat} {s : State} (hactive : active s p = true) (hbound : portBound s p = true)
    (hstate : s.glb.state = .print) :
    nhlTable p 2 s = (1, modNhl p (fun x => { x with pendSpit := true, spitFrom := x.spitFrom.or (some s.now) }) s) := by
  simp [nhlTable, hactive, hbound, hstate, GState.code]

/-- ABORT does not ask whether the port is ACTIVE. -/
theorem nhlTable_abort {p : Nat} {s : State} (hbound : portBound s p = true) (hlive : 5 ≤ s.glb.state.code)
    (hstate : s.glb.state ≠ .shutdown) : nhlTable p 3 s = (1, svcAbortCmd p s) := by
  simp [nhlTable, hbound, hstate, not_lt.2 hlive]

theorem nhlTable_rebuild {p : Nat} {s : State} (hactive : active s p = true) (hbound : portBound s p = true)
    (hlive : 5 ≤ s.glb.state.code) (hstate : s.glb.state ≠ .shutdown) : nhlTable p 4 s = (1, rebuildSubs p s) := by
  simp [nhlTable, hactive, hbound, hstate, not_lt.2 hlive]

theorem nhlTable_clear {p : Nat} {s : State} (hbound : portBound s p = true) (hstate : s.glb.state = .idle ∨ s.glb.state = .safeHold) :
    nhlTable p 5 s = (1, healthClear p s) := by
  rcases hstate with h | h <;> simp [nhlTable, hbound, h, GState.code]

/-- Settles O31: each timer by the sequence that it finds, each command by the cell of the table; a generation that differs is refused ahead of
it. -/
theorem nozzleCommands : Obligations.NozzleCommands := by
  refine ⟨fun _ _ h => completes_of (scanBlockTimeout_exec_sent h), ?gap, fun _ _ h => completes_of (serviceLineTimer_exec_ending h),
    ?suspended, ?scanLine, ?scanSent, ?spitLine, ?spitOpen, ?spitEnd,
    fun _ _ hper hactive hstate => completes_of (autoSpitTimer_exec_armed hper hactive hstate),
    fun _ _ hper hactive hstate hnone => completes_of (autoSpitTimer_exec_print hper hactive hstate hnone),
    fun _ => completes_of rfl, ?scanArmed, ?scanPrint, ?spitArmed, ?spitPrint, ?abort, ?rebuild, ?clear, ?mismatch⟩
  case gap =>
    intro p s hseq hsent
    exact completes_of ((scanBlockTimeout_exec_gap hseq hsent).trans (congrArg finish (modNhl_congr (gapOver_of_scan hseq))))
  case suspended =>
    exact fun p s hrun hseq h => completes_of ((serviceLineTimer_exec_scan hrun hseq).trans (congrArg finish (if_pos h)))
  case scanLine =>
    exact fun p s hrun hseq h hmore => completes_of ((serviceLineTimer_exec_scan hrun hseq).trans
      (congrArg finish ((if_neg (ne_true_of_eq_false h)).trans (if_pos hmore))))
  case scanSent =>
    exact fun p s hrun hseq hsent h => completes_of ((serviceLineTimer_exec_scan hrun hseq).trans
      (congrArg finish ((if_neg (ne_true_of_eq_false h)).trans (if_neg (not_lt.2 hsent)))))
  case spitLine =>
    exact fun p s hrun hseq hmore => completes_of ((serviceLineTimer_exec_spit hrun hseq).trans (congrArg finish (if_pos hmore)))
  case spitOpen =>
    exact fun p s hrun hseq hsent hopen => completes_of ((serviceLineTimer_exec_spit hrun hseq).trans
      (congrArg finish ((if_neg (not_lt.2 hsent)).trans (if_pos hopen))))
  case spitEnd =>
    exact fun p s hrun hseq hsent hopen => completes_of ((serviceLineTimer_exec_spit hrun hseq).trans
      (congrArg finish ((if_neg (not_lt.2 hsent)).trans (if_neg (ne_true_of_eq_false hopen)))))
  case scanArmed =>
    exact fun p gen s hopen hgen hactive hbound hstate hdetector hfree => nhlCmd_completes_accepted 1 rfl hopen hgen
      (nhlTable_scan_armed (s := hostAccess s) hactive hbound hstate hdetector hfree)
  case scanPrint =>
    exact fun p gen s hopen hgen hactive hbound hstate hdetector => nhlCmd_completes_accepted 1 rfl hopen hgen
      (nhlTable_scan_print (s := hostAccess s) hactive hbound hstate hdetector)
  case spitArmed =>
    exact fun p gen s hopen hgen hactive hbound hstate hfree => nhlCmd_completes_accepted 2 rfl hopen hgen
      (nhlTable_spit_armed (s := hostAccess s) hactive hbound hstate hfree)
  case spitPrint =>
    exact fun p gen s hopen hgen hactive hbound hstate => nhlCmd_completes_accepted 2 rfl hopen hgen
      (nhlTable_spit_print (s := hostAccess s) hactive hbound hstate)
  case abort =>
    exact fun p gen s hopen hgen hbound hlive hstate => nhlCmd_completes_accepted 3 rfl hopen hgen
      (nhlTable_abort (s := hostAccess s) hbound hlive hstate)
  case rebuild =>
    exact fun p gen s hopen hgen hactive hlive hstate hbound => nhlCmd_completes_accepted 4 rfl hopen hgen
      (nhlTable_rebuild (s := hostAccess s) hactive hbound hlive hstate)
  case clear =>
    exact fun p gen s hopen hgen hbound hstate => nhlCmd_completes_accepted 5 rfl hopen hgen
      (nhlTable_clear (s := hostAccess s) hbound hstate)
  case mismatch =>
    intro p gen s c cmd hopen hgen hc
    simp only [List.mem_cons, Prod.mk.injEq, List.not_mem_nil, or_false] at hc
    rcases hc with ⟨rfl, rfl⟩ | ⟨rfl, rfl⟩ | ⟨rfl, rfl⟩ | ⟨rfl, rfl⟩ | ⟨rfl, rfl⟩ <;>
      exact nhlCmd_completes_genMismatch rfl hopen hgen

end Sys2Proof.Machine
end

section
/-!
PROOFS. The cycle of a scanning printer: the end of a sweep, the carriage at rest, the feed, the gates of the turnaround and the start of the
next sweep (spec/09_scanning.md R298 to R303, R305; log 41).
-/
namespace Sys2Proof.Machine

/-! ## The end of a sweep (R300) -/

/-- A sweep has printed its last line: it has begun, its feed is still to come, and no trigger, line or window of it is left. -/
structure SweepPrinted (s : State) : Prop where
  ended : s.scn.ended = false
  begun : s.scn.begun = true
  fired : sweepOver s = true
  slots : slotsEnded s = true

/-- SWEEP_LAST_SLOT_END finds nothing that keeps it from counting the sweep. -/
theorem SweepPrinted.counts {s : State} (h : SweepPrinted s) :
    ¬(s.scn.ended = true ∨ (!s.scn.begun) = true ∨ (!sweepOver s) = true ∨ (!slotsEnded s) = true) := by
  simp [h.ended, h.begun, h.fired, h.slots]

theorem sweepLastSlotEnd_exec_sweep {s : State} (h : SweepPrinted s) (hst : s.scn.st = .sweep) (hrestart : s.scn.restart = false) :
    exec .sweepLastSlotEnd s = finish (feedAdd s) := by
  refine congrArg finish ((if_neg h.counts).trans ?_)
  simp only [hst]
  exact if_neg (ne_true_of_eq_false hrestart)

theorem sweepLastSlotEnd_exec_turn {s : State} (h : SweepPrinted s) (hst : s.scn.st = .turn) (hrestart : s.scn.restart = false) :
    exec .sweepLastSlotEnd s = finish (turnAdvance (feedAdd s)) := by
  refine congrArg finish ((if_neg h.counts).trans ?_)
  simp only [hst]
  exact if_neg (ne_true_of_eq_false hrestart)

/-- In HELD the feed joins the sum, and its move waits for PRINT (R305). -/
theorem sweepLastSlotEnd_exec_held {s : State} (h : SweepPrinted s) (hst : s.scn.st = .held) :
    exec .sweepLastSlotEnd s =
      finish (modScn (fun x => { x with acc := x.acc + x.cur.feed, ended := true, fed := false }) s) := by
  refine congrArg finish ((if_neg h.counts).trans ?_)
  simp only [hst]

/-! ## The carriage at rest (R302) -/

/-- The move of the sweep has ended: the carriage rests, and the unit enters TURN. -/
def carriageRested (s : State) : State := modScn (fun x => { x with restAt := some s.now, st := .turn }) s

/-- Without the turn signal, the end of a sweep's move opens the turnaround: a stopped sweep is pending again, the successor of a sweep whose
feed is commanded becomes pending, and any other waits for its last slot. -/
theorem carriageAtRest_exec_sweep {s : State} (hrest : caAtRest s = true) (hst : s.scn.st = .sweep) (hmoving : s.scn.restAt = none)
    (hsig : fld s R.SCN_SIG 15 15 = 0) :
    exec .carriageAtRest s = finish (if s.scn.restart then turnEval (turnRest (carriageRested s))
      else if s.scn.ended then turnEval (turnAdvance (carriageRested s)) else carriageRested s) := by
  refine congrArg finish ((if_neg (by simp [hrest])).trans ?_)
  have hnosig : ¬fld s R.SCN_SIG 15 15 = 1 := by omega
  simp only [hst, hmoving, if_neg hnosig]
  rfl

theorem carriageAtRest_exec_turn {s : State} (hrest : caAtRest s = true) (hst : s.scn.st = .turn) :
    exec .carriageAtRest s = finish (
      if s.scn.stroke then turnEval (modScn (fun x => { x with stroke := false, restAt := some s.now }) s)
      else if s.scn.restAt.isNone then turnEval (turnRest s) else s) := by
  refine congrArg finish ((if_neg (by simp [hrest])).trans ?_)
  simp only [hst]

/-! ## The feed (R302) -/

theorem feedComplete_exec {s : State} (hfed : s.scn.fed = false) (hrest : trAtRest s = true) (hheld : s.scn.st ≠ .held) :
    exec .feedComplete s = finish (if s.scn.st = .sweep ∧ jobWaits s = true then modScn (fun x => { x with fed := true, st := .done }) s
      else turnEval (modScn (fun x => { x with fed := true }) s)) :=
  congrArg finish (if_neg (by simp [hfed, hrest, hheld]))

/-! ## The gates of the turnaround (R302) -/

/-- A dwell ended by dwell_max is counted once; the data are there, so the turnaround is not late. -/
theorem turnEval_dwellMax {s : State} {t : Nat} (hst : s.scn.st = .turn) (hrest : s.scn.restAt = some t)
    (hagree : invarAgrees s R.SCN_DWELL = true) (hpast : t + 400000 * fld s R.SCN_DWELL 31 16 ≤ s.now) (hhot : cooled s = false)
    (hfirst : s.scn.dwellMax = false) (hdata : dataGate s = true) :
    turnEval s = incF R.SCN_STAT2 15 8 (modScn (fun x => { x with dwellMax := true }) s) := by
  have huse : useInvar [R.SCN_DWELL] s = s := useInvar_of_agrees (by simp [hagree])
  have hdue : t + 400000 * fld s R.SCN_DWELL 31 16 ≤ s.now ∧ (!cooled s) = true ∧ (!s.scn.dwellMax) = true := by
    simp [hpast, hhot, hfirst]
  unfold turnEval
  simp only [huse, hst, hrest, hdata, Bool.not_true, Bool.false_and, Bool.false_eq_true, if_false]
  exact if_pos hdue

theorem turnReady_iff (s : State) : turnReady s = true ↔ s.scn.st = .turn ∧ s.scn.stroke = false ∧ caAtRest s = true ∧
    s.scn.fed = true ∧ dataGate s = true ∧ dwellGate s = true ∧ s.glb.state = .print := by
  simp [turnReady, and_assoc]

/-! ## The start of the next sweep (R302) -/

theorem turnaroundGo_exec (s : State) :
    exec .turnaroundGo s = finish (if turnReady (turnEval s) = true then sweepGo (turnEval s) else turnEval s) := rfl

/-- An entry with no line only feeds (R299). -/
theorem sweepGo_feedOnly {s : State} (h : s.scn.cur.w = 0) : sweepGo s = turnEval (turnAdvance (feedAdd s)) := if_pos h

/-- Settles O32, command by command, by the state of the unit that it finds. -/
theorem sweepCycle : Obligations.SweepCycle := by
  refine ⟨?endSweep, ?endTurn, ?endHeld, fun _ => rfl, fun _ => rfl, ?restWaits, ?restAdvances, ?restRestarts, ?restTurn, ?restStroke,
    ?jobDone, ?fed, ?dwell, ?go, ?waits, fun _ => sweepGo_feedOnly, ?gates⟩
  case endSweep =>
    exact fun s hst hended hrestart hbegun hover hslots =>
      completes_of (sweepLastSlotEnd_exec_sweep ⟨hended, hbegun, hover, hslots⟩ hst hrestart)
  case endTurn =>
    exact fun s hst hended hrestart hbegun hover hslots =>
      completes_of (sweepLastSlotEnd_exec_turn ⟨hended, hbegun, hover, hslots⟩ hst hrestart)
  case endHeld =>
    exact fun s hst hended hbegun hover hslots => completes_of (sweepLastSlotEnd_exec_held ⟨hended, hbegun, hover, hslots⟩ hst)
  case restWaits =>
    exact fun s hrest hst hmoving hsig hrestart hended => completes_of ((carriageAtRest_exec_sweep hrest hst hmoving hsig).trans
      (congrArg finish ((if_neg (ne_true_of_eq_false hrestart)).trans (if_neg (ne_true_of_eq_false hended)))))
  case restAdvances =>
    exact fun s hrest hst hmoving hsig hrestart hended => completes_of ((carriageAtRest_exec_sweep hrest hst hmoving hsig).trans
      (congrArg finish ((if_neg (ne_true_of_eq_false hrestart)).trans (if_pos hended))))
  case restRestarts =>
    exact fun s hrest hst hmoving hsig hrestart => completes_of ((carriageAtRest_exec_sweep hrest hst hmoving hsig).trans
      (congrArg finish (if_pos hrestart)))
  case restTurn =>
    exact fun s hrest hst hstroke hmoving => completes_of ((carriageAtRest_exec_turn hrest hst).trans
      (congrArg finish ((if_neg (ne_true_of_eq_false hstroke)).trans (if_pos (by simp [hmoving])))))
  case restStroke =>
    exact fun s hrest hst hstroke => completes_of ((carriageAtRest_exec_turn hrest hst).trans (congrArg finish (if_pos hstroke)))
  case jobDone =>
    intro s hfed hrest hst hended hbegun
    exact completes_of ((feedComplete_exec hfed hrest (by simp [hst])).trans
      (congrArg finish (if_pos ⟨hst, by simp [jobWaits, hended, hbegun]⟩)))
  case fed =>
    intro s hfed hrest hst
    exact completes_of ((feedComplete_exec hfed hrest (by simp [hst])).trans (congrArg finish (if_neg (by simp [hst]))))
  case dwell =>
    exact fun s t hst hrest hagree hpast hhot hfirst hdata =>
      completes_of (congrArg finish (turnEval_dwellMax hst hrest hagree hpast hhot hfirst hdata))
  case go => exact fun s h => completes_of ((turnaroundGo_exec s).trans (congrArg finish (if_pos h)))
  case waits => exact fun s h => completes_of ((turnaroundGo_exec s).trans (congrArg finish (if_neg (ne_true_of_eq_false h))))
  case gates =>
    intro s h
    obtain ⟨hst, -, hcarriage, hfeed, hdata, hdwell, hstate⟩ := (turnReady_iff s).1 h
    exact ⟨hst, hcarriage, hfeed, hdata, hdwell, hstate⟩

end Sys2Proof.Machine
end

section
/-!
PROOFS. The commands of SCN_CMD: their checks, their table and their status word (spec/09_scanning.md R306, R307).
-/
namespace Sys2Proof.Machine

/-! ## The checks read neither the link nor the host interface (R306) -/

theorem chain_hostAccess (s : State) (n e : Nat) (acc : List Nat) : chain (hostAccess s) n e acc = chain s n e acc := by
  induction n generalizing e acc with
  | zero => rfl
  | succ n ih =>
    have hnext : nextEntry (hostAccess s) (feedEntry (hostAccess s) e 0) = nextEntry s (feedEntry s e 0) := rfl
    unfold chain
    simp only [hnext, ih]

theorem jobCheck_hostAccess (s : State) : jobCheck (hostAccess s) = jobCheck s := by
  have hentry : fld (hostAccess s) R.SCN_JOB 7 0 = fld s R.SCN_JOB 7 0 := rfl
  have hgens : (scnGens (hostAccess s)).all (sameSpan (hostAccess s)) = (scnGens s).all (sameSpan s) := rfl
  have hok : feedOk (hostAccess s) = feedOk s := rfl
  have hfits : fillFits (hostAccess s) = fillFits s := rfl
  unfold jobCheck
  simp only [hentry, hgens, hok, hfits, chain_hostAccess, hostAccess_rd]

/-! ## The table of R307 -/

/-- SETJOB is given where R307 takes it: outside TURN and SWEEP of a scanning unit, in IDLE or ARMED. -/
structure SetjobOpen (s : State) : Prop where
  scans : scanning s = true
  turn : s.scn.st ≠ .turn
  sweep : s.scn.st ≠ .sweep
  state : s.glb.state = .idle ∨ s.glb.state = .armed

theorem scnTable_setjob {s : State} (h : SetjobOpen s) :
    scnTable 1 s = (jobCheck s).elim (1, 0, 0, loadJob s) (fun (c, e) => (4, c, e, s)) := by
  have hquiet : (decide (s.glb.state = .idle) || decide (s.glb.state = .armed)) = true := by simpa using h.state
  simp only [scnTable, h.scans, h.turn, h.sweep, hquiet]
  cases jobCheck s <;> rfl

theorem scnTable_unused {cmd : Nat} {s : State} (hcmd : cmd = 1 ∨ cmd = 2) (h : scanning s = false) : scnTable cmd s = (2, 0, 0, s) :=
  (if_neg (by omega)).trans (if_pos (by simp [h]))

theorem scnTable_setjob_refused {s : State}
    (h : scanning s = false ∨ s.scn.st = .turn ∨ s.scn.st = .sweep ∨ (s.glb.state ≠ .idle ∧ s.glb.state ≠ .armed)) :
    scnTable 1 s = (2, 0, 0, s) := by
  cases hscans : scanning s with
  | false => exact scnTable_unused (.inl rfl) hscans
  | true =>
    have hclosed : s.scn.st = .turn ∨ s.scn.st = .sweep ∨
        (!(decide (s.glb.state = .idle) || decide (s.glb.state = .armed))) = true := by
      simpa using h.resolve_left (by simp [hscans])
    simp only [scnTable, hscans]
    exact if_pos hclosed

/-- What ENDJOB makes of the scanning unit, state by state. -/
def endJob (x : Scn) : Scn :=
  match x.st with
  | .ready => { x with st := .nojob }
  | .turn => lastPending x
  | .sweep => { x with last := true, nxt := none }
  | .held => { x with st := .done, restart := false }
  | _ => x

theorem scnTable_endjob {s : State} (h : scanning s = true) : scnTable 2 s = (1, 0, 0, modScn endJob s) := by
  cases hst : s.scn.st <;> simp [scnTable, endJob, modScn, h, hst]

/-! ## The status word -/

theorem scnCmd_accepted {cmd : Nat} {s u : State} (h : scnTable cmd s = (1, 0, 0, u)) :
    scnCmd cmd s = wr R.SCN_CMD_STATUS (BitVec.ofNat 32 (1 + 16 * scnCode s + 256 * cmd)) u := by
  unfold scnCmd
  rw [h]
  rfl

theorem scnCmd_refused {cmd res detail entry : Nat} {s u : State} (hres : res ≠ 1) (h : scnTable cmd s = (res, detail, entry, u)) :
    scnCmd cmd s = logEvent Ev.DOT_CMD_REJECT 0xFF 0xFF cmd res
      (wr R.SCN_CMD_STATUS (BitVec.ofNat 32 (res + 16 * scnCode s + 256 * cmd + 4096 * detail + 65536 * entry)) u) := by
  unfold scnCmd
  rw [h]
  exact if_neg hres

/-- What a write of SCN_CMD does through an open window is what its command does once the link has left L1. -/
theorem scnCmd_completes {c : Instr} {cmd : Nat} {s u : State} (hc : exec c s = finish (viaBar0 R.SCN_CMD (scnCmd cmd) s))
    (hopen : windowOpen s 0 R.SCN_CMD true = true) (h : scnCmd cmd (hostAccess s) = u) : Completes c s u :=
  completes_of (hc.trans (congrArg finish ((viaBar0_open _ _ s hopen).trans h)))

theorem scnCmd_completes_accepted {c : Instr} (cmd : Nat) {s u : State} (hc : exec c s = finish (viaBar0 R.SCN_CMD (scnCmd cmd) s))
    (hopen : windowOpen s 0 R.SCN_CMD true = true) (htable : scnTable cmd (hostAccess s) = (1, 0, 0, u)) :
    Completes c s (wr R.SCN_CMD_STATUS (BitVec.ofNat 32 (1 + 16 * scnCode s + 256 * cmd)) u) :=
  scnCmd_completes hc hopen (scnCmd_accepted htable)

/-- A refused command changes nothing but its status word, and raises DOT_CMD_REJECT. -/
theorem scnCmd_completes_refused {c : Instr} {cmd res detail entry word : Nat} {s : State}
    (hc : exec c s = finish (viaBar0 R.SCN_CMD (scnCmd cmd) s)) (hopen : windowOpen s 0 R.SCN_CMD true = true) (hres : res ≠ 1)
    (htable : scnTable cmd (hostAccess s) = (res, detail, entry, hostAccess s))
    (hword : res + 16 * scnCode s + 256 * cmd + 4096 * detail + 65536 * entry = word) :
    Completes c s (logEvent Ev.DOT_CMD_REJECT 0xFF 0xFF cmd res (wr R.SCN_CMD_STATUS (BitVec.ofNat 32 word) (hostAccess s))) := by
  subst hword
  exact scnCmd_completes hc hopen (scnCmd_refused hres htable)

/-- Settles O33, by the row of the table that each command meets; the checks of SETJOB are those of the state before the access. -/
theorem scanCommands : Obligations.ScanCommands := by
  refine ⟨?loaded, ?invalid, ?setjobRefused, ?endjob, ?unused⟩
  case loaded =>
    intro s hopen hscans hturn hsweep hstate hcheck
    refine scnCmd_completes_accepted 1 rfl hopen ((scnTable_setjob (s := hostAccess s) ⟨hscans, hturn, hsweep, hstate⟩).trans ?_)
    rw [jobCheck_hostAccess, hcheck]
    rfl
  case invalid =>
    intro s c e hopen hscans hturn hsweep hstate hcheck
    refine scnCmd_completes_refused rfl hopen (by decide)
      ((scnTable_setjob (s := hostAccess s) ⟨hscans, hturn, hsweep, hstate⟩).trans ?_) rfl
    rw [jobCheck_hostAccess, hcheck]
    rfl
  case setjobRefused =>
    exact fun s hopen h =>
      scnCmd_completes_refused rfl hopen (by decide) (scnTable_setjob_refused (s := hostAccess s) h) (by omega)
  case endjob =>
    intro s x hopen hscans hx
    obtain rfl : x = endJob s.scn := hx
    exact scnCmd_completes_accepted 2 rfl hopen (scnTable_endjob (s := hostAccess s) hscans)
  case unused =>
    intro s hopen hscans
    have hcode : scnCode s = 0 := if_neg (ne_true_of_eq_false hscans)
    exact scnCmd_completes_refused rfl hopen (by decide) (scnTable_unused (s := hostAccess s) (.inr rfl) hscans) (by omega)

end Sys2Proof.Machine
end

section
/-!
PROOFS. Encoder edges and sin/cos samples: counts and illegal transitions, the 48-bit position and its epoch, the filter of a channel's edges, the
phase of a sample, and the return from FAULT (spec/10_position.md R311, R312, R316, R317, R320, R329; logs 5, 77).
-/
namespace Sys2Proof.Machine

/-! ## A position channel of the state -/

theorem modPc_congr {n : Nat} {f g : Pc → Pc} {s : State} (h : f (pch s n) = g (pch s n)) : modPc n f s = modPc n g s := by
  unfold modPc vmod
  exact congrArg (fun x => { s with pc := vset s.pc n x }) h

/-! ## Quadrature (R311, R312, R320) -/

/-- Both levels changed at once are half a turn apart. -/
theorem grayPlace_both {a b a' b' : Bool} (ha : a ≠ a') (hb : b ≠ b') : (grayPlace a b + 4 - grayPlace a' b') % 4 = 2 := by
  revert a b a' b'
  decide

/-- A quarter turn either way is exactly one changed level. -/
theorem grayPlace_quarter_iff (a b a' b' : Bool) :
    (grayPlace a' b' + 4 - grayPlace a b) % 4 = 1 ∨ (grayPlace a' b' + 4 - grayPlace a b) % 4 = 3 ↔ (a ≠ a') ≠ (b ≠ b') := by
  revert a b a' b'
  decide

section Quadrature
variable {n : Fin 8} {a b : Bool} {s : State} (hused : pcUnused s n = false) (hquad : pcSinCos s n = false)
include hused hquad

theorem encoderEdge_exec_forward (h : (grayPlace a b + 4 - grayPlace (vat s.enc n).1 (vat s.enc n).2) % 4 = 1) :
    exec (.encoderEdge n a b) s = finish (reactiveGens n (quadEdge n (!pcReverse s n) { s with enc := vset s.enc n (a, b) })) := by
  refine congrArg finish ((if_neg (by simp [hused, hquad])).trans ?_)
  rw [h]
  cases pcReverse s n <;> rfl

theorem encoderEdge_exec_backward (h : (grayPlace a b + 4 - grayPlace (vat s.enc n).1 (vat s.enc n).2) % 4 = 3) :
    exec (.encoderEdge n a b) s = finish (reactiveGens n (quadEdge n (pcReverse s n) { s with enc := vset s.enc n (a, b) })) := by
  refine congrArg finish ((if_neg (by simp [hused, hquad])).trans ?_)
  rw [h]
  cases pcReverse s n <;> rfl

theorem encoderEdge_exec_illegal (ha : a ≠ (vat s.enc n).1) (hb : b ≠ (vat s.enc n).2) :
    exec (.encoderEdge n a b) s = finish (inputFault n true { s with enc := vset s.enc n (a, b) }) := by
  refine congrArg finish ((if_neg (by simp [hused, hquad])).trans ?_)
  rw [grayPlace_both ha hb]
  rfl

end Quadrature

/-- The epoch counts the wraps of the 48-bit position (R320). -/
def epochAfter (x : Pc) (d : Int) : Int :=
  if (x.pos : Int) + d < 0 then (x.epoch : Int) - 1 else if 2 ^ 48 ≤ (x.pos : Int) + d then (x.epoch : Int) + 1 else x.epoch

theorem pch_pcCount (n : Nat) (d : Int) (s : State) :
    pch (pcCount n d s) n =
      { pch s n with pos := narrow 48 ((pch s n).pos + d), epoch := narrow 8 (epochAfter (pch s n) d), t := s.now } :=
  pch_modPc ..

/-! ## Sin/cos samples (R316, R317, R329) -/

theorem sincosSample_exec_valid {n : Fin 8} {xs xc : BitVec 12} {s s1 : State} {amp2 : Nat} {d : Int} (hkind : pcSinCos s n = true)
    (hwin : invarAgrees s (R.POS_PCn_SCWIN n) = true)
    (hamp2 : amp2 = narrow 24 (scSine s n xs * scSine s n xs + scCosine s n xc * scCosine s n xc))
    (hs1 : s1 = setF (R.POS_PCn_SCAMP n) 23 0 amp2 s)
    (hd : d = signed 12 (narrow 12 ((interpolate (scSine s n xs) (scCosine s n xc) : Int) - (pch s1 n).ph)))
    (hgood : scBad s1 n amp2 d = 0) :
    exec (.sincosSample n xs xc) s = finish (scValid n (interpolate (scSine s n xs) (scCosine s n xc)) d s1) := by
  subst hs1 hamp2 hd
  refine congrArg finish ((if_neg (by simp [hkind])).trans ?_)
  rw [useInvar_of_agrees (by simp [hwin])]
  exact if_pos hgood

theorem scInvalid_of_few {n : Nat} (amp2 why : Nat) {s : State} (h : (pch s n).bad + 1 < fld s (R.POS_PCn_SCWIN n) 19 16) :
    scInvalid n amp2 why s = modPc n (fun x => { x with bad := x.bad + 1, good := 0 }) s :=
  if_neg (by simpa [fld] using fun _ => h)

theorem scValid_of_fault {n : Nat} (ph : Nat) (d : Int) {s : State} (h : (pch s n).fault = true) :
    scValid n ph d s = modPc n (fun x => { x with bad := 0, good := x.good + 1, ph := ph }) s :=
  if_pos (by rwa [pch_modPc])

theorem signalOk_exec {n : Fin 8} {s : State} (hfault : (pch s n).fault = true) (hgood : 1024 ≤ (pch s n).good) :
    exec (.signalOk n) s = finish (logEvent Ev.POS_SIGNAL_OK n n (fld s (R.POS_PCn_SCAMP n) 23 0) 0
      (modPc n (fun x => { restart x [] with fault := false, suspect := true, good := 0 }) s)) :=
  congrArg finish (if_pos ⟨hfault, hgood⟩)

/-- A forward channel takes the speed of its last four sampling spans, when that is no motion in reverse. -/
theorem sincosSpeedTick_exec_forward {n : Fin 8} {s : State} {l : List Nat} {p : Nat} {v : Int} (hkind : pcSinCos s n = true)
    (hfault : (pch s n).fault = false) (hl : l = ((pch s n).pos :: (pch s n).samples).take 5) (hp : l[4]? = some p)
    (hv : v = satS 32 (rnd (diff48 (pch s n).pos p * 25000) 12)) (hpos : 0 ≤ v) (hdir : (pch s n).dir = false) :
    exec (.sincosSpeedTick n) s = finish (modPc n (fun x => { x with samples := l, v := v, valid := true }) s) := by
  refine congrArg finish ((if_neg (by simp [hkind, hfault])).trans (modPc_congr ?_))
  dsimp only
  rw [← hl, hp]
  dsimp only
  rw [← hv]
  exact if_neg (by simp [hdir, hpos])

/-- The free value of R318 chooses between the step of the angle and the next one. -/
theorem interpolate_of_inexact {sn cs : Int} (hne : sn ≠ 0 ∨ cs ≠ 0) (h : phaseExact sn cs = false) :
    interpolate sn cs = phaseStep sn cs % 4096 ∨ interpolate sn cs = (phaseStep sn cs + 1) % 4096 := by
  have hstep : interpolate sn cs = (phaseStep sn cs + Config.freeAngle sn cs % 2) % 4096 :=
    (if_neg (by omega)).trans (if_neg (by simp [h]))
  rw [hstep]
  rcases Nat.mod_two_eq_zero_or_one (Config.freeAngle sn cs) with hfree | hfree <;> rw [hfree]
  · exact .inl rfl
  · exact .inr rfl

/-- Settles O34, by the branch of the meaning that each clause meets. -/
theorem encoderInputs : Obligations.EncoderInputs := by
  refine ⟨?forward, ?backward, ?illegal, grayPlace_quarter_iff, ?count, fun _ _ _ => rfl, ?valid, ?few, ?held, ?signalOk, ?speed, ?phase⟩
  case forward => exact fun n a b s hused hquad h => completes_of (encoderEdge_exec_forward hused hquad h)
  case backward => exact fun n a b s hused hquad h => completes_of (encoderEdge_exec_backward hused hquad h)
  case illegal => exact fun n a b s hused hquad ha hb => completes_of (encoderEdge_exec_illegal hused hquad ha hb)
  case count =>
    intro n d s _ _ _
    rw [pch_pcCount]
    refine ⟨rfl, rfl, ?_⟩
    dsimp only
    unfold epochAfter
    split
    · rfl
    · split <;> rfl
  case valid => exact fun n xs xc s s1 hkind hwin hs1 hgood => completes_of (sincosSample_exec_valid hkind hwin rfl hs1 rfl hgood)
  case few => exact fun n amp2 why s h => scInvalid_of_few amp2 why h
  case held => exact fun n ph d s h => scValid_of_fault ph d h
  case signalOk => exact fun n s hfault hgood => completes_of (signalOk_exec hfault hgood)
  case speed =>
    exact fun n s l p hkind hfault hl hp hpos hdir => completes_of (sincosSpeedTick_exec_forward hkind hfault hl hp rfl hpos hdir)
  case phase => exact fun sn cs => interpolate_of_inexact

end Sys2Proof.Machine
end

section
/-!
PROOFS. Index edges, the speed timers, captures, the commands of a channel and of its compares, and the snapshot (spec/10_position.md R314, R321,
R323, R326, R328, R336, R341, R342; log 42).
-/
namespace Sys2Proof.Machine

/-! ## Index edges and captures (R314, R336) -/

theorem indexEdge_exec_tooClose {n : Fin 8} {s : State} (hindex : pcHasIndex s n = true) (hclose : tooClose s n (pch s n).zAt = true) :
    exec (.indexEdge n) s = finish (modPc n (fun x => { x with zAt := some s.now }) (inputFault n false s)) :=
  congrArg finish ((if_neg (by simp [hindex])).trans (if_pos hclose))

/-- An accepted index edge, ungated, pulses the outputs and latches the capture that CAPCFG asks of it. -/
theorem indexEdge_exec_capture {n : Fin 8} {s s1 : State} (hindex : pcHasIndex s n = true)
    (hclose : tooClose s n (pch s n).zAt = false) (hgate : fld s (R.POS_PCn_CAPCFG n) 6 6 = 0)
    (hs1 : s1 = eeZ n (modPc n (fun x => { x with zAt := some s.now }) s)) (hcfg : fld s1 (R.POS_PCn_CAPCFG n) 1 0 = 1) :
    exec (.indexEdge n) s = finish (capture n (pch s1 n).pos (pch s1 n).epoch s1.now s1) := by
  subst hs1
  have hopen : fld (modPc n (fun x => { x with zAt := some s.now }) s) (R.POS_PCn_CAPCFG n) 6 6 ≠ 1 :=
    ne_of_eq_of_ne hgate Nat.zero_ne_one
  exact congrArg finish ((if_neg (by simp [hindex])).trans ((if_neg (by simp [hclose])).trans
    ((if_neg fun h => hopen h.1).trans (if_pos hcfg))))

/-- A capture that nothing holds back, with no signal chosen. -/
theorem capture_of_free {n p e t : Nat} {s : State} (hfree : ¬(fld s (R.POS_PCn_CAPCFG n) 5 5 = 1 ∧ fld s (R.POS_PCn_FLAG n) 4 4 = 1))
    (hsig : fld s (R.POS_PCn_CAPCFG n) 15 15 = 0) :
    capture n p e t s = setFlag (R.POS_PCn_FLAG n) 4 (wr (R.POS_PCn_CAP_THI n) (BitVec.ofNat 32 (t / 2 ^ 32))
      (wr (R.POS_PCn_CAP_TLO n) (BitVec.ofNat 32 t) (wr (R.POS_PCn_CAP_FRAC n) (BitVec.ofNat 32 (p % 65536 + e * 65536))
        (wr (R.POS_PCn_CAP_INT n) (BitVec.ofNat 32 (ipart p)) s)))) :=
  (if_neg hfree).trans (if_neg (ne_of_eq_of_ne hsig Nat.zero_ne_one))

/-! ## Speed without edges (R328) -/

theorem vset_vat {α : Type} {n : Nat} [NeZero n] (v : Vector α n) (i : Nat) : vset v i (vat v i) = v := Vector.set_getElem_self _

theorem modPc_of_fixed {n : Nat} {f : Pc → Pc} {s : State} (h : f (pch s n) = pch s n) : modPc n f s = s := by
  have hpc : vmod s.pc n f = s.pc := (congrArg (vset s.pc n) h).trans (vset_vat s.pc n)
  exact congrArg (fun v => { s with pc := v }) hpc

theorem decay_of_invalid (now : Nat) {x : Pc} (h : x.valid = false) : decay now x = x := by
  unfold decay
  cases x.hist with
  | nil => rfl
  | cons te l => exact if_neg (by simp [h])

/-- After twice the mean interval without an edge the speed of a forward channel is that of one count since then. -/
theorem decay_of_late {now te : Nat} {l : List Nat} {x : Pc} (hhist : x.hist = te :: l) (hvalid : x.valid = true)
    (hlate : 2 * (x.mean.2 / max 1 x.mean.1) < now - te) (hdir : x.dir = false) :
    decay now x = { x with v := satS 32 ((6400000000 / (now - te) : Nat) : Int) } := by
  unfold decay
  rw [hhist]
  exact (if_pos ⟨hvalid, hlate⟩).trans (by rw [hdir]; rfl)

section Quadrature
variable {n : Fin 8} {s : State} (hused : pcUnused s n = false) (hquad : pcSinCos s n = false)
include hused hquad

theorem speedStandstillTimeout_exec : exec (.speedStandstillTimeout n) s = finish (modPc n (fun x => restart x []) s) :=
  congrArg finish (if_neg (by simp [hused, hquad]))

theorem speedSampleTick_exec_invalid (hvalid : (pch s n).valid = false) : exec (.speedSampleTick n) s = finish s := by
  refine congrArg finish ((if_neg (by simp [hused])).trans ?_)
  rw [if_neg (ne_true_of_eq_false hquad), modPc_of_fixed (decay_of_invalid _ hvalid)]
  exact if_neg (ne_true_of_eq_false hvalid)

/-- A channel that feeds no generator only re-evaluates its speed. -/
theorem speedSampleTick_exec_unfollowed (hgens : pcGens s n = []) : exec (.speedSampleTick n) s = finish (modPc n (decay s.now) s) := by
  have hgens' : pcGens (modPc n (decay s.now) s) n = [] := hgens
  refine congrArg finish ((if_neg (by simp [hused])).trans ?_)
  rw [if_neg (ne_true_of_eq_false hquad)]
  dsimp only
  rw [hgens']
  exact ite_self _

end Quadrature

/-! ## PRESET (R323) -/

/-- The channel at its preset position: the speed history restarts, and the marks of its compares follow. -/
def Pc.presetTo (p : Nat) (x : Pc) : Pc :=
  { restart { x with pos := p, epoch := 0, dir := false, ext := p, suspect := false } [] with cmp := x.cmp.map (fun c => { c with mark := p }) }

/-- PRESET of a channel that feeds no generator and no output. -/
theorem preset_of_unfollowed {n p : Nat} {s : State}
    (hp : p = (rd s (R.POS_PCn_PRESET_INT n)).toNat * 65536 + fld s (R.POS_PCn_PRESET_FRAC n) 15 0) (hgens : pcGens s n = [])
    (houts : ∀ e < 4, eeSource s e ≠ n) : preset n s = modPc n (Pc.presetTo p) s := by
  subst hp
  have hnone : those 4 (fun e => eeSource s e = n) = [] := List.filter_eq_nil_iff.2 (by simpa using houts)
  unfold preset
  extract_lets p s1 s2
  have hs2 : s2 = s1 := congrArg (forEach · _ s1) (show pcGens s1 n = [] from hgens)
  rw [hs2]
  exact congrArg (forEach · eeRef s1) hnone

/-! ## The tables of R341 and R342 -/

theorem posEarly_of_live {s : State} {n : Nat} (hlive : 4 ≤ s.glb.state.code) (hused : pcUnused s n = false) : posEarly s n = false := by
  have hreset : s.glb.state ≠ .reset := fun h => by simp [h, GState.code] at hlive
  have hload : s.glb.state ≠ .imageLoad := fun h => by simp [h, GState.code] at hlive
  simp [posEarly, hreset, hload, hused]

theorem ne_off_of_live {s : State} (hlive : 4 ≤ s.glb.state.code) : s.glb.state ≠ .off := fun h => by simp [h, GState.code] at hlive

section Tables
variable {n m : Nat} {s : State}

theorem posCmd_preset (hlive : 4 ≤ s.glb.state.code) (hup : s.glb.state ≠ .shutdown) (hused : pcUnused s n = false)
    (hidle : pcInUse s n = false) :
    posCmd n 1 s = preset n (wr (R.POS_PCn_CMD_STATUS n) (BitVec.ofNat 32 (1 + 16 * gnum s + 256)) s) :=
  (if_neg (ne_off_of_live hlive)).trans ((if_pos rfl).trans (if_neg (by simp [posEarly_of_live hlive hused, hidle, hup])))

theorem posCmd_preset_refused (hoff : s.glb.state ≠ .off)
    (h : posEarly s n = true ∨ pcInUse s n = true ∨ s.glb.state = .shutdown) :
    posCmd n 1 s = posResult (R.POS_PCn_CMD_STATUS n) n 1 2 s :=
  (if_neg hoff).trans ((if_pos rfl).trans (if_pos (by simpa [or_assoc] using h)))

theorem posCmd_clrcnt (hlive : 4 ≤ s.glb.state.code) (hused : pcUnused s n = false) :
    posCmd n 2 s =
      wr (R.POS_PCn_FAULTCNT n) 0 (wr (R.POS_PCn_CMD_STATUS n) (BitVec.ofNat 32 (1 + 16 * gnum s + 512)) s) :=
  (if_neg (ne_off_of_live hlive)).trans ((if_neg (by decide)).trans ((if_pos rfl).trans
    (if_neg (ne_true_of_eq_false (posEarly_of_live hlive hused)))))

theorem cmpCmd_arm (hlive : 4 ≤ s.glb.state.code) (hup : s.glb.state ≠ .shutdown) (hused : pcUnused s n = false)
    (hidle : cmpArmed s n m = false) :
    cmpCmd n m 1 s = cmpArm n m (wr (R.POS_PCn_CMPm_CMD_STATUS n m) (BitVec.ofNat 32 (1 + 16 * gnum s + 256)) s) :=
  (if_neg (ne_off_of_live hlive)).trans ((if_pos rfl).trans (if_neg (by simp [posEarly_of_live hlive hused, hidle, hup])))

theorem cmpCmd_arm_refused (hoff : s.glb.state ≠ .off)
    (h : posEarly s n = true ∨ cmpArmed s n m = true ∨ s.glb.state = .shutdown) :
    cmpCmd n m 1 s = posResult (R.POS_PCn_CMPm_CMD_STATUS n m) (32 + (4 * n + m)) 1 2 s :=
  (if_neg hoff).trans ((if_pos rfl).trans (if_pos (by simpa [or_assoc] using h)))

theorem cmpCmd_disarm (hlive : 4 ≤ s.glb.state.code) (hused : pcUnused s n = false) :
    cmpCmd n m 2 s =
      setF (R.POS_PCn_CMPm_STAT n m) 0 0 0 (wr (R.POS_PCn_CMPm_CMD_STATUS n m) (BitVec.ofNat 32 (1 + 16 * gnum s + 512)) s) :=
  (if_neg (ne_off_of_live hlive)).trans ((if_neg (by decide)).trans ((if_pos rfl).trans
    (if_neg (ne_true_of_eq_false (posEarly_of_live hlive hused)))))

end Tables

/-- What a command of the position unit does through an open window is what its table says once the link has left L1. -/
theorem posTable_completes {c : Instr} {off : Nat} {f : State → State} {s u : State} (hc : exec c s = finish (viaTable off f s))
    (hunit : 0x020000 ≤ off) (hopen : windowOpen s 0 off true = true) (h : f (hostAccess s) = u) : Completes c s u :=
  completes_of (hc.trans (congrArg finish ((viaTable_open _ _ s hopen hunit).trans h)))

theorem posCmd_completes {c : Instr} {n : Fin 8} {cmd : Nat} {s u : State}
    (hc : exec c s = finish (viaTable (R.POS_PCn_CMD n) (posCmd n cmd) s)) (hopen : windowOpen s 0 (R.POS_PCn_CMD n) true = true)
    (h : posCmd n cmd (hostAccess s) = u) : Completes c s u :=
  posTable_completes hc (by unfold R.POS_PCn_CMD; omega) hopen h

theorem cmpCmd_completes {c : Instr} {n : Fin 8} {m : Fin 4} {cmd : Nat} {s u : State}
    (hc : exec c s = finish (viaTable (R.POS_PCn_CMPm_CMD n m) (cmpCmd n m cmd) s))
    (hopen : windowOpen s 0 (R.POS_PCn_CMPm_CMD n m) true = true) (h : cmpCmd n m cmd (hostAccess s) = u) : Completes c s u :=
  posTable_completes hc (by unfold R.POS_PCn_CMPm_CMD; omega) hopen h

/-! ## The snapshot (R321) -/

theorem posIntRead_exec {n : Fin 8} {s : State} (hopen : windowOpen s 0 (R.POS_PCn_POS_INT n) false = true) :
    exec (.posIntRead n) s =
      finish (respond 0 (R.POS_PCn_POS_INT n) (leBytes 4 (ipart (pch s n).pos)) (posSnap n (hostAccess s))) :=
  congrArg finish (if_pos hopen)

/-- Settles O35: the edges and timers by the branch of their meaning, the commands by the row of their table. -/
theorem positionChannels : Obligations.PositionChannels := by
  refine ⟨?captured, ?close, ?standstill, ?invalid, ?decays, ?capture, ?preset, ?presetRefused, ?clrcnt, ?arm, ?armRefused, ?disarm,
    fun n s hopen => completes_of (posIntRead_exec hopen), fun n s p hp hgens houts => preset_of_unfollowed hp hgens houts⟩
  case captured => exact fun n s s1 hindex hclose hgate hs1 hcfg => completes_of (indexEdge_exec_capture hindex hclose hgate hs1 hcfg)
  case close => exact fun n s hindex hclose => completes_of (indexEdge_exec_tooClose hindex hclose)
  case standstill => exact fun n s hused hquad => completes_of (speedStandstillTimeout_exec hused hquad)
  case invalid => exact fun n s hused hquad hvalid => completes_of (speedSampleTick_exec_invalid hused hquad hvalid)
  case decays =>
    intro n s te l hused hquad hhist hvalid hlate hdir hgens
    exact completes_of ((speedSampleTick_exec_unfollowed hused hquad hgens).trans
      (congrArg finish (modPc_congr (decay_of_late hhist hvalid hlate hdir))))
  case capture => exact fun n p e t s hfree hsig => capture_of_free hfree hsig
  case preset =>
    exact fun n s hopen hlive hup hused hidle => posCmd_completes rfl hopen (posCmd_preset (s := hostAccess s) hlive hup hused hidle)
  case presetRefused => exact fun n s hopen hoff h => posCmd_completes rfl hopen (posCmd_preset_refused (s := hostAccess s) hoff h)
  case clrcnt => exact fun n s hopen hlive hused => posCmd_completes rfl hopen (posCmd_clrcnt (s := hostAccess s) hlive hused)
  case arm =>
    exact fun n m s hopen hlive hup hused hidle => cmpCmd_completes rfl hopen (cmpCmd_arm (s := hostAccess s) hlive hup hused hidle)
  case armRefused => exact fun n m s hopen hoff h => cmpCmd_completes rfl hopen (cmpCmd_arm_refused (s := hostAccess s) hoff h)
  case disarm => exact fun n m s hopen hlive hused => cmpCmd_completes rfl hopen (cmpCmd_disarm (s := hostAccess s) hlive hused)

end Sys2Proof.Machine
end

section
/-!
PROOFS. Compares and emulated-encoder outputs: the end of a hit, the behind checks, the mark, and one step of an output toward its target
(spec/10_position.md R325, R331 to R333, R337, R340).
-/
namespace Sys2Proof.Machine

/-! ## Compares (R325, R331 to R333) -/

theorem cmpAfter_of_space_zero {n m : Nat} (behind : State → State) {s : State} (h : cmpSpace s n m = 0) :
    cmpAfter n m behind s = cmpDisarm n m s :=
  if_neg fun hsteps => hsteps.1 h

theorem cmpBehind_missed {n m : Nat} {s : State}
    (h : fld s (R.POS_PCn_CMPm_CTL n m) 3 2 = 0 ∨ fld s (R.POS_PCn_CMPm_CTL n m) 3 2 = 3) : cmpBehind n m s = cmpMissed n m s := by
  unfold cmpBehind
  rcases h with h | h <;> rw [h] <;> rfl

theorem cmpBehind_skip {n m : Nat} {s : State} (h : fld s (R.POS_PCn_CMPm_CTL n m) 3 2 = 1) : cmpBehind n m s = cmpSkip n m s := by
  unfold cmpBehind
  rw [h]
  rfl

theorem cmpBehind_late {n m : Nat} {s : State} (h : fld s (R.POS_PCn_CMPm_CTL n m) 3 2 = 2) : cmpBehind n m s = cmpLate n m s := by
  unfold cmpBehind
  rw [h]
  rfl

/-- A mark follows a position that lies beyond it in the mark's direction. -/
theorem markStep_of_beyond {rev : Bool} {mark p : Nat} (h : if rev then 0 < diff48 mark p else 0 < diff48 p mark) :
    markStep rev mark p = p := by
  cases rev with
  | false => exact if_pos h
  | true => exact if_pos h

/-- A mark stays where the position does not pass it. -/
theorem markStep_of_within {rev : Bool} {mark p : Nat} (h : if rev then diff48 mark p ≤ 0 else diff48 p mark ≤ 0) :
    markStep rev mark p = mark := by
  cases rev with
  | false => exact if_neg (not_lt.2 h)
  | true => exact if_neg (not_lt.2 h)

/-- A compare that is not armed only keeps its mark. -/
theorem cmpEval_of_disarmed {n m : Nat} (old : Nat) {s : State} (h : cmpArmed s n m = false) :
    cmpEval n old m s = modCmp n m (fun c => { c with mark := markStep (cmpDir s n m = 1) c.mark (pch s n).pos }) s :=
  if_pos (congrArg (!·) h)

/-! ## Emulated-encoder outputs (R337, R340) -/

/-- Output `e` shows the count `c`, A ahead of B, and its lag is taken. -/
def eeShow (e c : Nat) (s : State) : State :=
  eeLag e (eePin e "EEn_A" (eeu s e).a (c % 4 = 1 || c % 4 = 2) (eePin e "EEn_B" (eeu s e).b (c % 4 = 2 || c % 4 = 3)
    (modEe e (fun x => { x with a := c % 4 = 1 || c % 4 = 2, b := c % 4 = 2 || c % 4 = 3 })
      (wr (R.POS_EEn_OUT e) (BitVec.ofNat 32 c) s))))

theorem eeStep_of_still {e : Nat} {s : State} (h : holding s = true ∨ eeSource s e = 0xFF ∨ eeDiff s e = 0) : eeStep e s = s := if_pos h

/-- An output off its target steps one count toward it. -/
theorem eeStep_toward {e c : Nat} {s : State} (hmoves : holding s = false) (hsource : eeSource s e ≠ 0xFF) (hdiff : eeDiff s e ≠ 0)
    (hinv : fld s (R.POS_EEn_CFG e) 8 8 = 0)
    (hc : c = narrow 32 (((rd s (R.POS_EEn_OUT e)).toNat : Int) + (if 0 < eeDiff s e then 1 else -1))) : eeStep e s = eeShow e c s := by
  have hplain : ¬fld s (R.POS_EEn_CFG e) 8 8 = 1 := by omega
  refine (if_neg (by simp [hmoves, hsource, hdiff])).trans ?_
  rw [← hc]
  simp only [if_neg hplain]
  rfl

theorem eeStep_up {e c : Nat} {s : State} (hmoves : holding s = false) (hsource : eeSource s e ≠ 0xFF) (hdiff : 0 < eeDiff s e)
    (hinv : fld s (R.POS_EEn_CFG e) 8 8 = 0) (hc : c = narrow 32 ((rd s (R.POS_EEn_OUT e)).toNat + 1)) : eeStep e s = eeShow e c s :=
  eeStep_toward hmoves hsource (ne_of_gt hdiff) hinv (by rw [hc, if_pos hdiff])

theorem eeStep_down {e c : Nat} {s : State} (hmoves : holding s = false) (hsource : eeSource s e ≠ 0xFF) (hdiff : eeDiff s e < 0)
    (hinv : fld s (R.POS_EEn_CFG e) 8 8 = 0) (hc : c = narrow 32 ((rd s (R.POS_EEn_OUT e)).toNat - 1)) : eeStep e s = eeShow e c s :=
  eeStep_toward hmoves hsource (ne_of_lt hdiff) hinv (by rw [hc, if_neg (not_lt_of_gt hdiff), Int.sub_eq_add_neg])

theorem eeOutputStep_completes {e : Fin 4} {s u : State} (h : eeStep e s = u) : Completes (.eeOutputStep e) s u :=
  completes_of (congrArg finish h)

/-- Settles O36, by the behind mode of the compare and the sign of the output's distance from its target. -/
theorem comparesAndOutputs : Obligations.ComparesAndOutputs := by
  refine ⟨fun n m s h => cmpAfter_of_space_zero _ h, fun n m s h => cmpBehind_missed h, fun n m s h => cmpBehind_skip h,
    fun n m s h => cmpBehind_late h, fun rev mark p h => markStep_of_beyond h, fun rev mark p h => markStep_of_within h,
    fun n old m s h => cmpEval_of_disarmed old h, fun e s h => eeOutputStep_completes (eeStep_of_still h), ?up, ?down⟩
  case up => exact fun e s c hmoves hsource hdiff hinv hc => eeOutputStep_completes (eeStep_up hmoves hsource hdiff hinv hc)
  case down => exact fun e s c hmoves hsource hdiff hinv hc => eeOutputStep_completes (eeStep_down hmoves hsource hdiff hinv hc)

end Sys2Proof.Machine
end

section
/-!
PROOFS. What every command does: it answers a next state, and a step runs the command at the front of the queue
(spec/95_what_each_step_holds.md).
-/
namespace Sys2Proof.Machine

/-- Settles O1: the queue in front of the rest is what a step looks at. -/
theorem stepRunsFront : Obligations.StepRunsFront := fun _ _ _ => step_of_pending_cons rfl

/-- Settles O3, by the frame that every command keeps. -/
theorem everyCommandAnswers : Obligations.EveryCommandAnswers := by
  intro c s
  obtain ⟨t, e, keeps⟩ := exec_kp c s
  exact ⟨t, e, keeps.pending, keeps.out, keeps.free⟩

end Sys2Proof.Machine
end

section
/-!
PROOFS. The instructions of a DMA program: the fetch, the descriptors, the counters, the waits, and what acts once the program's
writes are complete (spec/15_dma.md R450 to R463, R471).
-/
namespace Sys2Proof.Program

open Machine hiding fetched

/-! ## What a turn at a port changes -/

/-- The channels keep all but their reads, and the registers all but those of the march engine
(R482, R503). -/
structure Serves (s t : State) : Prop where
  channels : ∀ n, ∃ rs, dc t n = { dc s n with reads := rs }
  regs : ∀ o, o ≠ R.MEM_BKSTAT → o ≠ R.MEM_MARCHSTAT → rd t o = rd s o

theorem Serves.refl (s : State) : Serves s s := ⟨fun _ => ⟨_, rfl⟩, fun _ _ _ => rfl⟩

theorem Serves.trans {s t u : State} (h : Serves s t) (k : Serves t u) : Serves s u := by
  refine ⟨fun n => ?_, fun o hbk hms => (k.regs o hbk hms).trans (h.regs o hbk hms)⟩
  obtain ⟨_, e⟩ := h.channels n
  obtain ⟨rs, e'⟩ := k.channels n
  exact ⟨rs, by rw [e', e]⟩

theorem serves_marchYield (a k : Nat) (s : State) : Serves s (marchYield a k s) := by
  refine ⟨fun n => ⟨_, dc_marchYield a k n s⟩, fun o hbk hms => ?_⟩
  unfold marchYield
  split
  · split
    · exact (rd_wr_of_ne _ _ hbk).trans (rd_wr_of_ne _ _ hms)
    · rfl
  · rfl

theorem serves_modReads (m : Nat) (rs : List DmaRead) (s : State) : Serves s (modDma m (fun x => { x with reads := rs }) s) := by
  refine ⟨fun n => ?_, fun _ _ _ => rfl⟩
  simp only [dc, modDma, vmod, vat_vset]
  split
  · exact ⟨rs, by simp [vat, *]⟩
  · exact ⟨_, rfl⟩

theorem serves_tookTurn (port n : Nat) (s : State) : Serves s (tookTurn port n s) := ⟨fun _ => ⟨_, rfl⟩, fun _ _ _ => rfl⟩

theorem serves_serveRead (port n : Nat) (s : State) : Serves s (serveRead port n s) := by
  unfold serveRead
  split
  · exact .refl s
  · split
    · exact .refl s
    · dsimp only
      split
      · exact (serves_modReads ..).trans (serves_tookTurn ..)
      · split
        · exact (serves_marchYield ..).trans ((serves_modReads ..).trans (serves_tookTurn ..))
        · exact (serves_modReads ..).trans (serves_tookTurn ..)

theorem serves_portTurn (port : Nat) (stop : State → Bool) (fuel : Nat) (s : State) : Serves s (portTurn port stop fuel s) := by
  induction fuel generalizing s with
  | zero => exact .refl s
  | succ fuel ih =>
    unfold portTurn
    split
    · exact .refl s
    · split
      · exact (serves_serveRead ..).trans (ih _)
      · exact .refl s

/-- The fetch of an instruction, which releases a borrowed window. -/
theorem serves_fetch (a k n : Nat) (s : State) : Serves s (marchYield a k (fetchTurn n s)) :=
  ((serves_portTurn ..).trans (serves_tookTurn ..)).trans (serves_marchYield ..)

/-! ## The instruction at PC -/

/-- The channel as its fetched instruction finds it. -/
theorem dc_running (n : Nat) (i : List Byte) (s : State) : ∃ rs, dc (running n i s) n = { dc s n with inst := i, reads := rs } := by
  obtain ⟨rs, e⟩ := (serves_fetch _ 16 n s).channels n
  exact ⟨rs, by rw [running, dc_modDma, e]⟩

/-- The fetch leaves the channels' registers as they stand. -/
theorem rd_running (n : Nat) (i : List Byte) (s : State) {o : Nat} (h : R.DMA_DCn_STAT n ≤ o) : rd (running n i s) o = rd s o := by
  unfold R.DMA_DCn_STAT at h
  exact (serves_fetch _ 16 n s).regs o (by unfold R.MEM_BKSTAT; omega) (by unfold R.MEM_MARCHSTAT; omega)

/-- A fetched instruction acts. -/
theorem dmaRun_fetched {n op : Nat} {i : List Byte} {s : State} (act : List Byte → State → State) (h : fetched n op i s) :
    dmaRun n op act s = act i (running n i s) := by
  obtain ⟨hst, hxfer, hheld, hon, rfl, hvalid, hop⟩ := h
  unfold dmaRun
  dsimp only
  rw [if_neg (by simp [hst, hxfer, hheld]), if_neg (by simp [hon]), if_neg (by simp [hvalid]), if_neg (by simp [hop])]
  rfl

theorem instruction_completes {c : Instr} {n op : Nat} {i : List Byte} {s : State} {act : List Byte → State → State}
    (hc : exec c s = finish (dmaRun n op act s)) (h : fetched n op i s) : Completes c s (act i (running n i s)) :=
  completes_of (hc.trans (congrArg finish (dmaRun_fetched act h)))

/-- PC moves on by one short of the last index. -/
theorem dmaNext_of_lt {n : Nat} {s : State} (h : (dc s n).pc < 255) : dmaNext n s = pcOn n s := by
  simp only [dmaNext, pcNext, if_neg (Nat.not_le.2 h)]
  rfl

theorem pc_running (n : Nat) (i : List Byte) (s : State) : (dc (running n i s) n).pc = (dc s n).pc := by
  obtain ⟨_, e⟩ := dc_running n i s
  rw [e]

/-- An instruction whose effect leaves PC alone completes with PC moved on. -/
theorem instruction_goes_on {c : Instr} {n op : Nat} {i : List Byte} {s : State} {f : List Byte → State → State}
    {u : State} (hc : exec c s = finish (dmaRun n op (fun i s => dmaNext n (f i s)) s)) (h : fetched n op i s) (hlt : (dc s n).pc < 255)
    (hpc : ∀ t, (dc (f i t) n).pc = (dc t n).pc) (hu : f i (running n i s) = u) : Completes c s (pcOn n u) := by
  rw [← hu, ← dmaNext_of_lt (by rwa [hpc, pc_running])]
  exact instruction_completes hc h

/-! ## Descriptors -/

theorem baseOf_running (n : Nat) (i : List Byte) (s : State) : baseOf (running n i s) n i = baseOf s n i := by
  have par (k : Nat) : rd (running n i s) (R.DMA_DCn_APAR n k) = rd s (R.DMA_DCn_APAR n k) :=
    rd_running n i s (by unfold R.DMA_DCn_STAT R.DMA_DCn_APAR; omega)
  simp only [baseOf, rd64, par]

theorem dc_markSet (n : Nat) (s : State) : dc (markSet n s) n = dc s n := by
  unfold markSet
  dsimp only
  split <;> split <;> rfl

/-- A side of channel `n` noted as set leaves PC. -/
theorem pc_described {n : Nat} {g : State → State} {f : Dma → Dma} (hg : ∀ t, dc (g t) n = dc t n) (hf : ∀ x, (f x).pc = x.pc) (t : State) :
    (dc (markSet n (modDma n f (g t))) n).pc = (dc t n).pc := by
  rw [dc_markSet, dc_modDma, hf, hg]

/-- Settles O50: each instruction leaves PC to `dmaNext`. -/
theorem programDescribes : Obligations.ProgramDescribes := by
  refine ⟨?nop, ?src, ?dst, ?spat, ?dpat, ?base⟩
  case nop => exact fun ch i s h hlt => instruction_goes_on (f := fun _ s => s) rfl h hlt (fun _ => rfl) rfl
  case src =>
    exact fun ch i s h hlt =>
      instruction_goes_on rfl h hlt (pc_described (fun _ => rfl) fun _ => rfl) (by rw [baseOf_running])
  case dst =>
    exact fun ch i s h hlt =>
      instruction_goes_on rfl h hlt (pc_described (fun _ => rfl) fun _ => rfl) (by rw [baseOf_running])
  case spat => exact fun ch i s h hlt => instruction_goes_on rfl h hlt (pc_described (fun _ => rfl) fun _ => rfl) rfl
  case dpat => exact fun ch i s h hlt => instruction_goes_on rfl h hlt (pc_described (fun _ => rfl) fun _ => rfl) rfl
  case base => exact fun ch i s h => if_neg (by simp [h])

/-! ## Counters -/

theorem rd_running_counter (n k : Nat) (i : List Byte) (s : State) : rd (running n i s) (R.DMA_DCn_C n k) = rd s (R.DMA_DCn_C n k) :=
  rd_running n i s (by unfold R.DMA_DCn_STAT R.DMA_DCn_C; omega)

theorem loopStep_of_zero {n c : Nat} (target : Nat) {s : State} (h : (rd s (R.DMA_DCn_C n c)).toNat = 0) : loopStep n c target s = dmaNext n s :=
  if_pos h

theorem loopStep_of_one {n c : Nat} (target : Nat) {s : State} (h : (rd s (R.DMA_DCn_C n c)).toNat = 1) :
    loopStep n c target s = dmaNext n (wr (R.DMA_DCn_C n c) 0 s) := by
  simp [loopStep, h]

theorem loopStep_of_more {n c : Nat} (target : Nat) {s : State} (h : 2 ≤ (rd s (R.DMA_DCn_C n c)).toNat) :
    loopStep n c target s = modDma n (fun x => { x with pc := target, inst := [] })
      (wr (R.DMA_DCn_C n c) (BitVec.ofNat 32 ((rd s (R.DMA_DCn_C n c)).toNat - 1)) s) := by
  unfold loopStep
  dsimp only
  rw [if_neg (by omega), if_neg (by omega)]

/-- Settles O51: a LOOP by the value of its counter; the fetch leaves the counter as it stands. -/
theorem loopCounters : Obligations.LoopCounters := by
  refine ⟨?setc, ?loop⟩
  case setc => exact fun ch i s h hlt => instruction_goes_on rfl h hlt (fun _ => rfl) rfl
  case loop =>
    rintro ch i s v h hlt rfl
    have hpc : (dc (running ch i s) ch).pc < 255 := (pc_running ch i s).trans_lt hlt
    have k : Completes (.dmaLoop ch) s (loopStep ch (ib i 1) (ib i 2) (running ch i s)) :=
      instruction_completes (act := fun i => loopStep ch (ib i 1) (ib i 2)) rfl h
    rw [← rd_running_counter ch (ib i 1) i s]
    refine ⟨fun hv => ?_, fun hv => ?_, fun hv => ?_⟩
    · rwa [loopStep_of_zero _ hv, dmaNext_of_lt hpc] at k
    · rwa [loopStep_of_one _ hv, dmaNext_of_lt (s := wr _ _ (running ch i s)) hpc] at k
    · rwa [loopStep_of_more _ hv] at k

/-! ## Waits -/

theorem dmaWaitSatisfied_exec {ch : Fin 32} {s : State} (hst : (dc s ch).st = .wait) (hstray : waitAstray s (dc s ch).inst = false)
    (hholds : waitHolds s (waitsAhead s ch) (dc s ch).inst = true) :
    exec (.dmaWaitSatisfied ch) s = finish (waitOver ch (dc s ch).inst s) := by
  refine congrArg finish ?_
  dsimp only
  rw [if_neg (by simp [hst]), if_neg (by simp [hstray]), if_pos hholds]

theorem dc_sigPut (sg v n : Nat) (s : State) : dc (sigPut sg v s) n = dc s n := by
  unfold sigPut
  dsimp only
  split <;> rfl

/-- A WAIT for a signal that is over consumes one of its count; another consumes nothing (R461, R463). -/
theorem waitOver_signal {n : Nat} {i : List Byte} {s : State} (h : ib i 1 = 0) (hlt : (dc s n).pc < 255) :
    waitOver n i s = pcOn n (modDma n (fun x => { x with st := .run, wtype := 0 }) (sigPut (ib i 2) (sigCount s (ib i 2) - 1) s)) := by
  unfold waitOver
  dsimp only
  rw [if_pos h]
  exact dmaNext_of_lt (by rwa [dc_modDma, dc_sigPut])

theorem waitOver_condition {n : Nat} {i : List Byte} {s : State} (h : ib i 1 ≠ 0) (hlt : (dc s n).pc < 255) :
    waitOver n i s = pcOn n (modDma n (fun x => { x with st := .run, wtype := 0 }) s) := by
  unfold waitOver
  dsimp only
  rw [if_neg h]
  exact dmaNext_of_lt (by rwa [dc_modDma])

theorem waitHolds_signal (s : State) (ahead : Nat) {i : List Byte} (h : ib i 1 = 0) :
    waitHolds s ahead i = decide (ahead < sigCount s (ib i 2)) := by
  unfold waitHolds
  rw [h]
  rfl

/-! ## Instructions that wait for the program's writes (R458) -/

theorem modDma_of_fixed {n : Nat} {f : Dma → Dma} {s : State} (h : f (dc s n) = dc s n) : modDma n f s = s := by
  have hdma : vmod s.dma n f = s.dma := (congrArg (vset s.dma n) h).trans (vset_vat s.dma n)
  exact congrArg (fun v => { s with dma := v }) hdma

theorem held_running (n : Nat) (i : List Byte) (s : State) : (dc (running n i s) n).held = (dc s n).held := by
  obtain ⟨_, e⟩ := dc_running n i s
  rw [e]

theorem written_running {n : Nat} {i : List Byte} {s : State} : written n (running n i s) ↔ written n s := by
  obtain ⟨_, e⟩ := dc_running n i s
  unfold written
  rw [e]

theorem dmaOrdered_of_written {n : Nat} (pins : Pins) (i : List Byte) {s : State} (h : written n s) :
    dmaOrdered n pins i s = dmaAct n i pins s := by
  obtain ⟨hw, hh⟩ := h
  exact if_neg (by simp [hw, hh])

theorem dmaOrdered_of_not_written {n : Nat} (pins : Pins) (i : List Byte) {s : State} (h : ¬written n s) :
    dmaOrdered n pins i s = modDma n (fun x => { x with held := true }) s := by
  refine if_pos ?_
  unfold written at h
  revert h
  cases (dc s n).wpend <;> cases (dc s n).hpend <;> decide

/-- An instruction acts once no write of the program is pending. -/
theorem ordered_completes {c : Instr} {n op : Nat} {pins : Pins} {i : List Byte} {s u : State}
    (hc : exec c s = finish (dmaRun n op (dmaOrdered n pins) s)) (h : fetched n op i s) (hw : written n s)
    (hu : dmaAct n i pins (running n i s) = u) : Completes c s u := by
  rw [← hu, ← dmaOrdered_of_written pins i (written_running.2 hw)]
  exact instruction_completes hc h

theorem ordered_holds {c : Instr} {n op : Nat} {pins : Pins} {i : List Byte} {s : State}
    (hc : exec c s = finish (dmaRun n op (dmaOrdered n pins) s)) (h : fetched n op i s) (hw : ¬written n s) :
    exec c s = finish (modDma n (fun x => { x with held := true }) (running n i s)) := by
  rw [hc, dmaRun_fetched _ h, dmaOrdered_of_not_written pins i (mt written_running.1 hw)]

section
variable {n : Nat} {i : List Byte} {s : State}

theorem opcode_fetched {op : Nat} (h : fetched n op i s) : ib i 0 = op := by
  obtain ⟨-, -, -, -, -, -, hop⟩ := h
  exact hop

/-- A fetched instruction was not held, so that it acts on the state in which it runs. -/
theorem unheld_running {op : Nat} (h : fetched n op i s) :
    modDma n (fun x => { x with held := false }) (running n i s) = running n i s := by
  obtain ⟨-, -, hheld, -⟩ := h
  refine modDma_of_fixed ?_
  have e := (held_running n i s).trans hheld
  rw [← e]

theorem dmaAct_signal (pins : Pins) (h : fetched n 0x09 i s) :
    dmaAct n i pins (running n i s) = dmaNext n (raiseSig (ib i 1) (if ib i 2 = 0 then 1 else ib i 2) (running n i s)) := by
  unfold dmaAct
  rw [unheld_running h, opcode_fetched h]
  rfl

theorem dmaAct_wri (pins : Pins) (h : fetched n 0x0A i s) :
    dmaAct n i pins (running n i s) =
      if wriOk (fieldAt i 4 4) then dmaNext n (writeReg (fieldAt i 4 4) (BitVec.ofNat 32 (fieldAt i 8 4)) pins (running n i s))
      else dmaFail n 0x15 (running n i s) := by
  unfold dmaAct
  rw [unheld_running h, opcode_fetched h]
  rfl

theorem dmaAct_cpl (pins : Pins) (h : fetched n 0x0B i s) :
    dmaAct n i pins (running n i s) = dmaRec n 0 0 (fieldAt i 4 4) (running n i s) := by
  unfold dmaAct
  rw [unheld_running h, opcode_fetched h]
  rfl

theorem dmaAct_swap (pins : Pins) (h : fetched n 0x0C i s) :
    dmaAct n i pins (running n i s) = dmaClose n 2 2 (bitOf (ib i 1) 0) (fieldAt i 4 4) (running n i s) := by
  unfold dmaAct
  rw [unheld_running h, opcode_fetched h]
  rfl

theorem dmaAct_end (pins : Pins) (h : fetched n 0x0D i s) :
    dmaAct n i pins (running n i s) = dmaClose n 1 1 (bitOf (ib i 1) 0) (fieldAt i 4 4) (running n i s) := by
  unfold dmaAct
  rw [unheld_running h, opcode_fetched h]
  rfl

end

theorem dmaPump_of_no_recs (fuel : Nat) {n : Nat} {s : State} (h : (dc s n).recs = []) : dmaPump fuel n s = s := by
  cases fuel with
  | zero => rfl
  | succ fuel => unfold dmaPump; rw [h]

/-- An END without a record and with the shadow not armed ends the program (R471). -/
theorem dmaClose_end {n : Nat} (tag : Nat) {s : State} (harm : (dc s n).arm = false) (hrecs : (dc s n).recs = []) :
    dmaClose n 1 1 false tag s = modDma n (fun x => { dropXfer x with st := .idle, after := 0 }) s := by
  have h : afterRec n 1 1 s = modDma n (fun x => { dropXfer x with st := .idle, after := 0 }) s := by
    unfold afterRec
    rw [if_neg (by simp), if_neg (by simp), if_pos rfl, if_neg (by simp [harm])]
  unfold dmaClose
  rw [if_neg (by decide), h]
  exact dmaPump_of_no_recs _ (by rwa [dc_modDma])

theorem dmaWriteComplete_exec (ch : Fin 32) (e : WriteEnd) {s s0 : State}
    (h0 : s0 = if (dc s ch).wpend && (dstSide s ch).space = 2 then eccErrors 0 (xmcUsable s) 1 e.errs s else s) :
    exec (.dmaWriteComplete ch e) s = finish (
      if (dc s0 ch).held ∧ !(dc s0 ch).hpend ∧ ((dc s0 ch).st = .run ∨ ((dc s0 ch).st = .pausing ∧ (dc s0 ch).after = 1))
      then dmaAct ch (dc s0 ch).inst e.pins (modDma ch (fun x => { x with wpend := false }) s0)
      else modDma ch (fun x => { x with wpend := false }) s0) := by
  subst h0
  refine congrArg finish ?_
  dsimp only
  rw [dc_modDma]

/-! ## Fetches that fail, and the start of a transfer -/

theorem dmaRun_of_no_bank {n : Nat} (op : Nat) (act : List Byte → State → State) {s : State} (hst : (dc s n).st = .run)
    (hxfer : (dc s n).xfer = false) (hheld : (dc s n).held = false)
    (hon : sramOn s ((rd s (R.DMA_DCn_APTR n)).toNat + 16 * (dc s n).pc) 16 = false) :
    dmaRun n op act s = dmaFail n 0x11 (errAddr n ((rd s (R.DMA_DCn_APTR n)).toNat + 16 * (dc s n).pc) s) := by
  unfold dmaRun
  dsimp only
  rw [if_neg (by simp [hst, hxfer, hheld]), if_pos (by simp [hon])]

theorem dmaRun_of_invalid {n : Nat} (op : Nat) (act : List Byte → State → State) {s : State} (hst : (dc s n).st = .run)
    (hxfer : (dc s n).xfer = false) (hheld : (dc s n).held = false)
    (hon : sramOn s ((rd s (R.DMA_DCn_APTR n)).toNat + 16 * (dc s n).pc) 16 = true)
    (hvalid : instValid (sramRead s ((rd s (R.DMA_DCn_APTR n)).toNat + 16 * (dc s n).pc) 16) = false) :
    dmaRun n op act s = dmaFail n 0x10 (marchYield ((rd s (R.DMA_DCn_APTR n)).toNat + 16 * (dc s n).pc) 16 (fetchTurn n s)) := by
  unfold dmaRun
  dsimp only
  rw [if_neg (by simp [hst, hxfer, hheld]), if_neg (by simp [hon]), if_pos (by simp [hvalid])]

theorem instValid_of_unknown {i : List Byte} (h : 0x0E ≤ ib i 0) : instValid i = false := by
  unfold instValid
  split
  case h_15 => rfl
  all_goals omega

theorem srcSide_running (n : Nat) (i : List Byte) (s : State) : srcSide (running n i s) n = srcSide s n := by
  have side {o : Nat} (h : R.DMA_DCn_STAT n ≤ o) := rd_running n i s h
  unfold srcSide rd64 fld
  rw [side (o := R.DMA_DCn_SBASE_LO n), side (o := R.DMA_DCn_SBASE_HI n), side (o := R.DMA_DCn_SPATR n), side (o := R.DMA_DCn_SROWS n),
    side (o := R.DMA_DCn_SSTRIDE n)]
  all_goals exact Nat.add_le_add_right (by decide) _

theorem dstSide_running (n : Nat) (i : List Byte) (s : State) : dstSide (running n i s) n = dstSide s n := by
  have side {o : Nat} (h : R.DMA_DCn_STAT n ≤ o) := rd_running n i s h
  unfold dstSide rd64 fld
  rw [side (o := R.DMA_DCn_DBASE_LO n), side (o := R.DMA_DCn_DBASE_HI n), side (o := R.DMA_DCn_DPATR n), side (o := R.DMA_DCn_DROWS n),
    side (o := R.DMA_DCn_DSTRIDE n)]
  all_goals exact Nat.add_le_add_right (by decide) _

theorem sides_running (n : Nat) (i : List Byte) (s : State) :
    ((dc (running n i s) n).srcSet && (dc (running n i s) n).spatSet && (dc (running n i s) n).dstSet && (dc (running n i s) n).dpatSet) =
      ((dc s n).srcSet && (dc s n).spatSet && (dc s n).dstSet && (dc s n).dpatSet) := by
  obtain ⟨_, e⟩ := dc_running n i s
  rw [e]

theorem xferStart_incomplete {n : Nat} {s : State}
    (h : ((dc s n).srcSet && (dc s n).spatSet && (dc s n).dstSet && (dc s n).dpatSet) = false) : xferStart n s = dmaFail n 0x10 s :=
  if_pos (by rw [h]; rfl)

theorem xferStart_complete {n : Nat} {s : State}
    (h : ((dc s n).srcSet && (dc s n).spatSet && (dc s n).dstSet && (dc s n).dpatSet) = true) :
    xferStart n s = if (srcSide s n).total ≠ (dstSide s n).total ∨ 2 ^ 32 ≤ (srcSide s n).total then dmaFail n 0x14 s
      else dmaMove n (wr (R.DMA_DCn_XOFF n) 0 (modDma n (fun x => { x with xfer := true, iss := 0, hold := [], reads := [] }) s)) :=
  if_neg (by rw [h]; decide)

theorem dmaXfer_completes {ch : Fin 32} {i : List Byte} {s u : State} (h : fetched ch 0x05 i s) (hu : xferStart ch (running ch i s) = u) :
    Completes (.dmaXfer ch) s u :=
  hu ▸ instruction_completes (act := fun _ => xferStart ch) rfl h

/-- Settles O52: the instructions that wait for the program's writes go through `dmaOrdered`; a WAIT, a transfer and a failed fetch have
their own branches. -/
theorem programActs : Obligations.ProgramActs := by
  refine ⟨?wait, ?astray, ?signalled, ?satisfied, ?timeout, ?held, ?signal, ?wri, ?wriBad, ?cpl, ?swap, ?done, ?written, ?noBank, ?invalid,
    ?unknown, ?incomplete, ?unequal, ?xfer⟩
  case wait =>
    intro ch i s h hstray hholds
    have hstart : waitStart ch i (running ch i s) = modDma ch (fun x => { x with st := .wait, wtype := ib i 1 }) (running ch i s) := by
      unfold waitStart
      rw [if_neg (by simp [hstray]), if_neg (by simp [hholds])]
    exact hstart ▸ instruction_completes (act := waitStart ch) rfl h
  case astray =>
    intro ch i s h hstray
    have hstart : waitStart ch i (running ch i s) = dmaFail ch 0x16 (running ch i s) := if_pos hstray
    exact hstart ▸ instruction_completes (act := waitStart ch) rfl h
  case signalled =>
    rintro ch i s rfl hst hlt hstray htype hcount
    rw [← waitOver_signal htype hlt]
    exact completes_of (dmaWaitSatisfied_exec hst hstray (by rw [waitHolds_signal _ _ htype]; exact decide_eq_true hcount))
  case satisfied =>
    rintro ch i s rfl hst hlt hstray htype hholds
    rw [← waitOver_condition htype hlt]
    exact completes_of (dmaWaitSatisfied_exec hst hstray hholds)
  case timeout =>
    rintro ch i s rfl hst hlimit hholds
    exact completes_of (congrArg finish (if_neg (by simp [hst, hlimit, hholds])))
  case held =>
    intro ch pins i s h hw hop
    simp only [List.mem_cons, List.not_mem_nil, or_false] at hop
    rcases hop with e | e | e | e | e <;> rw [e] at h ⊢ <;> exact ordered_holds rfl h hw
  case signal => exact fun ch i s h hw hcount => ordered_completes rfl h hw (by rw [dmaAct_signal _ h, if_neg hcount])
  case wri => exact fun ch pins i s h hw hok => ordered_completes rfl h hw (by rw [dmaAct_wri _ h, if_pos hok])
  case wriBad => exact fun ch pins i s h hw hok => ordered_completes rfl h hw (by rw [dmaAct_wri _ h, if_neg (by simp [hok])])
  case cpl => exact fun ch i s h hw => ordered_completes rfl h hw (dmaAct_cpl _ h)
  case swap => exact fun ch i s h hw hcpl => ordered_completes rfl h hw (by rw [dmaAct_swap _ h, hcpl]; rfl)
  case done =>
    intro ch i s h hw hcpl harm hrecs
    obtain ⟨_, e⟩ := dc_running ch i s
    exact ordered_completes rfl h hw (by rw [dmaAct_end _ h, hcpl, dmaClose_end _ (by rw [e]; exact harm) (by rw [e]; exact hrecs)])
  case written =>
    intro ch e s s0 h0
    refine ⟨fun hheld => completes_of ?_, fun hheld hhost hrun => completes_of ?_⟩
    · rw [dmaWriteComplete_exec ch e h0, if_neg (by simp [hheld])]
    · rw [dmaWriteComplete_exec ch e h0, if_pos (by simp [hheld, hhost, hrun])]
  case noBank => exact fun n op act s hst hxfer hheld hon => dmaRun_of_no_bank op act hst hxfer hheld hon
  case invalid =>
    rintro n op act a s hst hxfer hheld rfl hon hvalid
    exact dmaRun_of_invalid op act hst hxfer hheld hon hvalid
  case unknown => exact fun i h => instValid_of_unknown h
  case incomplete =>
    exact fun ch i s h hset => dmaXfer_completes h (xferStart_incomplete (by rw [sides_running]; exact hset))
  case unequal =>
    intro ch i s h hset htotal
    refine dmaXfer_completes h ?_
    rw [xferStart_complete (by rw [sides_running]; exact hset), srcSide_running, dstSide_running, if_pos htotal]
  case xfer =>
    intro ch i s h hset htotal hmax
    refine dmaXfer_completes h ?_
    rw [xferStart_complete (by rw [sides_running]; exact hset), srcSide_running, dstSide_running, if_neg (by omega)]

end Sys2Proof.Program
end

section
/-!
PROOFS. Completion queues, signals and the shadow set of a DMA channel (spec/15_dma.md R463 to R470, R473).
-/
namespace Sys2Proof.Machine

/-- A host write to a register of BAR0 through an open window completes with its effect. -/
theorem bar0Write_completes {c : Instr} {off : Nat} {f : State → State} {s u : State} (hc : exec c s = finish (viaBar0 off f s))
    (hopen : windowOpen s 0 off true = true) (h : f (hostAccess s) = u) : Completes c s u :=
  completes_of (hc.trans (congrArg finish ((viaBar0_open _ _ s hopen).trans h)))

/-! ## Signals -/

theorem sigRaiseWrite_add (sg : Fin 64) (count : Byte) (s : State) :
    sigRaiseWrite (BitVec.ofNat 32 (sg.val + 256 * count.toNat)) s = raiseSig sg count.toNat s := by
  have hop : bits (BitVec.ofNat 32 (sg.val + 256 * count.toNat)) 6 6 = 0 := by rw [bits_ofNat _ (by decide) (by decide)]; omega
  have hsg : bits (BitVec.ofNat 32 (sg.val + 256 * count.toNat)) 5 0 = sg := by rw [bits_ofNat _ (by decide) (by decide)]; omega
  have hcount : bits (BitVec.ofNat 32 (sg.val + 256 * count.toNat)) 15 8 = count.toNat := by rw [bits_ofNat _ (by decide) (by decide)]; omega
  unfold sigRaiseWrite
  rw [hop, hsg, hcount, if_neg (by decide)]

theorem sigRaiseWrite_set (sg : Fin 64) (count : Byte) (s : State) :
    sigRaiseWrite (BitVec.ofNat 32 (sg.val + 64 + 256 * count.toNat)) s = sigPut sg count.toNat s := by
  have hop : bits (BitVec.ofNat 32 (sg.val + 64 + 256 * count.toNat)) 6 6 = 1 := by rw [bits_ofNat _ (by decide) (by decide)]; omega
  have hsg : bits (BitVec.ofNat 32 (sg.val + 64 + 256 * count.toNat)) 5 0 = sg := by rw [bits_ofNat _ (by decide) (by decide)]; omega
  have hcount : bits (BitVec.ofNat 32 (sg.val + 64 + 256 * count.toNat)) 15 8 = count.toNat := by rw [bits_ofNat _ (by decide) (by decide)]; omega
  unfold sigRaiseWrite
  rw [hop, hsg, hcount, if_pos rfl]

/-- The 16 registers of DMA_SIGCNT store each of the four counts that they hold. -/
theorem sigCnt_stored (sg : Fin 64) : bits (regStored (R.DMA_SIGCNT (sg / 4))) (8 * (sg % 4) + 7) (8 * (sg % 4)) = 2 ^ 8 - 1 := by
  have hreg : ∀ k : Fin 16, regStored (R.DMA_SIGCNT k) = ~~~(0 : Word) := by decide
  have hbits : ∀ k : Fin 4, bits (~~~(0 : Word)) (8 * k + 7) (8 * k) = 2 ^ 8 - 1 := by decide
  have h := hreg ⟨sg / 4, by omega⟩
  have k := hbits ⟨sg % 4, by omega⟩
  dsimp only at h k
  rw [h, k]

theorem sigCount_of_regs {s t : State} (h : t.regs = s.regs) (sg : Nat) : sigCount t sg = sigCount s sg := by
  simp only [sigCount, fld, rd, h]

theorem sigPut_regs (sg v : Nat) (s : State) : (sigPut sg v s).regs = (setF (R.DMA_SIGCNT (sg / 4)) (8 * (sg % 4) + 7) (8 * (sg % 4)) v s).regs := by
  unfold sigPut
  dsimp only
  split <;> rfl

theorem sigCount_sigPut_self {sg : Fin 64} {v : Nat} {s : State} (hs : s.regsWf) (hv : v < 256) : sigCount (sigPut sg v s) sg = v := by
  rw [sigCount_of_regs (sigPut_regs sg v s)]
  have hw : 8 * (sg.val % 4) + 7 + 1 - 8 * (sg.val % 4) = 8 := by omega
  have h := fld_setF s (R.DMA_SIGCNT (sg / 4)) v hs (hi := 8 * (sg % 4) + 7) (lo := 8 * (sg % 4)) (by omega) (by omega)
    (by rw [hw]; exact sigCnt_stored sg)
  rw [hw] at h
  exact h.trans (Nat.mod_eq_of_lt hv)

theorem sigCount_sigPut_of_ne {sg g : Fin 64} {v : Nat} {s : State} (hs : s.regsWf) (hne : g ≠ sg) :
    sigCount (sigPut sg v s) g = sigCount s g := by
  rw [sigCount_of_regs (sigPut_regs sg v s)]
  have hval : g.val ≠ sg.val := Fin.val_ne_of_ne hne
  unfold sigCount
  by_cases hreg : g.val / 4 = sg.val / 4
  · have hw : 8 * (g.val % 4) + 7 + 1 - 8 * (g.val % 4) = 8 := by omega
    rw [hreg]
    refine fld_setF_of_disjoint s _ v hs (by omega) (by omega) (by omega) ?_
    rw [hw, ← hreg]
    exact sigCnt_stored g
  · unfold fld setF
    rw [rd_wr_of_ne _ _ (by unfold R.DMA_SIGCNT; omega)]

theorem sigCount_sigSatCount (sg : Nat) (s : State) (g : Nat) : sigCount (sigSatCount sg s) g = sigCount s g := by
  unfold sigSatCount
  split
  · rfl
  · unfold sigCount fld
    rw [incF, setF, rd_wr_of_ne _ _ (by unfold R.DMA_SIGCNT R.DMA_SIGSAT; omega)]
    rfl

theorem sigCount_sigAdd {sg : Fin 64} (n : Nat) {s : State} (hs : s.regsWf) : sigCount (sigAdd sg n s) sg = min 255 (sigCount s sg + n) := by
  unfold sigAdd
  dsimp only
  split
  · rw [sigCount_sigPut_self hs (by omega)]
    omega
  · have hsat : sigCount (sigSatCount sg (sigPut sg 255 s)) sg = 255 := by
      rw [sigCount_sigSatCount, sigCount_sigPut_self hs (by decide)]
    have hmin : min 255 (sigCount s sg + n) = 255 := by omega
    rw [hmin]
    split <;> exact hsat

/-! ## Queues and the shadow set -/

theorem cqRoom_iff (s : State) (q : Nat) : cqRoom s q = true ↔ fld s (R.DMA_CQn_CFG q) 0 0 = 1 ∧
    (fld s (R.DMA_CQn_TAIL q) 15 0 + 1) % 2 ^ fld s (R.DMA_CQn_CFG q) 8 4 ≠ fld s (R.DMA_CQn_HEAD q) 15 0 ∧
    (fld s (R.DMA_CQn_CFG q) 1 1 = 1 → sramOn s (cqNext s q) 32 = true) := by
  have hspace : fld s (R.DMA_CQn_CFG q) 1 1 < 2 := bits_lt ..
  have hcase : fld s (R.DMA_CQn_CFG q) 1 1 = 0 ∨ fld s (R.DMA_CQn_CFG q) 1 1 = 1 := by omega
  unfold cqRoom cqTail cqSize
  rcases hcase with h | h <;> simp [h, and_assoc]

theorem shadowRegisterWrite_completes {n : Fin 32} {rel : BitVec 8} {v : Word} {s u : State} (hshadow : isShadow rel.toNat = true)
    (hopen : windowOpen s 0 (R.DMA_DCn_STAT n + rel.toNat) true = true) (h : shadowWrite n rel.toNat v (hostAccess s) = u) :
    Completes (.shadowRegisterWrite n rel v) s u :=
  completes_of (congrArg finish ((if_pos hshadow).trans ((viaBar0_open _ _ s hopen).trans h)))

/-- Settles O54: the queues and the timers by their guards, a signal's count by the field that holds it. -/
theorem queuesAndSignals : Obligations.QueuesAndSignals := by
  refine ⟨?release, ?full, ?irq, ?head, ?add, ?set, ?put, ?room, ?sum, ?shadow, ?busy⟩
  case release => exact fun n s h => completes_of (congrArg finish (if_pos h))
  case full => exact fun n s h => completes_of (congrArg finish (if_neg (by simp [h])))
  case irq => exact fun q s hon hsince => completes_of (congrArg finish (if_pos ⟨hon, hsince⟩))
  case head => exact fun q head s hopen => bar0Write_completes rfl hopen rfl
  case add => exact fun sg count s hopen => bar0Write_completes rfl hopen (sigRaiseWrite_add sg count _)
  case set => exact fun sg count s hopen => bar0Write_completes rfl hopen (sigRaiseWrite_set sg count _)
  case put => exact fun sg v s hs hv => ⟨sigCount_sigPut_self hs hv, fun g hne => sigCount_sigPut_of_ne hs hne⟩
  case room => exact fun q s => cqRoom_iff s q
  case sum => exact fun sg n s hs => sigCount_sigAdd n hs
  case shadow =>
    intro n rel v s hshadow hopen harm
    exact shadowRegisterWrite_completes hshadow hopen (if_neg (by rw [show (dc (hostAccess s) n).arm = false from harm]; decide))
  case busy =>
    exact fun n rel v s hshadow hopen harm => shadowRegisterWrite_completes hshadow hopen (if_pos harm)

end Sys2Proof.Machine
end

section
/-!
PROOFS. The commands of a DMA channel: their table, and their effect where they are accepted (spec/15_dma.md R471, R475 to R478, R483).
-/
namespace Sys2Proof.Machine

/-! ## The table -/

theorem dmaTable_of_early {n cmd : Nat} {s : State} (hcmd : 1 ≤ cmd ∧ cmd ≤ 8) (h : gnum s < 5) : dmaTable s n cmd = 2 := by
  unfold dmaTable
  dsimp only
  rw [if_neg (by omega), if_pos h]

/-- PAUSE, DRAIN, ABORT, ARM and DISARM are accepted in every state of the channel from IDLE on. -/
theorem dmaTable_of_any {n cmd : Nat} {s : State} (hcmd : cmd ∈ [2, 3, 5, 6, 7]) (h : 5 ≤ gnum s) : dmaTable s n cmd = 1 := by
  have hne : cmd ≠ 1 ∧ cmd ≠ 4 ∧ cmd ≠ 8 ∧ ¬(cmd = 0 ∨ 8 < cmd) := by
    simp only [List.mem_cons, List.not_mem_nil, or_false] at hcmd
    omega
  obtain ⟨hstart, hresume, hclear, hknown⟩ := hne
  unfold dmaTable
  dsimp only
  rw [if_neg hknown, if_neg (Nat.not_lt.2 h), if_neg (by simp [hstart, hresume]), if_neg hstart, if_neg hresume, if_neg hclear]

theorem dmaTable_clrerr {n : Nat} {s : State} (h : 5 ≤ gnum s) (hst : (dc s n).st = .error) : dmaTable s n 8 = 1 := by
  unfold dmaTable
  simp [Nat.not_lt.2 h, hst]

theorem dmaTable_start_idle {n : Nat} {s : State} (h : 5 ≤ gnum s) (hhold : s.glb.state ≠ .safeHold) (hup : s.glb.state ≠ .shutdown)
    (hst : (dc s n).st = .idle) : dmaTable s n 1 = if (dc s n).arm then 1 else 5 := by
  unfold dmaTable
  simp [Nat.not_lt.2 h, hhold, hup, hst]

theorem dmaTable_held {n cmd : Nat} {s : State} (h : 5 ≤ gnum s) (hhold : s.glb.state = .safeHold ∨ s.glb.state = .shutdown)
    (hcmd : cmd = 1 ∨ cmd = 4) : dmaTable s n cmd = 2 := by
  unfold dmaTable
  dsimp only
  rw [if_neg (by omega), if_neg (Nat.not_lt.2 h), if_pos ⟨hhold, hcmd⟩]

/-! ## The effects -/

/-- What an accepted command does after its status word, by the state in which it finds the channel. -/
def channelAct (n cmd : Nat) (s s1 : State) : State :=
  if cmd = 1 then (if (dc s n).st = .idle then dmaStart n s1 else s1)
  else if cmd = 2 then dmaPause 1 0 n s1
  else if cmd = 3 then dmaDrain n s1
  else if cmd = 4 then (if (dc s n).st = .paused then dmaResume n s1 else s1)
  else if cmd = 5 then dmaAbort n s1
  else if cmd = 6 then modDma n (fun x => { x with arm := true, swapped := false }) s1
  else if cmd = 7 then modDma n (fun x => { x with arm := false }) s1
  else modDma n (fun x => { x with st := .idle }) s1

theorem dmaCmd_accepted {n cmd : Nat} {s : State} (hoff : s.glb.state ≠ .off) (h : dmaTable s n cmd = 1) :
    dmaCmd n cmd s = channelAct n cmd s (dmaResult n cmd 1 s) := by
  unfold dmaCmd
  rw [if_neg hoff, h]
  rfl

theorem dmaCmd_refused {n cmd res : Nat} {s : State} (hoff : s.glb.state ≠ .off) (h : dmaTable s n cmd = res) (hres : res ≠ 1) :
    dmaCmd n cmd s = dmaResult n cmd res s := by
  unfold dmaCmd
  rw [if_neg hoff, h]
  exact if_pos hres

theorem dmaCmd_completes {c : Instr} {n : Fin 32} {cmd : Nat} {s u : State} (hc : exec c s = finish (viaBar0 (R.DMA_DCn_CMD n) (dmaCmd n cmd) s))
    (hopen : windowOpen s 0 (R.DMA_DCn_CMD n) true = true) (h : dmaTable (hostAccess s) n cmd = 1)
    (hu : channelAct n cmd (hostAccess s) (dmaResult n cmd 1 (hostAccess s)) = u) : Completes c s u :=
  bar0Write_completes hc hopen ((dmaCmd_accepted (s := hostAccess s) (ne_off_of_windowOpen hopen) h).trans hu)

theorem dmaCmd_completes_refused {c : Instr} {n : Fin 32} {cmd : Nat} {s : State}
    (hc : exec c s = finish (viaBar0 (R.DMA_DCn_CMD n) (dmaCmd n cmd) s)) (hopen : windowOpen s 0 (R.DMA_DCn_CMD n) true = true)
    (hcmd : 1 ≤ cmd ∧ cmd ≤ 8) (h : gnum (hostAccess s) < 5) : Completes c s (dmaResult n cmd 2 (hostAccess s)) :=
  bar0Write_completes hc hopen (dmaCmd_refused (s := hostAccess s) (ne_off_of_windowOpen hopen) (dmaTable_of_early hcmd h) (by decide))

theorem dc_dmaResult (n cmd res : Nat) (s : State) : dc (dmaResult n cmd res s) n = dc s n := by
  unfold dmaResult
  dsimp only
  split <;> rfl

theorem modDma_congr {n : Nat} {f g : Dma → Dma} {s : State} (h : f (dc s n) = g (dc s n)) : modDma n f s = modDma n g s :=
  congrArg (fun x => { s with dma := vset s.dma n x }) h

theorem vset_vset {α : Type} {n : Nat} [NeZero n] (v : Vector α n) (i : Nat) (x y : α) : vset (vset v i x) i y = vset v i y := by
  simp [vset]

theorem modDma_modDma (n : Nat) (f g : Dma → Dma) (s : State) : modDma n g (modDma n f s) = modDma n (fun x => g (f x)) s := by
  simp only [modDma, vmod, vat_vset_self, vset_vset]

theorem dmaPause_run {n : Nat} (cause after : Nat) {s : State} (h : (dc s n).st = .run) :
    dmaPause cause after n s = modDma n (fun x => { x with st := .pausing, was := .run, cause := cause, after := after }) s := by
  unfold dmaPause
  dsimp only
  rw [if_pos h, modDma_modDma]
  exact modDma_congr (by rw [h])

theorem dmaDrain_run {n : Nat} {s : State} (h : (dc s n).st = .run) :
    dmaDrain n s = modDma n (fun x => { x with st := .pausing, was := .run, cause := 2, after := 1 }) s := by
  unfold dmaDrain
  dsimp only
  rw [if_pos h, modDma_modDma]

/-- Settles O55, command by command: the table, then the effect after the status word. -/
theorem channelCommands : Obligations.ChannelCommands := by
  refine ⟨?start, ?pause, ?drain, ?resume, ?abort, ?arm, ?disarm, ?clrerr, ?early, ?notArmed, ?held⟩
  case start =>
    rintro n s u hopen rfl htable hst
    exact dmaCmd_completes (cmd := 1) rfl hopen htable ((if_pos rfl).trans (if_pos hst))
  case pause =>
    rintro n s u hopen rfl hidle hst
    exact dmaCmd_completes rfl hopen (dmaTable_of_any (by decide) hidle) (dmaPause_run 1 0 (by rwa [dc_dmaResult]))
  case drain =>
    rintro n s u hopen rfl hidle hst
    exact dmaCmd_completes rfl hopen (dmaTable_of_any (by decide) hidle) (dmaDrain_run (by rwa [dc_dmaResult]))
  case resume =>
    rintro n s u hopen rfl htable hst
    exact dmaCmd_completes (cmd := 4) rfl hopen htable (show (if _ then _ else _) = _ from if_pos hst)
  case abort =>
    rintro n s u hopen rfl hidle -
    exact dmaCmd_completes rfl hopen (dmaTable_of_any (by decide) hidle) rfl
  case arm =>
    rintro n s u hopen rfl hidle
    exact dmaCmd_completes rfl hopen (dmaTable_of_any (by decide) hidle) rfl
  case disarm =>
    rintro n s u hopen rfl hidle
    exact dmaCmd_completes rfl hopen (dmaTable_of_any (by decide) hidle) rfl
  case clrerr =>
    rintro n s u hopen rfl hidle hst
    exact dmaCmd_completes rfl hopen (dmaTable_clrerr hidle hst) rfl
  case early =>
    rintro n s u hopen rfl - hearly
    exact ⟨dmaCmd_completes_refused rfl hopen (by decide) hearly, dmaCmd_completes_refused rfl hopen (by decide) hearly,
      dmaCmd_completes_refused rfl hopen (by decide) hearly, dmaCmd_completes_refused rfl hopen (by decide) hearly,
      dmaCmd_completes_refused rfl hopen (by decide) hearly, dmaCmd_completes_refused rfl hopen (by decide) hearly,
      dmaCmd_completes_refused rfl hopen (by decide) hearly, dmaCmd_completes_refused rfl hopen (by decide) hearly⟩
  case notArmed => exact fun n s hidle hhold hup hst => dmaTable_start_idle hidle hhold hup hst
  case held => exact fun n s hidle hhold => ⟨dmaTable_held hidle hhold (.inl rfl), dmaTable_held hidle hhold (.inr rfl)⟩

end Sys2Proof.Machine
end

section
/-!
PROOFS. The data path of a DMA transfer: the reads and their ends, the lengths of the requests, the order of a port, and the end of a pause
(spec/15_dma.md R456, R457, R475, R482).
-/
namespace Sys2Proof.Machine

/-! ## The end of a read -/

theorem dmaReadCompletion_exec {n k : Fin 32} {i : Nat} (e : DmaReadEnd) {s : State} (h : outAt (dc s n).reads k = some i) :
    exec (.dmaReadCompletion n k e) s = finish (readEnd n i e s) := by
  refine congrArg finish ?_
  rw [h]

theorem hostReadTimeout_exec {n k : Fin 32} {i : Nat} {s : State} (h : outAt (dc s n).reads k = some i) (hspace : (srcSide s n).space = 0) :
    exec (.hostReadTimeout n k) s = finish (readDone n i (.error 0x12) s) := by
  refine congrArg finish ?_
  rw [h]
  exact if_pos hspace

section
variable {n i : Nat} {r : DmaRead} {s : State} (hr : (dc s n).reads[i]? = some r) (hnone : r.data = none)
include hr hnone

theorem readDone_ok (d : List Byte) : readDone n i (.ok d) s =
    dmaMove n (modDma n (fun x => { x with reads := x.reads.set i { r with data := some (slice d 0 r.len) } }) s) := by
  unfold readDone
  rw [hr]
  dsimp only
  rw [hnone]
  rfl

/-- A read that fails first gives the transfer its status, and its address is recorded (R457). -/
theorem readDone_error (status : Nat) (hfail : (dc s n).fail = none) : readDone n i (.error status) s =
    dmaMove n (modDma n (fun x => { x with fail := some status }) (errAddr n r.addr
      (modDma n (fun x => { x with reads := x.reads.set i { r with data := some [] } }) s))) := by
  unfold readDone
  rw [hr]
  dsimp only
  rw [hnone, dc_modDma, hfail]
  rfl

end

theorem portTurn_of_stop {port fuel : Nat} {stop : State → Bool} {s : State} (h : stop s = true) : portTurn port stop fuel s = s := by
  cases fuel with
  | zero => rfl
  | succ fuel => exact if_pos h

theorem isServed_of_got {n i : Nat} {r : DmaRead} {bs : List Byte} {s : State} (hr : (dc s n).reads[i]? = some r) (hgot : r.got = some bs) :
    isServed n i s = true := by
  unfold isServed
  rw [hr]
  dsimp only
  rw [hgot]
  rfl

/-- A read of the SRAM that the bank has served ends with the bytes that it gave, and fails where they are too few (R457, R491). -/
theorem readEnd_sram {n i : Nat} {r : DmaRead} {bs : List Byte} {s : State} (e : DmaReadEnd) (hr : (dc s n).reads[i]? = some r)
    (hspace : (srcSide s n).space = 1) (hgot : r.got = some bs) :
    readEnd n i e s = if bs.length ≠ r.len then readDone n i (.error 0x11) s else readDone n i (.ok bs) s := by
  have own (errs : List EccErr) : ownEnd 1 n i errs s = if bs.length ≠ r.len then readDone n i (.error 0x11) s else readDone n i (.ok bs) s := by
    unfold ownEnd
    dsimp only
    rw [portTurn_of_stop (isServed_of_got hr hgot), hr]
    dsimp only
    rw [hgot]
    rfl
  unfold readEnd
  dsimp only
  rw [hspace]
  cases e <;> exact own _

theorem serveRead_sram {n j : Nat} {r : DmaRead} {s : State} (hj : (dc s n).unserved = some j) (hr : (dc s n).reads[j]? = some r)
    (hon : sramOn s r.addr r.len = true) : serveRead 1 n s = tookTurn 1 n (modDma n (fun x => { x with
      reads := x.reads.set j { r with got := some (sramRead s r.addr r.len) } }) (marchYield r.addr r.len s)) := by
  have hreach : dmaReach s 1 r.addr r.len = true := hon
  unfold serveRead
  rw [hj]
  dsimp only
  rw [hr]
  dsimp only
  rw [hreach]
  rfl

theorem outAt_outstanding {r : DmaRead} (rs : List DmaRead) (k : Nat) (h : r.data = none) :
    outAt (r :: rs) 0 = some 0 ∧ outAt (r :: rs) (k + 1) = (outAt rs k).map (· + 1) := by
  simp [outAt, h]

theorem outAt_complete {r : DmaRead} (rs : List DmaRead) (k : Nat) (h : r.data ≠ none) : outAt (r :: rs) k = (outAt rs k).map (· + 1) := by
  cases k <;> simp [outAt, Option.isSome_iff_ne_none.2 h]

/-! ## The order of a port (R482) -/

/-- The channels in the order in which a port takes them within one priority, from the one after the channel served last. -/
def portOrder (s : State) (port : Nat) : List Nat := (List.range 32).map (fun k => (vat s.dmaTurn port + 1 + k) % 32)

theorem portPick_eq (s : State) (port : Nat) (ask : Nat → Bool) : portPick s port ask =
    ((portOrder s port).find? (fun n => ask n && fld s (R.DMA_DCn_CFG n) 5 5 = 1)).or ((portOrder s port).find? ask) := rfl

theorem mem_portOrder {m : Nat} (s : State) (port : Nat) (h : m < 32) : m ∈ portOrder s port := by
  refine List.mem_map.2 ⟨(m + 32 - (vat s.dmaTurn port + 1) % 32) % 32, List.mem_range.2 (Nat.mod_lt _ (by decide)), ?_⟩
  omega

theorem portPick_some {s : State} {port : Nat} {ask : Nat → Bool} {n : Nat} (h : portPick s port ask = some n) :
    ask n = true ∧ (fld s (R.DMA_DCn_CFG n) 5 5 = 1 ∨ ∀ m < 32, ask m = true → fld s (R.DMA_DCn_CFG m) 5 5 ≠ 1) := by
  rw [portPick_eq, Option.or_eq_some_iff] at h
  rcases h with h | ⟨hnone, h⟩
  · have hn := List.find?_some h
    simp only [Bool.and_eq_true, decide_eq_true_eq] at hn
    exact ⟨hn.1, .inl hn.2⟩
  · refine ⟨List.find?_some h, .inr fun m hm hask hprio => ?_⟩
    have := List.find?_eq_none.1 hnone m (mem_portOrder s port hm)
    simp [hask, hprio] at this

theorem portPick_next {s : State} {port : Nat} {ask : Nat → Bool} (hask : ask ((vat s.dmaTurn port + 1) % 32) = true)
    (hprio : fld s (R.DMA_DCn_CFG ((vat s.dmaTurn port + 1) % 32)) 5 5 = 1) :
    portPick s port ask = some ((vat s.dmaTurn port + 1) % 32) := by
  have hcons : portOrder s port = (vat s.dmaTurn port + 1) % 32 :: (List.range 31).map (fun k => (vat s.dmaTurn port + 1 + (k + 1)) % 32) := by
    unfold portOrder
    rw [List.range_succ_eq_map, List.map_cons, List.map_map]
    rfl
  rw [portPick_eq, hcons, List.find?_cons_of_pos (by simp [hask, hprio])]
  rfl

/-! ## Lengths of requests (R456) -/

theorem DmaSide.len_pos {x : DmaSide} {i m b : Nat} (hacnt : 0 < x.acnt) (hb : 0 < b) (hm : 0 < m) : 0 < x.len i m b := by
  have := Nat.mod_lt (x.addr i) hb
  have := Nat.mod_lt i hacnt
  unfold DmaSide.len
  omega

/-- A request ends within its block of `b` bytes and within its row. -/
theorem DmaSide.len_within {x : DmaSide} {i m b k : Nat} (h : k < x.len i m b) : x.addr i % b + k < b ∧ i % x.acnt + k < x.acnt := by
  unfold DmaSide.len at h
  omega

/-! ## The end of a pause -/

theorem pauseDone_of_not_due {n : Nat} {s : State} (h : (dc s n).st ≠ .pausing ∨ (dc s n).outstanding ≠ 0) : pauseDone n s = s := if_pos h

theorem dmaStore_of_no_hold (all : Bool) (fuel : Nat) {n : Nat} {s : State} (h : (dc s n).hold = []) : dmaStore all fuel n s = s := by
  cases fuel with
  | zero => rfl
  | succ fuel =>
    unfold dmaStore
    simp [h]

theorem pauseDone_of_empty {n : Nat} {s : State} (hst : (dc s n).st = .pausing) (hout : (dc s n).outstanding = 0) (hafter : (dc s n).after = 0)
    (hhold : (dc s n).hold = []) (hfail : (dc s n).fail = none) :
    pauseDone n s = dmaPaused n (modDma n (fun x => { x with reads := [], hold := [], iss := (rd s (R.DMA_DCn_XOFF n)).toNat }) s) := by
  unfold pauseDone
  dsimp only
  rw [if_neg (by simp [hst, hout]), if_neg (by simp [hafter]), dmaStore_of_no_hold _ _ hhold, hfail, hafter]
  rfl

/-- Settles O53: a read's end by its space, a port's order by the list that it searches, a request's length by its three bounds. -/
theorem transferProceeds : Obligations.TransferProceeds := by
  refine ⟨?host, ?timeout, ?sram, ?short, ?serve, ?outAt, ?pick, ?next, ?paused, ?notDue, ?bound, ?within⟩
  case host =>
    intro n k i d r s hout hr hnone hspace
    rw [← readDone_ok hr hnone d]
    exact completes_of ((dmaReadCompletion_exec _ hout).trans (congrArg finish (if_pos hspace)))
  case timeout =>
    intro n k i r s hout hr hnone hspace hfail
    rw [← readDone_error hr hnone 0x12 hfail]
    exact completes_of (hostReadTimeout_exec hout hspace)
  case sram =>
    intro n k i e r bs s hout hr hnone hspace hgot hlen
    rw [← readDone_ok hr hnone bs]
    exact completes_of ((dmaReadCompletion_exec _ hout).trans (congrArg finish ((readEnd_sram e hr hspace hgot).trans (if_neg (not_not.2 hlen)))))
  case short =>
    intro n k i e r bs s hout hr hnone hspace hgot hlen hfail
    rw [← readDone_error hr hnone 0x11 hfail]
    exact completes_of ((dmaReadCompletion_exec _ hout).trans (congrArg finish ((readEnd_sram e hr hspace hgot).trans (if_pos hlen))))
  case serve => exact fun n j r s hj hr hon => serveRead_sram hj hr hon
  case outAt => exact fun r rs k => ⟨outAt_outstanding rs k, outAt_complete rs k⟩
  case pick => exact fun s port ask n h => portPick_some h
  case next =>
    rintro s port ask m rfl hask hprio
    exact portPick_next hask hprio
  case paused =>
    exact fun n s hst hout hafter hhold hfail => completes_of (congrArg finish (pauseDone_of_empty hst hout hafter hhold hfail))
  case notDue => exact fun n s h => completes_of (congrArg finish (pauseDone_of_not_due h))
  case bound =>
    exact fun x i m b hacnt hb => ⟨(Nat.min_le_left ..).trans (Nat.min_le_left ..), Nat.min_le_right .., DmaSide.len_pos hacnt hb⟩
  case within => exact fun x i m b k _ _ h => DmaSide.len_within h

end Sys2Proof.Machine
end

section
/-!
PROOFS. The event ring's tail, and the counts of the occurrences of flags (spec/17_host_control.md R522, R523, R525, R527, R530).
-/
namespace Sys2Proof.Machine

/-! ## The tail of the ring -/

/-- What O10 says of the tail holds wherever HST_EVCFG.k is at most 16, as every write of HST_EVCFG leaves it (R530). -/
theorem evTail_evSend {e : Event} {s : State} (hs : s.regsWf) (hrun : evRunning s = true) (hqueue : s.hst.queue = []) (hroom : evRoom s = true)
    (hspace : fld s R.HST_EVCFG 1 1 = 0) (hirq : fld s R.HST_EVCFG 2 2 = 0) (hk : fld s R.HST_EVCFG 12 8 ≤ 16) :
    fld (evSend e s) R.HST_EVTAIL 15 0 = (fld s R.HST_EVTAIL 15 0 + 1) % evSize s := by
  have hon : s.hst.everEnabled = true ∧ s.hst.bme = true := by
    simp only [evRunning, Bool.and_eq_true] at hrun
    exact ⟨hrun.1.1.1, hrun.2⟩
  have hsend : evSend e s = evWrite e s := by simp [evSend, hon.1, hrun, hqueue, hroom]
  have hsize : (fld s R.HST_EVTAIL 15 0 + 1) % evSize s < 2 ^ 16 :=
    (Nat.mod_lt _ (Nat.two_pow_pos _)).trans_le (Nat.pow_le_pow_right (by decide) hk)
  have hregs : (postWrite 0 (rd64 s R.HST_EVBASE_LO R.HST_EVBASE_HI + 32 * fld s R.HST_EVTAIL 15 0) e.bytes s).regs = s.regs := by
    simp [postWrite, hostWrite, toHost, hon.2]
  rw [hsend]
  unfold evWrite
  dsimp only
  rw [hspace, if_neg (by simp [hirq])]
  change fld (setF R.HST_EVTAIL 15 0 _ (postWrite 0 _ _ s)) R.HST_EVTAIL 15 0 = _
  rw [fld_setF _ _ _ ?_ (by decide) (by decide) (by decide)]
  · exact Nat.mod_eq_of_lt hsize
  · simpa only [State.regsWf, hregs] using hs

/-- A ring that runs with HST_EVCFG.k = 17, and the tail at the last value that its field holds. -/
def oversizedRing : State :=
  { State.reset with regs := [(R.HST_EVCFG, 0x1101), (R.HST_EVTAIL, 0xFFFF)],
                     hst := { State.reset.hst with everEnabled := true, suspended := false, bme := true } }

/-- Refutes O10: the clause on the ring's entry is asked for every HST_EVCFG.k that the field can hold. With k = 17 the ring has 2^17 entries,
so that the entry after 0xFFFF is 0x10000, which the 16 bits of the tail do not hold. -/
theorem not_eventDelivery : ¬Obligations.EventDelivery := by
  intro h
  obtain ⟨-, -, hring, -⟩ := h
  have event := mkEvent Ev.HST_EVENT_LOST 0xFF 0 0 0 State.reset
  obtain ⟨-, htail⟩ := hring event oversizedRing (by decide) (by decide) rfl (by decide) (by decide) (by decide)
  have hnext : (fld oversizedRing R.HST_EVTAIL 15 0 + 1) % evSize oversizedRing = 2 ^ 16 := by decide
  have hfield : fld (evSend event oversizedRing) R.HST_EVTAIL 15 0 < 2 ^ 16 := bits_lt ..
  omega

/-! ## The counts of occurrences -/

/-- What O57 says of the selected count holds wherever the counts stand in order of their keys. -/
theorem occ_occClearSelected {s : State} (hs : s.hst.occ.Pairwise (fun a b => a.1 < b.1)) :
    occ (occClearSelected s) (occSelOff s) (occSelBit s) = 0 := by
  unfold occ occClearSelected
  rw [Sparse.get_set_self (fun _ => 0) _ _ _ hs]
  rfl

/-- A state in IDLE whose counts stand out of order: that of the selected flag comes after that of another. -/
def disorderedCounts : State :=
  { State.reset with glb := { State.reset.glb with state := .idle }, hst := { State.reset.hst with occ := [(1, 1), (0, 1)] } }

/-- Refutes O57: the clause on OCCCLR is asked of every state, without the order of the counts' keys. Where they stand out of order, the
write of 0 meets the greater key first and takes nothing out, so the selected count still reads 1. -/
theorem not_hostLink : ¬Obligations.HostLink := by
  intro h
  obtain ⟨-, -, -, -, -, -, -, -, -, -, -, -, -, -, -, -, -, -, -, -, -, -, -, -, -, -, hclear, -⟩ := h
  obtain ⟨t, e, hcount⟩ := hclear disorderedCounts (by decide)
  have ht : t = flush (occClearSelected (hostAccess disorderedCounts)) := (Host.Outcome.next.inj e).symm
  have hreads : occ t (occSelOff disorderedCounts) (occSelBit disorderedCounts) = 1 := by
    rw [ht, flush_still rfl]
    decide
  have := (hcount rfl).1
  omega

end Sys2Proof.Machine
end

section
/-!
PROOFS. The Lantern summary and the management view (spec/17_host_control.md R531, R532, R534).
-/
namespace Sys2Proof.Machine

/-! ## The length of the summary -/

@[simp] theorem length_leBytes (n v : Nat) : (leBytes n v).length = n := by
  induction n generalizing v with
  | zero => rfl
  | succ n ih => simp [leBytes, ih]

@[simp] theorem length_padTo (n : Nat) (bs : List Byte) : (padTo n bs).length = n := by
  simp only [padTo, slice, List.length_append, List.length_replicate, List.length_take]
  omega

@[simp] theorem length_instCopies (n size : Nat) (f : Nat → List Byte) : (instCopies n size f).length = size := length_padTo ..

theorem length_lanHead (s : State) (seq : Nat) : (lanHead s seq).length = 0x80 := by simp [lanHead]
theorem length_lanPrint (s : State) : (lanPrint s).length = 0x480 := by simp [lanPrint]
theorem length_lanDma (s : State) : (lanDma s).length = 0x600 := by simp [lanDma]
theorem length_lanMove (s : State) : (lanMove s).length = 0x600 := by simp [lanMove]
theorem length_lanTail (s : State) : (lanTail s).length = 0xEF8 := by simp [lanTail]

theorem length_lanBytes (s : State) (seq : Nat) : (lanBytes s seq).length = 8192 := by
  simp [lanBytes, length_lanHead, length_lanPrint, length_lanDma, length_lanMove, length_lanTail]

/-! ## LANTERN and the end of the write -/

theorem glbLantern_early {s : State} (h : gnum s < 5) : glbLantern s = (2, s) := if_pos h

theorem glbLantern_busy {s : State} (hlive : 5 ≤ gnum s) (hbusy : s.hst.lanBusy ≠ none) :
    glbLantern s = (1, { s with hst := { s.hst with lanPending := true } }) :=
  (if_neg (Nat.not_lt.2 hlive)).trans (if_pos (Option.isSome_iff_ne_none.2 hbusy))

theorem glbLantern_captures {s : State} (hlive : 5 ≤ gnum s) (hbusy : s.hst.lanBusy = none) (hbuffer : lanAstray s = false) :
    glbLantern s = (1, { s with hst := { s.hst with
      lanCount := s.hst.lanCount + 1, lanLast := lanBytes s (s.hst.lanCount + 1).toNat,
      lanBusy := some (s.hst.lanCount + 1, lanBytes s (s.hst.lanCount + 1).toNat) } }) := by
  unfold glbLantern
  rw [if_neg (Nat.not_lt.2 hlive), hbusy, if_neg (by decide)]
  exact congrArg (Prod.mk 1) (if_neg (by simp [hbuffer]))

theorem ne_off_of_gnum {s : State} (h : 5 ≤ gnum s) : s.glb.state ≠ .off := by
  intro hoff
  simp [gnum, hoff, GState.code] at h

theorem glbLantern_accepts {s u : State} (hlive : 5 ≤ gnum s) (h : glbLantern s = (1, u)) :
    Completes .glbLantern s (glbResult 7 1 (gnum s) u) := by
  refine completes_of (congrArg finish ?_)
  unfold glbRun
  rw [if_neg (ne_off_of_gnum hlive), h]
  rfl

section
variable {s : State} {q : Word} {b : List Byte} (hbusy : s.hst.lanBusy = some (q, b))
include hbusy

/-- A summary for host memory waits while Bus Master Enable is 0 (R513). -/
theorem lanDone_waits (hspace : fld s R.HST_LANCFG 0 0 = 0) (hbme : s.hst.bme = false) : lanDone s = s := by
  unfold lanDone
  rw [hbusy]
  exact if_pos ⟨hspace, by simp [hbme]⟩

theorem lanDone_writes (hspace : fld s R.HST_LANCFG 0 0 = 0) (hbme : s.hst.bme = true) (hirq : fld s R.HST_LANCFG 1 1 = 0)
    (hpending : s.hst.lanPending = false) :
    lanDone s = logEvent Ev.HST_LANTERN_DONE 0xFF q.toNat (s.now % 2 ^ 32) 0
      (wr R.HST_LANSEQ q (hostWrite (lanBase s) b { s with hst := { s.hst with lanBusy := none } })) := by
  have hbuffer : lanAstray s = false := by simp [lanAstray, hspace]
  have hkeeps : (hostWrite (lanBase s) b { s with hst := { s.hst with lanBusy := none } }).hst.lanPending = false := by
    simp [hostWrite, toHost, hbme, hpending]
  unfold lanDone
  rw [hbusy]
  dsimp only
  rw [if_neg (by simp [hbme]), if_neg (by simp [hbuffer]), hspace, hirq]
  exact if_neg (by rw [if_neg (by decide)]; exact hkeeps ▸ Bool.false_ne_true)

theorem lanDone_astray (hbuffer : lanAstray s = true) (hpending : s.hst.lanPending = false) :
    lanDone s = accessBad R.HST_LANBASE_LO 8192 2 { s with hst := { s.hst with lanBusy := none, lanPending := false } } := by
  have hspace : fld s R.HST_LANCFG 0 0 = 1 := by
    simp only [lanAstray, Bool.and_eq_true, decide_eq_true_eq] at hbuffer
    exact hbuffer.1
  unfold lanDone
  rw [hbusy]
  dsimp only
  rw [if_neg (by simp [hspace]), if_pos hbuffer, if_neg (by simp [hpending])]

end

/-! ## The management view -/

/-- A read of a unit's first byte latches the unit. -/
theorem i2cRead_first {s : State} (h : s.hst.i2cPtr = (i2cUnit s s.hst.i2cPtr).1) :
    i2cRead s = respond 8 (i2cUnit s s.hst.i2cPtr).1 [(i2cUnit s s.hst.i2cPtr).2.getD 0 0] { s with hst := { s.hst with
      i2cPtr := ((i2cUnit s s.hst.i2cPtr).1 + 1) % 2 ^ 24, i2cLatch := i2cUnit s s.hst.i2cPtr } } := by
  generalize hu : i2cUnit s s.hst.i2cPtr = u at h
  unfold i2cRead
  dsimp only
  rw [hu, if_pos (by simp [h]), if_pos h, h, Nat.sub_self]

/-- Settles O58: the summary's length by its parts, its write by the buffer's place, the view by the unit at the pointer. -/
theorem lanternAndI2c : Obligations.LanternAndI2c := by
  refine ⟨?early, ?busy, ?captures, ?waits, ?writes, ?astray, ?pointer, ?read, ?first, ?snapshot, ?off, length_lanBytes⟩
  case early => exact fun s hoff h => glbRun_refuses (f := glbLantern) rfl hoff (glbLantern_early h) (by decide)
  case busy => exact fun s hlive hbusy => glbLantern_accepts hlive (glbLantern_busy hlive hbusy)
  case captures => exact fun s hlive hbusy hbuffer => glbLantern_accepts hlive (glbLantern_captures hlive hbusy hbuffer)
  case waits => exact fun s q b hbusy hspace hbme => completes_of (congrArg finish (lanDone_waits hbusy hspace hbme))
  case writes =>
    rintro s q b s1 hbusy hspace hbme hirq hpending rfl
    exact completes_of (congrArg finish (lanDone_writes hbusy hspace hbme hirq hpending))
  case astray => exact fun s q b hbusy hbuffer hpending => completes_of (congrArg finish (lanDone_astray hbusy hbuffer hpending))
  case pointer =>
    intro high mid low s hoff
    have hvalue : beNat [high, mid, low] = 65536 * high.toNat + 256 * mid.toNat + low.toNat := by
      simp only [beNat, leNat, List.reverse_cons, List.reverse_nil, List.nil_append, List.cons_append]
      omega
    rw [← hvalue]
    exact completes_of (congrArg finish (if_neg hoff))
  case read => exact fun s hoff => completes_of (congrArg finish (if_neg hoff))
  case first =>
    rintro s u rfl h
    exact i2cRead_first h
  case snapshot => exact fun s hoff => completes_of (congrArg finish (if_neg hoff))
  case off =>
    exact fun s hoff => ⟨completes_of (congrArg finish (if_pos hoff)), completes_of (congrArg finish (if_pos hoff)),
      completes_of (congrArg finish (if_pos hoff))⟩

end Sys2Proof.Machine
end

section
/-!
PROOFS. Frames of the cascade: how they leave, what a receiver does with each, and their retransmission (spec/14_cascade.md R427, R437 to
R439).
-/
namespace Sys2Proof.Machine

/-! ## Frames that leave (R427) -/

theorem casPut_zero (bs : List Byte) (s : State) (h : cuUp s = false) : casPut 0 bs s = s := if_neg (by simp [h])

theorem casPut_one (bs : List Byte) (s : State) (h : cdUp s = false) : casPut 1 bs s = s := if_neg (by simp [h])

theorem casPut_zero_up (bs : List Byte) {s : State} (h : cuUp s = true) (hswap : casSwap s 0 = false) :
    casPut 0 bs s = emit (.casFrame 0 (laneSyms 0 bs) (laneSyms 1 bs)) s := by
  simp [casPut, h, hswap]

theorem casPut_one_up (bs : List Byte) {s : State} (h : cdUp s = true) (hswap : casSwap s 1 = false) :
    casPut 1 bs s = emit (.casFrame 1 (laneSyms 0 bs) (laneSyms 1 bs)) s := by
  simp [casPut, h, hswap]

/-! ## Reception, case by case (R437 to R439) -/

/-- A frame of this type is a message, a status or a position, to which the epoch and the end of the chain apply. -/
def EpochBound (type : Nat) : Prop := type = 0x10 ∨ type = 0x13 ∨ type = 0x14

/-- ACK and NAK are not acknowledged themselves. -/
theorem casRecv_mine_unacked {h : CasHdr} {s : State} (hm : frameMine h s) {type : Nat} (htype : type = 0x11 ∨ type = 0x12)
    (body : List Byte) (take pass : State → State) : casRecv h type body take pass s = take s := by
  obtain ⟨hrole, hup, hok, hdst, hmine, hepoch⟩ := hm
  have hone : ¬h.dst = 255#8 := hdst
  unfold casRecv
  rcases htype with rfl | rfl <;> simp [hrole, hup, hok, hone, hmine]

section
variable {h : CasHdr} {s : State} (hrole : casRole s ≠ 0) (hup : (casPort s h.port).st = .active)
include hrole hup

theorem casRecv_bad (hok : h.ok = false) (type : Nat) (body : List Byte) (take pass : State → State) :
    casRecv h type body take pass s = casBad h.port s := by
  unfold casRecv
  simp [hrole, hup, hok]

variable (hok : h.ok = true)
include hok

theorem casRecv_stale (hdst : h.dst ≠ 0xFF) (hmine : isMine s h.dst.toNat = true) (hepoch : h.epoch.toNat ≠ s.cas.epoch) {type : Nat}
    (htype : EpochBound type) (body : List Byte) (take pass : State → State) : casRecv h type body take pass s = casNak h s := by
  have hone : ¬h.dst = 255#8 := hdst
  unfold casRecv
  simp only [EpochBound] at htype
  simp [hrole, hup, hok, hone, hmine, hepoch, htype]

theorem casRecv_forwarded (hdst : h.dst ≠ 0xFF) (hmine : isMine s h.dst.toNat = false) {type : Nat}
    (hway : ¬(EpochBound type ∧ (casPort s (1 - h.port.val)).st ≠ .active)) (body : List Byte) (take pass : State → State) :
    casRecv h type body take pass s =
      pass (casPut (1 - h.port.val) (casBytes type h.seq.toNat h.src.toNat h.dst.toNat h.epoch.toNat body) s) := by
  have hone : ¬h.dst = 255#8 := hdst
  unfold casRecv
  simp only [EpochBound] at hway
  simp [hrole, hup, hok, hone, hmine]
  intro ht hd
  exact absurd ⟨ht, hd⟩ hway

theorem casRecv_chainEnd (hdst : h.dst ≠ 0xFF) (hmine : isMine s h.dst.toNat = false) {type : Nat} (htype : EpochBound type)
    (hdown : (casPort s (1 - h.port.val)).st ≠ .active) (body : List Byte) (take pass : State → State) :
    casRecv h type body take pass s = casNak h s := by
  have hone : ¬h.dst = 255#8 := hdst
  unfold casRecv
  simp only [EpochBound] at htype
  simp [hrole, hup, hok, hone, hmine, htype, hdown]

theorem casRecv_repeated (hdst : h.dst = 0xFF) (hmine : isMine s h.dst.toNat = false)
    (hseen : s.cas.seen.contains (h.src.toNat, h.seq) = true) (type : Nat) (body : List Byte) (take pass : State → State) :
    casRecv h type body take pass s =
      casPut (1 - h.port.val) (casBytes type h.seq.toNat h.src.toNat 0xFF h.epoch.toNat body) s := by
  obtain ⟨o, e⟩ := casPut_rest (1 - h.port.val) (casBytes type h.seq.toNat h.src.toNat 0xFF h.epoch.toNat body) s
  have hdst' : h.dst.toNat = 0xFF := by rw [hdst]; rfl
  have hold : (h.src.toNat, h.seq) ∈ s.cas.seen := by simpa using hseen
  rw [hdst'] at hmine
  unfold casRecv
  rw [hdst', e]
  simp [hrole, hup, hok, hdst, hmine, hold]

end

/-- Settles O46, by the cases of the reception of a frame, each stated once. -/
theorem cascadeFrames : Obligations.CascadeFrames := by
  refine ⟨?leave, ?ack, ?nak, ?again, ?given, ?bad, ?stale, ?forwarded, ?chainEnd, ?repeated⟩
  case leave =>
    intro bs s
    exact ⟨casPut_zero bs s, casPut_one bs s, casPut_zero_up bs, casPut_one_up bs⟩
  case ack =>
    intro h seq s hm
    exact completes_of (congrArg finish (casRecv_mine_unacked hm (Or.inl rfl) _ _ _))
  case nak =>
    intro h seq role epoch x s hm hfind
    refine completes_of (congrArg finish ((casRecv_mine_unacked hm (Or.inr rfl) _ _ _).trans ?_))
    rw [hfind]
  case again =>
    intro seq x s hfind htries
    refine completes_of (congrArg finish ?_)
    rw [hfind]
    exact if_pos htries
  case given =>
    intro seq x s hfind htries
    refine completes_of (congrArg finish ?_)
    rw [hfind]
    exact if_neg (by omega)
  case bad => exact fun h type body take pass s hrole hup hok => casRecv_bad hrole hup hok type body take pass
  case stale =>
    exact fun h type body take pass s hrole hup hok hdst hmine hepoch htype =>
      casRecv_stale hrole hup hok hdst hmine hepoch htype body take pass
  case forwarded =>
    intro h type body take pass s hrole hup hok hdst hmine hway
    refine casRecv_forwarded hrole hup hok hdst hmine ?_ body take pass
    rintro ⟨htype, hdown⟩
    exact hway.elim (fun hn => htype.elim hn.1 (fun ht => ht.elim hn.2.1 hn.2.2)) hdown
  case chainEnd =>
    exact fun h type body take pass s hrole hup hok hdst hmine htype hdown =>
      casRecv_chainEnd hrole hup hok hdst hmine htype hdown body take pass
  case repeated =>
    exact fun h type body take pass s hrole hup hok hdst hmine hseen =>
      casRecv_repeated hrole hup hok hdst hmine hseen type body take pass

end Sys2Proof.Machine
end

section
/-!
PROOFS. The bell: sets sent, forwarded and decoded, a line's tick, chain triggers and the tick of a START (spec/14_cascade.md R434, R435, R438,
R440, R446).
-/
namespace Sys2Proof.Machine

/-- The sets of ticks after `t` are kept. -/
def bellsAfter (t : Nat) (s : State) : State := modCas (fun c => { c with bells := c.bells.filter (fun b => decide (t < b.tick)) }) s

theorem bellSendTimer_exec {s : State} (hcampanile : isCampanile s = true) (htick : s.cas.tick = none) (hprint : s.glb.state ≠ .print)
    (harmed : s.glb.state ≠ .armed) (hup : cdUp s = true) {t : Nat}
    (ht : t = (s.now + fld s R.CAS_BELLCFG 9 0 + tickPeriod s - 1) / tickPeriod s * tickPeriod s) :
    exec .bellSendTimer s = finish (casEmitSet 1 "BEL" (bellBytes false t s.cas.epoch s.cas.tseq) (bellBytes false t s.cas.epoch s.cas.tseq)
      (modCas (fun c => { c with tick := some t, tseq := (c.tseq + 1) % 65536, bells := c.bells ++ [⟨t, false, c.tseq, s.now⟩] }) s)) := by
  subst ht
  refine congrArg finish ((if_neg (by simp [hcampanile])).trans ?_)
  dsimp only
  rw [htick]
  simp only [hprint, harmed, decide_false, Bool.false_and, Bool.or_false, Bool.and_false]
  exact if_pos hup

theorem bellSetRx_bad {data : Vector Byte 14} {s : State} (hmember : isMember s = true) (hup : cuUp s = true) (hdown : cdUp s = true)
    (hcrc : crc8 (data.toList.take 13) ≠ data.toList.getD 13 0) :
    exec (.bellSetRx data) s = finish (casEmitSet 1 "BEL" data.toList data.toList s) := by
  refine congrArg finish ((if_neg (by simp [hmember, hup])).trans ?_)
  dsimp only
  rw [if_pos (Or.inl hcrc), if_pos hdown]

theorem bellSetRx_good {data : Vector Byte 14} {s : State} (hmember : isMember s = true) (hup : cuUp s = true) (hend : cdUp s = false)
    (hcrc : crc8 (data.toList.take 13) = data.toList.getD 13 0) (hepoch : fieldAt data.toList 9 2 = s.cas.epoch) :
    exec (.bellSetRx data) s = finish (modCas (fun c => { c with
      tseq := (fieldAt data.toList 11 2 + 1) % 65536,
      bells := c.bells ++ [⟨fieldAt data.toList 1 8, bitOf (fieldAt data.toList 0 1) 0, fieldAt data.toList 11 2, s.now⟩] }) s) := by
  refine congrArg finish ((if_neg (by simp [hmember, hup])).trans ?_)
  dsimp only
  rw [if_neg (by simp [hcrc, hepoch]), if_neg (by simp [hend])]

/-- What the tick does on a device whose transport is another's, by the sets heard for it. -/
theorem localBellTick_exec {tick : BitVec 64} {s : State} (htr : trKind s = 0) (hmode : bellMode s = true) :
    exec (.localBellTick tick) s = finish (
      if s.glb.state ≠ .print then bellsAfter tick.toNat s
      else
        let late := (those 16 (ltBound s)).filter (fun g => !bellHeard tick.toNat s g)
        let s3 := bellLaunch ((those 16 (ltBound s)).filter (bellHeard tick.toNat s)) tick.toNat (bellsAfter tick.toNat s)
        if (!late.isEmpty || (casRole s ≠ 0 && !s.cas.bells.any (fun b => b.tick = tick.toNat && b.fire))) = true then
          bellMissed late tick.toNat s3
        else s3) := by
  have hsend : ¬(chained (bellsAfter tick.toNat s) && trKind (bellsAfter tick.toNat s) ≠ 0) = true := by
    have : trKind (bellsAfter tick.toNat s) = 0 := htr
    simp [this]
  have hbell : bellMode (bellsAfter tick.toNat s) = true := hmode
  refine congrArg finish ?_
  unfold bellsAfter at hsend hbell ⊢
  dsimp only at hsend hbell ⊢
  rw [if_neg hsend, if_pos hbell]
  rfl

theorem mem_those_lt {n : Nat} {p : Nat → Bool} {i : Nat} (h : i ∈ those n p) : i < n ∧ p i = true := by
  simpa [those] using h

/-- No generator has heard a tick for which no set with fire came. -/
theorem bellHeard_false {t : Nat} {s : State} (hrole : casRole s ≠ 0)
    (h : s.cas.bells.any (fun b => b.tick = t && b.fire) = false) (g : Nat) : bellHeard t s g = false := by
  unfold bellHeard
  simp only [List.any_eq_false, Bool.and_eq_true, decide_eq_true_eq] at h
  simp only [hrole, decide_false, Bool.false_or, List.any_eq_false, Bool.and_eq_true, decide_eq_true_eq]
  exact fun b hb hh => h b hb hh.1

theorem bellHeard_true {t : Nat} {s : State} {g : Nat} (h : ∃ b ∈ s.cas.bells, b.tick = t ∧ b.fire = true ∧
    b.seenAt + fld s (R.FIR_LTn_LEAD g) 11 0 ≤ t + 400) : bellHeard t s g = true := by
  obtain ⟨b, hb, htick, hfire, hseen⟩ := h
  unfold bellHeard
  simp only [Bool.or_eq_true, List.any_eq_true, Bool.and_eq_true, decide_eq_true_eq]
  exact Or.inr ⟨b, hb, ⟨htick, hfire⟩, hseen⟩

/-- Settles O48, by what each generator has heard of a tick. -/
theorem bells : Obligations.Bells := by
  refine ⟨?send, ?bad, ?good, ?launch, ?missed, ?idle, ?trg, ?start, ?armed, ?miss⟩
  case send =>
    exact fun s t hc _ htick hp ha hup ht => completes_of (bellSendTimer_exec hc htick hp ha hup ht)
  case bad => exact fun data s hm hup hdown hcrc => completes_of (bellSetRx_bad hm hup hdown hcrc)
  case good => exact fun data s hm hup hend hcrc hepoch _ => completes_of (bellSetRx_good hm hup hend hcrc hepoch)
  case launch =>
    intro tick s _ htr hmode hprint hfire hheard
    have hall : ∀ g ∈ those 16 (ltBound s), bellHeard tick.toNat s g = true := fun g hg =>
      bellHeard_true (hheard g (mem_those_lt hg).1 (mem_those_lt hg).2)
    refine completes_of ((localBellTick_exec htr hmode).trans (congrArg finish ?_))
    dsimp only
    rw [if_neg (not_not.mpr hprint), List.filter_eq_self.mpr hall,
      List.filter_eq_nil_iff.mpr (fun g hg => by simp [hall g hg]), hfire]
    exact if_neg (by simp)
  case missed =>
    intro tick s hrole htr hmode hprint hsilent
    refine completes_of ((localBellTick_exec htr hmode).trans (congrArg finish ?_))
    dsimp only
    have hdeaf := bellHeard_false hrole hsilent
    rw [if_neg (not_not.mpr hprint), (List.filter_eq_nil_iff (p := bellHeard tick.toNat s)).mpr (fun g _ => by simp [hdeaf g]),
      List.filter_eq_self.mpr (fun g _ => by simp [hdeaf g]), hsilent]
    exact if_pos (by simp [hrole])
  case idle =>
    intro tick s htr hmode hprint
    exact completes_of ((localBellTick_exec htr hmode).trans (congrArg finish (if_pos hprint)))
  case trg =>
    intro port mask s hrole hup hend hunmapped
    refine completes_of (congrArg finish ((if_neg (not_or.mpr ⟨hrole, not_not.mpr hup⟩)).trans ?_))
    dsimp only
    rw [if_neg hend, those, List.filter_eq_nil_iff.mpr (fun k hk => by simp [hunmapped k (List.mem_range.mp hk)])]
    rfl
  case start => exact fun h ts s ha => completes_of (congrArg finish (casRecv_all ha _ _ _ _))
  case armed =>
    intro s ts hts harmed
    refine completes_of (congrArg finish ?_)
    rw [hts]
    exact if_pos harmed
  case miss =>
    intro s ts hts harmed
    refine completes_of (congrArg finish ?_)
    rw [hts]
    exact if_neg harmed

end Sys2Proof.Machine
end

section
/-!
PROOFS. Chain messages that act on their receiver, status and position across the chain, and the CAS commands (spec/14_cascade.md R439 to
R447).
-/
namespace Sys2Proof.Machine

/-! ## What the reception of a frame leaves as it was -/

@[simp] theorem acked_glb (h : CasHdr) (s : State) : (acked h s).glb = s.glb := by
  obtain ⟨o, e⟩ := acked_rest h s
  rw [e]

@[simp] theorem isCampanile_acked (h : CasHdr) (s : State) : isCampanile (acked h s) = isCampanile s := by
  obtain ⟨o, e⟩ := acked_rest h s
  rw [e]
  rfl

section
variable (h : CasHdr) (type : Nat) (body : List Byte) (s : State)

@[simp] theorem relayed_glb : (relayed h type body s).glb = s.glb := by
  obtain ⟨l, o, e⟩ := relayed_rest h type body s
  rw [e]

@[simp] theorem relayed_ss : (relayed h type body s).ss = s.ss := by
  obtain ⟨l, o, e⟩ := relayed_rest h type body s
  rw [e]

@[simp] theorem relayed_now : (relayed h type body s).now = s.now := by
  obtain ⟨l, o, e⟩ := relayed_rest h type body s
  rw [e]

@[simp] theorem haltable_relayed : haltable (relayed h type body s) = haltable s := by
  unfold haltable
  rw [relayed_glb]

end

/-! ## Halts -/

theorem haltable_of_firing {s : State} (h : firingState s = true) : haltable s = true := by
  rw [haltable_iff]
  simp only [firingState, Bool.or_eq_true, decide_eq_true_eq] at h
  rcases h with (h | h) | h <;> simp [h]

/-- A HALT event from a state that halts leads to SAFE_HOLD. -/
theorem finish_raise_safeHold {k : EvKind} (i a0 a1 a2 : Nat) {s : State} (hk : k.sev = .halt) (hs : haltable s = true) :
    ∃ t, finish (raise k i a0 a1 a2 s) = .next t ∧ t.glb.state = .safeHold := by
  obtain ⟨t, e, -⟩ := finish_next (raise k i a0 a1 a2 s)
  refine ⟨t, e, ?_⟩
  rw [state_of_finish e, raise_halt i a0 a1 a2 s hk hs]
  exact enterSafeHold_state _ _

/-! ## The decision of the chain's seamless stop (R415) -/

section
variable {h : CasHdr} {td : BitVec 64} {s s1 : State} (ha : frameAll h s)
  (h1 : s1 = relayed h 0x10 (leBytes 1 0x11 ++ leBytes 8 td.toNat) s)
include ha h1

theorem ssdecRx_exec : exec (.ssdecRx h td) s = finish (
    if td.toNat < s.now then casMsgTo 0x40 0x14 (leBytes 1 8) (ssForbid 8 s1)
    else if s.glb.state ≠ .print then casMsgTo 0x40 0x14 (leBytes 1 7) (ssForbid 7 s1)
    else { setF R.DOT_SSSTAT 7 3 8 s1 with ss := { s.ss with td := some td.toNat } }) := by
  have hnow : s1.now = s.now := h1 ▸ relayed_now ..
  have hglb : s1.glb = s.glb := h1 ▸ relayed_glb ..
  have hss : s1.ss = s.ss := h1 ▸ relayed_ss ..
  rw [← hnow, ← hglb, ← hss, h1]
  exact congrArg finish (casRecv_all ha _ _ _ _)

end

/-! ## Status (R444) -/

theorem statRx_campanile {h : CasHdr} {s : State} (st : BitVec 4) (sev : BitVec 2) (code : BitVec 16) (die : Byte) (fill : BitVec 16)
    (hm : frameMine h s) (hcampanile : isCampanile s = true) : exec (.statRx h st sev code die fill) s = finish (
      wr (R.CAS_AGG_B (h.src.toNat % 8)) (BitVec.ofNat 32 (fill.toNat + 2 ^ 24 * die.toNat))
        (wr (R.CAS_AGG_A (h.src.toNat % 8)) (BitVec.ofNat 32 (st.toNat + 16 * sev.toNat + 64 + 65536 * code.toNat))
          (modCas (fun c => { c with memberHalt := c.memberHalt &&& ~~~(BitVec.ofNat 8 (2 ^ (h.src.toNat % 8))) }) (acked h s)))) :=
  congrArg finish ((casRecv_mine hm (by decide) (by decide) _ _ _).trans (if_neg (by simp [hcampanile])))

theorem casStat_sent {s : State} (hmember : isMember s = true) (hup : cuUp s = true) (hpos : s.cas.position ≠ 0) :
    casStat s = casSendTo 0x13 0 s.cas.epoch
      (leBytes 1 s.glb.state.code ++ leBytes 1 (statSeen s).1 ++ leBytes 2 (statSeen s).2.toNat ++ leBytes 1 (dieByte s) ++
        leBytes 2 (lowestFill s))
      { s with cas := { s.cas with sev := 0, noted := s.hst.raised.length } } :=
  if_pos (by simp [hmember, hup, hpos])

theorem memberLost_exec {n : Fin 8} {s : State} (hcampanile : isCampanile s = true) (hzero : n ≠ 0) (hn : n.val < s.cas.length) :
    exec (.memberLostTimeout n) s = finish (
      if firingState s then raise (Ev.CAS_MEMBER_LOST .halt) n n (fld s (R.CAS_AGG_A n) 3 0) (fld s (R.CAS_AGG_B n) 23 16)
        (modCas (fun c => { c with memberHalt := c.memberHalt ||| BitVec.ofNat 8 (2 ^ n.val) }) s)
      else logEvent (Ev.CAS_MEMBER_LOST .warn) n n (fld s (R.CAS_AGG_A n) 3 0) (fld s (R.CAS_AGG_B n) 23 16) s) :=
  congrArg finish (if_neg (by simp [hcampanile, hzero, hn]))

/-! ## The commands (R447) -/

/-- The codes of the states differ. -/
theorem gnum_ne {u : State} {g : GState} (h : u.glb.state ≠ g) : gnum u ≠ g.code := by
  unfold gnum
  revert h
  cases u.glb.state <;> cases g <;> simp [GState.code]

section
variable {u : State}

theorem casCmd_send_refused (hoff : u.glb.state ≠ .off)
    (h : u.glb.state.code < 4 ∨ u.glb.state = .shutdown ∨ chained u = false ∨ u.cas.disc = false) :
    casCmd 1 u = casResult 1 2 u := by
  have hzero : gnum u ≠ 0 := gnum_ne hoff
  refine (if_neg hzero).trans (if_pos ?_)
  rcases h with h | h | h | h <;> simp [gnum, h]
  simp [GState.code]

variable (hlate : 4 ≤ u.glb.state.code)
include hlate

theorem casCmd_send (hshut : u.glb.state ≠ .shutdown) (hchained : chained u = true) (hdisc : u.cas.disc = true) :
    casCmd 1 u = if userWaits u = true then casResult 1 5 u else casResult 1 1 (casUser u) := by
  have hzero : gnum u ≠ 0 := by unfold gnum; omega
  have hten : gnum u ≠ 10 := gnum_ne hshut
  have hearly : ¬gnum u < 4 := by unfold gnum; omega
  exact (if_neg hzero).trans (if_neg (by simp [hearly, hten, hchained, hdisc]))

theorem casCmd_clrcnt : casCmd 3 u = casResult 3 1 (wr R.CAS_CNT 0 u) := by
  have hzero : gnum u ≠ 0 := by unfold gnum; omega
  have hearly : ¬gnum u < 4 := by unfold gnum; omega
  exact (if_neg hzero).trans (if_neg (by simp [hearly]))

end

theorem casCmd_resync {u : State} (hmember : isMember u = true) (hstate : u.glb.state = .idle ∨ u.glb.state = .safeHold)
    (hup : cuUp u = true ∨ u.cas.cu.st = .timesync) : casCmd 2 u = casResult 2 1 (casAcquire u) := by
  have hg : gnum u = 5 ∨ gnum u = 9 := hstate.imp (fun e => by simp [gnum, e, GState.code]) (fun e => by simp [gnum, e, GState.code])
  have hzero : gnum u ≠ 0 := by omega
  refine (if_neg hzero).trans ((if_pos (by simpa [hmember] using hg)).trans ?_)
  rw [if_pos (by simpa using hup)]

theorem casCmd_resync_refused {u : State} (hoff : u.glb.state ≠ .off)
    (h : isMember u = false ∨ (u.glb.state ≠ .idle ∧ u.glb.state ≠ .safeHold)) : casCmd 2 u = casResult 2 2 u := by
  have hzero : gnum u ≠ 0 := gnum_ne hoff
  refine (if_neg hzero).trans (if_neg ?_)
  rcases h with h | ⟨hi, hh⟩
  · simp [h]
  · have hg : gnum u ≠ 5 ∧ gnum u ≠ 9 := ⟨gnum_ne hi, gnum_ne hh⟩
    simp [hg]

/-- Settles O49, by what the reception of a frame leaves as it was. -/
theorem chainMessages : Obligations.ChainMessages := by
  refine ⟨?stop, ?peerStop, ?peerHalt, ?halted, ?ssreq, ?dec, ?decLate, ?decOutside, ?ready, ?go, ?forbid, ?abandon, ?user, ?stat, ?timer,
    ?sent, ?counted, ?lost, ?lostFiring, ?pos, ?send, ?waits, ?refused, ?resync, ?resyncRefused, ?clear⟩
  case stop =>
    intro h s ha hprint
    exact completes_of (congrArg finish ((casRecv_all ha _ _ _ _).trans (if_pos (by simp [hprint]))))
  case peerStop => exact fun h code s ha => completes_of (congrArg finish (casRecv_all ha _ _ _ _))
  case peerHalt => exact fun h code s ha => completes_of (congrArg finish (casRecv_all ha _ _ _ _))
  case halted =>
    intro h code s ha hs
    obtain ⟨t, e, ht⟩ := finish_raise_safeHold (k := Ev.CAS_PEER_HALT) 0xFF h.src.toNat code.toNat 0 rfl
      (s := relayed h 0x10 (leBytes 1 4 ++ leBytes 2 code.toNat) s) (by simp [hs])
    exact ⟨t, (congrArg finish (casRecv_all ha _ _ _ _)).trans e, ht⟩
  case ssreq => exact fun h cause s hm => completes_of (congrArg finish (casRecv_mine hm (by decide) (by decide) _ _ _))
  case dec =>
    intro h td s s1 ha h1 hprint htd
    exact completes_of ((ssdecRx_exec ha h1).trans (congrArg finish ((if_neg (by omega)).trans (if_neg (not_not.mpr hprint)))))
  case decLate =>
    intro h td s s1 ha h1 htd
    exact completes_of ((ssdecRx_exec ha h1).trans (congrArg finish (if_pos htd)))
  case decOutside =>
    intro h td s s1 ha h1 hprint htd
    exact completes_of ((ssdecRx_exec ha h1).trans (congrArg finish ((if_neg (by omega)).trans (if_pos hprint))))
  case ready => exact fun h s hm => completes_of (congrArg finish (casRecv_mine hm (by decide) (by decide) _ _ _))
  case go =>
    intro h s ha hphase
    exact completes_of (congrArg finish ((casRecv_all ha _ _ _ _).trans (if_pos (by simp [hphase]))))
  case forbid => exact fun h reason s hm => completes_of (congrArg finish (casRecv_mine hm (by decide) (by decide) _ _ _))
  case abandon => exact fun h s ha => completes_of (congrArg finish (casRecv_all ha _ _ _ _))
  case user =>
    rintro h data s s2 hm rfl
    exact completes_of (congrArg finish (casRecv_mine hm (by decide) (by decide) _ _ _))
  case stat =>
    exact fun h st sev code die fill s hm hcampanile => completes_of (statRx_campanile st sev code die fill hm hcampanile)
  case timer => exact fun s hmember => completes_of (congrArg finish (if_pos hmember))
  case sent => exact fun s hmember hup hpos => casStat_sent hmember hup hpos
  case counted =>
    intro s hmember hcampanile hlength
    refine completes_of (congrArg finish ((if_neg (by simp [hmember])).trans ((if_pos hcampanile).trans ?_)))
    rw [hlength]
    rfl
  case lost =>
    intro n s hcampanile hzero hn hfiring
    exact completes_of ((memberLost_exec hcampanile hzero hn).trans (congrArg finish (if_neg (by simp [hfiring]))))
  case lostFiring =>
    intro n s hcampanile hzero hn hfiring
    rw [memberLost_exec hcampanile hzero hn, if_pos hfiring]
    exact finish_raise_safeHold _ _ _ _ rfl (haltable_of_firing (s := modCas _ s) hfiring)
  case pos =>
    rintro h pi pf tm sp v d s s1 ha rfl
    exact completes_of (congrArg finish (casRecv_all ha _ _ _ _))
  case send =>
    rintro s u hopen rfl hlate hshut hchained hdisc hwaits
    exact posTable_completes (f := casCmd 1) rfl (by decide) hopen
      ((casCmd_send hlate hshut hchained hdisc).trans (if_neg (by simp [hwaits])))
  case waits =>
    rintro s u hopen rfl hlate hshut hchained hdisc hwaits
    exact posTable_completes (f := casCmd 1) rfl (by decide) hopen ((casCmd_send hlate hshut hchained hdisc).trans (if_pos hwaits))
  case refused =>
    rintro s u hopen rfl hoff h
    exact posTable_completes (f := casCmd 1) rfl (by decide) hopen (casCmd_send_refused hoff h)
  case resync =>
    rintro s u hopen rfl hmember hstate hup
    exact posTable_completes (f := casCmd 2) rfl (by decide) hopen (casCmd_resync hmember hstate hup)
  case resyncRefused =>
    rintro s u hopen rfl hoff h
    exact posTable_completes (f := casCmd 2) rfl (by decide) hopen (casCmd_resync_refused hoff h)
  case clear =>
    rintro s u hopen rfl hlate
    exact posTable_completes (f := casCmd 3) rfl (by decide) hopen (casCmd_clrcnt hlate)

end Sys2Proof.Machine
end

section
/-!
PROOFS. The cascade's ports and the bell time of a member: training, link loss, ECHOs and the groups of four (spec/14_cascade.md R426 to R430,
R436).
-/
namespace Sys2Proof.Machine

/-! ## Training (R426) -/

section
variable {port : Fin 2} {ts2 : Bool} {data : Vector Byte 14} {s : State}

theorem casTsReceived_bad (hrole : casRole s ≠ 0) (hcrc : crc8 (data.toList.take 13) ≠ data.toList.getD 13 0) :
    exec (.casTsReceived port ts2 data) s = finish (modCasPort port (fun x => { x with run := 0 }) s) :=
  congrArg finish ((if_neg hrole).trans (if_neg hcrc))

theorem casTsReceived_good (hrole : casRole s ≠ 0) (hcrc : crc8 (data.toList.take 13) = data.toList.getD 13 0) :
    exec (.casTsReceived port ts2 data) s = finish (casTrain port ts2 data.toList s) :=
  congrArg finish ((if_neg hrole).trans (if_pos hcrc))

end

section
variable {port : Nat} {s : State}

theorem casTrain_detect (b : List Byte) (h : (casPort s port).st = .detect) :
    casTrain port false b s = if 8 ≤ (casPort s port).run + 1 then
        casTs port "TS1" true (modCasPort port (fun x => { x with st := .align, run := 0 }) s)
      else modCasPort port (fun x => { x with run := (casPort s port).run + 1 }) s := by
  unfold casTrain
  dsimp only
  rw [h]
  rfl

theorem casTrain_config (b : List Byte) (h : (casPort s port).st = .config) :
    casTrain port true b s =
      if 8 ≤ (casPort s port).run + 1 ∧ 16 ≤ (casPort s port).outs + 1 then
        if port = 0 ∧ isMember s then casAcquire (modCasPort 0 (fun x => { x with st := .timesync, run := 0, outs := 0 })
          (casTs port "TS2" true (modCasPort port (fun y => { y with run := (casPort s port).run + 1, outs := y.outs + 1 }) s)))
        else casUp port (casTs port "TS2" true (modCasPort port (fun y => { y with run := (casPort s port).run + 1, outs := y.outs + 1 }) s))
      else casTs port "TS2" true (modCasPort port (fun y => { y with run := (casPort s port).run + 1, outs := y.outs + 1 }) s) := by
  unfold casTrain
  dsimp only
  rw [h]
  rfl

end

theorem casTrainTimeout_exec {port : Fin 2} {s : State} (hactive : (casPort s port).st ≠ .active) (hdown : (casPort s port).st ≠ .down) :
    exec (.casTrainTimeout port) s = finish (modCasPort port (fun x => { x with st := .down, run := 0, outs := 0 })
      (if (casPort s port).st = .align ∧ !(casPort s port).alignRaised then
        discFail 5 s.cas.position (modCasPort port (fun x => { x with alignRaised := true }) s) else s)) :=
  congrArg finish ((if_neg hactive).trans (if_neg hdown))

theorem casTrainTimeout_down {port : Fin 2} {s : State} (hdown : (casPort s port).st = .down) (hrole : casRole s ≠ 0)
    (hlate : 4 ≤ gnum s) (hheld : discHeld s = false) : exec (.casTrainTimeout port) s = finish (casAttempt port s) := by
  refine congrArg finish ((if_neg (by simp [hdown])).trans ((if_pos hdown).trans (if_neg ?_)))
  simp [hrole, hheld]
  omega

/-! ## Link loss (R436) -/

/-- A link that is lost is down, and the time that came over it with it. -/
def linkLost (port : Nat) (s : State) : State :=
  if port = 0 then modCas (fun c => { c with synced := false, checking := false, echoes := [], group := [] })
    (casAttempt port (modCasPort port (fun x => { x with lost := true }) s))
  else casAttempt port (modCasPort port (fun x => { x with lost := true }) s)

@[simp] theorem casEmitSet_glb (port : Nat) (name : String) (b0 b1 : List Byte) (s : State) : (casEmitSet port name b0 b1 s).glb = s.glb :=
  rfl

@[simp] theorem casAttempt_glb (port : Nat) (s : State) : (casAttempt port s).glb = s.glb := casEmitSet_glb ..

theorem linkLost_glb (port : Nat) (s : State) : (linkLost port s).glb = s.glb := by
  unfold linkLost
  split
  · exact casAttempt_glb port _
  · exact casAttempt_glb port _

theorem casLoss_of_active {port : Nat} {s : State} (cause : Nat) (hup : (casPort s port).st = .active) :
    casLoss port cause s =
      if firingState s then
        raise (Ev.CAS_LINK_DOWN .halt) port port cause 5 (modCasPort port (fun x => { x with lostHalt := true }) (linkLost port s))
      else logEvent (Ev.CAS_LINK_DOWN .warn) port port cause 5 (linkLost port s) :=
  if_neg (not_not.mpr hup)

theorem casLinkLoss_exec {port : Fin 2} {s : State} (hup : (casPort s port).st = .active) :
    exec (.casLinkLoss port .lock) s = finish (casLoss port 1 s) ∧ exec (.casLinkLoss port .errors) s = finish (casLoss port 2 s) :=
  ⟨congrArg (fun x => finish (casLoss port 1 x)) (if_pos hup), rfl⟩

theorem casLinkLoss_cause {port : Fin 2} {s : State} {cause : CasLoss} {c : Nat} (hup : (casPort s port).st = .active)
    (h : (cause, c) ∈ [(CasLoss.lock, 1), (.errors, 2)]) : exec (.casLinkLoss port cause) s = finish (casLoss port c s) := by
  simp only [List.mem_cons, Prod.mk.injEq, List.not_mem_nil, or_false] at h
  obtain ⟨rfl, rfl⟩ | ⟨rfl, rfl⟩ := h
  · exact (casLinkLoss_exec hup).1
  · exact (casLinkLoss_exec hup).2

/-! ## Bell time (R428 to R430) -/

theorem narrow_of_lt {n : Nat} {x : Int} (h0 : 0 ≤ x) (h : x < 2 ^ n) : (narrow n x : Int) = x := by
  unfold narrow
  rw [Int.emod_eq_of_lt h0 h, Int.toNat_of_nonneg h0]

theorem bellMove_sixteenths (d : Int) (s : State) (h0 : 0 ≤ (16 * s.now + s.cas.frac : Int) + d)
    (h : (16 * s.now + s.cas.frac : Int) + d < 2 ^ 68) :
    (16 * (bellMove d s).now + (bellMove d s).cas.frac : Int) = 16 * s.now + s.cas.frac + d ∧ (bellMove d s).cas.frac < 16 := by
  have ht : (narrow 68 (((16 * s.now + s.cas.frac : Nat) : Int) + d) : Int) = 16 * s.now + s.cas.frac + d := by
    rw [narrow_of_lt (by push_cast; exact h0) (by push_cast; exact h)]
    push_cast
    rfl
  change (16 * ((narrow 68 (((16 * s.now + s.cas.frac : Nat) : Int) + d) / 16 : Nat) : Int) +
    ((narrow 68 (((16 * s.now + s.cas.frac : Nat) : Int) + d) % 16 : Nat) : Int)) = _ ∧
    narrow 68 (((16 * s.now + s.cas.frac : Nat) : Int) + d) % 16 < 16
  omega

/-- The present time of bell time. -/
def BellTime (s t : State) : Prop := s.now = t.now ∧ s.cas.frac = t.cas.frac

/-- What the mean of a group is kept as. -/
def groupNoted (sum : Int) (s : State) : State :=
  modCas (fun c => { c with group := [], resid := shr sum 2 }) (setF R.CAS_TSTAT 15 0 (narrow 16 (satS 16 (shr sum 2))) s)

theorem groupNoted_time (sum : Int) (s : State) : BellTime (groupNoted sum s) s := ⟨rfl, rfl⟩

theorem iabs_eq_natAbs (x : Int) : iabs x = x.natAbs := by
  unfold iabs
  split <;> omega

theorem casGroup_within {sum : Int} (s : State) (h : iabs sum ≤ 4) : casGroup sum s = groupNoted sum s := by
  rw [iabs_eq_natAbs] at h
  exact if_pos (by omega)

theorem casGroup_lost {sum : Int} {s : State} (h : 64 < iabs sum) (hfiring : firingState s = false) :
    casGroup sum s = logEvent (Ev.CAS_TIME_LOST .warn) 0xFF (toWord (shr sum 2)).toNat 0 0 (casAcquire (groupNoted sum s)) := by
  rw [iabs_eq_natAbs] at h
  unfold casGroup
  dsimp only
  rw [if_neg (by omega), if_pos (by omega)]
  exact if_neg (ne_true_of_eq_false (b := firingState (groupNoted sum s)) hfiring)

theorem casGroup_slewed {sum : Int} (s : State) (h4 : 4 < iabs sum) (h64 : iabs sum ≤ 64) :
    BellTime (casGroup sum s) (bellMove (sat (-2) 2 (shr sum 2)) (groupNoted sum s)) := by
  rw [iabs_eq_natAbs] at h4 h64
  unfold casGroup
  dsimp only
  rw [if_neg (by omega), if_neg (by omega)]
  split <;> exact ⟨rfl, rfl⟩

theorem sat_eq_clamp {lo hi : Int} (h : lo ≤ hi) (x : Int) : sat lo hi x = max lo (min hi x) := by
  unfold sat
  split
  · omega
  · split <;> omega

/-- A slew moves bell time by the mean, rounded down and held to two sixteenths (R429). -/
theorem casGroup_slew_sixteenths {sum : Int} {s : State} (h4 : 4 < iabs sum) (h64 : iabs sum ≤ 64) (hlo : 32 ≤ 16 * s.now + s.cas.frac)
    (hhi : 16 * s.now + s.cas.frac + 32 < 2 ^ 68) :
    (16 * (casGroup sum s).now + (casGroup sum s).cas.frac : Int) = 16 * s.now + s.cas.frac + max (-2) (min 2 (sum / 4)) := by
  obtain ⟨hnow, hfrac⟩ := casGroup_slewed s h4 h64
  have hd := sat_eq_clamp (lo := -2) (hi := 2) (by decide) (sum / 4)
  have hmove := (bellMove_sixteenths (sat (-2) 2 (shr sum 2)) (groupNoted sum s)
    (by change 0 ≤ (16 * s.now + s.cas.frac : Int) + sat (-2) 2 (sum / 4); omega)
    (by change (16 * s.now + s.cas.frac : Int) + sat (-2) 2 (sum / 4) < 2 ^ 68; omega)).1
  rw [hnow, hfrac, hmove]
  exact congrArg _ hd

/-- Settles O45, by one equation for each of a port's steps, and by bell time in sixteenths of a tick. -/
theorem cascadeLinks : Obligations.CascadeLinks := by
  refine ⟨?bad, ?detected, ?detect, ?failed, ?alignFailed, ?attempt, ?config, ?acquire, ?set, ?probes, ?acqProbe, ?echo, ?loss, ?lossFiring,
    ?within, ?slewed, ?timeLost, ?moved, ?spread⟩
  case bad => exact fun port ts2 data s hrole hcrc => completes_of (casTsReceived_bad hrole hcrc)
  case detected =>
    intro port data s hrole hcrc hst hrun
    exact completes_of ((casTsReceived_good hrole hcrc).trans
      (congrArg finish ((casTrain_detect _ hst).trans (if_pos (by omega)))))
  case detect =>
    intro port data s hrole hcrc hst hrun
    exact completes_of ((casTsReceived_good hrole hcrc).trans
      (congrArg finish ((casTrain_detect _ hst).trans (if_neg (by omega)))))
  case failed =>
    intro port s hst
    refine completes_of ((casTrainTimeout_exec ?_ ?_).trans ?_) <;> rcases hst with e | e | e <;> simp [e]
  case alignFailed =>
    intro port s hst hraised
    refine completes_of ((casTrainTimeout_exec (by simp [hst]) (by simp [hst])).trans ?_)
    rw [if_pos (by simp [hst, hraised])]
  case attempt => exact fun port s hdown hrole hlate hheld => completes_of (casTrainTimeout_down hdown hrole hlate hheld)
  case config =>
    intro port data s hrole hcrc hst hfew
    exact completes_of ((casTsReceived_good hrole hcrc).trans
      (congrArg finish ((casTrain_config _ hst).trans (if_neg (by omega)))))
  case acquire =>
    rintro data s s1 hmember hcrc hst hrun houts rfl
    have hrole : casRole s ≠ 0 := by rw [casRole_of_member hmember]; decide
    refine completes_of ((casTsReceived_good hrole hcrc).trans (congrArg finish ((casTrain_config (port := 0) _ hst).trans ?_)))
    exact (if_pos (And.intro (Nat.succ_le_succ hrun) (Nat.succ_le_succ houts))).trans (if_pos ⟨rfl, hmember⟩)
  case set =>
    intro port name b0 b1 s hswap
    unfold casEmitSet
    rw [hswap]
    rfl
  case probes =>
    intro s hmember hup hsynced
    exact completes_of (congrArg finish (if_pos (by simp [hmember, hup, hsynced])))
  case acqProbe =>
    intro s hmember hst hsynced hchecking hfew
    exact completes_of (congrArg finish (if_pos (by simp [hmember, hst, hsynced, hchecking, hfew])))
  case echo =>
    intro t1 h2 h3 t4 s hmember hup hsynced hfew
    refine completes_of (congrArg finish ((if_pos (by simp [hmember, hup])).trans ((if_pos hsynced).trans (if_pos ?_))))
    exact Nat.succ_lt_succ hfew
  case loss =>
    rintro port s s1 cause c hup hfiring hcause rfl
    refine completes_of ((casLinkLoss_cause hup hcause).trans (congrArg finish ((casLoss_of_active c hup).trans ((if_neg (by simp [hfiring])).trans ?_))))
    unfold linkLost
    simp only [Fin.val_eq_zero_iff]
  case lossFiring =>
    intro port s hup hfiring
    have hglb : haltable (linkLost port s) = true := by
      unfold haltable
      rw [linkLost_glb]
      exact haltable_of_firing hfiring
    rw [(casLinkLoss_exec hup).2, casLoss_of_active 2 hup, if_pos hfiring]
    exact finish_raise_safeHold _ _ _ _ rfl hglb
  case within =>
    intro sum s h
    rw [casGroup_within s h]
    exact groupNoted_time sum s
  case slewed => exact fun sum s h4 h64 hlo hhi _ => casGroup_slew_sixteenths h4 h64 hlo hhi
  case timeLost =>
    intro sum s h hfiring
    rw [casGroup_lost h hfiring]
    exact ⟨rfl, rfl⟩
  case moved => exact fun d s _ h0 h => bellMove_sixteenths d s h0 h
  case spread => exact fun s l h => if_pos h

end Sys2Proof.Machine
end

section
/-!
PROOFS. A seamless stop: its decision, its steps and its commands (spec/13_seamless_stop.md R402 to R416).
-/
namespace Sys2Proof.Machine

/-! ## What the decision fixes (R405, R406) -/

@[simp] theorem setPipe_ss (p : Nat) (st : PipeState) (s : State) : (setPipe p st s).ss = s.ss := by
  unfold setPipe
  split <;> simp

@[simp] theorem setGen_ss (g : Nat) (st : GenState) (s : State) : (setGen g st s).ss = s.ss := by
  unfold setGen
  split <;> simp

theorem forEach_ss {l : List Nat} {f : Nat → State → State} (h : ∀ i s, (f i s).ss = s.ss) (s : State) : (forEach l f s).ss = s.ss := by
  induction l generalizing s with
  | nil => rfl
  | cons i l ih => exact (ih (f i s)).trans (h i s)

@[simp] theorem ssPhase_ss (n : Nat) (s : State) : (ssPhase n s).ss = { s.ss with phase := n } := rfl

/-- The command in force at the decision, to which the transport returns (R409). -/
def ssInForce (s : State) : Goal × Nat :=
  if trKind s = 2 then ((ax s (trIndex s)).prof.goal, ((ax s (trIndex s)).prof.vmax / unitVel).toNat) else (Goal.none, 0)

theorem ssApply_ss (s : State) : (ssApply s).ss = { s.ss with
    phase := 1, td := none, mover := trKind s ≠ 0, v0 := ssV0 s,
    xrest := if trKind s ≠ 0 then ssXrest s (ssV0 s) (ssTe s) else ssPk s,
    xb := if trKind s ≠ 0 then ssXb s (ssV0 s) (ssPk s) s.ss.margin else ssPk s,
    pk := ssPk s, back := (ssInForce s).1, backV := (ssInForce s).2, told := false, go := false } := by
  have hpipe : ∀ p (t : State), (if (dp t p).st = .run then setPipe p .hold (modDot p (fun d => { d with asm := none }) t) else t).ss = t.ss := by
    intro p t
    split <;> simp
  have hgen : ∀ g (t : State), (if (lt t g).st = .run then setGen g .hold (modGen g (fun x => { x with delayed := [] }) t) else t).ss = t.ss := by
    intro g t
    split <;> simp
  unfold ssApply
  dsimp only
  rw [forEach_ss hgen, forEach_ss hpipe]
  simp [ssInForce]

theorem ssReturn_stepper {s : State} (hmover : s.ss.mover = true) (hkind : trKind s = 2) (hmoving : (ax s (trIndex s)).st = .moving) :
    ssReturn s = modProf (trIndex s) (fun x => { x with goal := s.ss.back, vmax := s.ss.backV * unitVel }) s := by
  unfold ssReturn
  dsimp only
  rw [if_neg (by simp [hmover]), if_pos hkind, if_pos hmoving]

/-! ## The steps apply in their phase only (R407) -/

theorem ssRefillGate_exec {s : State} (hphase : s.ss.phase = 4) (hprint : s.glb.state = .print)
    (hfilled : ∀ d ∈ ssHeld s, ssFilled s d = true) (halone : chained s = false) : exec .ssRefillGate s = finish (ssAccel s) := by
  have hgate : ¬(s.ss.phase ≠ 4 ∨ s.glb.state ≠ .print ∨ !(ssHeld s).all (ssFilled s)) := by
    simpa [hphase, hprint] using hfilled
  exact congrArg finish ((if_neg hgate).trans (if_pos (by simp [halone])))

/-- Settles O43, by what ssApply fixes and by the phase of each step. -/
theorem seamlessSteps : Obligations.SeamlessSteps := by
  refine ⟨?drain, ?decel, ?backup, ?refill, ?accel, ?td, ?phases, ?noTd, ?apply, ?applyXb, ?back, ?origin⟩
  case drain =>
    intro s hphase hdrained
    exact completes_of (congrArg finish (if_neg (by simp [hphase, hdrained])))
  case decel =>
    intro s hphase hrested
    exact completes_of (congrArg finish (if_neg (by simp [hphase, hrested])))
  case backup =>
    intro s hphase hrested
    exact completes_of (congrArg finish (if_neg (by simp [hphase, hrested])))
  case refill => exact fun s hphase hprint hfilled halone => completes_of (ssRefillGate_exec hphase hprint hfilled halone)
  case accel => exact fun s hphase => completes_of (congrArg finish (if_pos hphase))
  case td => exact fun s htd hstate => completes_of (congrArg finish (if_pos ⟨htd, hstate⟩))
  case phases =>
    intro s
    exact ⟨fun h => completes_of (congrArg finish (if_pos (Or.inl h))), fun h => completes_of (congrArg finish (if_pos (Or.inl h))),
      fun h => completes_of (congrArg finish (if_pos (Or.inl h))), fun h => completes_of (congrArg finish (if_pos (Or.inl h))),
      fun h => completes_of (congrArg finish (if_neg h))⟩
  case noTd =>
    intro s htd
    exact completes_of (congrArg finish (if_neg (by simp [htd])))
  case apply =>
    intro s
    rw [ssApply_ss]
    exact ⟨rfl, rfl, rfl, rfl, rfl, rfl⟩
  case applyXb =>
    intro s hkind
    rw [ssApply_ss]
    exact if_pos hkind
  case back =>
    rintro d s hmover hkind hmoving rfl
    exact ssReturn_stepper hmover hkind hmoving
  case origin => exact fun g s hsource => if_pos hsource

/-! ## The checks of a decision (R404) -/

theorem ssForbidden_of_barred {s : State} {r : Nat} (h : ssBarred s = some r) : ssForbidden s = some r := by
  unfold ssForbidden
  rw [h]

theorem ssBarred_bounds {s : State} {r : Nat} (h : ssBarred s = some r) : 1 ≤ r ∧ r ≤ 4 := by
  unfold ssBarred at h
  split_ifs at h <;> simp only [Option.some.injEq] at h <;> omega

theorem ssBarred_off {s : State} (h : fld s R.DOT_SSCFG 0 0 = 0) : ssBarred s = some 1 := if_pos h

theorem ssBarred_transport {s : State} (hon : fld s R.DOT_SSCFG 0 0 = 1) (h : trKind s = 0 ∨ (trKind s = 1 ∧ moMode s (trIndex s) = 1)) :
    ssBarred s = some 2 := by
  unfold ssBarred
  rw [if_neg (by omega), if_pos (by simpa using h)]

theorem of_ssBarred_none {s : State} (h : ssBarred s = none) :
    fld s R.DOT_SSCFG 0 0 ≠ 0 ∧ trKind s ≠ 0 ∧ bellMode s = false ∧ (pch s (trPc s)).valid = true ∧ 0 < (pch s (trPc s)).v := by
  unfold ssBarred at h
  split_ifs at h with hoff htr hmode hvalid
  simp only [Bool.or_eq_true, decide_eq_true_eq, Bool.not_eq_true', not_or, not_le] at htr hmode hvalid
  exact ⟨hoff, htr.1, by simpa using hmode.2, by simpa using hvalid.1, hvalid.2⟩

theorem of_ssForbidden_none {s : State} (h : ssForbidden s = none) : ssBarred s = none ∧ s.glb.state = .print ∧
    diff48 (ssXrest s (ssV0 s) (ssTe s)) (ssXb s (ssV0 s) (ssPk s) (ssMargin s)) / 65536 ≤ (rd s R.DOT_SSBACKMAX).toNat := by
  unfold ssForbidden at h
  split at h
  · simp at h
  next hbarred =>
    dsimp only at h
    split_ifs at h with hfar hsoft hprint
    exact ⟨hbarred, not_not.mp hprint, not_lt.mp hfar⟩

/-! ## SSTOP and ABANDON (R416) -/

section
variable {u : State} (hscan : scanning u = false) (hidle : ssRuns u = false) (hdecides : ssDecides u = true)
include hscan hidle hdecides

/-- A device that decides, with no sequence running, forbids the stop or decides it. -/
theorem ssTry_forbids (c : SsCause) {r : Nat} (h : ssForbidden u = some r) : ssTry c u = (ssForbid r u, some r) := by
  unfold ssTry
  rw [if_neg (by simp [hscan]), if_neg (by simp [hidle]), if_neg (by simp [hdecides]), h]

theorem ssTry_allows (c : SsCause) (h : ssForbidden u = none) : ssTry c u = (ssDecide c u, none) := by
  unfold ssTry
  rw [if_neg (by simp [hscan]), if_neg (by simp [hidle]), if_neg (by simp [hdecides]), h]

/-- The Invar values that the evaluation uses agree, where it uses them. -/
theorem ssAsk_decides (c : SsCause) (hinvar : ssBarred u = none → invarAgrees u R.DOT_SSMARGIN = true ∧
      invarAgrees u R.DOT_SSBACKMAX = true ∧ useSoft (trKind u) (trIndex u) u = u) : ssAsk c u = ssTry c u := by
  unfold ssAsk
  by_cases hbarred : ssBarred u = none
  · obtain ⟨hmargin, hbackmax, hsoft⟩ := hinvar hbarred
    have huse : useInvar [R.DOT_SSMARGIN, R.DOT_SSBACKMAX] u = u :=
      useInvar_of_agrees (by simp [hmargin, hbackmax])
    rw [if_pos (by simp [ssEvaluates, hscan, hidle, hdecides, hbarred]), huse, hsoft]
  · rw [if_neg (by simp [ssEvaluates, hbarred])]

end

theorem ssAsk_joins {u : State} (hscan : scanning u = false) (hruns : ssRuns u = true) (c : SsCause) :
    ssAsk c u = (ssCauseBit c.bit u, none) := by
  unfold ssAsk
  rw [if_neg (by simp [ssEvaluates, hruns])]
  unfold ssTry
  rw [if_neg (by simp [hscan]), if_pos hruns]

theorem ssCmd_print {u : State} (h : u.glb.state = .print) : ssCmd 1 u = ssStopCmd u := by
  unfold ssCmd
  rw [h]
  rfl

theorem ssStopCmd_taken {u v : State} (h : ssAsk .software u = (v, none)) : ssStopCmd u = ssResult 1 1 0 u.ss.phase v := by
  unfold ssStopCmd
  rw [h]

theorem ssStopCmd_forbidden {u v : State} {r : Nat} (h : ssAsk .software u = (v, some r)) :
    ssStopCmd u = ssResult 1 4 r u.ss.phase v := by
  unfold ssStopCmd
  rw [h]

theorem ssCmd_elsewhere {u : State} (h : u.glb.state ∉ [GState.off, .print, .stopping, .armed]) :
    ssCmd 1 u = ssResult 1 2 0 u.ss.phase u ∧ ssCmd 2 u = ssResult 2 2 0 u.ss.phase u := by
  unfold ssCmd
  generalize u.glb.state = g at h
  cases g <;> simp at h <;> exact ⟨rfl, rfl⟩

theorem ssCmd_abandon {u : State} (h : u.glb.state = .print ∨ u.glb.state = .stopping) :
    ssCmd 2 u = if u.ss.phase ≠ 0 then ssResult 2 1 0 u.ss.phase (ssAbandon u) else ssResult 2 2 0 u.ss.phase u := by
  unfold ssCmd
  rcases h with h | h <;> rw [h] <;> rfl

/-- Settles O44, by the order of the checks of R404. -/
theorem seamlessDecision : Obligations.SeamlessDecision := by
  refine ⟨?decided, ?forbidden, ?joined, ?elsewhere, ?abandon, ?nothing, ?barred, ?off, ?transport, ?allowed⟩
  case decided =>
    rintro s u hopen rfl hprint hscan hidle hdecides hmargin hbackmax hsoft hnone
    refine bar0Write_completes (f := ssCmd 1) rfl hopen ((ssCmd_print hprint).trans (ssStopCmd_taken ?_))
    rw [ssAsk_decides hscan hidle hdecides _ (fun _ => ⟨hmargin, hbackmax, hsoft⟩), ssTry_allows hscan hidle hdecides _ hnone]
  case forbidden =>
    rintro s u r hopen rfl hprint hscan hidle hdecides hinvar hsome
    refine bar0Write_completes (f := ssCmd 1) rfl hopen ((ssCmd_print hprint).trans (ssStopCmd_forbidden ?_))
    rw [ssAsk_decides hscan hidle hdecides _ hinvar, ssTry_forbids hscan hidle hdecides _ hsome]
    rfl
  case joined =>
    rintro s u hopen rfl hprint hscan hruns
    exact bar0Write_completes (f := ssCmd 1) rfl hopen ((ssCmd_print hprint).trans (ssStopCmd_taken (ssAsk_joins hscan hruns _)))
  case elsewhere =>
    rintro s u hopen rfl hstate
    exact ⟨bar0Write_completes (f := ssCmd 1) rfl hopen (ssCmd_elsewhere hstate).1,
      bar0Write_completes (f := ssCmd 2) rfl hopen (ssCmd_elsewhere hstate).2⟩
  case abandon =>
    rintro s u hopen rfl hstate hphase
    exact bar0Write_completes (f := ssCmd 2) rfl hopen ((ssCmd_abandon hstate).trans (if_pos hphase))
  case nothing =>
    rintro s u hopen rfl hstate hphase
    refine bar0Write_completes (f := ssCmd 2) rfl hopen ((ssCmd_abandon hstate).trans ?_)
    rw [hphase]
    rfl
  case barred => exact fun s r h => ⟨ssForbidden_of_barred h, ssBarred_bounds h⟩
  case off => exact fun s h => ssForbidden_of_barred (ssBarred_off h)
  case transport => exact fun s hon h => ssForbidden_of_barred (ssBarred_transport hon h)
  case allowed =>
    intro s h
    obtain ⟨hbarred, hprint, hback⟩ := of_ssForbidden_none h
    obtain ⟨hon, htr, hmode, hvalid, hv⟩ := of_ssBarred_none hbarred
    exact ⟨hon, htr, hmode, hvalid, hv, hprint, hback⟩

end Sys2Proof.Machine
end

section
/-!
PROOFS. The commands of a stepper axis: where the axis is open to them, what each does, and the refusal (spec/11_steppers.md R368 to R370).
-/
namespace Sys2Proof.Machine

/-! ## Where an axis is open to a command (R368 to R370) -/

theorem axUsed_of_stpOpen {s : State} {n cmd : Nat} (h : stpOpen s n cmd = true) : axUsed s n = true := by
  simp only [stpOpen, Bool.and_eq_true] at h
  exact h.1.1

theorem off_ne_of_stpOpen {s : State} {n cmd : Nat} (h : stpOpen s n cmd = true) : s.glb.state ≠ .off := by
  intro e
  simp [stpOpen, holding, e] at h

theorem holding_of_stpOpen {s : State} {n cmd : Nat} (h : stpOpen s n cmd = true) (h2 : cmd ≠ 2) (h9 : cmd ≠ 9) : holding s = false := by
  simp only [stpOpen, holding] at h ⊢
  cases e : s.glb.state <;> simp [e, h2, h9] at h ⊢

theorem stpOpen_unused {s : State} {n : Nat} (cmd : Nat) (h : axUsed s n = false) : stpOpen s n cmd = false := by
  simp [stpOpen, h]

theorem stpOpen_early {s : State} (n cmd : Nat) (h : s.glb.state.code < 5) : stpOpen s n cmd = false := by
  unfold stpOpen holding
  revert h
  cases s.glb.state <;> simp [GState.code]

theorem stpOpen_owned {s : State} {n cmd : Nat} (h : axOwned s n = true) (hcmd : cmd ∈ [2, 3, 4, 5, 7, 8]) : stpOpen s n cmd = false := by
  simp only [List.mem_cons, List.not_mem_nil, or_false] at hcmd
  rcases hcmd with rfl | rfl | rfl | rfl | rfl | rfl <;> simp [stpOpen, h]

theorem stpOpen_holding {s : State} (n : Nat) {cmd : Nat} (h : holding s = true) (h2 : cmd ≠ 2) (h9 : cmd ≠ 9) : stpOpen s n cmd = false := by
  by_contra ho
  simp [holding_of_stpOpen (by simpa using ho) h2 h9] at h

theorem stpOpen_running {s : State} {n : Nat} (hused : axUsed s n = true) (hstate : s.glb.state ∈ [GState.idle, .armed, .print, .stopping])
    (howned : axOwned s n = false) (cmd : Nat) : stpOpen s n cmd = true := by
  simp only [List.mem_cons, List.not_mem_nil, or_false] at hstate
  rcases hstate with e | e | e | e <;> simp [stpOpen, hused, howned, e]

/-! ## The command and its result -/

theorem axCode_used {s : State} {n : Nat} (h : axUsed s n = true) : axCode s n = (ax s n).st.code := if_pos h

section
variable {n cmd : Nat} {u : State}

theorem stpCmd_open (hopen : stpOpen u n cmd = true) (hcmd : 1 ≤ cmd ∧ cmd ≤ 9) {neg flt : Bool} {res : Nat} {v : State}
    (h : stpTable n cmd neg flt u = (res, v)) : stpCmd n cmd neg flt u = stpResult n cmd res (axCode u n) v := by
  unfold stpCmd
  dsimp only
  rw [if_neg (off_ne_of_stpOpen hopen), if_neg (by omega), if_neg (by simp [hopen]), h]

/-- The state that the status word shows, spelled out. -/
theorem stpCmd_open_at (hopen : stpOpen u n cmd = true) (hcmd : 1 ≤ cmd ∧ cmd ≤ 9) {st : AxSt} (hst : (ax u n).st = st) {neg flt : Bool}
    {res : Nat} {v : State} (h : stpTable n cmd neg flt u = (res, v)) : stpCmd n cmd neg flt u = stpResult n cmd res st.code v := by
  rw [stpCmd_open hopen hcmd h, axCode_used (axUsed_of_stpOpen hopen), hst]

theorem stpCmd_refused (hoff : u.glb.state ≠ .off) (hopen : stpOpen u n cmd = false) (hcmd : 1 ≤ cmd ∧ cmd ≤ 9) (neg flt : Bool) :
    stpCmd n cmd neg flt u = logEvent Ev.STP_CMD_REJECT n n cmd 2
      (wr (R.STP_SAn_CMD_STATUS n) (BitVec.ofNat 32 (2 + 16 * axCode u n + 256 * cmd)) u) := by
  unfold stpCmd
  dsimp only
  rw [if_neg hoff, if_neg (by omega), if_pos (by simp [hopen])]
  rfl

end

/-! ## The table of R370 -/

section
variable {n : Nat} {u : State} (neg flt : Bool)

theorem stpTable_enable (h : (ax u n).st = .off) : stpTable n 1 neg flt u = (1, stpEnable n u) := if_pos h

theorem stpTable_disable (hoff : (ax u n).st ≠ .off) (hfault : (ax u n).st ≠ .fault) : stpTable n 2 neg flt u = (1, axOff n u) :=
  if_neg (not_or.mpr ⟨hoff, hfault⟩)

theorem stpTable_move (hst : (ax u n).st = .hold ∨ (ax u n).st = .moving) (hsoft : useSoft 2 n u = u) (hhold : holding u = false) :
    stpTable n 3 neg flt u = if axBadTarget u n (rd u (R.STP_SAn_TGT n)).toNat = true then (4, u)
      else (1, axPlan n (.pos (rd u (R.STP_SAn_TGT n)).toNat) u) := by
  refine (if_pos hst).trans ?_
  rw [hsoft, hhold, axMove]
  have hstill : ¬((ax u n).st ≠ .hold ∧ (ax u n).st ≠ .moving) := by
    rintro ⟨hh, hm⟩
    exact hst.elim hh hm
  by_cases hbad : axBadTarget u n (rd u (R.STP_SAn_TGT n)).toNat = true
  · rw [if_pos (Or.inr hbad), if_pos hbad]
    rfl
  · rw [if_neg (not_or.mpr ⟨hstill, hbad⟩), if_neg hbad]
    rfl

theorem stpTable_jog (hst : (ax u n).st = .hold ∨ (ax u n).st = .moving) (hsoft : useSoft 2 n u = u) (hhold : holding u = false)
    (hlimit : (if neg then (ax u n).lima else (ax u n).limb) = false) :
    stpTable n 4 neg flt u = (1, axPlan n (jogGoal u n neg) u) := by
  refine (if_pos hst).trans ?_
  rw [hsoft, hhold]
  refine (if_neg (by decide)).trans (if_neg ?_)
  cases neg <;> simp_all

theorem stpTable_stop (h : (ax u n).st = .moving) : stpTable n 5 neg flt u = (1, modProf n (fun x => { x with goal := .stop }) u) :=
  congrArg (Prod.mk 1) (if_pos h)

theorem stpTable_estop (h : (ax u n).st = .moving ∨ (ax u n).st = .homing) : stpTable n 6 neg flt u = (1, axRamp n false none u) := if_pos h

theorem stpTable_home (h : (ax u n).st = .hold) : stpTable n 7 neg flt u = (1, homeStart n u) := if_pos h

theorem stpTable_setpos (h : (ax u n).st = .off ∨ (ax u n).st = .hold) : stpTable n 8 neg flt u =
    (1, axRefs n (modProf n (fun x => x.place ((rd u (R.STP_SAn_PRESET n)).toNat * 65536)) u)) := if_pos h

theorem stpTable_clrfault (h : (ax u n).st = .fault) : stpTable n 9 neg flt u = if flt then (5, u) else (1, axOff n u) := if_pos h

end

/-- Settles O38, by the table of states and commands. -/
theorem axisCommands : Obligations.AxisCommands := by
  refine ⟨?enable, ?disable, ?move, ?badMove, ?jog, ?stop, ?estop, ?home, ?setpos, ?clrfault⟩
  case enable =>
    rintro n s u hopen rfl hcmd hst
    exact bar0Write_completes (f := stpCmd n 1 false false) rfl hopen
      (stpCmd_open_at hcmd (by decide) hst (stpTable_enable false false hst))
  case disable =>
    rintro n s u hopen rfl hcmd hoff hfault
    exact bar0Write_completes (f := stpCmd n 2 false false) rfl hopen
      (stpCmd_open hcmd (by decide) (stpTable_disable false false hoff hfault))
  case move =>
    rintro n s u hopen rfl hcmd hst hsoft hgood
    refine bar0Write_completes (f := stpCmd n 3 false false) rfl hopen (stpCmd_open hcmd (by decide) ?_)
    exact (stpTable_move false false hst hsoft (holding_of_stpOpen hcmd (by decide) (by decide))).trans (if_neg (Bool.eq_false_iff.mp hgood))
  case badMove =>
    rintro n s u hopen rfl hcmd hst hsoft hbad
    refine bar0Write_completes (f := stpCmd n 3 false false) rfl hopen (stpCmd_open hcmd (by decide) ?_)
    exact (stpTable_move false false hst hsoft (holding_of_stpOpen hcmd (by decide) (by decide))).trans (if_pos hbad)
  case jog =>
    rintro n neg s u hopen rfl hcmd hst hsoft hlimit
    exact bar0Write_completes (f := stpCmd n 4 neg false) rfl hopen (stpCmd_open hcmd (by decide)
      (stpTable_jog neg false hst hsoft (holding_of_stpOpen hcmd (by decide) (by decide)) hlimit))
  case stop =>
    rintro n s u hopen rfl hcmd hst
    exact bar0Write_completes (f := stpCmd n 5 false false) rfl hopen
      (stpCmd_open_at hcmd (by decide) hst (stpTable_stop false false hst))
  case estop =>
    rintro n s u hopen rfl hcmd hst
    exact bar0Write_completes (f := stpCmd n 6 false false) rfl hopen
      (stpCmd_open hcmd (by decide) (stpTable_estop false false hst))
  case home =>
    rintro n s u hopen rfl hcmd hst
    exact bar0Write_completes (f := stpCmd n 7 false false) rfl hopen
      (stpCmd_open_at hcmd (by decide) hst (stpTable_home false false hst))
  case setpos =>
    rintro n s u hopen rfl hcmd hst
    exact bar0Write_completes (f := stpCmd n 8 false false) rfl hopen
      (stpCmd_open hcmd (by decide) (stpTable_setpos false false hst))
  case clrfault =>
    rintro n s u hopen rfl hcmd hst
    exact ⟨bar0Write_completes (f := stpCmd n 9 false false) rfl hopen
        (stpCmd_open_at hcmd (by decide) hst (stpTable_clrfault false false hst)),
      bar0Write_completes (f := stpCmd n 9 false true) rfl hopen
        (stpCmd_open_at hcmd (by decide) hst (stpTable_clrfault false true hst))⟩

/-- The command register's write that each command of an axis is. -/
theorem exec_axisCommand {n : Fin 8} {s : State} {c : Instr} {cmd : Nat}
    (h : (c, cmd) ∈ [(Instr.stpEnable n, 1), (.stpDisable n, 2), (.stpMove n, 3), (.stpJog n true, 4), (.stpJog n false, 4), (.stpStop n, 5),
      (.stpEstop n, 6), (.stpHome n, 7), (.stpSetpos n, 8), (.stpClrfault n true, 9), (.stpClrfault n false, 9)]) :
    (1 ≤ cmd ∧ cmd ≤ 9) ∧ ∃ neg flt, exec c s = finish (viaBar0 (R.STP_SAn_CMD n) (stpCmd n cmd neg flt) s) := by
  simp only [List.mem_cons, Prod.mk.injEq, List.not_mem_nil, or_false] at h
  obtain ⟨rfl, rfl⟩ | ⟨rfl, rfl⟩ | ⟨rfl, rfl⟩ | ⟨rfl, rfl⟩ | ⟨rfl, rfl⟩ | ⟨rfl, rfl⟩ | ⟨rfl, rfl⟩ | ⟨rfl, rfl⟩ | ⟨rfl, rfl⟩ | ⟨rfl, rfl⟩ |
    ⟨rfl, rfl⟩ := h
  all_goals exact ⟨by decide, _, _, rfl⟩

/-- Settles O39, by the conditions of stpOpen. -/
theorem axisCommandsRefused : Obligations.AxisCommandsRefused := by
  refine ⟨?refused, fun _ _ cmd h => stpOpen_unused cmd h, fun _ n cmd h => stpOpen_early n cmd h, fun _ _ _ h hcmd => stpOpen_owned h hcmd,
    fun _ n _ h h2 h9 => stpOpen_holding n h h2 h9, fun _ _ hused hstate howned cmd => stpOpen_running hused hstate howned cmd⟩
  rintro n s u c cmd hopen rfl hoff hclosed hc
  obtain ⟨hcmd, neg, flt, hexec⟩ := exec_axisCommand (s := s) hc
  exact bar0Write_completes hexec hopen (stpCmd_refused hoff hclosed hcmd neg flt)

end Sys2Proof.Machine
end

section
/-!
PROOFS. The motion of a stepper axis: an update of the generator, its goals, the coils and the inputs (spec/11_steppers.md R347 to R367).
-/
namespace Sys2Proof.Machine

/-! ## An update (R349 to R354) -/

section
variable {n : Nat} {s : State}

theorem axJog_still (h : (ax s n).st ≠ .moving) : axJog n s = s := if_pos (Or.inl h)

theorem axJog_vel {neg : Bool} (hst : (ax s n).st = .moving) (hphase : s.ss.phase = 0) (hgoal : (ax s n).prof.goal = .vel neg) :
    axJog n s = modProf n (fun p => { p with goal := jogGoal s n neg }) s := by
  refine (if_neg (by simp [hst, hphase])).trans ?_
  rw [hgoal]

theorem homeFar_still (h : (ax s n).st ≠ .homing) : homeFar n s = s := by
  unfold homeFar
  dsimp only
  split
  · contradiction
  · rfl

theorem homeFar_near {neg : Bool} {t : Nat} (hst : (ax s n).st = .homing) (hphase : (ax s n).phase = 2)
    (hgoal : (ax s n).prof.goal = .vel neg) (hafter : (ax s n).after = some t)
    (hnear : if neg then (ax s n).prof.dist t ≤ 0 else 0 ≤ (ax s n).prof.dist t) :
    homeFar n s = modAx n (fun x => { x with after := none, prof := { x.prof with goal := .pos t } }) s := by
  unfold homeFar
  dsimp only
  rw [hst, hphase, hgoal, hafter]
  exact if_pos hnear

end

/-- A target reached is met exactly, and the goal is gone (R349). -/
theorem move_reached {x : Prof} {t e : Nat} (hgoal : x.goal = .pos t ∨ x.goal = .jog t) (h : (x.next e).2.2 = true) :
    x.move (x.next e) = { x with p := t * unitPos, v := 0, a := 0, goal := .none } := by
  unfold Prof.move
  rcases hgoal with hg | hg <;> rw [hg, h]

/-- The emergency ramp takes edec off the speed at each update (R353). -/
theorem next_emerg {x : Prof} (e : Nat) (hgoal : x.goal = .emerg) (hv : 0 < x.v) :
    x.next e = (max (x.v - e * unitAcc) 0, if x.v ≤ e * unitAcc then 0 else -(e * unitAcc), decide (max (x.v - e * unitAcc) 0 = 0)) := by
  unfold Prof.next emergStep
  rw [hgoal]
  dsimp only
  rw [if_pos hv]

theorem profileUpdate_energised {n : Fin 8} {s : State} (hused : axUsed s n = true) (hoff : (ax s n).st ≠ .off) (hfault : (ax s n).st ≠ .fault)
    (hinvar : ∀ o, o ∈ [R.STP_SAn_EDEC n, R.STP_SAn_SOFTMIN n, R.STP_SAn_SOFTMAX n, R.STP_SAn_STALLWIN n, R.STP_SAn_LIMCFG n] →
      invarAgrees s o = true) :
    exec (.profileUpdate n) s =
      finish (axStall n (axModeCheck n (axInt s n) (axAdvance n (axSoftCheck n (homeFar n (axJog n s)))))) := by
  refine congrArg finish ((if_neg (by simp [hused])).trans ((if_neg (not_or.mpr ⟨hoff, hfault⟩)).trans ?_))
  dsimp only
  rw [useInvar_of_agrees hinvar]

/-! ## The coils (R357 to R360) -/

theorem coilDrive_quiet {s : State} {n : Nat} (h : (ax s n).strong = false) (c : Int) (ma : Nat) :
    coilDrive s n c ma =
      Int.tdiv (c * (if (ax s n).low then fld s (R.STP_SAn_QAMP n) 27 16 else fld s (R.STP_SAn_QAMP n) 11 0 : Nat)) 4096 := by
  unfold coilDrive
  dsimp only
  rw [if_neg (by simp [h])]
  cases (ax s n).low <;> rfl

section
variable {s : State} {n : Nat} {c : Int} {ma : Nat} (hstrong : (ax s n).strong = true) (hrun : (ax s n).low = false) (hc : 0 < c)
include hstrong hrun hc

/-- The chopper of a positive set-point at run current. -/
theorem coilDrive_strong : coilDrive s n c ma =
    if ma < c.natAbs * fld s (R.STP_SAn_IRUN n) 15 0 / 4096 then 4096
    else Int.tdiv (4096 * ((pwmPeriod s n : Int) - (if fld s (R.STP_SAn_PWM n) 7 7 = 1
      then 2 * (min (pwmPeriod s n) (100 * fld s (R.STP_SAn_PWM n) 23 16) : Nat)
      else (min (pwmPeriod s n) (100 * fld s (R.STP_SAn_PWM n) 23 16) : Nat)))) (max 1 (pwmPeriod s n) : Nat) := by
  unfold coilDrive
  dsimp only
  rw [if_pos hstrong, hrun, if_neg (by omega : ¬c < 0), if_neg (by omega : ¬c = 0)]
  rfl

end


theorem stepperPwm_dark {n : Fin 8} {s : State} (va vb : BitVec 24) (h : axUsed s n = false ∨ (ax s n).st = .off ∨ (ax s n).dark = true) :
    exec (.stepperPwmPeriod n va vb) s = finish (modAx n (fun x => { x with coilA := 0, coilB := 0 }) s) :=
  congrArg finish (if_pos (by simpa using h))

/-- The drive of both coils at a state in which the run current agrees. -/
def coilsDriven (n va vb : Nat) (s : State) : State :=
  modAx n (fun x => { x with
    coilA := coilDrive s n (setPoints s n).1 (quot va (fld s (R.STP_SAn_SHUNT n) 15 0)),
    coilB := coilDrive s n (setPoints s n).2 (quot vb (fld s (R.STP_SAn_SHUNT n) 15 0)) }) s

theorem stepperPwm_driven {n : Fin 8} {s s1 : State} {va vb : BitVec 24} (hused : axUsed s n = true) (hoff : (ax s n).st ≠ .off)
    (hdark : (ax s n).dark = false)
    (h1 : s1 = if (ax s n).strong then adcPut (41 + 2 * n.val) (vb.toNat / 1000) (adcPut (40 + 2 * n.val) (va.toNat / 1000) s) else s)
    (hinvar : invarAgrees s1 (R.STP_SAn_IRUN n) = true) :
    exec (.stepperPwmPeriod n va vb) s = finish (coilsDriven n va.toNat vb.toNat s1) := by
  subst h1
  refine congrArg finish ((if_neg (by simp [hused, hoff, hdark])).trans ?_)
  dsimp only
  rw [useInvar_of_agrees (by simpa using hinvar)]
  rfl

/-- The full step and the table's entry give the set-points; with the direction input straight (R357). -/
theorem setPoints_straight {s : State} {n a b : Nat} (ht : microstep s n (axInt s n % 256) = (a, b)) (hdir : bitOf (axInputs s n) 4 = false) :
    setPoints s n = (match axInt s n % 1024 / 256 with
      | 0 => ((a : Int), (b : Int))
      | 1 => (-b, a)
      | 2 => (-a, -b)
      | _ => (b, -a)) := by
  have he : axInt s n % 1024 % 256 = axInt s n % 256 := by omega
  unfold setPoints
  dsimp only
  rw [hdir, he, ht]
  rfl

/-! ## The inputs (R347, R355, R362 to R367) -/

theorem axSev_warn {s : State} {n : Nat} (htr : axIsTransport s n = false) (hca : axIsCarriage s n = false) : axSev s n = .warn :=
  if_neg (by simp [htr, hca])

theorem axSev_halt {s : State} {n : Nat} (htr : axIsTransport s n = true) : axSev s n = .halt := if_pos (by simp [htr])

/-- A faulty bridge takes its axis to FAULT with its outputs low (R347). -/
def bridgeFaulted (n : Nat) (s : State) : State :=
  axRelease n (setAx n .fault (modAx n (fun x => { x with
    prof := { x.prof with v := 0, a := 0, goal := .none }, phase := 0, after := none, toFault := false, dark := true,
    coilA := 0, coilB := 0 }) (setFlag (R.STP_SAn_FLAG n) 3 s)))

theorem haltable_bridgeFaulted {s : State} (n : Nat) (h : haltable s = true) : haltable (bridgeFaulted n s) = true := by
  have hset : (setAx n .fault (modAx n (fun x => { x with
      prof := { x.prof with v := 0, a := 0, goal := .none }, phase := 0, after := none, toFault := false, dark := true,
      coilA := 0, coilB := 0 }) (setFlag (R.STP_SAn_FLAG n) 3 s))).glb.state = s.glb.state := (fq_setAx ..).falls
  have hstate : (bridgeFaulted n s).glb.state = s.glb.state := (fq_axRelease ..).falls.trans hset
  unfold haltable
  rw [hstate]
  exact h

theorem stpBridgeFault_exec {n : Fin 8} {s : State} (hused : axUsed s n = true) (hdark : (ax s n).dark = false) :
    exec (.stpBridgeFault n) s =
      finish (raise (Ev.STP_BRIDGE_FAULT (axSev s n)) n n (axCode s n) (axInt s n) (bridgeFaulted n s)) :=
  congrArg finish (if_neg (by simp [hused, hdark]))

theorem trLost_other {s : State} {n : Nat} (h : axIsTransport s n = false) : trLost s 2 n = s := by
  refine if_neg ?_
  simpa [axIsTransport] using h

/-- A limit input takes its level. -/
def limitTaken (n : Nat) (limB asserted : Bool) (s : State) : State :=
  modAx n (fun x => if limB then { x with limb := asserted } else { x with lima := asserted }) s

theorem limitQualified_released {n : Fin 8} (limB : Bool) (s : State) :
    exec (.limitQualified n limB false) s = finish (limitTaken n limB false s) :=
  congrArg finish (if_pos (Or.inr rfl))

/-- What a limit input says of the axis's motion is nothing. -/
theorem ax_limitTaken (n : Nat) (limB asserted : Bool) (s : State) : (ax (limitTaken n limB asserted s) n).st = (ax s n).st ∧
    (ax (limitTaken n limB asserted s) n).prof = (ax s n).prof ∧ (ax (limitTaken n limB asserted s) n).toFault = (ax s n).toFault := by
  unfold limitTaken
  rw [ax_modAx]
  cases limB <;> exact ⟨rfl, rfl, rfl⟩

/-- What a limit that ends a motion leaves: its flag and its event. -/
def limitStruck (n : Nat) (limB : Bool) (pos : Nat) (s : State) : State :=
  logEvent Ev.STP_LIMIT n n (if limB then 2 else 1) pos (setFlag (R.STP_SAn_FLAG n) 2 s)

theorem limitQualified_moving {n : Fin 8} {limB : Bool} {s : State} (hused : axUsed s n = true) (hst : (ax s n).st = .moving)
    (htoward : if limB then 0 < (ax s n).prof.v else (ax s n).prof.v < 0) (htr : axIsTransport s n = false) :
    exec (.limitQualified n limB true) s =
      finish (axRamp n (ax s n).toFault none (limitStruck n limB (axInt s n) (limitTaken n limB true s))) := by
  obtain ⟨hst', hprof, hfault⟩ := ax_limitTaken n limB true s
  have hint : axInt (limitTaken n limB true s) n = axInt s n := by unfold axInt; rw [hprof]
  have hway : (if limB then decide (0 < (ax (limitTaken n limB true s) n).prof.v)
      else decide ((ax (limitTaken n limB true s) n).prof.v < 0)) = true := by
    rw [hprof]
    cases limB <;> simpa using htoward
  have hacts : ¬((!axUsed (limitTaken n limB true s) n) = true ∨ (!true) = true) := by
    have hused' : axUsed (limitTaken n limB true s) n = true := hused
    simp [hused']
  have hhoming : (ax (limitTaken n limB true s) n).st ≠ .homing := by
    rw [hst', hst]
    decide
  have hstays : trLost (limitStruck n limB (axInt (limitTaken n limB true s) n) (limitTaken n limB true s)) 2 n =
      limitStruck n limB (axInt (limitTaken n limB true s) n) (limitTaken n limB true s) := trLost_other htr
  rw [← hint, ← hfault, ← hstays]
  exact congrArg finish ((if_neg hacts).trans ((if_neg hhoming).trans (if_pos ⟨hway, Or.inl (hst'.trans hst)⟩)))

theorem fld_modAx (n : Nat) (f : Axis → Axis) (s : State) (o hi lo : Nat) : fld (modAx n f s) o hi lo = fld s o hi lo := rfl

theorem homeEdgeQualified_exec {n : Fin 8} {active : Bool} {first : FirstEdge} {chans : Vector (BitVec 56) 8} {s s1 : State}
    (hused : axUsed s n = true)
    (h1 : s1 = modAx n (fun x => if homeSeparate s n then { x with home := active }
      else if homeNeg s n then { x with lima := active } else { x with limb := active }) s)
    (hcap : ∀ c < 8, fld s (R.POS_PCn_CAPCFG c) 1 0 ≠ 2) :
    exec (.homeEdgeQualified n active first chans) s =
      finish (homeEdge n active first.pos.toNat (s1.now - first.ago.toNat) s1) := by
  subst h1
  refine congrArg finish ?_
  dsimp only
  rw [those, List.filter_eq_nil_iff.mpr (fun c hc => by simp [fld_modAx, hcap c (List.mem_range.mp hc)])]
  exact if_pos hused

theorem homeEdge_latched {n : Nat} {s : State} (active : Bool) (pos t : Nat) (h : (ax s n).edge = true) : homeEdge n active pos t s = s :=
  if_pos (Or.inr (Or.inl h))

theorem homeEdge_belongsToBack {n : Nat} {s : State} (active : Bool) (pos : Nat) {t : Nat} (hphase : (ax s n).phase = 3)
    (ht : t ≤ (ax s n).phaseAt) : homeEdge n active pos t s = s :=
  if_pos (Or.inr (Or.inr ⟨hphase, ht⟩))

theorem homeEdge_slow {n : Nat} {s : State} (pos : Nat) {t : Nat} (hst : (ax s n).st = .homing) (hedge : (ax s n).edge = false)
    (hphase : (ax s n).phase = 3) (ht : (ax s n).phaseAt < t) :
    homeEdge n true pos t s = modProf n (fun p => { p with goal := .stop }) (homeLatch n pos s) := by
  unfold homeEdge
  dsimp only
  rw [if_neg (by simp [hst, hedge, ht]), if_neg (by simp [hphase]), if_neg (by simp [hphase]), if_pos ⟨hphase, rfl⟩]

/-- Settles O37, by an equation for each update, period and input. -/
theorem axisMotion : Obligations.AxisMotion := by
  refine ⟨?update, ?unused, ?off, ?jogStill, ?jogVel, ?farStill, ?farNear, ?reached, ?emerg, ?dark, ?quiet, ?points, ?strong, ?full, ?decay,
    ?bridge, ?bridgeHalt, ?limitOff, ?limit, ?chatter, ?hold, ?home, ?slow, ?latched, ?toBack⟩
  case update => exact fun n s hused hoff hfault hinvar => completes_of (profileUpdate_energised hused hoff hfault hinvar)
  case unused => exact fun n s hused => completes_of (congrArg finish (if_pos (by simp [hused])))
  case off =>
    intro n s hused hst
    exact completes_of (congrArg finish ((if_neg (by simp [hused])).trans (if_pos hst)))
  case jogStill => exact fun n s h => axJog_still h
  case jogVel => exact fun n neg s hst hphase hgoal => axJog_vel hst hphase hgoal
  case farStill => exact fun n s h => homeFar_still h
  case farNear => exact fun n neg t s hst hphase hgoal hafter hnear => homeFar_near hst hphase hgoal hafter hnear
  case reached =>
    intro x t e hgoal h
    rw [move_reached hgoal h]
    exact ⟨rfl, rfl, rfl, rfl⟩
  case emerg =>
    intro x e hgoal hv
    rw [next_emerg e hgoal hv]
    refine ⟨rfl, ?_⟩
    rw [decide_eq_true_iff]
    omega
  case dark => exact fun n va vb s h => completes_of (stepperPwm_dark va vb h)
  case quiet =>
    intro n va vb s hused hoff hdark hquiet hinvar
    refine completes_of ((stepperPwm_driven hused hoff hdark (by rw [hquiet]; rfl) hinvar).trans ?_)
    unfold coilsDriven
    rw [coilDrive_quiet hquiet, coilDrive_quiet hquiet]
  case points => exact fun s n a b ht hdir => setPoints_straight ht hdir
  case strong =>
    intro n va vb s s1 hused hoff hdark hstrong h1 hinvar
    exact completes_of (stepperPwm_driven hused hoff hdark (h1.trans (by rw [hstrong]; rfl)) hinvar)
  case full => exact fun s n c ma hstrong hrun hc hma => (coilDrive_strong hstrong hrun hc).trans (if_pos hma)
  case decay =>
    rintro s n c ma off hstrong hrun hc hma rfl
    exact (coilDrive_strong hstrong hrun hc).trans (if_neg (by omega))
  case bridge =>
    intro n s hused hdark htr hca
    refine completes_of ((stpBridgeFault_exec hused hdark).trans ?_)
    rw [axSev_warn htr hca]
    rfl
  case bridgeHalt =>
    intro n s hused hdark htr hs
    rw [stpBridgeFault_exec hused hdark, axSev_halt htr]
    exact finish_raise_safeHold _ _ _ _ rfl (haltable_bridgeFaulted n hs)
  case limitOff => exact fun n limB s => completes_of (limitQualified_released limB s)
  case limit =>
    rintro n limB s s1 hused hst htoward htr rfl
    exact completes_of (limitQualified_moving hused hst htoward htr)
  case chatter => exact fun n s hst => completes_of (congrArg finish (if_pos hst))
  case hold => exact fun n s hst hv => completes_of (congrArg finish (if_pos ⟨hst, hv⟩))
  case home => exact fun n active first chans s s1 hused h1 hcap => completes_of (homeEdgeQualified_exec hused h1 hcap)
  case slow => exact fun n pos t s hst hedge hphase ht => homeEdge_slow pos hst hedge hphase ht
  case latched => exact fun n active pos t s h => homeEdge_latched active pos t h
  case toBack => exact fun n active pos t s hphase ht => homeEdge_belongsToBack active pos hphase ht

end Sys2Proof.Machine
end

section
/-!
PROOFS. The commands of a motor channel: where the channel is open to them, what each does, and the refusal (spec/12_motor_drive.md R397 to
R399).
-/
namespace Sys2Proof.Machine

/-! ## Where a channel is open to a command (R397 to R399) -/

theorem moUsed_of_motOpen {s : State} {n cmd : Nat} (h : motOpen s n cmd = true) : moUsed s n = true := by
  simp only [motOpen, Bool.and_eq_true] at h
  exact h.1.1

theorem off_ne_of_motOpen {s : State} {n cmd : Nat} (h : motOpen s n cmd = true) : s.glb.state ≠ .off := by
  intro e
  simp [motOpen, holding, e] at h

theorem holding_of_motOpen {s : State} {n cmd : Nat} (h : motOpen s n cmd = true) (h6 : cmd ≠ 6) : holding s = false := by
  simp only [motOpen, holding] at h ⊢
  cases e : s.glb.state <;> simp [e, h6] at h ⊢

theorem moCode_used {s : State} {n : Nat} (h : moUsed s n = true) : moCode s n = (mo s n).st.code := if_pos h

/-! ## The command and its result -/

section
variable {n cmd : Nat} {u : State}

theorem motCmd_open (hopen : motOpen u n cmd = true) (hcmd : 1 ≤ cmd ∧ cmd ≤ 6) {flt : Bool} {bus res : Nat} {v : State}
    (h : motTable n cmd flt bus u = (res, v)) : motCmd n cmd flt bus u = motResult n cmd res (moCode u n) v := by
  unfold motCmd
  dsimp only
  rw [if_neg (off_ne_of_motOpen hopen), if_neg (by omega), if_neg (by simp [hopen]), h]

/-- The state that the status word shows, spelled out. -/
theorem motCmd_open_at (hopen : motOpen u n cmd = true) (hcmd : 1 ≤ cmd ∧ cmd ≤ 6) {st : MoSt} (hst : (mo u n).st = st) {flt : Bool}
    {bus res : Nat} {v : State} (h : motTable n cmd flt bus u = (res, v)) : motCmd n cmd flt bus u = motResult n cmd res st.code v := by
  rw [motCmd_open hopen hcmd h, moCode_used (moUsed_of_motOpen hopen), hst]

theorem motCmd_refused (hoff : u.glb.state ≠ .off) (hopen : motOpen u n cmd = false) (hcmd : 1 ≤ cmd ∧ cmd ≤ 6) (flt : Bool) (bus : Nat) :
    motCmd n cmd flt bus u = motResult n cmd 2 (moCode u n) u := by
  unfold motCmd
  dsimp only
  rw [if_neg hoff, if_neg (by omega), if_pos (by simp [hopen])]

end

/-! ## The table of R399 -/

section
variable {n : Nat} {u : State} (flt : Bool) (bus : Nat)

theorem motTable_start (hst : (mo u n).st = .off ∨ (mo u n).st = .coast ∨ (mo u n).st = .brake) :
    motTable n 1 flt bus u = if moCfgBad u n then (4, u) else (1, moSense n false u) := by
  have hfault : (mo u n).st ≠ .fault := by rcases hst with e | e | e <;> simp [e]
  exact (if_neg hfault).trans (if_pos hst)

theorem motTable_stop (hst : (mo u n).st = .run) : motTable n 2 flt bus u = (1, moDecel n false u) :=
  (if_neg (by simp [hst, MoSt.starting])).trans (if_pos hst)

theorem motTable_stop_starting (hst : (mo u n).st.starting = true ∨ (mo u n).st = .reacq) :
    motTable n 2 flt bus u = (1, moCoast n false u) := if_pos hst

theorem motTable_coast (hst : (mo u n).st = .run ∨ (mo u n).st = .decel ∨ (mo u n).st = .brake) :
    motTable n 3 flt bus u = (1, moCoast n false u) := if_pos (Or.inr (Or.inr hst))

theorem motTable_estop (hst : (mo u n).st = .run ∨ (mo u n).st = .decel) : motTable n 4 flt bus u = (1, moDecel n true u) := by
  refine (if_neg ?_).trans (if_pos hst)
  rcases hst with e | e <;> simp [e, MoSt.starting]

theorem motTable_move (hst : (mo u n).st = .run) (hencoder : moEncoder u n = true) (hsoft : useSoft 1 n u = u) (hhold : holding u = false)
    (hgood : moBadTarget u n (rd u (R.MOT_MCn_TGT n)).toNat = false) :
    motTable n 5 flt bus u = (1, moPlan n (.pos (rd u (R.MOT_MCn_TGT n)).toNat) u) := by
  have hmove : moMove n (rd u (R.MOT_MCn_TGT n)).toNat u = (true, moPlan n (.pos (rd u (R.MOT_MCn_TGT n)).toNat) u) := by
    unfold moMove
    rw [if_neg (by simp [hencoder, hgood]), hst]
  refine (if_neg (by simp [hst])).trans ?_
  rw [if_pos hencoder, hsoft, if_neg (by simp [hhold]), hmove]

theorem motTable_move_sensorless (hst : (mo u n).st = .run) (hencoder : moEncoder u n = false) (hhold : holding u = false) :
    motTable n 5 flt bus u = (4, u) := by
  have hmove : moMove n (rd u (R.MOT_MCn_TGT n)).toNat u = (false, u) := if_pos (by simp [hencoder])
  refine (if_neg (by simp [hst])).trans ?_
  rw [if_neg (c := moEncoder u n = true) (by simp [hencoder]), if_neg (by simp [hhold]), hmove]

theorem motTable_clrfault (hst : (mo u n).st = .fault) (hinvar : invarAgrees u (R.MOT_MCn_VBUS n) = true)
    (hbus : fld u (R.MOT_MCn_VBUS n) 31 16 ≤ bus) :
    motTable n 6 flt bus u = if flt then (5, u) else (1, moCoast n false u) := by
  have huse : useInvar [R.MOT_MCn_VBUS n] u = u := useInvar_of_agrees (by simpa using hinvar)
  refine (if_neg (not_not.mpr hst)).trans ?_
  rw [huse]
  exact if_congr (or_iff_left (by omega)) rfl rfl

end

/-- The command register's write that each command of a channel is. -/
theorem exec_motorCommand {n : Fin 4} {bus : BitVec 16} {s : State} {c : Instr} {cmd : Nat}
    (h : (c, cmd) ∈ [(Instr.motStart n, 1), (.motStop n, 2), (.motCoast n, 3), (.motEstop n, 4), (.motMove n, 5),
      (.motClrfault n false bus, 6), (.motClrfault n true bus, 6)]) :
    (1 ≤ cmd ∧ cmd ≤ 6) ∧ ∃ flt volts, exec c s = finish (viaBar0 (R.MOT_MCn_CMD n) (motCmd n cmd flt volts) s) := by
  simp only [List.mem_cons, Prod.mk.injEq, List.not_mem_nil, or_false] at h
  obtain ⟨rfl, rfl⟩ | ⟨rfl, rfl⟩ | ⟨rfl, rfl⟩ | ⟨rfl, rfl⟩ | ⟨rfl, rfl⟩ | ⟨rfl, rfl⟩ | ⟨rfl, rfl⟩ := h
  all_goals exact ⟨by decide, _, _, rfl⟩

/-- Settles O42, by the table of states and commands. -/
theorem motorCommands : Obligations.MotorCommands := by
  refine ⟨?start, ?badStart, ?stop, ?stopStarting, ?coast, ?estop, ?move, ?sensorless, ?clrfault, ?refused⟩
  case start =>
    rintro n s u hopen rfl hcmd hst hgood
    exact bar0Write_completes (f := motCmd n 1 false 0) rfl hopen (motCmd_open hcmd (by decide)
      ((motTable_start false 0 hst).trans (if_neg (Bool.eq_false_iff.mp hgood))))
  case badStart =>
    rintro n s u hopen rfl hcmd hst hbad
    exact bar0Write_completes (f := motCmd n 1 false 0) rfl hopen (motCmd_open hcmd (by decide)
      ((motTable_start false 0 hst).trans (if_pos hbad)))
  case stop =>
    rintro n s u hopen rfl hcmd hst
    exact bar0Write_completes (f := motCmd n 2 false 0) rfl hopen (motCmd_open_at hcmd (by decide) hst (motTable_stop false 0 hst))
  case stopStarting =>
    rintro n s u hopen rfl hcmd hst
    exact bar0Write_completes (f := motCmd n 2 false 0) rfl hopen (motCmd_open hcmd (by decide) (motTable_stop_starting false 0 hst))
  case coast =>
    rintro n s u hopen rfl hcmd hst
    exact bar0Write_completes (f := motCmd n 3 false 0) rfl hopen (motCmd_open hcmd (by decide) (motTable_coast false 0 hst))
  case estop =>
    rintro n s u hopen rfl hcmd hst
    exact bar0Write_completes (f := motCmd n 4 false 0) rfl hopen (motCmd_open hcmd (by decide) (motTable_estop false 0 hst))
  case move =>
    rintro n s u hopen rfl hcmd hst hencoder hsoft hgood
    exact bar0Write_completes (f := motCmd n 5 false 0) rfl hopen (motCmd_open_at hcmd (by decide) hst
      (motTable_move false 0 hst hencoder hsoft (holding_of_motOpen hcmd (by decide)) hgood))
  case sensorless =>
    rintro n s u hopen rfl hcmd hst hencoder
    exact bar0Write_completes (f := motCmd n 5 false 0) rfl hopen (motCmd_open_at hcmd (by decide) hst
      (motTable_move_sensorless false 0 hst hencoder (holding_of_motOpen hcmd (by decide))))
  case clrfault =>
    rintro n bus s u hopen rfl hcmd hst hinvar hbus
    exact ⟨bar0Write_completes (f := motCmd n 6 false (busOf s n bus.toNat)) rfl hopen (motCmd_open_at hcmd (by decide) hst
        (motTable_clrfault false _ hst hinvar hbus)),
      bar0Write_completes (f := motCmd n 6 true (busOf s n bus.toNat)) rfl hopen (motCmd_open_at hcmd (by decide) hst
        (motTable_clrfault true _ hst hinvar hbus))⟩
  case refused =>
    rintro n bus s u c cmd hopen rfl hoff hclosed hc
    obtain ⟨hcmd, flt, volts, hexec⟩ := exec_motorCommand (s := s) hc
    exact bar0Write_completes hexec hopen (motCmd_refused hoff hclosed hcmd flt volts)

end Sys2Proof.Machine
end

section
/-!
PROOFS. The start of a motor channel, its zero crossings, the loss of its rotor and the end of a coast (spec/12_motor_drive.md R384 to R392).
-/
namespace Sys2Proof.Machine

/-! ## Channels and their outputs (R373, R374) -/

theorem modMo_congr {n : Nat} {f g : Motor → Motor} {s : State} (h : f (mo s n) = g (mo s n)) : modMo n f s = modMo n g s := by
  unfold modMo vmod
  exact congrArg (fun x => { s with mot := vset s.mot n x }) h

theorem modMo_modMo (n : Nat) (f g : Motor → Motor) (s : State) : modMo n f (modMo n g s) = modMo n (fun x => f (g x)) s := by
  unfold modMo vmod
  simp only [vat_vset_self, vset_vset]

@[simp] theorem mo_logEvent (k : EvKind) (i a b c : Nat) (s : State) (n : Nat) : mo (logEvent k i a b c s) n = mo s n := rfl

@[simp] theorem mo_moRelease (m : Nat) (s : State) (n : Nat) : mo (moRelease m s) n = mo s n := rfl

theorem mo_putGates (n : Nat) (g : Vector Gates 3) (s : State) : mo (putGates n g s) n = { mo s n with gates := g } := by
  unfold putGates
  split
  next h => rw [← h]
  next h => exact mo_modMo n (fun x => { x with gates := g }) s

/-- The drive condition moves the outputs alone. -/
theorem mo_moDrive (n : Nat) (s : State) : ∃ g, mo (moDrive n s) n = { mo s n with gates := g } := by
  unfold moDrive
  split
  · exact ⟨_, mo_putGates ..⟩
  · exact ⟨_, mo_putGates ..⟩
  · exact ⟨_, rfl⟩

theorem mo_setMo (n : Nat) (st : MoSt) (s : State) : ∃ g, mo (setMo n st s) n = { mo s n with st := st, gates := g } := by
  unfold setMo
  split
  next h => exact ⟨(mo s n).gates, by rw [← h]⟩
  next h =>
    obtain ⟨g, e⟩ := mo_moDrive n (logEvent Ev.MOT_STATE n n (moCode s n) st.code (modMo n (fun x => { x with st := st }) s))
    exact ⟨g, by rw [e, mo_logEvent, mo_modMo]⟩

/-- The delivery of events leaves the motors as they are. -/
theorem mo_of_delivered {s t : State} (h : Delivered s t) (n : Nat) : mo t n = mo s n := by
  obtain ⟨_, _, _, _, _, _, _, _, _, _, _, _, _, _, _, e⟩ := h.rest
  rw [e]
  rfl

/-! ## The pre-start window (R384 to R386) -/

/-- A reverse rotation is taken down, with the instant from which it lasts. -/
def reverseSeen (n : Nat) (s : State) : State :=
  modMo n (fun x => { x with revFrom := some ((mo s n).revFrom.getD (s.now - 400000 * fld s (R.MOT_MCn_SENSE n) 7 0)),
                             revHold := false, zc := [] }) s

section
variable {n : Fin 4} {s : State} (hst : (mo s n).st = .sense)
include hst

theorem senseWindowEnd_still (h : senseSpeed s n = none) :
    exec (.senseWindowEnd n) s = finish (moAlign n (modMo n (fun x => { x with speed := 0 }) s)) := by
  refine congrArg finish ((if_neg (not_not.mpr hst)).trans ?_)
  dsimp only
  rw [h]
  rfl

variable {v : Int} (hv : senseSpeed s n = some v)
include hv

theorem senseWindowEnd_catch (hcatch : (catchRpm s n : Int) ≤ v) (hen : fld s (R.MOT_MCn_CFG n) 2 2 = 1) :
    exec (.senseWindowEnd n) s = finish (
      if (focRpm s n : Int) ≤ v then logEvent Ev.MOT_CATCH n n (toWord v).toNat 1 (moRun n v
        (modMo n (fun x => { x with speed := v, angle := heldAngle s n v }) s))
      else logEvent Ev.MOT_CATCH n n (toWord v).toNat 2
        (moStartup n true (v * (1000 * moPwmKhz s n : Nat)) (modMo n (fun x => { x with speed := v }) s))) := by
  refine congrArg finish ((if_neg (not_not.mpr hst)).trans ?_)
  dsimp only
  rw [hv]
  refine (if_pos ⟨rfl, hcatch, hen⟩).trans ?_
  rw [modMo_modMo]
  rfl

/-- A reverse rotation brakes where CFG lets it. -/
theorem senseWindowEnd_reverse (hneg : v < 0) (hrev : v ≤ -(revRpm s n : Int)) (hen : fld s (R.MOT_MCn_CFG n) 3 3 = 1) :
    exec (.senseWindowEnd n) s = finish (setMo n .revbrake (modMo n (fun x => { x with revAt := some s.now })
      (reverseSeen n (modMo n (fun x => { x with speed := v }) s)))) := by
  have hcatch : ¬(catchRpm s n : Int) ≤ v := by omega
  refine congrArg finish ((if_neg (not_not.mpr hst)).trans ?_)
  dsimp only
  rw [hv]
  exact (if_neg (fun h => hcatch h.2.1)).trans ((if_pos ⟨rfl, hrev, hneg⟩).trans (if_pos hen))

end

theorem alignEnd_exec {n : Fin 4} {s : State} (hst : (mo s n).st = .align) :
    exec (.alignEnd n) s = finish (if moEncoder s n
      then moRun n 0 (wr (R.MOT_MCn_EOFS n) (BitVec.ofNat 32 (narrow 16 (-(encTurn s n : Int)) + 65536)) s)
      else moStartup n false 0 s) :=
  congrArg finish (if_neg (not_not.mpr hst))

theorem moAlign_direct {n : Nat} {s : State} (hencoder : moEncoder s n = true) (hvalid : fld s (R.MOT_MCn_EOFS n) 16 16 = 1) :
    moAlign n s = moRun n 0 s := if_pos ⟨hencoder, hvalid⟩

theorem brakedMs_of_some {x : Motor} {t : Nat} (now : Nat) (h : x.revAt = some t) : x.brakedMs now = (now - t) / 400000 := by
  unfold Motor.brakedMs
  rw [h]

theorem heldAngle_encoder {s : State} {n : Nat} (v : Int) (h : moEncoder s n = true) :
    heldAngle s n v = (fld s (R.MOT_MCn_EOFS n) 15 0 + encTurn s n) % 65536 := if_pos h

/-- Control begins at a speed, with the demand there and iq at 0 (R384, R386, R388). -/
theorem moRun_begins (n : Nat) (v : Int) (s : State) : (mo (moRun n v s) n).st = .run ∧ (mo (moRun n v s) n).speed = v ∧
    (mo (moRun n v s) n).demand = v * demScale s n ∧ (mo (moRun n v s) n).iqReg = 0 ∧
    (mo (moRun n v s) n).ramp = fld s (R.MOT_MCn_HANDOVER n) 23 16 := by
  unfold moRun
  obtain ⟨g, e⟩ := mo_setMo n .run (modMo n (fun x => { x with
      speed := v, good := v, demand := v * demScale s n, lock := true, angRun := 0,
      prof := if x.moving then moTake s n x.prof else x.prof,
      dInt := 0, qInt := 0, sInt := 0, iqReg := 0, rampFrom := 0,
      emfRun := 0, lockRun := 0, ramp := fld s (R.MOT_MCn_HANDOVER n) 23 16, zc := [], emerg := false, phold := false }) s)
  rw [e, mo_modMo]
  exact ⟨rfl, rfl, rfl, rfl, rfl⟩

/-! ## Zero crossings and the loss of the rotor (R388) -/

/-- A crossing taken down. -/
def zcTaken (n : Nat) (phase : Fin 3) (rising : Bool) (s : State) : State :=
  modMo n (fun x => { x with zc := ((s.now, zcIndex phase.val rising) :: x.zc).take 64 }) s

theorem length_zcTaken (n : Nat) (phase : Fin 3) (rising : Bool) (s : State) :
    (mo (zcTaken n phase rising s) n).zc.length = min 64 ((mo s n).zc.length + 1) := by
  unfold zcTaken
  rw [mo_modMo, List.length_take, List.length_cons]

theorem zeroCrossing_sense {n : Fin 4} {s : State} (phase : Fin 3) (rising : Bool) (hst : (mo s n).st = .sense) :
    exec (.zeroCrossing n phase rising) s = finish (zcTaken n phase rising s) := by
  refine congrArg finish ?_
  dsimp only
  rw [hst]
  rfl

theorem zeroCrossing_reacq {n : Fin 4} {s : State} (phase : Fin 3) (rising : Bool) (hst : (mo s n).st = .reacq) :
    exec (.zeroCrossing n phase rising) s = finish (if 7 ≤ min 64 ((mo s n).zc.length + 1) then reacqTry n (zcTaken n phase rising s)
      else zcTaken n phase rising s) := by
  rw [← length_zcTaken n phase rising s]
  refine congrArg finish ?_
  dsimp only
  rw [hst]
  rfl

theorem reacqFail_again {n : Nat} {s : State} (h : (mo s n).fails < fld s (R.MOT_MCn_CFG n) 7 5) :
    reacqFail n s = modMo n (fun x => { x with fails := x.fails + 1, zc := [] }) s :=
  (if_neg (by omega)).trans (modMo_congr rfl)

theorem reacqFail_faults {n : Nat} {s : State} (h : fld s (R.MOT_MCn_CFG n) 7 5 ≤ (mo s n).fails) :
    reacqFail n s = raise (Ev.MOT_ROTOR_FAULT (moSev s n)) n n ((mo s n).fails + 1) (toWord (mo s n).speed).toNat
      (moFault n true (modMo n (fun x => { x with fails := (mo s n).fails + 1, zc := [] }) s)) := by
  refine (if_pos (by omega)).trans ?_
  rw [mo_modMo]

/-! ## The end of a coast (R392) -/

theorem coastTimeout_exec {n : Fin 4} {s : State} (hst : (mo s n).st = .coast) :
    exec (.coastTimeout n) s = finish (if (mo s n).wantBrake then moBrakeAsk n (modMo n (fun x => { x with speed := 0 }) s)
      else moRelease n (setMo n .off (modMo n (fun x => { x.idle with speed := 0 }) s))) :=
  congrArg finish (if_neg (not_not.mpr hst))

/-- Settles O40, by the state that each end of a window finds. -/
theorem motorStart : Obligations.MotorStart := by
  refine ⟨?still, ?catchRun, ?catchStart, ?reverse, ?align, ?alignEncoder, ?held, ?timeout, ?direct, ?braked, ?angle, ?run, ?zc, ?zcTry, ?again,
    ?faults, ?coasted, ?coastBrake, ?brake⟩
  case still => exact fun n s hst h => completes_of (senseWindowEnd_still hst h)
  case catchRun =>
    exact fun n v s hst hv hcatch hen hfoc => completes_of ((senseWindowEnd_catch hst hv hcatch hen).trans (congrArg finish (if_pos hfoc)))
  case catchStart =>
    exact fun n v s hst hv hcatch hen hfoc =>
      completes_of ((senseWindowEnd_catch hst hv hcatch hen).trans (congrArg finish (if_neg (by omega))))
  case reverse =>
    intro n v s hst hv hneg hrev hen
    rw [senseWindowEnd_reverse hst hv hneg hrev hen]
    obtain ⟨t, ht, hd⟩ := finish_next (setMo n .revbrake (modMo n (fun x => { x with revAt := some s.now })
      (reverseSeen n (modMo n (fun x => { x with speed := v }) s))))
    obtain ⟨g, hg⟩ := mo_setMo n .revbrake (modMo n (fun x => { x with revAt := some s.now })
      (reverseSeen n (modMo n (fun x => { x with speed := v }) s)))
    exact ⟨t, ht, by rw [mo_of_delivered hd, hg]⟩
  case align =>
    exact fun n s hst h => completes_of ((alignEnd_exec hst).trans (congrArg finish (if_neg (by simp [h]))))
  case alignEncoder =>
    intro n s hst h
    exact completes_of ((alignEnd_exec hst).trans (congrArg finish (if_pos h)))
  case held => exact fun n s hst hhold => completes_of (congrArg finish (if_pos ⟨hst, hhold⟩))
  case timeout => exact fun n s hst hfrom hhold => completes_of (congrArg finish (if_pos ⟨hst, hfrom, by simp [hhold]⟩))
  case direct => exact fun n s hencoder hvalid => moAlign_direct hencoder hvalid
  case braked => exact fun x t now h => brakedMs_of_some now h
  case angle => exact fun s n v h => heldAngle_encoder v h
  case run => exact fun n v s => moRun_begins n v s
  case zc =>
    intro n phase rising s hst hfew
    rcases hst with hst | hst
    · exact completes_of (zeroCrossing_sense phase rising hst)
    · exact completes_of ((zeroCrossing_reacq phase rising hst).trans (congrArg finish (if_neg (by omega))))
  case zcTry =>
    exact fun n phase rising s hst hmany =>
      completes_of ((zeroCrossing_reacq phase rising hst).trans (congrArg finish (if_pos (by omega))))
  case again => exact fun n s hst h => completes_of (congrArg finish ((if_pos hst).trans (reacqFail_again h)))
  case faults =>
    intro n s hst h hsev
    refine completes_of (congrArg finish ((if_pos hst).trans ((reacqFail_faults h).trans ?_)))
    rw [hsev]
  case coasted => exact fun n s hst h => completes_of ((coastTimeout_exec hst).trans (congrArg finish (if_neg (by simp [h]))))
  case coastBrake => exact fun n s hst h => completes_of ((coastTimeout_exec hst).trans (congrArg finish (if_pos h)))
  case brake => exact fun n s h => if_neg (by omega)

end Sys2Proof.Machine
end

section
/-!
PROOFS. The trips of a motor channel, its PWM periods, its outputs, and the limit of iq (spec/12_motor_drive.md R373 to R396).
-/
namespace Sys2Proof.Machine

/-! ## Trips (R375, R378, R393) -/

section
variable {n : Fin 4} {s : State}

theorem haltable_moFault (n : Nat) (brake : Bool) (o b : Nat) {s : State} (h : haltable s = true) :
    haltable (moFault n brake (setFlag o b s)) = true := by
  have hstate : (moFault n brake (setFlag o b s)).glb.state = s.glb.state := (fq_moFault ..).falls
  unfold haltable
  rw [hstate]
  exact h

theorem motGateFault_exec (hused : moUsed s n = true) :
    exec (.motGateFault n) s = finish (raise (Ev.MOT_GATE_FAULT (moSev s n)) n n (moCode s n) (toWord (mo s n).speed).toNat
      (moFault n false (setFlag (R.MOT_MCn_FLAG n) 2 s))) :=
  congrArg finish (if_neg (by simp [hused]))

theorem motOvercurrent_exec (phase : Fin 3) (ma : BitVec 32) (hused : moUsed s n = true) (hinvar : invarAgrees s (R.MOT_MCn_ILIM n) = true) :
    exec (.motOvercurrent n phase ma) s = finish (
      if fld s (R.MOT_MCn_ILIM n) 31 16 < (signed 32 ma.toNat).natAbs then moTrip n phase ma s else s) := by
  refine congrArg finish ((if_neg (by simp [hused])).trans ?_)
  dsimp only
  rw [useInvar_of_agrees (by simpa using hinvar)]
  exact if_congr decide_eq_true_iff rfl rfl

theorem vbusLowTimeout_exec (hst : (mo s n).st = .run ∨ (mo s n).st = .decel ∨ (mo s n).st = .startup)
    (hinvar : invarAgrees s (R.MOT_MCn_VBUS n) = true) :
    exec (.vbusLowTimeout n) s = finish (raise (Ev.MOT_VBUS_LOW (moSev s n)) n n (mo s n).vbus (moCode s n)
      (moFault n false (setFlag (R.MOT_MCn_FLAG n) 3 s))) := by
  have huse : (if moUsed s n then useInvar [R.MOT_MCn_VBUS n] s else s) = s := by
    rw [useInvar_of_agrees (by simpa using hinvar), ite_self]
  refine congrArg finish ?_
  dsimp only
  rw [huse]
  exact if_pos hst

end

/-- A channel in FAULT asks for nothing. -/
theorem mo_moFault (n : Nat) (brake : Bool) (s : State) : ∃ g, mo (moFault n brake s) n =
    { (mo s n).idle with wantBrake := brake, shorted := false, st := .fault, gates := g } := by
  unfold moFault
  obtain ⟨g, e⟩ := mo_moDrive n (setMo n .fault (modMo n (fun x => { x.idle with wantBrake := brake, shorted := false }) s))
  obtain ⟨g', e'⟩ := mo_setMo n .fault (modMo n (fun x => { x.idle with wantBrake := brake, shorted := false }) s)
  rw [mo_moRelease, e, e', mo_modMo]
  exact ⟨g, rfl⟩

/-! ## The samples of a period (R376, R377) -/

section
variable (r tmin : Nat) (a b c : Int) (x y z : Nat) (prev : List Int)

theorem phaseCurrents_sampled (hx : tmin ≤ x) (hy : tmin ≤ y) (hz : tmin ≤ z) :
    phaseCurrents r tmin [a, b, c] [x, y, z] prev = [quotT a r, quotT b r, quotT c r] := by
  have hbad : those 3 (fun k => [x, y, z].getD k 0 < tmin) = [] := by
    simp [those, List.range_succ, hx, hy, hz]
  unfold phaseCurrents
  dsimp only
  rw [hbad]
  rfl

theorem phaseCurrents_short (hx : tmin ≤ x) (hy : tmin ≤ y) (hz : z < tmin) :
    phaseCurrents r tmin [a, b, c] [x, y, z] prev = [quotT a r, quotT b r, -(quotT a r + quotT b r)] := by
  have hbad : those 3 (fun k => [x, y, z].getD k 0 < tmin) = [2] := by
    simp [those, List.range_succ, List.filter, Nat.not_lt.mpr hx, Nat.not_lt.mpr hy, hz]
  unfold phaseCurrents
  dsimp only
  rw [hbad]
  simp

theorem phaseCurrents_kept (hx : x < tmin) (hz : z < tmin) : phaseCurrents r tmin [a, b, c] [x, y, z] prev = prev := by
  have hbad : those 3 (fun k => [x, y, z].getD k 0 < tmin) = if y < tmin then [0, 1, 2] else [0, 2] := by
    by_cases hy : y < tmin <;> simp [those, List.range_succ, hx, hy, hz, List.filter]
  unfold phaseCurrents
  dsimp only
  rw [hbad]
  split_ifs <;> rfl

end

theorem rampDemand_up {d tgt acc : Int} (dec : Int) (hd : 0 ≤ d) (hle : d ≤ tgt) :
    rampDemand d tgt acc dec = min (d + acc) tgt ∨ d = tgt := by
  rcases hle.eq_or_lt with h | h
  · exact Or.inr h
  · left
    have hup : (d.natAbs < tgt.natAbs && (0 ≤ d) = (0 ≤ tgt || d = 0) : Bool) = true := by
      have : 0 ≤ tgt := by omega
      simp [hd, this]
      omega
    unfold rampDemand
    dsimp only
    rw [if_pos h, if_neg (by omega : ¬d < 0), hup]
    rfl

/-! ## The outputs (R373, R374, R386) -/

theorem cond_coast {x : Motor} (h : x.st ∈ [MoSt.off, .sense, .reacq, .coast]) : x.cond = .coast := by
  simp only [List.mem_cons, List.not_mem_nil, or_false] at h
  unfold Motor.cond
  rcases h with e | e | e | e <;> rw [e]

theorem cond_braking {x : Motor} (h : x.st = .revbrake ∨ x.st = .brake) : x.cond = if x.chop then .coast else .short := by
  unfold Motor.cond
  rcases h with e | e <;> rw [e]

theorem cond_modulated_iff (x : Motor) : x.cond = .modulated ↔ x.st ∈ [MoSt.align, .startup, .run, .decel] := by
  unfold Motor.cond
  cases x.st <;> simp <;> split <;> simp

/-- The dead time stands between the switches of a phase, within the period (R373). -/
theorem pwm_deadTime {t dt d : Nat} (h : dt < min d (t - 2 * dt)) : (Gates.pwm t dt d).hiOn < (Gates.pwm t dt d).hiOff ∧
    (Gates.pwm t dt d).hiOn = (Gates.pwm t dt d).loOff + dt ∧ (Gates.pwm t dt d).loOn = (Gates.pwm t dt d).hiOff + dt ∧
    (Gates.pwm t dt d).loOn ≤ t := by
  have e : Gates.pwm t dt d = ⟨(t - min d (t - 2 * dt)) / 2 + dt, (t - min d (t - 2 * dt)) / 2 + min d (t - 2 * dt),
      (t - min d (t - 2 * dt)) / 2, (t - min d (t - 2 * dt)) / 2 + min d (t - 2 * dt) + dt⟩ := if_neg (by omega)
  rw [e]
  refine ⟨?_, rfl, rfl, ?_⟩ <;> dsimp only <;> omega

theorem gates_moDrive_coast {n : Nat} {s : State} (h : (mo s n).cond = .coast) (k : Nat) :
    vat (mo (moDrive n s) n).gates k = Gates.off := by
  unfold moDrive
  rw [h]
  dsimp only
  rw [mo_putGates]
  simp [vat]

theorem sectorPhases_distinct (i : Nat) : (sectorPhases i).1 < 3 ∧ (sectorPhases i).2 < 3 ∧ (sectorPhases i).1 ≠ (sectorPhases i).2 := by
  unfold sectorPhases
  split <;> decide

/-- In STARTUP the negative phase of the sector is low over the period (R386). -/
theorem gates_moModulate_startup {n : Nat} {s : State} (hst : (mo s n).st = .startup) :
    vat (mo (moModulate n s) n).gates (sectorPhases (mo s n).sector).2 = Gates.low (moPeriod s n) := by
  obtain ⟨-, hlt, hne⟩ := sectorPhases_distinct (mo s n).sector
  have hmod : ¬(mo s n).cond ≠ .modulated := not_not.mpr ((cond_modulated_iff _).mpr (by simp [hst]))
  unfold moModulate
  dsimp only
  rw [if_neg hmod, mo_putGates]
  simp [vat, hst, Nat.mod_eq_of_lt hlt, hne.symm]

/-! ## The limit of iq (R382, R386, R391) -/

/-- The root's bits below 2^k, from the highest down, on top of `r`. -/
def rootFrom (n k r : Nat) : Nat := (List.range k).foldr (fun i r => let t := r + 2 ^ i; if t * t ≤ n then t else r) r

theorem rootFrom_succ (n k r : Nat) :
    rootFrom n (k + 1) r = rootFrom n k (if (r + 2 ^ k) * (r + 2 ^ k) ≤ n then r + 2 ^ k else r) := by
  unfold rootFrom
  rw [List.range_succ, List.foldr_append]
  rfl

theorem rootFrom_spec {n : Nat} (k : Nat) {r : Nat} (hlo : r * r ≤ n) (hhi : n < (r + 2 ^ k) * (r + 2 ^ k)) :
    rootFrom n k r * rootFrom n k r ≤ n ∧ n < (rootFrom n k r + 1) * (rootFrom n k r + 1) := by
  induction k generalizing r with
  | zero => exact ⟨hlo, hhi⟩
  | succ k ih =>
    rw [rootFrom_succ]
    split
    next h => exact ih h (by rwa [add_assoc, ← two_mul, ← pow_succ'])
    next h => exact ih hlo (not_le.mp h)

theorem isqrt_spec {n : Nat} (h : n < 2 ^ 80) : isqrt n * isqrt n ≤ n ∧ n < (isqrt n + 1) * (isqrt n + 1) :=
  rootFrom_spec 40 (r := 0) (Nat.zero_le n) (by simpa using h)

theorem sq_toNat (x : Int) : (x * x).toNat = x.natAbs * x.natAbs := by
  rw [← Int.natAbs_mul, ← Int.natAbs_of_nonneg (mul_self_nonneg x), Int.toNat_natCast]
  exact congrArg Int.natAbs (Int.natAbs_of_nonneg (mul_self_nonneg x)).symm

/-- The integer root of a difference of squares. -/
theorem isqrt_diff {a b : Nat} (hba : b ≤ a) (ha : a < 2 ^ 16) :
    isqrt (a * a - b * b) * isqrt (a * a - b * b) + b * b ≤ a * a ∧
    a * a < (isqrt (a * a - b * b) + 1) * (isqrt (a * a - b * b) + 1) + b * b := by
  have hle : b * b ≤ a * a := Nat.mul_le_mul hba hba
  have hsq : a * a < 2 ^ 16 * 2 ^ 16 := Nat.mul_lt_mul'' ha ha
  obtain ⟨hlo, hhi⟩ := isqrt_spec (n := a * a - b * b) (lt_of_le_of_lt (Nat.sub_le ..) (hsq.trans (by norm_num)))
  exact ⟨by omega, by omega⟩

theorem iqMax_eq (s : State) (n : Nat) (x : Motor) : iqMax s n x =
    isqrt (fld s (R.MOT_MCn_ILIM n) 15 0 * fld s (R.MOT_MCn_ILIM n) 15 0 - x.idref.natAbs * x.idref.natAbs) := by
  rw [← sq_toNat]
  rfl

theorem iqMax_root {s : State} {n : Nat} {x : Motor} (h : x.idref.natAbs ≤ fld s (R.MOT_MCn_ILIM n) 15 0) :
    iqMax s n x * iqMax s n x + x.idref.natAbs * x.idref.natAbs ≤ fld s (R.MOT_MCn_ILIM n) 15 0 * fld s (R.MOT_MCn_ILIM n) 15 0 ∧
    fld s (R.MOT_MCn_ILIM n) 15 0 * fld s (R.MOT_MCn_ILIM n) 15 0 <
      (iqMax s n x + 1) * (iqMax s n x + 1) + x.idref.natAbs * x.idref.natAbs := by
  rw [iqMax_eq]
  exact isqrt_diff h (bits_lt ..)

theorem natAbs_sat_le (top : Nat) (w : Int) : (sat (-top) top w).natAbs ≤ top := by
  rw [sat_eq_clamp (by omega)]
  omega

theorem iqDemand_le (s : State) (n : Nat) (x : Motor) : (iqDemand s n x).natAbs ≤ iqMax s n x := by
  unfold iqDemand
  extract_lets top irun braking n0 want i
  split
  · exact Nat.zero_le _
  · exact natAbs_sat_le _ _

/-- Once the ramp of the hand-over is over, what the speed regulator asks for within the limit. -/
theorem iqDemand_regulated {s : State} {n : Nat} {x : Motor} (hramp : x.ramp = 0) (hst : x.st ≠ .decel)
    (h : x.iqReg.natAbs ≤ iqMax s n x) : iqDemand s n x = x.iqReg := by
  unfold iqDemand
  dsimp only
  rw [if_neg (by simp [hst]), if_neg (by simp [hst]), if_pos hramp, sat_eq_clamp (by omega)]
  omega

/-- A bus at its limit takes no more braking current (R391). -/
theorem iqDemand_busHigh {s : State} {n : Nat} {x : Motor} (hst : x.st = .decel) (hbus : fld s (R.MOT_MCn_VBUS n) 15 0 ≤ x.vbus)
    (hv : 0 < x.speed) : 0 ≤ iqDemand s n x := by
  unfold iqDemand
  extract_lets top irun braking n0 want i
  by_cases hi : i < 0
  · rw [if_pos (by simp [braking, hst, hbus, hv, hi])]
  · split
    · exact le_refl (0 : Int)
    · exact not_lt.mp hi

/-! ## A period (R376, R378) -/

/-- The first number below `n` of a property. -/
theorem those_of_first {n k : Nat} {p : Nat → Bool} (hk : k < n) (hp : p k = true) (hmin : ∀ j < k, p j = false) :
    ∃ l, those n p = k :: l := by
  induction n with
  | zero => omega
  | succ n ih =>
    have hsucc : those (n + 1) p = those n p ++ if p n then [n] else [] := by
      unfold those
      rw [List.range_succ, List.filter_append, List.filter_singleton]
      cases p n <;> rfl
    rcases Nat.lt_succ_iff_lt_or_eq.mp hk with h | rfl
    · obtain ⟨l, e⟩ := ih h
      exact ⟨l ++ if p n then [n] else [], by rw [hsucc, e]; rfl⟩
    · have hnone : those k p = [] := List.filter_eq_nil_iff.mpr (fun j hj => by simp [hmin j (List.mem_range.mp hj)])
      exact ⟨[], by rw [hsucc, hnone, if_pos hp]; rfl⟩

@[simp] theorem mo_adcPut (i : Nat) (mv : Int) (s : State) (m : Nat) : mo (adcPut i mv s) m = mo s m := by
  unfold adcPut
  split <;> rfl

theorem mo_forEach {l : List Nat} {f : Nat → State → State} {m : Nat} (h : ∀ i s, mo (f i s) m = mo s m) (s : State) :
    mo (forEach l f s) m = mo s m := by
  induction l generalizing s with
  | nil => rfl
  | cons i l ih => exact (ih (f i s)).trans (h i s)

theorem mo_moSamples (n : Nat) (uv : List Int) (bus : Nat) (ph : List Nat) (s : State) (m : Nat) :
    mo (moSamples n uv bus ph s) m = mo s m := by
  have hshunts : mo (forEach (List.range 3) (fun k => adcPut (moShunt s n + k) (uv.getD k 0 / 1000)) s) m = mo s m :=
    mo_forEach (fun _ _ => mo_adcPut ..) s
  have hphases : mo (if bits (rd s (R.MOT_MCn_VSENSE n)) 5 0 = 0x3F
      then forEach (List.range 3) (fun k => adcPut (moShunt s n + k) (uv.getD k 0 / 1000)) s
      else forEach (List.range 3) (fun k => adcPut (bits (rd s (R.MOT_MCn_VSENSE n)) 5 0 + k) (ph.getD k 0))
        (forEach (List.range 3) (fun k => adcPut (moShunt s n + k) (uv.getD k 0 / 1000)) s)) m = mo s m := by
    split
    · exact hshunts
    · exact (mo_forEach (fun _ _ => mo_adcPut ..) _).trans hshunts
  unfold moSamples
  dsimp only
  split
  · exact hphases
  · exact (mo_adcPut ..).trans hphases

/-- A measurement changes no state. -/
theorem st_moMeasure (n : Nat) (u : List Int) (on : List Nat) (bus : Nat) (ph : List Nat) (s : State) :
    (mo (moMeasure n u on bus ph s) n).st = (mo s n).st := by
  unfold moMeasure
  dsimp only
  rw [mo_modMo, mo_moSamples]

/-- The voltages that the gain stage lets through (R376). -/
def gained (uv : Vector (BitVec 24) 3) : List Int := uv.toList.map (fun x => sat (-200000) 200000 (signed 24 x.toNat))

theorem length_gained (uv : Vector (BitVec 24) 3) : (gained uv).length = 3 := by simp [gained]

theorem gained_eq (uv : Vector (BitVec 24) 3) : gained uv = uv.toList.map (fun x => max (-200000) (min 200000 (signed 24 x.toNat))) :=
  congrArg (fun f => uv.toList.map f) (funext fun _ => sat_eq_clamp (by decide) _)

/-- The state after the samples of a period. -/
def measured (n : Nat) (uv : Vector (BitVec 24) 3) (on : Vector (BitVec 16) 3) (volts : MotorVolts) (s : State) : State :=
  moMeasure n (gained uv) (on.toList.map BitVec.toNat) volts.bus.toNat (volts.ph.toList.map BitVec.toNat) s

/-- What the samples of a period leave in the channel, spelled out. -/
theorem measured_eq {n r : Nat} {uv : Vector (BitVec 24) 3} {s : State} (hr : r = fld s (R.MOT_MCn_SHUNT n) 15 0)
    (on : Vector (BitVec 16) 3) (volts : MotorVolts) : measured n uv on volts s = modMo n (fun x => { x with
      cur := phaseCurrents r (fld s (R.MOT_MCn_SHUNT n) 23 16) (gained uv) (on.toList.map BitVec.toNat) (mo s n).cur,
      vbus := busOf s n volts.bus.toNat,
      phv := if fld s (R.MOT_MCn_VSENSE n) 5 0 = 0x3F then x.phv
        else volts.ph.toList.map (fun p => p.toNat * fld s (R.MOT_MCn_VSENSE n) 31 16 / 256),
      per := (x.per + 1) % (4 * max 1 (moPwmKhz s n)),
      chop := (x.st = .revbrake || x.st = .brake || x.shorted) &&
        (phaseCurrents r (fld s (R.MOT_MCn_SHUNT n) 23 16) (gained uv) (on.toList.map BitVec.toNat) (mo s n).cur).any
          (fun i => fld s (R.MOT_MCn_BRKFW n) 15 0 < i.natAbs) })
      (moSamples n (gained uv) volts.bus.toNat (volts.ph.toList.map BitVec.toNat) s) := by
  subst hr
  unfold measured moMeasure
  dsimp only
  rw [List.map_map]
  rfl

section
variable {n : Fin 4} {uv : Vector (BitVec 24) 3} {on : Vector (BitVec 16) 3} {volts : MotorVolts} {s : State} {r : Nat}
  (hused : moUsed s n = true)
  (hinvar : ∀ o, o ∈ [R.MOT_MCn_ILIM n, R.MOT_MCn_LOCK n, R.MOT_MCn_BRKFW n, R.MOT_MCn_VBUS n, R.MOT_MCn_SOFTMIN n, R.MOT_MCn_SOFTMAX n,
    R.MOT_MCn_LIMCFG n] → invarAgrees s o = true)
  (hr : r = fld s (R.MOT_MCn_SHUNT n) 15 0)

include hr in
theorem overTrip_sample {k : Nat} (hk : k < 3) :
    overTrip s n (((gained uv).map (fun x => quotT x (fld s (R.MOT_MCn_SHUNT n) 15 0 : Nat))).getD k 0) =
      decide (fld s (R.MOT_MCn_ILIM n) 31 16 < (quotT ((gained uv).getD k 0) r).natAbs) ∧
    ((gained uv).map (fun x => quotT x (fld s (R.MOT_MCn_SHUNT n) 15 0 : Nat))).getD k 0 = quotT ((gained uv).getD k 0) r := by
  have hlt : k < (gained uv).length := by rw [length_gained]; exact hk
  have e : ((gained uv).map (fun x => quotT x (fld s (R.MOT_MCn_SHUNT n) 15 0 : Nat))).getD k 0 = quotT ((gained uv).getD k 0) r := by
    rw [hr]
    simp [List.getD_eq_getElem?_getD, hlt]
  exact ⟨by rw [e]; rfl, e⟩

include hused hinvar hr

theorem pwmPeriod_trips {k : Nat} (hk : k < 3)
    (hbelow : ∀ j < k, (quotT ((gained uv).getD j 0) r).natAbs ≤ fld s (R.MOT_MCn_ILIM n) 31 16)
    (hover : fld s (R.MOT_MCn_ILIM n) 31 16 < (quotT ((gained uv).getD k 0) r).natAbs) (hst : (mo s n).st ≠ .fault) :
    exec (.pwmPeriodUpdate n uv on volts) s =
      finish (moTrip n k (toWord (quotT ((gained uv).getD k 0) r)) (measured n uv on volts s)) := by
  obtain ⟨l, hfirst⟩ := those_of_first (n := 3)
    (p := fun k => overTrip s n (((gained uv).map (fun x => quotT x (fld s (R.MOT_MCn_SHUNT n) 15 0 : Nat))).getD k 0)) hk
    (by rw [(overTrip_sample hr hk).1]; exact decide_eq_true hover)
    (fun j hj => by rw [(overTrip_sample hr (hj.trans hk)).1]; exact decide_eq_false (not_lt.mpr (hbelow j hj)))
  refine congrArg finish ((if_neg (by simp [hused])).trans ?_)
  dsimp only
  rw [useInvar_of_agrees hinvar]
  unfold gained at hfirst
  rw [hfirst]
  have hfault : ¬((mo (measured n uv on volts s) n).st = .fault ∧ (mo (measured n uv on volts s) n).cond = .coast) :=
    fun h => hst ((st_moMeasure ..).symm.trans h.1)
  refine (if_neg hfault).trans ?_
  rw [← (overTrip_sample hr hk).2]
  rfl

theorem pwmPeriod_controls (hbelow : ∀ k < 3, (quotT ((gained uv).getD k 0) r).natAbs ≤ fld s (R.MOT_MCn_ILIM n) 31 16) :
    exec (.pwmPeriodUpdate n uv on volts) s = finish (moControl n (measured n uv on volts s)) := by
  have hnone : those 3 (fun k =>
      overTrip s n (((gained uv).map (fun x => quotT x (fld s (R.MOT_MCn_SHUNT n) 15 0 : Nat))).getD k 0)) = [] :=
    List.filter_eq_nil_iff.mpr (fun k hk => by
      rw [(overTrip_sample hr (List.mem_range.mp hk)).1, decide_eq_true_iff]
      exact not_lt.mpr (hbelow k (List.mem_range.mp hk)))
  refine congrArg finish ((if_neg (by simp [hused])).trans ?_)
  dsimp only
  rw [useInvar_of_agrees hinvar]
  unfold gained at hnone
  rw [hnone]
  rfl

end

/-- The control of a period by state. -/
def controlled (n : Nat) (s : State) : MoSt → State
  | .run | .decel => focPeriod n s
  | .align => alignPeriod n s
  | .startup => startupPeriod n s
  | .revbrake => revPeriod n s
  | .coast | .brake => restPeriod n s
  | .off | .sense | .reacq | .fault => s

theorem moControl_eq (n : Nat) (s : State) : moControl n s = moModulate n (controlled n s (mo s n).st) := by
  unfold moControl controlled
  cases (mo s n).st <;> rfl

/-- Settles O41, by what each sample and each state ask of a period. -/
theorem motorPeriods : Obligations.MotorPeriods := by
  refine ⟨?gate, ?overTrip, ?within, ?vbus, ?halts, ?fault, ?unused, ?period, ?sampled, ?short, ?kept, ?ramp, ?coast, ?braking, ?modulated, ?dead,
    ?off, ?root, ?limited, ?regulated, ?busHigh, ?startup, ?sectors⟩
  case gate =>
    intro n s hused hsev
    refine completes_of ((motGateFault_exec hused).trans ?_)
    rw [hsev]
  case overTrip =>
    intro n phase ma s hused hsev hinvar hover
    refine completes_of ((motOvercurrent_exec phase ma hused hinvar).trans (congrArg finish ((if_pos hover).trans ?_)))
    unfold moTrip
    rw [hsev]
  case within =>
    exact fun n phase ma s hused hinvar hbelow =>
      completes_of ((motOvercurrent_exec phase ma hused hinvar).trans (congrArg finish (if_neg (by omega))))
  case vbus =>
    intro n s hst hsev hinvar
    refine completes_of ((vbusLowTimeout_exec hst hinvar).trans ?_)
    rw [hsev]
  case halts =>
    intro n phase ma s hused hsev hs hinvar hover
    rw [motGateFault_exec hused, motOvercurrent_exec phase ma hused hinvar, if_pos hover, moTrip, hsev]
    exact ⟨finish_raise_safeHold _ _ _ _ rfl (haltable_moFault n false _ _ hs),
      finish_raise_safeHold _ _ _ _ rfl (haltable_moFault n false _ _ hs)⟩
  case fault =>
    intro n s _
    obtain ⟨g, e⟩ := mo_moFault n false s
    rw [e]
    exact ⟨rfl, rfl, rfl⟩
  case unused => exact fun n uv on volts s hused => completes_of (congrArg finish (if_pos (by simp [hused])))
  case period =>
    intro n uv on volts s u r s1 hused hinvar hu hr hs1
    rw [← gained_eq] at hu
    subst hu
    obtain rfl : s1 = measured n uv on volts s := hs1.trans (measured_eq hr on volts).symm
    refine ⟨fun k hk hbelow hover hst => completes_of (pwmPeriod_trips hused hinvar hr hk hbelow hover hst), fun hbelow => ?_⟩
    have hexec := pwmPeriod_controls (on := on) (volts := volts) hused hinvar hr hbelow
    rw [moControl_eq, measured, st_moMeasure] at hexec
    refine ⟨fun hst => ?_, fun hst => ?_, fun hst => ?_, fun hst => ?_, fun hst => ?_, fun hst => ?_⟩ <;>
      refine completes_of (hexec.trans ?_)
    · rcases hst with e | e <;> rw [e] <;> rfl
    · rw [hst]
      rfl
    · rw [hst]
      rfl
    · rw [hst]
      rfl
    · rcases hst with e | e <;> rw [e] <;> rfl
    · simp only [List.mem_cons, List.not_mem_nil, or_false] at hst
      rcases hst with e | e | e | e <;> rw [e] <;> rfl
  case sampled => exact fun r tmin a b c x y z prev hx hy hz => phaseCurrents_sampled r tmin a b c x y z prev hx hy hz
  case short => exact fun r tmin a b c x y z prev hx hy hz => phaseCurrents_short r tmin a b c x y z prev hx hy hz
  case kept => exact fun r tmin a b c x y z prev hx hz => phaseCurrents_kept r tmin a b c x y z prev hx hz
  case ramp => exact fun d tgt acc dec _ _ hd hle => rampDemand_up dec hd hle
  case coast => exact fun x h => cond_coast h
  case braking => exact fun x h => cond_braking h
  case modulated => exact fun x => cond_modulated_iff x
  case dead => exact fun t dt d h => pwm_deadTime h
  case off => exact fun n s h k _ => gates_moDrive_coast h k
  case root => exact fun s n x h => iqMax_root h
  case limited => exact fun s n x => iqDemand_le s n x
  case regulated => exact fun s n x hramp hst h => iqDemand_regulated hramp hst h
  case busHigh => exact fun s n x hst hbus hv => iqDemand_busHigh hst hbus hv
  case startup => exact fun n s hst => gates_moModulate_startup hst
  case sectors => exact fun i _ => sectorPhases_distinct i

end Sys2Proof.Machine
end
